-- ==== Sys2Proof/Word.lean ====
section
/-! DEFINITION. Word: the bit-vector widths of the HK-7 (00 R7, 01 R18, 02 R45). -/

namespace Sys2Proof

/-- One byte of memory. -/
abbrev Byte := BitVec 8
/-- One 32-bit value of a lane-register (R45). -/
abbrev Word := BitVec 32
/-- A 64-bit value: a pair (R46), a timeline value, a Fuset register, a record word. -/
abbrev DWord := BitVec 64
/-- A set of lanes of a team: bit L is logical lane L (R17, R18). Bits at or above the width are zero. -/
abbrev Mask := BitVec 1024
/-- A sparse array: keys strictly rising, no entry equal to zero, every other key holding zero. -/
abbrev Sparse (w : Nat) := List (Nat × BitVec w)

end Sys2Proof
end

