-- ==== Sys2Proof/Config.lean ====
section
/-! DEFINITION. Config: the capacities of the machine (00 R1-R8), and the values the spec leaves open, each an opaque constant
that nothing in Lean can evaluate. -/

namespace Sys2Proof.Config

/-- Logical compute cores (00 R2, 12 R266). -/
def cores : Nat := 192
/-- Cores of a cluster (03 R71). -/
def coresPerCluster : Nat := 8
/-- Clusters (12 R266). -/
def clusters : Nat := 24
/-- Clusters of one compute die (00 R2). -/
def clustersPerDie : Nat := 12
/-- Bytes of a core scratchpad (03 R71). -/
def spadBytes : Nat := 524288
/-- Bytes of one die's chip scratchpad (03 R71, 24 R447). -/
def chipBytes : Nat := 67108864
/-- Bytes of the capacity tier, 3 TiB (03 R81). -/
def capacityBytes : Nat := 0x30000000000
/-- Accumulator banks of a core (05 R127). -/
def accBanks : Nat := 128
/-- Words of an accumulator bank (05 R127). -/
def bankWords : Nat := 512
/-- Lines of one die's L2: 96 MiB of 128 bytes (00 R2). -/
def l2Lines : Nat := 786432
/-- Cycles of one microsecond of the limits counted in microseconds: the arithmetic clock runs at 1 GHz (00 R2, 17 R373; log 2). -/
def cyclesPerMicro : Nat := 1000

/-- Cycles that pass beyond one at step `tick`: the spec fixes no duration for most steps (17; log 2). -/
opaque freeCycles : Nat → Nat
/-- Whether access `tick` to a page whose cached translation is stale uses the old one (24 R458; log 7). -/
opaque staleChoice : Nat → Nat → Bool
/-- Which line gives way, at step `tick`, when a die's L2 is full: the spec names no rule (03 R81; log 3). -/
opaque l2Victim : Nat → Nat
/-- Whether the CPY32 or tensor load with an identity wrote an 8-byte unit before the other write of it that was made while it was outstanding
(04 R113, 14 R315; logs 14, 129). -/
opaque copyFirst : Nat → Nat → Bool
/-- Ehrud's HSS root public key as the ROM is given it, and the SHA-256 digest of it that the mask ROM holds (26 R485; log 6). -/
opaque rootKey : List Byte
/-- That digest. -/
opaque romAnchor : List Byte
/-- The identifier and the seed of a lower tree of the identity key, by the key's own and the tree's number: the standard leaves them
open (26 R488, R492; log 6). -/
opaque lowerTree : List Byte → List Byte → Nat → List Byte × List Byte
/-- The randomiser of a signature, by level and leaf: the standard asks for any (26 R488; log 6). -/
opaque lmsRandom : Nat → Nat → List Byte
/-- The start-up pattern of the identity's SRAM at boot number n: 4 KiB (26 R492; log 6). -/
opaque sramPattern : Nat → List Byte
/-- The 256-bit value that a pattern gives once corrected with helper data, where it can be corrected: the spec names no code (26 R492;
log 6). -/
opaque pufCorrect : List Byte → List Byte → Option (List Byte)
/-- The memory units and the link that fail to train at boot number n: HBM stacks, LPDDR packages, the CXL link (26 R489; log 83). -/
opaque trainFailures : Nat → List (Nat × Nat)
/-- The bytes that the signature of an SPDM answer covers, by request and answer (26 R494; log 122). -/
opaque spdmSigned : List Byte → List Byte → List Byte
/-- Ehrud's registry identifier of the signature algorithm in SPDM's extended field (26 R494; log 122). -/
opaque hssRegistry : DWord
/-- The module's serial number (29 R521). -/
opaque serial : DWord
/-- The configuration image of a boot image's body, as the units it disables: core, datapath, stack engine, port numbers (26 R487,
R489; the body's layout is not given). -/
opaque disabledUnits : List Byte → List (Nat × Nat)
/-- The digests a body gives to measurement slots 0 to 3 (26 R491; the body's layout is not given). -/
opaque bodyDigest : List Byte → Nat → List Byte
/-- Bytes of packet `psn` on the wire: the spec gives the standard's framing, not a length (27 R497, R501). -/
opaque packetBytes : Nat → Nat
/-- Bytes on the wire of the acknowledgement of packet `psn`, which has the standard's framing too (27 R497, R501). -/
opaque ackBytes : Nat → Nat
/-- The entropy value of packet `psn`: the spec says only that each has its own (27 R503; log 58). -/
opaque entropy : Nat → BitVec 16
/-- The class of the entry that a dropped publication makes, and its two values: the spec says only that it is logged (14 R327; log 101). -/
opaque dropClass : BitVec 8
/-- Those values. -/
opaque dropValue : Nat → DWord
/-- The bytes of an area of a save image that the spec does not lay out: by kind of area, what it lists for the area, and offset (24
R462). -/
opaque imageByte : Nat → List Nat → Nat → BitVec 8

end Sys2Proof.Config
end

