-- ==== Sys2Proof/Machine/Crypto.lean ====
section
/-! DEFINITION. Crypto: SHA-256 (26 R485, R487, R491), and the HSS keys and signatures of 26 R488 and R492. R488 and R492 name the
standards and give none of their bits: FIPS 180-4, and RFC 8554 with NIST SP 800-208 (PRESUMED, log 6). Byte strings are lists, first
byte first. -/

namespace Sys2Proof.Machine

/-! ## SHA-256 -/

/-- A number as `n` bytes, most significant first. -/
def beBytes (n v : Nat) : List Byte := (List.range n).map (fun i => BitVec.ofNat 8 (v / 2 ^ (8 * (n - 1 - i))))

/-- Bytes as a number, most significant first. -/
def beNat (bs : List Byte) : Nat := bs.foldl (fun a b => a * 256 + b.toNat) 0

/-- The first `n` bytes of a string, with zeros after a shorter one. -/
def fixLen (n : Nat) (bs : List Byte) : List Byte := (bs ++ List.replicate n 0).take n

/-- The round constants. -/
def shaK : List Word :=
  [0x428A2F98, 0x71374491, 0xB5C0FBCF, 0xE9B5DBA5, 0x3956C25B, 0x59F111F1, 0x923F82A4, 0xAB1C5ED5,
   0xD807AA98, 0x12835B01, 0x243185BE, 0x550C7DC3, 0x72BE5D74, 0x80DEB1FE, 0x9BDC06A7, 0xC19BF174,
   0xE49B69C1, 0xEFBE4786, 0x0FC19DC6, 0x240CA1CC, 0x2DE92C6F, 0x4A7484AA, 0x5CB0A9DC, 0x76F988DA,
   0x983E5152, 0xA831C66D, 0xB00327C8, 0xBF597FC7, 0xC6E00BF3, 0xD5A79147, 0x06CA6351, 0x14292967] ++
  [0x27B70A85, 0x2E1B2138, 0x4D2C6DFC, 0x53380D13, 0x650A7354, 0x766A0ABB, 0x81C2C92E, 0x92722C85,
   0xA2BFE8A1, 0xA81A664B, 0xC24B8B70, 0xC76C51A3, 0xD192E819, 0xD6990624, 0xF40E3585, 0x106AA070,
   0x19A4C116, 0x1E376C08, 0x2748774C, 0x34B0BCB5, 0x391C0CB3, 0x4ED8AA4A, 0x5B9CCA4F, 0x682E6FF3,
   0x748F82EE, 0x78A5636F, 0x84C87814, 0x8CC70208, 0x90BEFFFA, 0xA4506CEB, 0xBEF9A3F7, 0xC67178F2]

/-- The eight words of a hash in progress. -/
structure Hash where
  a : Word
  b : Word
  c : Word
  d : Word
  e : Word
  f : Word
  g : Word
  h : Word
deriving DecidableEq, Repr

/-- The first hash value. -/
def Hash.start : Hash :=
  ⟨0x6A09E667, 0xBB67AE85, 0x3C6EF372, 0xA54FF53A, 0x510E527F, 0x9B05688C, 0x1F83D9AB, 0x5BE0CD19⟩

/-- Two hashes added word by word. -/
def Hash.add (x y : Hash) : Hash := ⟨x.a + y.a, x.b + y.b, x.c + y.c, x.d + y.d, x.e + y.e, x.f + y.f, x.g + y.g, x.h + y.h⟩

/-- A hash as 32 bytes. -/
def Hash.bytes (x : Hash) : List Byte := [x.a, x.b, x.c, x.d, x.e, x.f, x.g, x.h].flatMap (fun w => beBytes 4 w.toNat)

/-- The next word of the message schedule after the sixteen last, oldest first. -/
def nextW (w : List Word) : Word :=
  let w15 := w.getD 1 0
  let w2 := w.getD 14 0
  (w2.rotateRight 17 ^^^ w2.rotateRight 19 ^^^ (w2 >>> 10)) + w.getD 9 0 + (w15.rotateRight 7 ^^^ w15.rotateRight 18 ^^^ (w15 >>> 3)) +
    w.getD 0 0

/-- One round with its schedule word and constant. -/
def shaRound (x : Hash) (w k : Word) : Hash :=
  let t1 := x.h + (x.e.rotateRight 6 ^^^ x.e.rotateRight 11 ^^^ x.e.rotateRight 25) + ((x.e &&& x.f) ^^^ (~~~x.e &&& x.g)) + k + w
  let t2 := (x.a.rotateRight 2 ^^^ x.a.rotateRight 13 ^^^ x.a.rotateRight 22) + ((x.a &&& x.b) ^^^ (x.a &&& x.c) ^^^ (x.b &&& x.c))
  ⟨t1 + t2, x.a, x.b, x.c, x.d + t1, x.e, x.f, x.g⟩

/-- The rounds over the constants left; `w` holds the sixteen schedule words that come next. -/
def shaRounds (ks w : List Word) (x : Hash) : Hash :=
  match ks with
  | [] => x
  | k :: r => shaRounds r (w.drop 1 ++ [nextW w]) (shaRound x (w.getD 0 0) k)

/-- The 32-bit words of `n` words of bytes. -/
def beWords (n : Nat) (bs : List Byte) : List Word := (List.range n).map (fun i => BitVec.ofNat 32 (beNat ((bs.drop (4 * i)).take 4)))

/-- A block of 64 bytes taken into a hash. -/
def shaBlock (x : Hash) (bs : List Byte) : Hash := x.add (shaRounds shaK (beWords 16 bs) x)

/-- `n` blocks. -/
def shaBlocks (n : Nat) (bs : List Byte) (x : Hash) : Hash :=
  match n with
  | 0 => x
  | k + 1 => shaBlocks k (bs.drop 64) (shaBlock x (bs.take 64))

/-- A message padded to whole blocks: the bit 1, zeros, its length in bits as 64. -/
def shaPad (bs : List Byte) : List Byte :=
  bs ++ [0x80] ++ List.replicate ((119 - bs.length % 64) % 64) 0 ++ beBytes 8 (8 * bs.length)

/-- SHA-256 of a byte string: 32 bytes. -/
def sha256 (bs : List Byte) : List Byte := (shaBlocks ((shaPad bs).length / 64) (shaPad bs) Hash.start).bytes

/-! ## One-time signatures: LMOTS_SHA256_N32_W8 -/

/-- The typecode of the one-time signature, and of the tree. -/
def otsType : Nat := 4
/-- LMS_SHA256_M32_H15. -/
def lmsType : Nat := 7
/-- The height of a tree (R488). -/
def lmsHeight : Nat := 15
/-- The 32-byte strings of a one-time signature. -/
def otsChains : Nat := 34

/-- What every hash of a tree begins with: its identifier, a 32-bit and a 16-bit number. -/
def lmsPrefix (ident : List Byte) (q i : Nat) : List Byte := ident ++ beBytes 4 q ++ beBytes 2 i

/-- A chain from value `j`, `n` steps of it. -/
def otsChain (ident : List Byte) (q i j n : Nat) (x : List Byte) : List Byte :=
  match n with
  | 0 => x
  | k + 1 => otsChain ident q i (j + 1) k (sha256 (lmsPrefix ident q i ++ beBytes 1 j ++ x))

/-- The hash of a message with its randomiser, and its checksum: one byte for each chain. -/
def otsDigits (ident : List Byte) (q : Nat) (rand msg : List Byte) : List Byte :=
  let h := sha256 (lmsPrefix ident q 0x8181 ++ rand ++ msg)
  h ++ beBytes 2 (h.map (fun b => 255 - b.toNat)).sum

/-- The secret start of a chain (RFC 8554 Appendix A; R492). -/
def otsSecret (ident seed : List Byte) (q i : Nat) : List Byte := sha256 (lmsPrefix ident q i ++ beBytes 1 0xFF ++ seed)

/-- The hash of the ends of all chains. -/
def otsEnds (ident : List Byte) (q : Nat) (ends : List (List Byte)) : List Byte := sha256 (lmsPrefix ident q 0x8080 ++ ends.flatten)

/-- The public half of a one-time key. -/
def otsPublic (ident seed : List Byte) (q : Nat) : List Byte :=
  otsEnds ident q ((List.range otsChains).map (fun i => otsChain ident q i 0 255 (otsSecret ident seed q i)))

/-- A one-time signature of a message. -/
def otsSign (ident seed : List Byte) (q : Nat) (rand msg : List Byte) : List Byte :=
  beBytes 4 otsType ++ rand ++
    ((List.range otsChains).map (fun i =>
      otsChain ident q i 0 ((otsDigits ident q rand msg).getD i 0).toNat (otsSecret ident seed q i))).flatten

/-- The public half that a one-time signature of a message points to. -/
def otsCandidate (ident : List Byte) (q : Nat) (sig msg : List Byte) : List Byte :=
  let ds := otsDigits ident q ((sig.drop 4).take 32) msg
  otsEnds ident q ((List.range otsChains).map (fun i =>
    let a := (ds.getD i 0).toNat
    otsChain ident q i a (255 - a) ((sig.drop (36 + 32 * i)).take 32)))

/-! ## Trees: LMS_SHA256_M32_H15 -/

/-- Bytes of a one-time signature, of a tree's signature, and of a tree's public key. -/
def otsSigBytes : Nat := 36 + 32 * otsChains
/-- Those of a tree's signature. -/
def lmsSigBytes : Nat := 8 + otsSigBytes + 32 * lmsHeight
/-- Those of a tree's public key. -/
def lmsKeyBytes : Nat := 56

/-- The hash at a leaf of the tree. -/
def lmsLeaf (ident : List Byte) (r : Nat) (key : List Byte) : List Byte := sha256 (lmsPrefix ident r 0x8282 ++ key)

/-- The hash at an inner node. -/
def lmsInner (ident : List Byte) (r : Nat) (left right : List Byte) : List Byte := sha256 (lmsPrefix ident r 0x8383 ++ left ++ right)

/-- Node `r` of a tree, `h` levels above the leaves. -/
def lmsNode (ident seed : List Byte) (h r : Nat) : List Byte :=
  match h with
  | 0 => lmsLeaf ident r (otsPublic ident seed (r - 2 ^ lmsHeight))
  | k + 1 => lmsInner ident r (lmsNode ident seed k (2 * r)) (lmsNode ident seed k (2 * r + 1))

/-- A tree's public key. -/
def lmsPublic (ident seed : List Byte) : List Byte := beBytes 4 lmsType ++ beBytes 4 otsType ++ ident ++ lmsNode ident seed lmsHeight 1

/-- The other children on the way from leaf `q` to the root. -/
def lmsPath (ident seed : List Byte) (q : Nat) : List Byte :=
  ((List.range lmsHeight).map (fun i =>
    let r := (2 ^ lmsHeight + q) / 2 ^ i
    lmsNode ident seed i (if r % 2 = 0 then r + 1 else r - 1))).flatten

/-- A tree's signature of a message with leaf `q`. -/
def lmsSign (ident seed : List Byte) (q : Nat) (rand msg : List Byte) : List Byte :=
  beBytes 4 q ++ otsSign ident seed q rand msg ++ beBytes 4 lmsType ++ lmsPath ident seed q

/-- The root that a node and its path point to. -/
def lmsClimb (ident : List Byte) (h r : Nat) (node path : List Byte) : List Byte :=
  match h with
  | 0 => node
  | k + 1 =>
    let side := path.take 32
    lmsClimb ident k (r / 2) (if r % 2 = 1 then lmsInner ident (r / 2) side node else lmsInner ident (r / 2) node side) (path.drop 32)

/-- A tree's signature of a message verifies against its public key. -/
def lmsVerify (key msg sig : List Byte) : Bool :=
  let ident := (key.drop 8).take 16
  let q := beNat (sig.take 4)
  let ots := (sig.drop 4).take otsSigBytes
  key.length = lmsKeyBytes && sig.length = lmsSigBytes && beNat (key.take 4) = lmsType && beNat ((key.drop 4).take 4) = otsType &&
    beNat (ots.take 4) = otsType && beNat ((sig.drop (4 + otsSigBytes)).take 4) = lmsType && q < 2 ^ lmsHeight &&
    lmsClimb ident lmsHeight (2 ^ lmsHeight + q) (lmsLeaf ident (2 ^ lmsHeight + q) (otsCandidate ident q ots msg))
      (sig.drop (8 + otsSigBytes)) = key.drop 24

/-! ## Two levels: HSS -/

/-- Bytes of a signature (29 R521). -/
def hssSigBytes : Nat := 4 + lmsSigBytes + lmsKeyBytes + lmsSigBytes

/-- An HSS public key: its levels and its top tree's key. -/
def hssPublic (ident seed : List Byte) : List Byte := beBytes 4 2 ++ lmsPublic ident seed

/-- A signature of two levels verifies against a public key. -/
def hssVerify (key msg sig : List Byte) : Bool :=
  let top := (sig.drop 4).take lmsSigBytes
  let child := (sig.drop (4 + lmsSigBytes)).take lmsKeyBytes
  beNat (key.take 4) = 2 && beNat (sig.take 4) = 1 && sig.length = hssSigBytes && lmsVerify (key.drop 4) child top &&
    lmsVerify child msg (sig.drop (4 + lmsSigBytes + lmsKeyBytes))

/-- The signature of a message with leaf `q` of the 2^30: the lower tree of number q / 2^15, whose key the top tree signs. The lower tree's
identifier and seed and the randomisers are left open by the standard (log 6). -/
def hssSign (ident seed : List Byte) (q : Nat) (msg : List Byte) : List Byte :=
  let t := q / 2 ^ lmsHeight
  let low := Config.lowerTree ident seed t
  let key := lmsPublic (fixLen 16 low.1) (fixLen 32 low.2)
  beBytes 4 1 ++ lmsSign ident seed t (fixLen 32 (Config.lmsRandom 0 t)) key ++ key ++
    lmsSign (fixLen 16 low.1) (fixLen 32 low.2) (q % 2 ^ lmsHeight) (fixLen 32 (Config.lmsRandom 1 q)) msg

end Sys2Proof.Machine
end

