-- ==== Sys2Proof/Syntax.lean ====
section
/-! DEFINITION. Syntax: the operand records and the ONE inductive of steps. A Slauk row carries the fields its format has
(R213, R215, R217, R218); a Fuset row the fields of R347; a command row the words of R432; an event row names the unit it
happens to. -/

namespace Sys2Proof

/-- The fields of a C16 parcel (R213). -/
structure COps where
  d : BitVec 6
  b : BitVec 5
deriving DecidableEq, Repr

/-- The fields of a W32 word (R215). -/
structure WOps where
  f : BitVec 4
  d : BitVec 6
  a : BitVec 6
  b : BitVec 6
deriving DecidableEq, Repr

/-- The fields of an L64 word, or of an X96 word when `lit` holds its literal (R217, R218). `ru` is bit 52. -/
structure LOps where
  f : BitVec 4
  d : BitVec 8
  a : BitVec 8
  b : BitVec 8
  c : BitVec 8
  p : BitVec 8
  pn : Bool
  ru : Bool
  rm : BitVec 3
  sc : BitVec 4
  lit : Option (BitVec 32)
deriving DecidableEq, Repr

/-- The fields of a Fuset word (R347) but its opcode. -/
structure FOps where
  fd : BitVec 5
  fa : BitVec 5
  fb : BitVec 5
  imm : BitVec 41
deriving DecidableEq, Repr

/-- A command entry (R432): SEQ, the word at 0x08, and A0 to A5. -/
structure Cmd where
  seq : DWord
  head : DWord
  a0 : DWord
  a1 : DWord
  a2 : DWord
  a3 : DWord
  a4 : DWord
  a5 : DWord
deriving DecidableEq, Repr

/-- What every message between modules carries (R354): the ranks, the context number, the round and the ring generation. -/
structure Hdr where
  src : Nat
  dst : Nat
  cc : Nat
  round : Nat
  gen : Nat
deriving DecidableEq, Repr

/-- A message between modules (R354, R358, R364, R511). `gather` tells a final owner's gather curd from a chain curd. -/
inductive Msg where
  /-- One block of a chunk, with the sender's entry number for the answer (R180). -/
  | curd (h : Hdr) (gather : Bool) (chunk block entry : Nat) (bytes : List Byte)
  /-- The answer to a curd: accepted or refused "not posted" (R189). -/
  | reply (h : Hdr) (entry block : Nat) (accepted : Bool)
  /-- A posted notice for a chunk (R358). -/
  | posted (h : Hdr) (gather : Bool) (chunk : Nat)
  /-- An abort notice (R364). -/
  | abort (h : Hdr)
  /-- A member's report to a re-formation (R511). -/
  | report (h : Hdr) (lastck curround : Nat)
  /-- The leader's results (R511). -/
  | results (h : Hdr) (newgen restart nextround : Nat) (ranks : List Nat)
deriving DecidableEq, Repr

/-- A packet of the transport that arrives (R498, R501, R503, R504, R506): its source rank and sequence number, the port and the bytes
received, the codewords of it that FEC corrected, its place among the ordered messages from its source, if it is one, with the lowest such
place that the source still holds, the key it was encrypted with, and whether its tag verifies under that key. -/
structure Packet where
  src : Nat
  psn : Nat
  port : Nat
  len : Nat
  corr : Nat
  rod : Option Nat
  clear : Nat
  key : Option (List Byte)
  auth : Bool
  body : Msg
deriving DecidableEq, Repr

/-- An MMIO access of the host to the BAR: its offset and its width in bytes (R428). -/
structure BarAccess where
  off : Nat
  width : Nat
deriving DecidableEq, Repr

/-- Codewords met together at a port outside its packets: so many uncorrectable, and so many corrected (R501, R502). -/
structure FecBurst where
  port : Nat
  count : Nat
  corr : Nat
deriving DecidableEq, Repr

/-- An acknowledgement as it arrives: the port, the sequence number of the packet, its length in bytes and the codewords corrected in it
(R501, R504, R505). -/
structure Ack where
  port : Nat
  psn : Nat
  len : Nat
  corr : Nat
deriving DecidableEq, Repr

/-- Where an uncorrectable soft error is consumed (R470). -/
inductive ErrorSite where
  /-- A lane's register, its lane-private data or a value delivered to it. -/
  | lane (b t lane : Nat)
  /-- The logic check of lane `i` of a datapath: every lane mapped to it. -/
  | datapathLane (core dp i : Nat)
  /-- Team control state. -/
  | teamControl (b t : Nat)
  /-- A k-register, front state, an accumulator bank, an A latch, a scratchpad line, an engine command, or a stack engine during an MVX of the block. -/
  | block (b : Nat)
  /-- Cluster memory of the gang that holds block b. -/
  | clusterMemory (b : Nat)
  /-- A stack engine or port during the churn of a block of an entry. -/
  | churn (cc e blk : Nat)
  /-- Distributor, L2 tags, shadow maps or interconnect: die 0, die 1, or 2 for the fabric die. -/
  | unpinned (die : Nat)
  /-- A capacity-tier word found uncorrectable: written back with poison. -/
  | memoryWord (pa : Nat)
  /-- The same of a word of a core's scratchpad, of its accumulator memory, of its register file. -/
  | spadWord (core off : Nat)
  | accWord (core w : Nat)
  | registerWord (b t n lane : Nat)
deriving DecidableEq, Repr

/-- A unit that can leave service (R523), and the memory units and the link of the self-test (R521). -/
inductive UnitId where
  | core (n : Nat)
  | datapath (n : Nat)
  | stackEngine (n : Nat)
  | port (n : Nat)
  | hbm (n : Nat)
  | lpddr (n : Nat)
  | cxl
deriving DecidableEq, Repr

/-- A host access through the CXL.mem window, by host-managed offset from WINBASE, or a host's store to its own memory, where the
device reads the command ring (R428, R429, R435). -/
inductive HostAccess where
  | read (off len : Nat)
  | write (off : Nat) (bytes : List Byte)
  | ownWrite (pa : Nat) (bytes : List Byte)
deriving DecidableEq, Repr

/-- The SPDM requests the device supports (R494). -/
inductive SpdmReq where
  | getVersion
  | getCapabilities
  | negotiateAlgorithms
  | getDigests
  | getCertificate
  | challenge (nonce : List Byte)
  | getMeasurements (signed : Bool) (index : Nat) (nonce : List Byte)
deriving DecidableEq, Repr

/-- The steps of the machine: one constructor per row of spec/opcode_table.json (R226, R350, R433 and the rows that are
events of other agents). -/
inductive Instr where
  /-- NOP_C16 (R214): Compact NOP parcel 0x001E; does nothing. -/
  | nopC16 (o : COps)
  /-- NOP_W32 (R238): W32 NOP; does nothing. -/
  | nopW32 (o : WOps)
  /-- NOP_L64 (R238): L64 NOP, optionally predicated; does nothing. -/
  | nopL64 (o : LOps)
  /-- MOV_C16 (R214): Compact MOV: copies vb to vd in each executing lane. -/
  | movC16 (o : COps)
  /-- MOV_W32 (R238): W32 MOV: copies b to d in each executing lane. -/
  | movW32 (o : WOps)
  /-- MOV_L64 (R238): L64 MOV, or X96 MOVI writing the literal to d. -/
  | movL64 (o : LOps)
  /-- IADD_C16 (R214): Compact wrapping add vd := vd + vb. -/
  | iaddC16 (o : COps)
  /-- IADD_W32 (R238): W32 integer add, wrapping or saturating by minor. -/
  | iaddW32 (o : WOps)
  /-- IADD_L64 (R238): L64 or X96 integer add, wrapping or saturating. -/
  | iaddL64 (o : LOps)
  /-- ISUB_C16 (R214): Compact wrapping subtract vd := vd - vb. -/
  | isubC16 (o : COps)
  /-- ISUB_W32 (R238): W32 integer subtract, wrapping or saturating. -/
  | isubW32 (o : WOps)
  /-- ISUB_L64 (R238): L64 or X96 integer subtract. -/
  | isubL64 (o : LOps)
  /-- IMUL_C16 (R214): Compact low-half multiply vd := vd × vb. -/
  | imulC16 (o : COps)
  /-- IMUL_W32 (R238): W32 integer multiply, low or high half. -/
  | imulW32 (o : WOps)
  /-- IMUL_L64 (R238): L64 or X96 integer multiply. -/
  | imulL64 (o : LOps)
  /-- IMAD (R238): Integer multiply-add, 32-bit or wide 64-bit (L64, X96). -/
  | imad (o : LOps)
  /-- IDIV_W32 (R238): W32 integer divide toward zero; zero divisor raises IDZ. -/
  | idivW32 (o : WOps)
  /-- IDIV_L64 (R238): L64 or X96 integer divide. -/
  | idivL64 (o : LOps)
  /-- IREM_W32 (R238): W32 integer remainder with the dividend's sign. -/
  | iremW32 (o : WOps)
  /-- IREM_L64 (R238): L64 or X96 integer remainder. -/
  | iremL64 (o : LOps)
  /-- IMIN_W32 (R238): W32 signed or unsigned minimum. -/
  | iminW32 (o : WOps)
  /-- IMIN_L64 (R238): L64 or X96 integer minimum. -/
  | iminL64 (o : LOps)
  /-- IMAX_W32 (R238): W32 signed or unsigned maximum. -/
  | imaxW32 (o : WOps)
  /-- IMAX_L64 (R238): L64 or X96 integer maximum. -/
  | imaxL64 (o : LOps)
  /-- ICMP_W32 (R239): W32 integer compare writing 1 or 0. -/
  | icmpW32 (o : WOps)
  /-- ICMP_L64 (R239): L64 or X96 integer compare. -/
  | icmpL64 (o : LOps)
  /-- SEL (R239): Selects a or b by bit 0 of c (L64, X96). -/
  | sel (o : LOps)
  /-- AND_C16 (R214): Compact bitwise AND. -/
  | andC16 (o : COps)
  /-- AND_W32 (R240): W32 bitwise AND. -/
  | andW32 (o : WOps)
  /-- AND_L64 (R240): L64 or X96 bitwise AND. -/
  | andL64 (o : LOps)
  /-- OR_C16 (R214): Compact bitwise OR. -/
  | orC16 (o : COps)
  /-- OR_W32 (R240): W32 bitwise OR. -/
  | orW32 (o : WOps)
  /-- OR_L64 (R240): L64 or X96 bitwise OR. -/
  | orL64 (o : LOps)
  /-- XOR_C16 (R214): Compact bitwise XOR. -/
  | xorC16 (o : COps)
  /-- XOR_W32 (R240): W32 bitwise XOR. -/
  | xorW32 (o : WOps)
  /-- XOR_L64 (R240): L64 or X96 bitwise XOR. -/
  | xorL64 (o : LOps)
  /-- ANDN_W32 (R240): W32 a AND NOT b. -/
  | andnW32 (o : WOps)
  /-- ANDN_L64 (R240): L64 or X96 a AND NOT b. -/
  | andnL64 (o : LOps)
  /-- ORN_W32 (R240): W32 a OR NOT b. -/
  | ornW32 (o : WOps)
  /-- ORN_L64 (R240): L64 or X96 a OR NOT b. -/
  | ornL64 (o : LOps)
  /-- XNOR_W32 (R240): W32 NOT (a XOR b). -/
  | xnorW32 (o : WOps)
  /-- XNOR_L64 (R240): L64 or X96 XNOR. -/
  | xnorL64 (o : LOps)
  /-- NOT_W32 (R240): W32 bitwise NOT of a. -/
  | notW32 (o : WOps)
  /-- NOT_L64 (R240): L64 bitwise NOT of a. -/
  | notL64 (o : LOps)
  /-- SHL_C16 (R214): Compact shift left. -/
  | shlC16 (o : COps)
  /-- SHL_W32 (R241): W32 shift left by the whole 32-bit count. -/
  | shlW32 (o : WOps)
  /-- SHL_L64 (R241): L64 or X96 shift left. -/
  | shlL64 (o : LOps)
  /-- SHRL_C16 (R214): Compact logical shift right. -/
  | shrlC16 (o : COps)
  /-- SHRL_W32 (R241): W32 logical shift right. -/
  | shrlW32 (o : WOps)
  /-- SHRL_L64 (R241): L64 or X96 logical shift right. -/
  | shrlL64 (o : LOps)
  /-- SHRA_C16 (R214): Compact arithmetic shift right. -/
  | shraC16 (o : COps)
  /-- SHRA_W32 (R241): W32 arithmetic shift right. -/
  | shraW32 (o : WOps)
  /-- SHRA_L64 (R241): L64 or X96 arithmetic shift right. -/
  | shraL64 (o : LOps)
  /-- ROTL_W32 (R241): W32 rotate left. -/
  | rotlW32 (o : WOps)
  /-- ROTL_L64 (R241): L64 or X96 rotate left. -/
  | rotlL64 (o : LOps)
  /-- ROTR_W32 (R241): W32 rotate right. -/
  | rotrW32 (o : WOps)
  /-- ROTR_L64 (R241): L64 or X96 rotate right. -/
  | rotrL64 (o : LOps)
  /-- SHF (R241): Funnel shift of b:a by c, left or right (L64, X96). -/
  | shf (o : LOps)
  /-- BFE_W32 (R242): W32 bit-field extract, signed or unsigned. -/
  | bfeW32 (o : WOps)
  /-- BFE_L64 (R242): L64 or X96 bit-field extract. -/
  | bfeL64 (o : LOps)
  /-- BFI (R242): Bit-field insert of a into b under control c (L64, X96). -/
  | bfi (o : LOps)
  /-- POPC_W32 (R243): W32 population count. -/
  | popcW32 (o : WOps)
  /-- POPC_L64 (R243): L64 population count. -/
  | popcL64 (o : LOps)
  /-- CLZ_W32 (R243): W32 count leading zeros. -/
  | clzW32 (o : WOps)
  /-- CLZ_L64 (R243): L64 count leading zeros. -/
  | clzL64 (o : LOps)
  /-- CTZ_W32 (R243): W32 count trailing zeros. -/
  | ctzW32 (o : WOps)
  /-- CTZ_L64 (R243): L64 count trailing zeros. -/
  | ctzL64 (o : LOps)
  /-- BREV_W32 (R243): W32 bit reverse. -/
  | brevW32 (o : WOps)
  /-- BREV_L64 (R243): L64 bit reverse. -/
  | brevL64 (o : LOps)
  /-- IABS_W32 (R238): W32 integer absolute value. -/
  | iabsW32 (o : WOps)
  /-- IABS_L64 (R238): L64 integer absolute value. -/
  | iabsL64 (o : LOps)
  /-- INEG_W32 (R238): W32 integer negate. -/
  | inegW32 (o : WOps)
  /-- INEG_L64 (R238): L64 integer negate. -/
  | inegL64 (o : LOps)
  /-- ADD64_W32 (R244): W32 64-bit pair add. -/
  | add64W32 (o : WOps)
  /-- ADD64_L64 (R244): L64 or X96 64-bit pair add. -/
  | add64L64 (o : LOps)
  /-- SUB64_W32 (R244): W32 64-bit pair subtract. -/
  | sub64W32 (o : WOps)
  /-- SUB64_L64 (R244): L64 or X96 64-bit pair subtract. -/
  | sub64L64 (o : LOps)
  /-- LEA_W32 (R244): W32 address add of sign-extended b shifted by the minor. -/
  | leaW32 (o : WOps)
  /-- LEA_L64 (R244): L64 or X96 LEA. -/
  | leaL64 (o : LOps)
  /-- SHL64_W32 (R241): W32 64-bit shift left. -/
  | shl64W32 (o : WOps)
  /-- SHL64_L64 (R241): L64 or X96 64-bit shift left. -/
  | shl64L64 (o : LOps)
  /-- SHR64_W32 (R241): W32 64-bit logical shift right. -/
  | shr64W32 (o : WOps)
  /-- SHR64_L64 (R241): L64 or X96 64-bit shift right. -/
  | shr64L64 (o : LOps)
  /-- CMP64_W32 (R239): W32 64-bit compare writing 1 or 0. -/
  | cmp64W32 (o : WOps)
  /-- CMP64_L64 (R239): L64 or X96 64-bit compare. -/
  | cmp64L64 (o : LOps)
  /-- BYSEL (R243): Byte select and transform from b:a under control c. -/
  | bysel (o : LOps)
  /-- IDOT4 (R238): Four-way byte dot product accumulated into c. -/
  | idot4 (o : LOps)
  /-- FADD_C16 (R214): Compact FP32 add under .rn. -/
  | faddC16 (o : COps)
  /-- FADD_W32 (R245): W32 floating add, f32 or packed. -/
  | faddW32 (o : WOps)
  /-- FADD_L64 (R245): L64 or X96 floating add with rounding mode. -/
  | faddL64 (o : LOps)
  /-- FSUB_C16 (R214): Compact FP32 subtract. -/
  | fsubC16 (o : COps)
  /-- FSUB_W32 (R245): W32 floating subtract. -/
  | fsubW32 (o : WOps)
  /-- FSUB_L64 (R245): L64 or X96 floating subtract. -/
  | fsubL64 (o : LOps)
  /-- FMUL_C16 (R214): Compact FP32 multiply. -/
  | fmulC16 (o : COps)
  /-- FMUL_W32 (R245): W32 floating multiply. -/
  | fmulW32 (o : WOps)
  /-- FMUL_L64 (R245): L64 or X96 floating multiply. -/
  | fmulL64 (o : LOps)
  /-- FFMA (R245): Fused multiply-add with one rounding (L64, X96). -/
  | ffma (o : LOps)
  /-- FMIN_C16 (R214): Compact FP32 minimum. -/
  | fminC16 (o : COps)
  /-- FMIN_W32 (R246): W32 FP32 minimum, NaN beside number yields number. -/
  | fminW32 (o : WOps)
  /-- FMIN_L64 (R246): L64 or X96 FP32 minimum. -/
  | fminL64 (o : LOps)
  /-- FMAX_C16 (R214): Compact FP32 maximum. -/
  | fmaxC16 (o : COps)
  /-- FMAX_W32 (R246): W32 FP32 maximum. -/
  | fmaxW32 (o : WOps)
  /-- FMAX_L64 (R246): L64 or X96 FP32 maximum. -/
  | fmaxL64 (o : LOps)
  /-- FMINP_W32 (R246): W32 NaN-propagating minimum. -/
  | fminpW32 (o : WOps)
  /-- FMINP_L64 (R246): L64 or X96 NaN-propagating minimum. -/
  | fminpL64 (o : LOps)
  /-- FMAXP_W32 (R246): W32 NaN-propagating maximum. -/
  | fmaxpW32 (o : WOps)
  /-- FMAXP_L64 (R246): L64 or X96 NaN-propagating maximum. -/
  | fmaxpL64 (o : LOps)
  /-- FCMP_W32 (R247): W32 FP32 compare writing 1 or 0. -/
  | fcmpW32 (o : WOps)
  /-- FCMP_L64 (R247): L64 or X96 FP32 compare. -/
  | fcmpL64 (o : LOps)
  /-- FABS_W32 (R248): W32 clear sign bit. -/
  | fabsW32 (o : WOps)
  /-- FABS_L64 (R248): L64 clear sign bit. -/
  | fabsL64 (o : LOps)
  /-- FNEG_W32 (R248): W32 invert sign bit. -/
  | fnegW32 (o : WOps)
  /-- FNEG_L64 (R248): L64 invert sign bit. -/
  | fnegL64 (o : LOps)
  /-- FCPYS_W32 (R248): W32 copy sign of b onto a. -/
  | fcpysW32 (o : WOps)
  /-- FCPYS_L64 (R248): L64 or X96 copy sign. -/
  | fcpysL64 (o : LOps)
  /-- FDIV_W32 (R249): W32 correctly rounded FP32 divide. -/
  | fdivW32 (o : WOps)
  /-- FDIV_L64 (R249): L64 or X96 FP32 divide. -/
  | fdivL64 (o : LOps)
  /-- FSQRT_W32 (R249): W32 correctly rounded square root. -/
  | fsqrtW32 (o : WOps)
  /-- FSQRT_L64 (R249): L64 square root. -/
  | fsqrtL64 (o : LOps)
  /-- FCLASS_W32 (R249): W32 classify FP32 value into one bit. -/
  | fclassW32 (o : WOps)
  /-- FCLASS_L64 (R249): L64 classify FP32 value. -/
  | fclassL64 (o : LOps)
  /-- FRND_W32 (R249): W32 round to integral FP32 value. -/
  | frndW32 (o : WOps)
  /-- FRND_L64 (R249): L64 round to integral value under rm. -/
  | frndL64 (o : LOps)
  /-- FSCALE_W32 (R249): W32 multiply by 2^b. -/
  | fscaleW32 (o : WOps)
  /-- FSCALE_L64 (R249): L64 or X96 FSCALE. -/
  | fscaleL64 (o : LOps)
  /-- FDOT2 (R249): Two-term packed dot product plus FP32 c, one rounding. -/
  | fdot2 (o : LOps)
  /-- CVT_W32 (R250): W32 format conversion selected by minor. -/
  | cvtW32 (o : WOps)
  /-- CVT_L64 (R250): L64 (or X96 for f10, f11) conversion with rounding and .sat. -/
  | cvtL64 (o : LOps)
  /-- PACK8_W32 (R251): W32 pack four lanes to 8-bit floats. -/
  | pack8W32 (o : WOps)
  /-- PACK8_L64 (R251): L64 PACK8 with rounding and .sat. -/
  | pack8L64 (o : LOps)
  /-- UNPK8_W32 (R251): W32 unpack own byte to FP32. -/
  | unpk8W32 (o : WOps)
  /-- UNPK8_L64 (R251): L64 UNPK8. -/
  | unpk8L64 (o : LOps)
  /-- PACK4_W32 (R251): W32 pack eight lanes to E2M1. -/
  | pack4W32 (o : WOps)
  /-- PACK4_L64 (R251): L64 PACK4. -/
  | pack4L64 (o : LOps)
  /-- UNPK4_W32 (R251): W32 unpack own nibble to FP32. -/
  | unpk4W32 (o : WOps)
  /-- UNPK4_L64 (R251): L64 UNPK4. -/
  | unpk4L64 (o : LOps)
  /-- BQSCAL_W32 (R253): W32 BQ8 group scale over 64 lanes. -/
  | bqscalW32 (o : WOps)
  /-- BQSCAL_L64 (R253): L64 BQSCAL. -/
  | bqscalL64 (o : LOps)
  /-- BQENC_W32 (R253): W32 BQ8 encode under scale b. -/
  | bqencW32 (o : WOps)
  /-- BQENC_L64 (R253): L64 or X96 BQENC. -/
  | bqencL64 (o : LOps)
  /-- BQDEC_W32 (R253): W32 BQ8 decode under scale b. -/
  | bqdecW32 (o : WOps)
  /-- BQDEC_L64 (R253): L64 or X96 BQDEC. -/
  | bqdecL64 (o : LOps)
  /-- MXSCAL_W32 (R252): W32 MX scales per mask word. -/
  | mxscalW32 (o : WOps)
  /-- MXSCAL_L64 (R252): L64 MXSCAL under rm. -/
  | mxscalL64 (o : LOps)
  /-- SHFL_W32 (R260): W32 shuffle within 32-lane groups. -/
  | shflW32 (o : WOps)
  /-- SHFL_L64 (R260): L64 or X96 shuffle with group width in rm. -/
  | shflL64 (o : LOps)
  /-- VOTE_W32 (R261): W32 team vote. -/
  | voteW32 (o : WOps)
  /-- VOTE_L64 (R261): L64 team vote. -/
  | voteL64 (o : LOps)
  /-- REDUX_W32 (R262): W32 team reduction over the fixed tree. -/
  | reduxW32 (o : WOps)
  /-- REDUX_L64 (R262): L64 team reduction with rounding. -/
  | reduxL64 (o : LOps)
  /-- SCAN_W32 (R263): W32 team prefix scan. -/
  | scanW32 (o : WOps)
  /-- SCAN_L64 (R263): L64 team prefix scan. -/
  | scanL64 (o : LOps)
  /-- GETS_W32 (R266): W32 read of identity selector 0-63. -/
  | getsW32 (o : WOps)
  /-- GETS_L64 (R266): L64 read of identity selector. -/
  | getsL64 (o : LOps)
  /-- ACT_W32 (R265): W32 writes 1 to each executing lane. -/
  | actW32 (o : WOps)
  /-- ACT_L64 (R265): L64 ACT. -/
  | actL64 (o : LOps)
  /-- MASKW_W32 (R265): W32 reads a word of the split's activity mask. -/
  | maskwW32 (o : WOps)
  /-- MASKW_L64 (R265): L64 or X96 MASKW. -/
  | maskwL64 (o : LOps)
  /-- BCAST_W32 (R264): W32 broadcast from lane b[L]. -/
  | bcastW32 (o : WOps)
  /-- BCAST_L64 (R264): L64 or X96 broadcast. -/
  | bcastL64 (o : LOps)
  /-- LD_W32 (R269): W32 relaxed global load, offset 0. -/
  | ldW32 (o : WOps)
  /-- LD_L64 (R269): L64 or X96 load with space, order, .fe and offset. -/
  | ldL64 (o : LOps)
  /-- ST (R270): Store per executing lane (L64, X96). -/
  | st (o : LOps)
  /-- ATOM (R272): 32-bit atomic RMW per lane (L64, X96). -/
  | atom (o : LOps)
  /-- ATOM64 (R273): 64-bit atomic RMW per lane (L64, X96). -/
  | atom64 (o : LOps)
  /-- FENCE (R275): Memory fence ordering the split's accesses (L64). -/
  | fence (o : LOps)
  /-- CPY32 (R313): Per-lane async copy of up to 32 bytes to scratchpad under a tag (L64). -/
  | cpy32 (o : LOps)
  /-- WAITTAG_W32 (R314): W32 wait until a tag counter is at most n. -/
  | waittagW32 (o : WOps)
  /-- WAITTAG_L64 (R314): L64 WAITTAG. -/
  | waittagL64 (o : LOps)
  /-- TCOPY (R315): Issues a tensor box copy command on the copy timeline (L64). -/
  | tcopy (o : LOps)
  /-- MCAST (R316): Issues a cluster multicast command on the copy timeline (L64). -/
  | mcast (o : LOps)
  /-- SPALLOC_W32 (R318): W32 scratchpad allocation. -/
  | spallocW32 (o : WOps)
  /-- SPALLOC_L64 (R318): L64 or X96 scratchpad allocation. -/
  | spallocL64 (o : LOps)
  /-- SPFREE_W32 (R319): W32 frees a scratchpad allocation after its waits. -/
  | spfreeW32 (o : WOps)
  /-- SPFREE_L64 (R319): L64 SPFREE. -/
  | spfreeL64 (o : LOps)
  /-- FEMARK_W32 (R321): W32 marks scratchpad lines empty or full. -/
  | femarkW32 (o : WOps)
  /-- FEMARK_L64 (R321): L64 or X96 FEMARK. -/
  | femarkL64 (o : LOps)
  /-- LDHINT_W32 (R276): W32 residency hint (L2, HBM, pin, unpin). -/
  | ldhintW32 (o : WOps)
  /-- LDHINT_L64 (R276): L64 or X96 residency hint. -/
  | ldhintL64 (o : LOps)
  /-- CFLUSH_W32 (R277): W32 L2 line writeback or invalidate. -/
  | cflushW32 (o : WOps)
  /-- CFLUSH_L64 (R277): L64 or X96 CFLUSH. -/
  | cflushL64 (o : LOps)
  /-- LDV_W32 (R271): W32 versioned load of sealed tiles. -/
  | ldvW32 (o : WOps)
  /-- LDV_L64 (R271): L64 or X96 versioned load. -/
  | ldvL64 (o : LOps)
  /-- BRA (R281): Conditional branch, possibly divergent, with reconvergence tag (L64, X96). -/
  | bra (o : LOps)
  /-- JOIN_W32 (R283): W32 reconvergence at tag t. -/
  | joinW32 (o : WOps)
  /-- JOIN_L64 (R283): L64 JOIN. -/
  | joinL64 (o : LOps)
  /-- CALL (R284): Direct call pushing return address per calling lane (L64, X96). -/
  | call (o : LOps)
  /-- CALL_INDIRECT_W32 (R284): W32 per-lane indirect call. -/
  | callIndirectW32 (o : WOps)
  /-- CALL_INDIRECT_L64 (R284): L64 per-lane indirect call. -/
  | callIndirectL64 (o : LOps)
  /-- RET_W32 (R286): W32 return, popping each lane's return stack. -/
  | retW32 (o : WOps)
  /-- RET_L64 (R286): L64 return. -/
  | retL64 (o : LOps)
  /-- EXIT_W32 (R287): W32 exit of executing lanes, or end of front program. -/
  | exitW32 (o : WOps)
  /-- EXIT_L64 (R287): L64 EXIT, optionally predicated. -/
  | exitL64 (o : LOps)
  /-- BRDQ (R282): Branch on a value popped from the decision queue (L64, X96). -/
  | brdq (o : LOps)
  /-- TRAP_W32 (R288): W32 software trap SWTRAP with code from a. -/
  | trapW32 (o : WOps)
  /-- TRAP_L64 (R288): L64 or X96 software trap. -/
  | trapL64 (o : LOps)
  /-- BKPT_W32 (R289): W32 breakpoint: stop team or trap BKPT. -/
  | bkptW32 (o : WOps)
  /-- BKPT_L64 (R289): L64 breakpoint. -/
  | bkptL64 (o : LOps)
  /-- YIELD_W32 (R290): W32 makes the split the youngest candidate. -/
  | yieldW32 (o : WOps)
  /-- YIELD_L64 (R290): L64 YIELD. -/
  | yieldL64 (o : LOps)
  /-- BAR_W32 (R291): W32 block barrier arrive, wait or sync. -/
  | barW32 (o : WOps)
  /-- BAR_L64 (R291): L64 block or cluster barrier operation. -/
  | barL64 (o : LOps)
  /-- ATTACH_W32 (R296): W32 joins the barriers of a mask. -/
  | attachW32 (o : WOps)
  /-- ATTACH_L64 (R296): L64 or X96 ATTACH. -/
  | attachL64 (o : LOps)
  /-- DETACH_W32 (R296): W32 leaves the barriers of a mask. -/
  | detachW32 (o : WOps)
  /-- DETACH_L64 (R296): L64 or X96 DETACH. -/
  | detachL64 (o : LOps)
  /-- GROW_W32 (R299): W32 asks for more teams and writes the grant. -/
  | growW32 (o : WOps)
  /-- GROW_L64 (R299): L64 or X96 GROW. -/
  | growL64 (o : LOps)
  /-- SHRQ_W32 (R300): W32 reads the pending shrink count. -/
  | shrqW32 (o : WOps)
  /-- SHRQ_L64 (R300): L64 SHRQ. -/
  | shrqL64 (o : LOps)
  /-- TLWAIT_W32 (R301): W32 timeline wait or test. -/
  | tlwaitW32 (o : WOps)
  /-- TLWAIT_L64 (R301): L64 or X96 timeline wait or test. -/
  | tlwaitL64 (o : LOps)
  /-- TLREAD_W32 (R302): W32 relaxed read of a timeline value. -/
  | tlreadW32 (o : WOps)
  /-- TLREAD_L64 (R302): L64 or X96 TLREAD. -/
  | tlreadL64 (o : LOps)
  /-- TLSIG_W32 (R303): W32 signals a software-owned timeline. -/
  | tlsigW32 (o : WOps)
  /-- TLSIG_L64 (R303): L64 or X96 TLSIG. -/
  | tlsigL64 (o : LOps)
  /-- XSET (R304): Writes an index-register descriptor after R53 checks (L64, X96). -/
  | xset (o : LOps)
  /-- XGET (R305): Reads an index-register descriptor (L64). -/
  | xget (o : LOps)
  /-- PUSHD_W32 (R307): W32 front program appends to a team's decision queue. -/
  | pushdW32 (o : WOps)
  /-- PUSHD_L64 (R307): L64 or X96 PUSHD. -/
  | pushdL64 (o : LOps)
  /-- ACCALLOC_W32 (R128): W32 allocates accumulator banks. -/
  | accallocW32 (o : WOps)
  /-- ACCALLOC_L64 (R128): L64 ACCALLOC. -/
  | accallocL64 (o : LOps)
  /-- ACCFREE_W32 (R128): W32 frees and zeroes an accumulator handle. -/
  | accfreeW32 (o : WOps)
  /-- ACCFREE_L64 (R128): L64 ACCFREE. -/
  | accfreeL64 (o : LOps)
  /-- ACCACQ_W32 (R130): W32 acquires a handle's token. -/
  | accacqW32 (o : WOps)
  /-- ACCACQ_L64 (R130): L64 ACCACQ. -/
  | accacqL64 (o : LOps)
  /-- ACCREL_W32 (R130): W32 releases a token to the engine. -/
  | accrelW32 (o : WOps)
  /-- ACCREL_L64 (R130): L64 ACCREL. -/
  | accrelL64 (o : LOps)
  /-- MMA (R134): Joins the gang rendezvous and issues one tile multiply-accumulate (L64). -/
  | mma (o : LOps)
  /-- ACCLD_W32 (R131): W32 reads accumulator words. -/
  | accldW32 (o : WOps)
  /-- ACCLD_L64 (R131): L64 ACCLD. -/
  | accldL64 (o : LOps)
  /-- ACCST (R131): Writes accumulator words (L64). -/
  | accst (o : LOps)
  /-- ACCZERO_W32 (R131): W32 zeroes a handle's banks. -/
  | acczeroW32 (o : WOps)
  /-- ACCZERO_L64 (R131): L64 ACCZERO. -/
  | acczeroL64 (o : LOps)
  /-- MVX (R140): Issues a matrix-vector command dispatched to core or stack path (L64). -/
  | mvx (o : LOps)
  /-- CENC (R323): Encodes 256-lane groups into curd images with residuals (L64). -/
  | cenc (o : LOps)
  /-- CDEC (R323): Decodes curd images and adds local values and whey (L64). -/
  | cdec (o : LOps)
  /-- TSET_W32 (R326): W32 ORs masks into tile-scoreboard words. -/
  | tsetW32 (o : WOps)
  /-- TSET_L64 (R326): L64 or X96 TSET. -/
  | tsetL64 (o : LOps)
  /-- RCP_W32 (R255): W32 reciprocal. -/
  | rcpW32 (o : WOps)
  /-- RCP_L64 (R255): L64 reciprocal. -/
  | rcpL64 (o : LOps)
  /-- RSQ_W32 (R255): W32 reciprocal square root. -/
  | rsqW32 (o : WOps)
  /-- RSQ_L64 (R255): L64 reciprocal square root. -/
  | rsqL64 (o : LOps)
  /-- EX2_W32 (R255): W32 base-2 exponential. -/
  | ex2W32 (o : WOps)
  /-- EX2_L64 (R255): L64 base-2 exponential. -/
  | ex2L64 (o : LOps)
  /-- LG2_W32 (R255): W32 base-2 logarithm. -/
  | lg2W32 (o : WOps)
  /-- LG2_L64 (R255): L64 base-2 logarithm. -/
  | lg2L64 (o : LOps)
  /-- SIN_W32 (R255): W32 sine. -/
  | sinW32 (o : WOps)
  /-- SIN_L64 (R255): L64 sine. -/
  | sinL64 (o : LOps)
  /-- COS_W32 (R255): W32 cosine. -/
  | cosW32 (o : WOps)
  /-- COS_L64 (R255): L64 cosine. -/
  | cosL64 (o : LOps)
  /-- TANH_W32 (R255): W32 hyperbolic tangent. -/
  | tanhW32 (o : WOps)
  /-- TANH_L64 (R255): L64 hyperbolic tangent. -/
  | tanhL64 (o : LOps)
  /-- SGMD_W32 (R255): W32 logistic sigmoid. -/
  | sgmdW32 (o : WOps)
  /-- SGMD_L64 (R255): L64 logistic sigmoid. -/
  | sgmdL64 (o : LOps)
  /-- RNG_W32 (R256): W32 Philox-4x32 random numbers. -/
  | rngW32 (o : WOps)
  /-- RNG_L64 (R256): L64 RNG. -/
  | rngL64 (o : LOps)
  /-- CLMUL_W32 (R257): W32 carry-less multiply, low or high half. -/
  | clmulW32 (o : WOps)
  /-- CLMUL_L64 (R257): L64 or X96 carry-less multiply. -/
  | clmulL64 (o : LOps)
  /-- RDSR (R338): Reads a system register (L64). -/
  | rdsr (o : LOps)
  /-- WRSR (R338): Writes a system register such as FLAGS, FPEN or MVCTL (L64). -/
  | wrsr (o : LOps)
  /-- RETT_W32 (R340): W32 return from trap handler. -/
  | rettW32 (o : WOps)
  /-- RETT_L64 (R340): L64 RETT. -/
  | rettL64 (o : LOps)
  /-- TLBINV_W32 (R342): W32 translation invalidation. -/
  | tlbinvW32 (o : WOps)
  /-- TLBINV_L64 (R342): L64 TLBINV. -/
  | tlbinvL64 (o : LOps)
  /-- HALT_W32 (R343): W32 halts the issuing block. -/
  | haltW32 (o : WOps)
  /-- HALT_L64 (R343): L64 HALT. -/
  | haltL64 (o : LOps)
  /-- FUSET_LI (R350): Loads a shifted immediate into fd. -/
  | fusetLi (o : FOps)
  /-- FUSET_ADD (R350): 64-bit add. -/
  | fusetAdd (o : FOps)
  /-- FUSET_SUB (R350): 64-bit subtract. -/
  | fusetSub (o : FOps)
  /-- FUSET_AND (R350): 64-bit AND. -/
  | fusetAnd (o : FOps)
  /-- FUSET_OR (R350): 64-bit OR. -/
  | fusetOr (o : FOps)
  /-- FUSET_SHL (R350): 64-bit shift left. -/
  | fusetShl (o : FOps)
  /-- FUSET_SHR (R350): 64-bit logical shift right. -/
  | fusetShr (o : FOps)
  /-- FUSET_CMP (R350): Three-way unsigned compare. -/
  | fusetCmp (o : FOps)
  /-- FUSET_LD (R351): 8-byte acquire load from the context's space. -/
  | fusetLd (o : FOps)
  /-- FUSET_ST (R351): 8-byte release store. -/
  | fusetSt (o : FOps)
  /-- FUSET_BR (R350): Unconditional branch. -/
  | fusetBr (o : FOps)
  /-- FUSET_BZ (R350): Branch if register zero. -/
  | fusetBz (o : FOps)
  /-- FUSET_BNZ (R350): Branch if register non-zero. -/
  | fusetBnz (o : FOps)
  /-- FUSET_CALL (R350): Call with 16-entry return stack. -/
  | fusetCall (o : FOps)
  /-- FUSET_RET (R350): Return from call. -/
  | fusetRet (o : FOps)
  /-- FUSET_RING (R353): Binds a ring descriptor. -/
  | fusetRing (o : FOps)
  /-- FUSET_TTW (R359): Waits on an entry's send and returns its refusal mask. -/
  | fusetTtw (o : FOps)
  /-- FUSET_ARM (R356): Arms a tile-table entry from an image. -/
  | fusetArm (o : FOps)
  /-- FUSET_DISARM (R185): Disarms a tile-table entry. -/
  | fusetDisarm (o : FOps)
  /-- FUSET_POST (R358): Posts an entry's receive slot and sends posted notices. -/
  | fusetPost (o : FOps)
  /-- FUSET_WAITPOST (R358): Waits for receivers' posted notices. -/
  | fusetWaitpost (o : FOps)
  /-- FUSET_SEND (R359): Resends refused blocks and returns the new refusal mask. -/
  | fusetSend (o : FOps)
  /-- FUSET_WAITSB (R361): Waits for scoreboard bits. -/
  | fusetWaitsb (o : FOps)
  /-- FUSET_WAITTL (R361): Waits for a numbered timeline. -/
  | fusetWaittl (o : FOps)
  /-- FUSET_SIGTL (R361): Advances the context's owned timeline TLC. -/
  | fusetSigtl (o : FOps)
  /-- FUSET_TMO (R350): Sets the deadline duration of later rounds. -/
  | fusetTmo (o : FOps)
  /-- FUSET_ROUND (R362): Starts a round, clearing scoreboard and slots. -/
  | fusetRound (o : FOps)
  /-- FUSET_WAITRD (R363): Waits for the round's end and writes its outcome. -/
  | fusetWaitrd (o : FOps)
  /-- FUSET_ABORT (R364): Aborts the active round. -/
  | fusetAbort (o : FOps)
  /-- FUSET_STATUS (R367): Reads a status item. -/
  | fusetStatus (o : FOps)
  /-- FUSET_WALLOC (R365): Allocates a whey object. -/
  | fusetWalloc (o : FOps)
  /-- FUSET_WFREE (R365): Frees a whey handle. -/
  | fusetWfree (o : FOps)
  /-- FUSET_WCKPT (R366): Writes a sealed checkpoint of a whey object. -/
  | fusetWckpt (o : FOps)
  /-- FUSET_WREST (R366): Restores a whey object from a checkpoint. -/
  | fusetWrest (o : FOps)
  /-- FUSET_WFOLD (R192): Folds hop and gather whey into origin whey and clears torn. -/
  | fusetWfold (o : FOps)
  /-- FUSET_REFORM (R353): Replaces the ring and marks whey torn. -/
  | fusetReform (o : FOps)
  /-- FUSET_EVENT (R350): Sends an event to the host. -/
  | fusetEvent (o : FOps)
  /-- FUSET_HALT (R368): Context enters HALTED. -/
  | fusetHalt (o : FOps)
  /-- RESULT_WRITEBACK (R50): A register result completes its latency and is written. -/
  | resultWriteback (b t e : Nat)
  /-- SPLIT_AGED (R37): A READY split reaches 56 waiting cycles and is put ahead of younger splits. -/
  | splitAged (b t e : Nat)
  /-- WATCHDOG_EXPIRY (R467): A split's watchdog count reaches 2^WDLOG and it takes WATCHDOG. -/
  | watchdogExpiry (b t e : Nat)
  /-- ASYNC_TRAP_DELIVERY (R465): An asynchronous trap is delivered at the team's next instruction boundary. -/
  | asyncTrapDelivery (b t : Nat)
  /-- PLACE_GANG (R441): Distributor places a ready gang whole on one cluster. -/
  | placeGang (l g k : Nat) (cores : List Nat)
  /-- SHRINK_BLOCKED_TIMEOUT (R459): A gang blocked 10 µs triggers victim selection, shrink requests or pre-emption. -/
  | shrinkBlockedTimeout (l g : Nat) (cluster : Nat)
  /-- SHRINK_LIMIT_EXPIRY (R460): Unmet shrink request's limit expires and the gang is pre-empted. -/
  | shrinkLimitExpiry (b : Nat)
  /-- SAVE_COMPLETE (R461): Drains finish, the save image is stored and the block is SAVED. -/
  | saveComplete (b : Nat)
  /-- GANG_RESTORE (R463): A saved gang is restored when one cluster can hold it. -/
  | gangRestore (l g k : Nat) (cores : List Nat)
  /-- SPFREE_TAKES_EFFECT (R319): After the waits, the allocation is freed at one instant. -/
  | spfreeTakesEffect (b gen : Nat)
  /-- COPY_COMMAND_COMPLETE (R104): An engine command completes and the context's timeline value advances. -/
  | copyCommandComplete (b n : Nat)
  /-- ENGINE_TRANSLATION_FAULT (R109): A TCOPY or MVX global-side page faults; V held and trap pending. -/
  | engineTranslationFault (b sel n : Nat)
  /-- CPY32_COMPLETE (R112): A CPY32 finishes in tag order and its tag counter falls. -/
  | cpy32Complete (b t tag : Nat)
  /-- MCAST_ARRIVAL (R123): A multicast transfer reaches a target core, which accepts or refuses it. -/
  | mcastArrival (b n target : Nat)
  /-- MCAST_COMPLETE (R125): Completion record written and copy timeline advanced. -/
  | mcastComplete (b n : Nat)
  /-- MMA_COMPLETE (R137): A tile multiply-accumulate completes in command order. -/
  | mmaComplete (b n : Nat)
  /-- MVX_RESULT (R143): Matrix-vector result elements enter q1; last one reaches the mv number. -/
  | mvxResult (b n : Nat)
  /-- FAULT_RECORD_RESOLUTION (R457): Firmware resolves or fails a fault record. -/
  | faultRecordResolution (r : Nat)
  /-- UNCORRECTABLE_ERROR (R470): An uncorrectable soft error is consumed and contained. -/
  | uncorrectableError (w : ErrorSite)
  /-- CORRECTABLE_ERROR (R482): A correctable error updates the CORR counter. -/
  | correctableError
  /-- BLOCK_COMMIT (R473): A unit's shadow writes are installed at one instant, then held TSETs and TLSIGs performed. -/
  | blockCommit (l u : Nat)
  /-- PAIR_COMPARE (R475): Both copies ended; signatures compared. -/
  | pairCompare (l u : Nat)
  /-- LOG_HARVEST (R483): Firmware copies a log entry to the host buffer and advances LOGHEAD. -/
  | logHarvest
  /-- ENTRY_FIRE (R184): An armed tile-table entry fires when its mask and incoming curd are complete. -/
  | entryFire (cc e : Nat)
  /-- FIRING_COMPLETE (R357): A firing's curds are accepted or its result written. -/
  | firingComplete (cc e : Nat)
  /-- CURD_ARRIVAL (R180): A curd reaches a receive slot and is accepted, discarded or refused. -/
  | curdArrival (m : Msg)
  /-- CURD_REPLY (R189): Acceptance or refusal reaches the sender and updates the refusal mask. -/
  | curdReply (m : Msg)
  /-- POSTED_NOTICE (R358): A posted notice from a receiver arrives. -/
  | postedNotice (m : Msg)
  /-- ABORT_NOTICE (R364): An abort notice arrives and aborts a matching round. -/
  | abortNotice (m : Msg)
  /-- ROUND_DEADLINE (R190): The round deadline expires and the round aborts. -/
  | roundDeadline (cc : Nat)
  /-- WHEY_PAGE_IN (R177): A non-resident whey page is brought in and the stalled step resumes. -/
  | wheyPageIn (cc page : Nat)
  /-- REFORM_REPORT (R511): A member's rank, LASTCK and CURROUND message arrives. -/
  | reformReport (m : Msg)
  /-- REFORM_COLLECTION_END (R511): Collection window ends; the leader computes survivors. -/
  | reformCollectionEnd (cc : Nat)
  /-- REFORM_RESULTS (R512): Leader's results arrive; descriptor and record written, timeline signalled. -/
  | reformResults (m : Msg)
  /-- COMMAND_NOP (R433): Channel NOP command. -/
  | commandNop (c : Cmd)
  /-- SUBMIT (R433): Copies, checks and queues a launch record. -/
  | submit (c : Cmd)
  /-- SIGNAL (R433): Signals a software-owned timeline from the host. -/
  | signal (c : Cmd)
  /-- NOTIFY (R433): Emits TLREACHED once a timeline reaches a value. -/
  | notify (c : Cmd)
  /-- RESUME (R433): Resumes a halted block. -/
  | resume (c : Cmd)
  /-- CANCEL (R433): Removes an unplaced launch. -/
  | cancel (c : Cmd)
  /-- DISPATCH (R444): Releases a ready launch under host-assisted arbitration. -/
  | dispatch (c : Cmd)
  /-- CTXNEW (R448): Creates a device context from a descriptor. -/
  | ctxnew (c : Cmd)
  /-- CTXKILL (R449): Puts a context in DYING. -/
  | ctxkill (c : Cmd)
  /-- CONTEXT_KILL_COMPLETE (R449): All drains done; context KILLED and CTXKILLED emitted. -/
  | contextKillComplete (x : Nat)
  /-- CTXDEL (R446): Frees a killed or idle context. -/
  | ctxdel (c : Cmd)
  /-- TLOWN (R450): Sets a numbered timeline's owner. -/
  | tlown (c : Cmd)
  /-- FAULTRES (R457): Host re-walks or fails a fault record. -/
  | faultres (c : Cmd)
  /-- INVAL (R458): Host-issued translation invalidation. -/
  | inval (c : Cmd)
  /-- PREEMPT (R464): Saves a named gang. -/
  | preempt (c : Cmd)
  /-- CCBIND (R451): Binds a collective context. -/
  | ccbind (c : Cmd)
  /-- CCSTART (R451): Starts a collective context. -/
  | ccstart (c : Cmd)
  /-- CCSTOP (R451): Halts a collective context. -/
  | ccstop (c : Cmd)
  /-- DBGSTOP (R468): Stops a team or block. -/
  | dbgstop (c : Cmd)
  /-- DBGRESUME (R468): Resumes stopped teams. -/
  | dbgresume (c : Cmd)
  /-- DBGSTEP (R468): Issues one instruction of a split, then stops. -/
  | dbgstep (c : Cmd)
  /-- DBGSNAP (R468): Writes a stopped team's record and registers to host memory. -/
  | dbgsnap (c : Cmd)
  /-- DBGBP (R468): Sets or clears an address breakpoint. -/
  | dbgbp (c : Cmd)
  /-- DBGMODE (R468): Sets stop-block mode. -/
  | dbgmode (c : Cmd)
  /-- FWSTAGE (R495): Stages and verifies an image in the inactive bank. -/
  | fwstage (c : Cmd)
  /-- FWCOMMIT (R495): Marks the staged bank active and applies RAISE. -/
  | fwcommit (c : Cmd)
  /-- FWROLLBACK (R495): Marks the other bank active. -/
  | fwrollback (c : Cmd)
  /-- SELFTEST (R519): Starts the post-transport self-test. -/
  | selftest (c : Cmd)
  /-- SELFTEST_PHASE_END (R520): A test phase ends; failing units removed; report written after the last. -/
  | selftestPhaseEnd (failed : List UnitId)
  /-- SECKEY (R506): Installs a new transport key. -/
  | seckey (c : Cmd)
  /-- CMDTAIL_WRITE (R435): Doorbell write enabling acceptance up to the tail. -/
  | cmdtailWrite (v : DWord)
  /-- CPLHEAD_WRITE (R437): Host consumes events, freeing ring room and resuming held events. -/
  | cplheadWrite (v : DWord)
  /-- CHANNEL_ENABLE (R431): CHCTL EN write starting or stopping acceptance. -/
  | channelEnable (v : DWord)
  /-- SNOOP_MODE (R431): CHCTL SNOOP write selecting snooped acceptance. -/
  | snoopMode (v : DWord)
  /-- CHSTAT_CLEAR (R431): W1C of EVOVF or CFGERR. -/
  | chstatClear (v : DWord)
  /-- DUTY_WRITE (R445): Selects hardware or host-assisted duty modes. -/
  | dutyWrite (v : DWord)
  /-- LOGHEAD_WRITE (R480): Host consumes log entries. -/
  | logheadWrite (v : DWord)
  /-- LOGSTAT_CLEAR (R480): W1C of OVF. -/
  | logstatClear (v : DWord)
  /-- PORT_ENABLE (R502): PCTL EN write taking a port down or starting training. -/
  | portEnable (p : Nat) (v : DWord)
  /-- PORT_RETRAIN (R502): PCTL RETRAIN forces a LIVE port to TRAINING. -/
  | portRetrain (p : Nat) (v : DWord)
  /-- REGISTER_WRITE (R430): Write to a configuration register with no row of its own, with CFGERR checks. -/
  | registerWrite (w : BarAccess) (v : DWord)
  /-- HOST_MEMORY_ACCESS (R429): Host CXL.mem access to the capacity tier. -/
  | hostMemoryAccess (w : HostAccess)
  /-- SPDM_REQUEST (R494): An SPDM request over DOE is answered, signing with a reserved leaf. -/
  | spdmRequest (r : SpdmReq)
  /-- BOOT (R489): Power good starts the boot stages to READY. -/
  | boot
  /-- PORT_LOCK_HELD (R502): Lock held 1 ms with no FEC failures; port LIVE. -/
  | portLockHeld (p : Nat)
  /-- TRAINING_TIMEOUT (R502): No lock in 100 ms; WINFAIL increments. -/
  | trainingTimeout (p : Nat)
  /-- LOCK_LOSS (R502): A LIVE port loses lock. -/
  | lockLoss (p : Nat)
  /-- FEC_UNCORRECTABLE_BURST (R502): Four uncorrectable codewords in 1 ms. -/
  | fecUncorrectableBurst (q : FecBurst)
  /-- WINFAIL_WINDOW (R502): 60 s window ends; WINFAIL cleared. -/
  | winfailWindow (p : Nat)
  /-- SPRAY_REJOIN (R505): A LIVE port rejoins the spray set at a packet boundary. -/
  | sprayRejoin (p : Nat)
  /-- PACKET_RECEIVE (R504): A packet arrives; duplicates and failed authentication discarded. -/
  | packetReceive (k : Packet)
  /-- PACKET_ACK (R504): An acknowledgement ends a packet's retransmission. -/
  | packetAck (k : Ack)
  /-- RETRANSMIT_TIMEOUT (R504): A lost packet unacknowledged 20 µs is resent. -/
  | retransmitTimeout (psn : Nat)
  /-- KEY_GRACE_EXPIRY (R506): 10 s after a key change the previous key is no longer accepted. -/
  | keyGraceExpiry (x : Nat)
  /-- DROOP_TRIP (R478): A droop detector stretches its region's clock. -/
  | droopTrip (region : Nat)
  /-- INPUT_UNDERVOLTAGE (R478): Input falls below 48 V and is ridden through. -/
  | inputUndervoltage
  /-- BROWNOUT (R478): Input 40-48 V beyond 20 ms; launches aborted for replay. -/
  | brownout
  /-- BROWNOUT_RECOVERY (R478): Input back 100 ms; placement resumes. -/
  | brownoutRecovery
  /-- POWER_LOSS (R478): Input below 40 V beyond 20 ms; power lost. -/
  | powerLoss
  /-- THERMAL_THROTTLE (R525): Junction at 105 °C stretches the clock. -/
  | thermalThrottle
  /-- THERMAL_SHUTDOWN (R525): Junction at 115 °C removes core power. -/
  | thermalShutdown
  /-- LINE_SET_FULL (R78): A copy engine or multicast has written the last byte of a scratchpad line for one command and sets that line full, waking .fe readers. -/
  | lineSetFull (b eng n line : Nat)
  /-- RESERVED_ENCODING (R233): An instruction word with a reserved major, an unlisted minor or an absent format is fetched and takes trap ILLOP. -/
  | reservedEncoding (w : BitVec 96)
  /-- FUSET_RESERVED_OPCODE (R348): A Fuset word with opcode 0x00 or 0x27 to 0xFF halts its context with fault ILLOP. -/
  | fusetReservedOpcode (w : DWord)
  /-- UNASSIGNED_COMMAND (R434): A channel command with an unassigned opcode is accepted, refused with CMDREJ reason 1, and CMDACC advances. -/
  | unassignedCommand (c : Cmd)
deriving DecidableEq, Repr

end Sys2Proof
end

