-- ==== Sys2Proof/Machine/OpcodeMap.lean ====
section
/-! DEFINITION. The opcode map (10 R225-R232) as data: which fields, formats, literals, roundings, orders and predicates each
(major, minor) cell has; and the checks of a decoder on the bits of one instruction (09 R219-R223). -/

namespace Sys2Proof.Machine

/-- What an 8-bit operand field of a cell holds (R219, R226). `q`: a queue value is accepted (R61, R235); `x`: an index
register is accepted (R54; not in the matrix instructions, R126). -/
inductive FieldSpec where
  /-- Not used: reserved and zero (R219). -/
  | unused
  /-- One 32-bit register. -/
  | reg (q x : Bool)
  /-- An even-odd pair (R47). -/
  | pair (x : Bool)
  /-- Four registers, the first a multiple of 4 (R47). -/
  | quad (x : Bool)
  /-- An immediate from `lo` to `hi` (R227). -/
  | imm (lo hi : Nat)
  /-- The modifier bits of LD: bit 0 is .fe, valid with space 2 only (R228). -/
  | fe
  /-- A system register number, to read or to write (R227, R334). -/
  | sysreg (write : Bool)
  /-- A branch condition: a plain register or 0xFF (R280). -/
  | cond
  /-- The bits of a branch offset (R222). -/
  | offset
deriving DecidableEq, Repr

/-- Which programs may hold a cell (R231). -/
inductive FrontUse where
  | both
  | teamOnly
  | frontOnly
deriving DecidableEq, Repr

/-- The values of RM a cell admits (R221, R230). -/
inductive RmRule where
  | zero
  /-- A rounding, 0 to 3 (R153). -/
  | round
  /-- A space code from the list (R71, R72, R309). -/
  | space (codes : List Nat)
  /-- A group width 32 * 2^rm, rm 0 to 5 (R260). -/
  | group
deriving DecidableEq, Repr

/-- The values of SC and bit 52 a cell admits (R85, R220, R221, R229, R309). -/
inductive ScRule where
  | zero
  /-- .sat is SC = 1 (R229). -/
  | sat
  /-- An order code from the list, bit 4 of it in bit 52 (R85). -/
  | order (codes : List Nat)
  /-- SC bit 0 is a modifier (R228, R309). -/
  | bit0
  /-- The class of a barrier: 0 block, 1 cluster with n below 4 (R227, R291). -/
  | bar
  /-- SC zero, bit 52 is RU (R220). -/
  | ru
deriving DecidableEq, Repr

/-- The values of P and PN a cell admits (R220, R279). -/
inductive PRule where
  /-- A predicate register or 0xFF. -/
  | any
  /-- 0xFF only, PN zero. -/
  | absent
  /-- 0xFF only; PN inverts the condition of field C, and is zero with C = 0xFF (R280). -/
  | branch
  /-- 0xFF only; PN inverts the popped value (R282). -/
  | queue
deriving DecidableEq, Repr

/-- Where the literal of an X96 form stands (R218, R222, R226, R228). -/
inductive LitPlace where
  /-- The cell has no X96 form. -/
  | absent
  /-- In place of operand b; field B is zero. -/
  | b
  /-- In place of operand a; field A is zero. -/
  | a
  /-- A byte offset added to the address pair; field B holds modifier bits (R228). -/
  | offset
  /-- As `offset`, and the mask register moves to field C (TSET, R326). -/
  | tset
  /-- A branch offset; fields D, A and B are zero (R222). -/
  | branch
deriving DecidableEq, Repr

/-- One cell of the opcode map (R226). -/
structure OpCell where
  d : FieldSpec
  a : FieldSpec
  b : FieldSpec
  c : FieldSpec
  w32 : Bool
  lit : LitPlace
  front : FrontUse
  rm : RmRule
  sc : ScRule
  p : PRule
deriving DecidableEq, Repr

/-- A source of one 32-bit register. -/
abbrev FieldSpec.src : FieldSpec := .reg true true
/-- A destination, or a source that takes no queue value. -/
abbrev FieldSpec.dst : FieldSpec := .reg false true
/-- A register of a matrix instruction (R126). -/
abbrev FieldSpec.mat : FieldSpec := .reg false false

/-- A lane-by-lane cell: no rounding, no mode, predicate allowed. -/
def OpCell.alu (d a b c : FieldSpec) (w32 : Bool) (lit : LitPlace) (front : FrontUse) : OpCell :=
  ⟨d, a, b, c, w32, lit, front, .zero, .zero, .any⟩

/-- d a b, forms W L X. -/
def OpCell.dab (front : FrontUse) : OpCell := .alu .dst .src .src .unused true .b front
/-- d a, forms W L. -/
def OpCell.da (front : FrontUse) : OpCell := .alu .dst .src .unused .unused true .absent front
/-- d a b c, forms L X. -/
def OpCell.dabc (front : FrontUse) : OpCell := .alu .dst .src .src .src false .b front
/-- The same cell under a rounding (R230). -/
def OpCell.rounded (k : OpCell) : OpCell := { k with rm := .round }
/-- The same cell with .sat (R229). -/
def OpCell.saturating (k : OpCell) : OpCell := { k with sc := .sat }

/-- The orders of an instruction as order codes (R85): 0 relaxed, 1-5 acq, 6-10 rel, 11-15 ar, 16-20 sc. -/
def ordersLd : List Nat := [0, 1, 2, 3, 4, 5, 16, 17, 18, 19, 20]
/-- ST: relaxed, .rel, .sc. -/
def ordersSt : List Nat := [0, 6, 7, 8, 9, 10, 16, 17, 18, 19, 20]
/-- ATOM, ATOM64: all. -/
def ordersAtom : List Nat := List.range 21
/-- FENCE: all but relaxed. -/
def ordersFence : List Nat := (List.range 21).tail
/-- LDV: relaxed, .acq. -/
def ordersLdv : List Nat := [0, 1, 2, 3, 4, 5]

/-- A memory cell over address pair a (R267). -/
def memCell (d b c : FieldSpec) (w32 : Bool) (front : FrontUse) (spaces orders : List Nat) : OpCell :=
  ⟨d, .pair true, b, c, w32, .offset, front, .space spaces, .order orders, .any⟩

/-- Majors 0x00 to 0x17 (R238-R244). -/
def cellInteger (major f : Nat) : Option OpCell :=
  match major with
  | 0x00 => if f = 0 then some (.alu .unused .unused .unused .unused true .absent .both) else none
  | 0x01 => if f = 0 then some (.alu .dst .unused .src .unused true .b .both) else none
  | 0x02 => if f ≤ 2 then some (.dab .both) else none
  | 0x03 => if f ≤ 2 then some (.dab .both) else none
  | 0x04 => if f ≤ 2 then some (.dab .both) else none
  | 0x05 => if f = 0 then some (.dabc .both)
            else if f ≤ 2 then some (.alu (.pair true) .src .src (.pair true) false .b .both) else none
  | 0x06 => if f ≤ 1 then some (.dab .both) else none
  | 0x07 => if f ≤ 1 then some (.dab .both) else none
  | 0x08 => if f ≤ 3 then some (.dab .both) else none
  | 0x09 => if f ≤ 9 then some (.dab .both) else none
  | 0x0A => if f = 0 then some (.dabc .both) else none
  | 0x0B => if f ≤ 5 then some (.dab .both) else if f = 6 then some (.da .both) else none
  | 0x0C => if f ≤ 4 then some (.dab .both) else none
  | 0x0D => if f ≤ 1 then some (.dabc .both) else none
  | 0x0E => if f ≤ 1 then some (.dab .both) else none
  | 0x0F => if f = 0 then some (.dabc .both) else none
  | 0x10 => if f ≤ 3 then some (.da .both) else none
  | 0x11 => if f ≤ 1 then some (.da .both) else none
  | 0x12 => if f ≤ 1 then some (.alu (.pair true) (.pair true) (.pair true) .unused true .b .both) else none
  | 0x13 => if f ≤ 4 then some (.alu (.pair true) (.pair true) .src .unused true .b .both) else none
  | 0x14 => if f ≤ 1 then some (.alu (.pair true) (.pair true) .src .unused true .b .both) else none
  | 0x15 => if f ≤ 5 then some (.alu .dst (.pair true) (.pair true) .unused true .b .both) else none
  | 0x16 => if f = 0 then some (.dabc .teamOnly) else none
  | 0x17 => if f ≤ 1 then some (.dabc .teamOnly) else none
  | _ => none

/-- Majors 0x20 to 0x2C (R245-R249). -/
def cellFloat (major f : Nat) : Option OpCell :=
  match major with
  | 0x20 => if f ≤ 2 then some (OpCell.dab .teamOnly).rounded else none
  | 0x21 => if f ≤ 2 then some (OpCell.dab .teamOnly).rounded else none
  | 0x22 => if f ≤ 2 then some (OpCell.dab .teamOnly).rounded else none
  | 0x23 => if f ≤ 2 then some (OpCell.dabc .teamOnly).rounded else none
  | 0x24 => if f ≤ 3 then some (.dab .teamOnly) else none
  | 0x25 => if f ≤ 7 then some (.dab .teamOnly) else none
  | 0x26 => if f ≤ 1 then some (.da .teamOnly) else if f = 2 then some (.dab .teamOnly) else none
  | 0x27 => if f = 0 then some (OpCell.dab .teamOnly).rounded else none
  | 0x28 => if f = 0 then some (OpCell.da .teamOnly).rounded else none
  | 0x29 => if f = 0 then some (.da .teamOnly) else none
  | 0x2A => if f = 0 then some (OpCell.da .teamOnly).rounded else none
  | 0x2B => if f = 0 then some (OpCell.dab .teamOnly).rounded else none
  | 0x2C => if f ≤ 1 then some (OpCell.dabc .teamOnly).rounded else none
  | _ => none

/-- Majors 0x40 to 0x44 (R250-R253). The RM and .sat columns of CVT are those of R250. -/
def cellConvert (major f : Nat) : Option OpCell :=
  match major with
  | 0x40 =>
    if f = 4 ∨ f = 6 ∨ f = 8 ∨ f = 12 then some (.da .teamOnly)
    else if f ≤ 3 ∨ f = 9 then some (OpCell.da .teamOnly).rounded
    else if f = 5 ∨ f = 7 ∨ f = 13 then some (OpCell.da .teamOnly).rounded.saturating
    else if f = 10 ∨ f = 11 then some (OpCell.dab .teamOnly).rounded.saturating
    else none
  | 0x41 => if f ≤ 1 then some (OpCell.da .teamOnly).rounded.saturating else if f ≤ 3 then some (.da .teamOnly) else none
  | 0x42 => if f = 0 then some (OpCell.da .teamOnly).rounded.saturating else if f = 1 then some (.da .teamOnly) else none
  | 0x43 => if f ≤ 1 then some (.da .teamOnly) else if f ≤ 5 then some (.dab .teamOnly) else none
  | 0x44 => if f = 0 then some (OpCell.da .teamOnly).rounded else none
  | _ => none

/-- Majors 0x50 to 0x57 (R258-R266). -/
def cellCrossLane (major f : Nat) : Option OpCell :=
  match major with
  | 0x50 => if f ≤ 3 then some { OpCell.dab .teamOnly with rm := .group } else none
  | 0x51 => if f ≤ 4 then some (.da .teamOnly) else none
  | 0x52 => if f = 6 then some (OpCell.da .teamOnly).rounded else if f ≤ 7 then some (.da .teamOnly) else none
  | 0x53 => if f ≤ 1 then some (.da .teamOnly) else if f ≤ 3 then some (OpCell.da .teamOnly).rounded else none
  | 0x54 => if f = 0 then some (.alu .dst .unused (.imm 0 21) .unused true .absent .both) else none
  | 0x55 => if f = 0 then some (.alu .dst .unused .unused .unused true .absent .teamOnly) else none
  | 0x56 => if f = 0 then some (.alu .dst .src .unused .unused true .a .teamOnly) else none
  | 0x57 => if f = 0 then some (.dab .teamOnly) else none
  | _ => none

/-- The register extent of an access size minor that counts .b32 as `f32` (R268). -/
def dataSpec (f f32 : Nat) (q : Bool) : FieldSpec :=
  if f ≤ f32 then .reg q true else if f = f32 + 1 then .pair true else .quad true

/-- Majors 0x60 to 0x6D (R267-R278, R308-R321). -/
def cellMemory (major f : Nat) : Option OpCell :=
  match major with
  | 0x60 => if f ≤ 6 then some (memCell (dataSpec f 4 false) .fe .unused true .both [0, 1, 2, 3, 4, 5] ordersLd) else none
  | 0x61 => if f ≤ 4 then some (memCell .unused .unused (dataSpec f 2 true) false .both [0, 1, 2, 3, 4, 5] ordersSt) else none
  | 0x62 => if f ≤ 13 then
      some (memCell .dst .unused (if f = 9 then .pair true else .src) false .both [0, 2, 3, 4, 5] ordersAtom) else none
  | 0x63 => if f ≤ 4 then
      some (memCell (.pair true) .unused (if f = 2 then .quad true else .pair true) false .both [0, 2, 3, 4, 5] ordersAtom)
      else none
  | 0x64 => if f = 0 then
      some ⟨.unused, .unused, .unused, .unused, false, .absent, .both, .space [0], .order ordersFence, .any⟩ else none
  | 0x65 => if f ≤ 3 then
      some ⟨.unused, .dst, .pair true, .src, false, .absent, .teamOnly, .space [0, 3, 4, 5], .bit0, .any⟩ else none
  | 0x66 => if f = 0 then
      some ⟨.unused, .imm 0 3, .imm 0 63, .unused, true, .absent, .teamOnly, .zero, .zero, .absent⟩ else none
  | 0x67 => if f ≤ 1 then some (.alu (.pair true) (.pair true) .dst .dst false .absent .both)
            else if f = 2 then some (.alu (.pair true) (.pair true) .dst (.pair true) false .absent .both) else none
  | 0x68 => if f = 0 then some (.alu (.pair true) (.quad true) .dst (.quad true) false .absent .both) else none
  | 0x69 => if f = 0 then some (.dab .both)
            else if f = 1 then some (.alu .unused .src .unused .unused true .absent .both) else none
  | 0x6A => if f ≤ 1 then some (.alu .unused .src .src .unused true .b .both) else none
  | 0x6B => if f ≤ 3 then
      some ⟨.unused, .pair true, .unused, .unused, true, .offset, .both, .space (if f = 0 then [0, 5] else [0]), .zero, .any⟩
      else none
  | 0x6C => if f ≤ 1 then
      some ⟨.unused, .pair true, .unused, .unused, true, .offset, .both, .space [0, 5], .zero, .any⟩ else none
  | 0x6D => if 4 ≤ f ∧ f ≤ 6 then
      some (memCell (dataSpec f 4 false) .unused .unused true .teamOnly [0] ordersLdv) else none
  | _ => none

/-- Majors 0x80 to 0x97 (R279-R307). -/
def cellControl (major f : Nat) : Option OpCell :=
  match major with
  | 0x80 => if f ≤ 15 then some ⟨.offset, .offset, .offset, .cond, false, .branch, .both, .zero, .zero, .branch⟩ else none
  | 0x81 => if f ≤ 15 then some ⟨.unused, .unused, .unused, .unused, true, .absent, .teamOnly, .zero, .zero, .absent⟩ else none
  | 0x82 => if f = 0 then some ⟨.offset, .offset, .offset, .cond, false, .branch, .teamOnly, .zero, .zero, .branch⟩
            else if f = 1 then some (.alu .unused (.pair true) .unused .unused true .absent .teamOnly) else none
  | 0x83 => if f = 0 then some (.alu .unused .unused .unused .unused true .absent .teamOnly) else none
  | 0x84 => if f = 0 then some (.alu .unused .unused .unused .unused true .absent .both) else none
  | 0x85 => if f ≤ 15 then
      some ⟨.offset, .offset, .offset, .imm 255 255, false, .branch, .teamOnly, .zero, .zero, .queue⟩ else none
  | 0x86 => if f = 0 then some (.alu .unused .src .unused .unused true .a .both) else none
  | 0x87 => if f = 0 then some ⟨.unused, .unused, .unused, .unused, true, .absent, .both, .zero, .zero, .absent⟩ else none
  | 0x88 => if f = 0 then some ⟨.unused, .unused, .unused, .unused, true, .absent, .teamOnly, .zero, .zero, .absent⟩ else none
  | 0x90 => if f ≤ 2 then
      some ⟨.unused, .imm 0 15, .unused, .unused, true, .absent, .teamOnly, .zero, .bar, .absent⟩ else none
  | 0x91 => if f ≤ 1 then some ⟨.unused, .src, .unused, .unused, true, .a, .teamOnly, .zero, .zero, .absent⟩ else none
  | 0x92 => if f = 0 then some (.alu .dst .src .unused .unused true .a .teamOnly)
            else if f = 1 then some (.alu .dst .unused .unused .unused true .absent .teamOnly) else none
  | 0x93 => if f ≤ 1 then some (.alu .dst (.pair true) .src .unused true .b .both) else none
  | 0x94 => if f = 0 then some (.alu (.pair true) .unused .src .unused true .b .both) else none
  | 0x95 => if f = 0 then some (.alu .unused (.pair true) .src .unused true .b .both) else none
  | 0x96 => if f = 0 then some ⟨.imm 0xF8 0xFF, .src, .unused, .unused, false, .a, .teamOnly, .zero, .zero, .absent⟩
            else if f = 1 then some (.alu .dst (.imm 0xF8 0xFF) .unused .unused false .absent .teamOnly) else none
  | 0x97 => if f = 0 then some (.alu .unused .dst .dst .unused true .b .frontOnly) else none
  | _ => none

/-- Majors 0xA0 to 0xB2 (R126, R308). -/
def cellMatrix (major f : Nat) : Option OpCell :=
  match major with
  | 0xA0 => if f = 0 then some (.alu .mat .mat .unused .unused true .absent .teamOnly)
            else if f = 1 then some (.alu .unused .mat .unused .unused true .absent .teamOnly) else none
  | 0xA1 => if f ≤ 1 then some (.alu .unused .mat .unused .unused true .absent .teamOnly) else none
  | 0xA2 => if f ≤ 6 then some { OpCell.alu .mat .mat (.quad false) .mat false .absent .teamOnly with sc := .ru } else none
  | 0xA3 => if f = 0 then some (.alu .mat .mat .mat .unused true .absent .teamOnly)
            else if f = 1 then some (.alu .unused .mat .mat .mat false .absent .teamOnly)
            else if f = 2 then some (.alu .unused .mat .unused .unused true .absent .teamOnly) else none
  | 0xA4 => if f ≤ 6 then some (.alu (.pair false) (.pair false) .mat .mat false .absent .both) else none
  | 0xB0 => if f ≤ 1 then some { OpCell.alu .dst .src .src .dst false .absent .teamOnly with sc := .bit0 } else none
  | 0xB1 => if f ≤ 1 then some { OpCell.alu .dst .src .src .src false .absent .teamOnly with sc := .bit0 } else none
  | 0xB2 => if f = 0 then some (.alu .unused (.pair true) .dst .unused true .tset .both) else none
  | _ => none

/-- Majors 0xC0 to 0xE5 (R255-R257, R333-R343). -/
def cellSystem (major f : Nat) : Option OpCell :=
  match major with
  | 0xC0 => if f ≤ 7 then some (.da .teamOnly) else none
  | 0xC1 => if f = 0 then some (.alu (.quad true) (.pair true) (.quad true) .unused true .absent .teamOnly) else none
  | 0xC2 => if f ≤ 1 then some (.dab .teamOnly) else none
  | 0xE0 => if f = 0 then some (.alu .dst .unused (.sysreg false) .unused false .absent .teamOnly) else none
  | 0xE1 => if f = 0 then some (.alu .unused .src (.sysreg true) .unused false .absent .teamOnly) else none
  | 0xE2 => if f = 0 then some ⟨.unused, .unused, .unused, .unused, true, .absent, .teamOnly, .zero, .zero, .absent⟩ else none
  | 0xE3 => if f = 0 then some ⟨.unused, .pair true, .unused, .unused, true, .absent, .teamOnly, .zero, .zero, .absent⟩ else none
  | 0xE5 => if f = 0 then some ⟨.unused, .unused, .unused, .unused, true, .absent, .teamOnly, .zero, .zero, .absent⟩ else none
  | _ => none

/-- The cell of a major and minor, if the map lists it (R225, R226). -/
def cellOf (major f : Nat) : Option OpCell :=
  if major < 0x20 then cellInteger major f
  else if major < 0x40 then cellFloat major f
  else if major < 0x50 then cellConvert major f
  else if major < 0x60 then cellCrossLane major f
  else if major < 0x80 then cellMemory major f
  else if major < 0xA0 then cellControl major f
  else if major < 0xC0 then cellMatrix major f
  else cellSystem major f

/-- The assigned system register numbers (R334). -/
def sysregAssigned (n : Nat) : Bool :=
  n ≤ 0x15 || (0x18 ≤ n && n ≤ 0x1C) || (0x20 ≤ n && n ≤ 0x26)

/-- The system registers with a Write column (R334). -/
def sysregWritable (n : Nat) : Bool :=
  n = 0x00 || n = 0x01 || n = 0x0B || n = 0x0C || n = 0x14 || (0x18 ≤ n && n ≤ 0x1B) || n = 0x20

/-- What the decoder finds wrong with the bits of one instruction (R223). Every one of them takes trap ILLOP. -/
inductive DecodeError where
  /-- A field the instruction does not use is not zero (R219). -/
  | reservedField
  /-- A register value is not valid for its field (R47, R61, R65, R69). -/
  | badRegister
  /-- An immediate is out of its range (R227). -/
  | badImmediate
  /-- P or PN is not valid for the instruction (R220, R279, R280). -/
  | badPredicate
  /-- RM is not valid for the instruction (R221, R230). -/
  | badRm
  /-- SC or bit 52 is not valid for the instruction (R85, R220, R229). -/
  | badSc
  /-- The format has no such form (R216, R218), or the cell is not in the map (R225, R226). -/
  | noForm
  /-- A literal timeline selector is reserved (R103). -/
  | badLiteral
deriving DecidableEq, Repr

/-- The value of an operand field is valid for its kind, whatever the team (R47, R61, R69, R219, R227, R280). -/
def fieldOk (k : FieldSpec) (v : BitVec 8) : Option DecodeError :=
  let n := v.toNat
  match k with
  | .unused => if n = 0 then none else some .reservedField
  | .reg q x =>
    if n < 0xF0 then none
    else if n < 0xF4 then (if q then none else some .badRegister)
    else if 0xF8 ≤ n && x then none else some .badRegister
  | .pair x => if n < 0xF0 then (if n % 2 = 0 then none else some .badRegister)
               else if 0xF8 ≤ n && x then none else some .badRegister
  | .quad x => if n < 0xF0 then (if n % 4 = 0 then none else some .badRegister)
               else if 0xF8 ≤ n && x then none else some .badRegister
  | .imm lo hi => if lo ≤ n && n ≤ hi then none else some .badImmediate
  | .fe => if n ≤ 1 then none else some .badImmediate
  | .sysreg w => if (if w then sysregWritable n else sysregAssigned n) then none else some .badImmediate
  | .cond => if n < 0xF0 || n = 0xFF then none else some .badRegister
  | .offset => none

/-- The field kinds of the X96 form of a cell: the literal's field is zero (R218, R222, R226, R228, R326). -/
def OpCell.withLit (k : OpCell) : OpCell :=
  match k.lit with
  | .b => { k with b := .unused }
  | .a => { k with a := .unused }
  | .tset => { k with b := .unused, c := k.b }
  | .branch => { k with d := .unused, a := .unused, b := .unused }
  | _ => k

/-- The order code of a memory instruction: bit 4 is bit 52 (R85, R220). -/
def LOps.order (o : LOps) : Nat := (if o.ru then 16 else 0) + o.sc.toNat

/-- RM is valid (R221). -/
def rmOk (r : RmRule) (o : LOps) : Bool :=
  match r with
  | .zero => o.rm.toNat = 0
  | .round => o.rm.toNat ≤ 3
  | .space codes => codes.contains o.rm.toNat
  | .group => o.rm.toNat ≤ 5

/-- SC and bit 52 are valid (R85, R220, R221, R229). -/
def scOk (r : ScRule) (o : LOps) : Bool :=
  match r with
  | .zero => o.sc.toNat = 0 && !o.ru
  | .sat => o.sc.toNat ≤ 1 && !o.ru
  | .order codes => codes.contains (LOps.order o)
  | .bit0 => o.sc.toNat ≤ 1 && !o.ru
  | .bar => !o.ru && (o.sc.toNat = 0 || (o.sc.toNat = 1 && o.a.toNat ≤ 3))
  | .ru => o.sc.toNat = 0

/-- P and PN are valid (R65, R220, R279, R280). -/
def pOk (r : PRule) (o : LOps) : Bool :=
  match r with
  | .any => o.p.toNat < 0xF0 || (o.p.toNat = 0xFF && !o.pn)
  | .absent => o.p.toNat = 0xFF && !o.pn
  | .branch => o.p.toNat = 0xFF && (!o.pn || o.c.toNat ≠ 0xFF)
  | .queue => o.p.toNat = 0xFF

/-- A literal timeline selector is not reserved (R103, R226). -/
def litOk (major : Nat) (lit : Option (BitVec 32)) : Bool :=
  match lit with
  | none => true
  | some v => !(0x93 ≤ major && major ≤ 0x95) || v.toNat ≤ 0x1002

/-- The first of two findings. -/
def firstError (x y : Option DecodeError) : Option DecodeError :=
  match x with
  | some e => some e
  | none => y

/-- The decoder's checks on an L64 or X96 word of a cell, in no way dependent on the team (R223). -/
def staticCheck (major : Nat) (o : LOps) : Option DecodeError :=
  match cellOf major o.f.toNat with
  | none => some .noForm
  | some k0 =>
    if o.lit.isSome && k0.lit = .absent then some .noForm
    else
      let k := if o.lit.isSome then k0.withLit else k0
      firstError (fieldOk k.d o.d) <| firstError (fieldOk k.a o.a) <| firstError (fieldOk k.b o.b) <|
      firstError (fieldOk k.c o.c) <|
      firstError (if k.b = .fe && o.b.toNat = 1 && o.rm.toNat ≠ 2 then some .badImmediate else none) <|
      firstError (if pOk k.p o then none else some .badPredicate) <|
      firstError (if rmOk k.rm o then none else some .badRm) <|
      firstError (if scOk k.sc o then none else some .badSc) <|
      (if litOk major o.lit then none else some .badLiteral)

/-- The L64 form a W32 word behaves as (R216). -/
def WOps.toL (o : WOps) : LOps :=
  { f := o.f, d := o.d.zeroExtend 8, a := o.a.zeroExtend 8, b := o.b.zeroExtend 8, c := 0, p := 0xFF, pn := false,
    ru := false, rm := 0, sc := 0, lit := none }

/-- The decoder's checks on a W32 word (R216, R223). -/
def staticCheckW (major : Nat) (o : WOps) : Option DecodeError :=
  match cellOf major o.f.toNat with
  | none => some .noForm
  | some k => if k.w32 then staticCheck major (WOps.toL o) else some .noForm

/-- Major and minor of a compact operation (R214). -/
def compactOp : Nat → Nat × Nat
  | 0 => (0x01, 0) | 1 => (0x02, 0) | 2 => (0x03, 0) | 3 => (0x04, 0)
  | 4 => (0x0B, 0) | 5 => (0x0B, 1) | 6 => (0x0B, 2) | 7 => (0x0C, 0)
  | 8 => (0x0C, 1) | 9 => (0x0C, 2) | 10 => (0x20, 0) | 11 => (0x21, 0)
  | 12 => (0x22, 0) | 13 => (0x24, 1) | 14 => (0x24, 0) | _ => (0x00, 0)

/-- The full form of a compact parcel (R214): d := d op b; MOV has no source a and NOP no field at all. -/
def COps.toL (op : Nat) (o : COps) : LOps :=
  let k := compactOp op
  let d := o.d.zeroExtend 8
  { f := BitVec.ofNat 4 k.2, d := d, a := if k.1 = 0x01 ∨ k.1 = 0 then 0 else d, b := o.b.zeroExtend 8, c := 0, p := 0xFF,
    pn := false, ru := false, rm := 0, sc := 0, lit := none }

/-- The decoder's check on a compact parcel: OP 15 with D or B non-zero is reserved (R214). -/
def staticCheckC (op : Nat) (o : COps) : Option DecodeError :=
  staticCheck (compactOp op).1 (COps.toL op o)

end Sys2Proof.Machine
end

