-- ==== Sys2Proof/Machine/Coding.lean ====
section
/-! DEFINITION. Coding: which constructor each cell and format of the opcode map is, and back (09 R211-R218, 10 R226; 16 R347, R350;
23 R433). -/

namespace Sys2Proof.Machine

/-- How an instruction is written as bits: its format, its major (C16: its OP), the minors of its row, its fields. -/
inductive Coded where
  | c16 (op : Nat) (o : COps)
  | w32 (major : Nat) (minors : List Nat) (o : WOps)
  | l64 (major : Nat) (minors : List Nat) (o : LOps)
  | fuset (op : Nat) (o : FOps)
  | command (op : Nat) (c : Cmd)
  /-- An event of the machine: it has no encoding. -/
  | event
deriving DecidableEq, Repr

/-- The fields of a Fuset row that are in use (R350). -/
structure FusetUse where
  d : Bool
  a : Bool
  b : Bool
  imm : Bool
deriving DecidableEq, Repr

/-- The constructor of a compact operation (R214). -/
def formC (op : Nat) (o : COps) : Instr :=
  match op with
  | 0 => .movC16 o
  | 1 => .iaddC16 o
  | 2 => .isubC16 o
  | 3 => .imulC16 o
  | 4 => .andC16 o
  | 5 => .orC16 o
  | 6 => .xorC16 o
  | 7 => .shlC16 o
  | 8 => .shrlC16 o
  | 9 => .shraC16 o
  | 10 => .faddC16 o
  | 11 => .fsubC16 o
  | 12 => .fmulC16 o
  | 13 => .fmaxC16 o
  | 14 => .fminC16 o
  | _ => .nopC16 o

/-- W32 forms of majors 0x00 to 0x1F. -/
def formWLow (major f : Nat) : Option (WOps → Instr) :=
  match major with
  | 0x00 => if f = 0 then some .nopW32 else none
  | 0x01 => if f = 0 then some .movW32 else none
  | 0x02 => if f ≤ 2 then some .iaddW32 else none
  | 0x03 => if f ≤ 2 then some .isubW32 else none
  | 0x04 => if f ≤ 2 then some .imulW32 else none
  | 0x06 => if f ≤ 1 then some .idivW32 else none
  | 0x07 => if f ≤ 1 then some .iremW32 else none
  | 0x08 => if f = 0 ∨ f = 2 then some .iminW32 else if f = 1 ∨ f = 3 then some .imaxW32 else none
  | 0x09 => if f ≤ 9 then some .icmpW32 else none
  | 0x0B => if f = 0 then some .andW32 else if f = 1 then some .orW32 else if f = 2 then some .xorW32 else if f = 3 then some .andnW32 else if f = 4 then some .ornW32 else if f = 5 then some .xnorW32 else if f = 6 then some .notW32 else none
  | 0x0C => if f = 0 then some .shlW32 else if f = 1 then some .shrlW32 else if f = 2 then some .shraW32 else if f = 3 then some .rotlW32 else if f = 4 then some .rotrW32 else none
  | 0x0E => if f ≤ 1 then some .bfeW32 else none
  | 0x10 => if f = 0 then some .popcW32 else if f = 1 then some .clzW32 else if f = 2 then some .ctzW32 else if f = 3 then some .brevW32 else none
  | 0x11 => if f = 0 then some .iabsW32 else if f = 1 then some .inegW32 else none
  | 0x12 => if f = 0 then some .add64W32 else if f = 1 then some .sub64W32 else none
  | 0x13 => if f ≤ 4 then some .leaW32 else none
  | 0x14 => if f = 0 then some .shl64W32 else if f = 1 then some .shr64W32 else none
  | 0x15 => if f ≤ 5 then some .cmp64W32 else none
  | _ => none

/-- W32 forms of majors 0x20 to 0x4F. -/
def formWFloat (major f : Nat) : Option (WOps → Instr) :=
  match major with
  | 0x20 => if f ≤ 2 then some .faddW32 else none
  | 0x21 => if f ≤ 2 then some .fsubW32 else none
  | 0x22 => if f ≤ 2 then some .fmulW32 else none
  | 0x24 => if f = 0 then some .fminW32 else if f = 1 then some .fmaxW32 else if f = 2 then some .fminpW32 else if f = 3 then some .fmaxpW32 else none
  | 0x25 => if f ≤ 7 then some .fcmpW32 else none
  | 0x26 => if f = 0 then some .fabsW32 else if f = 1 then some .fnegW32 else if f = 2 then some .fcpysW32 else none
  | 0x27 => if f = 0 then some .fdivW32 else none
  | 0x28 => if f = 0 then some .fsqrtW32 else none
  | 0x29 => if f = 0 then some .fclassW32 else none
  | 0x2A => if f = 0 then some .frndW32 else none
  | 0x2B => if f = 0 then some .fscaleW32 else none
  | 0x40 => if f ≤ 13 then some .cvtW32 else none
  | 0x41 => if f ≤ 1 then some .pack8W32 else if 2 ≤ f ∧ f ≤ 3 then some .unpk8W32 else none
  | 0x42 => if f = 0 then some .pack4W32 else if f = 1 then some .unpk4W32 else none
  | 0x43 => if f ≤ 1 then some .bqscalW32 else if 2 ≤ f ∧ f ≤ 3 then some .bqencW32 else if 4 ≤ f ∧ f ≤ 5 then some .bqdecW32 else none
  | 0x44 => if f = 0 then some .mxscalW32 else none
  | _ => none

/-- W32 forms of majors 0x50 to 0x7F. -/
def formWLane (major f : Nat) : Option (WOps → Instr) :=
  match major with
  | 0x50 => if f ≤ 3 then some .shflW32 else none
  | 0x51 => if f ≤ 4 then some .voteW32 else none
  | 0x52 => if f ≤ 7 then some .reduxW32 else none
  | 0x53 => if f ≤ 3 then some .scanW32 else none
  | 0x54 => if f = 0 then some .getsW32 else none
  | 0x55 => if f = 0 then some .actW32 else none
  | 0x56 => if f = 0 then some .maskwW32 else none
  | 0x57 => if f = 0 then some .bcastW32 else none
  | 0x60 => if f ≤ 6 then some .ldW32 else none
  | 0x66 => if f = 0 then some .waittagW32 else none
  | 0x69 => if f = 0 then some .spallocW32 else if f = 1 then some .spfreeW32 else none
  | 0x6A => if f ≤ 1 then some .femarkW32 else none
  | 0x6B => if f ≤ 3 then some .ldhintW32 else none
  | 0x6C => if f ≤ 1 then some .cflushW32 else none
  | 0x6D => if 4 ≤ f ∧ f ≤ 6 then some .ldvW32 else none
  | _ => none

/-- W32 forms of majors 0x80 to 0x9F. -/
def formWControl (major f : Nat) : Option (WOps → Instr) :=
  match major with
  | 0x81 => if f ≤ 15 then some .joinW32 else none
  | 0x82 => if f = 1 then some .callIndirectW32 else none
  | 0x83 => if f = 0 then some .retW32 else none
  | 0x84 => if f = 0 then some .exitW32 else none
  | 0x86 => if f = 0 then some .trapW32 else none
  | 0x87 => if f = 0 then some .bkptW32 else none
  | 0x88 => if f = 0 then some .yieldW32 else none
  | 0x90 => if f ≤ 2 then some .barW32 else none
  | 0x91 => if f = 0 then some .attachW32 else if f = 1 then some .detachW32 else none
  | 0x92 => if f = 0 then some .growW32 else if f = 1 then some .shrqW32 else none
  | 0x93 => if f ≤ 1 then some .tlwaitW32 else none
  | 0x94 => if f = 0 then some .tlreadW32 else none
  | 0x95 => if f = 0 then some .tlsigW32 else none
  | 0x97 => if f = 0 then some .pushdW32 else none
  | _ => none

/-- W32 forms of majors 0xA0 to 0xFF. -/
noncomputable def formWHigh (major f : Nat) : Option (WOps → Instr) :=
  match major with
  | 0xA0 => if f = 0 then some .accallocW32 else if f = 1 then some .accfreeW32 else none
  | 0xA1 => if f = 0 then some .accacqW32 else if f = 1 then some .accrelW32 else none
  | 0xA3 => if f = 0 then some .accldW32 else if f = 2 then some .acczeroW32 else none
  | 0xB2 => if f = 0 then some .tsetW32 else none
  | 0xC0 => if f = 0 then some .rcpW32 else if f = 1 then some .rsqW32 else if f = 2 then some .ex2W32 else if f = 3 then some .lg2W32 else if f = 4 then some .sinW32 else if f = 5 then some .cosW32 else if f = 6 then some .tanhW32 else if f = 7 then some .sgmdW32 else none
  | 0xC1 => if f = 0 then some .rngW32 else none
  | 0xC2 => if f ≤ 1 then some .clmulW32 else none
  | 0xE2 => if f = 0 then some .rettW32 else none
  | 0xE3 => if f = 0 then some .tlbinvW32 else none
  | 0xE5 => if f = 0 then some .haltW32 else none
  | _ => none

/-- The constructor of the W32 form of a cell, if it has one (R226). (Like all that builds a constructor numbered above 244, it
has no compiled code: a limit of Lean's runtime. The kernel evaluates it.) -/
noncomputable def formW (major f : Nat) : Option (WOps → Instr) :=
  if major < 0x20 then formWLow major f
  else if major < 0x50 then formWFloat major f
  else if major < 0x80 then formWLane major f
  else if major < 0xA0 then formWControl major f
  else formWHigh major f

/-- L64 and X96 forms of majors 0x00 to 0x1F. -/
def formLLow (major f : Nat) : Option (LOps → Instr) :=
  match major with
  | 0x00 => if f = 0 then some .nopL64 else none
  | 0x01 => if f = 0 then some .movL64 else none
  | 0x02 => if f ≤ 2 then some .iaddL64 else none
  | 0x03 => if f ≤ 2 then some .isubL64 else none
  | 0x04 => if f ≤ 2 then some .imulL64 else none
  | 0x05 => if f ≤ 2 then some .imad else none
  | 0x06 => if f ≤ 1 then some .idivL64 else none
  | 0x07 => if f ≤ 1 then some .iremL64 else none
  | 0x08 => if f = 0 ∨ f = 2 then some .iminL64 else if f = 1 ∨ f = 3 then some .imaxL64 else none
  | 0x09 => if f ≤ 9 then some .icmpL64 else none
  | 0x0A => if f = 0 then some .sel else none
  | 0x0B => if f = 0 then some .andL64 else if f = 1 then some .orL64 else if f = 2 then some .xorL64 else if f = 3 then some .andnL64 else if f = 4 then some .ornL64 else if f = 5 then some .xnorL64 else if f = 6 then some .notL64 else none
  | 0x0C => if f = 0 then some .shlL64 else if f = 1 then some .shrlL64 else if f = 2 then some .shraL64 else if f = 3 then some .rotlL64 else if f = 4 then some .rotrL64 else none
  | 0x0D => if f ≤ 1 then some .shf else none
  | 0x0E => if f ≤ 1 then some .bfeL64 else none
  | 0x0F => if f = 0 then some .bfi else none
  | 0x10 => if f = 0 then some .popcL64 else if f = 1 then some .clzL64 else if f = 2 then some .ctzL64 else if f = 3 then some .brevL64 else none
  | 0x11 => if f = 0 then some .iabsL64 else if f = 1 then some .inegL64 else none
  | 0x12 => if f = 0 then some .add64L64 else if f = 1 then some .sub64L64 else none
  | 0x13 => if f ≤ 4 then some .leaL64 else none
  | 0x14 => if f = 0 then some .shl64L64 else if f = 1 then some .shr64L64 else none
  | 0x15 => if f ≤ 5 then some .cmp64L64 else none
  | 0x16 => if f = 0 then some .bysel else none
  | 0x17 => if f ≤ 1 then some .idot4 else none
  | _ => none

/-- L64 and X96 forms of majors 0x20 to 0x4F. -/
def formLFloat (major f : Nat) : Option (LOps → Instr) :=
  match major with
  | 0x20 => if f ≤ 2 then some .faddL64 else none
  | 0x21 => if f ≤ 2 then some .fsubL64 else none
  | 0x22 => if f ≤ 2 then some .fmulL64 else none
  | 0x23 => if f ≤ 2 then some .ffma else none
  | 0x24 => if f = 0 then some .fminL64 else if f = 1 then some .fmaxL64 else if f = 2 then some .fminpL64 else if f = 3 then some .fmaxpL64 else none
  | 0x25 => if f ≤ 7 then some .fcmpL64 else none
  | 0x26 => if f = 0 then some .fabsL64 else if f = 1 then some .fnegL64 else if f = 2 then some .fcpysL64 else none
  | 0x27 => if f = 0 then some .fdivL64 else none
  | 0x28 => if f = 0 then some .fsqrtL64 else none
  | 0x29 => if f = 0 then some .fclassL64 else none
  | 0x2A => if f = 0 then some .frndL64 else none
  | 0x2B => if f = 0 then some .fscaleL64 else none
  | 0x2C => if f ≤ 1 then some .fdot2 else none
  | 0x40 => if f ≤ 13 then some .cvtL64 else none
  | 0x41 => if f ≤ 1 then some .pack8L64 else if 2 ≤ f ∧ f ≤ 3 then some .unpk8L64 else none
  | 0x42 => if f = 0 then some .pack4L64 else if f = 1 then some .unpk4L64 else none
  | 0x43 => if f ≤ 1 then some .bqscalL64 else if 2 ≤ f ∧ f ≤ 3 then some .bqencL64 else if 4 ≤ f ∧ f ≤ 5 then some .bqdecL64 else none
  | 0x44 => if f = 0 then some .mxscalL64 else none
  | _ => none

/-- L64 and X96 forms of majors 0x50 to 0x7F. -/
def formLLane (major f : Nat) : Option (LOps → Instr) :=
  match major with
  | 0x50 => if f ≤ 3 then some .shflL64 else none
  | 0x51 => if f ≤ 4 then some .voteL64 else none
  | 0x52 => if f ≤ 7 then some .reduxL64 else none
  | 0x53 => if f ≤ 3 then some .scanL64 else none
  | 0x54 => if f = 0 then some .getsL64 else none
  | 0x55 => if f = 0 then some .actL64 else none
  | 0x56 => if f = 0 then some .maskwL64 else none
  | 0x57 => if f = 0 then some .bcastL64 else none
  | 0x60 => if f ≤ 6 then some .ldL64 else none
  | 0x61 => if f ≤ 4 then some .st else none
  | 0x62 => if f ≤ 13 then some .atom else none
  | 0x63 => if f ≤ 4 then some .atom64 else none
  | 0x64 => if f = 0 then some .fence else none
  | 0x65 => if f ≤ 3 then some .cpy32 else none
  | 0x66 => if f = 0 then some .waittagL64 else none
  | 0x67 => if f ≤ 2 then some .tcopy else none
  | 0x68 => if f = 0 then some .mcast else none
  | 0x69 => if f = 0 then some .spallocL64 else if f = 1 then some .spfreeL64 else none
  | 0x6A => if f ≤ 1 then some .femarkL64 else none
  | 0x6B => if f ≤ 3 then some .ldhintL64 else none
  | 0x6C => if f ≤ 1 then some .cflushL64 else none
  | 0x6D => if 4 ≤ f ∧ f ≤ 6 then some .ldvL64 else none
  | _ => none

/-- L64 and X96 forms of majors 0x80 to 0x9F. -/
def formLControl (major f : Nat) : Option (LOps → Instr) :=
  match major with
  | 0x80 => if f ≤ 15 then some .bra else none
  | 0x81 => if f ≤ 15 then some .joinL64 else none
  | 0x82 => if f = 0 then some .call else if f = 1 then some .callIndirectL64 else none
  | 0x83 => if f = 0 then some .retL64 else none
  | 0x84 => if f = 0 then some .exitL64 else none
  | 0x85 => if f ≤ 15 then some .brdq else none
  | 0x86 => if f = 0 then some .trapL64 else none
  | 0x87 => if f = 0 then some .bkptL64 else none
  | 0x88 => if f = 0 then some .yieldL64 else none
  | 0x90 => if f ≤ 2 then some .barL64 else none
  | 0x91 => if f = 0 then some .attachL64 else if f = 1 then some .detachL64 else none
  | 0x92 => if f = 0 then some .growL64 else if f = 1 then some .shrqL64 else none
  | 0x93 => if f ≤ 1 then some .tlwaitL64 else none
  | 0x94 => if f = 0 then some .tlreadL64 else none
  | 0x95 => if f = 0 then some .tlsigL64 else none
  | 0x96 => if f = 0 then some .xset else if f = 1 then some .xget else none
  | 0x97 => if f = 0 then some .pushdL64 else none
  | _ => none

/-- L64 and X96 forms of majors 0xA0 to 0xFF. -/
noncomputable def formLHigh (major f : Nat) : Option (LOps → Instr) :=
  match major with
  | 0xA0 => if f = 0 then some .accallocL64 else if f = 1 then some .accfreeL64 else none
  | 0xA1 => if f = 0 then some .accacqL64 else if f = 1 then some .accrelL64 else none
  | 0xA2 => if f ≤ 6 then some .mma else none
  | 0xA3 => if f = 0 then some .accldL64 else if f = 1 then some .accst else if f = 2 then some .acczeroL64 else none
  | 0xA4 => if f ≤ 6 then some .mvx else none
  | 0xB0 => if f ≤ 1 then some .cenc else none
  | 0xB1 => if f ≤ 1 then some .cdec else none
  | 0xB2 => if f = 0 then some .tsetL64 else none
  | 0xC0 => if f = 0 then some .rcpL64 else if f = 1 then some .rsqL64 else if f = 2 then some .ex2L64 else if f = 3 then some .lg2L64 else if f = 4 then some .sinL64 else if f = 5 then some .cosL64 else if f = 6 then some .tanhL64 else if f = 7 then some .sgmdL64 else none
  | 0xC1 => if f = 0 then some .rngL64 else none
  | 0xC2 => if f ≤ 1 then some .clmulL64 else none
  | 0xE0 => if f = 0 then some .rdsr else none
  | 0xE1 => if f = 0 then some .wrsr else none
  | 0xE2 => if f = 0 then some .rettL64 else none
  | 0xE3 => if f = 0 then some .tlbinvL64 else none
  | 0xE5 => if f = 0 then some .haltL64 else none
  | _ => none

/-- The constructor of the L64 and X96 form of a cell, if it has one (R226). (Like all that builds a constructor numbered above 244, it
has no compiled code: a limit of Lean's runtime. The kernel evaluates it.) -/
noncomputable def formL (major f : Nat) : Option (LOps → Instr) :=
  if major < 0x20 then formLLow major f
  else if major < 0x50 then formLFloat major f
  else if major < 0x80 then formLLane major f
  else if major < 0xA0 then formLControl major f
  else formLHigh major f

/-- The constructor of a Fuset opcode (R350). -/
noncomputable def formFuset (op : Nat) : Option (FOps → Instr) :=
  match op with
  | 0x01 => some .fusetLi
  | 0x02 => some .fusetAdd
  | 0x03 => some .fusetSub
  | 0x04 => some .fusetAnd
  | 0x05 => some .fusetOr
  | 0x06 => some .fusetShl
  | 0x07 => some .fusetShr
  | 0x08 => some .fusetCmp
  | 0x09 => some .fusetLd
  | 0x0A => some .fusetSt
  | 0x0B => some .fusetBr
  | 0x0C => some .fusetBz
  | 0x0D => some .fusetBnz
  | 0x0E => some .fusetCall
  | 0x0F => some .fusetRet
  | 0x10 => some .fusetRing
  | 0x11 => some .fusetTtw
  | 0x12 => some .fusetArm
  | 0x13 => some .fusetDisarm
  | 0x14 => some .fusetPost
  | 0x15 => some .fusetWaitpost
  | 0x16 => some .fusetSend
  | 0x17 => some .fusetWaitsb
  | 0x18 => some .fusetWaittl
  | 0x19 => some .fusetSigtl
  | 0x1A => some .fusetTmo
  | 0x1B => some .fusetRound
  | 0x1C => some .fusetWaitrd
  | 0x1D => some .fusetAbort
  | 0x1E => some .fusetStatus
  | 0x1F => some .fusetWalloc
  | 0x20 => some .fusetWfree
  | 0x21 => some .fusetWckpt
  | 0x22 => some .fusetWrest
  | 0x23 => some .fusetWfold
  | 0x24 => some .fusetReform
  | 0x25 => some .fusetEvent
  | 0x26 => some .fusetHalt
  | _ => none

/-- The fields a Fuset row uses (R350). -/
def fusetUse (op : Nat) : FusetUse :=
  match op with
  | 0x01 | 0x11 | 0x1E => ⟨true, false, true, true⟩
  | 0x02 | 0x03 | 0x04 | 0x05 | 0x06 | 0x07 | 0x08 | 0x16 | 0x1F | 0x22 => ⟨true, true, true, true⟩
  | 0x09 => ⟨true, true, false, true⟩
  | 0x0A | 0x12 | 0x17 | 0x18 | 0x21 | 0x25 => ⟨false, true, true, true⟩
  | 0x0B | 0x0E => ⟨false, false, false, true⟩
  | 0x0C | 0x0D => ⟨false, true, false, true⟩
  | 0x0F | 0x1D | 0x26 => ⟨false, false, false, false⟩
  | 0x10 | 0x24 => ⟨false, true, false, false⟩
  | 0x13 | 0x14 | 0x15 | 0x19 | 0x1A | 0x1B | 0x20 | 0x23 => ⟨false, false, true, true⟩
  | 0x1C => ⟨true, false, false, false⟩
  | _ => ⟨false, false, false, false⟩

/-- The constructor of a channel opcode (R433, R446, R468, R495, R506, R519). -/
noncomputable def formCommand (op : Nat) (c : Cmd) : Instr :=
  match op with
  | 0x00 => .commandNop c
  | 0x01 => .submit c
  | 0x02 => .signal c
  | 0x03 => .notify c
  | 0x04 => .resume c
  | 0x05 => .cancel c
  | 0x06 => .dispatch c
  | 0x10 => .ctxnew c
  | 0x11 => .ctxkill c
  | 0x12 => .ctxdel c
  | 0x13 => .tlown c
  | 0x14 => .faultres c
  | 0x15 => .inval c
  | 0x16 => .preempt c
  | 0x17 => .ccbind c
  | 0x18 => .ccstart c
  | 0x19 => .ccstop c
  | 0x20 => .dbgstop c
  | 0x21 => .dbgresume c
  | 0x22 => .dbgstep c
  | 0x23 => .dbgsnap c
  | 0x24 => .dbgbp c
  | 0x25 => .dbgmode c
  | 0x30 => .fwstage c
  | 0x31 => .fwcommit c
  | 0x32 => .fwrollback c
  | 0x34 => .selftest c
  | 0x38 => .seckey c
  | _ => .unassignedCommand c

/-- The opcodes of the channel that have a row (R433, R446, R468, R495, R506, R519). -/
def assignedCommand (op : Nat) : Bool :=
  [0x00, 0x01, 0x02, 0x03, 0x04, 0x05, 0x06, 0x10, 0x11, 0x12, 0x13, 0x14, 0x15, 0x16, 0x17, 0x18, 0x19, 0x20, 0x21, 0x22, 0x23, 0x24, 0x25, 0x30, 0x31, 0x32, 0x34, 0x38].contains op

/-- How each instruction is coded. -/
def codedOf (i : Instr) : Coded :=
  match i with
  | .nopC16 o => .c16 15 o
  | .nopW32 o => .w32 0x00 [0] o
  | .nopL64 o => .l64 0x00 [0] o
  | .movC16 o => .c16 0 o
  | .movW32 o => .w32 0x01 [0] o
  | .movL64 o => .l64 0x01 [0] o
  | .iaddC16 o => .c16 1 o
  | .iaddW32 o => .w32 0x02 [0, 1, 2] o
  | .iaddL64 o => .l64 0x02 [0, 1, 2] o
  | .isubC16 o => .c16 2 o
  | .isubW32 o => .w32 0x03 [0, 1, 2] o
  | .isubL64 o => .l64 0x03 [0, 1, 2] o
  | .imulC16 o => .c16 3 o
  | .imulW32 o => .w32 0x04 [0, 1, 2] o
  | .imulL64 o => .l64 0x04 [0, 1, 2] o
  | .imad o => .l64 0x05 [0, 1, 2] o
  | .idivW32 o => .w32 0x06 [0, 1] o
  | .idivL64 o => .l64 0x06 [0, 1] o
  | .iremW32 o => .w32 0x07 [0, 1] o
  | .iremL64 o => .l64 0x07 [0, 1] o
  | .iminW32 o => .w32 0x08 [0, 2] o
  | .iminL64 o => .l64 0x08 [0, 2] o
  | .imaxW32 o => .w32 0x08 [1, 3] o
  | .imaxL64 o => .l64 0x08 [1, 3] o
  | .icmpW32 o => .w32 0x09 [0, 1, 2, 3, 4, 5, 6, 7, 8, 9] o
  | .icmpL64 o => .l64 0x09 [0, 1, 2, 3, 4, 5, 6, 7, 8, 9] o
  | .sel o => .l64 0x0A [0] o
  | .andC16 o => .c16 4 o
  | .andW32 o => .w32 0x0B [0] o
  | .andL64 o => .l64 0x0B [0] o
  | .orC16 o => .c16 5 o
  | .orW32 o => .w32 0x0B [1] o
  | .orL64 o => .l64 0x0B [1] o
  | .xorC16 o => .c16 6 o
  | .xorW32 o => .w32 0x0B [2] o
  | .xorL64 o => .l64 0x0B [2] o
  | .andnW32 o => .w32 0x0B [3] o
  | .andnL64 o => .l64 0x0B [3] o
  | .ornW32 o => .w32 0x0B [4] o
  | .ornL64 o => .l64 0x0B [4] o
  | .xnorW32 o => .w32 0x0B [5] o
  | .xnorL64 o => .l64 0x0B [5] o
  | .notW32 o => .w32 0x0B [6] o
  | .notL64 o => .l64 0x0B [6] o
  | .shlC16 o => .c16 7 o
  | .shlW32 o => .w32 0x0C [0] o
  | .shlL64 o => .l64 0x0C [0] o
  | .shrlC16 o => .c16 8 o
  | .shrlW32 o => .w32 0x0C [1] o
  | .shrlL64 o => .l64 0x0C [1] o
  | .shraC16 o => .c16 9 o
  | .shraW32 o => .w32 0x0C [2] o
  | .shraL64 o => .l64 0x0C [2] o
  | .rotlW32 o => .w32 0x0C [3] o
  | .rotlL64 o => .l64 0x0C [3] o
  | .rotrW32 o => .w32 0x0C [4] o
  | .rotrL64 o => .l64 0x0C [4] o
  | .shf o => .l64 0x0D [0, 1] o
  | .bfeW32 o => .w32 0x0E [0, 1] o
  | .bfeL64 o => .l64 0x0E [0, 1] o
  | .bfi o => .l64 0x0F [0] o
  | .popcW32 o => .w32 0x10 [0] o
  | .popcL64 o => .l64 0x10 [0] o
  | .clzW32 o => .w32 0x10 [1] o
  | .clzL64 o => .l64 0x10 [1] o
  | .ctzW32 o => .w32 0x10 [2] o
  | .ctzL64 o => .l64 0x10 [2] o
  | .brevW32 o => .w32 0x10 [3] o
  | .brevL64 o => .l64 0x10 [3] o
  | .iabsW32 o => .w32 0x11 [0] o
  | .iabsL64 o => .l64 0x11 [0] o
  | .inegW32 o => .w32 0x11 [1] o
  | .inegL64 o => .l64 0x11 [1] o
  | .add64W32 o => .w32 0x12 [0] o
  | .add64L64 o => .l64 0x12 [0] o
  | .sub64W32 o => .w32 0x12 [1] o
  | .sub64L64 o => .l64 0x12 [1] o
  | .leaW32 o => .w32 0x13 [0, 1, 2, 3, 4] o
  | .leaL64 o => .l64 0x13 [0, 1, 2, 3, 4] o
  | .shl64W32 o => .w32 0x14 [0] o
  | .shl64L64 o => .l64 0x14 [0] o
  | .shr64W32 o => .w32 0x14 [1] o
  | .shr64L64 o => .l64 0x14 [1] o
  | .cmp64W32 o => .w32 0x15 [0, 1, 2, 3, 4, 5] o
  | .cmp64L64 o => .l64 0x15 [0, 1, 2, 3, 4, 5] o
  | .bysel o => .l64 0x16 [0] o
  | .idot4 o => .l64 0x17 [0, 1] o
  | .faddC16 o => .c16 10 o
  | .faddW32 o => .w32 0x20 [0, 1, 2] o
  | .faddL64 o => .l64 0x20 [0, 1, 2] o
  | .fsubC16 o => .c16 11 o
  | .fsubW32 o => .w32 0x21 [0, 1, 2] o
  | .fsubL64 o => .l64 0x21 [0, 1, 2] o
  | .fmulC16 o => .c16 12 o
  | .fmulW32 o => .w32 0x22 [0, 1, 2] o
  | .fmulL64 o => .l64 0x22 [0, 1, 2] o
  | .ffma o => .l64 0x23 [0, 1, 2] o
  | .fminC16 o => .c16 14 o
  | .fminW32 o => .w32 0x24 [0] o
  | .fminL64 o => .l64 0x24 [0] o
  | .fmaxC16 o => .c16 13 o
  | .fmaxW32 o => .w32 0x24 [1] o
  | .fmaxL64 o => .l64 0x24 [1] o
  | .fminpW32 o => .w32 0x24 [2] o
  | .fminpL64 o => .l64 0x24 [2] o
  | .fmaxpW32 o => .w32 0x24 [3] o
  | .fmaxpL64 o => .l64 0x24 [3] o
  | .fcmpW32 o => .w32 0x25 [0, 1, 2, 3, 4, 5, 6, 7] o
  | .fcmpL64 o => .l64 0x25 [0, 1, 2, 3, 4, 5, 6, 7] o
  | .fabsW32 o => .w32 0x26 [0] o
  | .fabsL64 o => .l64 0x26 [0] o
  | .fnegW32 o => .w32 0x26 [1] o
  | .fnegL64 o => .l64 0x26 [1] o
  | .fcpysW32 o => .w32 0x26 [2] o
  | .fcpysL64 o => .l64 0x26 [2] o
  | .fdivW32 o => .w32 0x27 [0] o
  | .fdivL64 o => .l64 0x27 [0] o
  | .fsqrtW32 o => .w32 0x28 [0] o
  | .fsqrtL64 o => .l64 0x28 [0] o
  | .fclassW32 o => .w32 0x29 [0] o
  | .fclassL64 o => .l64 0x29 [0] o
  | .frndW32 o => .w32 0x2A [0] o
  | .frndL64 o => .l64 0x2A [0] o
  | .fscaleW32 o => .w32 0x2B [0] o
  | .fscaleL64 o => .l64 0x2B [0] o
  | .fdot2 o => .l64 0x2C [0, 1] o
  | .cvtW32 o => .w32 0x40 [0, 1, 2, 3, 4, 5, 6, 7, 8, 9, 10, 11, 12, 13] o
  | .cvtL64 o => .l64 0x40 [0, 1, 2, 3, 4, 5, 6, 7, 8, 9, 10, 11, 12, 13] o
  | .pack8W32 o => .w32 0x41 [0, 1] o
  | .pack8L64 o => .l64 0x41 [0, 1] o
  | .unpk8W32 o => .w32 0x41 [2, 3] o
  | .unpk8L64 o => .l64 0x41 [2, 3] o
  | .pack4W32 o => .w32 0x42 [0] o
  | .pack4L64 o => .l64 0x42 [0] o
  | .unpk4W32 o => .w32 0x42 [1] o
  | .unpk4L64 o => .l64 0x42 [1] o
  | .bqscalW32 o => .w32 0x43 [0, 1] o
  | .bqscalL64 o => .l64 0x43 [0, 1] o
  | .bqencW32 o => .w32 0x43 [2, 3] o
  | .bqencL64 o => .l64 0x43 [2, 3] o
  | .bqdecW32 o => .w32 0x43 [4, 5] o
  | .bqdecL64 o => .l64 0x43 [4, 5] o
  | .mxscalW32 o => .w32 0x44 [0] o
  | .mxscalL64 o => .l64 0x44 [0] o
  | .shflW32 o => .w32 0x50 [0, 1, 2, 3] o
  | .shflL64 o => .l64 0x50 [0, 1, 2, 3] o
  | .voteW32 o => .w32 0x51 [0, 1, 2, 3, 4] o
  | .voteL64 o => .l64 0x51 [0, 1, 2, 3, 4] o
  | .reduxW32 o => .w32 0x52 [0, 1, 2, 3, 4, 5, 6, 7] o
  | .reduxL64 o => .l64 0x52 [0, 1, 2, 3, 4, 5, 6, 7] o
  | .scanW32 o => .w32 0x53 [0, 1, 2, 3] o
  | .scanL64 o => .l64 0x53 [0, 1, 2, 3] o
  | .getsW32 o => .w32 0x54 [0] o
  | .getsL64 o => .l64 0x54 [0] o
  | .actW32 o => .w32 0x55 [0] o
  | .actL64 o => .l64 0x55 [0] o
  | .maskwW32 o => .w32 0x56 [0] o
  | .maskwL64 o => .l64 0x56 [0] o
  | .bcastW32 o => .w32 0x57 [0] o
  | .bcastL64 o => .l64 0x57 [0] o
  | .ldW32 o => .w32 0x60 [0, 1, 2, 3, 4, 5, 6] o
  | .ldL64 o => .l64 0x60 [0, 1, 2, 3, 4, 5, 6] o
  | .st o => .l64 0x61 [0, 1, 2, 3, 4] o
  | .atom o => .l64 0x62 [0, 1, 2, 3, 4, 5, 6, 7, 8, 9, 10, 11, 12, 13] o
  | .atom64 o => .l64 0x63 [0, 1, 2, 3, 4] o
  | .fence o => .l64 0x64 [0] o
  | .cpy32 o => .l64 0x65 [0, 1, 2, 3] o
  | .waittagW32 o => .w32 0x66 [0] o
  | .waittagL64 o => .l64 0x66 [0] o
  | .tcopy o => .l64 0x67 [0, 1, 2] o
  | .mcast o => .l64 0x68 [0] o
  | .spallocW32 o => .w32 0x69 [0] o
  | .spallocL64 o => .l64 0x69 [0] o
  | .spfreeW32 o => .w32 0x69 [1] o
  | .spfreeL64 o => .l64 0x69 [1] o
  | .femarkW32 o => .w32 0x6A [0, 1] o
  | .femarkL64 o => .l64 0x6A [0, 1] o
  | .ldhintW32 o => .w32 0x6B [0, 1, 2, 3] o
  | .ldhintL64 o => .l64 0x6B [0, 1, 2, 3] o
  | .cflushW32 o => .w32 0x6C [0, 1] o
  | .cflushL64 o => .l64 0x6C [0, 1] o
  | .ldvW32 o => .w32 0x6D [4, 5, 6] o
  | .ldvL64 o => .l64 0x6D [4, 5, 6] o
  | .bra o => .l64 0x80 [0, 1, 2, 3, 4, 5, 6, 7, 8, 9, 10, 11, 12, 13, 14, 15] o
  | .joinW32 o => .w32 0x81 [0, 1, 2, 3, 4, 5, 6, 7, 8, 9, 10, 11, 12, 13, 14, 15] o
  | .joinL64 o => .l64 0x81 [0, 1, 2, 3, 4, 5, 6, 7, 8, 9, 10, 11, 12, 13, 14, 15] o
  | .call o => .l64 0x82 [0] o
  | .callIndirectW32 o => .w32 0x82 [1] o
  | .callIndirectL64 o => .l64 0x82 [1] o
  | .retW32 o => .w32 0x83 [0] o
  | .retL64 o => .l64 0x83 [0] o
  | .exitW32 o => .w32 0x84 [0] o
  | .exitL64 o => .l64 0x84 [0] o
  | .brdq o => .l64 0x85 [0, 1, 2, 3, 4, 5, 6, 7, 8, 9, 10, 11, 12, 13, 14, 15] o
  | .trapW32 o => .w32 0x86 [0] o
  | .trapL64 o => .l64 0x86 [0] o
  | .bkptW32 o => .w32 0x87 [0] o
  | .bkptL64 o => .l64 0x87 [0] o
  | .yieldW32 o => .w32 0x88 [0] o
  | .yieldL64 o => .l64 0x88 [0] o
  | .barW32 o => .w32 0x90 [0, 1, 2] o
  | .barL64 o => .l64 0x90 [0, 1, 2] o
  | .attachW32 o => .w32 0x91 [0] o
  | .attachL64 o => .l64 0x91 [0] o
  | .detachW32 o => .w32 0x91 [1] o
  | .detachL64 o => .l64 0x91 [1] o
  | .growW32 o => .w32 0x92 [0] o
  | .growL64 o => .l64 0x92 [0] o
  | .shrqW32 o => .w32 0x92 [1] o
  | .shrqL64 o => .l64 0x92 [1] o
  | .tlwaitW32 o => .w32 0x93 [0, 1] o
  | .tlwaitL64 o => .l64 0x93 [0, 1] o
  | .tlreadW32 o => .w32 0x94 [0] o
  | .tlreadL64 o => .l64 0x94 [0] o
  | .tlsigW32 o => .w32 0x95 [0] o
  | .tlsigL64 o => .l64 0x95 [0] o
  | .xset o => .l64 0x96 [0] o
  | .xget o => .l64 0x96 [1] o
  | .pushdW32 o => .w32 0x97 [0] o
  | .pushdL64 o => .l64 0x97 [0] o
  | .accallocW32 o => .w32 0xA0 [0] o
  | .accallocL64 o => .l64 0xA0 [0] o
  | .accfreeW32 o => .w32 0xA0 [1] o
  | .accfreeL64 o => .l64 0xA0 [1] o
  | .accacqW32 o => .w32 0xA1 [0] o
  | .accacqL64 o => .l64 0xA1 [0] o
  | .accrelW32 o => .w32 0xA1 [1] o
  | .accrelL64 o => .l64 0xA1 [1] o
  | .mma o => .l64 0xA2 [0, 1, 2, 3, 4, 5, 6] o
  | .accldW32 o => .w32 0xA3 [0] o
  | .accldL64 o => .l64 0xA3 [0] o
  | .accst o => .l64 0xA3 [1] o
  | .acczeroW32 o => .w32 0xA3 [2] o
  | .acczeroL64 o => .l64 0xA3 [2] o
  | .mvx o => .l64 0xA4 [0, 1, 2, 3, 4, 5, 6] o
  | .cenc o => .l64 0xB0 [0, 1] o
  | .cdec o => .l64 0xB1 [0, 1] o
  | .tsetW32 o => .w32 0xB2 [0] o
  | .tsetL64 o => .l64 0xB2 [0] o
  | .rcpW32 o => .w32 0xC0 [0] o
  | .rcpL64 o => .l64 0xC0 [0] o
  | .rsqW32 o => .w32 0xC0 [1] o
  | .rsqL64 o => .l64 0xC0 [1] o
  | .ex2W32 o => .w32 0xC0 [2] o
  | .ex2L64 o => .l64 0xC0 [2] o
  | .lg2W32 o => .w32 0xC0 [3] o
  | .lg2L64 o => .l64 0xC0 [3] o
  | .sinW32 o => .w32 0xC0 [4] o
  | .sinL64 o => .l64 0xC0 [4] o
  | .cosW32 o => .w32 0xC0 [5] o
  | .cosL64 o => .l64 0xC0 [5] o
  | .tanhW32 o => .w32 0xC0 [6] o
  | .tanhL64 o => .l64 0xC0 [6] o
  | .sgmdW32 o => .w32 0xC0 [7] o
  | .sgmdL64 o => .l64 0xC0 [7] o
  | .rngW32 o => .w32 0xC1 [0] o
  | .rngL64 o => .l64 0xC1 [0] o
  | .clmulW32 o => .w32 0xC2 [0, 1] o
  | .clmulL64 o => .l64 0xC2 [0, 1] o
  | .rdsr o => .l64 0xE0 [0] o
  | .wrsr o => .l64 0xE1 [0] o
  | .rettW32 o => .w32 0xE2 [0] o
  | .rettL64 o => .l64 0xE2 [0] o
  | .tlbinvW32 o => .w32 0xE3 [0] o
  | .tlbinvL64 o => .l64 0xE3 [0] o
  | .haltW32 o => .w32 0xE5 [0] o
  | .haltL64 o => .l64 0xE5 [0] o
  | .fusetLi o => .fuset 0x01 o
  | .fusetAdd o => .fuset 0x02 o
  | .fusetSub o => .fuset 0x03 o
  | .fusetAnd o => .fuset 0x04 o
  | .fusetOr o => .fuset 0x05 o
  | .fusetShl o => .fuset 0x06 o
  | .fusetShr o => .fuset 0x07 o
  | .fusetCmp o => .fuset 0x08 o
  | .fusetLd o => .fuset 0x09 o
  | .fusetSt o => .fuset 0x0A o
  | .fusetBr o => .fuset 0x0B o
  | .fusetBz o => .fuset 0x0C o
  | .fusetBnz o => .fuset 0x0D o
  | .fusetCall o => .fuset 0x0E o
  | .fusetRet o => .fuset 0x0F o
  | .fusetRing o => .fuset 0x10 o
  | .fusetTtw o => .fuset 0x11 o
  | .fusetArm o => .fuset 0x12 o
  | .fusetDisarm o => .fuset 0x13 o
  | .fusetPost o => .fuset 0x14 o
  | .fusetWaitpost o => .fuset 0x15 o
  | .fusetSend o => .fuset 0x16 o
  | .fusetWaitsb o => .fuset 0x17 o
  | .fusetWaittl o => .fuset 0x18 o
  | .fusetSigtl o => .fuset 0x19 o
  | .fusetTmo o => .fuset 0x1A o
  | .fusetRound o => .fuset 0x1B o
  | .fusetWaitrd o => .fuset 0x1C o
  | .fusetAbort o => .fuset 0x1D o
  | .fusetStatus o => .fuset 0x1E o
  | .fusetWalloc o => .fuset 0x1F o
  | .fusetWfree o => .fuset 0x20 o
  | .fusetWckpt o => .fuset 0x21 o
  | .fusetWrest o => .fuset 0x22 o
  | .fusetWfold o => .fuset 0x23 o
  | .fusetReform o => .fuset 0x24 o
  | .fusetEvent o => .fuset 0x25 o
  | .fusetHalt o => .fuset 0x26 o
  | .resultWriteback _ _ _ => .event
  | .splitAged _ _ _ => .event
  | .watchdogExpiry _ _ _ => .event
  | .asyncTrapDelivery _ _ => .event
  | .placeGang _ _ _ _ => .event
  | .shrinkBlockedTimeout _ _ _ => .event
  | .shrinkLimitExpiry _ => .event
  | .saveComplete _ => .event
  | .gangRestore _ _ _ _ => .event
  | .spfreeTakesEffect _ _ => .event
  | .copyCommandComplete _ _ => .event
  | .engineTranslationFault _ _ _ => .event
  | .cpy32Complete _ _ _ => .event
  | .mcastArrival _ _ _ => .event
  | .mcastComplete _ _ => .event
  | .mmaComplete _ _ => .event
  | .mvxResult _ _ => .event
  | .faultRecordResolution _ => .event
  | .uncorrectableError _ => .event
  | .correctableError => .event
  | .blockCommit _ _ => .event
  | .pairCompare _ _ => .event
  | .logHarvest => .event
  | .entryFire _ _ => .event
  | .firingComplete _ _ => .event
  | .curdArrival _ => .event
  | .curdReply _ => .event
  | .postedNotice _ => .event
  | .abortNotice _ => .event
  | .roundDeadline _ => .event
  | .wheyPageIn _ _ => .event
  | .reformReport _ => .event
  | .reformCollectionEnd _ => .event
  | .reformResults _ => .event
  | .commandNop c => .command 0x00 c
  | .submit c => .command 0x01 c
  | .signal c => .command 0x02 c
  | .notify c => .command 0x03 c
  | .resume c => .command 0x04 c
  | .cancel c => .command 0x05 c
  | .dispatch c => .command 0x06 c
  | .ctxnew c => .command 0x10 c
  | .ctxkill c => .command 0x11 c
  | .contextKillComplete _ => .event
  | .ctxdel c => .command 0x12 c
  | .tlown c => .command 0x13 c
  | .faultres c => .command 0x14 c
  | .inval c => .command 0x15 c
  | .preempt c => .command 0x16 c
  | .ccbind c => .command 0x17 c
  | .ccstart c => .command 0x18 c
  | .ccstop c => .command 0x19 c
  | .dbgstop c => .command 0x20 c
  | .dbgresume c => .command 0x21 c
  | .dbgstep c => .command 0x22 c
  | .dbgsnap c => .command 0x23 c
  | .dbgbp c => .command 0x24 c
  | .dbgmode c => .command 0x25 c
  | .fwstage c => .command 0x30 c
  | .fwcommit c => .command 0x31 c
  | .fwrollback c => .command 0x32 c
  | .selftest c => .command 0x34 c
  | .selftestPhaseEnd _ => .event
  | .seckey c => .command 0x38 c
  | .cmdtailWrite _ => .event
  | .cplheadWrite _ => .event
  | .channelEnable _ => .event
  | .snoopMode _ => .event
  | .chstatClear _ => .event
  | .dutyWrite _ => .event
  | .logheadWrite _ => .event
  | .logstatClear _ => .event
  | .portEnable _ _ => .event
  | .portRetrain _ _ => .event
  | .registerWrite _ _ => .event
  | .hostMemoryAccess _ => .event
  | .spdmRequest _ => .event
  | .boot => .event
  | .portLockHeld _ => .event
  | .trainingTimeout _ => .event
  | .lockLoss _ => .event
  | .fecUncorrectableBurst _ => .event
  | .winfailWindow _ => .event
  | .sprayRejoin _ => .event
  | .packetReceive _ => .event
  | .packetAck _ => .event
  | .retransmitTimeout _ => .event
  | .keyGraceExpiry _ => .event
  | .droopTrip _ => .event
  | .inputUndervoltage => .event
  | .brownout => .event
  | .brownoutRecovery => .event
  | .powerLoss => .event
  | .thermalThrottle => .event
  | .thermalShutdown => .event
  | .lineSetFull _ _ _ _ => .event
  | .reservedEncoding _ => .event
  | .fusetReservedOpcode _ => .event
  | .unassignedCommand _ => .event

end Sys2Proof.Machine
end

