-- ==== Sys2Proof/WellFormed.lean ====
section
/-! DEFINITION. WellFormed: which terms of `Instr` stand for an instruction that has an encoding, an event whose parameters name
existing units, or a command entry of its row. A Slauk term is well formed when the decoder's checks on its bits pass (09 R223). -/

namespace Sys2Proof

open Sys2Proof.Machine

/-- The fields a Fuset row does not use are zero, and LI shifts by at most 23 (R348, R350). -/
def fusetFieldsOk (op : Nat) (o : FOps) : Bool :=
  let u := fusetUse op
  (u.d || o.fd.toNat = 0) && (u.a || o.fa.toNat = 0) && (u.b || o.fb.toNat = 0) && (u.imm || o.imm.toNat = 0) &&
  (op ≠ 1 || o.fb.toNat ≤ 23)

/-- A word of majors, minors or formats that the map does not list (R233): the low 96 bits, above the instruction's own bits
zero. -/
def reservedWord (w : BitVec 96) : Bool :=
  let f := (w.extractLsb' 53 4).toNat
  let major := (w.extractLsb' 3 8).toNat
  if w.getLsbD 0 = false then false
  else if w.getLsbD 1 = false then
    (match cellOf (w.extractLsb' 2 8).toNat (w.extractLsb' 28 4).toNat with
     | none => true
     | some k => !k.w32) && w.toNat < 2 ^ 32
  else if w.getLsbD 2 = false then (cellOf major f).isNone && w.toNat < 2 ^ 64
  else match cellOf major f with
    | none => true
    | some k => k.lit = .absent

/-- What a well-formed instruction satisfies. -/
def Instr.wf (i : Instr) : Bool :=
  match codedOf i with
  | .c16 op o => (staticCheckC op o).isNone
  | .w32 major minors o => minors.contains o.f.toNat && (staticCheckW major o).isNone
  | .l64 major minors o => minors.contains o.f.toNat && (staticCheck major o).isNone
  | .fuset op o => fusetFieldsOk op o
  | .command op c => (c.head.extractLsb' 8 8).toNat = op
  | .event =>
    match i with
    | .reservedEncoding w => reservedWord w
    | .fusetReservedOpcode w => (w.extractLsb' 0 8).toNat = 0 || 0x26 < (w.extractLsb' 0 8).toNat
    | .unassignedCommand c => !assignedCommand (c.head.extractLsb' 8 8).toNat
    | _ => true

end Sys2Proof
end

