-- ==== Sys2Proof/Decode.lean ====
section
/-! DEFINITION. Decode: from the bits of an instruction to its term (09 R210-R224; 16 R347, R348; 23 R432), and back. The
decoder is total: what it cannot give a term it rejects by name. -/

namespace Sys2Proof

open Sys2Proof.Machine

/-- The parcels of an instruction, given by its first parcel alone (R211). -/
def parcelCount (p : BitVec 16) : Nat :=
  if p.getLsbD 0 = false then 1 else if p.getLsbD 1 = false then 2 else if p.getLsbD 2 = false then 4 else 6

/-- The fields of a C16 parcel (R213). -/
def cFields (w : BitVec 96) : COps := { d := w.extractLsb' 5 6, b := w.extractLsb' 11 5 }

/-- The fields of a W32 word (R215). -/
def wFields (w : BitVec 96) : WOps :=
  { f := w.extractLsb' 28 4, d := w.extractLsb' 10 6, a := w.extractLsb' 16 6, b := w.extractLsb' 22 6 }

/-- The fields of an L64 word, or of an X96 word with its literal (R217, R218). -/
def lFields (w : BitVec 96) (x : Bool) : LOps :=
  { f := w.extractLsb' 53 4, d := w.extractLsb' 11 8, a := w.extractLsb' 19 8, b := w.extractLsb' 27 8,
    c := w.extractLsb' 35 8, p := w.extractLsb' 43 8, pn := w.getLsbD 51, ru := w.getLsbD 52, rm := w.extractLsb' 57 3,
    sc := w.extractLsb' 60 4, lit := if x then some (w.extractLsb' 64 32) else none }

/-- A compact parcel (R213, R214). -/
def decodeC (w : BitVec 96) : Except DecodeError Instr :=
  let op := (w.extractLsb' 1 4).toNat
  match staticCheckC op (cFields w) with
  | none => .ok (formC op (cFields w))
  | some e => .error e

/-- A W32 word (R215, R216). -/
noncomputable def decodeW (w : BitVec 96) : Except DecodeError Instr :=
  let major := (w.extractLsb' 2 8).toNat
  let o := wFields w
  match formW major o.f.toNat with
  | none => .ok (.reservedEncoding (w &&& 0xFFFFFFFF#96))
  | some k =>
    match staticCheckW major o with
    | none => .ok (k o)
    | some .noForm => .ok (.reservedEncoding (w &&& 0xFFFFFFFF#96))
    | some e => .error e

/-- An L64 or X96 word (R217, R218). -/
noncomputable def decodeL (w : BitVec 96) (x : Bool) : Except DecodeError Instr :=
  let major := (w.extractLsb' 3 8).toNat
  let o := lFields w x
  let own := if x then w else w &&& 0xFFFFFFFFFFFFFFFF#96
  match formL major o.f.toNat with
  | none => .ok (.reservedEncoding own)
  | some k =>
    match staticCheck major o with
    | none => .ok (k o)
    | some .noForm => .ok (.reservedEncoding own)
    | some e => .error e

/-- The instruction whose parcels are the low bits of `w` (R210, R211). A reserved major, an unlisted minor or a format that the
cell does not have is the term `reservedEncoding` (R233); any other failure of R223 is an error by name. -/
noncomputable def decode (w : BitVec 96) : Except DecodeError Instr :=
  if w.getLsbD 0 = false then decodeC w
  else if w.getLsbD 1 = false then decodeW w
  else if w.getLsbD 2 = false then decodeL w false
  else decodeL w true

/-- The Fuset instruction of a word (R347). An unlisted opcode is the term `fusetReservedOpcode`; a reserved field that is not
zero, or a shift of LI over 23, is an error (R348, R350). -/
noncomputable def decodeFuset (w : DWord) : Except DecodeError Instr :=
  let op := (w.extractLsb' 0 8).toNat
  let o : FOps := { fd := w.extractLsb' 8 5, fa := w.extractLsb' 13 5, fb := w.extractLsb' 18 5, imm := w.extractLsb' 23 41 }
  match formFuset op with
  | none => .ok (.fusetReservedOpcode w)
  | some k => if fusetFieldsOk op o then .ok (k o) else .error .reservedField

/-- The command of a channel entry (R432, R433). -/
noncomputable def decodeCommand (c : Cmd) : Instr := formCommand (c.head.extractLsb' 8 8).toNat c

/-- What the host asks: the instruction the decoder reads from a word whose bits above `nbits` are zero. -/
noncomputable def decodeTableWord (nbits w : Nat) : Option Instr :=
  match decode (BitVec.ofNat 96 (w % 2 ^ nbits)) with
  | .ok i => some i
  | .error _ => none

/-! ## The encoder, from the same tables -/

/-- A C16 parcel (R213). -/
def encodeC (op : Nat) (o : COps) : BitVec 16 := o.b ++ o.d ++ BitVec.ofNat 4 op ++ 0#1

/-- A W32 word (R215). -/
def encodeW (major : Nat) (o : WOps) : BitVec 32 := o.f ++ o.b ++ o.a ++ o.d ++ BitVec.ofNat 8 major ++ 1#2

/-- The low 64 bits of an L64 or X96 word, with the given format bits (R217, R218). -/
def encodeL (major : Nat) (o : LOps) (fmt : BitVec 3) : DWord :=
  o.sc ++ o.rm ++ o.f ++ BitVec.ofBool o.ru ++ BitVec.ofBool o.pn ++ o.p ++ o.c ++ o.b ++ o.a ++ o.d ++
    BitVec.ofNat 8 major ++ fmt

/-- The bits of a Slauk instruction (R210-R218), or of a reserved encoding; none for the other rows. -/
def encode (i : Instr) : Option (BitVec 96) :=
  match codedOf i with
  | .c16 op o => some ((encodeC op o).zeroExtend 96)
  | .w32 major _ o => some ((encodeW major o).zeroExtend 96)
  | .l64 major _ o =>
    match o.lit with
    | none => some ((encodeL major o 3#3).zeroExtend 96)
    | some v => some (v ++ encodeL major o 7#3)
  | .event => match i with
    | .reservedEncoding w => some w
    | _ => none
  | _ => none

/-- The word of a Fuset instruction (R347), or of a reserved opcode; none for the other rows. -/
def encodeFuset (i : Instr) : Option DWord :=
  match codedOf i with
  | .fuset op o => some (o.imm ++ o.fb ++ o.fa ++ o.fd ++ BitVec.ofNat 8 op)
  | .event => match i with
    | .fusetReservedOpcode w => some w
    | _ => none
  | _ => none

/-- The entry of a command (R432); none for the other rows. -/
def encodeCommand (i : Instr) : Option Cmd :=
  match codedOf i with
  | .command _ c => some c
  | .event => match i with
    | .unassignedCommand c => some c
    | _ => none
  | _ => none

end Sys2Proof
end

