-- ==== Sys2Proof/Machine/Units.lean ====
section
/-! DEFINITION. Units: the records of the compute side of the machine: splits, teams, blocks, gangs, launches, cores, device
contexts (01, 02, 04, 05, 13, 15, 23, 24, 25). Plain data. -/

namespace Sys2Proof.Machine

/-- A table by number: keys strictly rising. -/
abbrev Tbl (α : Type) := List (Nat × α)

/-- Splits' states (01 R42). A STOPPED split keeps its prior state here and is marked by `Split.stopped`; a DEFERRED one
stands on the deferral stack. -/
inductive SplitState where
  | ready
  | waitOp
  /-- WAIT-JOIN with its wait tag. -/
  | waitJoin (tag : Nat)
  /-- WAIT-BAR on barrier `i` (block barriers 0-15, cluster barriers 16-19) until `phase` is released. -/
  | waitBar (i phase : Nat)
deriving DecidableEq, Repr

/-- What a split stands in line for: an entry of its team's decision queue (15 R332), an accumulator token (05 R130); or, a front
program, room in a team's decision queue, or nothing any more, that team having ended (01 R35). -/
inductive Line where
  | q0
  | token (handle : Word)
  | room (team : Nat)
  | discarded
deriving DecidableEq, Repr

/-- The record of one trap (15 R334, R336; 25 R465). `code` 0 is no trap. -/
structure TrapRec where
  code : Nat
  aux : Nat := 0
  field : Nat := 0
  split : Nat := 0
  reason : Nat := 0
  pc : BitVec 56 := 0
  res : BitVec 56 := 0
  parcel : BitVec 16 := 0
  val : DWord := 0
  cmd : DWord := 0
  sel : BitVec 16 := 0
  laneFlags : BitVec 8 := 0
  lane : Nat := 0
  done : Mask := 0
  leak : List Word := []
deriving DecidableEq, Repr

/-- An instruction issued and not complete: what it keeps from its issue (02 R59, R62; 03 R98; 04 R112; 05 R134; 14 R319). -/
structure Held where
  /-- The index-register descriptors at issue. -/
  xs : List Word
  /-- The value popped from q0. -/
  q0 : Option Word
  /-- The elements popped from q1, by lane. -/
  q1 : Option (Tbl Word)
  /-- Lanes done (R98). -/
  done : Mask
  /-- Pages on which the instruction waits for a fault record (R456). -/
  waits : List Nat
  /-- Pages whose fault record failed (R457). -/
  failed : List Nat
  /-- The generation of the allocation that a pending SPFREE frees (R319). -/
  spgen : Option Nat
  /-- An MMA that stands in the rendezvous latch (R134). -/
  latched : Bool
  /-- The word of the instruction, as fetched when it issued. -/
  code : Option (BitVec 96)
  /-- The split waits on the fetch of its instruction (09 R212). -/
  fetching : Bool
  /-- Its addresses have passed the checks of R74 (14 R319). -/
  passed : Bool := false
  /-- The signature records of its done lanes, by lane (25 R474). -/
  recs : Tbl (List Byte) := []
  /-- The step at which the instruction issued (14 R319). -/
  born : Nat := 0
deriving DecidableEq, Repr

/-- One entry of a split table, or a slot of the deferral stack (01 R20, R22). -/
structure Split where
  mask : Mask
  pc : BitVec 56
  st : SplitState
  /-- STOPPED, with its prior state kept in `st` (R42). -/
  stopped : Bool
  held : Option Held
  /-- A trap pending on the split (15 R339). -/
  pend : Option TrapRec
  /-- The watchdog count is `now - wd` while the team is resident and not stopped; a stopped team's count is kept in `wdKept`. -/
  wd : Nat
  wdKept : Option Nat
  /-- WATCHDOG has been taken since the count last restarted. -/
  wdTaken : Bool
  /-- When it last issued or was put behind the others: the oldest stamp issues first (17 R370, 13 R290). -/
  stamp : Nat
  /-- Its store-stream signature (25 R474). -/
  sig : DWord
  /-- TCOPY stores that have not completed, whose records' data the signature lacks: the command's number, with the bytes of the records
  that follow its own (25 R474). -/
  owed : List (Nat × Nat) := []
  /-- An address breakpoint does not stop its next issue (25 R468). -/
  bpSkip : Bool
  /-- Stops again after one instruction (25 R468). -/
  step : Bool
  /-- The cycle since which it has been READY, or at which it last issued (01 R37). -/
  since : Nat := 0
  /-- In WAIT-OP with its operand available, which is READY: the cycle since which it has been (01 R42). -/
  avail : Option Nat := none
  /-- Its place in a line, with the step at which it came. -/
  line : Option (Line × Nat) := none
  /-- The half of a cycle count still to be read, by its selector, with the count (12 R266). -/
  cyc : Option (Nat × Nat) := none
deriving DecidableEq, Repr

/-- Team states (01 R43). -/
inductive TeamState where
  | running
  | stopped
  | trapped
  | ended
  | saved
deriving DecidableEq, Repr

/-- What stopped a STOPPED team, as the snapped record tells it (25 R468): BKPT, an address breakpoint, the end of a step, DBGSTOP,
HALT. -/
inductive StopCause where
  | bkpt
  | breakpoint
  | step
  | command
  | halt
deriving DecidableEq, Repr

/-- What a team keeps for a barrier it is a member of: the arrived-lane mask and the last phase (13 R292). -/
structure BarMember where
  al : Mask
  lp : Option Nat
deriving DecidableEq, Repr

/-- The result stream of one MVX in q1: elements entered and unread, and how many are still to come (05 R143). -/
structure Stream where
  num : Nat
  elems : List Word
  toCome : Nat
deriving DecidableEq, Repr

/-- One accepted CPY32, not complete (04 R110-R113): an identity, its tag, .fe, its source space, for each lane its destination offset
and where its 32 source bytes lie (none for a byte of zero), and the lines of the scratchpad that it has already filled (03 R78). Tags 4
to 7 mark a copy of a team that has ended and whose index is taken again: it counts for no tag. -/
structure TagCopy where
  id : Nat
  tag : Nat
  fe : Bool
  space : Nat
  lanes : List (Nat × List (Option Nat))
  doneLines : List Nat
  /-- The step at which it issued (14 R319). -/
  born : Nat := 0
deriving DecidableEq, Repr

/-- A trap being handled: its record, the lanes the handler was entered with, and the trapped instruction's issue record when it
was partly done (15 R339, R340). -/
structure Handling where
  trap : TrapRec
  lanes : Mask
  /-- The instruction was partly done: RETT re-executes it for lanes outside TDONE. -/
  partly : Bool
  /-- The index descriptors at its issue. -/
  xs : List Word
  /-- The state and the open instruction that the split had when an asynchronous trap took it, to which RETT returns it (01 R42). -/
  prior : SplitState := .ready
  kept : Option Held := none
  line : Option (Line × Nat) := none
deriving DecidableEq, Repr

/-- A team, or a block's front program (team number 16, one lane, k-registers; 15 R328). -/
structure Team where
  st : TeamState
  /-- The state kept while SAVED (R43). -/
  prior : TeamState
  dp : Nat
  frame : Nat
  width : Nat
  /-- REGS, or KREGS. -/
  nregs : Nat
  /-- Register n of lane L at key n * 1024 + L. -/
  regs : Sparse 32
  /-- x0 to x7 (02 R52). -/
  xr : List Word
  /-- FLAGS [7:0] (02 R67). -/
  flags : BitVec 8
  /-- FPEN [7:0] (15 R335). -/
  fpen : BitVec 8
  /-- HSCR k of lane L at key k * 1024 + L (15 R334). -/
  hscr : Sparse 32
  /-- Exited mask X (01 R18). -/
  ex : Mask
  /-- Dead mask D. -/
  dead : Mask
  splits : Tbl Split
  /-- The deferral stack, top first (01 R22). -/
  defer : List Split
  /-- The pages on which a pop waits for a fault record, and pages whose record failed (01 R22). -/
  popWaits : List Nat := []
  popFailed : List Nat := []
  /-- Slots of the stack, by number from the bottom, that do not yet hold the bytes of their split (01 R22). -/
  stale : List Nat := []
  /-- Open join records E(t) (01 R23). -/
  joins : Tbl Mask
  /-- The decision queue q0, oldest first (01 R35). -/
  dq : List Word
  /-- q1: one stream per MVX, oldest first. -/
  q1 : List Stream
  /-- Outstanding CPY32s in issue order; a tag's counter is the number with that tag (04 R112). -/
  copies : List TagCopy
  /-- Hardware return stacks, youngest entry first, by lane (01 R28). -/
  rets : Tbl (List (BitVec 56))
  /-- Entries spilled to memory, by lane. -/
  spilled : Tbl Nat
  /-- The barriers it is a member of (13 R292). -/
  bars : Tbl BarMember
  trap : Option Handling
  /-- Asynchronous traps not yet delivered, oldest first (25 R465). -/
  asyncs : List TrapRec
  /-- Its total of ended splits' signatures, with what it lacks (25 R474). -/
  sig : DWord
  owed : List (Nat × Nat) := []
  /-- Registers that hold poison, at n * 1024 + L (25 R470). -/
  poison : List Nat := []
  /-- While STOPPED: what stopped it (25 R468). -/
  cause : Option StopCause := none
deriving DecidableEq, Repr

/-- A barrier: members, arrivals, and the number of the current phase (01 R31). -/
structure Barrier where
  m : Nat
  a : Nat
  phase : Nat
deriving DecidableEq, Repr

/-- A scratchpad allocation (03 R77, 14 R317). `free` is the set of commands a pending SPFREE or teardown waits for. -/
structure Alloc where
  off : Nat
  len : Nat
  gen : Nat
  span : Nat
  busy : Bool
  /-- Accepted multicast transfers not yet finished (04 R124). -/
  mcast : Nat
  /-- The commands (timeline, number) and the CPY32s (by identity) that a pending free waits for (14 R319). -/
  waitCmds : List (Nat × Nat)
  waitCopies : List Nat
  /-- The step at which its pending free issued: the CPY32s that issued before and have not been accepted are waited for too (14 R319). -/
  freedAt : Nat := 0
deriving DecidableEq, Repr

/-- A live accumulator handle (05 R127-R130). `token` none is ENGINE. -/
structure Handle where
  serial : Nat
  count : Nat
  first : Nat
  owner : Nat
  token : Option Nat
deriving DecidableEq, Repr

/-- An A latch of the matrix engine (05 R138). -/
structure ALatch where
  gang : Word
  minor : Nat
  words : List Word
  scales : List Word
deriving DecidableEq, Repr

/-- An MMA standing in the rendezvous latch (05 R134). -/
structure RdvEntry where
  team : Nat
  split : Nat
  gang : Word
  minor : Nat
  ru : Bool
  handle : Word
  bOff : Word
  sOff : Word
  tile : Word
  aReg : Nat
  cReg : Nat
  lanes : Mask
  /-- The first parcel of the instruction, for ILLOP (09 R224). -/
  parcel : BitVec 16
deriving DecidableEq, Repr

/-- A tensor layout record, decoded (04 R115). -/
structure Layout where
  rank : Nat
  fmt : Nat
  base : Nat
  dims : List Nat
  boxs : List Nat
  strides : List Nat
  oob : Nat
  swz : Nat
deriving DecidableEq, Repr

/-- What an accepted engine command does (04 R114, R122; 05 R132, R140). -/
inductive EngOp where
  /-- A tensor copy: direction, sealed, layout, coordinates, scratchpad offset, version value and word address. -/
  | tcopy (store sealed : Bool) (lay : Layout) (coords : List Int) (off : Nat) (ver : DWord) (verAddr : Nat)
  /-- A multicast: source, destination, length, mask, expected generations, record offset; the targets' answers so far: core and
  reason, 0 accepted. -/
  | mcast (src dst len mask : Nat) (gens : List Nat) (recOff : Nat) (answers : Tbl Nat)
  /-- A tile multiply-accumulate on a handle's banks, with A and its scales as read. -/
  | mma (minor : Nat) (handle : Word) (boff : Nat) (zero : Bool) (a scales : List Word) (bOff sOff : Nat)
  /-- A matrix-vector product: layouts of A and scales, vectors as element words and scale bytes by lane, where the front program
  wants y, and on the stack path the stack engine of each row (05 R145). -/
  | mvx (minor : Nat) (lay sc : Layout) (x : List (List Word)) (xs : List (List Byte)) (yOff : Option Nat) (rows : Option (List Nat))
deriving DecidableEq, Repr

/-- An accepted engine command that has not completed: its timeline (0x1000 copy, 0x1001 mma, 0x1002 mv), number and issuing
team (16 the front program). `doneBytes` are the elements a faulted TCOPY has already moved; `stalled` while its fault waits for
RETT (04 R109). -/
structure EngCmd where
  tl : Nat
  num : Nat
  team : Nat
  op : EngOp
  doneElems : List Nat
  stalled : Bool
  /-- Pages on which it waits for a fault record, and pages whose record failed (24 R456, R457). -/
  waits : List Nat
  failed : List Nat
  finished : Bool
  /-- The bytes that a store of a paired block has written, by byte of the box (25 R474). -/
  wrote : Tbl Byte := []
  /-- The step at which it was accepted (14 R315). -/
  born : Nat := 0
deriving DecidableEq, Repr

/-- A timeline's issue counter and value (04 R104). -/
structure Timeline where
  n : Nat
  v : Nat
deriving DecidableEq, Repr

/-- Block states (01 R44). -/
inductive BlockState where
  | running
  | shrinking
  | halted
  | saving
  | saved
  | restoring
  | complete
deriving DecidableEq, Repr

/-- A shrink request: count, target, posting time, and the launch it makes room for (01 R32, 24 R460). -/
structure Shrink where
  c : Nat
  target : Nat
  posted : Nat
  forLaunch : Nat
deriving DecidableEq, Repr

/-- A block (01 R16, R44), by its launch, linear index and paired copy. -/
structure Block where
  launch : Nat
  lin : Nat
  copy : Nat
  gang : Nat
  pos : Nat
  core : Nat
  st : BlockState
  /-- The state kept while HALTED, or while SAVING, SAVED and RESTORING. -/
  prior : BlockState
  priorSave : BlockState
  /-- When it was placed (24 R459 takes the most recent first). -/
  placed : Nat
  shrink : Option Shrink
  bars : List Barrier
  allocs : List Alloc
  handles : List Handle
  latches : List ALatch
  rdv : List RdvEntry
  copyTl : Timeline
  mmaTl : Timeline
  mvTl : Timeline
  cmds : List EngCmd
  teams : Tbl Team
  /-- The lane-private frames of team indices 0 to MAXT - 1 (24 R455). -/
  frames : List Nat
  /-- SPGEN and SPBASE of the initial allocation (12 R266). -/
  spgen : Nat
  spbase : Nat
  ffault : Word
  ffpc : DWord
  ffval : DWord
  sig : DWord
  slot : Option Nat
  /-- While SAVED: the full lines of its allocations, by line of the core (24 R461). -/
  savedFull : List Nat
  /-- Pages on which its saving or restoring waits (24 R456, R461). -/
  saveWaits : List Nat
  /-- Its end waits for the block before it under DET (23 R443), or for its commit. -/
  ended : Bool
  committed : Bool
deriving DecidableEq, Repr

/-- A shadow version (25 R472, R473): for each byte address, the values written, newest first, each with the block position that
wrote it; and for each 64 KiB page it holds, the pool page that backs it. -/
structure Shadow where
  cells : Tbl (List (Nat × Byte))
  pages : Tbl Nat
deriving DecidableEq, Repr

/-- A publication held back until commit (14 R327, 13 R303). -/
inductive HeldPub where
  | tset (cc word : Nat) (mask : Word)
  | tlsig (sel : Nat) (value : Nat)
deriving DecidableEq, Repr

/-- A gang, or one copy of it under COMMIT 3 (01 R16, 25 R474). -/
structure Gang where
  idx : Nat
  copy : Nat
  cluster : Nat
  /-- Cluster barriers c0-c3 (13 R295). -/
  bars : List Barrier
  shadow : Shadow
  /-- Held publications with the position of the block that made them, in issue order. -/
  pubs : List (Nat × HeldPub)
  /-- Signatures of its ended blocks, by position, with the core each ran on (25 R474, R526). -/
  sigs : Tbl (DWord × Nat)
deriving DecidableEq, Repr

/-- The fields of a launch record (01 R38). -/
structure LaunchRec where
  tentry : BitVec 56
  fentry : BitVec 56
  jentry : BitVec 56
  handler : BitVec 56
  param : BitVec 56
  gang : Nat
  gridx : Nat
  gridy : Nat
  gridz : Nat
  kregs : Nat
  regs : Nat
  maxt : Nat
  initt : Nat
  width : Nat
  accmax : Nat
  span : Nat
  scratch : Nat
  strict : Bool
  ldesc : Bool
  nreplay : Bool
  shrinkok : Bool
  det : Bool
  commit : Nat
  prio : Nat
  tlid : Nat
  tlval : Nat
deriving DecidableEq, Repr

/-- Launch states: queued, with placed or started blocks, complete, discarded or rejected (23 R442, 24 R449). -/
inductive LaunchState where
  | queued
  | placed
  | complete
  | discarded
deriving DecidableEq, Repr

/-- A launch, by its id (23 R433). -/
structure Launch where
  ctx : Nat
  lr : LaunchRec
  priv : Bool
  waits : List (Nat × Nat)
  ack : Bool
  st : LaunchState
  /-- Its waits held (23 R440), or need not be tested again (25 R477). -/
  ready : Bool
  nextGang : Nat
  /-- Linear indices of its completed blocks. -/
  blocksDone : List Nat
  /-- Linear indices of its committed blocks (25 R472). -/
  committed : List Nat
  /-- The 256 bytes of PARAM, once copied (25 R477). -/
  param : Option (List Byte)
  /-- The page on which the copy or write-back of PARAM waits. -/
  paramWait : Option Nat
  /-- A replay's write-back of PARAM is to be made before the launch is placed again (25 R477). -/
  writeBack : Bool
  /-- Its place in its queue: acceptance order, a replay going to the head (23 R441, 25 R477). -/
  seat : Int
  replays : Nat
  /-- Made non-replayable (25 R473, R477). -/
  nonReplay : Bool
  dispatched : Bool
  lready : Bool
  /-- For each line written under DET, the blocks that wrote it (25 R479). -/
  writers : Tbl (List Nat)
  shadow : Shadow
  pubs : List (Nat × HeldPub)
  gangs : List Gang
  /-- Linear indices of blocks whose copies' signatures differ, each logged once (25 R475). -/
  mismatched : List Nat := []
  /-- Gangs to be placed again, with the copy number (25 R475, R476). -/
  rerun : List (Nat × Nat)
  /-- The clusters on which its next gang is blocked, each with the cycle since which it has been (24 R459). -/
  blockedSince : Tbl Nat
deriving DecidableEq, Repr

/-- A core (03 R77, 05 R127): its next generation and its next accumulator serial. -/
structure CoreState where
  gen : Nat
  serial : Nat
deriving DecidableEq, Repr

/-- Context states (24 R446, R449). -/
inductive CtxState where
  | free
  | live
  | dying
  | killed
deriving DecidableEq, Repr

/-- Who advances a numbered timeline (04 R105, 24 R446). -/
inductive TlOwner where
  | software
  | collective (cc : Nat)
  | stackQueue (k : Nat)
deriving DecidableEq, Repr

/-- A sealed tile: its bytes and its version word as physical ranges (address, length), in the capacity tier and in host memory (04 R119, 28
R509); and the block whose unit's shadow holds it until its commit, by launch, linear index and copy (25 R472). -/
structure SealedTile where
  cap : List (Nat × Nat)
  sys : List (Nat × Nat)
  unit : Option (Nat × Nat × Nat) := none
deriving DecidableEq, Repr

/-- A counter word: ESN and COUNT (25 R482). -/
structure Counter where
  esn : Word
  count : Word
deriving DecidableEq, Repr

/-- A device context (24 R446-R449). -/
structure Ctx where
  st : CtxState
  root : Nat
  tlmap : Nat
  sbmap : Nat
  lpbase : Nat
  nframes : Nat
  lpstride : Nat
  lpuser : Nat
  shrlim : Nat
  wdlog : Nat
  pinmax : Nat
  chipmb : Nat
  debug : Bool
  privok : Bool
  pool : Nat
  pooln : Nat
  savebase : Nat
  slots : Nat
  /-- Numbered timelines that are not at V = N = 0 (04 R104). -/
  tls : Tbl Timeline
  /-- Numbered timelines with an owner other than software. -/
  owners : Tbl TlOwner
  stkv : Nat
  path : Nat
  /-- The MiB of chip scratchpad granted to it, in the order of its addresses, the same on both dies (24 R448). -/
  chipAt : List Nat
  poolUsed : List Nat
  framesUsed : List Nat
  slotsUsed : List Nat
  pins : Nat
  seals : List SealedTile
  /-- Outstanding NOTIFY requests: sequence number, selector, value, ACK (23 R433). -/
  notifies : List (Nat × Nat × Nat × Bool)
  bps : Tbl (BitVec 56)
  stopBlock : Bool
  keyCur : Option (List Byte)
  keyPrev : Option (List Byte)
  keyTime : Nat
  counters : List Counter
  /-- Of a context dying or killed: reason, launches discarded, block concerned (24 R449). -/
  killReason : Nat
  killCount : Nat
  killBlock : Nat
  /-- A CTXKILL command whose DONE follows the kill. -/
  killAck : Option Nat
  /-- Of a kill by CTXKILL: that command's sequence number; otherwise 0 (23 R436). -/
  killSeq : Nat := 0
deriving DecidableEq, Repr

/-- A fault record (24 R456, R457): the context, the 64 KiB page, the level and class at which the walk stopped (1 absent, 2
malformed, 3 demand-zero), the kinds wanted (bit 0 read, 1 write, 2 execute), whether host-assisted. -/
structure FaultRec where
  num : Nat
  ctx : Nat
  page : Nat
  level : Nat
  cls : Nat
  kinds : Nat
  host : Bool
deriving DecidableEq, Repr

/-- A valid leaf held by the translation caches: context, base page number, pages, physical base, kind and permissions (24 R458). -/
structure CachedLeaf where
  ctx : Nat
  va : Nat
  size : Nat
  pa : Nat
  system : Bool
  r : Bool
  w : Bool
  x : Bool
deriving DecidableEq, Repr

/-- One HBM set's occupant: tag, dirty, pinning context (03 R81, R82). -/
structure HbmSet where
  tag : Nat
  dirty : Bool
  pin : Option Nat
deriving DecidableEq, Repr

/-- Work that an error has started and that comes before anything else: a launch replay with its cause and the block concerned, or the
rerun of a block's unit (25 R470, R471, R476, R477). -/
inductive Due where
  | replay (launch cause lin : Nat)
  | rerun (block : Nat) (whole : Bool)
deriving DecidableEq, Repr

end Sys2Proof.Machine
end

