-- ==== Sys2Proof/Machine/Fleet.lean ====
section
/-! DEFINITION. Fleet: the records of the fabric die, the command channel, the ports, the flash and the health of the module (07,
16, 23, 25-29). Plain data. -/

namespace Sys2Proof.Machine

/-- Collective context states (16 R368). -/
inductive CcState where
  | unbound
  | ready
  | running
  | waiting
  | halted
  | faulted
deriving DecidableEq, Repr

/-- Tile-table entry states (07 R185). -/
inductive EntryState where
  | disarmed
  | armed
  | fired
deriving DecidableEq, Repr

/-- Round states (16 R367). -/
inductive RoundState where
  | none
  | active
  | complete
  | aborted
deriving DecidableEq, Repr

/-- The fields of a tile-table image (16 R355). -/
structure TileImage where
  laddr : Nat
  raddr : Nat
  chunk : Nat
  whey : Nat
  swred : Bool
  peermode : Bool
  fmt : Bool
  role : Nat
  peer : Nat
  nbits : Nat
  firstbit : Nat
deriving DecidableEq, Repr

/-- A block's send to one receiver: not answered, accepted, refused (07 R180, R189). -/
inductive SendState where
  | flying
  | accepted
  | refused
deriving DecidableEq, Repr

/-- What a firing sends to one receiver: the answers so far by block (07 R180). -/
structure SendTo where
  rank : Nat
  sent : Tbl SendState
deriving DecidableEq, Repr

/-- A firing, with the fields it captured (07 R184): its round, the entry's version, the incoming curds, the blocks whose churn has
committed, the curds it made, and its sends. Firings that have completed are kept only while they are their entry's last. -/
structure Firing where
  image : TileImage
  round : Nat
  version : BitVec 16
  born : Nat
  got : Tbl (List Byte)
  blocksDone : List Nat
  curds : Tbl (List Byte)
  sends : List SendTo
  /-- Of an origin: the data of its blocks, read as it started (07 R186). -/
  data : Tbl (List Byte) := []
deriving DecidableEq, Repr

/-- The receive slot of an entry (07 R180, 16 R355, R358). -/
structure Slot where
  posted : Bool
  pending : Bool
  /-- Accepted curd bytes by block. -/
  got : Tbl (List Byte)
  /-- Senders refused "not posted" this round (R355). -/
  kept : List Nat
deriving DecidableEq, Repr

/-- A tile-table entry (07 R185, 16 R357): its firings, oldest first. -/
structure TileEntry where
  st : EntryState
  version : BitVec 16
  image : TileImage
  armedRound : Nat
  firings : List Firing
  slot : Slot
deriving DecidableEq, Repr

/-- The bound ring (16 R353). -/
structure Ring where
  gen : Nat
  pos : Nat
  ranks : List Nat
deriving DecidableEq, Repr

/-- The round of a context (16 R344, R363). -/
structure Round where
  st : RoundState
  num : Nat
  duration : Nat
  deadline : Option Nat
  outcome : Nat
  abortRank : Nat
  waitrd : Bool
deriving DecidableEq, Repr

/-- A whey object (16 R365). -/
structure WheyObj where
  base : Nat
  desc : DWord
  torn : Bool
deriving DecidableEq, Repr

/-- A collective context (16 R344). -/
structure Cc where
  st : CcState
  ctx : Nat
  ch : Nat
  sbbits : Nat
  entry : Nat
  tlc : Nat
  prot : Bool
  regs : Sparse 64
  pc : DWord
  /-- The return stack, youngest first. -/
  rets : List DWord
  faultCode : Nat
  faultReason : Nat
  /-- The reason a TSET's ARM trap carries while the context is faulted (07 R188, 16 R368). -/
  armReason : Nat
  entries : Tbl TileEntry
  ring : Option Ring
  round : Round
  /-- The scoreboard words that are not zero, by word number (07 R182). -/
  board : Sparse 32
  whey : Tbl WheyObj
  /-- Posted notices that have arrived for the current round: rank, whether for a gather curd, chunk (16 R358). -/
  notices : List (Nat × Bool × Nat)
  /-- Chunks whose curds were refused before any entry was armed for them in the round, each with a sender of one (16 R355). -/
  early : List (Nat × Nat)
  /-- Whey objects touched by a step of the round (07 R190). -/
  touched : List Nat
  ckpts : Nat
  discarded : Nat
  droppedPubs : Nat
  /-- Pages of whey on which a step stalls (07 R177, 23 R444). -/
  wheyWaits : List Nat
  /-- Those of them that the host has been asked to move (23 R444, R445). -/
  wheyHost : List Nat
  /-- Pages on which the instruction, and on which a step, waits for a fault record, and pages whose record failed (24 R457). -/
  waits : List Nat
  stepWaits : List Nat
  failed : List Nat
  /-- A SEND in progress: the version of the firing it resends, and each receiver and block resent (16 R359). -/
  sending : Option (BitVec 16 × List (Nat × Nat))
  /-- When it last issued (16 R345). -/
  stamp : Nat
deriving DecidableEq, Repr

/-- A re-formation at this member (28 R511): the ring of a generation, what it has heard of it (rank, LASTCK, CURROUND), whether its own
request stands, whether collection has ended, whether it has sent results as leader, the record it answers through, and when
collection ends; of the reports that came before its own request, when each came. -/
structure Reform where
  cc : Nat
  oldgen : Nat
  ranks : List Nat
  heard : List (Nat × Nat × Nat)
  started : Bool
  closed : Bool
  sent : Bool
  record : Nat
  deadline : Nat
  came : Tbl Nat := []
  /-- The member that would lead the others had ended its collection before this member's request (log 22). -/
  late : Bool := false
deriving DecidableEq, Repr

/-- What firmware does at a re-formation record: takes the request that it holds, or answers it with a STATE or with a new ring (28 R510,
R511). -/
inductive FwAct where
  | start
  | answer (st : Nat)
  | ring (newgen restart next : Nat) (ranks : List Nat)
deriving DecidableEq, Repr

/-- Such work that waits for pages, at the record of a collective context (24 R456, 28 R510). -/
structure FwDuty where
  cc : Nat
  record : Nat
  act : FwAct
  waits : List Nat
deriving DecidableEq, Repr

/-- An event of the channel before its sequence number is given (23 R436). -/
structure Event where
  reason : Nat
  kind : Nat
  ctx : Nat
  cmdseq : DWord
  value0 : DWord
  value1 : DWord
deriving DecidableEq, Repr

/-- The channel registers (23 R430, R431). -/
structure Channel where
  en : Bool
  snoop : Bool
  evovf : Bool
  cplfull : Bool
  seqerr : Bool
  cfgerr : Bool
  cmdbase : DWord
  cmdsize : DWord
  cmdtail : DWord
  cmdacc : DWord
  cplbase : DWord
  cplsize : DWord
  cplhead : DWord
  cplemit : DWord
  duty : DWord
  winbase : DWord
  winsize : DWord
  evdrop : DWord
  /-- Events held in order (23 R437). -/
  held : List Event
deriving DecidableEq, Repr

/-- The error log (25 R480-R482): entries as four words, by entry number modulo 4,096; the class counters by class. -/
structure ErrorLog where
  head : DWord
  tail : DWord
  ovf : Bool
  drop : DWord
  esn : Word
  hbase : DWord
  hsize : DWord
  entries : Tbl (DWord × DWord × DWord × DWord)
  counters : Tbl Counter
deriving DecidableEq, Repr

/-- Port states (27 R501). -/
inductive PortState where
  | down
  | training
  | live
  | failed
deriving DecidableEq, Repr

/-- A port (27 R501, R502): its registers; when its training began, and when its lock can first count from: that time, or the last
uncorrectable codeword met in training; when its window of 60 s began; the times of its last uncorrectable codewords, newest first. -/
structure Port where
  en : Bool
  disabled : Bool
  st : PortState
  inset : Bool
  winfail : Nat
  lockloss : Word
  tx : DWord
  rx : DWord
  feccorr : DWord
  fecunc : DWord
  start : Nat
  since : Nat
  window : Nat
  errs : List Nat
deriving DecidableEq, Repr

/-- A packet sent and not acknowledged (27 R500, R503, R504, R506): its port, none while it waits for one; the time from which it has
gone unacknowledged; the endpoint address it goes to; its place among the ordered messages to that rank, if it is one; its entropy value;
the key it is encrypted with; the deadline of its round. -/
structure TxPacket where
  psn : Nat
  port : Option Nat
  lost : Option Nat
  addr : BitVec 128
  rod : Option Nat
  entropy : BitVec 16
  key : Option (List Byte)
  deadline : Option Nat
  body : Msg
deriving DecidableEq, Repr

/-- A boot image as bytes of a bank (26 R487): header, body, signature. -/
structure ImageBank where
  header : List Byte
  body : List Byte
  sig : List Byte
  valid : Bool
deriving DecidableEq, Repr

/-- A key-state slot (26 R493). -/
structure KeySlot where
  seq : Nat
  resv : Nat
  valid : Bool
deriving DecidableEq, Repr

/-- The flash (26 R486, 29 R523). -/
structure Flash where
  bankA : ImageBank
  bankB : ImageBank
  /-- The bank marked active: true for B. -/
  activeB : Bool
  minsvn : Nat
  slotX : KeySlot
  slotY : KeySlot
  /-- The PUF helper data and the device certificate. -/
  helper : List Byte
  cert : List Byte
  /-- The service map: units removed (29 R523). -/
  removed : List UnitId
deriving DecidableEq, Repr

/-- A self-test in progress (29 R519-R521). -/
structure SelfTest where
  phase : Nat
  buf : Nat
  nonce : DWord
  seq : Nat
  ack : Bool
  /-- The CORR count when it began, and when. -/
  corr0 : Nat
  start : Nat
  /-- When the phase began (29 R520). -/
  began : Nat := 0
deriving DecidableEq, Repr

/-- The error codes that an SPDM answer may carry (26 R494). -/
inductive SpdmError where
  | invalidRequest
  | unspecified
deriving DecidableEq, Repr

/-- What an SPDM answer says (26 R494): the version; the services; the hash and the signature algorithm, by the registry's identifier; the
digest of the certificate; the certificate; the measurement blocks, with how many there are. -/
inductive SpdmBody where
  | error (code : SpdmError)
  | version (major minor : Nat)
  | capabilities (certificates challenge signedMeasurements : Bool)
  | algorithms (sha256 : Bool) (extendedAsym : DWord)
  | digests (cert : List Byte)
  | certificate (cert : List Byte)
  | challengeAuth (cert : List Byte)
  | measurements (count : Nat) (blocks : List (Nat × List Byte))
deriving DecidableEq, Repr

/-- An answer to an SPDM request (26 R494): with the leaf that signed it and its signature, where it is signed. -/
structure SpdmAnswer where
  body : SpdmBody
  leaf : Option Nat
  sig : List Byte
deriving DecidableEq, Repr

/-- What waits for firmware and its identity key, in order of arrival (26 R493, R494; 29 R521): an SPDM request, or the report of a
self-test. -/
inductive FwJob where
  | spdm (r : SpdmReq)
  | report (t : SelfTest)
deriving DecidableEq, Repr

/-- The management side: BOOTSTAT, measurements, identity, supply, health (26, 25 R478, 29). -/
structure Mgmt where
  ready : Bool
  recovery : Bool
  idfail : Bool
  bankB : Bool
  keyend : Bool
  fail : Nat
  svn : Nat
  meas : List (List Byte)
  /-- The next unused leaf (26 R493). -/
  nextLeaf : Nat
  boots : Nat
  /-- The bank of the staged and verified image (26 R495): true for B. -/
  staged : Option Bool
  /-- The value s of the identity, where it has been reconstructed (26 R492). -/
  ident : Option (List Byte)
  /-- Firmware's jobs, oldest first, and the key-state slot it is writing (26 R493). -/
  jobs : List FwJob
  slotWrite : Option KeySlot
  test : Option SelfTest
  /-- Units out of service now: removed, disabled by configuration, or failed at boot. -/
  out : List UnitId
  unusable : Bool
  /-- Lane deaths by logic check per datapath, and DECODE entries per stack engine, since boot (29 R523). -/
  laneDeaths : Tbl Nat
  decodes : Tbl Nat
  /-- Placement is held off by a brown-out (25 R478). -/
  brown : Bool
  /-- The last SPDM answer (26 R494). -/
  spdm : Option SpdmAnswer
deriving DecidableEq, Repr

/-- The fabric registers and the transport (27 R499, R503, R504). -/
structure Fabric where
  valid : Bool
  rank : Nat
  pfxlo : DWord
  pfxhi : DWord
  ports : Tbl Port
  nextPsn : Nat
  nextPort : Nat
  /-- Packets sent and not acknowledged, oldest first. -/
  tx : List TxPacket
  /-- Sequence numbers received, by source rank. -/
  seen : List (Nat × Nat)
  /-- The place of the next ordered message to each rank, and of the next one to be delivered from each; those that came ahead of theirs:
  source, place, message (27 R498). -/
  rodOut : Tbl Nat
  rodIn : Tbl Nat
  ahead : List (Nat × Nat × Msg)
  /-- Messages to this module's own rank, and messages received and not yet delivered, oldest first. -/
  inbox : List Msg
deriving DecidableEq, Repr

end Sys2Proof.Machine
end

