-- ==== Sys2Proof/Machine/State.lean ====
section
/-! DEFINITION. State: the whole machine as plain data, the ways a step can stop, and the machine right after reset. -/

namespace Sys2Proof.Machine

/-- Who issues an instruction. -/
inductive Agent where
  | none
  /-- A split: block key, team index (16 the front program), split table entry. -/
  | split (b t e : Nat)
  /-- A collective context. -/
  | cc (n : Nat)
deriving DecidableEq, Repr

/-- One move of the machine: an agent runs, an event happens, the channel takes its next entry, the distributor looks at its launches
(log 1). -/
inductive Move where
  | run (a : Agent)
  | event (i : Instr)
  | channel
  | watch
deriving DecidableEq, Repr

/-- The reasons a step stops the model. -/
inductive Fault where
  /-- `exec` was asked to run a Slauk or Fuset instruction in a state whose `cur` names no agent that exists. `step` never does
  so: it runs an instruction only for an agent it has found. Safe: a claim about such a state is about no machine. -/
  | noIssuer
deriving DecidableEq, Repr

/-- The reasons a step refuses. -/
inductive Refusal where
  /-- The instruction has no meaning in this model. Raised by exec's arms alone. Safe. -/
  | notModelled (mnemonic : String)
deriving DecidableEq, Repr

/-- The machine. -/
structure State where
  /-- Power is good (26 R489, 25 R478). -/
  power : Bool
  /-- Cycles since power-on (12 R266). -/
  now : Nat
  /-- Steps taken: the index of the model's free values. The model's own field. -/
  tick : Nat
  /-- Moves chosen to come next. The model's own field (log 1). -/
  agenda : List Move
  /-- The agent that is issuing. The model's own field (log 1). -/
  cur : Agent
  /-- Capacity-tier bytes that are not zero, by device physical address (03 R81). -/
  mem : List Host.Cell
  /-- Bytes of the capacity tier not overwritten since their word was poisoned, by device physical address, rising: a word holds poison
  while one of its bytes is listed (25 R470, log 24). -/
  poison : List Nat
  /-- The same of the core scratchpads, at core * 2^19 + offset. -/
  spadPoison : List Nat
  /-- Accumulator words that hold poison, at core * 65536 + word. -/
  accPoison : List Nat
  /-- The bytes of scratchpads written while a CPY32 or a tensor load is outstanding, with the step of the last write: what such a copy writes
  to one that was written after its acceptance stands or not (04 R113, 14 R315). The model's own field (logs 14, 129). -/
  spadRaces : Tbl Nat
  /-- Host and pooled memory bytes that are not zero, by host physical address (24 R454). -/
  host : List Host.Cell
  /-- Chip-scratchpad bytes that are not zero, at die * 2^26 + offset. -/
  chip : List Host.Cell
  /-- Core scratchpad bytes that are not zero, at core * 2^19 + offset. -/
  spad : List Host.Cell
  /-- Full lines, at core * 4096 + line; every other line is empty (03 R78). -/
  full : List Nat
  /-- Accumulator words that are not +0, at core * 65536 + word (05 R127). -/
  acc : Sparse 32
  /-- HBM sets with a valid occupant (03 R81). -/
  hbm : Tbl HbmSet
  /-- Lines present in L2 and whether dirty, by line number; host lines above the device's (12 R277). -/
  l2 : Tbl Bool
  /-- The translation caches (24 R458). -/
  tlb : List CachedLeaf
  faults : List FaultRec
  nextFault : Nat
  cores : Tbl CoreState
  launches : Tbl Launch
  blocks : Tbl Block
  nextBlock : Nat
  /-- For each rank of the launch queues, the context whose gang was placed last (23 R441). -/
  turns : Tbl Nat
  ctxs : Tbl Ctx
  ccs : Tbl Cc
  reforms : List Reform
  /-- Firmware's work at re-formation records that waits for pages (28 R510; 24 R456). -/
  duties : List FwDuty
  /-- Replays and reruns that errors have started, oldest first (25 R470). -/
  due : List Due
  chan : Channel
  log : ErrorLog
  mgmt : Mgmt
  flash : Flash
  fab : Fabric
deriving DecidableEq, Repr

/-- A core at reset: the counters run from 1 (03 R77, 05 R127). -/
def CoreState.reset : CoreState := { gen := 1, serial := 1 }

/-- A counter at reset (25 R482). -/
def Counter.zero : Counter := { esn := 0, count := 0 }

/-- A context that is FREE (24 R446). -/
def Ctx.free : Ctx :=
  { st := .free, root := 0, tlmap := 0, sbmap := 0, lpbase := 0, nframes := 0, lpstride := 0, lpuser := 0, shrlim := 0,
    wdlog := 0, pinmax := 0, chipmb := 0, debug := false, privok := false, pool := 0, pooln := 0, savebase := 0, slots := 0,
    tls := [], owners := [], stkv := 4, path := 0, chipAt := [], poolUsed := [], framesUsed := [], slotsUsed := [], pins := 0,
    seals := [], notifies := [], bps := [], stopBlock := false, keyCur := none, keyPrev := none, keyTime := 0,
    counters := List.replicate 11 Counter.zero, killReason := 0, killCount := 0, killBlock := 0, killAck := none }

/-- The round of a context with none (16 R344). -/
def Round.none : Round :=
  { st := .none, num := 0, duration := 0, deadline := Option.none, outcome := 0, abortRank := 0, waitrd := false }

/-- An unbound collective context. -/
def Cc.unbound : Cc :=
  { st := .unbound, ctx := 0, ch := 0, sbbits := 0, entry := 0, tlc := 0, prot := false, regs := [], pc := 0, rets := [],
    faultCode := 0, faultReason := 0, armReason := 0, entries := [], ring := none, round := Round.none, board := [], whey := [],
    notices := [], early := [], touched := [], ckpts := 0, discarded := 0, droppedPubs := 0, wheyWaits := [], wheyHost := [], waits := [], stepWaits := [], failed := [], sending := none,
    stamp := 0 }

/-- The channel registers at their reset values (23 R430, R431). -/
def Channel.reset : Channel :=
  { en := false, snoop := false, evovf := false, cplfull := false, seqerr := false, cfgerr := false, cmdbase := 0, cmdsize := 0,
    cmdtail := 0, cmdacc := 0, cplbase := 0, cplsize := 0, cplhead := 0, cplemit := 0, duty := 0, winbase := 0, winsize := 0,
    evdrop := 0, held := [] }

/-- The error log at reset (25 R480). -/
def ErrorLog.reset : ErrorLog :=
  { head := 0, tail := 0, ovf := false, drop := 0, esn := 0, hbase := 0, hsize := 0, entries := [], counters := [] }

/-- A port at reset (27 R501): EN 1, all else 0. -/
def Port.reset : Port :=
  { en := true, disabled := false, st := .down, inset := false, winfail := 0, lockloss := 0, tx := 0, rx := 0, feccorr := 0,
    fecunc := 0, start := 0, since := 0, window := 0, errs := [] }

/-- An image bank that holds nothing (log 5). -/
def ImageBank.empty : ImageBank := { header := [], body := [], sig := [], valid := false }

/-- The flash of the model's module: no image, no key state, no unit removed (log 5). -/
def Flash.reset : Flash :=
  { bankA := ImageBank.empty, bankB := ImageBank.empty, activeB := false, minsvn := 0, slotX := { seq := 0, resv := 0, valid := false },
    slotY := { seq := 0, resv := 0, valid := false }, helper := [], cert := [], removed := [] }

/-- The management side at power good (26 R489, R490, R491; 29 R522). -/
def Mgmt.reset : Mgmt :=
  { ready := false, recovery := false, idfail := false, bankB := false, keyend := false, fail := 0, svn := 0,
    meas := List.replicate 8 (List.replicate 32 0), nextLeaf := 0, boots := 0, staged := none, ident := none, jobs := [], slotWrite := none, test := none, out := [],
    unusable := false, laneDeaths := [], decodes := [], brown := false, spdm := none }

/-- The fabric registers at reset (27 R499, R501). -/
def Fabric.reset : Fabric :=
  { valid := false, rank := 0, pfxlo := 0, pfxhi := 0, ports := (List.range 48).map (fun p => (p, Port.reset)), nextPsn := 0,
    nextPort := 0, tx := [], seen := [], rodOut := [], rodIn := [], ahead := [], inbox := [] }

/-- The machine right after reset: power is good and BOOT (26 R489) is the first thing to happen; every register at its Reset
column; nothing queued, placed, bound or written (log 5, log 3, log 8). -/
def State.reset : State :=
  { power := true, now := 0, tick := 0, agenda := [], cur := .none, mem := [], poison := [], spadPoison := [], accPoison := [], spadRaces := [], host := [], chip := [], spad := [], full := [],
    acc := [], hbm := [], l2 := [], tlb := [], faults := [], nextFault := 0, cores := [], launches := [], blocks := [],
    nextBlock := 0, turns := [], ctxs := [], ccs := [], reforms := [], duties := [], due := [], chan := Channel.reset, log := ErrorLog.reset, mgmt := Mgmt.reset,
    flash := Flash.reset, fab := Fabric.reset }

end Sys2Proof.Machine
end

