-- ==== Sys2Proof/Machine/Sparse.lean ====
section
/-! DEFINITION. Sparse: sparse arrays and tables by number, in one canonical form (keys strictly rising, no entry equal to what an
unlisted key reads as), and little-endian words over bytes (00 R7). -/

namespace Sys2Proof.Machine

/-- The value at a key: an unlisted key reads as zero. -/
def Sparse.get {w : Nat} (m : Sparse w) (k : Nat) : BitVec w :=
  match m with
  | [] => 0
  | (a, v) :: r => if a = k then v else Sparse.get r k

/-- The array with every entry of the key removed. -/
def Sparse.erase {w : Nat} (m : Sparse w) (k : Nat) : Sparse w := m.filter (fun c => c.1 ≠ k)

/-- The array with an entry put before the first larger key. -/
def Sparse.insert {w : Nat} (m : Sparse w) (k : Nat) (v : BitVec w) : Sparse w :=
  match m with
  | [] => [(k, v)]
  | (a, x) :: r => if a < k then (a, x) :: Sparse.insert r k v else (k, v) :: (a, x) :: r

/-- The array with a key's value replaced; writing zero removes the entry. -/
def Sparse.set {w : Nat} (m : Sparse w) (k : Nat) (v : BitVec w) : Sparse w :=
  if v = 0 then Sparse.erase m k else Sparse.insert (Sparse.erase m k) k v

/-- Keys strictly rising from above `lo`, and no entry zero. -/
def Sparse.wfFrom {w : Nat} (m : Sparse w) (lo : Option Nat) : Bool :=
  match m with
  | [] => true
  | (a, v) :: r => (match lo with
      | none => true
      | some l => decide (l < a)) && decide (v ≠ 0) && Sparse.wfFrom r (some a)

/-- The canonical form. -/
def Sparse.wf {w : Nat} (m : Sparse w) : Bool := Sparse.wfFrom m none

/-- The canonical form of a memory of bytes. -/
def Memory.wf (m : List Host.Cell) : Bool := Sparse.wf (w := 8) m

/-- The record at a number. -/
def Tbl.get {α : Type} (t : Tbl α) (k : Nat) : Option α :=
  match t with
  | [] => none
  | (a, v) :: r => if a = k then some v else Tbl.get r k

/-- The table without a number. -/
def Tbl.del {α : Type} (t : Tbl α) (k : Nat) : Tbl α := t.filter (fun c => c.1 ≠ k)

/-- The table with an entry put before the first larger number. -/
def Tbl.insert {α : Type} (t : Tbl α) (k : Nat) (v : α) : Tbl α :=
  match t with
  | [] => [(k, v)]
  | (a, x) :: r => if a < k then (a, x) :: Tbl.insert r k v else (k, v) :: (a, x) :: r

/-- The table with a number's record put in place. -/
def Tbl.put {α : Type} (t : Tbl α) (k : Nat) (v : α) : Tbl α := Tbl.insert (Tbl.del t k) k v

/-- The record at a number, or the one given. -/
def Tbl.getD {α : Type} (t : Tbl α) (k : Nat) (d : α) : α := (Tbl.get t k).getD d

/-- Every record changed alike. -/
def Tbl.mapVals {α : Type} (t : Tbl α) (f : Nat → α → α) : Tbl α := List.map (fun c => (c.1, f c.1 c.2)) t

/-- The lowest of the first `n` numbers that the table does not hold. -/
def Tbl.lowestFree {α : Type} (t : Tbl α) (n : Nat) : Option Nat :=
  (List.range n).find? (fun k => (Tbl.get t k).isNone)

/-- A number put into a rising list of numbers, once. -/
def insertNat (l : List Nat) (n : Nat) : List Nat :=
  match l with
  | [] => [n]
  | a :: r => if a < n then a :: insertNat r n else if a = n then a :: r else n :: a :: r

/-- Bytes from an address up. -/
def readBytes (m : List Host.Cell) (a n : Nat) : List Byte := (List.range n).map (fun i => Sparse.get (w := 8) m (a + i))

/-- Bytes stored from an address up. -/
def writeBytes (m : List Host.Cell) (a : Nat) (bs : List Byte) : List Host.Cell :=
  match bs with
  | [] => m
  | b :: r => writeBytes (Sparse.set (w := 8) m a b) (a + 1) r

/-- The little-endian number of a byte string (00 R7). -/
def leNat (bs : List Byte) : Nat :=
  match bs with
  | [] => 0
  | b :: r => b.toNat + 256 * leNat r

/-- A number as `n` little-endian bytes. -/
def leBytes (n v : Nat) : List Byte :=
  match n with
  | 0 => []
  | n + 1 => BitVec.ofNat 8 v :: leBytes n (v / 256)

/-- Bits [lo + len - 1 : lo] of a number. -/
def bitsOf (v lo len : Nat) : Nat := v / 2 ^ lo % 2 ^ len

/-- Whether bit `i` of a set of lanes is set. -/
def hasLane (m : Mask) (l : Nat) : Bool := m.getLsbD l

/-- The lanes of a set, ascending, of the first `w`. -/
def lanesOf (m : Mask) (w : Nat) : List Nat := (List.range w).filter (hasLane m)

/-- The set of the lanes of a list. -/
def maskOf (ls : List Nat) : Mask := ls.foldl (fun m l => m ||| ((1#1024) <<< l)) 0

/-- The lanes 0 to w - 1. -/
def allLanes (w : Nat) : Mask := BitVec.ofNat 1024 (2 ^ w - 1)

/-- The lowest lane of a set, of the first `w`. -/
def lowestLane (m : Mask) (w : Nat) : Nat := (lanesOf m w).headD 0

/-- An element of a list of numbers put in place of another. -/
def listSet {α : Type} (l : List α) (i : Nat) (v : α) : List α := l.set i v

end Sys2Proof.Machine
end

