-- ==== Sys2Proof/Machine/Report.lean ====
section
/-! DEFINITION. Report: what the device tells the host: events of the channel (23 R436, R437) and the error log with its counters
(25 R480-R483, R526). -/

namespace Sys2Proof.Machine

/-! ## Events -/

/-- Event kinds (23 R436). -/
def evDone : Nat := 0x01
/-- CMDREJ. -/
def evCmdRej : Nat := 0x02
/-- LREJ. -/
def evLRej : Nat := 0x03
/-- TLREACHED. -/
def evTlReached : Nat := 0x04
/-- HALTED. -/
def evHalted : Nat := 0x05
/-- FEVENT. -/
def evFEvent : Nat := 0x06
/-- LOGNOTE. -/
def evLogNote : Nat := 0x07
/-- SEQERR. -/
def evSeqErr : Nat := 0x08
/-- CTXKILLED. -/
def evCtxKilled : Nat := 0x09
/-- FAULTREQ. -/
def evFaultReq : Nat := 0x0A
/-- LOGREQ. -/
def evLogReq : Nat := 0x0B
/-- LREADY. -/
def evLReady : Nat := 0x0C
/-- WHEYREQ. -/
def evWheyReq : Nat := 0x0D

/-- DONE, LREJ and CTXKILLED are never dropped (R437). -/
def keptKind (k : Nat) : Bool := k = evDone || k = evLRej || k = evCtxKilled

/-- The 64 bytes of an event entry (R436). -/
def eventBytes (seq : DWord) (e : Event) : List Byte :=
  leBytes 8 seq.toNat ++ leBytes 8 (e.reason % 65536 * 65536 + e.kind * 256 + e.ctx % 64) ++ leBytes 8 e.cmdseq.toNat ++
    leBytes 8 e.value0.toNat ++ leBytes 8 e.value1.toNat ++ leBytes 24 0

/-- The event ring has no room (R437). -/
def ringFull (c : Channel) : Bool := c.cplemit - c.cplhead = c.cplsize

/-- Acceptance is paused on a full ring; a channel not enabled and not configured is at its reset values (R430, R437; log 19). -/
def cplFull (c : Channel) : Bool := ringFull c && (c.en || c.cplsize ≠ 0)

/-- Held events written to the ring in order while it has room and the channel is enabled (R431, R437). -/
def drainList (es : List Event) (c : Channel) (h : List Host.Cell) : Channel × List Host.Cell :=
  match es with
  | [] => ({ c with held := [], cplfull := cplFull c }, h)
  | e :: r =>
    if c.en && !ringFull c then
      let seq := c.cplemit + 1
      let a := c.cplbase.toNat + 64 * (seq.toNat % c.cplsize.toNat)
      drainList r { c with cplemit := seq } (writeBytes h a (eventBytes seq e))
    else ({ c with held := e :: r, cplfull := cplFull c }, h)

/-- Events written as far as the ring has room. -/
def drainEvents (s : State) : State :=
  let r := drainList s.chan.held s.chan s.host
  { s with chan := r.1, host := r.2 }

/-- The list without its first event of a droppable kind. -/
def dropOldest (es : List Event) : List Event :=
  match es with
  | [] => []
  | e :: r => if keptKind e.kind then e :: dropOldest r else r

/-- An event joins the held ones, one being dropped when 4,096 are held (R437). -/
def holdEvent (e : Event) (c : Channel) : Channel :=
  if c.held.length < 4096 then { c with held := c.held ++ [e] }
  else if !keptKind e.kind then { c with evdrop := c.evdrop + 1, evovf := true }
  else if c.held.all (fun x => keptKind x.kind) then { c with held := c.held ++ [e] }
  else { c with held := dropOldest c.held ++ [e], evdrop := c.evdrop + 1, evovf := true }

/-- An event arises (R436, R437). -/
def emit (e : Event) (s : State) : State := drainEvents { s with chan := holdEvent e s.chan }

/-- An event of a kind for a context, with the command or launch concerned and two values. -/
def event (kind ctx reason cmdseq v0 v1 : Nat) : Event :=
  { reason := reason, kind := kind, ctx := ctx, cmdseq := BitVec.ofNat 64 cmdseq, value0 := BitVec.ofNat 64 v0,
    value1 := BitVec.ofNat 64 v1 }

/-! ## Counters and the log -/

/-- Classes of the error log (25 R482). -/
def clsCorr : Nat := 0x01
/-- LANEDEATH. -/
def clsLaneDeath : Nat := 0x02
/-- RERUN. -/
def clsRerun : Nat := 0x03
/-- POISON. -/
def clsPoison : Nat := 0x04
/-- REPLAY. -/
def clsReplay : Nat := 0x05
/-- TRAPEND. -/
def clsTrapEnd : Nat := 0x06
/-- ORDER. -/
def clsOrder : Nat := 0x07
/-- PAIRMISMATCH. -/
def clsPairMismatch : Nat := 0x08
/-- CTXKILL. -/
def clsCtxKill : Nat := 0x09
/-- DROOP. -/
def clsDroop : Nat := 0x0A
/-- BROWNOUT. -/
def clsBrownout : Nat := 0x0B
/-- ABANDON. -/
def clsAbandon : Nat := 0x0C
/-- CCFAULT. -/
def clsCcFault : Nat := 0x0D
/-- DECODE. -/
def clsDecode : Nat := 0x0E
/-- PORTLOCK. -/
def clsPortLock : Nat := 0x0F
/-- REMOVAL. -/
def clsRemoval : Nat := 0x10

/-- A class's counter takes the next event sequence number (R482, R483). -/
def bumpClass (cls : Nat) (l : ErrorLog) : ErrorLog :=
  let e := l.esn + 1
  let c := (Tbl.get l.counters cls).getD Counter.zero
  { l with esn := e, counters := Tbl.put l.counters cls { esn := e, count := c.count + 1 } }

/-- What one report says (R481). -/
structure LogItem where
  cls : Nat
  ctx : Nat
  aux : Nat
  unit : Nat
  place : Nat
  value0 : DWord
  value1 : DWord
deriving DecidableEq, Repr

/-- The four words of an entry (R481); CNT names the counter of its class. -/
def entryWords (i : LogItem) (esn count : Word) : DWord × DWord × DWord × DWord :=
  (BitVec.ofNat 64 (i.cls * 2 ^ 56 + i.ctx * 2 ^ 48 + i.cls * 2 ^ 40 + i.aux % 256 * 2 ^ 32 + esn.toNat),
   BitVec.ofNat 64 (count.toNat * 2 ^ 32 + i.unit * 2 ^ 24 + i.place % 2 ^ 24), i.value0, i.value1)

/-- A counter-only update (CORR, DROOP, PORTLOCK; R482). -/
def countClass (cls : Nat) (s : State) : State := { s with log := bumpClass cls s.log }

/-- A report that makes an entry: its counter, its entry or the drop of it, and the events of either harvest mode (R483). -/
def logEntry (i : LogItem) (s : State) : State :=
  let l := bumpClass i.cls s.log
  let c := (Tbl.get l.counters i.cls).getD Counter.zero
  if l.tail - l.head = 4096 then { s with log := { l with drop := l.drop + 1, ovf := true } }
  else
    let l1 := { l with entries := Tbl.put l.entries (l.tail.toNat % 4096) (entryWords i l.esn c.count), tail := l.tail + 1 }
    let s1 := emit (event evLogNote 0 0 0 l.esn.toNat l.esn.toNat) { s with log := l1 }
    let n := (l1.tail - l1.head).toNat
    if s.chan.duty.getLsbD 1 && (n = 2048 || n = 4096) then
      emit (event evLogReq 0 (if n = 2048 then 1 else 2) 0 l1.head.toNat l1.tail.toNat) s1
    else s1

/-- A counter of a device context is updated and holds the last event sequence number assigned (R482). -/
def bumpCtx (x k : Nat) (s : State) : State :=
  match Tbl.get s.ctxs x with
  | none => s
  | some c =>
    let o := (c.counters[k]?).getD Counter.zero
    { s with ctxs := Tbl.put s.ctxs x { c with counters := listSet c.counters k { esn := s.log.esn, count := o.count + 1 } } }

end Sys2Proof.Machine
end

