-- ==== Sys2Proof/Machine/Mem.lean ====
section
/-! DEFINITION. Mem: translation (24 R452-R458), the places an access can reach (03 R71, R81, 04 R107), reads and writes of them
with what every write entails (03 R102, 25 R472, R479), and fault records (24 R456). -/

namespace Sys2Proof.Machine

/-! ## Looking things up -/

/-- A device context; a FREE one where none stands. -/
def ctxOf (s : State) (x : Nat) : Ctx := Tbl.getD s.ctxs x Ctx.free

/-- A device context put in place. -/
def putCtx (s : State) (x : Nat) (c : Ctx) : State := { s with ctxs := Tbl.put s.ctxs x c }

/-- A launch put in place. -/
def putLaunch (s : State) (l : Nat) (r : Launch) : State := { s with launches := Tbl.put s.launches l r }

/-- A block put in place. -/
def putBlock (s : State) (b : Nat) (k : Block) : State := { s with blocks := Tbl.put s.blocks b k }

/-- A block's launch. -/
def launchOf (s : State) (b : Nat) : Option Launch :=
  match Tbl.get s.blocks b with
  | none => none
  | some k => Tbl.get s.launches k.launch

/-- The device context of a block's launch. -/
def ctxNum (s : State) (b : Nat) : Nat :=
  match launchOf s b with
  | none => 0
  | some l => l.ctx

/-- A core's counters (03 R77, 05 R127). -/
def coreOf (s : State) (n : Nat) : CoreState := Tbl.getD s.cores n CoreState.reset

/-- A collective context; an unbound one where none stands. -/
def ccOf (s : State) (n : Nat) : Cc := Tbl.getD s.ccs n Cc.unbound

/-- A collective context put in place. -/
def putCc (s : State) (n : Nat) (c : Cc) : State := { s with ccs := Tbl.put s.ccs n c }

/-! ## The page walk -/

/-- Where a walk ends: a valid leaf (the physical address reached, what the leaf maps in bytes, its kind and permissions), or an entry that produces a fault
record, with its level and class: 1 absent, 2 malformed, 3 demand-zero (24 R454). -/
inductive Walk where
  | leaf (pa size : Nat) (system r w x : Bool)
  | stop (level cls : Nat)
deriving DecidableEq, Repr

/-- A table's index at a level (24 R452). -/
def tableIndex (level va : Nat) : Nat :=
  match level with
  | 0 => bitsOf va 16 5
  | 1 => bitsOf va 21 9
  | 2 => bitsOf va 30 13
  | _ => bitsOf va 43 13

/-- The size of a table of a level in bytes, which is its alignment (24 R452). -/
def tableSize (level : Nat) : Nat :=
  match level with
  | 0 => 256
  | 1 => 4096
  | _ => 65536

/-- What a leaf of a level maps, in bytes (24 R452). -/
def leafSize (level : Nat) : Nat :=
  match level with
  | 0 => 2 ^ 16
  | 1 => 2 ^ 21
  | _ => 2 ^ 30

/-- A leaf entry's fields are in order: no reserved bit, no address bit below its size, and a global leaf inside the capacity tier
(24 R453, R454). -/
def leafOk (level e : Nat) : Bool :=
  bitsOf e 52 12 = 0 && bitsOf e 6 10 = 0 && (bitsOf e 16 36 * 65536) % leafSize level = 0 &&
  (bitsOf e 1 2 = 2 || bitsOf e 16 36 * 65536 + leafSize level ≤ Config.capacityBytes)

/-- A table entry's fields are in order (24 R453, R454). -/
def tableOk (level e : Nat) : Bool :=
  bitsOf e 52 12 = 0 && bitsOf e 6 2 = 0 && (bitsOf e 8 44 * 256) % tableSize (level - 1) = 0 &&
  bitsOf e 8 44 * 256 + tableSize (level - 1) ≤ Config.capacityBytes

/-- The walk from a table of `level`, at most `fuel` levels down (24 R452-R454). -/
def walkFrom (mem : List Host.Cell) (fuel level table va : Nat) : Walk :=
  match fuel with
  | 0 => .stop level 2
  | fuel + 1 =>
    let e := leNat (readBytes mem (table + 8 * tableIndex level va) 8)
    let ty := bitsOf e 1 2
    if e % 2 = 0 then .stop level (if ty = 3 && level = 0 then 3 else 1)
    else if ty = 3 then .stop level 2
    else if ty = 0 then
      if level = 0 || !tableOk level e then .stop level 2
      else walkFrom mem fuel (level - 1) (bitsOf e 8 44 * 256) va
    else if level = 3 || !leafOk level e then .stop level 2
    else .leaf (bitsOf e 16 36 * 65536 + va % leafSize level) (leafSize level) (ty = 2) (bitsOf e 3 1 = 1) (bitsOf e 4 1 = 1) (bitsOf e 5 1 = 1)

/-- The walk of a context's tables (24 R452). -/
def walk (s : State) (x va : Nat) : Walk := walkFrom s.mem 4 3 (ctxOf s x).root va

/-- What a cached leaf gives for an address. -/
def CachedLeaf.give (c : CachedLeaf) (va : Nat) : Walk := .leaf (c.pa + (va - c.va)) c.size c.system c.r c.w c.x

/-- The cached leaf that covers an address of a context. -/
def cachedFor (s : State) (x va : Nat) : Option CachedLeaf :=
  s.tlb.find? (fun c => c.ctx = x && c.va ≤ va && va < c.va + c.size)

/-- The translation an access uses: the walk's; or, where a cached leaf says otherwise, either (24 R458, log 7). -/
def xlate (s : State) (x va : Nat) : Walk :=
  match cachedFor s x va with
  | none => walk s x va
  | some c =>
    if c.give va = walk s x va then walk s x va
    else if Config.staleChoice s.tick va then c.give va else walk s x va

/-- The caches after an access to an address: a valid leaf is held, whole (24 R458). -/
def noteXlate (s : State) (x va : Nat) : State :=
  match cachedFor s x va with
  | some _ => s
  | none =>
    match walk s x va with
    | .leaf pa size sys r w ex =>
      { s with tlb := { ctx := x, va := va - va % size, size := size, pa := pa - va % size, system := sys, r := r, w := w,
                        x := ex } :: s.tlb }
    | .stop _ _ => s

/-! ## Places -/

/-- The place an access reaches. -/
inductive Phys where
  /-- A capacity-tier byte. -/
  | cap (pa : Nat)
  /-- A host or pooled byte. -/
  | sys (pa : Nat)
  /-- A scratchpad byte, at core * 2^19 + offset. -/
  | spad (a : Nat)
  /-- A chip-scratchpad byte, at die * 2^26 + offset. -/
  | chip (a : Nat)
  /-- The timeline map of a context, at a byte offset (04 R106). -/
  | tlmap (x off : Nat)
  /-- The scoreboard map of a context, at a byte offset (07 R182). -/
  | sbmap (x off : Nat)
deriving DecidableEq, Repr

/-- An address lies in a context's timeline map (04 R107). -/
def inTlmap (c : Ctx) (va : Nat) : Bool := c.tlmap ≤ va && va < c.tlmap + 32768

/-- An address lies in a context's scoreboard map (04 R107). -/
def inSbmap (c : Ctx) (va : Nat) : Bool := c.sbmap ≤ va && va < c.sbmap + 524288

/-- The value of a numbered timeline of a context (04 R104). -/
def tlValue (s : State) (x sel : Nat) : Nat := (Tbl.getD (ctxOf s x).tls sel { n := 0, v := 0 }).v

/-- A scoreboard word of the context bound as `n` to device context `x`: zero where unbound or at or beyond SBBITS (07 R182). -/
def boardWord (s : State) (x n w : Nat) : Word :=
  let c := ccOf s n
  if c.st ≠ .unbound && c.ctx = x && 32 * w < c.sbbits then Sparse.get c.board w else 0

/-- The newest value a shadow holds for a byte. -/
def Shadow.byte (h : Shadow) (pa : Nat) : Option Byte :=
  match Tbl.get h.cells pa with
  | some (c :: _) => some c.2
  | _ => none

/-- A shadow that holds nothing. -/
def Shadow.empty : Shadow := { cells := [], pages := [] }

/-- The gang record of a block. -/
def gangOf (l : Launch) (k : Block) : Option Gang := l.gangs.find? (fun g => g.idx = k.gang && g.copy = k.copy)

/-- The shadow a block's unit reads through (25 R472): nothing under COMMIT 0. -/
def shadowOf (s : State) (b : Nat) : Shadow :=
  match Tbl.get s.blocks b with
  | none => Shadow.empty
  | some k =>
    match Tbl.get s.launches k.launch with
    | none => Shadow.empty
    | some l =>
      if l.lr.commit = 0 then Shadow.empty
      else if l.lr.commit = 1 then l.shadow
      else match gangOf l k with
        | none => Shadow.empty
        | some g => g.shadow

/-- The shadow through which an issuer reads; committed memory for issuers that are no block. -/
def viewOf (s : State) (b : Option Nat) : Shadow :=
  match b with
  | none => Shadow.empty
  | some n => shadowOf s n

/-- One byte of the timeline map (04 R106). -/
def tlmapByte (s : State) (x off : Nat) : Byte := BitVec.ofNat 8 (tlValue s x (off / 8) / 256 ^ (off % 8))

/-- One byte of the scoreboard map (07 R182): 512 bytes for each context number. -/
def sbmapByte (s : State) (x off : Nat) : Byte :=
  BitVec.ofNat 8 ((boardWord s x (off / 512) (off % 512 / 4)).toNat / 256 ^ (off % 4))

/-- One byte at a place, seen through a shadow. -/
def readByte (s : State) (h : Shadow) (p : Phys) (i : Nat) : Byte :=
  match p with
  | .cap pa => (h.byte (pa + i)).getD (Sparse.get (w := 8) s.mem (pa + i))
  | .sys pa => Sparse.get (w := 8) s.host (pa + i)
  | .spad a => Sparse.get (w := 8) s.spad (a + i)
  | .chip a => Sparse.get (w := 8) s.chip (a + i)
  | .tlmap x off => tlmapByte s x (off + i)
  | .sbmap x off => sbmapByte s x (off + i)

/-- `n` bytes at a place, seen through a shadow, as a little-endian number. -/
def readPhys (s : State) (h : Shadow) (p : Phys) (n : Nat) : Nat := leNat ((List.range n).map (readByte s h p))

/-! ## Residency (03 R81, R82; log 3) -/

/-- The HBM set and tag of a physical address (03 R81). -/
def hbmSet (pa : Nat) : Nat := pa % (384 * 2 ^ 30) / 2048
/-- Its tag. -/
def hbmTag (pa : Nat) : Nat := pa / (384 * 2 ^ 30)
/-- Its stack. -/
def hbmStack (pa : Nat) : Nat := hbmSet pa % 8
/-- The stack engine that serves its set. -/
def hbmGroup (pa : Nat) : Nat := hbmSet pa / 8 % 32

/-- The sector of an address stands in HBM (05 R145). -/
def hbmResident (s : State) (pa : Nat) : Bool :=
  match Tbl.get s.hbm (hbmSet pa) with
  | none => false
  | some o => o.tag = hbmTag pa

/-- A sector brought into HBM, unless the set's occupant is pinned and another (03 R81, R83). -/
def hbmFill (s : State) (pa : Nat) (dirty : Bool) : State :=
  match Tbl.get s.hbm (hbmSet pa) with
  | none => { s with hbm := Tbl.put s.hbm (hbmSet pa) { tag := hbmTag pa, dirty := dirty, pin := none } }
  | some o =>
    if o.tag = hbmTag pa then { s with hbm := Tbl.put s.hbm (hbmSet pa) { o with dirty := o.dirty || dirty } }
    else if o.pin.isSome then s
    else { s with hbm := Tbl.put s.hbm (hbmSet pa) { tag := hbmTag pa, dirty := dirty, pin := none } }

/-- The L2 line number of a place: host lines stand above the device's. -/
def l2Line (p : Phys) : Option Nat :=
  match p with
  | .cap pa => some (pa / 128)
  | .sys pa => some (2 ^ 64 + pa / 128)
  | _ => none

/-- The die whose L2 holds a line: lines take turns (log 3). -/
def l2Die (line : Nat) : Nat := line % 2

/-- The lines that the L2 of a line's die holds. -/
def l2Peers (s : State) (line : Nat) : List Nat := (s.l2.filter (fun c => l2Die c.1 = l2Die line)).map (fun c => c.1)

/-- A line leaves L2: dirty, it is written back to its sector first (12 R277). -/
def l2Evict (s : State) (line : Nat) : State :=
  let s1 := if Tbl.getD s.l2 line false && line < 2 ^ 64 then hbmFill s (128 * line) true else s
  { s1 with l2 := Tbl.del s1.l2 line }

/-- Room for a line in its die's L2: a full one, of 96 MiB, gives up a line that the spec leaves open (00 R2; log 3). -/
def l2Room (s : State) (line : Nat) : State :=
  let ps := l2Peers s line
  if (Tbl.get s.l2 line).isSome || ps.length < Config.l2Lines then s else l2Evict s (ps.getD (Config.l2Victim s.tick % ps.length) 0)

/-- A line brought into L2, dirty when written. -/
def l2Touch (s : State) (line : Nat) (dirty : Bool) : State :=
  let s1 := l2Room s line
  { s1 with l2 := Tbl.put s1.l2 line (Tbl.getD s1.l2 line false || dirty) }

/-- What an access leaves of residency at its place: the line in L2; and the sector in HBM, after every read, and after a write of a line
that L2 did not hold (03 R81, R83; 22 R426; log 3). -/
def touch (s : State) (p : Phys) (write : Bool) : State :=
  match p, l2Line p with
  | _, none => s
  | .cap pa, some line =>
    let held := (Tbl.get s.l2 line).isSome
    let s1 := if write && held then s else hbmFill s pa false
    if held && !write then s1 else l2Touch s1 line write
  | _, some line => if (Tbl.get s.l2 line).isSome && !write then s else l2Touch s line write

/-! ## Writes -/

/-- A byte written into a shadow by the block at a position. -/
def Shadow.put (h : Shadow) (pa pos : Nat) (v : Byte) : Shadow :=
  { h with cells := Tbl.put h.cells pa ((pos, v) :: ((Tbl.get h.cells pa).getD []).filter (fun c => c.1 ≠ pos)) }

/-- Bytes written into a shadow. -/
def Shadow.putAll (h : Shadow) (pa pos : Nat) (bs : List Byte) : Shadow :=
  match bs with
  | [] => h
  | v :: r => Shadow.putAll (h.put pa pos v) (pa + 1) pos r

/-- The gangs of a launch with one of them changed. -/
def mapGang (l : Launch) (k : Block) (f : Gang → Gang) : Launch :=
  { l with gangs := l.gangs.map (fun g => if g.idx = k.gang && g.copy = k.copy then f g else g) }

/-- A launch with the shadow of a block's unit changed (25 R472). -/
def mapShadow (l : Launch) (k : Block) (f : Shadow → Shadow) : Launch :=
  if l.lr.commit = 1 then { l with shadow := f l.shadow } else mapGang l k (fun g => { g with shadow := f g.shadow })

/-- The lowest pool page of a context that is not in use (24 R457). -/
def lowestPool (c : Ctx) : Option Nat := (List.range c.pooln).find? (fun n => !c.poolUsed.contains n)

/-- The issuing block's unit can hold a write to the page of an address: it holds no shadow, or none any more, or the page already, or the pool
has a page (25 R472). -/
def shadowRoom (s : State) (b : Nat) (pa : Nat) : Bool :=
  match launchOf s b with
  | none => true
  | some l =>
    l.lr.commit = 0 || l.st = .discarded || (Tbl.get (shadowOf s b).pages (pa / 65536)).isSome || (lowestPool (ctxOf s l.ctx)).isSome

/-- The page of an address taken into the unit's shadow, copied on first write (25 R472). -/
def shadowTake (s : State) (b : Nat) (pa : Nat) : State :=
  match Tbl.get s.blocks b with
  | none => s
  | some k =>
    match Tbl.get s.launches k.launch with
    | none => s
    | some l =>
      match Tbl.get (shadowOf s b).pages (pa / 65536), lowestPool (ctxOf s l.ctx) with
      | none, some p =>
        let s1 := putCtx s l.ctx { ctxOf s l.ctx with poolUsed := p :: (ctxOf s l.ctx).poolUsed }
        putLaunch s1 k.launch (mapShadow l k (fun h => { h with pages := Tbl.put h.pages (pa / 65536) p }))
      | _, _ => s

/-- The space-0 bytes of a block written: to memory under COMMIT 0, to its unit's shadow otherwise (25 R472); nowhere once a kill has discarded
that shadow (24 R449). -/
def writeCap (s : State) (b : Option Nat) (pa : Nat) (bs : List Byte) : State :=
  match b with
  | none => { s with mem := writeBytes s.mem pa bs }
  | some n =>
    match Tbl.get s.blocks n with
    | none => { s with mem := writeBytes s.mem pa bs }
    | some k =>
      match Tbl.get s.launches k.launch with
      | none => { s with mem := writeBytes s.mem pa bs }
      | some l =>
        if l.lr.commit = 0 then { s with mem := writeBytes s.mem pa bs }
        else if l.st = .discarded then s
        else
          let s1 := shadowTake s n pa
          match Tbl.get s1.launches k.launch with
          | none => s1
          | some l1 => putLaunch s1 k.launch (mapShadow l1 k (fun h => h.putAll pa k.pos bs))

/-- A write to spaces 4 and 5 under COMMIT 1 and 2 makes the launch non-replayable (25 R473). -/
def markUnreplayable (s : State) (b : Option Nat) : State :=
  match b with
  | none => s
  | some n =>
    match Tbl.get s.blocks n with
    | none => s
    | some k =>
      match Tbl.get s.launches k.launch with
      | none => s
      | some l => if l.lr.commit = 0 then s else putLaunch s k.launch { l with nonReplay := true }

/-- Two address ranges meet. -/
def rangesMeet (a n b m : Nat) : Bool := a < b + m && b < a + n

/-- A tile of physical pieces. -/
def tileOf (ps : List (Option Phys × Nat)) (unit : Option (Nat × Nat × Nat)) : SealedTile :=
  { cap := ps.filterMap (fun q => match q.1 with
      | some (.cap pa) => some (pa, q.2)
      | _ => none)
    sys := ps.filterMap (fun q => match q.1 with
      | some (.sys pa) => some (pa, q.2)
      | _ => none)
    unit := unit }

/-- A tile is reached by a write of `n` bytes at a physical address, of host memory or of the capacity tier. -/
def SealedTile.meets (t : SealedTile) (host : Bool) (pa n : Nat) : Bool :=
  (if host then t.sys else t.cap).any (fun r => rangesMeet r.1 r.2 pa n)

/-- The sealed tiles of every context that a test keeps. -/
def keepSeals (s : State) (keep : SealedTile → Bool) : State :=
  { s with ctxs := Tbl.mapVals s.ctxs (fun _ c => { c with seals := c.seals.filter keep }) }

/-- A plain or piecewise write clears the sealing of every tile it reaches (03 R102): of host memory any tile, of the capacity tier those that
stand in what it writes, committed memory or the shadow of a unit (25 R472). -/
def clearSeals (s : State) (host : Bool) (into : Option (Nat × Nat × Nat) → Bool) (pa n : Nat) : State :=
  keepSeals s (fun t => !(t.meets host pa n && (host || into t.unit)))

/-- What a writer writes of the capacity tier holds a tile: committed memory one of no unit; under COMMIT 1 the launch's shadow one of any of
its blocks; under COMMIT 2 and 3 the shadow of a copy of a gang one of a block of it (25 R472). -/
def holdsTile (s : State) (b : Option Nat) (u : Option (Nat × Nat × Nat)) : Bool :=
  match b.bind (fun n => (Tbl.get s.blocks n).bind (fun k => (Tbl.get s.launches k.launch).map (fun l => (k, l)))) with
  | none => u.isNone
  | some (k, l) =>
    if l.lr.commit = 0 then u.isNone
    else u.any (fun q => q.1 = k.launch && (l.lr.commit = 1 || (q.2.1 / l.lr.gang = k.gang && q.2.2 = k.copy)))

/-- The ordering detector's count of a line for a write by a block (25 R479): the earlier block when the count reaches 2. -/
def countWriter (l : Launch) (line lin : Nat) : Launch × Option Nat :=
  let ws := (Tbl.get l.writers line).getD []
  if ws.contains lin then (l, none)
  else ({ l with writers := Tbl.put l.writers line (ws ++ [lin]) }, if ws.length = 1 then ws.head? else none)

/-- An asynchronous trap joins a team's (25 R465). -/
def addAsync (k : Block) (t : Nat) (r : TrapRec) : Block :=
  match Tbl.get k.teams t with
  | none => k
  | some m => { k with teams := Tbl.put k.teams t { m with asyncs := m.asyncs ++ [r] } }

/-- A counted write of a block under DET, to the line of L2 with a number, whose address is `pa`: a report when its count reaches 2 and, under
STRICT, the trap ORDER (25 R479). -/
def detWrite (s : State) (b t line pa : Nat) : State :=
  match Tbl.get s.blocks b with
  | none => s
  | some k =>
    match Tbl.get s.launches k.launch with
    | none => s
    | some l =>
      if !l.lr.det then s
      else
        let r := countWriter l line k.lin
        let s1 := putLaunch s k.launch r.1
        match r.2 with
        | none => s1
        | some first =>
          let s2 := bumpCtx l.ctx 8 (logEntry
            { cls := clsOrder, ctx := l.ctx, aux := 0, unit := 1, place := k.core * 65536 + (if t = 16 then 0xFFFF else t),
              value0 := BitVec.ofNat 64 (pa / 128 * 128),
              value1 := BitVec.ofNat 64 (k.lin % 2 ^ 32 * 2 ^ 32 + first % 2 ^ 32) } s1)
          if l.lr.strict then
            putBlock s2 b (addAsync k t { code := 0x12, val := BitVec.ofNat 64 (pa / 128 * 128) })
          else s2

/-- The poisoned bytes that stay when some are overwritten: a word wholly overwritten holds poison no more (25 R470). -/
def healBytes (ps : List Nat) (covered : Nat → Bool) : List Nat := ps.filter (fun a => !covered a)

/-- A byte lies in a word, of 8 bytes, that holds poison (25 R470, log 24). -/
def inPoison (ps : List Nat) (a : Nat) : Bool := ps.any (fun q => q / 8 = a / 8)

/-- A unit has overwritten the whole of the word of 8 bytes that holds a byte of the capacity tier (25 R470, R472). -/
def wordInShadow (h : Shadow) (pa : Nat) : Bool := (List.range 8).all (fun i => (h.byte (pa / 8 * 8 + i)).isSome)

/-- A read of `n` bytes at a place meets poison: in a unit's view a word stays poisoned until the unit has overwritten all of it (25 R470). -/
def poisoned (s : State) (h : Shadow) (p : Phys) (n : Nat) : Bool :=
  match p with
  | .cap pa => (List.range n).any (fun i => inPoison s.poison (pa + i) && !wordInShadow h (pa + i))
  | .spad a => (List.range n).any (fun i => inPoison s.spadPoison (a + i))
  | _ => false

/-- Accumulator words zeroed: they hold poison no more. -/
def clearAcc (s : State) (p : Nat → Bool) : State :=
  { s with acc := s.acc.filter (fun c => !p c.1), accPoison := healBytes s.accPoison p }

/-- A command loads a scratchpad and has not completed. -/
def EngCmd.loads (c : EngCmd) : Bool :=
  !c.finished && (match c.op with
    | .tcopy store _ _ _ _ _ _ => !store
    | _ => false)

/-- A CPY32 or a tensor load is outstanding. -/
def copiesOut (s : State) : Bool := s.blocks.any (fun c => c.2.teams.any (fun q => !q.2.copies.isEmpty) || c.2.cmds.any EngCmd.loads)

/-- Bytes of scratchpads noted as written at a step, with those noted before. -/
def noteBytes (t : Tbl Nat) (tick : Nat) (us : List Nat) : Tbl Nat :=
  match us with
  | [] => t
  | u :: r => noteBytes (Tbl.put t u tick) tick r

/-- Scratchpad bytes written, from a place up: what they overwrite holds poison no more, and they are noted while a CPY32 or a tensor load is
outstanding (04 R113, 14 R315). -/
def putSpad (s : State) (a : Nat) (bs : List Byte) : State :=
  { s with spad := writeBytes s.spad a bs, spadPoison := healBytes s.spadPoison (fun q => a ≤ q && q < a + bs.length),
           spadRaces := if copiesOut s then noteBytes s.spadRaces s.tick ((List.range bs.length).map (fun k => a + k)) else s.spadRaces }

/-- Who writes: a block's team, with whether the ordering detector counts the write (25 R479). -/
structure Writer where
  b : Option Nat
  t : Nat
  counted : Bool
deriving DecidableEq, Repr

/-- What an issuer writes goes to committed memory, not to a shadow (25 R472). -/
def viewIsMemory (s : State) (b : Option Nat) : Bool :=
  match b.bind (launchOf s) with
  | none => true
  | some l => l.lr.commit = 0

/-- Bytes stored at a place, with what a store of them entails: residency, sealing, shadows, the ordering detector (03 R81, R102;
25 R472, R473, R479). -/
def writePhys (s : State) (w : Writer) (p : Phys) (bs : List Byte) : State :=
  match p with
  | .cap pa =>
    let s0 := clearSeals (touch s p true) false (holdsTile s w.b) pa bs.length
    let s1 := { s0 with poison := healBytes s0.poison (fun a => pa ≤ a && a < pa + bs.length && viewIsMemory s w.b) }
    let s2 := writeCap s1 w.b pa bs
    match w.b with
    | some b => if w.counted then detWrite s2 b w.t (pa / 128) pa else s2
    | none => s2
  | .sys pa =>
    let s1 := markUnreplayable (clearSeals (touch s p true) true (fun _ => true) pa bs.length) w.b
    let s2 := { s1 with host := writeBytes s1.host pa bs }
    match w.b with
    | some b => if w.counted then detWrite s2 b w.t (2 ^ 64 + pa / 128) pa else s2
    | none => s2
  | .spad a => putSpad s a bs
  | .chip a =>
    let s1 := markUnreplayable s w.b
    { s1 with chip := writeBytes s1.chip a bs }
  | .tlmap _ _ => s
  | .sbmap _ _ => s

/-! ## Work that errors start (25 R470) -/

/-- Work that an error starts joins what is due. -/
def addDue (s : State) (d : Due) : State := { s with due := s.due ++ [d] }

/-- The launch of a block runs: what its units consume of poison is answered by a rerun. What a killed context's engines have accepted is
completed as it is (24 R449, 25 R470). -/
def rerunnable (s : State) (b : Nat) : Bool :=
  match launchOf s b with
  | none => false
  | some l => l.st = .placed

/-- What is pinned to a block consumes poison: the block is rerun (25 R470). -/
def consumePoison (s : State) (b : Nat) : State := if rerunnable s b then addDue s (.rerun b false) else s

/-! ## Fault records -/

/-- The record a miss on a page joins, if one stands (24 R456). -/
def recordFor (s : State) (x page : Nat) : Option FaultRec := s.faults.find? (fun r => r.ctx = x && r.page = page)

/-- A miss makes or joins a fault record for the kinds of access wanted; with 256 outstanding it makes none and waits (24 R456). In host-assisted mode a new record
sends FAULTREQ (24 R457). -/
def joinRecord (s : State) (x page level cls kinds : Nat) : State :=
  match recordFor s x page with
  | some r =>
    { s with faults := s.faults.map (fun q => if q.num = r.num then { q with kinds := q.kinds ||| kinds } else q) }
  | none =>
    if 256 ≤ s.faults.length then s
    else
      let r : FaultRec := { num := s.nextFault, ctx := x, page := page, level := level, cls := cls, kinds := kinds,
                            host := s.chan.duty.getLsbD 0 }
      let s1 := { s with faults := s.faults ++ [r], nextFault := (s.nextFault + 1) % 2 ^ 32 }
      if r.host then
        emit (event evFaultReq x cls 0 (page * 65536 + r.kinds * 16 + level) r.num) s1
      else s1

end Sys2Proof.Machine
end

