-- ==== Sys2Proof/Machine/Reach.lean ====
section
/-! DEFINITION. Reach: where an address leads, through the page tables or outright, and the geometry of lane-private frames (03 R71-R74,
R98; 24 R454-R457). -/

namespace Sys2Proof.Machine

/-! ## Targets -/

/-- Where an address leads before translation: a page-table walk, for a global or a system leaf; a place outright; or nowhere, by
check 3 of R74. -/
inductive Target where
  | virt (va : Nat) (system : Bool)
  | direct (p : Phys)
  | barred
deriving DecidableEq, Repr

/-- The size of a lane's region of a frame (24 R455). -/
def lpRegion (c : Ctx) : Nat := 64 * c.lpstride
/-- The size of a frame. -/
def lpFrame (c : Ctx) : Nat := (1024 * lpRegion c + 163840 + 65535) / 65536 * 65536
/-- The address of a lane's region. -/
def lpLane (c : Ctx) (frame l : Nat) : Nat := c.lpbase + frame * lpFrame c + l * lpRegion c

/-- Space 0: the maps come ahead of translation, and only loads reach them (04 R106, R107; 07 R182). -/
def globalTarget (s : State) (x ea : Nat) (load : Bool) : Target :=
  let c := ctxOf s x
  if 2 ^ 56 ≤ ea then .barred
  else if inTlmap c ea then (if load then .direct (.tlmap x (ea - c.tlmap)) else .barred)
  else if inSbmap c ea then (if load then .direct (.sbmap x (ea - c.sbmap)) else .barred)
  else .virt ea false

/-! ## Translation of one page -/

/-- The permissions an access needs (24 R454). -/
structure Need where
  r : Bool
  w : Bool
  x : Bool
deriving DecidableEq, Repr

/-- Loads, engine reads, CFLUSH. -/
def needR : Need := { r := true, w := false, x := false }
/-- Stores and engine writes. -/
def needW : Need := { r := false, w := true, x := false }
/-- Atomics, TSET, sealed stores. -/
def needRW : Need := { r := true, w := true, x := false }
/-- Instruction fetch. -/
def needX : Need := { r := false, w := false, x := true }

/-- The kinds wanted, as a fault record keeps them (24 R457). -/
def Need.kinds (n : Need) : Nat := (if n.r then 1 else 0) + (if n.w then 2 else 0) + (if n.x then 4 else 0)

/-- What translation gives: the place; a fault record to join; a permission that fails; or a page whose record failed. -/
inductive Reach where
  | go (p : Phys)
  | miss (level cls : Nat)
  | denied
  | failed
deriving DecidableEq, Repr

/-- An address of a context translated for an access that needs permissions, with the pages already failed for the accessor:
a failed record gives XLATE to all that waited on it, whatever the tables hold by then (24 R457). -/
def reach (s : State) (x : Nat) (failed : List Nat) (need : Need) (va : Nat) (system : Bool) : Reach :=
  if failed.contains (va / 65536) then .failed
  else match xlate s x va with
    | .leaf pa _ sys r w ex =>
      if sys ≠ system || (need.r && !r) || (need.w && !w) || (need.x && !ex) then .denied
      else .go (if sys then .sys pa else .cap pa)
    | .stop level cls => .miss level cls

/-- A target reached. -/
def reachTarget (s : State) (x : Nat) (failed : List Nat) (need : Need) (t : Target) : Reach :=
  match t with
  | .virt va sys => reach s x failed need va sys
  | .direct p => .go p
  | .barred => .denied

/-- What a translation leaves: a cached leaf. -/
def noteTarget (s : State) (x : Nat) (t : Target) : State :=
  match t with
  | .virt va _ => noteXlate s x va
  | _ => s

/-- The page of a target. -/
def targetPage (t : Target) : Nat :=
  match t with
  | .virt va _ => va / 65536
  | _ => 0

/-- A page waited on, once. -/
def addPage (ps : List Nat) (p : Nat) : List Nat := if ps.contains p then ps else ps ++ [p]

/-- The place a target has once its translation stands. -/
def placeOf (s : State) (x : Nat) (t : Target) : Option Phys :=
  match reachTarget s x [] { r := false, w := false, x := false } t with
  | .go p => some p
  | _ => none

/-- Bytes stored at device-global addresses whose pages translate, over at most one page boundary. -/
def writeVirt (s : State) (x a : Nat) (bs : List Byte) : State :=
  let n := 65536 - a % 65536
  let put := fun (s : State) (a : Nat) (bs : List Byte) =>
    match bs, placeOf s x (.virt a false) with
    | _ :: _, some p => writePhys s { b := none, t := 0, counted := false } p bs
    | _, _ => s
  put (put s a (bs.take n)) (a + n) (bs.drop n)

/-- Bytes read at device-global addresses whose pages translate; a byte of another page reads 0. -/
def readVirt (s : State) (x a n : Nat) : List Byte :=
  (List.range n).map (fun i => match placeOf s x (.virt (a + i) false) with
    | some p => readByte s Shadow.empty p 0
    | none => 0)

/-! ## The deferral stack in a frame (01 R22, 24 R455; log 30) -/

/-- The address of slot `n` of a team's deferral stack: 160 bytes each, from the end of the frame's lane regions up. -/
def deferAddr (c : Ctx) (m : Team) (n : Nat) : Nat := lpLane c m.frame 1024 + 160 * n

/-- The number of a split's state in its slot, and its wait tag. -/
def SplitState.code (p : SplitState) : Nat × Nat :=
  match p with
  | .ready => (0, 0)
  | .waitOp => (1, 0)
  | .waitJoin t => (2, t)
  | .waitBar i _ => (3, i)

/-- The phase of a barrier that a split in WAIT-BAR waits for; 0 in any other state. -/
def SplitState.phase (p : SplitState) : Nat :=
  match p with
  | .waitBar _ n => n
  | _ => 0

/-- The 160 bytes of a slot: mask, program counter, state, wait tag, the phase that WAIT-BAR waits for (log 30). -/
def slotBytes (p : Split) : List Byte :=
  leBytes 128 p.mask.toNat ++ leBytes 8 p.pc.toNat ++ leBytes 8 p.st.code.1 ++ leBytes 8 p.st.code.2 ++ leBytes 8 p.st.phase

/-- The state that a slot's last 24 bytes name; a number that names none leaves the state the split had (log 30). -/
def stateFrom (old : SplitState) (code tag phase : Nat) : SplitState :=
  match code with
  | 0 => .ready
  | 1 => .waitOp
  | 2 => .waitJoin tag
  | 3 => .waitBar tag phase
  | _ => old

/-- A split as the 160 bytes of its slot give it: live lanes of its mask, program counter, state and wait tag; what else it holds stays
(log 30). -/
def splitFrom (live : Mask) (p : Split) (bs : List Byte) : Split :=
  let word := fun (o n : Nat) => leNat ((bs.drop o).take n)
  { p with mask := BitVec.ofNat 1024 (word 0 128) &&& live, pc := BitVec.ofNat 56 (word 128 7) &&& ~~~1,
           st := stateFrom p.st (word 136 8) (word 144 8) (word 152 8) }

/-- What the translation of a slot, from its first byte to its last, comes to, with the address that decides. -/
def slotReach (s : State) (x : Nat) (m : Team) (n : Nat) (need : Need) : Nat × Reach :=
  let a := deferAddr (ctxOf s x) m n
  match reach s x m.popFailed need a false with
  | .go _ => (a + 159, reach s x m.popFailed need (a + 159) false)
  | r => (a, r)

/-- The caches after the translation of a slot. -/
def noteSlot (s : State) (x : Nat) (m : Team) (n : Nat) : State :=
  let a := deferAddr (ctxOf s x) m n
  noteXlate (noteXlate s x a) x (a + 159)

end Sys2Proof.Machine
end

