-- ==== Sys2Proof/Machine/Rings.lean ====
section
/-! DEFINITION. Rings: collective contexts and their entries, rings and roles, and the instant at which an entry fires (07 R178, R179, R184,
R185; 16 R344, R353-R355). -/

namespace Sys2Proof.Machine

/-- A collective context changed. -/
def onCc (s : State) (n : Nat) (f : Cc → Cc) : State := putCc s n (f (ccOf s n))

/-- An entry that has never been armed (16 R344). -/
def TileEntry.fresh : TileEntry :=
  { st := .disarmed, version := 0, armedRound := 0, firings := [], slot := { posted := false, pending := false, got := [], kept := [] },
    image := { laddr := 0, raddr := 0, chunk := 0, whey := 0, swred := false, peermode := false, fmt := false, role := 0, peer := 0,
               nbits := 0, firstbit := 0 } }

/-- An entry of a context's tile table. -/
def entryOf (c : Cc) (x : Nat) : TileEntry := Tbl.getD c.entries x TileEntry.fresh

/-- An entry changed. -/
def onEntry (s : State) (n x : Nat) (f : TileEntry → TileEntry) : State :=
  onCc s n (fun c => { c with entries := Tbl.put c.entries x (f (entryOf c x)) })

/-- A slot that holds nothing (16 R362). -/
def Slot.clear : Slot := { posted := false, pending := false, got := [], kept := [] }

/-- Blocks of a chunk (07 R177). -/
def chunkBlocks (c : Cc) : Nat := c.ch / 256

/-! ## Rings and roles (07 R179, 16 R353, R354) -/

/-- Members of the bound ring, in the order of positions. -/
def ringRanks (c : Cc) : List Nat := (c.ring.map (fun r => r.ranks)).getD []

/-- Members of the bound ring. -/
def ringSize (c : Cc) : Nat := (ringRanks c).length

/-- This member's position. -/
def ringPos (c : Cc) : Nat := (c.ring.map (fun r => r.pos)).getD 0

/-- The generation of the bound ring, 0 with none. -/
def ringGen (c : Cc) : Nat := (c.ring.map (fun r => r.gen)).getD 0

/-- The rank at a position, counted round the ring. -/
def rankAt (c : Cc) (p : Nat) : Nat := (ringRanks c).getD (p % ringSize c) 0

/-- Positions from a chunk's final owner to this member: 0 the owner, 1 the origin, else a hop (R179). -/
def stepsFrom (c : Cc) (chunk : Nat) : Nat := (ringPos c + ringSize c - chunk % ringSize c) % ringSize c

/-- The role is this member's for the chunk (R179). -/
def roleOk (c : Cc) (role chunk : Nat) : Bool :=
  match stepsFrom c chunk with
  | 0 => role = 2
  | 1 => role = 0 || role = 3
  | _ => role = 1 || role = 3

/-- The other members of the ring. -/
def otherRanks (c : Cc) : List Nat := (ringRanks c).filter (fun r => r ≠ rankAt c (ringPos c))

/-- To whom a firing of an image sends (R178, R179, R355). -/
def receivers (c : Cc) (im : TileImage) : List Nat :=
  match im.role with
  | 0 => [if im.peermode then im.peer else rankAt c (ringPos c + 1)]
  | 1 => [if im.peermode then im.peer else rankAt c (ringPos c + 1)]
  | 2 => otherRanks c
  | _ => []

/-- The one sender of an image's incoming curds, where there is one (R355, R358). -/
def soleSender (c : Cc) (im : TileImage) : Nat :=
  if im.peermode then im.peer
  else if im.role = 3 then rankAt c (im.chunk % ringSize c)
  else rankAt c (ringPos c + ringSize c - 1)

/-- A member may send an image's incoming curds: under PEERMODE 1 a hop takes them from any member of the ring (R355). -/
def senderOk (c : Cc) (im : TileImage) (src : Nat) : Bool :=
  if im.peermode && im.role = 1 then (ringRanks c).contains src else soleSender c im = src

/-- The image waits for an incoming curd: a final owner alone in its ring has none (R178, R184). -/
def needsCurd (c : Cc) (im : TileImage) : Bool :=
  im.role = 1 || im.role = 3 || (im.role = 2 && (ringSize c ≠ 1 || im.peermode))

/-- The header of a message to a rank (R354). -/
def ccHdr (s : State) (n dst : Nat) : Hdr :=
  { src := s.fab.rank, dst := dst, cc := n, round := (ccOf s n).round.num, gen := ringGen (ccOf s n) }

/-! ## Reaching memory (16 R351, R346) -/

/-- An address of the owning device context, for an access that both kinds of leaf, or a global leaf alone, may serve. The maps answer
what only reads (04 R107). -/
def ccReach (s : State) (n : Nat) (need : Need) (both load : Bool) (va : Nat) : Reach :=
  let c := ccOf s n
  let t := globalTarget s c.ctx va load
  match reachTarget s c.ctx c.failed need t, t with
  | .denied, .virt va _ => if both then reach s c.ctx c.failed need va true else .denied
  | r, _ => r

/-- The place of an address that translates. -/
def ccPlace (s : State) (n va : Nat) : Option Phys :=
  match ccReach s n { r := false, w := false, x := false } true true va with
  | .go p => some p
  | _ => none

/-! ## Firing (07 R184) -/

/-- The round's number is ACTIVE. -/
def active (c : Cc) : Bool := c.round.st = .active

/-- Every bit under an image's mask is set. -/
def maskFull (c : Cc) (im : TileImage) : Bool :=
  (List.range im.nbits).all (fun i => (Sparse.get c.board ((im.firstbit + i) / 32)).getLsbD ((im.firstbit + i) % 32))

/-- The incoming curds of an entry have all been accepted. -/
def slotFull (c : Cc) (e : TileEntry) : Bool :=
  !needsCurd c e.image || (e.slot.posted && (List.range (chunkBlocks c)).all (fun j => (Tbl.get e.slot.got j).isSome))

/-- The entry fires now (R184). -/
def fires (c : Cc) (e : TileEntry) : Bool := active c && e.st = .armed && maskFull c e.image && slotFull c e

/-- The data of an origin's blocks, read as its firing starts (R186): of each block that can be read now and holds no poison. One whose page is
missing is read when the page has come (DEDUCED, log 135). -/
def captured (s : State) (n : Nat) (e : TileEntry) : Tbl (List Byte) :=
  if e.image.role ≠ 0 then []
  else (List.range (chunkBlocks (ccOf s n))).filterMap (fun j =>
    match ccReach s n { r := true, w := false, x := false } false true (e.image.laddr + 1024 * j) with
    | .go p => if poisoned s Shadow.empty p 1024 then none else some (j, (List.range 1024).map (readByte s Shadow.empty p))
    | _ => none)

/-- A firing as it starts, with its captured fields. -/
def startFiring (s : State) (n : Nat) (c : Cc) (e : TileEntry) : Firing :=
  { data := captured s n e, image := e.image, round := c.round.num, version := e.version, born := s.tick, got := if needsCurd c e.image then e.slot.got else [],
    blocksDone := [], curds := [], sends := (receivers c e.image).map (fun r => { rank := r, sent := [] }) }

/-- An entry that can fire does: its firing starts under the current version (R184, R185). -/
def fireEntry (s : State) (n x : Nat) : State :=
  let c := ccOf s n
  let e := entryOf c x
  if fires c e then onEntry s n x (fun e => { e with st := .fired, firings := e.firings ++ [startFiring s n c e] }) else s

/-- Every entry that can fire does. -/
def fireAll (n : Nat) (xs : List Nat) (s : State) : State :=
  match xs with
  | [] => s
  | x :: r => fireAll n r (fireEntry s n x)

end Sys2Proof.Machine
end

