-- ==== Sys2Proof/Machine/Timelines.lean ====
section
/-! DEFINITION. Timelines: numbered timelines (04 R103-R105), NOTIFY (23 R433), and the scoreboard words that publications reach (07
R182, R183, 14 R326, R327). -/

namespace Sys2Proof.Machine

/-- The owner of a numbered timeline (04 R105). -/
def tlOwner (c : Ctx) (sel : Nat) : TlOwner := Tbl.getD c.owners sel .software

/-- The events of NOTIFY requests that a value of a timeline satisfies: TLREACHED, then DONE with ACK (23 R433, R436). -/
def notifyEvents (x sel v : Nat) (ns : List (Nat × Nat × Nat × Bool)) (s : State) : State :=
  match ns with
  | [] => s
  | (seq, q, n, ack) :: r =>
    if q = sel && n ≤ v then
      let s1 := emit (event evTlReached x 0 seq v sel) s
      notifyEvents x sel v r (if ack then emit (event evDone x 0 seq 0 0) s1 else s1)
    else notifyEvents x sel v r s

/-- A numbered timeline's value raised (04 R104, R105): V := max(V, value); a value below V changes nothing and counts. -/
def raiseTl (s : State) (x sel value : Nat) : State :=
  let c := ctxOf s x
  let t := Tbl.getD c.tls sel { n := 0, v := 0 }
  if value < t.v then bumpCtx x 2 s
  else
    let rest := c.notifies.filter (fun q => !(q.2.1 = sel && q.2.2.1 ≤ value))
    notifyEvents x sel value c.notifies
      (putCtx s x { c with tls := Tbl.put c.tls sel { n := max t.n value, v := value }, notifies := rest })

/-- The entry that a dropped publication makes: of the context's fabric processor; its class and values the spec does not state (14 R327; log
101). -/
def dropEntry (s : State) (n : Nat) : LogItem :=
  { cls := Config.dropClass.toNat, ctx := (ccOf s n).ctx, aux := 0, unit := 3, place := n / 64 * 65536 + n, value0 := Config.dropValue 0,
    value1 := Config.dropValue 1 }

/-- A publication dropped: counted and logged (14 R327). -/
def dropPub (s : State) (n : Nat) : State :=
  logEntry (dropEntry s n) (onCc s n (fun c => { c with droppedPubs := c.droppedPubs + 1 }))

/-- A TSET on this context takes trap ARM, or is dropped when held: halted by a fault, or its round aborted (07 R188). -/
def tsetBarred (c : Cc) : Bool := c.st = .faulted || c.round.st = .aborted

/-- The reason such a trap carries (07 R188, 16 R368). -/
def tsetReason (c : Cc) : Nat := if c.st = .faulted then c.armReason else 6

/-- A mask ORed into a scoreboard word; the entries whose masks it completes fire (07 R183-R185). -/
def boardOr (s : State) (n w : Nat) (mask : Word) : State :=
  let s1 := onCc s n (fun c => { c with board := Sparse.set c.board w (Sparse.get c.board w ||| mask) })
  fireAll n ((ccOf s1 n).entries.map (fun q => q.1)) s1

/-- A held publication performed after its unit's commit (14 R327, 13 R303). -/
def performPub (s : State) (x : Nat) (p : HeldPub) : State :=
  match p with
  | .tset n w mask => if tsetBarred (ccOf s n) || (ccOf s n).st = .unbound then dropPub s n else boardOr s n w mask
  | .tlsig sel v => if tlOwner (ctxOf s x) sel = .software then raiseTl s x sel v else bumpCtx x 2 s

/-- A held TSET is dropped (07 R188). -/
def pubDropped (s : State) (p : HeldPub) : Bool :=
  match p with
  | .tset n _ _ => tsetBarred (ccOf s n) || (ccOf s n).st = .unbound
  | .tlsig _ _ => false

/-- The channel of the fabric processor that a held publication reaches (25 R483). -/
def pubProc (p : HeldPub) : Nat :=
  match p with
  | .tset n _ _ => n / 64
  | .tlsig _ _ => 0

/-- Held publications performed in order. -/
def performEach (s : State) (x : Nat) (ps : List HeldPub) : State :=
  match ps with
  | [] => s
  | p :: r => performEach (performPub s x p) x r

/-- Held publications performed in issue order; those that are dropped are reported in the order of the fabric processors (25 R483). -/
def performPubs (s : State) (x : Nat) (ps : List HeldPub) : State :=
  performEach (performEach s x (ps.filter (fun p => !pubDropped s p))) x
    ((List.range 16).flatMap (fun k => ps.filter (fun p => pubDropped s p && pubProc p = k)))

end Sys2Proof.Machine
end

