-- ==== Sys2Proof/Machine/Barriers.lean ====
section
/-! DEFINITION. Barriers: block and cluster barriers, arrivals, departures, releases (01 R31, 13 R291-R298). Barriers 0-15 are the
block's, 16-19 the gang's c0-c3. -/

namespace Sys2Proof.Machine

/-- A block's team changed. -/
def mapTeam (k : Block) (t : Nat) (f : Team → Team) : Block :=
  match Tbl.get k.teams t with
  | none => k
  | some m => { k with teams := Tbl.put k.teams t (f m) }

/-- A team of a block changed, in the state. -/
def onTeam (s : State) (b t : Nat) (f : Team → Team) : State :=
  match Tbl.get s.blocks b with
  | none => s
  | some k => putBlock s b (mapTeam k t f)

/-- A block changed, in the state. -/
def onBlock (s : State) (b : Nat) (f : Block → Block) : State :=
  match Tbl.get s.blocks b with
  | none => s
  | some k => putBlock s b (f k)

/-- A team of a block. -/
def teamOf (s : State) (b t : Nat) : Option Team :=
  match Tbl.get s.blocks b with
  | none => none
  | some k => Tbl.get k.teams t

/-- The lanes of a team that are live (01 R18). -/
def liveLanes (m : Team) : Mask := allLanes m.width &&& ~~~m.ex &&& ~~~m.dead

/-- A team holds its index: it has not ended (01 R43). -/
def teamLive (m : Team) : Bool := m.st ≠ .ended

/-- The live teams of a block, without its front program (01 R29). -/
def liveTeams (k : Block) : List Nat := (k.teams.filter (fun c => c.1 < 16 && teamLive c.2)).map (fun c => c.1)

/-- A barrier of a block or of its gang. -/
def barOf (s : State) (b i : Nat) : Barrier :=
  match Tbl.get s.blocks b with
  | none => { m := 0, a := 0, phase := 0 }
  | some k =>
    if i < 16 then (k.bars[i]?).getD { m := 0, a := 0, phase := 0 }
    else match Tbl.get s.launches k.launch with
      | none => { m := 0, a := 0, phase := 0 }
      | some l => match gangOf l k with
        | none => { m := 0, a := 0, phase := 0 }
        | some g => (g.bars[i - 16]?).getD { m := 0, a := 0, phase := 0 }

/-- A barrier put in place. -/
def putBar (s : State) (b i : Nat) (r : Barrier) : State :=
  match Tbl.get s.blocks b with
  | none => s
  | some k =>
    if i < 16 then putBlock s b { k with bars := listSet k.bars i r }
    else match Tbl.get s.launches k.launch with
      | none => s
      | some l => putLaunch s k.launch (mapGang l k (fun g => { g with bars := listSet g.bars (i - 16) r }))

/-- A split that waits on a phase of a barrier becomes READY; one of a STOPPED or TRAPPED team has its saved state set (13 R298). -/
def wakeSplit (now i phase : Nat) (p : Split) : Split :=
  if p.st = .waitBar i phase then { p with st := .ready, held := none, since := now } else p

/-- What a slot of the deferral stack holds of a split: mask, program counter, state with its wait tag (01 R22). -/
def Split.slotKey (p : Split) : Mask × BitVec 56 × SplitState := (p.mask, p.pc, p.st)

/-- The slots, from the bottom, that do not hold their split's bytes once the stack is `d`: those of before, and those whose split is
another now. -/
def staleAfter (m : Team) (d : List Split) : List Nat :=
  (List.range d.length).filter (fun n => m.stale.contains n || (d.reverse[n]?).map Split.slotKey ≠ (m.defer.reverse[n]?).map Split.slotKey)

/-- A team's deferral stack changed otherwise than by an instruction's push: the slots that change are to be written (01 R22). -/
def restack (m : Team) (d : List Split) : Team := if d = m.defer then m else { m with defer := d, stale := staleAfter m d }

/-- Every split of a team waked. -/
def wakeTeam (now i phase : Nat) (m : Team) : Team :=
  restack { m with splits := Tbl.mapVals m.splits (fun _ p => wakeSplit now i phase p) } (m.defer.map (wakeSplit now i phase))

/-- Every waiting member of a barrier released: the block's teams, or those of every block of the gang (01 R31, 13 R295). -/
def wakeAll (s : State) (b i phase : Nat) : State :=
  match Tbl.get s.blocks b with
  | none => s
  | some k =>
    { s with blocks := Tbl.mapVals s.blocks (fun n q =>
        if (i < 16 && n = b) || (16 ≤ i && q.launch = k.launch && q.gang = k.gang && q.copy = k.copy) then
          { q with teams := Tbl.mapVals q.teams (fun _ m => wakeTeam s.now i phase m) }
        else q) }

/-- The release check that ends every operation (01 R31). -/
def releaseCheck (s : State) (b i : Nat) : State :=
  let r := barOf s b i
  if 0 < r.m && r.a = r.m then wakeAll (putBar s b i { r with a := 0, phase := r.phase + 1 }) b i r.phase else s

/-- A member team arrives (01 R31). -/
def teamArrives (s : State) (b i : Nat) : State :=
  let r := barOf s b i
  releaseCheck (putBar s b i { r with a := r.a + 1 }) b i

/-- The check of R292: a team all of whose live lanes are in AL arrives. A stopped or trapping team makes no new arrival (R298): its check
is made when it runs on (log 107). -/
def arrivalCheck (s : State) (b t i : Nat) : State :=
  match teamOf s b t with
  | none => s
  | some m =>
    match Tbl.get m.bars i with
    | none => s
    | some q =>
      if m.st = .running && liveLanes m ≠ 0 && liveLanes m &&& ~~~q.al = 0 then
        teamArrives (onTeam s b t (fun m => { m with bars := Tbl.put m.bars i { al := 0, lp := some (barOf s b i).phase } })) b i
      else s

/-- The check for every barrier of a list. -/
def arrivalChecks (s : State) (b t : Nat) (is : List Nat) : State :=
  match is with
  | [] => s
  | i :: r => arrivalChecks (arrivalCheck s b t i) b t r

/-- A team that runs on makes the arrivals that were held back (R298). -/
def arriveLate (s : State) (b t : Nat) : State :=
  match teamOf s b t with
  | none => s
  | some m => arrivalChecks s b t (m.bars.map (fun c => c.1))

/-- The team's arrival is counted in the current phase (13 R292). -/
def counted (s : State) (b i : Nat) (q : BarMember) : Bool := q.lp = some (barOf s b i).phase

/-- A split put back to READY that waits on a barrier its team leaves (13 R297). -/
def unwaitBar (now i : Nat) (p : Split) : Split :=
  match p.st with
  | .waitBar j _ => if i = j then { p with st := .ready, held := none, since := now } else p
  | _ => p

/-- A member team leaves a barrier (01 R31, 13 R297). -/
def detachOne (s : State) (b t i : Nat) : State :=
  match teamOf s b t with
  | none => s
  | some m =>
    match Tbl.get m.bars i with
    | none => s
    | some q =>
      let r := barOf s b i
      let s1 := putBar s b i { r with m := r.m - 1, a := if counted s b i q then r.a - 1 else r.a }
      releaseCheck (onTeam s1 b t (fun m => restack { m with
        bars := Tbl.del m.bars i, splits := Tbl.mapVals m.splits (fun _ p => unwaitBar s.now i p) } (m.defer.map (unwaitBar s.now i)))) b i

/-- A team leaves the barriers of a list, in order. -/
def detachAll (s : State) (b t : Nat) (is : List Nat) : State :=
  match is with
  | [] => s
  | i :: r => detachAll (detachOne s b t i) b t r

/-- A team becomes a member of a barrier; a member's ATTACH changes nothing (01 R31). -/
def attachOne (s : State) (b t i : Nat) : State :=
  match teamOf s b t with
  | none => s
  | some m =>
    match Tbl.get m.bars i with
    | some _ => s
    | none =>
      let r := barOf s b i
      releaseCheck (onTeam (putBar s b i { r with m := r.m + 1 }) b t
        (fun m => { m with bars := Tbl.put m.bars i { al := 0, lp := none } })) b i

/-- A team joins the barriers of a list, in order. -/
def attachAll (s : State) (b t : Nat) (is : List Nat) : State :=
  match is with
  | [] => s
  | i :: r => attachAll (attachOne s b t i) b t r

end Sys2Proof.Machine
end

