-- ==== Sys2Proof/Machine/Ends.lean ====
section
/-! DEFINITION. Ends: reconvergence and the deferral stack (01 R21-R25), lanes that exit or die (R26, 25 R471), the ends of teams,
blocks and launches (01 R27, R36, R39), and commits (25 R472-R475). -/

namespace Sys2Proof.Machine

/-! ## Split tables -/

/-- A split waits on a join record. -/
def waitsJoin (t : Nat) (p : Split) : Bool := p.st = .waitJoin t

/-- The union of the masks of a list of splits. -/
def unionMask (ps : List Split) : Mask := ps.foldl (fun m p => m ||| p.mask) 0

/-- The merged split of a completed record: the union mask, the first one's next instruction, a watchdog count of 0, the XOR of
the signatures (01 R24, 25 R467, R474). Of traps pending on the splits it keeps the first split's alone (DESIGN CHOICE, log 123). -/
def mergedSplit (now tick : Nat) (p : Split) (ps : List Split) : Split :=
  { p with mask := unionMask (p :: ps), st := .ready, held := none, wd := now, wdTaken := false, stamp := tick,
           since := now, avail := none, line := none, sig := ps.foldl (fun g q => g ^^^ q.sig) p.sig,
           owed := ps.foldl (fun g q => g ++ q.owed) p.owed }

/-- Record t completes when the splits that wait on it, in the table or deferred, hold exactly E(t) AND NOT (X OR D): they merge
and the record closes (01 R24). -/
def joinComplete (now tick t : Nat) (m : Team) : Team :=
  match Tbl.get m.joins t with
  | none => m
  | some e =>
    let tab := m.splits.filter (fun c => waitsJoin t c.2)
    let dfr := m.defer.filter (waitsJoin t)
    let all := tab.map (fun c => c.2) ++ dfr
    if unionMask all ≠ e &&& ~~~m.ex &&& ~~~m.dead then m
    else
      let kept := m.splits.filter (fun c => !waitsJoin t c.2)
      let m1 := restack { m with joins := Tbl.del m.joins t, splits := kept } (m.defer.filter (fun p => !waitsJoin t p))
      match all with
      | [] => m1
      | p :: r =>
        let q := mergedSplit now tick p r
        match tab with
        | c :: _ => { m1 with splits := Tbl.put m1.splits c.1 q }
        | [] => match Tbl.lowestFree m1.splits 16 with
          | some n => { m1 with splits := Tbl.put m1.splits n q }
          | none => restack m1 (q :: m1.defer)

/-- Every open record tested, in ascending tag. -/
def joinsComplete (now tick : Nat) (ts : List Nat) (m : Team) : Team :=
  match ts with
  | [] => m
  | t :: r => joinsComplete now tick r (joinComplete now tick t m)

/-- A split is in WAIT-JOIN. -/
def inJoin (p : Split) : Bool :=
  match p.st with
  | .waitJoin _ => true
  | _ => false

/-- The entry of the youngest waiting split: the one that began to wait last. -/
def youngestEntry (t : Tbl Split) : Option Nat :=
  match t with
  | [] => none
  | (e, p) :: r =>
    match youngestEntry r with
    | none => some e
    | some f => if ((Tbl.get r f).map (fun q => q.stamp)).getD 0 < p.stamp then some e else some f

/-- The topmost deferred split that does not itself wait at a JOIN, with its slot's number and the stack without it. -/
def takeGoing (d : List Split) : Option (Nat × Split × List Split) :=
  match d with
  | [] => none
  | p :: r => if inJoin p then (takeGoing r).map (fun q => (q.1, q.2.1, p :: q.2.2)) else some (r.length, p, r)

/-- A trap of a split whose slot could not be reached: a code and an address. -/
def slotTrap (code a : Nat) (p : Split) : Split :=
  { p with pend := some (p.pend.getD { code := code, pc := p.pc, res := p.pc, val := BitVec.ofNat 64 a }) }

/-- A split put into an entry of the table in its saved state, in which its time as READY begins, and the stack as it then is. -/
def takeSlot (now e : Nat) (q : Split) (d : List Split) (m : Team) : Team :=
  restack { m with splits := Tbl.put m.splits e { q with since := now, avail := q.avail.map (fun _ => now) }, popWaits := [], popFailed := [] } d

/-- The split of slot `n` as its 160 bytes give it; one whose slot does not hold it yet as it stands (01 R22; log 30). -/
def readSlot (s : State) (x : Nat) (m : Team) (n : Nat) (p : Split) : Split :=
  if m.stale.contains n then p else splitFrom (liveLanes m) p (readVirt s x (deferAddr (ctxOf s x) m n) 160)

/-- A pop or a push of the deferral stack waits for the page of an address (01 R22). -/
def slotMiss (s : State) (b t a level cls : Nat) (need : Need) : State :=
  onTeam (joinRecord s (ctxNum s b) (a / 65536) level cls need.kinds) b t (fun m => { m with popWaits := [a / 65536] })

/-- A pop would read poison in its slot: team control state, which is pinned to the block (25 R470). -/
def slotHurt (s : State) (b x : Nat) (m : Team) (n : Nat) : Bool :=
  !m.stale.contains n && rerunnable s b &&
    (List.range 160).any (fun i => (placeOf s x (.virt (deferAddr (ctxOf s x) m n + i) false)).any (fun p => poisoned s Shadow.empty p 1))

/-- A slot holds its split's bytes. -/
def slotHolds (n : Nat) (m : Team) : Team := { m with stale := m.stale.filter (fun q => q ≠ n) }

/-- The split of slot `n` takes the trap of a slot that cannot be reached. -/
def slotFails (n code a : Nat) (m : Team) : Team :=
  { m with defer := m.defer.modify (m.defer.length - 1 - n) (slotTrap code a), popFailed := m.popFailed.filter (fun p => p ≠ a / 65536) }

/-- Slots that do not hold their splits' bytes written. One whose page misses is asked for and written when its record is resolved; the split
of one that cannot be written takes XLATE or ACCESS (01 R22; log 30). -/
def writeSlots (ns : List Nat) (b t : Nat) (s : State) : State :=
  match ns with
  | [] => s
  | n :: r =>
    writeSlots r b t (match teamOf s b t with
      | none => s
      | some m =>
        let x := ctxNum s b
        match m.defer.reverse[n]? with
        | none => s
        | some p =>
          if p.pend.isSome then s
          else match slotReach s x m n needW with
            | (_, .go _) =>
              onTeam (writeVirt (noteSlot s x m n) x (deferAddr (ctxOf s x) m n) (slotBytes p)) b t (slotHolds n)
            | (a, .miss level cls) => if m.popWaits = [] then slotMiss s b t a level cls needW else s
            | (a, .denied) => onTeam s b t (slotFails n 0x08 a)
            | (a, .failed) => onTeam s b t (slotFails n 0x07 a))

/-- Free entries of the split table filled from the deferral stack, top first, each split as its slot gives it. A slot's page that misses
holds the pop until its record is resolved; a split whose slot cannot be read takes XLATE or ACCESS (01 R22; log 30). -/
def popDeferred (fuel : Nat) (s : State) (b t : Nat) : State :=
  match fuel with
  | 0 => s
  | fuel + 1 =>
    match teamOf s b t with
    | none => s
    | some m =>
      match m.defer, Tbl.lowestFree m.splits 16 with
      | p :: r, some e =>
        let go := fun (s : State) (q : Split) => popDeferred fuel (onTeam s b t (takeSlot s.now e q r)) b t
        if m.popWaits ≠ [] then s
        else if slotHurt s b (ctxNum s b) m r.length then consumePoison s b
        else match slotReach s (ctxNum s b) m r.length needR with
          | (_, .go _) => go (noteSlot s (ctxNum s b) m r.length) (readSlot s (ctxNum s b) m r.length p)
          | (a, .miss level cls) => slotMiss s b t a level cls needR
          | (a, .denied) => go s (slotTrap 0x08 a p)
          | (a, .failed) => go s (slotTrap 0x07 a p)
      | _, _ => s

/-- The slots of a team's stack from the `n`-th up, written as they stand (01 R22). -/
def storeSlots (s : State) (b t n : Nat) : State :=
  match teamOf s b t with
  | none => s
  | some m =>
    (m.defer.reverse.zipIdx.drop n).foldl (fun s c => writeVirt s (ctxNum s b) (deferAddr (ctxOf s (ctxNum s b)) m c.2) (slotBytes c.1)) s

/-- R25: with every occupied entry in WAIT-JOIN and a deferred split, the youngest waiting split goes on the stack and the topmost slot
below it that can go on comes into the freed entry (log 26), once both slots translate. -/
def rotateJoin (s : State) (b t : Nat) : State :=
  match teamOf s b t with
  | none => s
  | some m =>
    if !m.splits.all (fun c => inJoin c.2) || m.popWaits ≠ [] then s
    else match takeGoing m.defer, youngestEntry m.splits with
      | some (n, p, rest), some e =>
        match Tbl.get m.splits e with
        | none => s
        | some y =>
          let x := ctxNum s b
          let top := m.defer.length - 1
          let go := fun (s : State) (q : Split) =>
            let t1 := onTeam s b t (takeSlot s.now e q (y :: rest))
            writeSlots (((teamOf t1 b t).map (fun m => m.stale)).getD []) b t t1
          if slotHurt s b x m n then consumePoison s b
          else match slotReach s x m top needW, slotReach s x m n needR with
          | (_, .go _), (_, .go _) => go (noteSlot (noteSlot s x m top) x m n) (readSlot s x m n p)
          | (a, .miss level cls), _ => slotMiss s b t a level cls needW
          | (_, .go _), (a, .miss level cls) => slotMiss s b t a level cls needR
          | (a, .denied), _ => go s (slotTrap 0x08 a p)
          | (a, .failed), _ => go s (slotTrap 0x07 a p)
          | (_, .go _), (a, .denied) => go s (slotTrap 0x08 a p)
          | (_, .go _), (a, .failed) => go s (slotTrap 0x07 a p)
      | _, _ => s

/-- What follows every change of a split table: records complete, slots of the stack that changed are written, free entries are refilled, a
full table of waiting splits turns (01 R22, R24, R25). -/
def settleTeam (s : State) (b t : Nat) : State :=
  let s1 := onTeam s b t (fun m => joinsComplete s.now s.tick (m.joins.map (fun c => c.1)) m)
  match teamOf s1 b t with
  | none => s1
  | some m => rotateJoin (popDeferred m.defer.length (writeSlots m.stale b t s1) b t) b t

/-- Lanes taken out of every split; a split left empty gives up its entry and XORs its signature into the team's total (01 R26, 25
R474). -/
def stripLanes (ls : Mask) (m : Team) : Team :=
  let strip := fun (p : Split) => { p with mask := p.mask &&& ~~~ls }
  let all := m.splits.map (fun c => (c.1, strip c.2))
  let dfr := m.defer.map strip
  let gone := (all.filter (fun c => c.2.mask = 0)).map (fun c => c.2) ++ dfr.filter (fun p => p.mask = 0)
  restack { m with splits := all.filter (fun c => c.2.mask ≠ 0),
                   sig := gone.foldl (fun g p => g ^^^ p.sig) m.sig, owed := gone.foldl (fun g p => g ++ p.owed) m.owed,
                   joins := m.joins.map (fun c => (c.1, c.2 &&& ~~~ls)) } (dfr.filter (fun p => p.mask ≠ 0))

/-! ## Commits -/

/-- The bytes of a shadow that a block position wrote (all positions with none named). -/
def shadowBytes (h : Shadow) (pos : Option Nat) : List (Nat × Byte) :=
  h.cells.filterMap (fun c =>
    match c.2.find? (fun q => match pos with
      | none => true
      | some n => q.1 = n) with
    | none => none
    | some q => some (c.1, q.2))

/-- Bytes installed in committed memory (25 R473). -/
def installBytes (m : List Host.Cell) (bs : List (Nat × Byte)) : List Host.Cell :=
  match bs with
  | [] => m
  | (a, v) :: r => installBytes (Sparse.set (w := 8) m a v) r

/-- A shadow without a position's bytes (everything with none named), and the pool pages it gives back (25 R472). -/
def shadowDrop (h : Shadow) (pos : Option Nat) : Shadow × List Nat :=
  let cells := h.cells.filterMap (fun c =>
    match c.2.filter (fun q => match pos with
      | none => false
      | some n => q.1 ≠ n) with
    | [] => none
    | l => some (c.1, l))
  let used := fun (pg : Nat) => cells.any (fun c => c.1 / 65536 = pg)
  ({ cells := cells, pages := h.pages.filter (fun c => used c.1) },
   (h.pages.filter (fun c => !used c.1)).map (fun c => c.2))

/-- Pool pages given back to a context. -/
def freePool (s : State) (x : Nat) (ps : List Nat) : State :=
  let c := ctxOf s x
  putCtx s x { c with poolUsed := c.poolUsed.filter (fun p => !ps.contains p) }

/-- The publications of a block position (all with none named), in issue order. -/
def pubsOf (ps : List (Nat × HeldPub)) (pos : Option Nat) : List HeldPub :=
  (ps.filter (fun q => match pos with
    | none => true
    | some n => q.1 = n)).map (fun q => q.2)

/-- Sealings after a commit: those of the unit's own sealed stores stand, now of committed memory; others of committed memory that an installed
byte reaches are cleared; other units' stand (03 R102, 04 R119). -/
def commitSeals (s : State) (mine : Nat × Nat × Nat → Bool) (bs : List (Nat × Byte)) : State :=
  let s1 := keepSeals s (fun t => t.unit.isSome || !bs.any (fun q => t.meets false q.1 1))
  { s1 with ctxs := Tbl.mapVals s1.ctxs (fun _ c =>
      { c with seals := c.seals.map (fun t => if t.unit.any mine then { t with unit := none } else t) }) }

/-- A unit discarded takes the sealing of its tiles with it (25 R476). -/
def dropSeals (s : State) (mine : Nat × Nat × Nat → Bool) : State := keepSeals s (fun t => !t.unit.any mine)

/-- The unit of COMMIT 1 committed: the launch's shadow installed at one instant, then its held publications performed. -/
def commitLaunch (s : State) (n : Nat) : State :=
  match Tbl.get s.launches n with
  | none => s
  | some l =>
    let bs := shadowBytes l.shadow none
    let s1 := commitSeals { s with mem := installBytes s.mem bs, poison := healBytes s.poison (fun a => bs.any (fun q => q.1 = a)) }
      (fun u => u.1 = n) bs
    let s2 := freePool s1 l.ctx (shadowDrop l.shadow none).2
    let total := l.lr.gridx * l.lr.gridy * l.lr.gridz
    let s3 := putLaunch s2 n { l with shadow := Shadow.empty, pubs := [], committed := List.range total }
    performPubs s3 l.ctx (pubsOf l.pubs none)

/-- The block at a linear index committed from one copy of its gang: its bytes installed, then its publications (25 R472-R475). -/
def commitBlock (s : State) (n lin copy : Nat) : State :=
  match Tbl.get s.launches n with
  | none => s
  | some l =>
    match l.gangs.find? (fun g => g.idx = lin / l.lr.gang && g.copy = copy) with
    | none => s
    | some g =>
      let pos := some (lin % l.lr.gang)
      let bs := shadowBytes g.shadow pos
      let d := shadowDrop g.shadow pos
      let s1 := commitSeals { s with mem := installBytes s.mem bs, poison := healBytes s.poison (fun a => bs.any (fun q => q.1 = a)) }
        (fun u => u = (n, lin, copy)) bs
      let s2 := freePool s1 l.ctx d.2
      let l1 := { l with committed := l.committed ++ [lin], gangs := l.gangs.map (fun q =>
        if q.idx = g.idx && q.copy = copy then { q with shadow := d.1, pubs := q.pubs.filter (fun r => some r.1 ≠ pos) }
        else q) }
      performPubs (putLaunch s2 n l1) l.ctx (pubsOf g.pubs pos)

/-! ## Launch and block ends -/

/-- Blocks of a launch's grid. -/
def gridBlocks (r : LaunchRec) : Nat := r.gridx * r.gridy * r.gridz

/-- Every block complete and its commit done: the launch signals TLID to TLVAL, unless the timeline has passed to another owner,
and DONE follows with ACK (01 R39, 04 R105, 23 R436). -/
def launchEndCheck (s : State) (n : Nat) : State :=
  match Tbl.get s.launches n with
  | none => s
  | some l =>
    if l.st = .placed && l.blocksDone.length = gridBlocks l.lr && (l.lr.commit = 0 || l.committed.length = gridBlocks l.lr) &&
       !s.blocks.any (fun c => c.2.launch = n) then
      let s0 := freePool s l.ctx (l.gangs.flatMap (fun g => g.shadow.pages.map (fun c => c.2)))
      let s1 := putLaunch s0 n { l with st := .complete, gangs := [] }
      let s2 := if tlOwner (ctxOf s1 l.ctx) l.lr.tlid = .software then raiseTl s1 l.ctx l.lr.tlid l.lr.tlval
                else bumpCtx l.ctx 2 s1
      if l.ack then emit (event evDone l.ctx 0 n 0 0) s2 else s2
    else s

/-- All that a block holds on its core returned: banks zeroed and free, allocations freed, frames given back (05 R128, R129; 14 R320;
24 R455). -/
def freeBlock (s : State) (b : Nat) (k : Block) (x : Nat) : State :=
  let c := ctxOf s x
  let banks := k.handles.flatMap (fun h => (List.range (h.count * Config.bankWords)).map
    (fun i => k.core * 65536 + h.first * Config.bankWords + i))
  let s1 := if banks.isEmpty then s else clearAcc s banks.contains
  { (putCtx s1 x { c with framesUsed := c.framesUsed.filter (fun f => !k.frames.contains f) }) with blocks := Tbl.del s.blocks b }

/-- Nothing of an ended block is outstanding: its commands are complete, its CPY32s drained, its accepted multicasts finished (14
R320). -/
def blockDrained (k : Block) : Bool :=
  k.cmds.all (fun c => c.finished) && k.teams.all (fun c => c.2.copies.isEmpty) && k.allocs.all (fun a => a.mcast = 0)

/-- A drained, ended block completes: under DET in linear order (23 R443). Its resources return; its launch counts it, or, under
COMMIT 3, keeps its signature until the pair is compared (01 R36, 25 R474). -/
def retireBlock (s : State) (b : Nat) : State :=
  match Tbl.get s.blocks b with
  | none => s
  | some k =>
    match Tbl.get s.launches k.launch with
    | none => s
    | some l =>
      if !k.ended || !blockDrained k then s
      else if l.st = .discarded then freeBlock s b k l.ctx
      else if !(k.st = .running || k.st = .shrinking) || (l.lr.det && k.lin ≠ 0 && !l.blocksDone.contains (k.lin - 1)) then s
      else
        let s1 := freeBlock s b k l.ctx
        launchEndCheck (if l.lr.commit = 3 then
            putLaunch s1 k.launch (mapGang l k (fun g => { g with sigs := Tbl.put g.sigs k.pos (k.sig, k.core) }))
          else putLaunch s1 k.launch { l with blocksDone := l.blocksDone ++ [k.lin] }) k.launch

/-- Ended blocks tried, in order. -/
def retireAll (bs : List Nat) (s : State) : State :=
  match bs with
  | [] => s
  | b :: r => retireAll r (retireBlock s b)

/-- After a block's completion others may complete in turn under DET, whatever their numbers: every ended block is tried, again and again
until none completes (23 R443). -/
def retireRounds (fuel : Nat) (s : State) : State :=
  match fuel with
  | 0 => s
  | fuel + 1 =>
    let t := retireAll (s.blocks.map (fun c => c.1)) s
    if t.blocks.length = s.blocks.length then s else retireRounds fuel t

/-- Every block that has ended and can complete completes. -/
def retireEnded (s : State) : State := retireRounds s.blocks.length s

/-- A block's own timeline by its selector (04 R103). -/
def blockTl (k : Block) (sel : Nat) : Timeline :=
  match sel with
  | 0x1000 => k.copyTl
  | 0x1001 => k.mmaTl
  | _ => k.mvTl

/-- A block's own timeline put in place. -/
def setBlockTl (k : Block) (sel : Nat) (t : Timeline) : Block :=
  match sel with
  | 0x1000 => { k with copyTl := t }
  | 0x1001 => { k with mmaTl := t }
  | _ => { k with mvTl := t }

/-- The numbers of the commands of a timeline that have not completed. -/
def openNums (k : Block) (sel : Nat) : List Nat :=
  (k.cmds.filter (fun c => c.tl = sel && !c.finished)).map (fun c => c.num)

/-- V of a timeline: the largest n such that every command numbered n or below has completed (04 R104). Commands that V has passed
are gone. -/
def settleTl (sel : Nat) (k : Block) : Block :=
  let t := blockTl k sel
  let v := ((openNums k sel).map (fun n => n - 1)).foldl min t.n
  { setBlockTl k sel { t with v := v } with cmds := k.cmds.filter (fun c => !(c.tl = sel && c.finished && c.num ≤ v)) }

/-- A command changed. -/
def mapCmd (sel n : Nat) (f : EngCmd → EngCmd) (k : Block) : Block :=
  { k with cmds := k.cmds.map (fun c => if c.tl = sel && c.num = n then f c else c) }

/-- A command completes (04 R104). -/
def finishCmd (sel n : Nat) (k : Block) : Block := settleTl sel (mapCmd sel n (fun c => { c with finished := true, stalled := false }) k)

/-- A stalled command whose issuer has ended is abandoned: its timeline goes past it (04 R109). -/
def abandonStalled (k : Block) : Block :=
  settleTl 0x1002 (settleTl 0x1000 { k with cmds := k.cmds.map (fun c =>
      match Tbl.get k.teams c.team with
      | none => if c.stalled then { c with stalled := false, finished := true } else c
      | some m => if c.stalled && !teamLive m then { c with stalled := false, finished := true } else c) })

/-- The XOR of the totals of a block's teams and front program (25 R474). -/
def blockSig (k : Block) : DWord := k.teams.foldl (fun g c => g ^^^ c.2.sig) 0

/-- All teams and the front program have ended (01 R36). -/
def allEnded (k : Block) : Bool := k.teams.all (fun c => !teamLive c.2)

/-- The end of a block, tested whenever a team or the front program ends or a command completes. -/
def blockEndCheck (s : State) (b : Nat) : State :=
  match Tbl.get s.blocks b with
  | none => s
  | some k =>
    if allEnded k then
      let k1 := abandonStalled { k with ended := true, sig := blockSig k }
      retireEnded (retireBlock (putBlock s b k1) b)
    else s

/-! ## Team ends -/

/-- The team indices of a gang register (05 R133). -/
def gangTeams (g : Word) : List Nat := (List.range (bitsOf g.toNat 0 4)).map (fun p => bitsOf g.toNat (4 + 4 * p) 4)

/-- A shrink request is met, and cleared, as soon as the live teams number T or fewer (01 R32, R44). -/
def shrinkMet (k : Block) : Block :=
  match k.shrink with
  | none => k
  | some q =>
    if (liveTeams k).length ≤ q.target then
      { k with shrink := none, st := if k.st = .shrinking then .running else k.st,
               prior := if k.prior = .shrinking then .running else k.prior }
    else k

/-- The end of a team seen by the rendezvous latch and the A latches: incomplete rendezvous that list it without its MMA end, every
waiting team taking GANG; latches of gangs that list it empty (05 R134, R138). -/
def rdvTeamEnd (k : Block) (t : Nat) : Block :=
  let doomed := k.rdv.filter (fun r => (gangTeams r.gang).contains t &&
    !k.rdv.any (fun q => q.gang = r.gang && q.team = t))
  let k1 := { k with rdv := k.rdv.filter (fun r => !doomed.contains r), latches := k.latches.filter (fun a => !(gangTeams a.gang).contains t) }
  doomed.foldl (fun k r => mapTeam k r.team (fun m => { m with
    splits := Tbl.mapVals m.splits (fun e p => if e = r.split then
      { p with st := .ready, held := none, pend := some { code := 0x0F, pc := p.pc, res := p.pc } } else p) })) k1

/-- A PUSHD of the front program that is stalled on a team's full queue is discarded when the team ends (01 R35). -/
def dropPushd (k : Block) (t : Nat) : Block :=
  mapTeam k 16 (fun m => { m with splits := Tbl.mapVals m.splits (fun _ p =>
    if p.line.any (fun q => q.1 = .room t) then { p with line := some (.discarded, 0) } else p) })

/-- A team ends (01 R27): it leaves its barriers, its decision queue is discarded, its slot is free. Handles it still owns stay
allocated to nobody (05 R129). -/
def endTeam (s : State) (b t : Nat) : State :=
  match teamOf s b t with
  | none => s
  | some m =>
    let s1 := detachAll s b t (m.bars.map (fun c => c.1))
    match Tbl.get s1.blocks b with
    | none => s1
    | some k =>
      let k1 := mapTeam k t (fun m =>
        { m with st := .ended, splits := [], defer := [], popWaits := [], popFailed := [], stale := [], joins := [], dq := [], q1 := [], bars := [], asyncs := [], trap := none,
                 sig := (m.splits.map (fun c => c.2) ++ m.defer).foldl (fun g p => g ^^^ p.sig) m.sig,
                 owed := (m.splits.map (fun c => c.2) ++ m.defer).foldl (fun g p => g ++ p.owed) m.owed })
      let k2 := dropPushd (rdvTeamEnd k1 t) t
      let k3 := { k2 with handles := k2.handles.map (fun h => if h.owner = t then { h with owner := 255, token := some 255 } else h) }
      blockEndCheck (putBlock s1 b (shrinkMet (abandonStalled k3))) b

/-- A team ends when no lane is live; and a TRAPPED one when no lane that its handler runs on is (01 R27, 25 R466). -/
def teamOver (m : Team) (live : Mask) : Bool :=
  live = 0 || (match m.trap with
    | some h => h.lanes &&& live = 0
    | none => false)

/-- What follows lanes leaving a team: records, arrivals, refilled entries, and the team's end when no lane is live (01 R26, R27; 13
R287, R292). -/
def afterLanesLeave (s : State) (b t : Nat) : State :=
  let s1 := settleTeam s b t
  match teamOf s1 b t with
  | none => s1
  | some m =>
    if teamOver m (liveLanes m) then endTeam s1 b t
    else arrivalChecks s1 b t (m.bars.map (fun c => c.1))

/-- Lanes exit (01 R26). -/
def exitLanes (s : State) (b t : Nat) (ls : Mask) : State :=
  afterLanesLeave (onTeam s b t (fun m => stripLanes ls { m with ex := m.ex ||| ls })) b t

/-- Lanes die: their D bits are set; the rest is as for exited lanes (25 R471). -/
def killLanes (s : State) (b t : Nat) (ls : Mask) : State :=
  afterLanesLeave (onTeam s b t (fun m => stripLanes ls { m with dead := m.dead ||| ls })) b t

end Sys2Proof.Machine
end

