-- ==== Sys2Proof/Machine/Ops.lean ====
section
/-! DEFINITION. Ops: the issuing agent, taking a trap as ONE operation and returning from one (15 R339-R341, R331; 25 R465), waits,
and the end of an instruction. -/

namespace Sys2Proof.Machine

/-- What an instruction's meaning answers. -/
abbrev Out := Host.Outcome State Fault Refusal

/-- An instruction as it issues: its major, its fields in the full form, its length in bytes, its first parcel, and whether the
decoder's checks on its bits fail (09 R223). -/
structure Op where
  major : Nat
  o : LOps
  len : Nat
  parcel : BitVec 16
  bad : Bool
deriving DecidableEq, Repr

/-- An L64 or X96 instruction (09 R217, R218). -/
def opL (major : Nat) (o : LOps) : Op :=
  { major := major, o := o, len := if o.lit.isSome then 12 else 8,
    parcel := (encodeL major o (if o.lit.isSome then 7#3 else 3#3)).extractLsb' 0 16,
    bad := (staticCheck major o).isSome }

/-- A W32 instruction in its full form (09 R216). -/
def opW (major : Nat) (o : WOps) : Op :=
  { major := major, o := WOps.toL o, len := 4, parcel := (encodeW major o).extractLsb' 0 16,
    bad := (staticCheckW major o).isSome }

/-- A C16 instruction in its full form (09 R214). -/
def opC (op : Nat) (o : COps) : Op :=
  { major := (compactOp op).1, o := COps.toL op o, len := 2, parcel := encodeC op o,
    bad := (staticCheckC op o).isSome }

/-- The issuer of an instruction: where it stands, with its block, team, split and launch as they are, the index descriptors and
popped values it issues with (02 R59, R62), and its executing lanes. -/
structure Iss where
  b : Nat
  t : Nat
  e : Nat
  k : Block
  m : Team
  p : Split
  l : Launch
  xs : List Word
  q0 : Option Word
  q1 : Option (Tbl Word)
  ex : Mask
deriving DecidableEq, Repr

/-- The front program's team number (15 R328). -/
def frontTeam : Nat := 16

/-- The issuer is a front program. -/
def Iss.front (i : Iss) : Bool := i.t = frontTeam

/-- The issuer that `cur` names, if it stands. A partly done instruction keeps what it issued with. -/
def issuer (s : State) : Option Iss :=
  match s.cur with
  | .split b t e =>
    match Tbl.get s.blocks b with
    | none => none
    | some k =>
      match Tbl.get s.launches k.launch, Tbl.get k.teams t with
      | some l, some m =>
        match Tbl.get m.splits e with
        | none => none
        | some p =>
          let h := p.held
          some { b := b, t := t, e := e, k := k, m := m, p := p, l := l, xs := (h.map (fun q => q.xs)).getD m.xr,
                 q0 := h.bind (fun q => q.q0), q1 := h.bind (fun q => q.q1), ex := 0 }
      | _, _ => none
  | _ => none

/-- A split changed. -/
def onSplit (s : State) (b t e : Nat) (f : Split → Split) : State :=
  onTeam s b t (fun m => match Tbl.get m.splits e with
    | none => m
    | some p => { m with splits := Tbl.put m.splits e (f p) })

/-- The split runs the handler of its team's trap. One that a handler's JOIN has merged with a split from outside holds lanes the handler was
not entered with, and is out of it (DESIGN CHOICE, log 131). -/
def inHandler (m : Team) (p : Split) : Bool :=
  match m.trap with
  | none => false
  | some h => p.mask &&& ~~~h.lanes = 0

/-- A split is READY: at an instruction it may issue, or in WAIT-OP with its operand available, at the cycle since which it has been (01
R42). -/
def readySince (p : Split) : Option Nat := if p.stopped then none else if p.st = .ready then some p.since else p.avail

/-- The instruction that a split has issued and that has neither completed nor trapped (15 R338, R339): one in WAIT-OP. A BAR or a JOIN that
a split waits in has completed its issue and is none (DESIGN CHOICE, log 124). -/
def openHeld (p : Split) : Option Held := if p.pend.isSome || p.st ≠ .waitOp then none else p.held

/-- The mode of a split: 0 user, 1 handler, 2 system (15 R333, R334). -/
def Iss.mode (i : Iss) : Nat := if i.l.priv then 2 else if inHandler i.m i.p then 1 else 0

/-! ## Taking a trap -/

/-- The lowest lane's or the core's place for a log entry (25 R526). -/
def teamPlace (k : Block) (t : Nat) : Nat := k.core * 65536 + (if t = frontTeam then 0xFFFF else t)

/-- One TRAPEND entry: the code that ended the team or front program and its pc; the code being handled (25 R526). -/
def logTrapEnd (s : State) (k : Block) (l : Launch) (t code : Nat) (pc : BitVec 56) (handled : Nat) : State :=
  logEntry { cls := clsTrapEnd, ctx := l.ctx, aux := handled, unit := 1, place := teamPlace k t,
             value0 := BitVec.ofNat 8 code ++ pc, value1 := BitVec.ofNat 64 k.launch } s

/-- The bits of FFAULT after a front fault (15 R337). -/
def ffaultWord (old : Word) (code : Nat) : Word := (old &&& 0x40000000) ||| 0x80000000 ||| BitVec.ofNat 32 code

/-- A front fault (15 R331): the front program ends at the faulting instruction. -/
def frontFault (s : State) (b : Nat) (r : TrapRec) : State :=
  match Tbl.get s.blocks b with
  | none => s
  | some k =>
    match Tbl.get s.launches k.launch with
    | none => s
    | some l =>
      let k1 := mapTeam { k with ffault := ffaultWord k.ffault r.code, ffpc := r.pc.zeroExtend 64, ffval := r.val } frontTeam
        (fun m => { m with st := .ended, splits := [], asyncs := [],
                           sig := (m.splits.map (fun c => c.2)).foldl (fun g p => g ^^^ p.sig) m.sig,
                           owed := (m.splits.map (fun c => c.2)).foldl (fun g p => g ++ p.owed) m.owed })
      blockEndCheck (logTrapEnd (putBlock s b k1) k l frontTeam r.code r.pc 0) b

/-- The team as its handler starts on the trapping split: the trap record written, the split at HANDLER (R339 steps 2, 4, 5). -/
def enterHandler (m : Team) (e : Nat) (p : Split) (handler : BitVec 56) (r : TrapRec) (partly : Bool) (xs : List Word) : Team :=
  { m with st := .trapped,
           trap := some { trap := { r with split := e }, lanes := p.mask, partly := partly, xs := xs },
           splits := Tbl.put m.splits e { p with pc := handler, st := .ready, held := none, pend := none, line := none, avail := none } }

/-- A trap that another split's instruction raises while the team is TRAPPED is pending on its split until RETT (R339 step 2). -/
def pendTrap (r : TrapRec) (p : Split) : Split := if p.pend.isSome then p else { p with pend := some r }

/-- TAKING A TRAP (15 R339, R341, R331): a front program ends; a trap of the handler, or with HANDLER = 0, ends the team and is
logged; a trap of another split of a TRAPPED team is pending; otherwise the handler is entered. `partly` says that done lanes keep their
effects (03 R99). -/
def takeTrap (s : State) (b t e : Nat) (r : TrapRec) (partly : Bool) (xs : List Word) : State :=
  if t = frontTeam then frontFault s b r
  else match Tbl.get s.blocks b with
    | none => s
    | some k =>
      match Tbl.get s.launches k.launch, Tbl.get k.teams t with
      | some l, some m =>
        match m.trap with
        | some h =>
          if (Tbl.get m.splits e).any (fun p => !inHandler m p) then onSplit s b t e (pendTrap r)
          else endTeam (logTrapEnd s k l t r.code r.pc h.trap.code) b t
        | none =>
          if l.lr.handler = 0 then endTeam (logTrapEnd s k l t r.code r.pc 0) b t
          else match Tbl.get m.splits e with
            | none => s
            | some p => putBlock s b { k with teams := Tbl.put k.teams t (enterHandler m e p l.lr.handler r partly xs) }
      | _, _ => s

/-- trap(NAME) of the issuing instruction: the pc is its own and the resume address too (25 R465). -/
def Iss.trap (i : Iss) (s : State) (r : TrapRec) : State :=
  takeTrap s i.b i.t i.e { r with pc := i.p.pc, res := i.p.pc } false i.xs

/-- A trap that keeps done lanes (03 R99). -/
def Iss.trapPartly (i : Iss) (s : State) (r : TrapRec) : State :=
  takeTrap s i.b i.t i.e { r with pc := i.p.pc, res := i.p.pc } true i.xs

/-- Trap ILLOP, with the first parcel (09 R224). -/
def Iss.illop (i : Iss) (s : State) (op : Op) : State := i.trap s { code := 0x01, parcel := op.parcel }

/-- The team's queues as they were before the instruction popped them, in this pass or, of q0, in an earlier one. -/
def Iss.unpop (i : Iss) (s : State) : State :=
  onTeam s i.b i.t (fun m => { m with dq := (i.p.held.bind (fun h => h.q0)).toList ++ i.m.dq, q1 := i.m.q1 })

/-- Trap ILLOP for a value the instruction has read: it has no effect, and no queue is popped (09 R224). -/
def Iss.illopValue (i : Iss) (s : State) (op : Op) : State := i.illop (i.unpop s) op

/-! ## Returning from a trap -/

/-- Handles of a team released: their banks zeroed (05 R128, R129). -/
def releaseHandles (s : State) (b t : Nat) : State :=
  match Tbl.get s.blocks b with
  | none => s
  | some k =>
    let mine := k.handles.filter (fun h => h.owner = t)
    let inBank := fun (n : Nat) => mine.any (fun h =>
      k.core * 65536 + h.first * Config.bankWords ≤ n && n < k.core * 65536 + (h.first + h.count) * Config.bankWords)
    putBlock (clearAcc s inBank) b
      { k with handles := k.handles.filter (fun h => h.owner ≠ t) }

/-- The issue record with which a partly done instruction re-executes after RETT: lanes of TDONE are done (R340). -/
def resumeHeld (h : Handling) : Option Held :=
  if h.trap.res ≠ h.trap.pc then none
  else match h.kept with
    | some q => if q.xs = [] then none
                else some { q with done := h.trap.done, waits := [], failed := [], latched := false, fetching := false, passed := false }
    | none =>
      if h.partly then
        some { xs := h.xs, q0 := none, q1 := none, done := h.trap.done, waits := [], failed := [], spgen := none, latched := false,
               code := none, fetching := false }
      else none

/-- The state to which RETT returns the split: READY, or the wait that an asynchronous trap found it in, unless that wait has ended, or the
handler has sent the split elsewhere than its instruction in WAIT-OP (01 R42, 13 R298). -/
def resumeState (s : State) (b t : Nat) (h : Handling) : SplitState :=
  match h.prior with
  | .waitBar i phase =>
    if (barOf s b i).phase = phase && ((teamOf s b t).bind (fun m => Tbl.get m.bars i)).isSome then .waitBar i phase else .ready
  | .waitJoin n => .waitJoin n
  | .waitOp => if h.trap.res = h.trap.pc then .waitOp else .ready
  | .ready => .ready

/-- The place in a line that RETT gives back to a split that returns to WAIT-OP (01 R42). -/
def resumeLine (h : Handling) : Option (Line × Nat) := if h.trap.res = h.trap.pc then h.line else none

/-- A command whose fault was handled is taken up again, under its number (04 R109). -/
def resubmit (s : State) (b sel n : Nat) : State :=
  match Tbl.get s.blocks b with
  | none => s
  | some k => putBlock s b (mapCmd sel n (fun c => { c with stalled := false, failed := [] }) k)

/-- RETURNING FROM A TRAP (15 R340): the split resumes at TRES in its launch's own mode; a partly done instruction is to run for the
lanes outside TDONE; WATCHDOG's count restarts; an engine's command goes on (04 R109); after ACCLEAK the handles are released and the EXIT or RET is completed. -/
def returnFromTrap (s : State) (b t e : Nat) (h : Handling) : State :=
  let s1 := onTeam s b t (fun m => { m with st := .running, trap := none })
  let s2 := arriveLate (onSplit s1 b t e (fun p =>
    { p with pc := h.trap.res, st := resumeState s b t h, held := resumeHeld h, wd := if h.trap.code = 0x09 then s.now else p.wd,
             wdTaken := h.trap.code ≠ 0x09 && p.wdTaken, since := s.now, avail := none, line := resumeLine h })) b t
  if h.trap.code = 0x09 then settleTeam s2 b t
  else if h.trap.sel ≠ 0 then resubmit s2 b h.trap.sel.toNat h.trap.cmd.toNat
  else if h.trap.code = 0x05 then
    match teamOf s2 b t with
    | none => s2
    | some m => exitLanes (releaseHandles s2 b t) b t (liveLanes m)
  else s2

/-! ## The end of an instruction -/

/-- The split goes on past its instruction. -/
def Iss.next (i : Iss) (op : Op) : BitVec 56 := i.p.pc + BitVec.ofNat 56 op.len

/-- A split that has completed an instruction: READY at an address, its turn used. -/
def Split.stepTo (p : Split) (pc : BitVec 56) (s : State) : Split :=
  { p with pc := pc, st := .ready, held := none, stamp := s.tick, since := s.now, avail := none, line := none }

/-- The issuing split advances past its instruction. A front program's count of a wait starts again (15 R331). -/
def Iss.advance (i : Iss) (s : State) (op : Op) : State :=
  onSplit s i.b i.t i.e (fun p => { p.stepTo (i.next op) s with wd := if i.front then s.now else p.wd, wdTaken := !i.front && p.wdTaken })

/-- An issue record for an instruction that waits. -/
def Iss.hold (i : Iss) (done : Mask) (waits failed : List Nat) : Held :=
  { xs := i.xs, q0 := i.q0, q1 := i.q1, done := done, waits := waits, failed := failed, spgen := none, latched := false,
    code := (i.p.held.bind (fun h => h.code)), fetching := false }

/-- The issuing split waits in WAIT-OP at its instruction (01 R42). -/
def Iss.wait (i : Iss) (s : State) (h : Held) : State :=
  onSplit s i.b i.t i.e (fun p => { p with st := .waitOp, held := some { h with born := (i.p.held.map (fun q => q.born)).getD s.tick }, avail := none })

/-- The lanes already done of a partly done instruction. -/
def Iss.doneLanes (i : Iss) : Mask := (i.p.held.map (fun h => h.done)).getD 0

/-- The pages whose fault records failed under the instruction. -/
def Iss.failedPages (i : Iss) : List Nat := (i.p.held.map (fun h => h.failed)).getD []

end Sys2Proof.Machine
end

