-- ==== Sys2Proof/Machine/Deaths.lean ====
section
/-! DEFINITION. Deaths: lanes that die of an error (25 R470, R471). -/

namespace Sys2Proof.Machine

/-- The pc of the split that holds a lane. -/
def laneSplitPc (m : Team) (l : Nat) : BitVec 56 :=
  ((m.splits.map (fun c => c.2) ++ m.defer).find? (fun p => hasLane p.mask l)).map (fun p => p.pc) |>.getD 0

/-- One lane dies (R471): one LANEDEATH entry, its context's counter, and, under LDESC, a launch replay. A value of the front program
is pinned to its block, which is rerun (R470). -/
def laneDeath (s : State) (b t l : Nat) : State :=
  match Tbl.get s.blocks b with
  | none => s
  | some k =>
    match Tbl.get s.launches k.launch, Tbl.get k.teams t with
    | some r, some m =>
      if t = frontTeam then addDue s (.rerun b false)
      else if !hasLane (liveLanes m) l || !teamLive m then s
      else
        let s1 := bumpCtx r.ctx 6 (logEntry
          { cls := clsLaneDeath, ctx := r.ctx, aux := t, unit := 0, place := k.core * 65536 + l,
            value0 := (laneSplitPc m l).zeroExtend 64, value1 := BitVec.ofNat 64 k.launch } s)
        let s2 := killLanes s1 b t (maskOf [l])
        if r.lr.ldesc then addDue s2 (.replay k.launch 2 k.lin) else s2
    | _, _ => s

/-- Lanes die, in order. -/
def laneDeaths (b t : Nat) (ls : List Nat) (s : State) : State :=
  match ls with
  | [] => s
  | l :: r => laneDeaths b t r (laneDeath s b t l)

/-- Every lane of the issuing split is among lanes that die: nothing of it is left to go on. -/
def Iss.allDie (i : Iss) (ls : List Nat) : Bool := !i.front && i.p.mask &&& liveLanes i.m &&& ~~~maskOf ls = 0

/-- Lanes of the issuing split die, and what is left of it goes on (25 R471). -/
def Iss.afterDeaths (i : Iss) (ls : List Nat) (s : State) (go : State → State) : State :=
  if i.allDie ls then laneDeaths i.b i.t ls s else go (laneDeaths i.b i.t ls s)

/-- The issuer once lanes of it have died: they execute no more. -/
def Iss.without (i : Iss) (ls : List Nat) : Iss :=
  { i with ex := i.ex &&& ~~~maskOf ls, m := { i.m with dead := i.m.dead ||| maskOf ls } }

end Sys2Proof.Machine
end

