-- ==== Sys2Proof/Machine/Operands.lean ====
section
/-! DEFINITION. Operands: operand fields, the decode checks that depend on the team, executing lanes, queues, index registers, reads,
and the writes and steps of completed lanes (02; 09 R219-R224; 10 R231, R232; 13 R280). -/

namespace Sys2Proof.Machine

/-! ## Fields -/

/-- An operand field as it stands in an instruction: its code in a trap record (1 d, 2 a, 3 b, 4 c; R336), its kind, its value. -/
structure Field where
  code : Nat
  spec : FieldSpec
  val : Nat
deriving DecidableEq, Repr

/-- The registers a field's operand covers; 0 where it names none (R47). -/
def FieldSpec.extent (k : FieldSpec) : Nat :=
  match k with
  | .reg _ _ => 1
  | .pair _ => 2
  | .quad _ => 4
  | _ => 0

/-- The cell of an instruction in the form it has (R218, R226). -/
def Op.cell (op : Op) : Option OpCell :=
  (cellOf op.major op.o.f.toNat).map (fun k => if op.o.lit.isSome then k.withLit else k)

/-- The fields of a cell with an instruction's values. -/
def cellFields (k : OpCell) (o : LOps) : List Field :=
  [⟨1, k.d, o.d.toNat⟩, ⟨2, k.a, o.a.toNat⟩, ⟨3, k.b, o.b.toNat⟩, ⟨4, k.c, o.c.toNat⟩]

/-- The fields of an instruction, in the order d, a, b, c. -/
def Op.fields (op : Op) : List Field :=
  match op.cell with
  | none => []
  | some k => cellFields k op.o

/-- The fields that name registers. -/
def Op.regFields (op : Op) : List Field := op.fields.filter (fun f => f.spec.extent ≠ 0)

/-- The registers of the destination d. -/
def Op.dstExtent (op : Op) : Nat :=
  match op.cell with
  | none => 0
  | some k => k.d.extent

/-! ## The checks of a decoder that depend on the team or front program (R223) -/

/-- A field's registers exist (R45, R47, R70). -/
def fieldFits (front : Bool) (nregs : Nat) (f : Field) : Bool :=
  match f.spec with
  | .cond => f.val = 0xFF || f.val < nregs
  | k => k.extent = 0 || (if front then f.val < 0xC0 && f.val + k.extent ≤ nregs
                          else 0xF0 ≤ f.val || f.val + k.extent ≤ nregs)

/-- The predicate names a register that exists (R45, R70). -/
def predFits (front : Bool) (nregs : Nat) (p : BitVec 8) : Bool :=
  p.toNat = 0xFF || (!front && p.toNat < nregs)

/-- The GETS selectors that are team-only (12 R266). -/
def getsTeamOnly (sel : Nat) : Bool := !((2 ≤ sel && sel ≤ 15) || sel = 20 || sel = 21)

/-- What a cell asks of the issuer beyond its fields: its side (R231), space 1 (R72), GETS selectors (R266), SHFL's width (R260). -/
def placeOk (k : OpCell) (op : Op) (front : Bool) (width : Nat) : Bool :=
  (match k.front with
   | .both => true
   | .teamOnly => !front
   | .frontOnly => front) &&
  (match k.rm with
   | .space _ => !(front && op.o.rm.toNat = 1)
   | .group => 32 * 2 ^ op.o.rm.toNat ≤ width
   | _ => true) &&
  !(front && op.major = 0x54 && getsTeamOnly op.o.b.toNat)

/-- An instruction takes trap ILLOP from this issuer, whatever its lanes hold (R223). -/
def illegalHere (op : Op) (front : Bool) (nregs width : Nat) : Bool :=
  match op.cell with
  | none => true
  | some k => !((cellFields k op.o).all (fieldFits front nregs) && predFits front nregs op.o.p && placeOk k op front width)

/-- System registers marked P (15 R334). -/
def sysregPriv (n : Nat) (write : Bool) : Bool :=
  (0x08 ≤ n && n ≤ 0x15) || (0x18 ≤ n && n ≤ 0x1B) || (write && n = 0x20)

/-- An instruction takes trap PRIV in a mode (10 R232, 15 R333). -/
def privBarred (op : Op) (mode : Nat) : Bool :=
  match op.major with
  | 0xE2 => mode = 0
  | 0xE3 => mode = 0
  | 0xE5 => mode = 0
  | 0xE0 => mode = 0 && sysregPriv op.o.b.toNat false
  | 0xE1 => (mode = 0 && sysregPriv op.o.b.toNat true) || (mode = 1 && op.o.b.toNat = 0x20)
  | _ => false

/-! ## Executing lanes -/

/-- Register n of a lane. -/
def Team.reg (m : Team) (n l : Nat) : Word := Sparse.get m.regs (n * 1024 + l)

/-- The lanes a predicate enables (R220). -/
def predLanes (m : Team) (o : LOps) (ls : Mask) : Mask :=
  if o.p.toNat = 0xFF then ls
  else maskOf ((lanesOf ls m.width).filter (fun l => (m.reg o.p.toNat l).getLsbD 0 != o.pn))

/-- The executing lanes: live, active in the split, enabled by the predicate (R234), and not already done. -/
def Iss.execLanes (i : Iss) (op : Op) : Mask :=
  predLanes i.m op.o (i.p.mask &&& liveLanes i.m &&& ~~~i.doneLanes)

/-- The executing lanes in mask order. -/
def Iss.lanes (i : Iss) : List Nat := lanesOf i.ex i.m.width

/-- The leader: the lowest executing lane (13 R279). -/
def Iss.leader (i : Iss) : Nat := lowestLane i.ex i.m.width

/-! ## Index registers (R52-R56) -/

/-- BASE of a descriptor. -/
def xBase (d : Word) : Nat := bitsOf d.toNat 0 8
/-- BOUND. -/
def xBound (d : Word) : Nat := bitsOf d.toNat 8 8
/-- HOME. -/
def xHome (d : Word) : Nat := bitsOf d.toNat 16 8
/-- STEP, to be added to a home. -/
def xStep (d : Word) : Word := (d.extractLsb' 24 4).signExtend 32

/-- The descriptor an instruction uses for xN. -/
def Iss.xreg (i : Iss) (n : Nat) : Word := i.xs.getD n 0

/-- A lane's index under a descriptor. -/
def Iss.idx (i : Iss) (d : Word) (l : Nat) : Nat := (i.m.reg (xHome d) l).toNat

/-- The window holds an operand of `n` registers at an index (R54). -/
def idxOk (d : Word) (idx n : Nat) : Bool := (xBase d + idx) % n = 0 && idx + n ≤ xBound d

/-- The register a field value names in a lane (R54, R69). -/
def Iss.regNo (i : Iss) (v l : Nat) : Nat :=
  if v < 0xF8 then v else xBase (i.xreg (v - 0xF8)) + i.idx (i.xreg (v - 0xF8)) l

/-- The record of the first failing field of a lane (R55). -/
def idxFaultIn (i : Iss) (leaders : List Nat) (l : Nat) (fs : List Field) : Option TrapRec :=
  match fs with
  | [] => none
  | f :: r =>
    let d := i.xreg (f.val - 0xF8)
    if 0xF8 ≤ f.val && (!leaders.contains f.code || l = i.leader) && !idxOk d (i.idx d l) f.spec.extent then
      some { code := 0x03, aux := f.val - 0xF8, field := f.code, lane := l, val := BitVec.ofNat 64 (i.idx d l) }
    else idxFaultIn i leaders l r

/-- The record of IDXBOUND: the lowest failing lane, its first failing field (R55). -/
def idxFault (i : Iss) (leaders : List Nat) (op : Op) (ls : List Nat) : Option TrapRec :=
  match ls with
  | [] => none
  | l :: r =>
    match idxFaultIn i leaders l op.regFields with
    | some t => some t
    | none => idxFault i leaders op r

/-- The index registers an instruction names, each once (R56). -/
def Op.xNamed (op : Op) : List Nat :=
  (List.range 8).filter (fun n => op.regFields.any (fun f => f.val = 0xF8 + n))

/-! ## Queues (R61-R63) -/

/-- The fields that name queue n. -/
def Op.queueFields (op : Op) (n : Nat) : List Field :=
  op.regFields.filter (fun f => f.spec.extent = 1 && f.val = 0xF0 + n)

/-- The first of a list of fields, as the field of a QUEUE trap. -/
def queueTrapRec (f : Field) : TrapRec := { code := 0x0D, field := f.code }

/-- The block has no front program, or it has ended (01 R35). -/
def frontGone (k : Block) : Bool :=
  match Tbl.get k.teams frontTeam with
  | none => true
  | some m => !teamLive m

/-- A queue that delivers, makes wait, or traps. -/
inductive QueueState where
  | ok
  | waits
  | traps
deriving DecidableEq, Repr

/-- The step at which a split came into a line that it stands in: it waits there for its first pass, in a team that runs, or in the
handler (15 R332, R339). -/
def inLine (m : Team) (w : Line) (p : Split) : Option Nat :=
  if p.st = .waitOp && !p.stopped && p.pend.isNone && (m.st = .running || (m.st = .trapped && inHandler m p)) then
    p.line.bind (fun q => if q.1 = w then some q.2 else none)
  else none

/-- Another split of a list of teams came into a line before a split of a team. -/
def lineAhead (ms : List Team) (w : Line) (m : Team) (p : Split) : Bool :=
  ms.any (fun q => q.splits.any (fun c => (inLine q w c.2).any (fun n => (inLine m w p).all (fun mine => n < mine))))

/-- The decision queue as a read finds it: entries go to reading instructions in their order (01 R35, 15 R332). -/
def q0State (i : Iss) : QueueState :=
  if lineAhead [i.m] .q0 i.m i.p then .waits
  else if i.m.dq ≠ [] then .ok else if frontGone i.k then .traps else .waits

/-- The result queue as a read by `n` lanes finds it (R63, 05 R143). -/
def q1State (i : Iss) (n : Nat) : QueueState :=
  match i.m.q1 with
  | [] => .traps
  | t :: _ => if n ≤ t.elems.length || t.toCome = 0 then .ok else .waits

/-- What the queues an instruction still has to pop make of it: pass, wait, or trap QUEUE with the first such field. -/
def queueCheck (i : Iss) (op : Op) : QueueState × Option Field :=
  let n0 := if i.q0.isSome then [] else op.queueFields 0
  let n1 := if i.q1.isSome then [] else op.queueFields 1
  let bad := op.regFields.find? (fun f => (op.queueFields 2).contains f || (op.queueFields 3).contains f ||
    (n0.contains f && q0State i = .traps) || (n1.contains f && q1State i i.lanes.length = .traps))
  match bad with
  | some f => (.traps, some f)
  | none =>
    if (n0 ≠ [] && q0State i = .waits) || (n1 ≠ [] && q1State i i.lanes.length = .waits) then (.waits, none) else (.ok, none)

/-- One element for each executing lane, in mask order, +0 beyond the stream's end (05 R143). -/
def dealElems (ls : List Nat) (es : List Word) : Tbl Word :=
  match ls with
  | [] => []
  | l :: r => (l, es.headD 0) :: dealElems r es.tail

/-- The result queue after a read by `n` lanes. -/
def popQ1 (q : List Stream) (n : Nat) : List Stream :=
  match q with
  | [] => []
  | t :: r => if t.elems.length ≤ n && t.toCome = 0 then r else { t with elems := t.elems.drop n } :: r

/-- The issuer with the queues its instruction names popped (R62). -/
def Iss.popped (i : Iss) (op : Op) : Iss :=
  let i1 := if i.q0.isNone && op.queueFields 0 ≠ [] then { i with q0 := some (i.m.dq.headD 0) } else i
  if i1.q1.isNone && op.queueFields 1 ≠ [] then
    { i1 with q1 := some (dealElems i1.lanes ((i1.m.q1.head?.map (fun t => t.elems)).getD [])) }
  else i1

/-- The team with those queues popped. -/
def popTeam (i : Iss) (op : Op) (m : Team) : Team :=
  let m1 := if i.q0.isNone && op.queueFields 0 ≠ [] then { m with dq := m.dq.tail } else m
  if i.q1.isNone && op.queueFields 1 ≠ [] then { m1 with q1 := popQ1 m1.q1 i.lanes.length } else m1

/-! ## Reads -/

/-- A 32-bit operand in a lane (R54, R61, R69). -/
def Iss.src (i : Iss) (v : BitVec 8) (l : Nat) : Word :=
  if v.toNat = 0xF0 then i.q0.getD 0
  else if v.toNat = 0xF1 then Tbl.getD (i.q1.getD []) l 0
  else i.m.reg (i.regNo v.toNat l) l

/-- `n` registers of an operand from its first, low first. -/
def Iss.srcs (i : Iss) (v : BitVec 8) (l n : Nat) : List Word :=
  (List.range n).map (fun j => i.m.reg (i.regNo v.toNat l + j) l)

/-- A 64-bit operand in a lane (R46, R47). -/
def Iss.src64 (i : Iss) (v : BitVec 8) (l : Nat) : DWord :=
  i.m.reg (i.regNo v.toNat l + 1) l ++ i.m.reg (i.regNo v.toNat l) l

/-- A 128-bit operand in a lane (R47). -/
def Iss.src128 (i : Iss) (v : BitVec 8) (l : Nat) : BitVec 128 :=
  (i.m.reg (i.regNo v.toNat l + 3) l ++ i.m.reg (i.regNo v.toNat l + 2) l) ++
  (i.m.reg (i.regNo v.toNat l + 1) l ++ i.m.reg (i.regNo v.toNat l) l)

/-- Operand a. -/
def Iss.a (i : Iss) (op : Op) (l : Nat) : Word := i.src op.o.a l
/-- Operand b, or the literal in its place (R218). -/
def Iss.bv (i : Iss) (op : Op) (l : Nat) : Word := op.o.lit.getD (i.src op.o.b l)
/-- Operand a, or the literal in its place (R226). -/
def Iss.av (i : Iss) (op : Op) (l : Nat) : Word := op.o.lit.getD (i.src op.o.a l)
/-- Operand c. -/
def Iss.c (i : Iss) (op : Op) (l : Nat) : Word := i.src op.o.c l
/-- Pair operand a. -/
def Iss.a64 (i : Iss) (op : Op) (l : Nat) : DWord := i.src64 op.o.a l
/-- Pair operand b, or the literal sign-extended (R235). -/
def Iss.b64 (i : Iss) (op : Op) (l : Nat) : DWord :=
  match op.o.lit with
  | some v => v.signExtend 64
  | none => i.src64 op.o.b l
/-- Pair operand c. -/
def Iss.c64 (i : Iss) (op : Op) (l : Nat) : DWord := i.src64 op.o.c l

/-! ## Writes and steps -/

/-- The first `n` words of a value, low first. -/
def wordsOf (n : Nat) (v : BitVec 128) : List Word := (List.range n).map (fun j => v.extractLsb' (32 * j) 32)

/-- The register writes that put words into a field's registers in a lane. -/
def Iss.dstWrites (i : Iss) (v : BitVec 8) (l : Nat) (ws : List Word) : List (Nat × Word) :=
  ws.mapIdx (fun j w => ((i.regNo v.toNat l + j) * 1024 + l, w))

/-- Register writes applied in order. -/
def applyWrites (r : Sparse 32) (ws : List (Nat × Word)) : Sparse 32 :=
  match ws with
  | [] => r
  | w :: t => applyWrites (Sparse.set r w.1 w.2) t

/-- The steps of descriptors in a lane (R56). -/
def stepLane (ds : List Word) (l : Nat) (r : Sparse 32) : Sparse 32 :=
  match ds with
  | [] => r
  | d :: t => stepLane t l (Sparse.set r (xHome d * 1024 + l) (Sparse.get r (xHome d * 1024 + l) + xStep d))

/-- The steps of descriptors in lanes. -/
def stepLanes (ds : List Word) (ls : List Nat) (r : Sparse 32) : Sparse 32 :=
  match ls with
  | [] => r
  | l :: t => stepLanes ds t (stepLane ds l r)

/-- What completed lanes leave: the steps of the index registers named, then the destination's writes, which stand where both
touch a register (R56), and the flags (R68). A register written holds poison no more (25 R470). -/
def Iss.finish (i : Iss) (op : Op) (ls : List Nat) (ws : List (Nat × Word)) (fl : BitVec 8) (m : Team) : Team :=
  { m with regs := applyWrites (stepLanes (op.xNamed.map i.xreg) ls m.regs) ws, flags := m.flags ||| fl,
           poison := m.poison.filter (fun q => !ws.any (fun w => w.1 = q)) }

/-! ## Registers that hold poison (25 R470) -/

/-- The registers that an instruction reads in an executing lane: its sources, and the homes of the index registers it names. -/
def Iss.readsIn (i : Iss) (op : Op) (leaders : List Nat) (l : Nat) : List Nat :=
  ((op.regFields.filter (fun f => f.code ≠ 1 && (!leaders.contains f.code || l = i.leader))).flatMap (fun f =>
    (List.range f.spec.extent).map (fun j => i.regNo f.val l + j)) ++ op.xNamed.map (fun n => xHome (i.xreg n))).map (fun n => n * 1024 + l)

/-- The lanes to which an instruction's reads, those of its predicate among them, deliver poison. -/
def Iss.poisonLanes (i : Iss) (op : Op) (leaders : List Nat) : List Nat :=
  if i.m.poison = [] then []
  else (lanesOf (i.p.mask &&& liveLanes i.m &&& ~~~i.doneLanes) i.m.width).filter (fun l =>
    i.m.poison.contains (op.o.p.toNat * 1024 + l) || (hasLane i.ex l && (i.readsIn op leaders l).any i.m.poison.contains))

end Sys2Proof.Machine
end

