-- ==== Sys2Proof/Machine/Flags.lean ====
section
/-! DEFINITION. Flags: the bits of FLAGS (02 R67), what lanes raise (R68, 06 R155), and the trap enables (15 R335, 06 R157). -/

namespace Sys2Proof.Machine

/-- Invalid operation. -/
def fNV : BitVec 8 := 0x01
/-- Floating divide by zero. -/
def fDZ : BitVec 8 := 0x02
/-- Overflow. -/
def fOF : BitVec 8 := 0x04
/-- Underflow. -/
def fUF : BitVec 8 := 0x08
/-- Inexact. -/
def fNX : BitVec 8 := 0x10
/-- Saturated. -/
def fSAT : BitVec 8 := 0x20
/-- Integer divide by zero. -/
def fIDZ : BitVec 8 := 0x40
/-- Poison decoded or a dead lane read. -/
def fPSN : BitVec 8 := 0x80

/-- A flag raised when a condition holds. -/
def flagIf (c : Bool) (f : BitVec 8) : BitVec 8 := if c then f else 0

/-- What one lane computes: its result, in the low words of the destination, and its flags. -/
structure LaneOut where
  val : BitVec 128
  fl : BitVec 8
deriving DecidableEq, Repr

/-- A 32-bit result that raises nothing. -/
def LaneOut.word (v : Word) : LaneOut := { val := v.zeroExtend 128, fl := 0 }
/-- A 32-bit result with flags. -/
def LaneOut.flagged (v : Word) (f : BitVec 8) : LaneOut := { val := v.zeroExtend 128, fl := f }
/-- A 64-bit result that raises nothing. -/
def LaneOut.dword (v : DWord) : LaneOut := { val := v.zeroExtend 128, fl := 0 }

/-- The union of the flags of lanes. -/
def unionFlags (outs : List (Nat × LaneOut)) : BitVec 8 := outs.foldl (fun f c => f ||| c.2.fl) 0

/-- FPEN as it can trap: IDZ never does (R335). -/
def fpenMask (m : Team) : BitVec 8 := m.fpen &&& 0xBF

/-- The record of FPTRAP: the lowest lane that raises an enabled flag, with its flags (R157). -/
def fpTrap (en : BitVec 8) (outs : List (Nat × LaneOut)) : Option TrapRec :=
  match outs with
  | [] => none
  | (l, o) :: r => if o.fl &&& en ≠ 0 then some { code := 0x10, lane := l, laneFlags := o.fl } else fpTrap en r

end Sys2Proof.Machine
end

