-- ==== Sys2Proof/Machine/Issue.lean ====
section
/-! DEFINITION. Issue: the order in which an instruction is checked, issues and completes (09 R223, R232; 02 R55, R62; 03 R74), and the
instructions that compute one value per lane (11 R234). -/

namespace Sys2Proof.Machine

/-- The issuing split waits for what its instruction needs before its first pass (01 R42). -/
def Iss.pause (i : Iss) (s : State) : State := onSplit s i.b i.t i.e (fun p => { p with st := .waitOp, avail := none })

/-- The issuing split waits in a line, in the place it has or at the end (15 R332, 05 R130). -/
def Iss.pauseIn (i : Iss) (s : State) (w : Line) : State :=
  onSplit s i.b i.t i.e (fun p => { p with st := .waitOp, avail := none, line := if p.line.any (fun q => q.1 = w) then p.line else some (w, s.tick) })

/-- The issuing split waits for the queues that its instruction names: in line for q0, where that is what it lacks. -/
def Iss.pauseQueue (i : Iss) (op : Op) (s : State) : State :=
  if i.q0.isNone && op.queueFields 0 ≠ [] && q0State i = .waits then i.pauseIn s .q0 else i.pause s

/-- An instruction with executing lanes: queues, then index checks, then its own effect. `leaders` are the fields read in the
leader alone (13 R280). -/
def issueLanes (op : Op) (leaders : List Nat) (i : Iss) (s : State) (body : Iss → State → State) : State :=
  match queueCheck i op with
  | (.traps, some f) => i.trap s (queueTrapRec f)
  | (.traps, none) => i.trap s { code := 0x0D }
  | (.waits, _) => i.pauseQueue op s
  | (.ok, _) =>
    let j := i.popped op
    let s1 := onTeam s i.b i.t (popTeam i op)
    match idxFault j leaders op j.lanes with
    | some r => j.trap s1 r
    | none => body j s1

/-- An instruction as an issuer runs it: an empty mask does nothing (R19); ILLOP, then PRIV, whatever the lanes; lanes that read
poison die, and the others issue at the split's next turn (25 R471); no executing lane has no effect; then its lanes. -/
def issueAs (op : Op) (leaders : List Nat) (i : Iss) (s : State) (body : Iss → State → State) : State :=
  if i.p.mask = 0 then i.advance s op
  else if op.bad || illegalHere op i.front i.m.nregs i.m.width then i.illop s op
  else if privBarred op i.mode then i.trap s { code := 0x02 }
  else
    let j := { i with ex := i.execLanes op }
    if j.poisonLanes op leaders ≠ [] then laneDeaths i.b i.t (j.poisonLanes op leaders) s
    else if j.ex = 0 then j.advance s op else issueLanes op leaders j s body

/-- An instruction in a state: run by the issuer `cur` names. -/
def issue (op : Op) (leaders : List Nat) (s : State) (body : Iss → State → State) : Host.Outcome State Fault Refusal :=
  match issuer s with
  | none => .fault .noIssuer
  | some i => .next (issueAs op leaders i s body)

/-- An instruction that waits, before it issues its first pass, while the issuer is to wait (02 R62). -/
def issueWhen (op : Op) (leaders : List Nat) (s : State) (waits : Iss → Bool) (body : Iss → State → State) :
    Host.Outcome State Fault Refusal :=
  match issuer s with
  | none => .fault .noIssuer
  | some i => if waits i && i.execLanes op ≠ 0 && i.p.mask ≠ 0 && !(op.bad || illegalHere op i.front i.m.nregs i.m.width) &&
                 !privBarred op i.mode then .next (i.pause s) else .next (issueAs op leaders i s body)

/-- Lanes complete with writes and flags, and the split goes on. -/
def Iss.done (i : Iss) (op : Op) (s : State) (ls : List Nat) (ws : List (Nat × Word)) (fl : BitVec 8) : State :=
  i.advance (onTeam s i.b i.t (i.finish op ls ws fl)) op

/-- What every executing lane computes, with its number. -/
def Iss.outs (i : Iss) (f : Nat → LaneOut) : List (Nat × LaneOut) := i.lanes.map (fun l => (l, f l))

/-- The writes of results to the destination. -/
def Iss.outWrites (i : Iss) (op : Op) (outs : List (Nat × LaneOut)) : List (Nat × Word) :=
  outs.flatMap (fun c => i.dstWrites op.o.d c.1 (wordsOf op.dstExtent c.2.val))

/-- Every executing lane writes its result, unless an enabled flag traps (R157). -/
def Iss.complete (i : Iss) (op : Op) (s : State) (f : Nat → LaneOut) : State :=
  match fpTrap (fpenMask i.m) (i.outs f) with
  | some r => i.trap s r
  | none => i.done op s i.lanes (i.outWrites op (i.outs f)) (unionFlags (i.outs f))

/-- An instruction that computes one value per executing lane from registers (11 R234). -/
def laneOp (op : Op) (s : State) (f : Iss → Op → Nat → LaneOut) : Host.Outcome State Fault Refusal :=
  issue op [] s (fun i s => i.complete op s (f i op))

/-- An instruction whose operands are read in the leader and whose result is the same in every executing lane. -/
def Iss.completeAll (i : Iss) (op : Op) (s : State) (v : BitVec 128) : State :=
  i.complete op s (fun _ => { val := v, fl := 0 })

/-- An instruction that writes no register completes. -/
def Iss.plain (i : Iss) (op : Op) (s : State) : State := i.done op s i.lanes [] 0

end Sys2Proof.Machine
end

