-- ==== Sys2Proof/Machine/Signature.lean ====
section
/-! DEFINITION. Signature: the store-stream signature of paired execution (25 R474). -/

namespace Sys2Proof.Machine

/-- One bit of CRC-64/ECMA-182. -/
def crc64Bit (c : DWord) : DWord := if c.msb then (c <<< 1) ^^^ 0x42F0E1EBA9EA3693 else c <<< 1

/-- A byte taken into the CRC. -/
def crc64Byte (c : DWord) (b : Byte) : DWord := crc64Bit^[8] (c ^^^ (b.zeroExtend 64 <<< 56))

/-- Bytes taken into the CRC. -/
def crc64 (c : DWord) (bs : List Byte) : DWord := bs.foldl crc64Byte c

/-- A 32-byte record: address, data, byte mask, space code. -/
def sigRecord (ea : Nat) (bs : List Byte) (space : Nat) : List Byte :=
  leBytes 8 ea ++ bs ++ List.replicate (16 - bs.length) 0 ++ leBytes 2 (2 ^ bs.length - 1) ++ [BitVec.ofNat 8 space] ++
    List.replicate 5 0

/-- Records taken into a split's signature, under COMMIT 3. -/
def sigSplit (s : State) (b t e : Nat) (commit : Nat) (rs : List (List Byte)) : State :=
  if commit = 3 && rs ≠ [] then
    onSplit s b t e (fun p => { p with sig := rs.foldl crc64 p.sig, owed := p.owed.map (fun q => (q.1, q.2 + 32 * rs.length)) })
  else s

/-! ## TCOPY stores (25 R474)

A TCOPY store's records stand in its split's program order, with data that the engine writes later. The checksum is linear: the split
takes as many zero bytes at issue, and what the data adds, moved past all that follows, is added when the command completes. -/

/-- The place of `n` records kept in a split's signature for a command. -/
def sigOwe (s : State) (b t e commit num n : Nat) : State :=
  if commit = 3 && n ≠ 0 then
    onSplit s b t e (fun p => { p with sig := crc64 p.sig (List.replicate (32 * n) 0),
                                       owed := p.owed.map (fun q => (q.1, q.2 + 32 * n)) ++ [(num, 0)] })
  else s

/-- A signature, and what it lacks, once a command's data are known: `c` is the checksum of its records alone. -/
def sigPaid (num : Nat) (c : DWord) (g : DWord × List (Nat × Nat)) : DWord × List (Nat × Nat) :=
  ((g.2.filter (fun q => q.1 = num)).foldl (fun v q => v ^^^ crc64 c (List.replicate q.2 0)) g.1, g.2.filter (fun q => q.1 ≠ num))

/-- A split's. -/
def Split.paid (num : Nat) (c : DWord) (p : Split) : Split :=
  let g := sigPaid num c (p.sig, p.owed)
  { p with sig := g.1, owed := g.2 }

/-- A team's, its splits' among them. -/
def Team.paid (num : Nat) (c : DWord) (m : Team) : Team :=
  let g := sigPaid num c (m.sig, m.owed)
  { m with sig := g.1, owed := g.2, splits := Tbl.mapVals m.splits (fun _ p => p.paid num c), defer := m.defer.map (Split.paid num c) }

/-- Every signature of a block that waits for a command's data. -/
def payRecords (num : Nat) (rs : List (List Byte)) (k : Block) : Block :=
  { k with teams := Tbl.mapVals k.teams (fun _ m => m.paid num (rs.foldl crc64 0)) }

end Sys2Proof.Machine
end

