-- ==== Sys2Proof/Machine/Access.lean ====
section
/-! DEFINITION. Access: where the addresses of an instruction lead (03 R71-R74, 04 R107), translation page by page with waits and
replay (03 R98, R99; 24 R454-R458), and the two ways an instruction completes: lane by lane, or as a whole. -/

namespace Sys2Proof.Machine

/-! ## Targets -/

/-- A live allocation of a block that holds a range (03 R71). -/
def allocHolding (k : Block) (off n : Nat) : Option Alloc :=
  k.allocs.find? (fun a => a.off ≤ off && off + n ≤ a.off + a.len)

/-- The blocks of a block's gang on a core (01 R16). -/
def gangBlockOn (s : State) (k : Block) (core : Nat) : Option Block :=
  (s.blocks.find? (fun c => c.2.launch = k.launch && c.2.gang = k.gang && c.2.copy = k.copy && c.2.core = core)).map (fun c => c.2)

/-- Where a context's chip scratchpad holds an address of its: within the MiB granted for it (24 R448). -/
def chipAddr (c : Ctx) (ea : Nat) : Nat := c.chipAt.getD (ea / 2 ^ 20) 0 * 2 ^ 20 + ea % 2 ^ 20

/-- The die of a core (03 R71). -/
def dieOf (core : Nat) : Nat := core / Config.coresPerCluster / Config.clustersPerDie

/-- The launches with placed blocks on a compute die, or on the module for the fabric die. -/
def launchesOn (s : State) (die : Nat) : List Nat :=
  ((s.blocks.filter (fun c => die = 2 || dieOf c.2.core = die)).map (fun c => c.2.launch)).eraseDups

/-- A fabric processor consumes poison: it is pinned to no unit, so every launch with placed blocks is replayed (25 R470, log 24). -/
def fabricPoison (s : State) : State := (launchesOn s 2).foldl (fun s n => addDue s (.replay n 1 0)) s

/-- A scratchpad place of a core. -/
def spadPlace (core off : Nat) : Phys := .spad (core * Config.spadBytes + off)

/-- The instruction has passed the checks of R74 and waits (14 R319). -/
def Iss.passed (i : Iss) : Bool := i.p.held.any (fun h => h.passed)

/-- Where `n` bytes at an address of a space lead from a lane of an issuer (03 R71, R74). A write to spaces 4 and 5 under COMMIT 3 is
barred (25 R473), before the access reads anything: also for a cas that would fail (DESIGN CHOICE, log 12). An access that has passed these
checks is performed though its allocation is freed since (14 R319). -/
def targetOf (s : State) (i : Iss) (space ea n l : Nat) (load write : Bool) : Target :=
  let x := i.l.ctx
  let c := ctxOf s x
  match space with
  | 0 => globalTarget s x ea load
  | 1 => if ea + n ≤ c.lpuser then .virt (lpLane c i.m.frame l + ea) false else .barred
  | 2 => if i.passed || (allocHolding i.k ea n).isSome then .direct (spadPlace i.k.core ea) else .barred
  | 3 =>
    let core := i.k.core / Config.coresPerCluster * Config.coresPerCluster + bitsOf ea 19 3
    if 2 ^ 22 ≤ ea then .barred
    else if i.passed then .direct (spadPlace core (bitsOf ea 0 19))
    else match gangBlockOn s i.k core with
      | none => .barred
      | some q => if (allocHolding q (bitsOf ea 0 19) n).isSome then .direct (spadPlace core (bitsOf ea 0 19)) else .barred
  | 4 =>
    if (write && i.l.lr.commit = 3) || c.chipmb * 2 ^ 20 < ea + n then .barred
    else .direct (.chip (dieOf i.k.core * Config.chipBytes + chipAddr c ea))
  | _ =>
    if (write && i.l.lr.commit = 3) || 2 ^ 56 ≤ ea || inTlmap c ea || inSbmap c ea then .barred else .virt ea true

/-! ## Completion lane by lane (R98, R99, 12 R278) -/

/-- One lane's access. -/
structure LaneAcc where
  lane : Nat
  ea : Nat
  tgt : Target
deriving DecidableEq, Repr

/-- What one lane's access did: the state, the register writes, and its signature record if it stored. -/
structure Did where
  s : State
  ws : List (Nat × Word)
  rec? : List (List Byte)

/-- The progress of an instruction through its lanes. -/
structure MemRun where
  s : State
  ws : List (Nat × Word)
  recs : Tbl (List Byte)
  done : List Nat
  /-- Lanes that trap: lane, code, address. -/
  bad : List (Nat × Nat × Nat)
  waits : List Nat
  /-- Places at which a lane must wait: later lanes that reach them wait too (03 R88). -/
  stall : List Phys
  /-- Lanes to which the access delivers poison (25 R470). -/
  dead : List Nat

/-- The `n` bytes that a lane's access delivers to it hold poison: the lane dies and does nothing (25 R470, R471). -/
def laneDies (s : State) (b n : Nat) (p : Phys) : Bool := poisoned s (shadowOf s b) p n

/-- One lane taken: performed, or noted as waiting or trapping. `perform` answers none while the lane must wait at its place. `n` bytes
are delivered to the lane: it dies on their poison when it has its bytes, and not while it waits for a line to fill (03 R79, 25 R470). -/
def memLane (b n x : Nat) (failed : List Nat) (need : Need) (perform : State → LaneAcc → Phys → Option Did) (r : MemRun)
    (q : LaneAcc) : MemRun :=
  match reachTarget r.s x failed need q.tgt with
  | .go p =>
    if r.stall.contains p then r
    else match perform (noteTarget r.s x q.tgt) q p with
    | none => { r with stall := r.stall ++ [p] }
    | some d => if laneDies r.s b n p then { r with dead := r.dead ++ [q.lane] } else { r with s := d.s, ws := r.ws ++ d.ws, recs := r.recs ++ d.rec?.map (fun c => (q.lane, c)), done := r.done ++ [q.lane] }
  | .miss level cls =>
    { r with s := joinRecord r.s x (targetPage q.tgt) level cls need.kinds, waits := addPage r.waits (targetPage q.tgt) }
  | .denied => { r with bad := r.bad ++ [(q.lane, 0x08, q.ea)] }
  | .failed => { r with bad := r.bad ++ [(q.lane, 0x07, q.ea)] }

/-- Every lane taken, ascending. -/
def memLanes (b n x : Nat) (failed : List Nat) (need : Need) (perform : State → LaneAcc → Phys → Option Did) (r : MemRun)
    (qs : List LaneAcc) : MemRun :=
  match qs with
  | [] => r
  | q :: t => memLanes b n x failed need perform (memLane b n x failed need perform r q) t

/-- The first lane of a list that an address check stops: ALIGN first over all lanes, then ACCESS (R74). -/
def addrTrap (n : Nat) (qs : List LaneAcc) : Option TrapRec :=
  match qs.find? (fun q => q.ea % n ≠ 0) with
  | some q => some { code := 0x06, val := BitVec.ofNat 64 q.ea }
  | none =>
    match qs.find? (fun q => q.tgt = .barred) with
    | some q => some { code := 0x08, val := BitVec.ofNat 64 q.ea }
    | none => none

/-- The signature records of the lanes done in this pass and in those before it, in ascending lane order (25 R474). -/
def Iss.allRecs (i : Iss) (rs : Tbl (List Byte)) : Tbl (List Byte) :=
  rs.foldl (fun t c => Tbl.put t c.1 c.2) ((i.p.held.map (fun h => h.recs)).getD [])

/-- The end of one pass over the lanes: complete, wait, or trap keeping the done lanes (R98, R99). Lanes that read poison die first; nothing
more happens where they are all of the split. -/
def memFinish (i : Iss) (op : Op) (r : MemRun) : State :=
  let done := i.doneLanes ||| maskOf r.done
  let recs := i.allRecs r.recs
  let sign := fun (s : State) => sigSplit s i.b i.t i.e i.l.lr.commit (recs.map (fun c => c.2))
  i.afterDeaths r.dead (onTeam r.s i.b i.t (i.finish op r.done r.ws 0)) (fun s =>
    if r.waits ≠ [] || r.stall ≠ [] then i.wait s { i.hold done r.waits i.failedPages with passed := true, recs := recs }
    else match r.bad with
      | [] => i.advance (sign s) op
      | (_, code, ea) :: _ => i.trapPartly (sign s) { code := code, val := BitVec.ofNat 64 ea, done := done })

/-- The accesses of an issuer's lanes. -/
def Iss.accs (i : Iss) (f : Nat → Nat) (t : Nat → Nat → Target) : List LaneAcc :=
  i.lanes.map (fun l => { lane := l, ea := f l, tgt := t (f l) l })

/-- An instruction that completes lane by lane: the checks of R74 on every lane, once, then its lanes. `given` bytes are delivered to each
lane. -/
def memIssue (i : Iss) (op : Op) (s : State) (n given : Nat) (need : Need) (qs : List LaneAcc)
    (perform : State → LaneAcc → Phys → Option Did) : State :=
  match if i.passed then none else addrTrap n qs with
  | some r => i.trap s r
  | none =>
    memFinish i op (memLanes i.b given i.l.ctx i.failedPages need perform
      { s := s, ws := [], recs := [], done := [], bad := [], waits := [], stall := [], dead := [] } qs)

/-! ## Translation as a whole (12 R271, 04 R111, 13 R285, R286) -/

/-- One translation an instruction asks for: the lane it is for, its target, its permissions. -/
structure Ask where
  lane : Nat
  tgt : Target
  need : Need
deriving DecidableEq, Repr

/-- The state and what the asks met so far. -/
structure AskRun where
  s : State
  /-- Lanes that trap: lane, code, address. -/
  bad : List (Nat × Nat × Nat)
  waits : List Nat

/-- The address of a target in a trap record. -/
def targetAddr (t : Target) : Nat :=
  match t with
  | .virt va _ => va
  | _ => 0

/-- One ask. -/
def askOne (x : Nat) (failed : List Nat) (r : AskRun) (q : Ask) : AskRun :=
  match reachTarget r.s x failed q.need q.tgt with
  | .go _ => { r with s := noteTarget r.s x q.tgt }
  | .miss level cls =>
    { r with s := joinRecord r.s x (targetPage q.tgt) level cls q.need.kinds, waits := addPage r.waits (targetPage q.tgt) }
  | .denied => { r with bad := r.bad ++ [(q.lane, 0x08, targetAddr q.tgt)] }
  | .failed => { r with bad := r.bad ++ [(q.lane, 0x07, targetAddr q.tgt)] }

/-- Every ask. -/
def askAll (x : Nat) (failed : List Nat) (r : AskRun) (qs : List Ask) : AskRun :=
  match qs with
  | [] => r
  | q :: t => askAll x failed (askOne x failed r q) t

/-- An instruction that needs every translation before it does anything: it waits, traps as a whole, or goes on (R271, R111). -/
def Iss.translated (i : Iss) (s : State) (qs : List Ask) (go : State → State) : State :=
  let r := askAll i.l.ctx i.failedPages { s := s, bad := [], waits := [] } qs
  if r.waits ≠ [] then i.wait r.s { i.hold i.doneLanes r.waits i.failedPages with passed := true }
  else match r.bad with
    | [] => go r.s
    | (_, code, ea) :: _ => i.trap r.s { code := code, val := BitVec.ofNat 64 ea }

end Sys2Proof.Machine
end

