-- ==== Sys2Proof/Machine/Create.lean ====
section
/-! DEFINITION. Create: teams, front programs, barriers and blocks in their initial state (01 R29, R31, R33, R34; 13 R295; 03 R77,
R78; 24 R455). -/

namespace Sys2Proof.Machine

/-- A split that starts: READY, not stopped. -/
def newSplit (mask : Mask) (pc : BitVec 56) (now tick : Nat) : Split :=
  { mask := mask, pc := pc, st := .ready, stopped := false, held := none, pend := none, wd := now, wdKept := none, wdTaken := false, stamp := tick,
    sig := 0, bpSkip := false, step := false, since := now }

/-- A team that starts at an entry with every lane in entry 0, and no barrier membership (R33). -/
def newTeam (dp frame width nregs : Nat) (pc : BitVec 56) (now tick : Nat) : Team :=
  { st := .running, prior := .running, dp := dp, frame := frame, width := width, nregs := nregs, regs := [],
    xr := List.replicate 8 0, flags := 0, fpen := 0, hscr := [], ex := 0, dead := 0,
    splits := [(0, newSplit (allLanes width) pc now tick)], defer := [], joins := [], dq := [], q1 := [], copies := [],
    rets := [], spilled := [], bars := [], trap := none, asyncs := [], sig := 0 }

/-- Membership of a barrier with nothing arrived (13 R292). -/
def newMember : BarMember := { al := 0, lp := none }

/-- A team present at the start is a member of every block and cluster barrier (R31, R295). -/
def Team.atStart (m : Team) : Team := { m with bars := (List.range 20).map (fun n => (n, newMember)) }

/-- A front program that starts: one lane, k-registers zero (R33, R34). -/
def newFront (kregs : Nat) (pc : BitVec 56) (now tick : Nat) : Team :=
  { newTeam 0 0 1 kregs pc now tick with splits := [(0, newSplit 1 pc now tick)] }

/-- A barrier with `m` members. -/
def newBarrier (m : Nat) : Barrier := { m := m, a := 0, phase := 0 }

/-- A timeline at 0 (04 R104). -/
def newTimeline : Timeline := { n := 0, v := 0 }

/-- The datapaths of teams 0 to n - 1 placed in turn: the lowest with fewer than `cap` teams (17 R377, R378). -/
def newTeams (r : LaunchRec) (frames : List Nat) (now tick : Nat) (dps : List Nat) : Tbl Team :=
  dps.mapIdx (fun t d => (t, (newTeam d (frames.getD t 0) r.width r.regs r.tentry now tick).atStart))

/-- A core's next generation after one is taken (03 R77). -/
def nextGen (g : Nat) : Nat := if g = 65535 then 1 else g + 1

/-- The initial allocation of a block (01 R39, 03 R77). -/
def firstAlloc (r : LaunchRec) (off gen : Nat) : List Alloc :=
  if r.scratch = 0 then []
  else [{ off := off, len := r.scratch, gen := gen, span := r.span, busy := false, mcast := 0, waitCmds := [], waitCopies := [] }]

/-- A block that starts on a core (01 R29, R31, R34, R44). -/
def newBlock (launch lin copy gang pos core : Nat) (r : LaunchRec) (frames dps : List Nat) (off gen now tick : Nat) : Block :=
  { launch := launch, lin := lin, copy := copy, gang := gang, pos := pos, core := core, st := .running, prior := .running,
    priorSave := .running, placed := now, shrink := none, bars := List.replicate 16 (newBarrier r.initt),
    allocs := firstAlloc r off gen, handles := [], latches := [], rdv := [], copyTl := newTimeline, mmaTl := newTimeline,
    mvTl := newTimeline, cmds := [],
    teams := newTeams r frames now tick dps ++ (if r.fentry = 0 then [] else [(frontTeam, newFront r.kregs r.fentry now tick)]),
    frames := frames, spgen := if r.scratch = 0 then 0 else gen, spbase := if r.scratch = 0 then 0 else off, ffault := 0, ffpc := 0,
    ffval := 0, sig := 0, slot := none, savedFull := [], saveWaits := [], ended := false, committed := false }

/-- A gang that starts: its cluster barriers count the teams of all its blocks (13 R295). -/
def newGang (idx copy cluster : Nat) (r : LaunchRec) : Gang :=
  { idx := idx, copy := copy, cluster := cluster, bars := List.replicate 4 (newBarrier (r.gang * r.initt)),
    shadow := { cells := [], pages := [] }, pubs := [], sigs := [] }

end Sys2Proof.Machine
end

