-- ==== Sys2Proof/Machine/Datapaths.lean ====
section
/-! DEFINITION. Datapaths: which datapath of a core takes a team (17 R377, R378; 01 R30, R40). -/

namespace Sys2Proof.Machine

/-- A block holds its core's resources: it is placed and not SAVED (R44). -/
def blockResident (k : Block) : Bool := k.st ≠ .saved && k.st ≠ .complete

/-- The live teams on a datapath of a core, front programs apart. -/
def teamsOn (s : State) (core dp : Nat) : List Team :=
  (s.blocks.filter (fun c => c.2.core = core && blockResident c.2)).flatMap (fun c =>
    (c.2.teams.filter (fun q => q.1 < 16 && teamLive q.2 && q.2.dp = dp)).map (fun q => q.2))

/-- The slices of a team that are released (01 R26). -/
def releasedSlices (m : Team) : Nat :=
  ((List.range (m.width / 32)).filter (fun j => (List.range 32).all (fun i => !hasLane (liveLanes m) (32 * j + i)))).length

/-- Lane-registers of a team at full size. -/
def fullSize (m : Team) : Nat := m.width * m.nregs

/-- Free lane-registers of a datapath, released slices given back (R377). -/
def freeLaneRegs (ms : List Team) : Nat := 65536 - (ms.map (fun m => fullSize m - 32 * m.nregs * releasedSlices m)).sum

/-- T(d) for a team of a width and register count (R377). -/
def teamCap (width nregs : Nat) : Nat := min 8 (65536 / (width * nregs))

/-- A datapath's number in the service map (29 R523). -/
def dpNumber (core dp : Nat) : Nat := core * 4 + dp

/-- The teams on a datapath, with those of a list already chosen for it. -/
def dpTeams (s : State) (core : Nat) (chosen : List (Nat × Team)) (d : Nat) : List Team :=
  teamsOn s core d ++ (chosen.filter (fun c => c.1 = d)).map (fun c => c.2)

/-- A datapath in service can take a team more beside others: fewer than T(d) stand on it, and its lane-registers hold them all at full
size. -/
def dpTakes (s : State) (core d : Nat) (ms : List Team) (m : Team) : Bool :=
  !s.mgmt.out.contains (.datapath (dpNumber core d)) && ms.length < teamCap m.width m.nregs && (ms.map fullSize).sum + fullSize m ≤ 65536

/-- Of the datapaths that can take a team, the one with the most free lane-registers; the lowest-numbered of several (R378). -/
def pickDp (s : State) (core : Nat) (chosen : List (Nat × Team)) (m : Team) : Option Nat :=
  let on := dpTeams s core chosen
  ((List.range 4).filter (fun d => dpTakes s core d (on d) m)).foldl (fun best d =>
    match best with
    | none => some d
    | some e => if freeLaneRegs (on e) < freeLaneRegs (on d) then some d else some e) none

/-- Datapaths for teams in turn. -/
def seatAll (s : State) (core : Nat) (ms : List Team) (chosen : List (Nat × Team)) : Option (List Nat) :=
  match ms with
  | [] => some (chosen.map (fun c => c.1))
  | m :: r =>
    match pickDp s core chosen m with
    | none => none
    | some d => seatAll s core r (chosen ++ [(d, m)])

/-- Latches held on a core (05 R138). -/
def coreLatches (s : State) (core : Nat) : Nat :=
  ((s.blocks.filter (fun c => c.2.core = core && blockResident c.2)).map (fun c => c.2.latches.length)).sum

/-- What a team index keeps for its next team: the signature total, and the copies still outstanding, which count for no tag of the
new team (25 R474; 04 R112). -/
def Team.inherit (m : Team) (old : Option Team) : Team :=
  match old with
  | none => m
  | some o => { m with sig := o.sig, owed := o.owed, copies := o.copies.map (fun c => if c.tag < 4 then { c with tag := c.tag + 4 } else c) }

/-- One granted team: the lowest free index, at JENTRY, member of no barrier (01 R30, 13 R299). -/
def growOne (s : State) (b : Nat) (k : Block) (l : Launch) : Option State :=
  match pickDp s k.core [] (newTeam 0 0 l.lr.width l.lr.regs l.lr.jentry s.now s.tick), (List.range l.lr.maxt).find? (fun t => !(liveTeams k).contains t) with
  | some d, some t =>
    let m := (newTeam d (k.frames.getD t 0) l.lr.width l.lr.regs l.lr.jentry s.now s.tick).inherit (Tbl.get k.teams t)
    some (putBlock s b { k with teams := Tbl.put k.teams t m,
                                cmds := k.cmds.map (fun c => if c.team = t then { c with team := 255 } else c) })
  | _, _ => none

/-- Up to `n` teams granted, with the number granted (01 R30). -/
def growTeams (n : Nat) (b : Nat) (s : State) : State × Nat :=
  match n with
  | 0 => (s, 0)
  | n + 1 =>
    match Tbl.get s.blocks b with
    | none => (s, 0)
    | some k =>
      match Tbl.get s.launches k.launch with
      | none => (s, 0)
      | some l =>
        if k.shrink.isSome || l.lr.jentry = 0 then (s, 0)
        else match growOne s b k l with
          | none => (s, 0)
          | some s1 => let r := growTeams n b s1; (r.1, r.2 + 1)

end Sys2Proof.Machine
end

