-- ==== Sys2Proof/Machine/Stops.lean ====
section
/-! DEFINITION. Stops: teams and blocks that stop and resume: breakpoints, single steps, HALT (01 R42-R44; 13 R289; 15 R343; 25 R468,
R469). -/

namespace Sys2Proof.Machine

/-- A split enters STOPPED: its prior state stands and its watchdog count pauses (R42, R469). -/
def stopSplit (now : Nat) (p : Split) : Split := if p.stopped then p else { p with stopped := true, wdKept := some (now - p.wd) }

/-- A split returns to its prior state, its count going on; the time that it has been READY begins (17 R370). -/
def resumeSplit (now : Nat) (p : Split) : Split :=
  if !p.stopped then p
  else { p with stopped := false, wd := now - p.wdKept.getD 0, wdKept := none, since := now, avail := p.avail.map (fun _ => now) }

/-- A team enters STOPPED, and keeps what stopped it; an ended, saved or stopped one does not change (R43, 25 R468). -/
def stopTeam (now : Nat) (w : StopCause) (m : Team) : Team :=
  if m.st = .running || m.st = .trapped then
    { m with st := .stopped, cause := some w, splits := Tbl.mapVals m.splits (fun _ p => stopSplit now p), defer := m.defer.map (stopSplit now) }
  else m

/-- A STOPPED team returns to the state it had: TRAPPED while it handles a trap, else RUNNING. -/
def resumeTeam (now : Nat) (m : Team) : Team :=
  if m.st = .stopped then
    { m with st := if m.trap.isSome then .trapped else .running, cause := none,
             splits := Tbl.mapVals m.splits (fun _ p => resumeSplit now p), defer := m.defer.map (resumeSplit now) }
  else m

/-- Every team and the front program of a block stop. -/
def stopTeams (now : Nat) (w : StopCause) (k : Block) : Block := { k with teams := Tbl.mapVals k.teams (fun _ m => stopTeam now w m) }

/-- Every team and the front program of a block resume. -/
def resumeTeams (now : Nat) (k : Block) : Block := { k with teams := Tbl.mapVals k.teams (fun _ m => resumeTeam now m) }

/-- The HALTED event of a block: the stopping pc, the linear index (23 R436). -/
def haltedEvent (s : State) (k : Block) (pc : BitVec 56) : State :=
  match Tbl.get s.launches k.launch with
  | none => s
  | some l => emit (event evHalted l.ctx 0 k.launch pc.toNat k.lin) s

/-- A team stops for a breakpoint or a step: with it, in stop-block mode, its whole block (R43, R468). -/
def debugStop (s : State) (b t : Nat) (w : StopCause) (pc : BitVec 56) : State :=
  match Tbl.get s.blocks b with
  | none => s
  | some k =>
    let whole := (ctxOf s (ctxNum s b)).stopBlock
    haltedEvent (putBlock s b (if whole then stopTeams s.now w k else mapTeam k t (stopTeam s.now w))) k pc

/-- A block halts (R44, 15 R343). One that is SAVING, in which a handler deals with a stalled command, is saved halted (DEDUCED, log 115). -/
def haltBlock (s : State) (b : Nat) (pc : BitVec 56) : State :=
  match Tbl.get s.blocks b with
  | none => s
  | some k =>
    let k1 := stopTeams s.now .halt k
    haltedEvent (putBlock s b (if k.st = .saving then { k1 with priorSave := .halted, prior := k.priorSave }
                               else { k1 with st := .halted, prior := k.st })) k pc

/-- The arrivals that teams made while they were stopped, team by team (13 R298). -/
def arriveAll (b : Nat) (ts : List Nat) (s : State) : State :=
  match ts with
  | [] => s
  | t :: r => arriveAll b r (arriveLate s b t)

/-- A block is halted: HALTED, or SAVING from that state while a command of it stands stalled, which only its handler can release (04 R108; log
115). -/
def blockHalted (k : Block) : Bool := k.st = .halted || (k.st = .saving && k.priorSave = .halted && k.cmds.any (fun c => c.stalled))

/-- A halted block returns to its prior state; one whose last team ended meanwhile completes (R44, R36). -/
def resumeBlock (s : State) (b : Nat) : State :=
  match Tbl.get s.blocks b with
  | none => s
  | some k =>
    let k1 := resumeTeams s.now k
    retireEnded (arriveAll b (k.teams.map (fun q => q.1)) (putBlock s b (if k.st = .saving then { k1 with priorSave := k.prior }
                                                                           else { k1 with st := k.prior })))

end Sys2Proof.Machine
end

