-- ==== Sys2Proof/Machine/Control.lean ====
section
/-! DEFINITION. Control: branches, joins, calls, returns, exit, traps, barriers, elastic teams, timelines, index-register set-up and the
front stream (13 R279-R307; 01 R20-R32). -/

namespace Sys2Proof.Machine

/-! ## Dividing a split (01 R21) -/

/-- Lanes that go on at one address. -/
structure Going where
  mask : Mask
  pc : BitVec 56
deriving DecidableEq, Repr

/-- A lane joins the group of its address, or begins one. -/
def addGoing (gs : List Going) (l : Nat) (pc : BitVec 56) : List Going :=
  match gs with
  | [] => [{ mask := maskOf [l], pc := pc }]
  | g :: r => if g.pc = pc then { g with mask := g.mask ||| maskOf [l] } :: r else g :: addGoing r l pc

/-- The groups of a list of lanes, ascending, in the order of their lowest lanes. -/
def goings (gs : List Going) (ls : List (Nat × BitVec 56)) : List Going :=
  match ls with
  | [] => gs
  | (l, pc) :: r => goings (addGoing gs l pc) r

/-- The split that a group after the first forms: it keeps the issuing split's watchdog count (25 R467) and starts a signature (25
R474). -/
def childSplit (p : Split) (g : Going) (s : State) : Split :=
  { p.stepTo g.pc s with mask := g.mask, pend := none, sig := 0, owed := [], bpSkip := false, step := false, cyc := none }

/-- Groups put into free entries, lowest first, and then on the deferral stack (R21). -/
def placeGoings (p : Split) (s : State) (gs : List Going) (m : Team) : Team :=
  match gs with
  | [] => m
  | g :: r =>
    placeGoings p s r (match Tbl.lowestFree m.splits 16 with
      | some e => { m with splits := Tbl.put m.splits e (childSplit p g s) }
      | none => { m with defer := childSplit p g s :: m.defer })

/-- The issuing split goes on in groups: the first keeps its entry (R21). -/
def divideSplit (e : Nat) (s : State) (gs : List Going) (m : Team) : Team :=
  match Tbl.get m.splits e, gs with
  | some p, g :: r =>
    placeGoings p s r { m with splits := Tbl.put m.splits e { p.stepTo g.pc s with mask := g.mask } }
  | _, _ => m

/-- The issuing split divided, its team changed with it, and the slots of the splits pushed written (R21, R22). -/
def Iss.divide (i : Iss) (s : State) (gs : List Going) (f : Team → Team) : State :=
  storeSlots (onTeam s i.b i.t (fun m => divideSplit i.e s gs (f m))) i.b i.t
    (((teamOf s i.b i.t).map (fun m => m.defer.length)).getD 0)

/-- Entries of a split table that no split holds. -/
def freeEntries (m : Team) : Nat := ((List.range 16).filter (fun e => (Tbl.get m.splits e).isNone)).length

/-- The translation of a slot: its first byte and its last. -/
def slotAsks (s : State) (i : Iss) (n : Nat) : List Ask :=
  let a := deferAddr (ctxOf s i.l.ctx) i.m (i.m.defer.length + n)
  [{ lane := 0, tgt := .virt a false, need := needW }, { lane := 0, tgt := .virt (a + 159) false, need := needW }]

/-- The slots that a split divided into `n` groups pushes: those of the groups after the first that find no free entry (R21, R22). -/
def deferAsks (s : State) (i : Iss) (n : Nat) : List Ask :=
  (List.range (n - 1 - freeEntries i.m)).flatMap (slotAsks s i)

/-- The active lanes of the issuing split, ascending. -/
def Iss.active (i : Iss) : List Nat := lanesOf (i.p.mask &&& liveLanes i.m) i.m.width

/-! ## Branches (R281, R282) -/

/-- The branch target: the literal or the 24 bits of b, a and d, signed, in parcels from the instruction's own address (09 R222). -/
def branchTarget (i : Iss) (op : Op) : BitVec 56 :=
  let o : BitVec 56 := match op.o.lit with
    | some v => v.signExtend 56
    | none => ((op.o.b ++ op.o.a) ++ op.o.d).signExtend 56
  i.p.pc + (o <<< 1)

/-- The condition of BRA and CALL.direct in a lane (R280, R281). -/
def branchTaken (i : Iss) (op : Op) (l : Nat) : Bool :=
  op.o.c.toNat = 0xFF || ((i.m.reg op.o.c.toNat l).getLsbD 0 != op.o.pn)

/-- The issuing split goes on at an address. -/
def Iss.goTo (i : Iss) (s : State) (pc : BitVec 56) : State :=
  onSplit s i.b i.t i.e (fun p => { p.stepTo pc s with wd := if i.front then s.now else p.wd, wdTaken := !i.front && p.wdTaken })

/-- A divergent branch with a tag opens or widens its join record (01 R23). -/
def openRecord (m : Team) (tag : Nat) (ls : Mask) : Team :=
  if tag = 0 then m else { m with joins := Tbl.put m.joins tag ((Tbl.get m.joins tag).getD 0 ||| ls) }

/-- BRA (R281). A push on the deferral stack is translated before the split divides (R22). -/
def bra (op : Op) (s : State) : Out :=
  issue op [] s (fun i s =>
    let taken := i.active.filter (branchTaken i op)
    let rest := i.active.filter (fun l => !branchTaken i op l)
    if rest = [] then i.goTo s (branchTarget i op)
    else if taken = [] then i.advance s op
    else i.translated s (deferAsks s i 2) (fun s => i.divide s
      [{ mask := maskOf taken, pc := branchTarget i op }, { mask := maskOf rest, pc := i.next op }]
      (fun m => openRecord m op.o.f.toNat i.p.mask)))

/-- BRDQ (R282): one pop for the split; never divergent. -/
def brdq (op : Op) (s : State) : Out :=
  issue op [] s (fun i s =>
    match q0State i with
    | .traps => i.trap s { code := 0x0D }
    | .waits => i.pauseIn s .q0
    | .ok =>
      let s1 := onTeam s i.b i.t (fun m => { m with dq := m.dq.tail })
      if (i.m.dq.headD 0).getLsbD 0 != op.o.pn then i.goTo s1 (branchTarget i op) else i.advance s1 op)

/-- JOIN (R283, 01 R24). -/
def join (op : Op) (s : State) : Out :=
  issue op [] s (fun i s =>
    if (Tbl.get i.m.joins op.o.f.toNat).isNone then i.advance s op
    else
      settleTeam (onSplit s i.b i.t i.e (fun p => { p.stepTo (i.next op) s with st := .waitJoin op.o.f.toNat })) i.b i.t)

/-! ## Calls, returns, exit (R284-R287; 01 R28) -/

/-- The address of a spill slot of a lane (24 R455). -/
def spillAddr (s : State) (i : Iss) (l n : Nat) : Nat :=
  lpLane (ctxOf s i.l.ctx) i.m.frame l + (ctxOf s i.l.ctx).lpuser + 8 * n

/-- A slot lies in the lane's spill area (24 R455). -/
def spillFits (s : State) (i : Iss) (n : Nat) : Bool :=
  8 * n + 8 ≤ lpRegion (ctxOf s i.l.ctx) - (ctxOf s i.l.ctx).lpuser

/-- The entries a lane has spilled. -/
def Team.spilledOf (m : Team) (l : Nat) : Nat := Tbl.getD m.spilled l 0

/-- The hardware return stack of a lane. -/
def Team.retsOf (m : Team) (l : Nat) : List (BitVec 56) := Tbl.getD m.rets l []

/-- The translation of a lane's spill slot. -/
def spillAsk (s : State) (i : Iss) (l n : Nat) (need : Need) : Ask :=
  { lane := l, tgt := .virt (spillAddr s i l n) false, need := need }

/-- A return address pushed in a lane; a full stack's oldest entry goes to memory (R28). -/
def pushRet (i : Iss) (ret : BitVec 56) (s : State) (l : Nat) : State :=
  match teamOf s i.b i.t with
  | none => s
  | some m =>
    let st := m.retsOf l
    if st.length < 8 then onTeam s i.b i.t (fun m => { m with rets := Tbl.put m.rets l (ret :: st) })
    else
      let n := m.spilledOf l
      let s1 := match placeOf s i.l.ctx (.virt (spillAddr s i l n) false) with
        | none => s
        | some p => writePhys s { b := none, t := i.t, counted := false } p (leBytes 8 (st.getLastD 0).toNat)
      onTeam s1 i.b i.t (fun m => { m with rets := Tbl.put m.rets l (ret :: st.dropLast), spilled := Tbl.put m.spilled l (n + 1) })

/-- Pushes in every calling lane. -/
def pushRets (i : Iss) (ret : BitVec 56) (ls : List Nat) (s : State) : State :=
  match ls with
  | [] => s
  | l :: r => pushRets i ret r (pushRet i ret s l)

/-- A call: the spill checks of every calling lane before any pushes (R285), the pushes, and the division of the split (R284). The
steps of index registers are those of a completed instruction. -/
def callLanes (i : Iss) (op : Op) (s : State) (callers : List Nat) (target : Nat → BitVec 56) : State :=
  let ret := i.next op
  let full := callers.filter (fun l => 8 ≤ (i.m.retsOf l).length)
  match full.find? (fun l => !spillFits s i (i.m.spilledOf l)) with
  | some l => i.trap s { code := 0x08, val := BitVec.ofNat 64 (spillAddr s i l (i.m.spilledOf l)) }
  | none =>
    let gs := goings [] (i.active.map (fun l => (l, if callers.contains l then target l else ret)))
    i.translated s (full.map (fun l => spillAsk s i l (i.m.spilledOf l) needW) ++ deferAsks s i gs.length) (fun s =>
      i.divide (onTeam (pushRets i ret callers s) i.b i.t (i.finish op i.lanes [] 0)) gs id)

/-- CALL.direct (R284). -/
def callDirect (op : Op) (s : State) : Out :=
  issue op [] s (fun i s => callLanes i op s (i.active.filter (branchTaken i op)) (fun _ => branchTarget i op))

/-- CALL.indirect (R284, R285). -/
def callIndirect (op : Op) (s : State) : Out :=
  issue op [] s (fun i s =>
    match i.lanes.find? (fun l => (i.a64 op l).getLsbD 0) with
    | some l => i.trap s { code := 0x06, val := i.a64 op l }
    | none =>
      match i.lanes.find? (fun l => (i.a64 op l).extractLsb' 56 8 ≠ 0) with
      | some l => i.trap s { code := 0x08, val := i.a64 op l }
      | none => callLanes i op s i.lanes (fun l => (i.a64 op l).extractLsb' 0 56))

/-- The handles a team owns, in allocation order (05 R129). -/
def ownedHandles (k : Block) (t : Nat) : List Handle := k.handles.filter (fun h => h.owner = t)

/-- The 32-bit value of a handle (05 R127). -/
def Handle.word (h : Handle) : Word := BitVec.ofNat 32 (h.serial * 65536 + h.count * 256 + h.first)

/-- Lanes retired by EXIT or RET: ACCLEAK first where the team would end owning handles (05 R129; 01 R26, R27). `rest` places the
lanes that go on. -/
def retireLanes (i : Iss) (s : State) (ls : Mask) (rest : State → State) : State :=
  if ls ≠ 0 && teamOver i.m (liveLanes i.m &&& ~~~ls) && ownedHandles i.k i.t ≠ [] then
    i.trap s { code := 0x05, leak := (ownedHandles i.k i.t).map Handle.word }
  else
    let s1 := rest (onSplit s i.b i.t i.e (fun p => if ls = 0 then p else { p with wd := s.now, wdTaken := false }))
    if ls = 0 then s1 else exitLanes s1 i.b i.t ls

/-- The front program ends by EXIT (R287, 01 R36). -/
def frontExit (i : Iss) (s : State) : State :=
  blockEndCheck (onTeam s i.b frontTeam (fun m =>
    { m with st := .ended, splits := [], asyncs := [], sig := (m.splits.map (fun c => c.2)).foldl (fun g p => g ^^^ p.sig) m.sig,
             owed := (m.splits.map (fun c => c.2)).foldl (fun g p => g ++ p.owed) m.owed })) i.b

/-- EXIT (R287). -/
def exitOp (op : Op) (s : State) : Out :=
  issue op [] s (fun i s =>
    if i.front then frontExit i s else retireLanes i s i.ex (fun s => i.advance s op))

/-- The address a lane of RET pops: from its stack, from memory, or none (R286, R28). Of a spilled word that software has rewritten, bits
[63:56] are not taken and bit 0 reads as zero, as the program counter's always is (09 R210): R286 gives no check (DESIGN CHOICE, log 128). -/
def retAddr (i : Iss) (s : State) (l : Nat) : Option (BitVec 56) :=
  match i.m.retsOf l with
  | a :: _ => some a
  | [] =>
    if i.m.spilledOf l = 0 then none
    else match placeOf s i.l.ctx (.virt (spillAddr s i l (i.m.spilledOf l - 1)) false) with
      | none => none
      | some p => some (BitVec.ofNat 56 (readPhys s Shadow.empty p 8 / 2 * 2))

/-- A lane's stacks after a pop. -/
def popRet (l : Nat) (m : Team) : Team :=
  match m.retsOf l with
  | _ :: r => { m with rets := Tbl.put m.rets l r }
  | [] => { m with spilled := Tbl.put m.spilled l (m.spilledOf l - 1) }

/-- Pops in lanes. -/
def popRets (ls : List Nat) (m : Team) : Team :=
  match ls with
  | [] => m
  | l :: r => popRets r (popRet l m)

/-- The lanes of RET that refill from memory. -/
def refillLanes (i : Iss) : List Nat := i.lanes.filter (fun l => i.m.retsOf l = [] && i.m.spilledOf l ≠ 0)

/-- The refilling lanes of RET to which the refill delivers poison (25 R470). -/
def refillDead (i : Iss) (s : State) : List Nat :=
  (refillLanes i).filter (fun l =>
    (placeOf s i.l.ctx (.virt (spillAddr s i l (i.m.spilledOf l - 1)) false)).any (fun p => poisoned s Shadow.empty p 8))

/-- Where the lanes of RET go on: those that pop at what each popped, those that do not take part at the next instruction (R286). -/
def retGoings (i : Iss) (op : Op) (addr : Nat → Option (BitVec 56)) : List Going :=
  let gone := i.lanes.filter (fun l => (addr l).isNone)
  goings [] ((i.active.filter (fun l => !gone.contains l)).map (fun l => (l, if i.lanes.contains l then (addr l).getD 0 else i.next op)))

/-- RET in the lanes that pop (R286): `addr` is what each popped. -/
def retLanes (i : Iss) (op : Op) (s : State) (addr : Nat → Option (BitVec 56)) : State :=
  let gone := i.lanes.filter (fun l => (addr l).isNone)
  let gs := retGoings i op addr
  retireLanes i s (maskOf gone) (fun s =>
    i.divide s gs (popRets (i.lanes.filter (fun l => !gone.contains l))))

/-- RET (R286). -/
def retOp (op : Op) (s : State) : Out :=
  issue op [] s (fun i s =>
    i.translated s ((refillLanes i).map (fun l => spillAsk s i l (i.m.spilledOf l - 1) needR)) (fun s =>
      let j := i.without (refillDead i s)
      i.translated s (deferAsks s i (retGoings j op (retAddr i s)).length) (fun s =>
        i.afterDeaths (refillDead i s) s (fun s1 => retLanes j op s1 (retAddr i s)))))

/-! ## Traps, breakpoints, yield (R288-R290) -/

/-- TRAP (R288): it completes, with its steps, before the handler is entered. -/
def trapOp (op : Op) (s : State) : Out :=
  issue op [2] s (fun i s =>
    takeTrap (onTeam s i.b i.t (i.finish op i.lanes [] 0)) i.b i.t i.e
      { code := 0x0B, pc := i.p.pc, res := i.next op, val := (i.av op i.leader).zeroExtend 64 } false i.xs)

/-- BKPT (R289): a debugger's stop, or the trap. -/
def bkpt (op : Op) (s : State) : Out :=
  issue op [] s (fun i s =>
    if (ctxOf s i.l.ctx).debug then debugStop (i.advance s op) i.b i.t .bkpt i.p.pc
    else takeTrap s i.b i.t i.e { code := 0x0A, pc := i.p.pc, res := i.next op } false i.xs)

/-- YIELD (R290): the split becomes the youngest. -/
def yieldOp (op : Op) (s : State) : Out := issue op [] s (fun i s => i.advance s op)

/-! ## Barriers (R291-R298) -/

/-- The barrier an instruction names: cluster barriers are 16 to 19 (R291). -/
def barNumber (op : Op) : Nat := op.o.a.toNat + (if op.o.sc.toNat = 1 then 16 else 0)

/-- The record of BARMEMB (R294). -/
def barTrap (n reason : Nat) : TrapRec := { code := 0x0E, aux := n, reason := reason }

/-- The split must wait for the current phase before it can arrive again (R292). -/
def arriveWaits (s : State) (i : Iss) (n : Nat) (q : BarMember) : Bool := i.p.mask &&& ~~~q.al = 0 || counted s i.b n q

/-- The arrival of the issuing split (R292). -/
def arriveSplit (s : State) (i : Iss) (n : Nat) (q : BarMember) : State :=
  arrivalCheck (onTeam s i.b i.t (fun m => { m with bars := Tbl.put m.bars n { q with al := q.al ||| i.p.mask } })) i.b i.t n

/-- The phase a wait is for: the current one for a split that has arrived in it, else the team's last (R293). -/
def waitPhase (s : State) (i : Iss) (n : Nat) (q : BarMember) : Option Nat :=
  if i.p.mask &&& ~~~q.al = 0 then some (barOf s i.b n).phase else q.lp

/-- The issuing split, past its instruction, waits for a phase, or goes on when it is released (R293). -/
def waitFor (s : State) (i : Iss) (op : Op) (n ph : Nat) : State :=
  let s1 := i.advance s op
  if ph < (barOf s i.b n).phase then s1 else onSplit s1 i.b i.t i.e (fun p => { p with st := .waitBar n ph })

/-- BAR.wait by a split of a member team (R293). -/
def barWait (s : State) (i : Iss) (op : Op) (n : Nat) : State :=
  match (teamOf s i.b i.t).bind (fun m => Tbl.get m.bars n) with
  | none => i.trap s (barTrap n 2)
  | some q =>
    match waitPhase s i n q with
    | none => i.trap s (barTrap n 3)
    | some ph => waitFor s i op n ph

/-- BAR (R291): minor 0 arrives, 1 waits, 2 does both. -/
def bar (op : Op) (s : State) : Out :=
  issue op [] s (fun i s =>
    let n := barNumber op
    if op.o.f.toNat = 1 then barWait s i op n
    else match Tbl.get i.m.bars n with
      | none => i.trap s (barTrap n 1)
      | some q =>
        if arriveWaits s i n q then
          onSplit s i.b i.t i.e (fun p => { p with st := .waitBar n (barOf s i.b n).phase })
        else if op.o.f.toNat = 0 then i.advance (arriveSplit s i n q) op
        else barWait (arriveSplit s i n q) i op n)

/-- The barriers of a mask, ascending (R296). -/
def maskBars (v : Word) : List Nat := (List.range 20).filter (fun n => v.getLsbD n)

/-- ATTACH, minor 0, and DETACH, minor 1 (R296). -/
def attachOp (op : Op) (s : State) : Out :=
  issue op [2] s (fun i s =>
    let v := i.av op i.leader
    if v.extractLsb' 20 12 ≠ 0 then i.trap (i.unpop s) { code := 0x01, parcel := op.parcel, field := 2 }
    else if op.o.f.toNat = 0 then i.plain op (attachAll s i.b i.t (maskBars v))
    else match (maskBars v).find? (fun n => (Tbl.get i.m.bars n).isNone) with
      | some n => i.trap s (barTrap n 4)
      | none => i.plain op (detachAll s i.b i.t (maskBars v)))

/-! ## Elastic teams (R299, R300) -/

/-- GROW (R299). -/
def growOp (op : Op) (s : State) : Out :=
  issue op [2] s (fun i s =>
    let r := growTeams (min 15 (i.av op i.leader).toNat) i.b s
    i.completeAll op r.1 (BitVec.ofNat 128 r.2))

/-- SHRQ (R300). -/
def shrq (op : Op) (s : State) : Out :=
  issue op [] s (fun i s => i.completeAll op s (BitVec.ofNat 128 ((i.k.shrink.map (fun q => q.c)).getD 0)))

/-! ## Timelines (R301-R303; 04 R103-R105) -/

/-- The value of a timeline by selector: numbered, or a block's own (04 R103). -/
def tlRead (s : State) (x : Nat) (k : Block) (sel : Nat) : Nat :=
  match sel with
  | 0x1000 => k.copyTl.v
  | 0x1001 => k.mmaTl.v
  | 0x1002 => k.mvTl.v
  | _ => tlValue s x sel

/-- A selector is reserved (04 R103). -/
def selReserved (sel : Nat) : Bool := 0x1003 ≤ sel

/-- The values d takes when TLWAIT ends: V as read, or whether it has reached n (R301). -/
def tlwaitValue (f v n : Nat) : Word := if f = 0 then BitVec.ofNat 32 v else if n ≤ v then 1 else 0

/-- TLWAIT (R301). -/
def tlwait (op : Op) (s : State) : Out :=
  issue op [2, 3] s (fun i s =>
    let sel := (i.bv op i.leader).toNat
    if selReserved sel then i.illopValue s op
    else
      let v := tlRead s i.l.ctx i.k sel
      let n := (i.a64 op i.leader).toNat
      if op.o.f.toNat = 0 && v < n then i.wait s (i.hold i.doneLanes [] [])
      else i.completeAll op s ((tlwaitValue op.o.f.toNat v n).zeroExtend 128))

/-- TLREAD (R302). -/
def tlreadOp (op : Op) (s : State) : Out :=
  issue op [3] s (fun i s =>
    let sel := (i.bv op i.leader).toNat
    if selReserved sel then i.illopValue s op else i.completeAll op s (BitVec.ofNat 128 (tlRead s i.l.ctx i.k sel)))

/-- A publication held back with the issuing block's unit (R303, 14 R327). -/
def holdPub (s : State) (i : Iss) (p : HeldPub) : State :=
  match Tbl.get s.launches i.k.launch with
  | none => s
  | some l =>
    putLaunch s i.k.launch (if l.lr.commit = 1 then { l with pubs := l.pubs ++ [(i.k.pos, p)] }
      else mapGang l i.k (fun g => { g with pubs := g.pubs ++ [(i.k.pos, p)] }))

/-- TLSIG (R303). -/
def tlsigOp (op : Op) (s : State) : Out :=
  issue op [2, 3] s (fun i s =>
    let sel := (i.bv op i.leader).toNat
    let v := (i.a64 op i.leader).toNat
    if selReserved sel then i.illopValue s op
    else if 4096 ≤ sel || tlOwner (ctxOf s i.l.ctx) sel ≠ .software then i.trap s { code := 0x08 }
    else if i.l.lr.commit = 0 then i.plain op (raiseTl s i.l.ctx sel v)
    else i.plain op (holdPub s i (.tlsig sel v)))

/-! ## Index registers (R304, R305; 02 R53) -/

/-- XSET (R304). -/
def xset (op : Op) (s : State) : Out :=
  issue op [2] s (fun i s =>
    let d := i.av op i.leader
    let n := op.o.d.toNat - 0xF8
    if d.extractLsb' 28 4 ≠ 0 || 239 < xHome d then i.illopValue s op
    else if i.m.nregs ≤ xHome d || i.m.nregs < xBase d + xBound d ||
        (xBound d ≠ 0 && xBase d ≤ xHome d && xHome d < xBase d + xBound d) then
      i.trap s { code := 0x03, aux := n, field := 2 }
    else i.plain op (onTeam s i.b i.t (fun m => { m with xr := listSet m.xr n d })))

/-- XGET (R305). -/
def xget (op : Op) (s : State) : Out :=
  issue op [] s (fun i s => i.completeAll op s ((i.xreg (op.o.a.toNat - 0xF8)).zeroExtend 128))

/-! ## Front stream (R307; 01 R35) -/

/-- A team index with a live team. -/
def liveIndex (k : Block) (t : Nat) : Bool := (liveTeams k).contains t

/-- PUSHD (R307). A full queue stalls it until there is room, or until the team ends, which discards the value (01 R35). -/
def pushd (op : Op) (s : State) : Out :=
  issue op [] s (fun i s =>
    let t := (i.bv op 0).toNat
    if i.p.line.any (fun q => q.1 = .discarded) || !liveIndex i.k t then i.plain op s
    else match Tbl.get i.k.teams t with
      | none => i.plain op s
      | some m =>
        if 16 ≤ m.dq.length then i.pauseIn s (.room t)
        else i.plain op (onTeam s i.b t (fun m => { m with dq := m.dq ++ [i.a op 0] })))

/-! ## The instructions -/

/-- BRA (R281). -/
def execBra (o : LOps) (s : State) : Out := bra (opL 0x80 o) s

/-- JOIN_W32 (R283). -/
def execJoinW32 (o : WOps) (s : State) : Out := join (opW 0x81 o) s

/-- JOIN_L64 (R283). -/
def execJoinL64 (o : LOps) (s : State) : Out := join (opL 0x81 o) s

/-- CALL (R284). -/
def execCall (o : LOps) (s : State) : Out := callDirect (opL 0x82 o) s

/-- CALL_INDIRECT_W32 (R284). -/
def execCallIndirectW32 (o : WOps) (s : State) : Out := callIndirect (opW 0x82 o) s

/-- CALL_INDIRECT_L64 (R284). -/
def execCallIndirectL64 (o : LOps) (s : State) : Out := callIndirect (opL 0x82 o) s

/-- RET_W32 (R286). -/
def execRetW32 (o : WOps) (s : State) : Out := retOp (opW 0x83 o) s

/-- RET_L64 (R286). -/
def execRetL64 (o : LOps) (s : State) : Out := retOp (opL 0x83 o) s

/-- EXIT_W32 (R287). -/
def execExitW32 (o : WOps) (s : State) : Out := exitOp (opW 0x84 o) s

/-- EXIT_L64 (R287). -/
def execExitL64 (o : LOps) (s : State) : Out := exitOp (opL 0x84 o) s

/-- BRDQ (R282). -/
def execBrdq (o : LOps) (s : State) : Out := brdq (opL 0x85 o) s

/-- TRAP_W32 (R288). -/
def execTrapW32 (o : WOps) (s : State) : Out := trapOp (opW 0x86 o) s

/-- TRAP_L64 (R288). -/
def execTrapL64 (o : LOps) (s : State) : Out := trapOp (opL 0x86 o) s

/-- BKPT_W32 (R289). -/
def execBkptW32 (o : WOps) (s : State) : Out := bkpt (opW 0x87 o) s

/-- BKPT_L64 (R289). -/
def execBkptL64 (o : LOps) (s : State) : Out := bkpt (opL 0x87 o) s

/-- YIELD_W32 (R290). -/
def execYieldW32 (o : WOps) (s : State) : Out := yieldOp (opW 0x88 o) s

/-- YIELD_L64 (R290). -/
def execYieldL64 (o : LOps) (s : State) : Out := yieldOp (opL 0x88 o) s

/-- BAR_W32 (R291). -/
def execBarW32 (o : WOps) (s : State) : Out := bar (opW 0x90 o) s

/-- BAR_L64 (R291). -/
def execBarL64 (o : LOps) (s : State) : Out := bar (opL 0x90 o) s

/-- ATTACH_W32 (R296). -/
def execAttachW32 (o : WOps) (s : State) : Out := attachOp (opW 0x91 o) s

/-- ATTACH_L64 (R296). -/
def execAttachL64 (o : LOps) (s : State) : Out := attachOp (opL 0x91 o) s

/-- DETACH_W32 (R296). -/
def execDetachW32 (o : WOps) (s : State) : Out := attachOp (opW 0x91 o) s

/-- DETACH_L64 (R296). -/
def execDetachL64 (o : LOps) (s : State) : Out := attachOp (opL 0x91 o) s

/-- GROW_W32 (R299). -/
def execGrowW32 (o : WOps) (s : State) : Out := growOp (opW 0x92 o) s

/-- GROW_L64 (R299). -/
def execGrowL64 (o : LOps) (s : State) : Out := growOp (opL 0x92 o) s

/-- SHRQ_W32 (R300). -/
def execShrqW32 (o : WOps) (s : State) : Out := shrq (opW 0x92 o) s

/-- SHRQ_L64 (R300). -/
def execShrqL64 (o : LOps) (s : State) : Out := shrq (opL 0x92 o) s

/-- TLWAIT_W32 (R301). -/
def execTlwaitW32 (o : WOps) (s : State) : Out := tlwait (opW 0x93 o) s

/-- TLWAIT_L64 (R301). -/
def execTlwaitL64 (o : LOps) (s : State) : Out := tlwait (opL 0x93 o) s

/-- TLREAD_W32 (R302). -/
def execTlreadW32 (o : WOps) (s : State) : Out := tlreadOp (opW 0x94 o) s

/-- TLREAD_L64 (R302). -/
def execTlreadL64 (o : LOps) (s : State) : Out := tlreadOp (opL 0x94 o) s

/-- TLSIG_W32 (R303). -/
def execTlsigW32 (o : WOps) (s : State) : Out := tlsigOp (opW 0x95 o) s

/-- TLSIG_L64 (R303). -/
def execTlsigL64 (o : LOps) (s : State) : Out := tlsigOp (opL 0x95 o) s

/-- XSET (R304). -/
def execXset (o : LOps) (s : State) : Out := xset (opL 0x96 o) s

/-- XGET (R305). -/
def execXget (o : LOps) (s : State) : Out := xget (opL 0x96 o) s

/-- PUSHD_W32 (R307). -/
def execPushdW32 (o : WOps) (s : State) : Out := pushd (opW 0x97 o) s

/-- PUSHD_L64 (R307). -/
def execPushdL64 (o : LOps) (s : State) : Out := pushd (opL 0x97 o) s

end Sys2Proof.Machine
end

