-- ==== Sys2Proof/Machine/Tensor.lean ====
section
/-! DEFINITION. Tensor: layout records and the bytes of a box (04 R115-R117), and reading a record at issue. -/

namespace Sys2Proof.Machine

/-! ## Layout records (R115) -/

/-- The word of a record at an offset. -/
def recWord (bs : List Byte) (off : Nat) : Nat := leNat ((bs.drop off).take 8)

/-- The fields of a layout record, for all five dimensions. -/
def parseLayout (bs : List Byte) : Layout :=
  let w := recWord bs
  { rank := bitsOf (w 0) 60 3, fmt := bitsOf (w 0) 56 4, base := bitsOf (w 0) 0 56,
    dims := [bitsOf (w 8) 0 32, bitsOf (w 8) 32 32, bitsOf (w 16) 0 32, bitsOf (w 16) 32 32, bitsOf (w 24) 0 32],
    boxs := [bitsOf (w 24) 48 16, bitsOf (w 32) 48 16, bitsOf (w 40) 48 16, bitsOf (w 48) 48 16, bitsOf (w 56) 48 16],
    strides := [0, bitsOf (w 32) 0 48, bitsOf (w 40) 0 48, bitsOf (w 48) 0 48, bitsOf (w 56) 0 48],
    oob := bitsOf (w 24) 36 2, swz := bitsOf (w 24) 32 4 }

/-- The extent of a dimension. -/
def Layout.dim (y : Layout) (k : Nat) : Nat := y.dims.getD k 0
/-- The box extent of a dimension. -/
def Layout.box (y : Layout) (k : Nat) : Nat := y.boxs.getD k 0
/-- The stride of a dimension. -/
def Layout.stride (y : Layout) (k : Nat) : Nat := y.strides.getD k 0

/-- No reserved bit of a record is set. -/
def reservedClear (bs : List Byte) : Bool := bitsOf (recWord bs 0) 63 1 = 0 && bitsOf (recWord bs 24) 38 10 = 0

/-- A dimension's fields agree with the rank; the box field is checked only with `boxes` (R115, 05 R141). -/
def dimOk (y : Layout) (boxes : Bool) (k : Nat) : Bool :=
  y.stride k % 16 = 0 &&
  (if k < y.rank then 1 ≤ y.dim k && (!boxes || 1 ≤ y.box k)
   else y.dim k = 0 && (!boxes || y.box k = 0) && y.stride k = 0)

/-- Reason 2 of R116 does not apply; without `boxes`, to no field but BOXk, OOB and SWZ (05 R141). -/
def layoutOk (bs : List Byte) (boxes : Bool) : Bool :=
  let y := parseLayout bs
  reservedClear bs && 1 ≤ y.rank && y.rank ≤ 5 && y.fmt ≤ 4 && y.base % 16 = 0 &&
  (!boxes || (y.oob ≤ 1 && y.swz ≤ 8)) && (List.range 5).all (dimOk y boxes)

/-- Half-bytes of an element. -/
def Layout.nibbles (y : Layout) : Nat := if y.fmt = 4 then 1 else 2 * 2 ^ y.fmt

/-- A box extent, one beyond the rank. -/
def Layout.ext (y : Layout) (k : Nat) : Nat := if k < y.rank then y.box k else 1

/-- Elements of the box. -/
def Layout.elems (y : Layout) : Nat := y.ext 0 * y.ext 1 * y.ext 2 * y.ext 3 * y.ext 4

/-- Bytes of the box. -/
def Layout.bytes (y : Layout) : Nat := y.elems * y.nibbles / 2

/-! ## Elements (R117) -/

/-- The box coordinates of an element by its number in the order of R117. -/
def elemIndex (y : Layout) (n : Nat) : List Nat :=
  let i0 := n % y.ext 0
  let n1 := n / y.ext 0
  let n2 := n1 / y.ext 1
  let n3 := n2 / y.ext 2
  [i0, n1 % y.ext 1, n2 % y.ext 2, n3 % y.ext 3, n3 / y.ext 3]

/-- Its coordinates in the tensor: signed. -/
def elemCoords (y : Layout) (c : List Int) (n : Nat) : List Int :=
  (List.range 5).map (fun k => (if k < y.rank then c.getD k 0 else 0) + (elemIndex y n).getD k 0)

/-- The element lies in the tensor. -/
def elemIn (y : Layout) (c : List Int) (n : Nat) : Bool :=
  (List.range y.rank).all (fun k => 0 ≤ (elemCoords y c n).getD k 0 && (elemCoords y c n).getD k 0 < y.dim k)

/-- The address of an element that lies in the tensor, in half-bytes. -/
def elemNibble (y : Layout) (c : List Int) (n : Nat) : Nat :=
  let g := elemCoords y c n
  2 * (y.base + ((List.range 4).map (fun k => (g.getD (k + 1) 0).toNat * y.stride (k + 1))).sum) + (g.getD 0 0).toNat * y.nibbles

/-- The part of a box byte, as a mask of its bits, and the address of the global byte it goes with: one element's byte, or the two
half-byte elements it packs (R115, R117). The mask is 0 for a byte with nothing in the tensor. -/
def boxByte (y : Layout) (c : List Int) (k : Nat) : Nat × Byte :=
  if y.fmt = 4 then
    let lo := elemIn y c (2 * k)
    let hi := elemIn y c (2 * k + 1)
    (if lo then elemNibble y c (2 * k) / 2 else if hi then elemNibble y c (2 * k + 1) / 2 else 0,
     (if lo then 0x0F else 0) ||| (if hi then 0xF0 else 0))
  else
    let n := 2 * k / y.nibbles
    if elemIn y c n then (elemNibble y c n / 2 + k % (y.nibbles / 2), 0xFF) else (0, 0)

/-- The fill byte (R115). -/
def Layout.fill (y : Layout) : Byte := if y.oob = 1 then 0xFF else 0

/-! ## Reading a record at issue -/

/-- Pieces of a byte range that lie each in one sector, and wholly in a map or out of it. -/
def pieces (fuel a n : Nat) : List (Nat × Nat) :=
  match fuel with
  | 0 => []
  | fuel + 1 =>
    if n = 0 then [] else (a, min n (512 - a % 512)) :: pieces fuel (a + min n (512 - a % 512)) (n - min n (512 - a % 512))

/-- The place of an engine's read in space 0: the maps are reached, as by every read of an engine (R107). -/
def recordTarget (s : State) (x a : Nat) : Target := globalTarget s x a true

/-- The bytes of a record whose pages have translated, through the issuer's shadow. -/
def readRecord (s : State) (b x a n : Nat) : List Byte :=
  match placeOf s x (recordTarget s x a) with
  | some p => (List.range n).map (readByte s (shadowOf s b) p)
  | none => List.replicate n 0

/-- A record of `n` bytes translated for reading: on a miss the split waits; a record that cannot be read is reason 1 of R116. -/
def Iss.withRecord (i : Iss) (s : State) (a n : Nat) (go : State → List Byte → State) : State :=
  let bad := fun (s : State) => i.trap s { code := 0x08, reason := 1, val := BitVec.ofNat 64 a }
  if a % 64 ≠ 0 then bad s
  else
    let ts := (List.range (n / 64)).map (fun k => recordTarget s i.l.ctx (a + 64 * k))
    let r := askAll i.l.ctx i.failedPages { s := s, bad := [], waits := [] }
      (ts.map (fun t => { lane := i.leader, tgt := t, need := needR }))
    if r.waits ≠ [] then i.wait r.s (i.hold i.doneLanes r.waits i.failedPages)
    else if r.bad ≠ [] then bad r.s
    else go r.s ((List.range (n / 64)).flatMap (fun k => readRecord r.s i.b i.l.ctx (a + 64 * k) 64))

end Sys2Proof.Machine
end

