-- ==== Sys2Proof/Machine/Copies.lean ====
section
/-! DEFINITION. Copies: the instructions that hand work to the copy engines and keep the scratchpad's allocations and full bits (14
R308-R321; 04 R110-R125). What the engines then do stands in CopyEngine. -/

namespace Sys2Proof.Machine

/-- A range of a scratchpad lies, byte by byte, in allocations of a block. -/
def spadOk (k : Block) (off n : Nat) : Bool := (List.range n).all (fun i => (allocHolding k (off + i) 1).isSome)

/-! ## CPY32 and WAITTAG (R313, R314; 04 R110-R113) -/

/-- Valid bytes of a lane. -/
def cpyCount (i : Iss) (op : Op) (l : Nat) : Nat := min (i.c op l).toNat 32

/-- A source address has no bit outside its space; a lane that reads nothing is held to no more (R71, R313). -/
def cpyBits (s : State) (i : Iss) (space ea : Nat) : Bool :=
  match space with
  | 3 => ea < 2 ^ 22
  | 4 => ea < (ctxOf s i.l.ctx).chipmb * 2 ^ 20
  | _ => ea < 2 ^ 56

/-- Where one source byte lies. -/
def cpyTarget (s : State) (i : Iss) (op : Op) (l j : Nat) : Target :=
  targetOf s i op.o.rm.toNat ((i.b64 op l).toNat + j) 1 l false false

/-- The source of a lane is inside its space (R313). -/
def cpySrcOk (s : State) (i : Iss) (op : Op) (l : Nat) : Bool :=
  cpyBits s i op.o.rm.toNat (i.b64 op l).toNat && (List.range (cpyCount i op l)).all (fun j => cpyTarget s i op l j ≠ .barred)

/-- The first check of R313 that a lane fails. -/
def cpyTrap (s : State) (i : Iss) (op : Op) : Option TrapRec :=
  match i.lanes.find? (fun l => (i.a op l).toNat % 32 ≠ 0) with
  | some l => some { code := 0x06, val := (i.a op l).zeroExtend 64 }
  | none =>
    match i.lanes.find? (fun l => (i.b64 op l).toNat % 4 ≠ 0) with
    | some l => some { code := 0x06, val := i.b64 op l }
    | none =>
      match i.lanes.find? (fun l => !spadOk i.k (i.a op l).toNat 32) with
      | some l => some { code := 0x08, val := (i.a op l).zeroExtend 64 }
      | none =>
        match i.lanes.find? (fun l => !cpySrcOk s i op l) with
        | some l => some { code := 0x08, val := i.b64 op l }
        | none => none

/-- The number of a place within its store. -/
def Phys.num (p : Phys) : Nat :=
  match p with
  | .cap n => n
  | .sys n => n
  | .spad n => n
  | .chip n => n
  | .tlmap _ n => n
  | .sbmap _ n => n

/-- A lane's copy: its destination offset, and where its 32 bytes come from. -/
def cpyLane (s : State) (i : Iss) (op : Op) (l : Nat) : Nat × List (Option Nat) :=
  ((i.a op l).toNat, (List.range 32).map (fun j =>
    if j < cpyCount i op l then (placeOf s i.l.ctx (cpyTarget s i op l j)).map Phys.num else none))

/-- Outstanding CPY32s of a tag (R112). -/
def tagCount (m : Team) (tag : Nat) : Nat := (m.copies.filter (fun c => c.tag = tag)).length

/-- CPY32 (R313): every lane's source translated, then accepted as a whole. -/
def cpy32 (op : Op) (s : State) : Out :=
  issue op [] s (fun i s =>
    match if i.passed then none else cpyTrap s i op with
    | some r => i.trap s r
    | none =>
      let asks := i.lanes.flatMap (fun l => (List.range (cpyCount i op l)).map (fun j =>
        { lane := l, tgt := cpyTarget s i op l j, need := needR }))
      i.translated s asks (fun s =>
        if 63 ≤ tagCount i.m op.o.f.toNat then i.wait s (i.hold i.doneLanes [] i.failedPages)
        else
          let c : TagCopy := { id := s.tick, tag := op.o.f.toNat, fe := op.o.sc.toNat = 1, space := op.o.rm.toNat,
                               lanes := i.lanes.map (cpyLane s i op), doneLines := [],
                               born := (i.p.held.map (fun h => h.born)).getD s.tick }
          i.plain op (onTeam s i.b i.t (fun m => { m with copies := m.copies ++ [c] }))))

/-- WAITTAG (R314). -/
def waittag (op : Op) (s : State) : Out :=
  issue op [] s (fun i s =>
    if op.o.b.toNat < tagCount i.m op.o.a.toNat then i.wait s (i.hold i.doneLanes [] []) else i.plain op s)

/-! ## Accepting an engine command (R311, R312; 04 R104) -/

/-- The issue counter of a timeline stands at its end (04 R104). -/
def tlFull (t : Timeline) : Bool := 2 ^ 64 - 1 ≤ t.n

/-- A command accepted on a timeline of the issuing block: the state, and its number. -/
def acceptCmd (s : State) (i : Iss) (sel : Nat) (o : EngOp) : State × Nat :=
  match Tbl.get s.blocks i.b with
  | none => (s, 0)
  | some k =>
    let t := blockTl k sel
    let n := t.n + 1
    (putBlock s i.b { setBlockTl k sel { t with n := n } with
      cmds := k.cmds ++ [{ tl := sel, num := n, team := i.t, op := o, doneElems := [], stalled := false, waits := [], failed := [],
                           finished := false, born := s.tick }] }, n)

/-- The instruction completes with the command's number in the leader's d (R312, R114). -/
def Iss.numbered (i : Iss) (op : Op) (r : State × Nat) : State :=
  i.done op r.1 i.lanes (i.dstWrites op.o.d i.leader (wordsOf 2 (BitVec.ofNat 128 r.2))) 0

/-! ## TCOPY (R315; 04 R114-R120) -/

/-- The register a coordinate or sealed operand k lies in (R315). -/
def coordReg (i : Iss) (op : Op) (k : Nat) : Nat := i.regNo op.o.c.toNat i.leader + k

/-- Coordinate k. -/
def coordVal (i : Iss) (op : Op) (k : Nat) : Int := (i.m.reg (coordReg i op k) i.leader).toInt

/-- A 64-bit operand of the sealed form. -/
def coord64 (i : Iss) (op : Op) (k : Nat) : DWord :=
  i.m.reg (coordReg i op (k + 1)) i.leader ++ i.m.reg (coordReg i op k) i.leader

/-- TCOPY.store.sealed. -/
def Op.sealed (op : Op) : Bool := op.o.f.toNat = 2

/-- A named coordinate register does not exist (R315). -/
def coordsMissing (i : Iss) (op : Op) (y : Layout) : Bool :=
  (List.range y.rank).any (fun k => i.m.nregs ≤ coordReg i op k) || (op.sealed && i.m.nregs ≤ coordReg i op 9)

/-- The version word lies within the bytes a sealed store writes (R116). -/
def verInside (y : Layout) (c : List Int) (a : Nat) : Bool :=
  (List.range y.bytes).any (fun k => (boxByte y c k).2 ≠ 0 && a ≤ (boxByte y c k).1 && (boxByte y c k).1 < a + 8)

/-- The first of reasons 2 to 7 of R116 that applies. -/
def tcopyReason (i : Iss) (op : Op) (bs : List Byte) (c : List Int) : Option Nat :=
  let y := parseLayout bs
  let off := (i.bv op i.leader).toNat
  if !layoutOk bs true then some 2
  else if y.box 0 * y.nibbles % 32 ≠ 0 || (y.fmt = 4 && c.getD 0 0 % 2 ≠ 0) then some 3
  else if 2 ^ 20 < y.bytes then some 4
  else match allocHolding i.k off y.bytes with
    | none => some 5
    | some a =>
      if off % 16 ≠ 0 then some 5
      else if y.swz ≠ 8 && y.swz ≠ a.span then some 6
      else if op.sealed && ((coord64 i op 8).toNat % 8 ≠ 0 || verInside y c (coord64 i op 8).toNat) then some 7
      else none

/-- The elements of a box that lie in the tensor, in the order of R117. -/
def elemsIn (y : Layout) (c : List Int) : List Nat := (List.range y.elems).filter (elemIn y c)

/-- The records of the store-stream signature of a TCOPY store: one for each element in the tensor, with the bytes that the engine wrote,
by byte of the box; for an element of 4 bits the byte that holds it (25 R474, log 13). -/
def tcopyRecords (y : Layout) (c : List Int) (wrote : Tbl Byte) : List (List Byte) :=
  let m := y.nibbles / 2
  (elemsIn y c).map (fun n =>
    let bs := if y.fmt = 4 then [Tbl.getD wrote (n / 2) 0] else (List.range m).map (fun j => Tbl.getD wrote (n * m + j) 0)
    sigRecord (elemNibble y c n / 2) bs 0)

/-- TCOPY with its record read (R315, R116). -/
def tcopyWith (i : Iss) (op : Op) (s : State) (bs : List Byte) : State :=
  let y := parseLayout bs
  let c := (List.range y.rank).map (coordVal i op)
  if coordsMissing i op y then i.illopValue s op
  else match tcopyReason i op bs c with
    | some r => i.trap s { code := 0x08, reason := r, val := i.a64 op i.leader }
    | none =>
      if tlFull i.k.copyTl then i.trap s { code := 0x08 }
      else
        let off := (i.bv op i.leader).toNat
        let store := op.o.f.toNat ≠ 0
        let o : EngOp := .tcopy store op.sealed y c off (if op.sealed then coord64 i op 6 else 0)
          (if op.sealed then (coord64 i op 8).toNat else 0)
        let r := acceptCmd s i 0x1000 o
        i.numbered op (if store then sigOwe r.1 i.b i.t i.e i.l.lr.commit r.2 (elemsIn y c).length else r.1, r.2)

/-- TCOPY (R315). -/
def tcopy (op : Op) (s : State) : Out :=
  issue op [2, 3, 4] s (fun i s => i.withRecord s (i.a64 op i.leader).toNat 64 (fun s bs => tcopyWith i op s bs))

/-! ## MCAST (R316; 04 R122-R125) -/

/-- A word of MCAST's control quad. -/
def mcastWord (i : Iss) (op : Op) (k : Nat) : Nat := ((i.srcs op.o.a i.leader 4).getD k 0).toNat

/-- The first check of R316 that fails. -/
def mcastTrap (i : Iss) (op : Op) : Option TrapRec :=
  let w := mcastWord i op
  let rec8 := (i.bv op i.leader).toNat
  let code := fun (c v : Nat) => some ({ code := c, val := BitVec.ofNat 64 v } : TrapRec)
  if 2 ^ 19 ≤ w 0 || 2 ^ 19 ≤ w 1 || 2 ^ 20 ≤ w 2 || 2 ^ 8 ≤ w 3 || w 2 < 16 || 524288 < w 2 then code 0x08 0
  else if w 0 % 16 ≠ 0 then code 0x06 (w 0)
  else if w 1 % 16 ≠ 0 then code 0x06 (w 1)
  else if w 2 % 16 ≠ 0 then code 0x06 (w 2)
  else if rec8 % 8 ≠ 0 then code 0x06 rec8
  else if !spadOk i.k (w 0) (w 2) then code 0x08 (w 0)
  else if !spadOk i.k rec8 8 then code 0x08 rec8
  else none

/-- The expected generations of cores 0 to 7 (R122). -/
def mcastGens (i : Iss) (op : Op) : List Nat :=
  (List.range 8).map (fun k => bitsOf ((i.srcs op.o.c i.leader 4).getD (k / 2) 0).toNat (16 * (k % 2)) 16)

/-- MCAST (R316). -/
def mcast (op : Op) (s : State) : Out :=
  issue op [2, 3, 4] s (fun i s =>
    match mcastTrap i op with
    | some r => i.trap s r
    | none =>
      if tlFull i.k.copyTl then i.trap s { code := 0x08 }
      else
        let w := mcastWord i op
        i.numbered op (acceptCmd s i 0x1000 (.mcast (w 0) (w 1) (w 2) (w 3) (mcastGens i op) (i.bv op i.leader).toNat [])))

/-! ## SPALLOC, SPFREE, FEMARK (R317-R321) -/

/-- A scratchpad handle (R317). -/
def Alloc.handle (a : Alloc) : Word := BitVec.ofNat 32 (a.gen * 65536 + a.span * 4096 + a.off / 128)

/-- Every allocation that stands on a core (03 R77). -/
def coreAllocs (s : State) (core : Nat) : List Alloc :=
  (s.blocks.filter (fun c => c.2.core = core && blockResident c.2)).flatMap (fun c => c.2.allocs)

/-- A run of a core's scratchpad is free. -/
def runFree (as : List Alloc) (off n : Nat) : Bool := as.all (fun a => off + n ≤ a.off || a.off + a.len ≤ off)

/-- The lowest free 128-byte-aligned run of n bytes (R318): it begins at 0 or where an allocation ends. -/
def lowestRun (as : List Alloc) (n : Nat) : Option Nat :=
  let starts := (0 :: as.map (fun a => a.off + a.len)).filter (fun o => o + n ≤ Config.spadBytes && runFree as o n)
  match starts with
  | [] => none
  | o :: r => some (r.foldl min o)

/-- Bytes of a core's scratchpad zeroed and its lines made empty (03 R78). -/
def clearSpad (s : State) (core off n : Nat) : State :=
  let a := core * Config.spadBytes + off
  { s with spad := s.spad.filter (fun c => c.1 < a || a + n ≤ c.1),
           spadPoison := healBytes s.spadPoison (fun q => a ≤ q && q < a + n),
           full := s.full.filter (fun l => l < a / 128 || (a + n) / 128 ≤ l) }

/-- An allocation made on the issuing block (R318). -/
def makeAlloc (s : State) (i : Iss) (off n span : Nat) : State × Alloc :=
  let c := coreOf s i.k.core
  let a : Alloc := { off := off, len := n, gen := c.gen, span := span, busy := false, mcast := 0, waitCmds := [], waitCopies := [] }
  let s1 := clearSpad { s with cores := Tbl.put s.cores i.k.core { c with gen := nextGen c.gen } } i.k.core off n
  match Tbl.get s1.blocks i.b with
  | none => (s1, a)
  | some k => (putBlock s1 i.b { k with allocs := k.allocs ++ [a] }, a)

/-- SPALLOC (R318). -/
def spalloc (op : Op) (s : State) : Out :=
  issue op [2, 3] s (fun i s =>
    let n := (i.a op i.leader).toNat
    let w := i.bv op i.leader
    if n < 128 || 524288 < n || n % 128 ≠ 0 || w.extractLsb' 3 29 ≠ 0 then i.trap s { code := 0x08 }
    else if 16 ≤ i.k.allocs.length then i.completeAll op s 0
    else match lowestRun (coreAllocs s i.k.core) n with
      | none => i.completeAll op s 0
      | some off =>
        let r := makeAlloc s i off n (bitsOf w.toNat 0 3)
        i.completeAll op r.1 (r.2.handle.zeroExtend 128))

/-- The commands and CPY32s of a block that a free waits for: those accepted, and the CPY32s that issued before it and wait to be accepted
(R319). -/
def busyAlloc (now : Nat) (k : Block) (a : Alloc) : Alloc :=
  { a with busy := true, freedAt := now, waitCmds := (k.cmds.filter (fun c => !c.finished)).map (fun c => (c.tl, c.num)),
           waitCopies := k.teams.flatMap (fun c => c.2.copies.map (fun q => q.id)) }

/-- SPFREE (R319): the split waits until the free takes effect. -/
def spfree (op : Op) (s : State) : Out :=
  issue op [2] s (fun i s =>
    match i.p.held.bind (fun h => h.spgen) with
    | some g =>
      if i.k.allocs.any (fun a => a.gen = g) then i.wait s { i.hold 0 [] [] with spgen := some g } else i.plain op s
    | none =>
      match i.k.allocs.find? (fun a => !a.busy && a.handle = i.a op i.leader) with
      | none => i.trap s { code := 0x08 }
      | some a =>
        let s1 := onBlock s i.b (fun k => { k with allocs := k.allocs.map (fun q => if q.gen = a.gen then busyAlloc s.tick k q else q) })
        i.wait s1 { i.hold 0 [] [] with spgen := some a.gen })

/-- Lines set full or empty (03 R78). -/
def setLines (s : State) (ls : List Nat) (fullNow : Bool) : State :=
  { s with full := if fullNow then ls.foldl insertNat s.full else s.full.filter (fun l => !ls.contains l) }

/-- FEMARK: minor 0 empty, 1 full (R321). -/
def femark (op : Op) (s : State) : Out :=
  issue op [2, 3] s (fun i s =>
    let a := (i.a op i.leader).toNat
    let n := (i.bv op i.leader).toNat
    if a % 128 ≠ 0 then i.trap s { code := 0x06, val := BitVec.ofNat 64 a }
    else if n % 128 ≠ 0 then i.trap s { code := 0x06, val := BitVec.ofNat 64 n }
    else if n = 0 then i.plain op s
    else match allocHolding i.k a n with
      | none => i.trap s { code := 0x08, val := BitVec.ofNat 64 a }
      | some _ =>
        let l0 := (i.k.core * Config.spadBytes + a) / 128
        i.plain op (setLines s ((List.range (n / 128)).map (fun k => l0 + k)) (op.o.f.toNat = 1)))

/-! ## The instructions -/

/-- CPY32 (R313). -/
def execCpy32 (o : LOps) (s : State) : Out := cpy32 (opL 0x65 o) s

/-- WAITTAG_W32 (R314). -/
def execWaittagW32 (o : WOps) (s : State) : Out := waittag (opW 0x66 o) s

/-- WAITTAG_L64 (R314). -/
def execWaittagL64 (o : LOps) (s : State) : Out := waittag (opL 0x66 o) s

/-- TCOPY (R315). -/
def execTcopy (o : LOps) (s : State) : Out := tcopy (opL 0x67 o) s

/-- MCAST (R316). -/
def execMcast (o : LOps) (s : State) : Out := mcast (opL 0x68 o) s

/-- SPALLOC_W32 (R318). -/
def execSpallocW32 (o : WOps) (s : State) : Out := spalloc (opW 0x69 o) s

/-- SPALLOC_L64 (R318). -/
def execSpallocL64 (o : LOps) (s : State) : Out := spalloc (opL 0x69 o) s

/-- SPFREE_W32 (R319). -/
def execSpfreeW32 (o : WOps) (s : State) : Out := spfree (opW 0x69 o) s

/-- SPFREE_L64 (R319). -/
def execSpfreeL64 (o : LOps) (s : State) : Out := spfree (opL 0x69 o) s

/-- FEMARK_W32 (R321). -/
def execFemarkW32 (o : WOps) (s : State) : Out := femark (opW 0x6A o) s

/-- FEMARK_L64 (R321). -/
def execFemarkL64 (o : LOps) (s : State) : Out := femark (opL 0x6A o) s

end Sys2Proof.Machine
end

