-- ==== Sys2Proof/Machine/Integer.lean ====
section
/-! DEFINITION. Integer: moves, integer arithmetic, comparison, selection, logic, shifts, bit fields and 64-bit address arithmetic
(11 R238-R244, 06 R164). -/

namespace Sys2Proof.Machine

/-- A truth value as a register (R239). -/
def boolWord (c : Bool) : Word := if c then 1 else 0

/-- MOV (R238). -/
def laneMov (i : Iss) (op : Op) (l : Nat) : LaneOut := .word (i.bv op l)

/-- An exact sum or difference stored under the saturation of a minor: 0 wraps, 1 clamps signed, 2 clamps unsigned (R238). -/
def satWord (f : Nat) (wrapped : Word) (x : Int) : LaneOut :=
  let lo : Int := if f = 1 then -2147483648 else 0
  let hi : Int := if f = 1 then 2147483647 else 4294967295
  if f = 0 then .word wrapped
  else if x < lo then .flagged (BitVec.ofInt 32 lo) fSAT
  else if hi < x then .flagged (BitVec.ofInt 32 hi) fSAT
  else .word (BitVec.ofInt 32 x)

/-- An operand as minor 1 reads it, signed, or as minors 0 and 2 do, unsigned. -/
def minorInt (f : Nat) (v : Word) : Int := if f = 1 then v.toInt else v.toNat

/-- IADD (R238). -/
def laneIadd (i : Iss) (op : Op) (l : Nat) : LaneOut :=
  let f := op.o.f.toNat
  satWord f (i.a op l + i.bv op l) (minorInt f (i.a op l) + minorInt f (i.bv op l))

/-- ISUB (R238). -/
def laneIsub (i : Iss) (op : Op) (l : Nat) : LaneOut :=
  let f := op.o.f.toNat
  satWord f (i.a op l - i.bv op l) (minorInt f (i.a op l) - minorInt f (i.bv op l))

/-- The signed product in 64 bits. -/
def mulSigned (a b : Word) : DWord := a.signExtend 64 * b.signExtend 64
/-- The unsigned product in 64 bits. -/
def mulUnsigned (a b : Word) : DWord := a.zeroExtend 64 * b.zeroExtend 64

/-- IMUL (R238). -/
def laneImul (i : Iss) (op : Op) (l : Nat) : LaneOut :=
  let a := i.a op l
  let b := i.bv op l
  match op.o.f.toNat with
  | 0 => .word (a * b)
  | 1 => .word ((mulSigned a b).extractLsb' 32 32)
  | _ => .word ((mulUnsigned a b).extractLsb' 32 32)

/-- IMAD (R238). -/
def laneImad (i : Iss) (op : Op) (l : Nat) : LaneOut :=
  let a := i.a op l
  let b := i.bv op l
  match op.o.f.toNat with
  | 0 => .word (a * b + i.c op l)
  | 1 => .dword (mulSigned a b + i.c64 op l)
  | _ => .dword (mulUnsigned a b + i.c64 op l)

/-- IDIV (R164, R238). -/
def laneIdiv (i : Iss) (op : Op) (l : Nat) : LaneOut :=
  let a := i.a op l
  let b := i.bv op l
  if b = 0 then .flagged 0xFFFFFFFF fIDZ
  else if op.o.f.toNat = 0 then .word (BitVec.ofInt 32 (Int.tdiv a.toInt b.toInt))
  else .word (BitVec.ofNat 32 (a.toNat / b.toNat))

/-- IREM (R164, R238). -/
def laneIrem (i : Iss) (op : Op) (l : Nat) : LaneOut :=
  let a := i.a op l
  let b := i.bv op l
  if b = 0 then .flagged a fIDZ
  else if op.o.f.toNat = 0 then .word (BitVec.ofInt 32 (Int.tmod a.toInt b.toInt))
  else .word (BitVec.ofNat 32 (a.toNat % b.toNat))

/-- IMIN: minor 0 signed, 2 unsigned (R238). -/
def laneImin (i : Iss) (op : Op) (l : Nat) : LaneOut :=
  let a := i.a op l
  let b := i.bv op l
  if op.o.f.toNat = 0 then .word (if a.slt b then a else b) else .word (if a.ult b then a else b)

/-- IMAX: minor 1 signed, 3 unsigned (R238). -/
def laneImax (i : Iss) (op : Op) (l : Nat) : LaneOut :=
  let a := i.a op l
  let b := i.bv op l
  if op.o.f.toNat = 1 then .word (if a.slt b then b else a) else .word (if a.ult b then b else a)

/-- The conditions of ICMP (R239). -/
def icmpHolds (f : Nat) (a b : Word) : Bool :=
  match f with
  | 0 => a == b
  | 1 => a != b
  | 2 => a.slt b
  | 3 => !b.slt a
  | 4 => b.slt a
  | 5 => !a.slt b
  | 6 => a.ult b
  | 7 => !b.ult a
  | 8 => b.ult a
  | _ => !a.ult b

/-- ICMP (R239). -/
def laneIcmp (i : Iss) (op : Op) (l : Nat) : LaneOut :=
  .word (boolWord (icmpHolds op.o.f.toNat (i.a op l) (i.bv op l)))

/-- The conditions of CMP64 (R239). -/
def cmp64Holds (f : Nat) (a b : DWord) : Bool :=
  match f with
  | 0 => a == b
  | 1 => a != b
  | 2 => a.slt b
  | 3 => a.ult b
  | 4 => !a.slt b
  | _ => !a.ult b

/-- CMP64 (R239). -/
def laneCmp64 (i : Iss) (op : Op) (l : Nat) : LaneOut :=
  .word (boolWord (cmp64Holds op.o.f.toNat (i.a64 op l) (i.b64 op l)))

/-- SEL (R239). -/
def laneSel (i : Iss) (op : Op) (l : Nat) : LaneOut :=
  .word (if (i.c op l).getLsbD 0 then i.a op l else i.bv op l)

/-- AND (R240). -/
def laneAnd (i : Iss) (op : Op) (l : Nat) : LaneOut := .word (i.a op l &&& i.bv op l)
/-- OR (R240). -/
def laneOr (i : Iss) (op : Op) (l : Nat) : LaneOut := .word (i.a op l ||| i.bv op l)
/-- XOR (R240). -/
def laneXor (i : Iss) (op : Op) (l : Nat) : LaneOut := .word (i.a op l ^^^ i.bv op l)
/-- ANDN (R240). -/
def laneAndn (i : Iss) (op : Op) (l : Nat) : LaneOut := .word (i.a op l &&& ~~~(i.bv op l))
/-- ORN (R240). -/
def laneOrn (i : Iss) (op : Op) (l : Nat) : LaneOut := .word (i.a op l ||| ~~~(i.bv op l))
/-- XNOR (R240). -/
def laneXnor (i : Iss) (op : Op) (l : Nat) : LaneOut := .word (~~~(i.a op l ^^^ i.bv op l))
/-- NOT (R240). -/
def laneNot (i : Iss) (op : Op) (l : Nat) : LaneOut := .word (~~~(i.a op l))

/-- SHL (R241). -/
def laneShl (i : Iss) (op : Op) (l : Nat) : LaneOut :=
  let n := (i.bv op l).toNat
  .word (if n < 32 then i.a op l <<< n else 0)

/-- SHRL (R241). -/
def laneShrl (i : Iss) (op : Op) (l : Nat) : LaneOut :=
  let n := (i.bv op l).toNat
  .word (if n < 32 then i.a op l >>> n else 0)

/-- SHRA (R241). -/
def laneShra (i : Iss) (op : Op) (l : Nat) : LaneOut :=
  .word ((i.a op l).sshiftRight (min (i.bv op l).toNat 31))

/-- ROTL (R241). -/
def laneRotl (i : Iss) (op : Op) (l : Nat) : LaneOut := .word ((i.a op l).rotateLeft ((i.bv op l).toNat % 32))
/-- ROTR (R241). -/
def laneRotr (i : Iss) (op : Op) (l : Nat) : LaneOut := .word ((i.a op l).rotateRight ((i.bv op l).toNat % 32))

/-- SHL64 (R241). -/
def laneShl64 (i : Iss) (op : Op) (l : Nat) : LaneOut :=
  let n := (i.bv op l).toNat
  .dword (if n < 64 then i.a64 op l <<< n else 0)

/-- SHR64 (R241). -/
def laneShr64 (i : Iss) (op : Op) (l : Nat) : LaneOut :=
  let n := (i.bv op l).toNat
  .dword (if n < 64 then i.a64 op l >>> n else 0)

/-- SHF: minor 0 right, 1 left (R241). -/
def laneShf (i : Iss) (op : Op) (l : Nat) : LaneOut :=
  let w : DWord := i.bv op l ++ i.a op l
  let n := (i.c op l).toNat
  if 64 ≤ n then .word 0
  else if op.o.f.toNat = 0 then .word ((w >>> n).extractLsb' 0 32)
  else .word ((w <<< n).extractLsb' 32 32)

/-- The length of a bit field: none beyond bit 31 (R242). -/
def fieldLen (pos len : Nat) : Nat := if 32 ≤ pos then 0 else min len (32 - pos)

/-- BFE (R242). -/
def laneBfe (i : Iss) (op : Op) (l : Nat) : LaneOut :=
  let pos := bitsOf (i.bv op l).toNat 0 8
  let n := fieldLen pos (bitsOf (i.bv op l).toNat 8 8)
  let v := (i.a op l).toNat / 2 ^ pos % 2 ^ n
  if op.o.f.toNat = 1 && 0 < n && 2 ^ (n - 1) ≤ v then .word (BitVec.ofInt 32 ((v : Int) - (2 ^ n : Nat)))
  else .word (BitVec.ofNat 32 v)

/-- BFI (R242). -/
def laneBfi (i : Iss) (op : Op) (l : Nat) : LaneOut :=
  let pos := bitsOf (i.c op l).toNat 0 8
  let n := fieldLen pos (bitsOf (i.c op l).toNat 8 8)
  let m : Word := BitVec.ofNat 32 (2 ^ n - 1) <<< pos
  .word ((i.bv op l &&& ~~~m) ||| ((i.a op l <<< pos) &&& m))

/-- The set bits of a word. -/
def popCount (v : Word) : Nat := ((List.range 32).filter (fun j => v.getLsbD j)).length
/-- The leading zeros of a word. -/
def leadingZeros (v : Word) : Nat := ((List.range 32).takeWhile (fun j => !v.getLsbD (31 - j))).length
/-- The trailing zeros of a word. -/
def trailingZeros (v : Word) : Nat := ((List.range 32).takeWhile (fun j => !v.getLsbD j)).length

/-- POPC (R243). -/
def lanePopc (i : Iss) (op : Op) (l : Nat) : LaneOut := .word (BitVec.ofNat 32 (popCount (i.a op l)))
/-- CLZ (R243). -/
def laneClz (i : Iss) (op : Op) (l : Nat) : LaneOut := .word (BitVec.ofNat 32 (leadingZeros (i.a op l)))
/-- CTZ (R243). -/
def laneCtz (i : Iss) (op : Op) (l : Nat) : LaneOut := .word (BitVec.ofNat 32 (trailingZeros (i.a op l)))
/-- BREV (R243). -/
def laneBrev (i : Iss) (op : Op) (l : Nat) : LaneOut := .word (i.a op l).reverse

/-- IABS (R238). -/
def laneIabs (i : Iss) (op : Op) (l : Nat) : LaneOut :=
  .word (if (i.a op l).msb then -(i.a op l) else i.a op l)
/-- INEG (R238). -/
def laneIneg (i : Iss) (op : Op) (l : Nat) : LaneOut := .word (-(i.a op l))

/-- ADD64 (R244). -/
def laneAdd64 (i : Iss) (op : Op) (l : Nat) : LaneOut := .dword (i.a64 op l + i.b64 op l)
/-- SUB64 (R244). -/
def laneSub64 (i : Iss) (op : Op) (l : Nat) : LaneOut := .dword (i.a64 op l - i.b64 op l)
/-- LEA (R244). -/
def laneLea (i : Iss) (op : Op) (l : Nat) : LaneOut :=
  .dword (i.a64 op l + ((i.bv op l).signExtend 64 <<< op.o.f.toNat))

/-- One byte of BYSEL under its control byte (R243). -/
def byselByte (w : DWord) (t : Byte) : Byte :=
  let s : Byte := (w >>> (8 * bitsOf t.toNat 0 3)).extractLsb' 0 8
  match bitsOf t.toNat 3 2 with
  | 0 => s
  | 1 => s.reverse
  | 2 => if s.msb then 0xFF else 0
  | _ => 0

/-- BYSEL (R243). -/
def laneBysel (i : Iss) (op : Op) (l : Nat) : LaneOut :=
  let w : DWord := i.bv op l ++ i.a op l
  let t := fun (j : Nat) => byselByte w ((i.c op l).extractLsb' (8 * j) 8)
  .word (t 3 ++ t 2 ++ t 1 ++ t 0)

/-- A byte of a word as minor 0 reads it, signed, or minor 1, unsigned (R238). -/
def dotByte (f : Nat) (v : Word) (j : Nat) : Word :=
  let b : Byte := v.extractLsb' (8 * j) 8
  if f = 0 then b.signExtend 32 else b.zeroExtend 32

/-- IDOT4 (R238). -/
def laneIdot4 (i : Iss) (op : Op) (l : Nat) : LaneOut :=
  let f := op.o.f.toNat
  let p := fun (j : Nat) => dotByte f (i.a op l) j * dotByte f (i.bv op l) j
  .word (i.c op l + p 0 + p 1 + p 2 + p 3)

/-! ## The instructions -/

/-- NOP_C16 (R214). -/
def execNopC16 (o : COps) (s : State) : Out := issue (opC 15 o) [] s (fun i s => i.plain (opC 15 o) s)

/-- NOP_W32 (R238). -/
def execNopW32 (o : WOps) (s : State) : Out := issue (opW 0x00 o) [] s (fun i s => i.plain (opW 0x00 o) s)

/-- NOP_L64 (R238). -/
def execNopL64 (o : LOps) (s : State) : Out := issue (opL 0x00 o) [] s (fun i s => i.plain (opL 0x00 o) s)

/-- MOV_C16 (R214). -/
def execMovC16 (o : COps) (s : State) : Out := laneOp (opC 0 o) s laneMov

/-- MOV_W32 (R238). -/
def execMovW32 (o : WOps) (s : State) : Out := laneOp (opW 0x01 o) s laneMov

/-- MOV_L64 (R238). -/
def execMovL64 (o : LOps) (s : State) : Out := laneOp (opL 0x01 o) s laneMov

/-- IADD_C16 (R214). -/
def execIaddC16 (o : COps) (s : State) : Out := laneOp (opC 1 o) s laneIadd

/-- IADD_W32 (R238). -/
def execIaddW32 (o : WOps) (s : State) : Out := laneOp (opW 0x02 o) s laneIadd

/-- IADD_L64 (R238). -/
def execIaddL64 (o : LOps) (s : State) : Out := laneOp (opL 0x02 o) s laneIadd

/-- ISUB_C16 (R214). -/
def execIsubC16 (o : COps) (s : State) : Out := laneOp (opC 2 o) s laneIsub

/-- ISUB_W32 (R238). -/
def execIsubW32 (o : WOps) (s : State) : Out := laneOp (opW 0x03 o) s laneIsub

/-- ISUB_L64 (R238). -/
def execIsubL64 (o : LOps) (s : State) : Out := laneOp (opL 0x03 o) s laneIsub

/-- IMUL_C16 (R214). -/
def execImulC16 (o : COps) (s : State) : Out := laneOp (opC 3 o) s laneImul

/-- IMUL_W32 (R238). -/
def execImulW32 (o : WOps) (s : State) : Out := laneOp (opW 0x04 o) s laneImul

/-- IMUL_L64 (R238). -/
def execImulL64 (o : LOps) (s : State) : Out := laneOp (opL 0x04 o) s laneImul

/-- IMAD (R238). -/
def execImad (o : LOps) (s : State) : Out := laneOp (opL 0x05 o) s laneImad

/-- IDIV_W32 (R238). -/
def execIdivW32 (o : WOps) (s : State) : Out := laneOp (opW 0x06 o) s laneIdiv

/-- IDIV_L64 (R238). -/
def execIdivL64 (o : LOps) (s : State) : Out := laneOp (opL 0x06 o) s laneIdiv

/-- IREM_W32 (R238). -/
def execIremW32 (o : WOps) (s : State) : Out := laneOp (opW 0x07 o) s laneIrem

/-- IREM_L64 (R238). -/
def execIremL64 (o : LOps) (s : State) : Out := laneOp (opL 0x07 o) s laneIrem

/-- IMIN_W32 (R238). -/
def execIminW32 (o : WOps) (s : State) : Out := laneOp (opW 0x08 o) s laneImin

/-- IMIN_L64 (R238). -/
def execIminL64 (o : LOps) (s : State) : Out := laneOp (opL 0x08 o) s laneImin

/-- IMAX_W32 (R238). -/
def execImaxW32 (o : WOps) (s : State) : Out := laneOp (opW 0x08 o) s laneImax

/-- IMAX_L64 (R238). -/
def execImaxL64 (o : LOps) (s : State) : Out := laneOp (opL 0x08 o) s laneImax

/-- ICMP_W32 (R239). -/
def execIcmpW32 (o : WOps) (s : State) : Out := laneOp (opW 0x09 o) s laneIcmp

/-- ICMP_L64 (R239). -/
def execIcmpL64 (o : LOps) (s : State) : Out := laneOp (opL 0x09 o) s laneIcmp

/-- SEL (R239). -/
def execSel (o : LOps) (s : State) : Out := laneOp (opL 0x0A o) s laneSel

/-- AND_C16 (R214). -/
def execAndC16 (o : COps) (s : State) : Out := laneOp (opC 4 o) s laneAnd

/-- AND_W32 (R240). -/
def execAndW32 (o : WOps) (s : State) : Out := laneOp (opW 0x0B o) s laneAnd

/-- AND_L64 (R240). -/
def execAndL64 (o : LOps) (s : State) : Out := laneOp (opL 0x0B o) s laneAnd

/-- OR_C16 (R214). -/
def execOrC16 (o : COps) (s : State) : Out := laneOp (opC 5 o) s laneOr

/-- OR_W32 (R240). -/
def execOrW32 (o : WOps) (s : State) : Out := laneOp (opW 0x0B o) s laneOr

/-- OR_L64 (R240). -/
def execOrL64 (o : LOps) (s : State) : Out := laneOp (opL 0x0B o) s laneOr

/-- XOR_C16 (R214). -/
def execXorC16 (o : COps) (s : State) : Out := laneOp (opC 6 o) s laneXor

/-- XOR_W32 (R240). -/
def execXorW32 (o : WOps) (s : State) : Out := laneOp (opW 0x0B o) s laneXor

/-- XOR_L64 (R240). -/
def execXorL64 (o : LOps) (s : State) : Out := laneOp (opL 0x0B o) s laneXor

/-- ANDN_W32 (R240). -/
def execAndnW32 (o : WOps) (s : State) : Out := laneOp (opW 0x0B o) s laneAndn

/-- ANDN_L64 (R240). -/
def execAndnL64 (o : LOps) (s : State) : Out := laneOp (opL 0x0B o) s laneAndn

/-- ORN_W32 (R240). -/
def execOrnW32 (o : WOps) (s : State) : Out := laneOp (opW 0x0B o) s laneOrn

/-- ORN_L64 (R240). -/
def execOrnL64 (o : LOps) (s : State) : Out := laneOp (opL 0x0B o) s laneOrn

/-- XNOR_W32 (R240). -/
def execXnorW32 (o : WOps) (s : State) : Out := laneOp (opW 0x0B o) s laneXnor

/-- XNOR_L64 (R240). -/
def execXnorL64 (o : LOps) (s : State) : Out := laneOp (opL 0x0B o) s laneXnor

/-- NOT_W32 (R240). -/
def execNotW32 (o : WOps) (s : State) : Out := laneOp (opW 0x0B o) s laneNot

/-- NOT_L64 (R240). -/
def execNotL64 (o : LOps) (s : State) : Out := laneOp (opL 0x0B o) s laneNot

/-- SHL_C16 (R214). -/
def execShlC16 (o : COps) (s : State) : Out := laneOp (opC 7 o) s laneShl

/-- SHL_W32 (R241). -/
def execShlW32 (o : WOps) (s : State) : Out := laneOp (opW 0x0C o) s laneShl

/-- SHL_L64 (R241). -/
def execShlL64 (o : LOps) (s : State) : Out := laneOp (opL 0x0C o) s laneShl

/-- SHRL_C16 (R214). -/
def execShrlC16 (o : COps) (s : State) : Out := laneOp (opC 8 o) s laneShrl

/-- SHRL_W32 (R241). -/
def execShrlW32 (o : WOps) (s : State) : Out := laneOp (opW 0x0C o) s laneShrl

/-- SHRL_L64 (R241). -/
def execShrlL64 (o : LOps) (s : State) : Out := laneOp (opL 0x0C o) s laneShrl

/-- SHRA_C16 (R214). -/
def execShraC16 (o : COps) (s : State) : Out := laneOp (opC 9 o) s laneShra

/-- SHRA_W32 (R241). -/
def execShraW32 (o : WOps) (s : State) : Out := laneOp (opW 0x0C o) s laneShra

/-- SHRA_L64 (R241). -/
def execShraL64 (o : LOps) (s : State) : Out := laneOp (opL 0x0C o) s laneShra

/-- ROTL_W32 (R241). -/
def execRotlW32 (o : WOps) (s : State) : Out := laneOp (opW 0x0C o) s laneRotl

/-- ROTL_L64 (R241). -/
def execRotlL64 (o : LOps) (s : State) : Out := laneOp (opL 0x0C o) s laneRotl

/-- ROTR_W32 (R241). -/
def execRotrW32 (o : WOps) (s : State) : Out := laneOp (opW 0x0C o) s laneRotr

/-- ROTR_L64 (R241). -/
def execRotrL64 (o : LOps) (s : State) : Out := laneOp (opL 0x0C o) s laneRotr

/-- SHF (R241). -/
def execShf (o : LOps) (s : State) : Out := laneOp (opL 0x0D o) s laneShf

/-- BFE_W32 (R242). -/
def execBfeW32 (o : WOps) (s : State) : Out := laneOp (opW 0x0E o) s laneBfe

/-- BFE_L64 (R242). -/
def execBfeL64 (o : LOps) (s : State) : Out := laneOp (opL 0x0E o) s laneBfe

/-- BFI (R242). -/
def execBfi (o : LOps) (s : State) : Out := laneOp (opL 0x0F o) s laneBfi

/-- POPC_W32 (R243). -/
def execPopcW32 (o : WOps) (s : State) : Out := laneOp (opW 0x10 o) s lanePopc

/-- POPC_L64 (R243). -/
def execPopcL64 (o : LOps) (s : State) : Out := laneOp (opL 0x10 o) s lanePopc

/-- CLZ_W32 (R243). -/
def execClzW32 (o : WOps) (s : State) : Out := laneOp (opW 0x10 o) s laneClz

/-- CLZ_L64 (R243). -/
def execClzL64 (o : LOps) (s : State) : Out := laneOp (opL 0x10 o) s laneClz

/-- CTZ_W32 (R243). -/
def execCtzW32 (o : WOps) (s : State) : Out := laneOp (opW 0x10 o) s laneCtz

/-- CTZ_L64 (R243). -/
def execCtzL64 (o : LOps) (s : State) : Out := laneOp (opL 0x10 o) s laneCtz

/-- BREV_W32 (R243). -/
def execBrevW32 (o : WOps) (s : State) : Out := laneOp (opW 0x10 o) s laneBrev

/-- BREV_L64 (R243). -/
def execBrevL64 (o : LOps) (s : State) : Out := laneOp (opL 0x10 o) s laneBrev

/-- IABS_W32 (R238). -/
def execIabsW32 (o : WOps) (s : State) : Out := laneOp (opW 0x11 o) s laneIabs

/-- IABS_L64 (R238). -/
def execIabsL64 (o : LOps) (s : State) : Out := laneOp (opL 0x11 o) s laneIabs

/-- INEG_W32 (R238). -/
def execInegW32 (o : WOps) (s : State) : Out := laneOp (opW 0x11 o) s laneIneg

/-- INEG_L64 (R238). -/
def execInegL64 (o : LOps) (s : State) : Out := laneOp (opL 0x11 o) s laneIneg

/-- ADD64_W32 (R244). -/
def execAdd64W32 (o : WOps) (s : State) : Out := laneOp (opW 0x12 o) s laneAdd64

/-- ADD64_L64 (R244). -/
def execAdd64L64 (o : LOps) (s : State) : Out := laneOp (opL 0x12 o) s laneAdd64

/-- SUB64_W32 (R244). -/
def execSub64W32 (o : WOps) (s : State) : Out := laneOp (opW 0x12 o) s laneSub64

/-- SUB64_L64 (R244). -/
def execSub64L64 (o : LOps) (s : State) : Out := laneOp (opL 0x12 o) s laneSub64

/-- LEA_W32 (R244). -/
def execLeaW32 (o : WOps) (s : State) : Out := laneOp (opW 0x13 o) s laneLea

/-- LEA_L64 (R244). -/
def execLeaL64 (o : LOps) (s : State) : Out := laneOp (opL 0x13 o) s laneLea

/-- SHL64_W32 (R241). -/
def execShl64W32 (o : WOps) (s : State) : Out := laneOp (opW 0x14 o) s laneShl64

/-- SHL64_L64 (R241). -/
def execShl64L64 (o : LOps) (s : State) : Out := laneOp (opL 0x14 o) s laneShl64

/-- SHR64_W32 (R241). -/
def execShr64W32 (o : WOps) (s : State) : Out := laneOp (opW 0x14 o) s laneShr64

/-- SHR64_L64 (R241). -/
def execShr64L64 (o : LOps) (s : State) : Out := laneOp (opL 0x14 o) s laneShr64

/-- CMP64_W32 (R239). -/
def execCmp64W32 (o : WOps) (s : State) : Out := laneOp (opW 0x15 o) s laneCmp64

/-- CMP64_L64 (R239). -/
def execCmp64L64 (o : LOps) (s : State) : Out := laneOp (opL 0x15 o) s laneCmp64

/-- BYSEL (R243). -/
def execBysel (o : LOps) (s : State) : Out := laneOp (opL 0x16 o) s laneBysel

/-- IDOT4 (R238). -/
def execIdot4 (o : LOps) (s : State) : Out := laneOp (opL 0x17 o) s laneIdot4

end Sys2Proof.Machine
end

