-- ==== Sys2Proof/Machine/Number.lean ====
section
/-! DEFINITION. Number: the floating formats (06 R147-R152), exact dyadic numbers, and one rounding to a format (R153-R155). -/

namespace Sys2Proof.Machine

/-- A floating format: exponent bits, fraction bits, bias, exponent of the largest finite value, its significand (R147). -/
structure Fmt where
  ebits : Nat
  fbits : Nat
  bias : Int
  emax : Int
  maxMant : Nat
deriving DecidableEq, Repr

/-- FP32. -/
def fp32 : Fmt := ⟨8, 23, 127, 127, 0xFFFFFF⟩
/-- FP16. -/
def fp16 : Fmt := ⟨5, 10, 15, 15, 0x7FF⟩
/-- BF16. -/
def bf16 : Fmt := ⟨8, 7, 127, 127, 0xFF⟩
/-- E5M2. -/
def e5m2 : Fmt := ⟨5, 2, 15, 15, 7⟩
/-- E4M3: its all-ones exponent is a normal one but for 0b111 (R148). -/
def e4m3 : Fmt := ⟨4, 3, 7, 8, 14⟩
/-- E2M1. -/
def e2m1 : Fmt := ⟨2, 1, 1, 2, 3⟩
/-- S24, without a sign (R161). -/
def s24 : Fmt := ⟨8, 16, 127, 127, 0x1FFFF⟩

/-- The exponent of the smallest normal value. -/
def Fmt.emin (f : Fmt) : Int := 1 - f.bias
/-- The sign bit as a number. -/
def Fmt.signBit (f : Fmt) : Nat := 2 ^ (f.ebits + f.fbits)
/-- The code of +infinity in a format that has one. -/
def Fmt.infCode (f : Fmt) : Nat := (2 ^ f.ebits - 1) * 2 ^ f.fbits
/-- The code of the largest finite value. -/
def Fmt.maxCode (f : Fmt) : Nat := (f.emax + f.bias).toNat * 2 ^ f.fbits + f.maxMant - 2 ^ f.fbits
/-- The canonical NaN of a format with infinities (R150). -/
def Fmt.nanCode (f : Fmt) : Nat := f.infCode + 2 ^ (f.fbits - 1)

/-- A value: a NaN, signalling or not; an infinity; or the dyadic (-1)^s * m * 2^e. -/
inductive FVal where
  | nan (signalling : Bool)
  | inf (s : Bool)
  | fin (s : Bool) (m : Nat) (e : Int)
deriving DecidableEq, Repr

/-- The finite value of an exponent field and a fraction (R148). -/
def finOf (f : Fmt) (s : Bool) (be fr : Nat) : FVal :=
  if be = 0 then .fin s fr (f.emin - f.fbits) else .fin s (2 ^ f.fbits + fr) ((be : Int) - f.bias - f.fbits)

/-- The value of a code of a format with infinities (R147, R148, R150). -/
def decodeIeee (f : Fmt) (v : Nat) : FVal :=
  let s := bitsOf v (f.ebits + f.fbits) 1 = 1
  let be := bitsOf v f.fbits f.ebits
  let fr := bitsOf v 0 f.fbits
  if be = 2 ^ f.ebits - 1 then (if fr = 0 then .inf s else .nan (fr < 2 ^ (f.fbits - 1))) else finOf f s be fr

/-- The value of an E4M3 code: 0x7F and 0xFF are NaN, quiet (R147, R150). -/
def decodeE4m3 (v : Nat) : FVal :=
  if bitsOf v 0 7 = 0x7F then .nan false else finOf e4m3 (bitsOf v 7 1 = 1) (bitsOf v 3 4) (bitsOf v 0 3)

/-- The value of an E2M1 code (R148). -/
def decodeE2m1 (v : Nat) : FVal := finOf e2m1 (bitsOf v 3 1 = 1) (bitsOf v 1 2) (bitsOf v 0 1)

/-- The value of an FP32 register. -/
def f32 (w : Word) : FVal := decodeIeee fp32 w.toNat

/-- A value is a signalling NaN. -/
def FVal.sig (v : FVal) : Bool := v = .nan true
/-- A value is a NaN. -/
def FVal.isNan (v : FVal) : Bool :=
  match v with
  | .nan _ => true
  | _ => false
/-- A value is a zero. -/
def FVal.isZero (v : FVal) : Bool :=
  match v with
  | .fin _ m _ => m = 0
  | _ => false

/-- The part of `m` below 2^sh, and the units above, with whether the part is below, at or above one half: 0 exact, 1 below, 2 half,
3 above. A sticky rest lies strictly below the lowest bit of `m`. -/
def splitAtBit (m sh : Nat) (sticky : Bool) : Nat × Nat :=
  if Nat.log2 m + 2 < sh then (0, if m = 0 && !sticky then 0 else 1)
  else
    let r := m % 2 ^ sh
    let h := 2 ^ sh
    (m / h, if r = 0 && !sticky then 0 else if 2 * r < h then 1 else if 2 * r = h && !sticky then 2 else 3)

/-- Units rounded by a remainder class under rm, for a sign (R153). -/
def roundUnits (rm : Nat) (s : Bool) (n cls : Nat) : Nat :=
  match rm with
  | 0 => if cls = 3 || (cls = 2 && n % 2 = 1) then n + 1 else n
  | 1 => n
  | 2 => if s && cls ≠ 0 then n + 1 else n
  | _ => if !s && cls ≠ 0 then n + 1 else n

/-- The magnitude m * 2^e, with a sticky rest, as rounded units of 2^q, and whether exact. -/
def unitsAt (rm : Nat) (s : Bool) (m : Nat) (e q : Int) (sticky : Bool) : Nat × Bool :=
  if q ≤ e then (m * 2 ^ (e - q).toNat, !sticky)
  else
    let r := splitAtBit m (q - e).toNat sticky
    (roundUnits rm s r.1 r.2, r.2 = 0)

/-- A magnitude rounded to a format. -/
structure Rounded where
  ovf : Bool
  code : Nat
  same : Bool
  tiny : Bool
deriving DecidableEq, Repr

/-- The exact magnitude m * 2^e, with a sticky rest, rounded once to a format (R154). -/
def roundMag (f : Fmt) (rm : Nat) (s : Bool) (m : Nat) (e : Int) (sticky : Bool) : Rounded :=
  if m = 0 then { ovf := false, code := if sticky && ((rm = 2 && s) || (rm = 3 && !s)) then 1 else 0, same := !sticky, tiny := sticky }
  else
    let ex : Int := (Nat.log2 m : Int) + e
    let full := unitsAt rm s m e (ex - f.fbits) sticky
    let carry := full.1 = 2 ^ (f.fbits + 1)
    let ex1 := if carry then ex + 1 else ex
    let mant := if carry then 2 ^ f.fbits else full.1
    let ovf := f.emax < ex1 || (ex1 = f.emax && f.maxMant < mant)
    let d := if ex < f.emin then unitsAt rm s m e (f.emin - f.fbits) sticky else full
    let q := if ex < f.emin then f.emin - f.fbits else ex - f.fbits
    { ovf := ovf, same := d.2, tiny := ex1 < f.emin,
      code := if d.1 < 2 ^ f.fbits then d.1 else (q + f.fbits + f.bias).toNat * 2 ^ f.fbits + d.1 - 2 ^ f.fbits }

/-- A code with its flags. -/
structure FOut where
  code : Nat
  fl : BitVec 8
deriving DecidableEq, Repr

/-- A code that raises nothing. -/
def FOut.clean (c : Nat) : FOut := { code := c, fl := 0 }

/-- A magnitude with a sign. -/
def Fmt.signed (f : Fmt) (s : Bool) (c : Nat) : Nat := if s then f.signBit + c else c

/-- UF and NX of a delivered result (R155). -/
def smallFlags (r : Rounded) : BitVec 8 := flagIf (r.tiny && !r.same) fUF ||| flagIf (!r.same) fNX

/-- The delivered value of an overflow is an infinity (R154). -/
def overInf (rm : Nat) (s : Bool) : Bool := rm = 0 || (rm = 2 && s) || (rm = 3 && !s)

/-- An exact magnitude rounded and delivered in a format with infinities (R154, R155). -/
def deliver (f : Fmt) (rm : Nat) (s : Bool) (m : Nat) (e : Int) (sticky : Bool) : FOut :=
  let r := roundMag f rm s m e sticky
  if r.ovf then { code := f.signed s (if overInf rm s then f.infCode else f.maxCode), fl := fOF ||| fNX }
  else { code := f.signed s r.code, fl := smallFlags r }

/-- The canonical NaN, with NV when the condition holds. -/
def nanOut (f : Fmt) (nv : Bool) : FOut := { code := f.nanCode, fl := flagIf nv fNV }

/-! ## Sums and products -/

/-- The signed integer of a term at an exponent no higher than its own. -/
def termAt (q : Int) (t : Bool × Nat × Int) : Int :=
  let v : Int := ((t.2.1 * 2 ^ (t.2.2 - q).toNat : Nat) : Int)
  if t.1 then -v else v

/-- The sum of signed dyadic terms, delivered; an exact zero takes the terms' common sign, else + or, under .rd, - (R245). -/
def deliverSum (f : Fmt) (rm : Nat) (ts : List (Bool × Nat × Int)) : FOut :=
  let nz := ts.filter (fun t => t.2.1 ≠ 0)
  let q := nz.foldl (fun q t => min q t.2.2) ((nz.head?.map (fun t => t.2.2)).getD 0)
  let v := nz.foldl (fun v t => v + termAt q t) 0
  if v = 0 then
    .clean (f.signed (if ts.all (fun t => t.1) then true else if ts.all (fun t => !t.1) then false else rm = 2) 0)
  else deliver f rm (v < 0) v.natAbs q false

/-- A sum of values rounded once: NaN operands; infinities of both signs; else the infinity or the exact sum. `nv` is raised and NaN
delivered when an operand before the sum was already invalid (R155, R245). -/
def addVals (f : Fmt) (rm : Nat) (nv : Bool) (vs : List FVal) : FOut :=
  if nv then nanOut f true
  else if vs.any FVal.isNan then nanOut f false
  else if vs.contains (.inf true) && vs.contains (.inf false) then nanOut f true
  else if vs.contains (.inf true) then .clean (f.signed true f.infCode)
  else if vs.contains (.inf false) then .clean f.infCode
  else deliverSum f rm (vs.filterMap (fun v => match v with
    | .fin s m e => some (s, m, e)
    | _ => none))

/-- An exact product: none for 0 times infinity. -/
def mulVals (a b : FVal) : Option FVal :=
  match a, b with
  | .nan _, _ => some (.nan false)
  | _, .nan _ => some (.nan false)
  | .inf s, .inf t => some (.inf (s != t))
  | .inf s, .fin t m _ => if m = 0 then none else some (.inf (s != t))
  | .fin s m _, .inf t => if m = 0 then none else some (.inf (s != t))
  | .fin s m e, .fin t n g => some (.fin (s != t) (m * n) (e + g))

/-- A value with its sign inverted. -/
def FVal.neg (v : FVal) : FVal :=
  match v with
  | .inf s => .inf (!s)
  | .fin s m e => .fin (!s) m e
  | n => n

/-- a + b (R245). -/
def fAdd (f : Fmt) (rm : Nat) (a b : FVal) : FOut := addVals f rm (a.sig || b.sig) [a, b]
/-- a - b. -/
def fSub (f : Fmt) (rm : Nat) (a b : FVal) : FOut := addVals f rm (a.sig || b.sig) [a, b.neg]

/-- a * b (R245). -/
def fMul (f : Fmt) (rm : Nat) (a b : FVal) : FOut :=
  match mulVals a b with
  | none => nanOut f true
  | some (.nan _) => nanOut f (a.sig || b.sig)
  | some (.inf s) => .clean (f.signed s f.infCode)
  | some (.fin s m e) => deliver f rm s m e false

/-- The sum of products and addends, with one rounding; 0 times infinity is invalid whatever the rest (R245, R249). -/
def fDot (f : Fmt) (rm : Nat) (ps : List (FVal × FVal)) (c : FVal) : FOut :=
  let prods := ps.map (fun p => mulVals p.1 p.2)
  let nv := c.sig || ps.any (fun p => p.1.sig || p.2.sig) || prods.any (fun p => p.isNone)
  addVals f rm nv (prods.filterMap id ++ [c])

/-- a / b (R249, R155). -/
def fDiv (f : Fmt) (rm : Nat) (a b : FVal) : FOut :=
  match a, b with
  | .nan _, _ => nanOut f (a.sig || b.sig)
  | _, .nan _ => nanOut f (a.sig || b.sig)
  | .inf _, .inf _ => nanOut f true
  | .inf s, .fin t _ _ => .clean (f.signed (s != t) f.infCode)
  | .fin s _ _, .inf t => .clean (f.signed (s != t) 0)
  | .fin s m e, .fin t n g =>
    if n = 0 then (if m = 0 then nanOut f true else { code := f.signed (s != t) f.infCode, fl := fDZ })
    else if m = 0 then .clean (f.signed (s != t) 0)
    else
      let k := 64 + Nat.log2 n
      deliver f rm (s != t) (m * 2 ^ k / n) (e - g - (k : Int)) (m * 2 ^ k % n ≠ 0)

/-- The integer square root, bit by bit from 2^(k - 1) down. -/
def isqrtFrom (x : Nat) (k r : Nat) : Nat :=
  match k with
  | 0 => r
  | k + 1 => isqrtFrom x k (if (r + 2 ^ k) * (r + 2 ^ k) ≤ x then r + 2 ^ k else r)

/-- The integer square root. -/
def isqrt (x : Nat) : Nat := isqrtFrom x (Nat.log2 x / 2 + 1) 0

/-- The square root of m * 2^e as a truncated significand and exponent, and whether it is exact. -/
def sqrtMag (m : Nat) (e : Int) : Nat × Int × Bool :=
  let sh : Nat := if e % 2 = 0 then 128 else 129
  let x := m * 2 ^ sh
  let r := isqrt x
  (r, (e - (sh : Int)) / 2, r * r = x)

/-- The square root (R249). -/
def fSqrt (f : Fmt) (rm : Nat) (a : FVal) : FOut :=
  match a with
  | .nan _ => nanOut f a.sig
  | .inf s => if s then nanOut f true else .clean f.infCode
  | .fin s m e =>
    if m = 0 then .clean (f.signed s 0)
    else if s then nanOut f true
    else
      let r := sqrtMag m e
      deliver f rm false r.1 r.2.1 (!r.2.2)

/-! ## Comparison -/

/-- The order of two values that are no NaN: a is less than b, with -0 below +0 only when asked (R246, R247). -/
def fLess (zeros : Bool) (a b : FVal) : Bool :=
  match a, b with
  | .nan _, _ => false
  | _, .nan _ => false
  | .inf s, .inf t => s && !t
  | .inf s, .fin _ _ _ => s
  | .fin _ _ _, .inf t => !t
  | .fin s m e, .fin t n g =>
    if m = 0 && n = 0 then zeros && s && !t
    else
      let q := min e g
      termAt q (s, m, e) < termAt q (t, n, g)

/-- FMIN, FMAX and their NaN-propagating forms: `greater` and `prop` (R246). -/
def fMinMax (greater prop : Bool) (a b : Word) : FOut :=
  let x := f32 a
  let y := f32 b
  let fl := flagIf (x.sig || y.sig) fNV
  if x.isNan && y.isNan then { code := fp32.nanCode, fl := fl }
  else if x.isNan then { code := if prop then fp32.nanCode else b.toNat, fl := fl }
  else if y.isNan then { code := if prop then fp32.nanCode else a.toNat, fl := fl }
  else .clean ((if fLess true x y != greater then a else b).toNat)

end Sys2Proof.Machine
end

