-- ==== Sys2Proof/Machine/Float.lean ====
section
/-! DEFINITION. Float: floating-point arithmetic of a lane (11 R245-R249). -/

namespace Sys2Proof.Machine

/-- An FP32 result. -/
def FOut.lane (r : FOut) : LaneOut := .flagged (BitVec.ofNat 32 r.code) r.fl

/-- The half h (0 low, 1 high) of a word, as a value of a 16-bit format. -/
def halfVal (f : Fmt) (w : Word) (h : Nat) : FVal := decodeIeee f (bitsOf w.toNat (16 * h) 16)

/-- Two halves in one word, with the flags of both (R156). -/
def packHalves (lo hi : FOut) : LaneOut := .flagged (BitVec.ofNat 32 (hi.code * 65536 + lo.code)) (lo.fl ||| hi.fl)

/-- An operation of two operands under the type of a minor: 0 FP32, 1 two FP16 halves, 2 two BF16 halves (R245). -/
def typed2 (i : Iss) (op : Op) (l : Nat) (g : Fmt → Nat → FVal → FVal → FOut) : LaneOut :=
  let a := i.a op l
  let b := i.bv op l
  let rm := op.o.rm.toNat
  let halves := fun (f : Fmt) =>
    packHalves (g f rm (halfVal f a 0) (halfVal f b 0)) (g f rm (halfVal f a 1) (halfVal f b 1))
  match op.o.f.toNat with
  | 0 => (g fp32 rm (f32 a) (f32 b)).lane
  | 1 => halves fp16
  | _ => halves bf16

/-- FADD (R245). -/
def laneFadd (i : Iss) (op : Op) (l : Nat) : LaneOut := typed2 i op l fAdd
/-- FSUB (R245). -/
def laneFsub (i : Iss) (op : Op) (l : Nat) : LaneOut := typed2 i op l fSub
/-- FMUL (R245). -/
def laneFmul (i : Iss) (op : Op) (l : Nat) : LaneOut := typed2 i op l fMul

/-- FFMA (R245). -/
def laneFfma (i : Iss) (op : Op) (l : Nat) : LaneOut :=
  let a := i.a op l
  let b := i.bv op l
  let c := i.c op l
  let rm := op.o.rm.toNat
  let half := fun (f : Fmt) (h : Nat) => fDot f rm [(halfVal f a h, halfVal f b h)] (halfVal f c h)
  match op.o.f.toNat with
  | 0 => (fDot fp32 rm [(f32 a, f32 b)] (f32 c)).lane
  | 1 => packHalves (half fp16 0) (half fp16 1)
  | _ => packHalves (half bf16 0) (half bf16 1)

/-- FMIN (R246). -/
def laneFmin (i : Iss) (op : Op) (l : Nat) : LaneOut := (fMinMax false false (i.a op l) (i.bv op l)).lane
/-- FMAX (R246). -/
def laneFmax (i : Iss) (op : Op) (l : Nat) : LaneOut := (fMinMax true false (i.a op l) (i.bv op l)).lane
/-- FMINP (R246). -/
def laneFminp (i : Iss) (op : Op) (l : Nat) : LaneOut := (fMinMax false true (i.a op l) (i.bv op l)).lane
/-- FMAXP (R246). -/
def laneFmaxp (i : Iss) (op : Op) (l : Nat) : LaneOut := (fMinMax true true (i.a op l) (i.bv op l)).lane

/-- The relations of FCMP (R247). -/
def fcmpHolds (f : Nat) (x y : FVal) : Bool :=
  let un := x.isNan || y.isNan
  let lt := fLess false x y
  let gt := fLess false y x
  match f with
  | 0 => !un && !lt && !gt
  | 1 => un || lt || gt
  | 2 => lt
  | 3 => !un && !gt
  | 4 => gt
  | 5 => !un && !lt
  | 6 => un
  | _ => !un

/-- FCMP (R247). -/
def laneFcmp (i : Iss) (op : Op) (l : Nat) : LaneOut :=
  let f := op.o.f.toNat
  let x := f32 (i.a op l)
  let y := f32 (i.bv op l)
  let nv := x.sig || y.sig || (2 ≤ f && f ≤ 5 && (x.isNan || y.isNan))
  .flagged (boolWord (fcmpHolds f x y)) (flagIf nv fNV)

/-- FABS (R248). -/
def laneFabs (i : Iss) (op : Op) (l : Nat) : LaneOut := .word (i.a op l &&& 0x7FFFFFFF)
/-- FNEG (R248). -/
def laneFneg (i : Iss) (op : Op) (l : Nat) : LaneOut := .word (i.a op l ^^^ 0x80000000)
/-- FCPYS (R248). -/
def laneFcpys (i : Iss) (op : Op) (l : Nat) : LaneOut :=
  .word ((i.a op l &&& 0x7FFFFFFF) ||| (i.bv op l &&& 0x80000000))

/-- FDIV (R249). -/
def laneFdiv (i : Iss) (op : Op) (l : Nat) : LaneOut :=
  (fDiv fp32 op.o.rm.toNat (f32 (i.a op l)) (f32 (i.bv op l))).lane
/-- FSQRT (R249). -/
def laneFsqrt (i : Iss) (op : Op) (l : Nat) : LaneOut := (fSqrt fp32 op.o.rm.toNat (f32 (i.a op l))).lane

/-- The class of a value (R249). -/
def fclassBit (w : Word) : Nat :=
  match f32 w with
  | .nan true => 0
  | .nan false => 1
  | .inf s => if s then 9 else 2
  | .fin s m _ =>
    if m = 0 then (if s then 6 else 5)
    else if m < 2 ^ 23 then (if s then 7 else 4)
    else (if s then 8 else 3)

/-- FCLASS (R249). -/
def laneFclass (i : Iss) (op : Op) (l : Nat) : LaneOut := .word (1 <<< fclassBit (i.a op l))

/-- FRND (R249). -/
def laneFrnd (i : Iss) (op : Op) (l : Nat) : LaneOut :=
  let a := i.a op l
  match f32 a with
  | .nan g => (nanOut fp32 g).lane
  | .inf _ => .word a
  | .fin s m e =>
    let u := unitsAt op.o.rm.toNat s m e 0 false
    if 0 ≤ e then .word a
    else .flagged (BitVec.ofNat 32 (fp32.signed s (roundMag fp32 0 s u.1 0 false).code)) (flagIf (!u.2) fNX)

/-- FSCALE (R249). -/
def laneFscale (i : Iss) (op : Op) (l : Nat) : LaneOut :=
  let a := i.a op l
  match f32 a with
  | .nan g => (nanOut fp32 g).lane
  | .inf _ => .word a
  | .fin s m e => if m = 0 then .word a else (deliver fp32 op.o.rm.toNat s m (e + (i.bv op l).toInt) false).lane

/-- FDOT2: minor 0 BF16, 1 FP16 (R249). -/
def laneFdot2 (i : Iss) (op : Op) (l : Nat) : LaneOut :=
  let f := if op.o.f.toNat = 0 then bf16 else fp16
  let a := i.a op l
  let b := i.bv op l
  (fDot fp32 op.o.rm.toNat [(halfVal f a 0, halfVal f b 0), (halfVal f a 1, halfVal f b 1)] (f32 (i.c op l))).lane

/-! ## The instructions -/

/-- FADD_C16 (R214). -/
def execFaddC16 (o : COps) (s : State) : Out := laneOp (opC 10 o) s laneFadd

/-- FADD_W32 (R245). -/
def execFaddW32 (o : WOps) (s : State) : Out := laneOp (opW 0x20 o) s laneFadd

/-- FADD_L64 (R245). -/
def execFaddL64 (o : LOps) (s : State) : Out := laneOp (opL 0x20 o) s laneFadd

/-- FSUB_C16 (R214). -/
def execFsubC16 (o : COps) (s : State) : Out := laneOp (opC 11 o) s laneFsub

/-- FSUB_W32 (R245). -/
def execFsubW32 (o : WOps) (s : State) : Out := laneOp (opW 0x21 o) s laneFsub

/-- FSUB_L64 (R245). -/
def execFsubL64 (o : LOps) (s : State) : Out := laneOp (opL 0x21 o) s laneFsub

/-- FMUL_C16 (R214). -/
def execFmulC16 (o : COps) (s : State) : Out := laneOp (opC 12 o) s laneFmul

/-- FMUL_W32 (R245). -/
def execFmulW32 (o : WOps) (s : State) : Out := laneOp (opW 0x22 o) s laneFmul

/-- FMUL_L64 (R245). -/
def execFmulL64 (o : LOps) (s : State) : Out := laneOp (opL 0x22 o) s laneFmul

/-- FFMA (R245). -/
def execFfma (o : LOps) (s : State) : Out := laneOp (opL 0x23 o) s laneFfma

/-- FMIN_C16 (R214). -/
def execFminC16 (o : COps) (s : State) : Out := laneOp (opC 14 o) s laneFmin

/-- FMIN_W32 (R246). -/
def execFminW32 (o : WOps) (s : State) : Out := laneOp (opW 0x24 o) s laneFmin

/-- FMIN_L64 (R246). -/
def execFminL64 (o : LOps) (s : State) : Out := laneOp (opL 0x24 o) s laneFmin

/-- FMAX_C16 (R214). -/
def execFmaxC16 (o : COps) (s : State) : Out := laneOp (opC 13 o) s laneFmax

/-- FMAX_W32 (R246). -/
def execFmaxW32 (o : WOps) (s : State) : Out := laneOp (opW 0x24 o) s laneFmax

/-- FMAX_L64 (R246). -/
def execFmaxL64 (o : LOps) (s : State) : Out := laneOp (opL 0x24 o) s laneFmax

/-- FMINP_W32 (R246). -/
def execFminpW32 (o : WOps) (s : State) : Out := laneOp (opW 0x24 o) s laneFminp

/-- FMINP_L64 (R246). -/
def execFminpL64 (o : LOps) (s : State) : Out := laneOp (opL 0x24 o) s laneFminp

/-- FMAXP_W32 (R246). -/
def execFmaxpW32 (o : WOps) (s : State) : Out := laneOp (opW 0x24 o) s laneFmaxp

/-- FMAXP_L64 (R246). -/
def execFmaxpL64 (o : LOps) (s : State) : Out := laneOp (opL 0x24 o) s laneFmaxp

/-- FCMP_W32 (R247). -/
def execFcmpW32 (o : WOps) (s : State) : Out := laneOp (opW 0x25 o) s laneFcmp

/-- FCMP_L64 (R247). -/
def execFcmpL64 (o : LOps) (s : State) : Out := laneOp (opL 0x25 o) s laneFcmp

/-- FABS_W32 (R248). -/
def execFabsW32 (o : WOps) (s : State) : Out := laneOp (opW 0x26 o) s laneFabs

/-- FABS_L64 (R248). -/
def execFabsL64 (o : LOps) (s : State) : Out := laneOp (opL 0x26 o) s laneFabs

/-- FNEG_W32 (R248). -/
def execFnegW32 (o : WOps) (s : State) : Out := laneOp (opW 0x26 o) s laneFneg

/-- FNEG_L64 (R248). -/
def execFnegL64 (o : LOps) (s : State) : Out := laneOp (opL 0x26 o) s laneFneg

/-- FCPYS_W32 (R248). -/
def execFcpysW32 (o : WOps) (s : State) : Out := laneOp (opW 0x26 o) s laneFcpys

/-- FCPYS_L64 (R248). -/
def execFcpysL64 (o : LOps) (s : State) : Out := laneOp (opL 0x26 o) s laneFcpys

/-- FDIV_W32 (R249). -/
def execFdivW32 (o : WOps) (s : State) : Out := laneOp (opW 0x27 o) s laneFdiv

/-- FDIV_L64 (R249). -/
def execFdivL64 (o : LOps) (s : State) : Out := laneOp (opL 0x27 o) s laneFdiv

/-- FSQRT_W32 (R249). -/
def execFsqrtW32 (o : WOps) (s : State) : Out := laneOp (opW 0x28 o) s laneFsqrt

/-- FSQRT_L64 (R249). -/
def execFsqrtL64 (o : LOps) (s : State) : Out := laneOp (opL 0x28 o) s laneFsqrt

/-- FCLASS_W32 (R249). -/
def execFclassW32 (o : WOps) (s : State) : Out := laneOp (opW 0x29 o) s laneFclass

/-- FCLASS_L64 (R249). -/
def execFclassL64 (o : LOps) (s : State) : Out := laneOp (opL 0x29 o) s laneFclass

/-- FRND_W32 (R249). -/
def execFrndW32 (o : WOps) (s : State) : Out := laneOp (opW 0x2A o) s laneFrnd

/-- FRND_L64 (R249). -/
def execFrndL64 (o : LOps) (s : State) : Out := laneOp (opL 0x2A o) s laneFrnd

/-- FSCALE_W32 (R249). -/
def execFscaleW32 (o : WOps) (s : State) : Out := laneOp (opW 0x2B o) s laneFscale

/-- FSCALE_L64 (R249). -/
def execFscaleL64 (o : LOps) (s : State) : Out := laneOp (opL 0x2B o) s laneFscale

/-- FDOT2 (R249). -/
def execFdot2 (o : LOps) (s : State) : Out := laneOp (opL 0x2C o) s laneFdot2

end Sys2Proof.Machine
end

