-- ==== Sys2Proof/Machine/Convert.lean ====
section
/-! DEFINITION. Convert: conversions between formats, packing, block scales and BQ8 (06 R158-R166; 11 R250-R254). -/

namespace Sys2Proof.Machine

/-! ## Scalar conversions -/

/-- The form of a narrow destination: how it answers NaN, infinity and overflow (R158). -/
inductive Narrow where
  | ieee
  | e4
  | e2
deriving DecidableEq, Repr

/-- FP32 to a narrow format (R158). -/
def toNarrow (k : Narrow) (f : Fmt) (rm : Nat) (sat : Bool) (v : FVal) : FOut :=
  match v with
  | .nan g => match k with
    | .ieee => nanOut f g
    | .e4 => { code := 0x7F, fl := flagIf g fNV }
    | .e2 => { code := 0, fl := fNV }
  | .inf s => match k with
    | .ieee => if sat then { code := f.signed s f.maxCode, fl := fSAT } else .clean (f.signed s f.infCode)
    | .e4 => if sat then { code := f.signed s f.maxCode, fl := fSAT } else { code := 0x7F, fl := fNV }
    | .e2 => { code := f.signed s f.maxCode, fl := fSAT }
  | .fin s m e =>
    let r := roundMag f rm s m e false
    if !r.ovf then { code := f.signed s r.code, fl := smallFlags r }
    else match k with
      | .ieee => if sat then { code := f.signed s f.maxCode, fl := fSAT ||| fNX } else deliver f rm s m e false
      | .e4 => if sat then { code := f.signed s f.maxCode, fl := fSAT ||| fNX }
               else { code := if overInf rm s then 0x7F else f.signed s f.maxCode, fl := fOF ||| fNX }
      | .e2 => { code := f.signed s f.maxCode, fl := fSAT ||| fNX }

/-- A finite value or NaN of a narrower format as FP32, exactly; a NaN is the canonical one (R151, R250, R251). -/
def toF32 (v : FVal) : FOut :=
  match v with
  | .nan g => nanOut fp32 g
  | .inf s => .clean (fp32.signed s fp32.infCode)
  | .fin s m e => .clean (fp32.signed s (roundMag fp32 0 s m e false).code)

/-- An integer to FP32 (R159). -/
def intToF32 (rm : Nat) (x : Int) : FOut := deliver fp32 rm (x < 0) x.natAbs 0 false

/-- FP32 to a 32-bit integer of a range (R159). -/
def f32ToInt (rm : Nat) (lo hi : Int) (v : FVal) : FOut :=
  let put := fun (x : Int) => (BitVec.ofInt 32 x).toNat
  match v with
  | .nan _ => { code := 0, fl := fNV }
  | .inf s => { code := put (if s then lo else hi), fl := fNV ||| fSAT }
  | .fin s m e =>
    if 64 ≤ e && m ≠ 0 then { code := put (if s then lo else hi), fl := fNV ||| fSAT }
    else
      let u := unitsAt rm s m e 0 false
      let x : Int := if s then -(u.1 : Int) else u.1
      if x < lo then { code := put lo, fl := fNV ||| fSAT }
      else if hi < x then { code := put hi, fl := fNV ||| fSAT }
      else { code := put x, fl := flagIf (!u.2) fNX }

/-- FP32 to E8M0 (R160). -/
def f32ToE8m0 (rm : Nat) (sat : Bool) (v : FVal) : FOut :=
  match v with
  | .nan g => { code := 0xFF, fl := flagIf g fNV }
  | .inf _ => { code := 0xFF, fl := fNV }
  | .fin _ m e =>
    if m = 0 then { code := 0, fl := fUF ||| fNX }
    else
      let k := Nat.log2 m
      let up : Bool := (rm = 0 && 3 * 2 ^ k ≤ 2 * m) || (rm = 3 && m ≠ 2 ^ k)
      let p : Int := (k : Int) + e + (if up then 1 else 0)
      if 127 < p then (if sat then { code := 0xFE, fl := fSAT ||| fNX } else { code := 0xFF, fl := fOF ||| fNX })
      else if p < -127 then { code := 0, fl := fUF ||| fNX }
      else { code := (p + 127).toNat, fl := flagIf (m ≠ 2 ^ k) fNX }

/-- E8M0 to FP32 (R160). -/
def e8m0ToF32 (v : Nat) : FOut :=
  if v = 0xFF then .clean fp32.nanCode else .clean (roundMag fp32 0 false 1 ((v : Int) - 127) false).code

/-- The value of an S24 code, none for poison and reserved codes (R161). -/
def s24Val (v : Nat) : Option FVal :=
  let be := bitsOf v 16 8
  if be = 255 then none else some (finOf s24 false be (bitsOf v 0 16))

/-- S24 to FP32 (R162). -/
def s24ToF32 (v : Nat) : FOut :=
  match s24Val v with
  | none => { code := fp32.nanCode, fl := fPSN }
  | some x => toF32 x

/-- Poison (R161). -/
def s24Poison : Nat := 0xFFFFFF

/-- FP32 to S24 (R162). -/
def f32ToS24 (rm : Nat) (v : FVal) : FOut :=
  match v with
  | .nan _ => { code := s24Poison, fl := fNV }
  | .inf _ => { code := s24Poison, fl := fNV }
  | .fin s m e =>
    if m = 0 then .clean 0
    else if s then { code := s24Poison, fl := fNV }
    else
      let r := roundMag s24 rm false m e false
      if r.ovf then { code := s24.maxCode, fl := fOF ||| fNX ||| fSAT } else { code := r.code, fl := smallFlags r }

/-- A conversion of two sources into halves (R250). -/
def cvtPair (f : Fmt) (rm : Nat) (sat : Bool) (a b : Word) : LaneOut :=
  packHalves (toNarrow .ieee f rm sat (f32 a)) (toNarrow .ieee f rm sat (f32 b))

/-- CVT (R250). -/
def laneCvt (i : Iss) (op : Op) (l : Nat) : LaneOut :=
  let a := i.a op l
  let rm := op.o.rm.toNat
  let sat := op.o.sc.toNat = 1
  match op.o.f.toNat with
  | 0 => (intToF32 rm a.toInt).lane
  | 1 => (intToF32 rm a.toNat).lane
  | 2 => (f32ToInt rm (-2147483648) 2147483647 (f32 a)).lane
  | 3 => (f32ToInt rm 0 4294967295 (f32 a)).lane
  | 4 => (toF32 (halfVal bf16 a 0)).lane
  | 5 => (toNarrow .ieee bf16 rm sat (f32 a)).lane
  | 6 => (toF32 (halfVal fp16 a 0)).lane
  | 7 => (toNarrow .ieee fp16 rm sat (f32 a)).lane
  | 8 => (s24ToF32 (bitsOf a.toNat 0 24)).lane
  | 9 => (f32ToS24 rm (f32 a)).lane
  | 10 => cvtPair bf16 rm sat a (i.bv op l)
  | 11 => cvtPair fp16 rm sat a (i.bv op l)
  | 12 => (e8m0ToF32 (bitsOf a.toNat 0 8)).lane
  | _ => (f32ToE8m0 rm sat (f32 a)).lane

/-! ## Packing (R251) -/

/-- The lanes of a group that execute. -/
def Iss.inGroup (i : Iss) (g n l : Nat) : Bool := l / n = g && hasLane i.ex l

/-- A word built from the elements of a lane's group: `n` elements of `w` bits, 0 for lanes that do not execute. -/
def packGroup (i : Iss) (n w l : Nat) (el : Nat → FOut) : Word :=
  BitVec.ofNat 32 ((List.range n).foldl (fun v j =>
    let k := l / n * n + j
    if hasLane i.ex k then v + (el k).code * 2 ^ (w * j) else v) 0)

/-- The element PACK8 makes of a lane: minor 0 E4M3, 1 E5M2. -/
def pack8Elem (i : Iss) (op : Op) (l : Nat) : FOut :=
  let sat := op.o.sc.toNat = 1
  if op.o.f.toNat = 0 then toNarrow .e4 e4m3 op.o.rm.toNat sat (f32 (i.a op l))
  else toNarrow .ieee e5m2 op.o.rm.toNat sat (f32 (i.a op l))

/-- PACK8 (R251). -/
def lanePack8 (i : Iss) (op : Op) (l : Nat) : LaneOut :=
  .flagged (packGroup i 4 8 l (pack8Elem i op)) (pack8Elem i op l).fl

/-- The element PACK4 makes of a lane. -/
def pack4Elem (i : Iss) (op : Op) (l : Nat) : FOut := toNarrow .e2 e2m1 op.o.rm.toNat true (f32 (i.a op l))

/-- PACK4 (R251). -/
def lanePack4 (i : Iss) (op : Op) (l : Nat) : LaneOut :=
  .flagged (packGroup i 8 4 l (pack4Elem i op)) (pack4Elem i op l).fl

/-- UNPK8: minor 2 E4M3, 3 E5M2 (R251). -/
def laneUnpk8 (i : Iss) (op : Op) (l : Nat) : LaneOut :=
  let v := bitsOf (i.a op l).toNat (8 * (l % 4)) 8
  (toF32 (if op.o.f.toNat = 2 then decodeE4m3 v else decodeIeee e5m2 v)).lane

/-- UNPK4 (R251). -/
def laneUnpk4 (i : Iss) (op : Op) (l : Nat) : LaneOut :=
  (toF32 (decodeE2m1 (bitsOf (i.a op l).toNat (4 * (l % 8)) 4))).lane

/-! ## Block scales -/

/-- A value has no finite magnitude. -/
def FVal.special (v : FVal) : Bool :=
  match v with
  | .fin _ _ _ => false
  | _ => true

/-- The greater of two magnitudes, as significand and exponent. -/
def maxMag (a b : Nat × Int) : Nat × Int :=
  if a.1 = 0 then b
  else if b.1 = 0 then a
  else
    let q := min a.2 b.2
    if a.1 * 2 ^ (a.2 - q).toNat < b.1 * 2 ^ (b.2 - q).toNat then b else a

/-- The magnitude of a finite value. -/
def FVal.mag (v : FVal) : Nat × Int :=
  match v with
  | .fin _ m e => (m, e)
  | _ => (0, 0)

/-- The values the executing lanes of a lane's group hold. -/
def groupVals (i : Iss) (op : Op) (n l : Nat) : List FVal :=
  (i.lanes.filter (fun k => k / n = l / n)).map (fun k => f32 (i.a op k))

/-- An MX scale of a group's values for a format of exponent emax; under .ru the logarithm is rounded up (R163, R252). -/
def mxScale (emax : Int) (up : Bool) (vs : List FVal) : Nat :=
  if vs.any FVal.special then 0xFF
  else
    let a := vs.foldl (fun m v => maxMag m v.mag) (0, 0)
    if a.1 = 0 then 0x7F
    else
      let k := Nat.log2 a.1
      let g : Int := (k : Int) + a.2 + (if up && a.1 ≠ 2 ^ k then 1 else 0)
      let s := g - emax + 127
      if s < 0 then 0 else if 254 < s then 254 else s.toNat

/-- MXSCAL (R252). -/
def laneMxscal (i : Iss) (op : Op) (l : Nat) : LaneOut :=
  let vs := groupVals i op 32 l
  let up := op.o.rm.toNat = 3
  .flagged (BitVec.ofNat 32 (mxScale 2 up vs * 65536 + mxScale 15 up vs * 256 + mxScale 8 up vs))
    (flagIf (f32 (i.a op l)).special fNV)

/-! ## BQ8 (R165, R166, R253) -/

/-- A magnitude divided by a number, truncated to many bits, with whether it is inexact. -/
def divMag (a : Nat × Int) (d : Nat) : Nat × Int × Bool :=
  (a.1 * 2 ^ 80 / d, a.2 - 80, a.1 * 2 ^ 80 % d ≠ 0)

/-- The S24 code nearest a magnitude, ties to even, with no flag (R166). -/
def nearestS24 (m : Nat) (e : Int) (sticky : Bool) : Nat :=
  let r := roundMag s24 0 false m e sticky
  if r.ovf then s24.maxCode else r.code

/-- The scale of a BQ8.lin group: amax / 127. -/
def bqLinScale (vs : List FVal) : Nat :=
  if vs.any FVal.special then s24Poison
  else
    let d := divMag (vs.foldl (fun m v => maxMag m v.mag) (0, 0)) 127
    nearestS24 d.1 d.2.1 d.2.2

/-- A .root input: a negative one counts as zero (R166). -/
def rootMag (v : FVal) : Nat × Int :=
  match v with
  | .fin s m e => if s then (0, 0) else (m, e)
  | _ => (0, 0)

/-- The scale of a BQ8.root group: the square root of the greatest, over 255. -/
def bqRootScale (vs : List FVal) : Nat :=
  if vs.any FVal.special then s24Poison
  else
    let a := vs.foldl (fun m v => maxMag m (rootMag v)) (0, 0)
    if a.1 = 0 then 0
    else
      let r := sqrtMag a.1 a.2
      let d := divMag (r.1, r.2.1) 255
      nearestS24 d.1 d.2.1 (d.2.2 || !r.2.2)

/-- A negative non-zero finite value. -/
def FVal.negative (v : FVal) : Bool :=
  match v with
  | .fin s m _ => s && m ≠ 0
  | _ => false

/-- BQSCAL: minor 0 .lin, 1 .root (R253). -/
def laneBqscal (i : Iss) (op : Op) (l : Nat) : LaneOut :=
  let vs := groupVals i op 64 l
  let x := f32 (i.a op l)
  if op.o.f.toNat = 0 then .flagged (BitVec.ofNat 32 (bqLinScale vs)) (flagIf x.special fNV)
  else .flagged (BitVec.ofNat 32 (bqRootScale vs)) (flagIf (x.special || x.negative) fNV)

/-- The integer nearest a quotient of naturals, ties to even. -/
def nearestQuot (p q : Nat) : Nat :=
  let n := p / q
  let r := p % q
  if q < 2 * r || (2 * r = q && n % 2 = 1) then n + 1 else n

/-- The integer nearest the square root of a quotient of naturals, ties to even. -/
def nearestRoot (p q : Nat) : Nat :=
  let n := isqrt (p / q)
  let t := (2 * n + 1) * (2 * n + 1) * q
  if t < 4 * p || (4 * p = t && n % 2 = 1) then n + 1 else n

/-- Two magnitudes as naturals over one unit. -/
def commonUnit (a b : Nat × Int) : Nat × Nat :=
  let q := min a.2 b.2
  (a.1 * 2 ^ (a.2 - q).toNat, b.1 * 2 ^ (b.2 - q).toNat)

/-- The BQ8.lin code of a value under a scale (R166, R253). -/
def bqEncLin (v : FVal) (s : Nat × Int) : FOut :=
  match v with
  | .fin g m e =>
    let u := commonUnit (m, e) s
    let n := nearestQuot u.1 u.2
    let c := min n 127
    { code := (BitVec.ofInt 8 (if g then -(c : Int) else c)).toNat, fl := flagIf (127 < n) fSAT }
  | _ => { code := 0, fl := fNV }

/-- The BQ8.root code of a value under a scale. -/
def bqEncRoot (v : FVal) (s : Nat × Int) : FOut :=
  match v with
  | .fin g m e =>
    if g then { code := 0, fl := flagIf (m ≠ 0) fNV }
    else
      let u := commonUnit (m, e) (s.1 * s.1, 2 * s.2)
      let n := nearestRoot u.1 u.2
      { code := min n 255, fl := flagIf (255 < n) fSAT }
  | _ => { code := 0, fl := fNV }

/-- BQENC: minor 2 .lin, 3 .root; a zero, poison or reserved scale writes code 0 and raises nothing (R253). -/
def laneBqenc (i : Iss) (op : Op) (l : Nat) : LaneOut :=
  match s24Val (bitsOf (i.bv op l).toNat 0 24) with
  | none => .word 0
  | some v =>
    if v.isZero then .word 0
    else if op.o.f.toNat = 2 then (bqEncLin (f32 (i.a op l)) v.mag).lane
    else (bqEncRoot (f32 (i.a op l)) v.mag).lane

/-- Flags without UF and NX (R253). -/
def dropSmall (r : FOut) : FOut := { r with fl := r.fl &&& ~~~(fUF ||| fNX) }

/-- A BQ8 code decoded under a scale (R166). -/
def bqDec (root : Bool) (code : Nat) (s : Nat × Int) : FOut :=
  if root then
    let t := deliver fp32 0 false (code * s.1) s.2 false
    let v := decodeIeee fp32 t.code
    let r := fMul fp32 0 v v
    { r with fl := r.fl ||| t.fl }
  else
    let c : Int := if code = 128 then -127 else (BitVec.ofNat 8 code).toInt
    deliver fp32 0 (c < 0 && s.1 ≠ 0) (c.natAbs * s.1) s.2 false

/-- BQDEC: minor 4 .lin, 5 .root (R253). -/
def laneBqdec (i : Iss) (op : Op) (l : Nat) : LaneOut :=
  match s24Val (bitsOf (i.bv op l).toNat 0 24) with
  | none => .flagged (BitVec.ofNat 32 fp32.nanCode) fPSN
  | some v => (dropSmall (bqDec (op.o.f.toNat = 5) (bitsOf (i.a op l).toNat 0 8) v.mag)).lane

/-! ## The instructions -/

/-- CVT_W32 (R250). -/
def execCvtW32 (o : WOps) (s : State) : Out := laneOp (opW 0x40 o) s laneCvt

/-- CVT_L64 (R250). -/
def execCvtL64 (o : LOps) (s : State) : Out := laneOp (opL 0x40 o) s laneCvt

/-- PACK8_W32 (R251). -/
def execPack8W32 (o : WOps) (s : State) : Out := laneOp (opW 0x41 o) s lanePack8

/-- PACK8_L64 (R251). -/
def execPack8L64 (o : LOps) (s : State) : Out := laneOp (opL 0x41 o) s lanePack8

/-- UNPK8_W32 (R251). -/
def execUnpk8W32 (o : WOps) (s : State) : Out := laneOp (opW 0x41 o) s laneUnpk8

/-- UNPK8_L64 (R251). -/
def execUnpk8L64 (o : LOps) (s : State) : Out := laneOp (opL 0x41 o) s laneUnpk8

/-- PACK4_W32 (R251). -/
def execPack4W32 (o : WOps) (s : State) : Out := laneOp (opW 0x42 o) s lanePack4

/-- PACK4_L64 (R251). -/
def execPack4L64 (o : LOps) (s : State) : Out := laneOp (opL 0x42 o) s lanePack4

/-- UNPK4_W32 (R251). -/
def execUnpk4W32 (o : WOps) (s : State) : Out := laneOp (opW 0x42 o) s laneUnpk4

/-- UNPK4_L64 (R251). -/
def execUnpk4L64 (o : LOps) (s : State) : Out := laneOp (opL 0x42 o) s laneUnpk4

/-- BQSCAL_W32 (R253). -/
def execBqscalW32 (o : WOps) (s : State) : Out := laneOp (opW 0x43 o) s laneBqscal

/-- BQSCAL_L64 (R253). -/
def execBqscalL64 (o : LOps) (s : State) : Out := laneOp (opL 0x43 o) s laneBqscal

/-- BQENC_W32 (R253). -/
def execBqencW32 (o : WOps) (s : State) : Out := laneOp (opW 0x43 o) s laneBqenc

/-- BQENC_L64 (R253). -/
def execBqencL64 (o : LOps) (s : State) : Out := laneOp (opL 0x43 o) s laneBqenc

/-- BQDEC_W32 (R253). -/
def execBqdecW32 (o : WOps) (s : State) : Out := laneOp (opW 0x43 o) s laneBqdec

/-- BQDEC_L64 (R253). -/
def execBqdecL64 (o : LOps) (s : State) : Out := laneOp (opL 0x43 o) s laneBqdec

/-- MXSCAL_W32 (R252). -/
def execMxscalW32 (o : WOps) (s : State) : Out := laneOp (opW 0x44 o) s laneMxscal

/-- MXSCAL_L64 (R252). -/
def execMxscalL64 (o : LOps) (s : State) : Out := laneOp (opL 0x44 o) s laneMxscal

end Sys2Proof.Machine
end

