-- ==== Sys2Proof/Machine/Curd.lean ====
section
/-! DEFINITION. Curd: the curd of 256 values: encoding with its residuals, and decoding (06 R161, R167, R169; 07 R174, R175). Used by
CENC and CDEC and by the churn of stack engines. -/

namespace Sys2Proof.Machine

/-- Values of a curd. -/
def curdLen : Nat := 256

/-- One level of the fixed pairwise tree of sums (R169). -/
def pairSums (ws : List Word) : List Word :=
  match ws with
  | a :: b :: r => BitVec.ofNat 32 (fAdd fp32 0 (f32 a) (f32 b)).code :: pairSums r
  | r => r

/-- The fixed pairwise sum of 256 magnitudes: eight levels (R169, R174). -/
def absSum (vs : List Word) : Word := (pairSums^[8] (vs.map (fun v => v &&& 0x7FFFFFFF))).headD 0

/-- A value that poisons its block: a NaN or an infinity (R175). -/
def isSpecial (w : Word) : Bool := (f32 w).special

/-- The scale of a block with an absolute sum (R174). -/
def curdScale (a : Word) : Nat :=
  match f32 a with
  | .fin _ m e => nearestS24 m (e - 8) false
  | _ => s24.maxCode

/-- The value of a scale that is no poison. -/
def scaleVal (s : Nat) : FVal := (s24Val s).getD (.fin false 0 0)

/-- Half a value, exactly. -/
def FVal.half (v : FVal) : FVal :=
  match v with
  | .fin s m e => .fin s m (e - 1)
  | n => n

/-- The code of a value: a sign bit, or a ternary digit (R174). -/
def curdCode (tern : Bool) (s : FVal) (v : Word) : Nat :=
  if tern then
    if fLess false s.half (f32 v) then 1 else if fLess false (f32 v) s.half.neg then 2 else 0
  else if v.msb then 1 else 0

/-- The value a code stands for (R167). -/
def curdDeq (tern : Bool) (s : FVal) (code : Nat) : FVal :=
  if tern then (match code with
    | 0 => .fin false 0 0
    | 1 => s
    | _ => s.neg)
  else if code = 1 then s.neg else s

/-- The formats of whey: FP32, or BF16. -/
def wheyFmt (bf : Bool) : Fmt := if bf then bf16 else fp32

/-- A whey entry widened exactly to FP32 (R178, 14 R323). -/
def widen (bf : Bool) (w : Word) : Word := if bf then w <<< 16 else w

/-- The residual of a value as a whey entry (R174). -/
def residual (bf tern : Bool) (s : FVal) (v : Word) : Word :=
  BitVec.ofNat 32 (fSub (wheyFmt bf) 0 (f32 v) (curdDeq tern s (curdCode tern s v))).code

/-- The byte of eight sign bits. -/
def signByte (cs : List Nat) : Byte := BitVec.ofNat 8 ((cs.mapIdx (fun i c => c * 2 ^ i)).sum)

/-- The byte of five ternary digits. -/
def ternByte (cs : List Nat) : Byte := BitVec.ofNat 8 ((cs.mapIdx (fun i c => c * 3 ^ i)).sum)

/-- The code bytes of a curd (R167). -/
def codeBytes (tern : Bool) (cs : List Nat) : List Byte :=
  if tern then (List.range 52).map (fun b => ternByte ((cs.drop (5 * b)).take 5))
  else (List.range 32).map (fun b => signByte ((cs.drop (8 * b)).take 8))

/-- Code bytes of a format. -/
def codeLen (tern : Bool) : Nat := if tern then 52 else 32

/-- An encoded block: its image, its residuals, whether the sum was infinite, whether it is poisoned. -/
structure Encoded where
  image : List Byte
  resid : List Word
  sat : Bool
  psn : Bool

/-- A block of 256 FP32 values encoded (R174, R175). -/
def encodeCurd (tern bf : Bool) (vs : List Word) : Encoded :=
  if vs.any isSpecial then
    { image := List.replicate (codeLen tern) 0 ++ leBytes 3 s24Poison, resid := List.replicate curdLen 0, sat := false, psn := true }
  else
    let a := absSum vs
    let sc := curdScale a
    let s := scaleVal sc
    { image := codeBytes tern (vs.map (curdCode tern s)) ++ leBytes 3 sc, resid := vs.map (residual bf tern s), sat := isSpecial a,
      psn := false }

/-- The first invalid byte of an image (R167). -/
def badCurdByte (tern : Bool) (image : List Byte) : Option Nat :=
  if tern then (List.range 52).find? (fun b => (if b = 51 then 3 else 243) ≤ (image.getD b 0).toNat) else none

/-- The scale of an image. -/
def imageScale (tern : Bool) (image : List Byte) : Nat := leNat ((image.drop (codeLen tern)).take 3)

/-- The code of element i of an image. -/
def imageCode (tern : Bool) (image : List Byte) (i : Nat) : Nat :=
  if tern then (image.getD (i / 5) 0).toNat / 3 ^ (i % 5) % 3 else bitsOf (image.getD (i / 8) 0).toNat (i % 8) 1

/-- An image's scale is poison (R161). -/
def curdPoisoned (tern : Bool) (image : List Byte) : Bool := (s24Val (imageScale tern image)).isNone

/-- Element i of an image, in FP32 (R167). -/
def decodeElem (tern : Bool) (image : List Byte) (i : Nat) : Word :=
  let s := imageScale tern image
  let mag : Word := BitVec.ofNat 32 (s24ToF32 s).code
  if (s24Val s).isNone then BitVec.ofNat 32 fp32.nanCode
  else
    let c := imageCode tern image i
    if tern then (match c with
      | 0 => 0
      | 1 => mag
      | _ => mag ^^^ 0x80000000)
    else if c = 1 then mag ^^^ 0x80000000 else mag

/-- a + b in FP32, rounded to nearest even. -/
def add32 (a b : Word) : Word := BitVec.ofNat 32 (fAdd fp32 0 (f32 a) (f32 b)).code

end Sys2Proof.Machine
end

