-- ==== Sys2Proof/Machine/Transport.lean ====
section
/-! DEFINITION. Transport: messages between modules, packets over the spray set, their acknowledgement and retransmission (27 R498,
R500, R503-R506). -/

namespace Sys2Proof.Machine

/-- The header of a message. -/
def msgHdr (m : Msg) : Hdr :=
  match m with
  | .curd h _ _ _ _ _ => h
  | .reply h _ _ _ => h
  | .posted h _ _ => h
  | .abort h => h
  | .report h _ _ => h
  | .results h _ _ _ _ => h

/-- A message that travels in order between a pair of modules (R498). -/
def msgOrdered (m : Msg) : Bool :=
  match m with
  | .curd _ _ _ _ _ _ => false
  | .reply _ _ _ _ => false
  | _ => true

/-- A port. -/
def portOf (s : State) (p : Nat) : Port := Tbl.getD s.fab.ports p Port.reset

/-- A port put in place. -/
def putPort (s : State) (p : Nat) (q : Port) : State := { s with fab := { s.fab with ports := Tbl.put s.fab.ports p q } }

/-- The port that takes the next packet: those of the spray set in turn (R503). -/
def sprayPort (s : State) : Option Nat :=
  let set := (List.range 48).filter (fun p => (portOf s p).inset)
  match set.find? (fun p => s.fab.nextPort ≤ p) with
  | some p => some p
  | none => set.head?

/-- A packet goes out over the next port of the spray set, or waits for one. -/
def sendPacket (s : State) (q : TxPacket) : TxPacket × State :=
  match sprayPort s with
  | none => ({ q with port := none, lost := none }, s)
  | some p =>
    ({ q with port := some p, lost := some s.now },
     putPort { s with fab := { s.fab with nextPort := p + 1 } } p
       { portOf s p with tx := (portOf s p).tx + BitVec.ofNat 64 (Config.packetBytes q.psn) })

/-- The endpoint address of a rank: FABPFX OR r (R500). -/
def endpoint (f : Fabric) (r : Nat) : BitVec 128 := (f.pfxhi ++ f.pfxlo) ||| BitVec.ofNat 128 r

/-- The key of a message: the current one of the secure domain, for a protected context (R506). -/
def msgKey (s : State) (m : Msg) : Option (List Byte) :=
  let c := ccOf s (msgHdr m).cc
  if c.prot then (ctxOf s c.ctx).keyCur else none

/-- The packet of a message to another module. -/
def newPacket (s : State) (m : Msg) : TxPacket :=
  let h := msgHdr m
  { psn := s.fab.nextPsn, port := none, lost := none, addr := endpoint s.fab h.dst,
    rod := if msgOrdered m then some (Tbl.getD s.fab.rodOut h.dst 0) else none, entropy := Config.entropy s.fab.nextPsn,
    key := msgKey s m, deadline := (ccOf s h.cc).round.deadline, body := m }

/-- The numbers that the next packets take. -/
def numbered (f : Fabric) (m : Msg) : Fabric :=
  let d := (msgHdr m).dst
  { f with nextPsn := f.nextPsn + 1, rodOut := if msgOrdered m then Tbl.put f.rodOut d (Tbl.getD f.rodOut d 0 + 1) else f.rodOut }

/-- A message sent: to the module's own rank inside the die, to another as a packet (R498). -/
def sendMsg (s : State) (m : Msg) : State :=
  if (msgHdr m).dst = s.fab.rank then { s with fab := { s.fab with inbox := s.fab.inbox ++ [m] } }
  else
    let r := sendPacket s (newPacket s m)
    { r.2 with fab := { numbered r.2.fab m with tx := r.2.fab.tx ++ [r.1] } }

/-- Messages sent in order. -/
def sendMsgs (ms : List Msg) (s : State) : State :=
  match ms with
  | [] => s
  | m :: r => sendMsgs r (sendMsg s m)

/-- The context of a header is bound to the ring of its GEN. -/
def onRing (s : State) (h : Hdr) : Bool := (ccOf s h.cc).ring.any (fun r => r.gen = h.gen)

/-- The round of a header stands at its context, in a state. -/
def roundIs (s : State) (h : Hdr) (st : RoundState) : Bool :=
  onRing s h && (ccOf s h.cc).round.num = h.round && (ccOf s h.cc).round.st = st

/-- The round of a packet has ended (R500): of a curd or a posted notice once the round is not ACTIVE here any more; of a reply, whose
round is that of the member it answers, once the round has aborted here or a later one has ended here, which no member can complete before
all have started it (28 R507); of either once its deadline has passed; of an abort notice once its context has left the round or the ring.
A message of firmware belongs to no round (log 57). -/
def roundOver (s : State) (q : TxPacket) : Bool :=
  let h := msgHdr q.body
  let late := q.deadline.any (fun t => t ≤ s.now)
  match q.body with
  | .report _ _ _ => false
  | .results _ _ _ _ _ => false
  | .abort _ => !onRing s h || (ccOf s h.cc).round.num ≠ h.round
  | .reply _ _ _ _ => late || !onRing s h || (!roundIs s h .complete && (ccOf s h.cc).round.st ≠ .active)
  | _ => late || !roundIs s h .active

/-- Waiting packets handed out, oldest first; those whose round has ended are dropped. -/
def flushPackets (qs done : List TxPacket) (s : State) : State :=
  match qs with
  | [] => { s with fab := { s.fab with tx := done } }
  | q :: r =>
    if q.port.isSome then flushPackets r (done ++ [q]) s
    else if roundOver s q then flushPackets r done s
    else let a := sendPacket s q; flushPackets r (done ++ [a.1]) a.2

/-- A port leaves the spray set: what it has sent and not had acknowledged is lost, and goes unacknowledged from now (R504). -/
def portLeaves (s : State) (p : Nat) : State :=
  { s with fab := { s.fab with tx := s.fab.tx.map (fun q => if q.port = some p then { q with lost := some s.now } else q) } }

/-- The message is the next of its pair of modules to be delivered, if it travels in order (R498). -/
def deliverable (s : State) (m : Msg) : Bool :=
  s.fab.inbox.contains m &&
    (!(msgOrdered m) || (s.fab.inbox.find? (fun q => (msgOrdered q) && (msgHdr q).src = (msgHdr m).src)) = some m)

/-- The machine with a message taken out of those to be delivered. -/
def takeMsg (s : State) (m : Msg) : State := { s with fab := { s.fab with inbox := s.fab.inbox.erase m } }

/-! ## Packets that arrive -/

/-- The key of an arriving packet is one that the secure domain of its context accepts: the current one, or for 10 s after a change the
previous one (R506). A context that is not protected takes packets without a key. -/
def keyAccepted (s : State) (k : Packet) : Bool :=
  let c := ccOf s (msgHdr k.body).cc
  let x := ctxOf s c.ctx
  if c.prot then
    k.auth && k.key.isSome && (k.key = x.keyCur || (k.key = x.keyPrev && s.now < x.keyTime + 10000000 * Config.cyclesPerMicro))
  else k.key.isNone

/-- The ordered message of a source that is next: the one in its place, or one whose place the source no longer holds any before. -/
def nextAhead (f : Fabric) (src clear : Nat) : Option (Nat × Nat × Msg) :=
  let mine := f.ahead.filter (fun q => q.1 = src)
  match mine.find? (fun q => mine.all (fun r => q.2.1 ≤ r.2.1)) with
  | some q => if q.2.1 < clear || q.2.1 = Tbl.getD f.rodIn src 0 then some q else none
  | none => none

/-- Ordered messages of a source delivered in the order of their places, as far as they go (R498). -/
def release (fuel src clear : Nat) (f : Fabric) : Fabric :=
  match fuel with
  | 0 => f
  | n + 1 =>
    match nextAhead f src clear with
    | some q => release n src clear
        { f with ahead := f.ahead.erase q, inbox := f.inbox ++ [q.2.2], rodIn := Tbl.put f.rodIn src (q.2.1 + 1) }
    | none =>
      if Tbl.getD f.rodIn src 0 < clear then release n src clear { f with rodIn := Tbl.put f.rodIn src clear } else f

/-- A message taken in: an unordered one as it comes, an ordered one in its place, once. -/
def takeIn (f : Fabric) (k : Packet) : Fabric :=
  match k.rod with
  | none => { f with inbox := f.inbox ++ [k.body] }
  | some n =>
    if n < Tbl.getD f.rodIn k.src 0 then f
    else release (f.ahead.length + 2) k.src k.clear { f with ahead := f.ahead ++ [(k.src, n, k.body)] }

/-- The bytes and the codewords corrected of what a port receives (R501). -/
def Port.received (q : Port) (len corr : Nat) : Port :=
  { q with rx := q.rx + BitVec.ofNat 64 len, feccorr := q.feccorr + BitVec.ofNat 64 corr }

/-- The acknowledgement of a packet goes out by the port it came by, whose TXBYTES count it (R501; log 58). -/
def sendAck (s : State) (p psn : Nat) : State :=
  putPort s p { portOf s p with tx := (portOf s p).tx + BitVec.ofNat 64 (Config.ackBytes psn) }

/-- A packet arrives (R504, R505): at a port that is LIVE; once; acknowledged, but for one that fails authentication, which is discarded and
counted (R506). -/
def packetReceive (k : Packet) (s : State) : State :=
  let q := portOf s k.port
  if q.st ≠ .live || 48 ≤ k.port then s
  else
    let s1 := putPort s k.port (q.received k.len k.corr)
    if !keyAccepted s k then countClass clsCcFault s1
    else
      let s2 := sendAck s1 k.port k.psn
      if s2.fab.seen.contains (k.src, k.psn) then s2
      else { s2 with fab := takeIn { s2.fab with seen := (k.src, k.psn) :: s2.fab.seen } k }

/-- PACKET_RECEIVE (R504). -/
def execPacketReceive (k : Packet) (s : State) : Host.Outcome State Fault Refusal := .next (packetReceive k s)

/-! ## Packets sent -/

/-- An acknowledgement arrives at a LIVE port, which counts it (R501, R504, R505): the packet is no longer held. -/
def packetAck (k : Ack) (s : State) : State :=
  if (portOf s k.port).st ≠ .live || 48 ≤ k.port then s
  else
    let s1 := putPort s k.port ((portOf s k.port).received k.len k.corr)
    { s1 with fab := { s1.fab with tx := s1.fab.tx.filter (fun q => q.psn ≠ k.psn) } }

/-- PACKET_ACK (R504). -/
def execPacketAck (k : Ack) (s : State) : Host.Outcome State Fault Refusal := .next (packetAck k s)

/-- A packet sent again once 20 µs have passed without an acknowledgement, until its round ends (R500, R504). -/
def retransmit (psn : Nat) (s : State) : State :=
  match s.fab.tx.find? (fun q => q.psn = psn) with
  | none => s
  | some q =>
    match q.lost with
    | none => s
    | some t =>
      if s.now < t + 20 * Config.cyclesPerMicro then s
      else if roundOver s q then { s with fab := { s.fab with tx := s.fab.tx.filter (fun c => c.psn ≠ psn) } }
      else
        let r := sendPacket s q
        { r.2 with fab := { r.2.fab with tx := r.2.fab.tx.map (fun c => if c.psn = psn then r.1 else c) } }

/-- RETRANSMIT_TIMEOUT (R504). -/
def execRetransmitTimeout (psn : Nat) (s : State) : Host.Outcome State Fault Refusal := .next (retransmit psn s)

/-- SPRAY_REJOIN (R505): a LIVE port of the spray set takes packets that wait. -/
def execSprayRejoin (p : Nat) (s : State) : Host.Outcome State Fault Refusal :=
  .next (if (portOf s p).inset && p < 48 then flushPackets s.fab.tx [] s else s)

end Sys2Proof.Machine
end

