-- ==== Sys2Proof/Machine/Health.lean ====
section
/-! DEFINITION. Health: units that leave service, and who serves in their place (29 R522-R524; 25 R526). -/

namespace Sys2Proof.Machine

/-- UNIT and WHERE of a unit (25 R526). A datapath is named by its core. -/
def unitWhere (u : UnitId) : Nat × Nat :=
  match u with
  | .core n => (1, n * 65536 + 0xFFFE)
  | .datapath n => (1, n / 4 * 65536 + 0xFFFE)
  | .stackEngine n => (2, n / 32 * 65536 + n % 32)
  | .port n => (4, n)
  | .hbm n => (5, n * 65536)
  | .lpddr _ => (5, 8 * 65536)
  | .cxl => (6, 0)

/-- The channel by which a unit reports, in their order: the compute dies, the stacks, the LPDDR6 bridge, 16 fabric processors, the ports,
management (25 R483, R526). -/
def unitChannel (u : UnitId) : Nat :=
  match u with
  | .core n => n / Config.coresPerCluster / Config.clustersPerDie
  | .datapath n => n / 4 / Config.coresPerCluster / Config.clustersPerDie
  | .stackEngine n => 2 + n / 32
  | .hbm n => 2 + n
  | .lpddr _ => 10
  | .port n => 27 + n
  | .cxl => 75

/-- The removal is written to the service map (R523). -/
def mapped (u : UnitId) : Bool :=
  match u with
  | .core _ => true
  | .datapath _ => true
  | .stackEngine _ => true
  | _ => false

/-- A failure that makes the module unusable (R522). -/
def memoryUnit (u : UnitId) : Bool :=
  match u with
  | .hbm _ => true
  | .lpddr _ => true
  | .cxl => true
  | _ => false

/-- The service map with a unit removed from it, where it names such units (R523). -/
def unmap (f : Flash) (u : UnitId) : Flash :=
  if mapped u && !f.removed.contains u then { f with removed := f.removed ++ [u] } else f

/-- What else a removal does at once: a port leaves the spray set (R524). -/
def unitLeaves (s : State) (u : UnitId) : State :=
  match u with
  | .port p => if (portOf s p).inset then putPort (portLeaves s p) p { portOf s p with inset := false } else s
  | _ => s

/-- A unit leaves service (R523): one REMOVAL entry with its cause. One that is out of service already makes no entry, and
is written to the map again where the map no longer names it. -/
def removeUnit (s : State) (u : UnitId) (cause phase : Nat) : State :=
  if s.mgmt.out.contains u then { s with flash := unmap s.flash u }
  else
    let s0 := unitLeaves s u
    let s1 := { s0 with mgmt := { s0.mgmt with out := s0.mgmt.out ++ [u], unusable := s0.mgmt.unusable || memoryUnit u },
                        flash := unmap s0.flash u }
    logEntry { cls := clsRemoval, ctx := 0xFF, aux := 0, unit := (unitWhere u).1, place := (unitWhere u).2,
               value0 := BitVec.ofNat 64 cause, value1 := BitVec.ofNat 64 phase } s1

/-- The engine of a stack that serves group e: the first in service of e, e + 1, ... (R524). -/
def servingEngine (s : State) (stack e : Nat) : Nat :=
  ((List.range 32).map (fun k => (e + k) % 32)).find? (fun q => !s.mgmt.out.contains (.stackEngine (stack * 32 + q))) |>.getD e

/-- A count of a table raised, with its new value. -/
def bumpTbl (t : Tbl Nat) (k : Nat) : Tbl Nat × Nat := (Tbl.put t k (Tbl.getD t k 0 + 1), Tbl.getD t k 0 + 1)

/-- One DECODE entry more of a stack engine; the sixteenth removes it (R523). -/
def countDecode (s : State) (engine : Nat) : State :=
  let r := bumpTbl s.mgmt.decodes engine
  let s1 := { s with mgmt := { s.mgmt with decodes := r.1 } }
  if r.2 = 16 then removeUnit s1 (.stackEngine engine) 4 0 else s1

/-- One lane death more from a logic check of a datapath; the sixteenth removes it (R523). -/
def countDeath (s : State) (dp : Nat) : State :=
  let r := bumpTbl s.mgmt.laneDeaths dp
  let s1 := { s with mgmt := { s.mgmt with laneDeaths := r.1 } }
  if r.2 = 16 then removeUnit s1 (.datapath dp) 3 0 else s1

/-- Units of a kind in service (R522). -/
def inService (s : State) (total : Nat) (u : Nat → UnitId) : Nat :=
  ((List.range total).filter (fun n => !s.mgmt.out.contains (u n))).length

/-- HEALTH (R522). -/
def healthWord (s : State) : DWord :=
  let removed := decide (s.mgmt.out ≠ [])
  BitVec.ofNat 64 (inService s 192 .core * 2 ^ 56 + inService s 48 .port * 2 ^ 48 + (inService s 256 .stackEngine - 1) * 2 ^ 40 +
    (if s.mgmt.unusable then 8 else 0) + (if s.mgmt.keyend then 4 else 0) + (if removed then 2 else 0) +
    (if s.mgmt.unusable || s.mgmt.keyend || removed then 1 else 0))

end Sys2Proof.Machine
end

