-- ==== Sys2Proof/Machine/Rounds.lean ====
section
/-! DEFINITION. Rounds: collective contexts, their faults, rounds and aborts, rings and roles, posting and its notices (07 R179, R188-R190;
16 R344, R353-R368). -/

namespace Sys2Proof.Machine

/-! ## Firings (07 R184, 16 R357) -/

/-- A send of a firing has an answer outstanding. -/
def SendTo.flying (q : SendTo) : Bool := q.sent.any (fun c => c.2 = .flying)

/-- A firing is in flight: a block's churn or a send's answer is outstanding (R359). -/
def Firing.inFlight (blocks : Nat) (f : Firing) : Bool :=
  (List.range blocks).any (fun j => !f.blocksDone.contains j) || f.sends.any SendTo.flying

/-- The blocks that some receiver has refused (R357). -/
def Firing.refused (f : Firing) : List Nat := (f.sends.flatMap (fun q => (q.sent.filter (fun c => c.2 = .refused)).map (fun c => c.1)))

/-- A firing has completed (R357). -/
def Firing.complete (blocks : Nat) (f : Firing) : Bool := !f.inFlight blocks && f.refused = []

/-- The refusal mask (R357). -/
def Firing.mask (f : Firing) : DWord := f.refused.foldl (fun m b => m ||| (1#64 <<< b)) 0

/-- The entry's last firing. -/
def TileEntry.last (e : TileEntry) : Option Firing := e.firings.getLast?

/-- Completed firings that are not the last are forgotten. -/
def pruneFirings (blocks : Nat) (fs : List Firing) : List Firing :=
  match fs with
  | [] => []
  | [f] => [f]
  | f :: g :: r => if f.complete blocks then pruneFirings blocks (g :: r) else f :: pruneFirings blocks (g :: r)

/-- The firing of an entry under a version, changed. -/
def onFiring (s : State) (n x : Nat) (v : BitVec 16) (f : Firing → Firing) : State :=
  onEntry s n x (fun e => { e with firings := e.firings.map (fun q => if q.version = v then f q else q) })

/-! ## The end of a round (16 R363, R364; 07 R190) -/

/-- Nothing armed in the round is outstanding (R363). -/
def roundDone (c : Cc) : Bool :=
  c.entries.all (fun q => (q.2.armedRound ≠ c.round.num || q.2.st ≠ .armed) &&
    q.2.firings.all (fun f => f.round ≠ c.round.num || f.complete (chunkBlocks c)))

/-- The round becomes COMPLETE when a WAITRD has been issued in it and nothing is outstanding (R363). -/
def settleRound (s : State) (n : Nat) : State :=
  onCc s n (fun c =>
    let c1 := { c with entries := Tbl.mapVals c.entries (fun _ e => { e with firings := pruneFirings (chunkBlocks c) e.firings }) }
    if active c && c.round.waitrd && roundDone c then
      { c1 with round := { c.round with st := .complete, outcome := 0, abortRank := 0, deadline := none } }
    else c1)

/-- A cancelled firing: nothing of it is outstanding (R185). -/
def Firing.cancel (blocks : Nat) (f : Firing) : Firing :=
  { f with blocksDone := List.range blocks,
           sends := f.sends.map (fun q => { q with sent := q.sent.filter (fun c => c.2 ≠ .flying) }) }

/-- The context as an abort of its round leaves it (R190, R185). -/
def abortCc (outcome rank : Nat) (c : Cc) : Cc :=
  { c with
    round := { c.round with st := .aborted, outcome := outcome, abortRank := rank, deadline := none },
    entries := Tbl.mapVals c.entries (fun _ e =>
      { e with st := .disarmed, slot := Slot.clear, firings := e.firings.map (Firing.cancel (chunkBlocks c)) }),
    whey := Tbl.mapVals c.whey (fun h w => if c.touched.contains h then { w with torn := true } else w),
    notices := [], early := [], wheyWaits := [], wheyHost := [], stepWaits := [], touched := [] }

/-- The round ends as ABORTED, and every other member is told; with no ACTIVE round nothing happens (R364). -/
def abortRound (s : State) (n outcome rank : Nat) : State :=
  let c := ccOf s n
  if active c then
    sendMsgs ((otherRanks c).map (fun r => .abort (ccHdr s n r))) (putCc s n (abortCc outcome rank c))
  else s

/-! ## Faults (16 R368, R369) -/

/-- The processor that runs a context: 64 contexts each (16 R344). -/
def ccProc (n : Nat) : Nat := n / 64

/-- A fault of a context (R368): the fault word keeps the first until the restart; one CCFAULT entry; an ACTIVE round aborts. -/
def ccFault (s : State) (n code reason : Nat) : State :=
  let c := ccOf s n
  let again := c.st = .faulted
  let c1 : Cc := { c with st := .faulted, faultCode := if again then c.faultCode else code,
                          faultReason := if again then c.faultReason else reason,
                          armReason := if again then c.armReason else if code = 0x11 then reason else 6,
                          waits := [], stepWaits := [], failed := [], sending := none }
  abortRound (logEntry { cls := clsCcFault, ctx := c.ctx, aux := 0, unit := 3, place := ccProc n * 65536 + n,
                         value0 := BitVec.ofNat 64 (c1.faultReason % 256 * 256 + c1.faultCode), value1 := c.pc } (putCc s n c1)) n 4 0

/-! ## Reaching memory (16 R351, R346) -/

/-- What asking for addresses met: pages without a translation, and the first fault as code and reason. -/
structure CcAsk where
  s : State
  waits : List Nat
  bad : Option (Nat × Nat)

/-- Every address asked for. -/
def ccAsks (n : Nat) (need : Need) (both load : Bool) (as : List Nat) (r : CcAsk) : CcAsk :=
  match as with
  | [] => r
  | a :: t =>
    let x := (ccOf r.s n).ctx
    ccAsks n need both load t (match ccReach r.s n need both load a with
      | .go _ => { r with s := if a < 2 ^ 56 then noteXlate r.s x a else r.s }
      | .miss level cls => { r with s := joinRecord r.s x (a / 65536) level cls need.kinds, waits := addPage r.waits (a / 65536) }
      | .denied => if r.bad.isSome then r else { r with bad := some (0x08, 1) }
      | .failed => if r.bad.isSome then r else { r with bad := some (0x07, 0) })

/-- The addresses by which a range is asked for. -/
def rangeAsk (a n : Nat) : List Nat := (pieces (n / 512 + 2) a n).map (fun q => q.1)

/-- Bytes of the context's space that translate, as committed memory holds them. -/
def ccRead (s : State) (n a len : Nat) : List Byte :=
  (pieces (len / 512 + 2) a len).flatMap (fun q => match ccPlace s n q.1 with
    | none => List.replicate q.2 0
    | some p => (List.range q.2).map (readByte s Shadow.empty p))

/-- Bytes written in pieces from an address of the context's space. -/
def ccWritePieces (n : Nat) (ps : List (Nat × Nat)) (bs : List Byte) (s : State) : State :=
  match ps with
  | [] => s
  | q :: r => ccWritePieces n r (bs.drop q.2) (match ccPlace s n q.1 with
      | none => s
      | some p => writePhys s { b := none, t := 0, counted := false } p (bs.take q.2))

/-- Bytes written to the context's space. -/
def ccWrite (s : State) (n a : Nat) (bs : List Byte) : State := ccWritePieces n (pieces (bs.length / 512 + 2) a bs.length) bs s

/-- Pages noted as read. -/
def ccTouch (n a len : Nat) (s : State) : State :=
  (pieces (len / 512 + 2) a len).foldl (fun s q => match ccPlace s n q.1 with
    | none => s
    | some p => touch s p false) s

/-! ## Posting (16 R358) -/

/-- The ranks that a post of an entry tells (R358). -/
def postTo (c : Cc) (e : TileEntry) : List Nat :=
  if e.image.peermode && e.image.role = 1 then e.slot.kept else [soleSender c e.image]

/-- The slot of an entry armed in the round is posted and its senders told (R358). -/
def openSlot (s : State) (n x : Nat) : State :=
  let c := ccOf s n
  let e := entryOf c x
  let s1 := onEntry s n x (fun e => { e with slot := { e.slot with posted := true, pending := false } })
  sendMsgs ((postTo c e).map (fun r => .posted (ccHdr s n r) (e.image.role = 3) e.image.chunk)) s1

/-- Every receiver of an entry has sent its notice (R358). -/
def allPosted (c : Cc) (im : TileImage) : Bool :=
  (receivers c im).all (fun r => c.notices.contains (r, im.role = 2, im.chunk))

end Sys2Proof.Machine
end

