-- ==== Sys2Proof/Machine/Churn.lean ====
section
/-! DEFINITION. Churn: firings of tile-table entries: what a block computes, the whey it reads and writes, what it sends, and the arrivals
of curds and answers (07 R174-R180, R184-R190; 16 R355-R359; 28 R513). -/

namespace Sys2Proof.Machine

/-! ## Whey (07 R177, 16 R365) -/

/-- A whey object's element type is BF16. -/
def WheyObj.bf (w : WheyObj) : Bool := w.desc.getLsbD 48
/-- Bytes of an entry. -/
def WheyObj.esize (w : WheyObj) : Nat := if w.bf then 2 else 4
/-- Its first chunk. -/
def WheyObj.first (w : WheyObj) : Nat := bitsOf w.desc.toNat 0 32
/-- Its chunks. -/
def WheyObj.count (w : WheyObj) : Nat := bitsOf w.desc.toNat 32 16
/-- A chunk lies in the object. -/
def WheyObj.holds (w : WheyObj) (chunk : Nat) : Bool := w.first ≤ chunk && chunk < w.first + w.count
/-- Bytes of the object's entries. -/
def WheyObj.bytes (w : WheyObj) (ch : Nat) : Nat := w.count * 3 * ch * w.esize

/-- The address of the whey of a block of a chunk in a role: 0 origin, 1 hop, 2 gather (R365). -/
def wheyAddr (w : WheyObj) (ch chunk role blk : Nat) : Nat :=
  w.base + ((chunk - w.first) * 3 + role) * ch * w.esize + blk * 256 * w.esize

/-- Entries of whey read from their bytes. -/
def wheyWords (w : WheyObj) (bs : List Byte) : List Word :=
  (List.range (bs.length / w.esize)).map (fun i => BitVec.ofNat 32 (leNat ((bs.drop (i * w.esize)).take w.esize)))

/-- The bytes of entries of whey. -/
def wheyBytes (w : WheyObj) (vs : List Word) : List Byte := vs.flatMap (fun v => leBytes w.esize v.toNat)

/-- The whey roles that a tile's role reads; the last it always writes (R178, R513). -/
def wheyRoles (role : Nat) : List Nat :=
  match role with
  | 0 => [0]
  | 1 => [0, 1]
  | 2 => [0, 2]
  | _ => []

/-! ## One block -/

/-- The address of a block's first value. -/
def blockAddr (f : Firing) (j : Nat) : Nat := f.image.laddr + 1024 * j

/-- The permissions a role needs of the chunk's data. -/
def tileNeed (role : Nat) : Need := if role = 2 then needRW else if role = 3 then needW else needR

/-- A whey sector stands in HBM, or cannot because its set is pinned (03 R83). -/
def wheyReady (s : State) (pa : Nat) : Bool :=
  hbmResident s pa || ((Tbl.get s.hbm (hbmSet pa)).any (fun o => o.pin.isSome && o.tag ≠ hbmTag pa))

/-- The whey pages of a block that are to be brought in first (R177). -/
def wheyAbsent (s : State) (n : Nat) (as : List Nat) : List Nat :=
  (as.filter (fun a => match ccPlace s n a with
    | some (.cap pa) => !wheyReady s pa
    | _ => false)).map (fun a => a / 65536)

/-- A page is asked for: in host-assisted mode the host is told (R177, 23 R444). -/
def wantWhey (n : Nat) (s : State) (page : Nat) : State :=
  let c := ccOf s n
  if c.wheyWaits.contains page then s
  else
    let host := s.chan.duty.getLsbD 4
    let s1 := putCc s n { c with wheyWaits := c.wheyWaits ++ [page], wheyHost := c.wheyHost ++ (if host then [page] else []) }
    if host then emit (event evWheyReq c.ctx 0 0 (page * 65536) n) s1 else s1

/-- The words of 1,024 bytes. -/
def dataWords (bs : List Byte) : List Word := (List.range 256).map (fun i => BitVec.ofNat 32 (leNat ((bs.drop (4 * i)).take 4)))

/-- The incoming curd of a block has an invalid byte (06 R167). -/
def curdBad (f : Firing) (j : Nat) : Bool := (badCurdByte f.image.fmt (Tbl.getD f.got j [])).isSome

/-- The decode of a block's incoming curd; a bad one is poison (R167). -/
def curdIn (f : Firing) (j : Nat) : List Word :=
  if curdBad f j then List.replicate 256 (BitVec.ofNat 32 fp32.nanCode)
  else (List.range 256).map (decodeElem f.image.fmt (Tbl.getD f.got j []))

/-- Element by element. -/
def addAll (a b : List Word) : List Word := List.zipWith add32 a b

/-- Some entry of whey is not a zero (R513). -/
def anyWhey (bf : Bool) (vs : List Word) : Bool := vs.any (fun v => (widen bf v).extractLsb' 0 31 ≠ 0)

/-- What a block computes before it is encoded (R178, R513), from the chunk's data, the incoming curd, and the whey of the roles read. -/
def blockValue (c : Cc) (f : Firing) (bf : Bool) (g inn wo w : List Word) : List Word :=
  let carried := fun (v : List Word) => if anyWhey bf wo then addAll v (wo.map (widen bf)) else v
  match f.image.role with
  | 0 => addAll g (wo.map (widen bf))
  | 1 => carried (addAll (addAll inn g) (w.map (widen bf)))
  | _ => addAll (carried (if needsCurd c f.image then addAll inn g else g)) (w.map (widen bf))

/-- What a block's churn leaves: the curd it sends, the whey it writes with its role, the values it writes as results, and counters. -/
structure BlockOut where
  curd : Option (List Byte)
  whey : List (Nat × List Word)
  result : Option (List Word)
  sat : Bool
  psn : Bool

/-- The churn of a block with what it reads (R178-R180). -/
def blockChurn (c : Cc) (f : Firing) (bf : Bool) (j : Nat) (g wo w : List Word) : BlockOut :=
  let tern := f.image.fmt
  if f.image.role = 3 then { curd := none, whey := [], result := some (curdIn f j), sat := false, psn := false }
  else
    let e := encodeCurd tern bf (blockValue c f bf g (curdIn f j) wo w)
    { curd := some e.image,
      whey := (if f.image.role ≠ 0 && anyWhey bf wo then [(0, List.replicate 256 0)] else []) ++ [(f.image.role, e.resid)],
      result := if f.image.role = 2 then some ((List.range 256).map (decodeElem tern e.image)) else none,
      sat := e.sat, psn := e.psn }

/-- The DECODE entry of a bad curd: its engine, the address, round, block and context (25 R526). -/
def decodeEntry (s : State) (n : Nat) (f : Firing) (j : Nat) : State :=
  let c := ccOf s n
  let pa := match ccPlace s n (blockAddr f j) with
    | some (.cap pa) => pa
    | _ => 0
  let stack := hbmStack pa
  let engine := servingEngine s stack (hbmGroup pa)
  countDecode (logEntry { cls := clsDecode, ctx := c.ctx, aux := 0, unit := 2, place := stack * 65536 + engine,
                          value0 := BitVec.ofNat 64 (blockAddr f j),
                          value1 := BitVec.ofNat 64 (f.round * 2 ^ 32 + j * 1024 + n) } s) (stack * 32 + engine)

/-- Whey written. -/
def putWhey (n : Nat) (w : WheyObj) (ch chunk blk : Nat) (qs : List (Nat × List Word)) (s : State) : State :=
  match qs with
  | [] => s
  | q :: r => putWhey n w ch chunk blk r (ccWrite s n (wheyAddr w ch chunk q.1 blk) (wheyBytes w q.2))

/-- A block's curd goes out to every receiver (R180). The answer names the entry with its version. -/
def sendBlock (s : State) (n x : Nat) (f : Firing) (j : Nat) (bytes : List Byte) (ranks : List Nat) : State :=
  sendMsgs (ranks.map (fun r => .curd { ccHdr s n r with round := f.round } (f.image.role = 2) f.image.chunk j
    (f.version.toNat * 256 + x) bytes)) s

/-- A block committed: whey and result written, the curd kept and sent, as one unit (R180). -/
def commitChurn (s : State) (n x : Nat) (f : Firing) (j : Nat) (w : Option WheyObj) (o : BlockOut) : State :=
  let c := ccOf s n
  let s1 := match w with
    | some w => putWhey n w c.ch f.image.chunk j o.whey s
    | none => s
  let s2 := match o.result with
    | some vs => ccWrite s1 n (blockAddr f j) (vs.flatMap (fun v => leBytes 4 v.toNat))
    | none => s1
  let s3 := if o.sat then bumpCtx c.ctx 9 s2 else s2
  let s4 := if o.psn then bumpCtx c.ctx 10 s3 else s3
  let s5 := onFiring s4 n x f.version (fun f => { f with
    blocksDone := f.blocksDone ++ [j],
    curds := match o.curd with
      | some bs => Tbl.put f.curds j bs
      | none => f.curds,
    sends := f.sends.map (fun q => { q with sent := Tbl.put q.sent j .flying }) })
  match o.curd with
  | some bs => sendBlock s5 n x f j bs (receivers c f.image)
  | none => s5

/-- A gather receipt writes only when earlier firings of its chunk have read their data (R356). -/
def mustWait (c : Cc) (f : Firing) : Bool :=
  f.image.role = 3 && c.entries.any (fun q => q.2.firings.any (fun g =>
    g.image.chunk = f.image.chunk && g.image.role ≠ 3 && g.born < f.born &&
    (List.range (chunkBlocks c)).any (fun j => !g.blocksDone.contains j)))

/-- The addresses of a block's whey. -/
def blockWhey (c : Cc) (f : Firing) (w : Option WheyObj) (j : Nat) : List Nat :=
  match w with
  | none => []
  | some w => (wheyRoles f.image.role).flatMap (fun r => rangeAsk (wheyAddr w c.ch f.image.chunk r j) (256 * w.esize))

/-- The words of a block's whey in a role. -/
def wheyIn (s : State) (n : Nat) (f : Firing) (w : WheyObj) (role j : Nat) : List Word :=
  wheyWords w (ccRead s n (wheyAddr w (ccOf s n).ch f.image.chunk role j) (256 * w.esize))

/-- A range of the context's space holds poison (25 R470). -/
def rangePoisoned (s : State) (n a len : Nat) : Bool :=
  (pieces (len / 512 + 2) a len).any (fun q => (ccPlace s n q.1).any (fun p => poisoned s Shadow.empty p q.2))

/-- What a block's churn reads holds poison: its data, unless it only writes them or they were read clean as the firing started, or its whey. -/
def inputPoisoned (s : State) (n : Nat) (f : Firing) (w : Option WheyObj) (j : Nat) : Bool :=
  (f.image.role ≠ 3 && (Tbl.get f.data j).isNone && rangePoisoned s n (blockAddr f j) 1024) ||
  w.any (fun w => (wheyRoles f.image.role).any (fun r => rangePoisoned s n (wheyAddr w (ccOf s n).ch f.image.chunk r j) (256 * w.esize)))

/-- A block's data: as an origin read them when its firing started, or as they stand (R186). -/
def blockData (s : State) (n : Nat) (f : Firing) (j : Nat) : List Byte := (Tbl.get f.data j).getD (ccRead s n (blockAddr f j) 1024)

/-- A block's churn with every address reached: bad input reported, then committed. An error during the churn, and poison in what it
reads, poison the block and count as a decode error (25 R470, 07 R175). -/
def runBlock (hit : Bool) (s : State) (n x : Nat) (f : Firing) (w : Option WheyObj) (j : Nat) : State :=
  let c := ccOf s n
  let s1 := ccTouch n (blockAddr f j) 1024 s
  let bad := hit || inputPoisoned s1 n f w j
  let s2 := if bad || (needsCurd c f.image && curdBad f j) then decodeEntry s1 n f j else s1
  let g := if bad then List.replicate 256 (BitVec.ofNat 32 fp32.nanCode) else dataWords (blockData s2 n f j)
  let wo := (w.map (fun w => wheyIn s2 n f w 0 j)).getD []
  let wr := (w.map (fun w => wheyIn s2 n f w f.image.role j)).getD []
  let o := blockChurn c f ((w.map WheyObj.bf).getD false) j g wo wr
  commitChurn s2 n x f j w (if hit && f.image.role = 3 then { o with result := some g } else o)

/-- What a pass over open blocks does: those that run or wait for a page, as the stack engines do; or those that meet a fault, which the fabric
processor reports after them (25 R483). -/
inductive StepPass where
  | churns
  | faults
deriving DecidableEq, Repr

/-- The address by which a block's data are asked for; none once an origin has read them. -/
def blockAsk (f : Firing) (j : Nat) : List Nat := if (Tbl.get f.data j).isSome then [] else [blockAddr f j]

/-- One block taken: run, or its context waits for pages, or takes a fault (R177, R180, R190). Its whey object counts as touched from here on,
also where the step first stalls or faults on its data page (DESIGN CHOICE, log 127). -/
def stepBlockAs (hit : Bool) (pass : StepPass) (n x : Nat) (v : BitVec 16) (s : State) (j : Nat) : State :=
  let c := ccOf s n
  match (entryOf c x).firings.find? (fun f => f.version = v) with
  | none => s
  | some f =>
    if f.blocksDone.contains j || mustWait c f || c.st = .unbound then s
    else
      let w := if f.image.role = 3 then none else Tbl.get c.whey f.image.whey
      let s0 := if w.isSome then putCc s n { c with touched := insertNat c.touched f.image.whey } else s
      let need := tileNeed f.image.role
      let r := ccAsks n need false (!need.w) (blockAsk f j) { s := s0, waits := [], bad := none }
      let r2 := ccAsks n needRW false false (blockWhey c f w j) r
      if pass = .faults then
        match r2.waits, r2.bad with
        | [], some (code, reason) => ccFault r2.s n code reason
        | _, _ => s
      else if r2.waits ≠ [] then onCc r2.s n (fun c => { c with stepWaits := r2.waits.foldl insertNat c.stepWaits })
      else match r2.bad with
        | some _ => s
        | none =>
          match wheyAbsent r2.s n (blockWhey c f w j) with
          | [] => runBlock hit r2.s n x f w j
          | ps => ps.foldl (wantWhey n) r2.s

/-- An open block of a firing: context, entry, version, block. -/
structure OpenBlock where
  cc : Nat
  entry : Nat
  version : BitVec 16
  blk : Nat
deriving DecidableEq, Repr

/-- One open block taken in a pass, with no error. -/
def stepBlock (pass : StepPass) (s : State) (q : OpenBlock) : State := stepBlockAs false pass q.cc q.entry q.version s q.blk

/-- Open blocks taken in order. -/
def stepBlocks (pass : StepPass) (qs : List OpenBlock) (s : State) : State :=
  match qs with
  | [] => s
  | q :: r => stepBlocks pass r (stepBlock pass s q)

/-- The firings of a context with work left, oldest first by entry. -/
def openFirings (c : Cc) : List (Nat × BitVec 16) :=
  c.entries.flatMap (fun q => (q.2.firings.filter (fun f => (List.range (chunkBlocks c)).any (fun j => !f.blocksDone.contains j))).map
    (fun f => (q.1, f.version)))

/-- The open blocks of a context's firings, oldest first by entry. -/
def openBlocks (s : State) (n : Nat) : List OpenBlock :=
  (openFirings (ccOf s n)).flatMap (fun q => (List.range (chunkBlocks (ccOf s n))).map (fun j => { cc := n, entry := q.1, version := q.2, blk := j }))

/-- The stack whose engine takes a block, 8 where its data lie in none. -/
def stackOfBlock (s : State) (q : OpenBlock) : Nat :=
  match (entryOf (ccOf s q.cc) q.entry).firings.find? (fun f => f.version = q.version) with
  | none => 8
  | some f => match ccPlace s q.cc (blockAddr f q.blk) with
    | some (.cap pa) => hbmStack pa
    | _ => 8

/-- Open blocks in the order of the channels by which their units report: stacks 0 to 7 (25 R483). -/
def byStack (s : State) (qs : List OpenBlock) : List OpenBlock := (List.range 9).flatMap (fun k => qs.filter (fun q => stackOfBlock s q = k))

/-- Rounds that may have ended. -/
def settleRounds (ns : List Nat) (s : State) : State :=
  match ns with
  | [] => s
  | n :: r => settleRounds r (settleRound s n)

/-- The steps of collective contexts go on: every block with work left, stack by stack; then the faults met, by processor; then the rounds' ends
(R363, 25 R483). -/
def runStepsOf (ns : List Nat) (s : State) : State :=
  let qs := ns.flatMap (openBlocks s)
  settleRounds ns (stepBlocks .faults qs (stepBlocks .churns (byStack s qs) s))

/-- A context's steps go on. -/
def runSteps (s : State) (n : Nat) : State := runStepsOf [n] s

/-! ## Firing (07 R184) -/

/-- An entry fires if it can; its churn begins (R184, R186). -/
def tryFire (s : State) (n x : Nat) : State :=
  if fires (ccOf s n) (entryOf (ccOf s n) x) then runSteps (fireEntry s n x) n else s

/-- The churn of an entry has not begun: it fired as a TSET completed its mask (R185). -/
def churnDue (c : Cc) (x : Nat) : Bool := (openFirings c).any (fun q => q.1 = x)

/-! ## Arrivals (07 R180, R189; 16 R354, R355, R357, R360) -/

/-- An arrival discarded and counted (R354). -/
def discard (s : State) (n : Nat) : State := onCc s n (fun c => { c with discarded := c.discarded + 1 })

/-- The answer to a curd (R189). -/
def answer (s : State) (h : Hdr) (entry blk : Nat) (ok : Bool) : State :=
  sendMsg s (.reply { h with src := h.dst, dst := h.src } entry blk ok)

/-- An entry armed in the round takes this chunk's curds (R355, R358). -/
def takesCurd (c : Cc) (e : TileEntry) (gather : Bool) (chunk : Nat) : Bool :=
  e.armedRound = c.round.num && e.image.chunk = chunk &&
  (if gather then e.image.role = 3 else e.image.role = 1 || e.image.role = 2)

/-- The entry whose slot a curd reaches. -/
def slotFor (c : Cc) (gather : Bool) (chunk src : Nat) : Option Nat :=
  (c.entries.find? (fun q => takesCurd c q.2 gather chunk && senderOk c q.2.image src)).map (fun q => q.1)

/-- A curd at its entry: accepted, a second arrival, or refused "not posted" (R180, R189, R355). -/
def slotTakes (s : State) (n x : Nat) (h : Hdr) (blk entry : Nat) (bytes : List Byte) : State :=
  let e := entryOf (ccOf s n) x
  if !e.slot.posted then
    answer (onEntry s n x (fun e => if e.image.peermode && e.image.role = 1 then
      { e with slot := { e.slot with kept := insertNat e.slot.kept h.src } } else e)) h entry blk false
  else if (Tbl.get e.slot.got blk).isSome then answer (discard s n) h entry blk true
  else tryFire (answer (onEntry s n x (fun e => { e with slot := { e.slot with got := Tbl.put e.slot.got blk bytes } })) h entry blk true) n x

/-- A curd for a chunk that no entry armed in the round takes: its sender is kept for a hop that takes it later from any member (R355). -/
def keepEarly (s : State) (h : Hdr) (gather : Bool) (chunk : Nat) : State :=
  onCc s h.cc (fun c =>
    if gather || !active c || !(ringRanks c).contains h.src || c.early.contains (chunk, h.src) then c else { c with early := c.early ++ [(chunk, h.src)] })

/-- The message matches the context's ring and round (R354). -/
def hdrMatches (c : Cc) (h : Hdr) : Bool := h.gen = ringGen c && h.round = c.round.num

/-- A curd arrives (R180, R189, R354). One for a context that is not bound here is dropped, neither counted nor answered (DESIGN CHOICE, log 126). -/
def curdArrives (s : State) (h : Hdr) (gather : Bool) (chunk blk entry : Nat) (bytes : List Byte) : State :=
  let c := ccOf s h.cc
  if c.st = .unbound then s
  else if !hdrMatches c h then answer (discard s h.cc) h entry blk false
  else match slotFor c gather chunk h.src with
    | none => answer (keepEarly s h gather chunk) h entry blk false
    | some x => slotTakes s h.cc x h blk entry bytes

/-- An answer arrives: the send is accepted, or joins the refusal mask (R189, R357). One that comes once the round is no longer ACTIVE is
discarded and counted, as is a posted notice (DESIGN CHOICE, log 120). -/
def replyArrives (s : State) (h : Hdr) (entry blk : Nat) (ok : Bool) : State :=
  let c := ccOf s h.cc
  if c.st = .unbound then s
  else if !hdrMatches c h || !active c then discard s h.cc
  else
    settleRound (onFiring s h.cc (entry % 256) (BitVec.ofNat 16 (entry / 256)) (fun f =>
      { f with sends := f.sends.map (fun q => if q.rank = h.src && Tbl.get q.sent blk = some .flying then
          { q with sent := Tbl.put q.sent blk (if ok then .accepted else .refused) } else q) })) h.cc

/-- A posted notice arrives and is kept (R358; log 120). -/
def noticeArrives (s : State) (h : Hdr) (gather : Bool) (chunk : Nat) : State :=
  let c := ccOf s h.cc
  if c.st = .unbound then s
  else if !hdrMatches c h || !active c then discard s h.cc
  else onCc s h.cc (fun c => if c.notices.contains (h.src, gather, chunk) then c else { c with notices := c.notices ++ [(h.src, gather, chunk)] })

/-- An abort notice arrives (R364). -/
def abortArrives (s : State) (h : Hdr) : State :=
  let c := ccOf s h.cc
  if c.st = .unbound then s
  else if !hdrMatches c h || !active c then discard s h.cc
  else abortRound s h.cc 3 h.src

/-! ## The events -/

/-- A message that is due is taken and acted on. -/
def onMsg (s : State) (m : Msg) (act : State → Msg → Option State) : Host.Outcome State Fault Refusal :=
  if deliverable s m then .next ((act (takeMsg s m) m).getD s) else .next s

/-- CURD_ARRIVAL (R180). -/
def execCurdArrival (m : Msg) (s : State) : Host.Outcome State Fault Refusal :=
  onMsg s m (fun s m => match m with
    | .curd h gather chunk blk entry bytes => some (curdArrives s h gather chunk blk entry bytes)
    | _ => none)

/-- CURD_REPLY (R189). -/
def execCurdReply (m : Msg) (s : State) : Host.Outcome State Fault Refusal :=
  onMsg s m (fun s m => match m with
    | .reply h entry blk ok => some (replyArrives s h entry blk ok)
    | _ => none)

/-- POSTED_NOTICE (R358). -/
def execPostedNotice (m : Msg) (s : State) : Host.Outcome State Fault Refusal :=
  onMsg s m (fun s m => match m with
    | .posted h gather chunk => some (noticeArrives s h gather chunk)
    | _ => none)

/-- ABORT_NOTICE (R364). -/
def execAbortNotice (m : Msg) (s : State) : Host.Outcome State Fault Refusal :=
  onMsg s m (fun s m => match m with
    | .abort h => some (abortArrives s h)
    | _ => none)

/-- ENTRY_FIRE (R184): an entry fires if it can; and the churn of one that has fired begins. -/
def execEntryFire (cc e : Nat) (s : State) : Host.Outcome State Fault Refusal :=
  .next (if 1024 ≤ cc then s
    else if fires (ccOf s cc) (entryOf (ccOf s cc) e) || churnDue (ccOf s cc) e then runSteps (fireEntry s cc e) cc else s)

/-- FIRING_COMPLETE (R357): the steps of an entry's firings go on, and those that end are settled. -/
def execFiringComplete (cc e : Nat) (s : State) : Host.Outcome State Fault Refusal :=
  .next (if (openFirings (ccOf s cc)).any (fun q => q.1 = e) || active (ccOf s cc) then runSteps s cc else s)

/-- ROUND_DEADLINE (R190, R364). -/
def execRoundDeadline (cc : Nat) (s : State) : Host.Outcome State Fault Refusal :=
  .next (match (ccOf s cc).round.deadline with
    | none => s
    | some t => if active (ccOf s cc) && t ≤ s.now then abortRound s cc 1 0 else s)

/-- The sectors of a page. -/
def pageSectors (pa : Nat) : List Nat := (List.range 32).map (fun k => pa / 65536 * 65536 + 2048 * k)

/-- A page of whey brought in: every sector of it (R177). -/
def fillPage (s : State) (pa : Nat) : State := (pageSectors pa).foldl (fun s a => hbmFill s a false) s

/-- A page that a step waits for: the fabric processor brings it in; one asked of the host is in once the host's reads have moved it (R177, 23
R444; log 60). -/
def wheyMoved (s : State) (cc page : Nat) : Option State :=
  match ccPlace s cc (page * 65536) with
  | some (.cap pa) => if (ccOf s cc).wheyHost.contains page then (if (pageSectors pa).all (wheyReady s) then some s else none) else some (fillPage s pa)
  | _ => some s

/-- WHEY_PAGE_IN (R177): the stalled step resumes. -/
def execWheyPageIn (cc page : Nat) (s : State) : Host.Outcome State Fault Refusal :=
  .next (if (ccOf s cc).wheyWaits.contains page then
    match wheyMoved s cc page with
    | none => s
    | some s1 => runSteps (onCc s1 cc (fun c => { c with wheyWaits := c.wheyWaits.erase page, wheyHost := c.wheyHost.filter (fun p => p ≠ page) })) cc
  else s)

end Sys2Proof.Machine
end

