-- ==== Sys2Proof/Machine/CopyEngine.lean ====
section
/-! DEFINITION. CopyEngine: what the copy engines do on their own: CPY32s that land, tensor copies, multicast, faults of the global side,
frees that take effect, lines that fill (04 R104, R109-R125; 14 R319; 03 R78). An event that its unit is not ready for changes
nothing (log 1). -/

namespace Sys2Proof.Machine

/-! ## Faults of the global side (04 R109, 15 R331) -/

/-- A stream of a team's q1 given up (04 R109). -/
def dropStream (t n : Nat) (k : Block) : Block := mapTeam k t (fun m => { m with q1 := m.q1.filter (fun q => q.num ≠ n) })

/-- The data of a TCOPY store taken into the signatures that wait for them (25 R474). -/
def payCopy (s : State) (b sel n : Nat) : State :=
  match Tbl.get s.blocks b, launchOf s b with
  | some k, some l =>
    match k.cmds.find? (fun c => c.tl = sel && c.num = n) with
    | some c =>
      match c.op with
      | .tcopy true _ y cs _ _ _ => if l.lr.commit = 3 then putBlock s b (payRecords n (tcopyRecords y cs c.wrote) k) else s
      | _ => s
    | none => s
  | _, _ => s

/-- A command abandoned: its timeline goes past it, an MVX delivers nothing, one ABANDON entry is logged (R109; 25 R526). -/
def abandonCmd (s0 : State) (b sel n addr : Nat) : State :=
  let s := payCopy s0 b sel n
  match Tbl.get s.blocks b with
  | none => s
  | some k =>
    match k.cmds.find? (fun c => c.tl = sel && c.num = n) with
    | none => s
    | some c =>
      let k1 := if sel = 0x1002 then dropStream c.team n k else k
      let k2 := if c.team = frontTeam then { k1 with ffault := k1.ffault ||| 0x40000000 } else k1
      let e : LogItem :=
        { cls := clsAbandon, ctx := ctxNum s b, aux := sel - 0x1000, unit := 1,
          place := if c.team ≤ frontTeam then teamPlace k c.team else k.core * 65536 + 0xFFFE,
          value0 := BitVec.ofNat 64 addr, value1 := BitVec.ofNat 64 n }
      blockEndCheck (logEntry e (putBlock s b (finishCmd sel n k2))) b

/-- The launch of a block has a trap handler. -/
def hasHandler (s : State) (b : Nat) : Bool :=
  match launchOf s b with
  | none => false
  | some l => l.lr.handler ≠ 0

/-- A fault of a command's global side: pending on the issuing team, the command held; or the command abandoned (R109, R331). -/
def engineFault (s : State) (b sel n code addr : Nat) : State :=
  match Tbl.get s.blocks b with
  | none => s
  | some k =>
    match k.cmds.find? (fun c => c.tl = sel && c.num = n) with
    | none => s
    | some c =>
      let live := c.team < frontTeam && (match Tbl.get k.teams c.team with
        | none => false
        | some m => teamLive m)
      if live && hasHandler s b then
        putBlock s b (addAsync (mapCmd sel n (fun c => { c with stalled := true, waits := [] }) k) c.team
          { code := code, sel := BitVec.ofNat 16 sel, cmd := BitVec.ofNat 64 n, val := BitVec.ofNat 64 addr })
      else abandonCmd s b sel n addr

/-! ## Tensor copies (04 R117-R121) -/

/-- The progress of a run of a copy command: the bytes of the box moved, pages waited on, the first fault. -/
structure CopyRun where
  s : State
  moved : List Nat
  waits : List Nat
  bad : Option (Nat × Nat)
  stall : Bool
  /-- A byte to be moved holds poison: the run ends there (25 R470). -/
  hurt : Bool := false
  /-- The bytes that a store wrote, by byte of the box. -/
  wrote : Tbl Byte := []

/-- One command's fixed facts: block, core, issuing team, whether it stores, layout, coordinates, scratchpad offset. -/
structure CopyJob where
  b : Nat
  x : Nat
  core : Nat
  team : Nat
  store : Bool
  y : Layout
  c : List Int
  off : Nat
  /-- The step at which the command was accepted. -/
  born : Nat := 0

/-- The scratchpad place of a byte of the box. -/
def CopyJob.spad (j : CopyJob) (k : Nat) : Nat := j.core * Config.spadBytes + j.off + k

/-- What an unfinished CPY32 or tensor load writes comes to stand at a byte of a scratchpad: unless another write, made while it was
outstanding, wrote the byte, and the spec leaves the byte's 8-byte unit either value (R113, 14 R315; log 14). -/
def copyStands (s : State) (id a : Nat) : Bool :=
  match Tbl.get s.spadRaces a with
  | none => true
  | some t => t ≤ id || !Config.copyFirst id (a / 8)

/-- A byte that a tensor load brings to a place of the scratchpad, or the byte that another write has left there: of two outstanding tensor loads
of one 8-byte unit either's value stands, a free choice (04 R113, 14 R315; log 129). -/
def loadByte (id a : Nat) (v : Byte) (s : State) : State := if copyStands s id a then putSpad s a [v] else s

/-- The writer a store counts for (25 R479). -/
def CopyJob.writer (j : CopyJob) : Writer := { b := some j.b, t := j.team, counted := true }

/-- What moving a byte of the box writes, its global place known: the bits of its elements from one side, the rest from the other, or the
fill. -/
def copyValue (j : CopyJob) (k : Nat) (s : State) (p : Phys) : Byte :=
  let mask := (boxByte j.y j.c k).2
  let g := readByte s (shadowOf s j.b) p 0
  if j.store then (g &&& ~~~mask) ||| (Sparse.get (w := 8) s.spad (j.spad k) &&& mask) else (g &&& mask) ||| (j.y.fill &&& ~~~mask)

/-- A byte of the box moved, its global place known. -/
def copyByte (j : CopyJob) (k : Nat) (s : State) (p : Phys) : State :=
  if j.store then writePhys s j.writer p [copyValue j k s p] else loadByte j.born (j.spad k) (copyValue j k s p) (touch s p false)

/-- What moving a byte of the box reads holds poison. -/
def copyHurt (j : CopyJob) (k : Nat) (s : State) (p : Phys) : Bool :=
  rerunnable s j.b && poisoned s (shadowOf s j.b) (if j.store then .spad (j.spad k) else p) 1

/-- One byte of the box taken: moved, skipped, or noted as waiting or failing (R117, R109). A load reads the maps, ahead of translation; no
store reaches them (R106, R107). -/
def copyStep (j : CopyJob) (failed : List Nat) (r : CopyRun) (k : Nat) : CopyRun :=
  let q := boxByte j.y j.c k
  if q.2 = 0 then
    if j.store then { r with moved := r.moved ++ [k] }
    else { r with s := loadByte j.born (j.spad k) j.y.fill r.s, moved := r.moved ++ [k] }
  else
    let t := globalTarget r.s j.x q.1 (!j.store)
    let need := if j.store then needW else needR
    match reachTarget r.s j.x failed need t with
    | .go p =>
      if j.store && !storeRoomAt r.s j.b p then { r with stall := true }
      else if copyHurt j k r.s p then { r with hurt := true }
      else { r with s := copyByte j k (noteTarget r.s j.x t) p, moved := r.moved ++ [k],
                    wrote := if j.store then Tbl.put r.wrote k (copyValue j k r.s p) else r.wrote }
    | .miss level cls =>
      { r with s := joinRecord r.s j.x (targetPage t) level cls need.kinds, waits := addPage r.waits (targetPage t) }
    | .denied => if r.bad.isSome then r else { r with bad := some (0x08, q.1) }
    | .failed => if r.bad.isSome then r else { r with bad := some (0x07, q.1) }
where
  /-- A store has room in its unit's shadow (25 R472). -/
  storeRoomAt (s : State) (b : Nat) (p : Phys) : Bool :=
    match p with
    | .cap pa => shadowRoom s b pa
    | _ => true

/-- Bytes of the box taken in order. -/
def copySteps (j : CopyJob) (failed : List Nat) (r : CopyRun) (ks : List Nat) : CopyRun :=
  match ks with
  | [] => r
  | k :: t => copySteps j failed (copyStep j failed r k) t

/-- The lines that a run completed: every byte the command writes in them has landed, the last of them now (03 R78). `at` gives the
scratchpad place of a byte. -/
def filledLines (place : Nat → Nat) (all done moved : List Nat) : List Nat :=
  (moved.map (fun k => place k / 128)).eraseDups.filter (fun l => all.all (fun k => place k / 128 ≠ l || done.contains k))

/-- Whether every byte that an operation on the whole needs can be reached: nothing is written unless so (R119). -/
def probeAll (x : Nat) (failed : List Nat) (need : Need) (r : CopyRun) (as : List Nat) : CopyRun :=
  match as with
  | [] => r
  | a :: t =>
    let g := globalTarget r.s x a (!need.w)
    probeAll x failed need (match reachTarget r.s x failed need g with
      | .go _ => r
      | .miss level cls =>
        { r with s := joinRecord r.s x (targetPage g) level cls need.kinds, waits := addPage r.waits (targetPage g) }
      | .denied => if r.bad.isSome then r else { r with bad := some (0x08, a) }
      | .failed => if r.bad.isSome then r else { r with bad := some (0x07, a) }) t

/-- A run that has done nothing. -/
def CopyRun.start (s : State) : CopyRun := { s := s, moved := [], waits := [], bad := none, stall := false }

/-- The physical place of a byte of device-global space that translates. -/
def capPlace (s : State) (x a : Nat) : Option Nat :=
  match placeOf s x (globalTarget s x a false) with
  | some (.cap pa) => some pa
  | _ => none

/-- The unit that a block's stores are held back with, until its commit (25 R472). -/
def unitOf (s : State) (b : Nat) : Option (Nat × Nat × Nat) :=
  match Tbl.get s.blocks b, launchOf s b with
  | some k, some l => if l.lr.commit = 0 then none else some (k.launch, k.lin, k.copy)
  | _, _ => none

/-- The tile that a sealed store has written (R119). -/
def sealedTile (s : State) (j : CopyJob) (verAddr : Nat) : SealedTile :=
  let at_ := fun (a : Nat) => placeOf s j.x (globalTarget s j.x a false)
  let box := ((List.range j.y.bytes).map (boxByte j.y j.c)).filter (fun q => q.2 ≠ 0)
  tileOf (box.map (fun q => (at_ q.1, 1)) ++ [(at_ verAddr, 8)]) (unitOf s j.b)

/-- A tile sealed; past 4,096 the oldest loses its sealing (R120). -/
def addSeal (s : State) (x : Nat) (t : SealedTile) : State :=
  let c := ctxOf s x
  if c.seals.length < 4096 then putCtx s x { c with seals := c.seals ++ [t] }
  else bumpCtx x 3 (putCtx s x { c with seals := c.seals.tail ++ [t] })

/-- The version word written (R119). -/
def writeVersion (s : State) (j : CopyJob) (ver : DWord) (verAddr : Nat) : State :=
  match placeOf s j.x (globalTarget s j.x verAddr false) with
  | none => s
  | some p => writePhys s j.writer p (leBytes 8 ver.toNat)

/-- The version word has room in the unit's shadow (25 R472). -/
def versionRoom (s : State) (j : CopyJob) (verAddr : Nat) : Bool :=
  match placeOf s j.x (globalTarget s j.x verAddr false) with
  | some (.cap pa) => shadowRoom s j.b pa
  | _ => true

/-- What a run leaves on its command: the bytes moved, those written of a paired block's store, and the pages waited on. -/
def noteRun (b sel n : Nat) (r : CopyRun) (lines : List Nat) (s : State) : State :=
  let paired := (launchOf s b).any (fun l => l.lr.commit = 3)
  setLines (onBlock s b (mapCmd sel n (fun c => { c with
    doneElems := c.doneElems ++ r.moved, waits := r.waits,
    wrote := if paired then r.wrote.foldl (fun t q => Tbl.put t q.1 q.2) c.wrote else c.wrote }))) lines true

/-- The notes of raced bytes go with the last outstanding CPY32 or tensor load. -/
def clearRaces (s : State) : State := if copiesOut s then s else { s with spadRaces := [] }

/-- The command has completed: V may rise, and an ended block may be free (R104; 14 R320). -/
def completeCmd (s : State) (b sel n : Nat) : State := blockEndCheck (clearRaces (onBlock (payCopy s b sel n) b (finishCmd sel n))) b

/-- The end of a run over all that was left: complete, wait, or fault (R109); where it met poison, the block is rerun. -/
def endRun (b sel n : Nat) (r : CopyRun) (s : State) : State :=
  if r.hurt then consumePoison s b
  else if r.waits ≠ [] || r.stall then s
  else match r.bad with
    | some (code, a) => engineFault s b sel n code a
    | none => completeCmd s b sel n

/-- A tensor copy runs: every byte left is tried; of a sealed store none is written unless all can be (R117-R121). -/
def runTcopy (s : State) (j : CopyJob) (c : EngCmd) (isSealed : Bool) (ver : DWord) (verAddr : Nat) : State :=
  let all := List.range j.y.bytes
  let left := all.filter (fun k => !c.doneElems.contains k)
  if isSealed then
    let as := (left.filter (fun k => (boxByte j.y j.c k).2 ≠ 0)).map (fun k => (boxByte j.y j.c k).1) ++ [verAddr]
    let p := probeAll j.x c.failed needRW (CopyRun.start s) as
    if p.waits ≠ [] || p.bad.isSome then endRun j.b c.tl c.num p (noteRun j.b c.tl c.num p [] p.s)
    else
      let r := copySteps j c.failed (CopyRun.start p.s) left
      if r.stall || !versionRoom r.s j verAddr then p.s
      else if r.hurt then consumePoison p.s j.b
      else endRun j.b c.tl c.num r (addSeal (writeVersion (noteRun j.b c.tl c.num r [] r.s) j ver verAddr) j.x (sealedTile r.s j verAddr))
  else
    let r := copySteps j c.failed (CopyRun.start s) left
    let lines := if j.store then [] else filledLines j.spad all (c.doneElems ++ r.moved) r.moved
    endRun j.b c.tl c.num r (noteRun j.b c.tl c.num r lines r.s)

/-- A command of a block's timeline that has not completed and is not held by a fault or a record. -/
def liveCmd (s : State) (b sel n : Nat) : Option (Block × EngCmd) :=
  match Tbl.get s.blocks b with
  | none => none
  | some k =>
    match k.cmds.find? (fun c => c.tl = sel && c.num = n) with
    | none => none
    | some c => if c.finished || c.stalled || c.waits ≠ [] then none else some (k, c)

/-- The job of a tensor copy. -/
def copyJob (s : State) (b : Nat) (k : Block) (c : EngCmd) (store : Bool) (y : Layout) (cs : List Int) (off : Nat) : CopyJob :=
  { b := b, x := ctxNum s b, core := k.core, team := c.team, store := store, y := y, c := cs, off := off, born := c.born }

/-- COPY_COMMAND_COMPLETE: a tensor copy of the copy timeline runs to its end, or as far as it can (R104). -/
def copyCommandComplete (b n : Nat) (s : State) : State :=
  match liveCmd s b 0x1000 n with
  | none => s
  | some (k, c) =>
    match c.op with
    | .tcopy store isSealed y cs off ver verAddr => runTcopy s (copyJob s b k c store y cs off) c isSealed ver verAddr
    | _ => s

/-! ## CPY32 (04 R112, R113) -/

/-- The place of a CPY32 source byte. -/
def copyPlace (space n : Nat) : Phys :=
  match space with
  | 0 => .cap n
  | 5 => .sys n
  | 4 => .chip n
  | _ => .spad n

/-- A source byte of a CPY32 brought in. -/
def copyTouch (space : Nat) (s : State) (n : Option Nat) : State :=
  match n with
  | none => s
  | some n => touch s (copyPlace space n) false

/-- One lane's 32 bytes, of those at places that `keep` admits, written to the scratchpad of a core. -/
def landLane (b core space : Nat) (keep : Nat → Bool) (s : State) (q : Nat × List (Option Nat)) : State :=
  (q.2.zipIdx).foldl (fun s c =>
    let a := core * Config.spadBytes + q.1 + c.2
    if keep a then
      let s1 := copyTouch space s c.1
      putSpad s1 a [(c.1.map (fun n => readByte s1 (shadowOf s1 b) (copyPlace space n) 0)).getD 0]
    else s) s

/-- Lanes in ascending order, so that the highest one's bytes remain (R110). -/
def landLanes (b core space : Nat) (keep : Nat → Bool) (qs : List (Nat × List (Option Nat))) (s : State) : State :=
  match qs with
  | [] => s
  | q :: r => landLanes b core space keep r (landLane b core space keep s q)

/-- The lines a CPY32 writes. -/
def cpyLines (core : Nat) (c : TagCopy) : List Nat := (c.lanes.map (fun q => (core * Config.spadBytes + q.1) / 128)).eraseDups

/-- The oldest outstanding CPY32 of a tag. -/
def oldestCopy (m : Team) (tag : Nat) : Option TagCopy := m.copies.find? (fun c => c.tag = tag)

/-- A source byte of a CPY32 holds poison. -/
def copyPoisoned (s : State) (b : Nat) (c : TagCopy) : Bool :=
  c.lanes.any (fun q => q.2.any (fun n => n.any (fun n => poisoned s (shadowOf s b) (copyPlace c.space n) 1)))

/-- CPY32_COMPLETE: the oldest CPY32 of a tag lands, and its counter falls (R112; log 14). -/
def cpy32Complete (b t tag : Nat) (s : State) : State :=
  match Tbl.get s.blocks b with
  | none => s
  | some k =>
    match (Tbl.get k.teams t).bind (fun m => oldestCopy m tag) with
    | none => s
    | some c =>
      if rerunnable s b && copyPoisoned s b c then consumePoison s b
      else
      let s1 := landLanes b k.core c.space (fun a => !c.doneLines.contains (a / 128) && copyStands s c.id a) c.lanes s
      let s2 := if c.fe then setLines s1 ((cpyLines k.core c).filter (fun l => !c.doneLines.contains l)) true else s1
      blockEndCheck (clearRaces (onTeam s2 b t (fun m => { m with copies := m.copies.filter (fun q => q.id ≠ c.id) }))) b

/-! ## Multicast (04 R122-R125) -/

/-- The key of a byte at a target among a multicast's bytes. -/
def mcastKey (target j : Nat) : Nat := target * 2 ^ 20 + j

/-- The core of a target. -/
def mcastCore (core target : Nat) : Nat := core / Config.coresPerCluster * Config.coresPerCluster + target

/-- The block, of the same device context, whose allocation holds a range on a core. -/
def holderOn (s : State) (x core off n : Nat) : Option (Nat × Alloc) :=
  match s.blocks.find? (fun c => c.2.core = core && ctxNum s c.1 = x && (allocHolding c.2 off n).isSome && c.2.st ≠ .saved) with
  | none => none
  | some c => (allocHolding c.2 off n).map (fun a => (c.1, a))

/-- A SAVED block's allocation that would hold the range: the target is busy (R123). -/
def savedHolder (s : State) (x core off n : Nat) : Option Alloc :=
  match s.blocks.find? (fun c => c.2.core = core && ctxNum s c.1 = x && (allocHolding c.2 off n).isSome && c.2.st = .saved) with
  | none => none
  | some c => allocHolding c.2 off n

/-- A block is on its way out of or into its core (R123). -/
def blockMoving (k : Block) : Bool := k.st = .saving || k.st = .saved || k.st = .restoring

/-- The reason a target refuses a transfer, 0 for none (R123). Where a block on the core and a SAVED one that ran there both hold the range,
the one on the core answers (DESIGN CHOICE, log 109). -/
def mcastReason (s : State) (x core dst len gen : Nat) : Nat :=
  if s.mgmt.out.contains (.core core) then 1
  else match holderOn s x core dst len with
    | some (b, a) =>
      if a.gen ≠ gen then 2
      else if a.busy || ((Tbl.get s.blocks b).map blockMoving).getD false then 3 else 0
    | none => match savedHolder s x core dst len with
      | some a => if a.gen ≠ gen then 2 else 3
      | none => 1

/-- An allocation of a block that holds a range counts one transfer more or fewer. -/
def countMcast (s : State) (b off n : Nat) (f : Nat → Nat) : State :=
  onBlock s b (fun k => { k with allocs := k.allocs.map (fun a => if a.off ≤ off && off + n ≤ a.off + a.len then { a with mcast := f a.mcast } else a) })

/-- MCAST_ARRIVAL: a targeted core decides, once (R123). -/
def mcastArrival (b n target : Nat) (s : State) : State :=
  match liveCmd s b 0x1000 n with
  | none => s
  | some (k, c) =>
    match c.op with
    | .mcast src dst len mask gens recOff answers =>
      if (Tbl.get answers target).isSome || !(BitVec.ofNat 8 mask).getLsbD target || 8 ≤ target then s
      else
        let core := mcastCore k.core target
        let r := mcastReason s (ctxNum s b) core dst len (gens.getD target 0)
        let s1 := onBlock s b (mapCmd 0x1000 n (fun c => { c with op := .mcast src dst len mask gens recOff (Tbl.put answers target r) }))
        match holderOn s (ctxNum s b) core dst len with
        | some (q, _) => if r = 0 then countMcast s1 q dst len (fun v => v + 1) else s1
        | none => s1
    | _ => s

/-- The targets of a multicast that accepted, and whose block still stands: a target's answer becomes 4 when its block is discarded (R124). -/
def accepted (answers : Tbl Nat) : List Nat := (answers.filter (fun c => c.2 = 0)).map (fun c => c.1)

/-- One byte of a multicast written at a target. -/
def mcastByte (core src dst : Nat) (s : State) (q : Nat) : State :=
  let v := Sparse.get (w := 8) s.spad (core * Config.spadBytes + src + q % 2 ^ 20)
  putSpad s (mcastCore core (q / 2 ^ 20) * Config.spadBytes + dst + q % 2 ^ 20) [v]

/-- Bytes of a multicast written. -/
def mcastBytes (core src dst : Nat) (qs : List Nat) (s : State) : State :=
  match qs with
  | [] => s
  | q :: r => mcastBytes core src dst r (mcastByte core src dst s q)

/-- The source of a multicast that any target takes holds poison (25 R470). -/
def mcastHurt (s : State) (b core src len : Nat) (answers : Tbl Nat) : Bool :=
  rerunnable s b && accepted answers ≠ [] && poisoned s Shadow.empty (.spad (core * Config.spadBytes + src)) len

/-- Where a byte of a multicast goes. -/
def mcastPlace (core dst q : Nat) : Nat := mcastCore core (q / 2 ^ 20) * Config.spadBytes + dst + q % 2 ^ 20

/-- Every byte of a multicast at the targets that accepted. -/
def mcastAll (len : Nat) (answers : Tbl Nat) : List Nat :=
  (accepted answers).flatMap (fun t => (List.range len).map (mcastKey t))

/-- The completion record (R125). -/
def mcastRecord (n : Nat) (answers : Tbl Nat) : Nat :=
  n % 2 ^ 32 * 2 ^ 32 + (answers.map (fun c => if c.2 = 0 || c.2 = 4 then 2 ^ (24 + c.1) else 2 ^ (16 + c.1) + c.2 * 4 ^ c.1)).sum

/-- The transfers an ended multicast had in flight are finished. -/
def mcastRelease (x dst len : Nat) (core : Nat) (ts : List Nat) (s : State) : State :=
  match ts with
  | [] => s
  | t :: r => mcastRelease x dst len core r (match holderOn s x (mcastCore core t) dst len with
      | none => s
      | some (q, _) => blockEndCheck (countMcast s q dst len (fun v => v - 1)) q)

/-- Bytes of a multicast that have not landed land at the targets that accepted, and the lines that this completes are full (R118, R123). -/
def landMcast (core src dst len : Nat) (done : List Nat) (answers : Tbl Nat) (s : State) : State :=
  let left := (mcastAll len answers).filter (fun q => !done.contains q)
  setLines (mcastBytes core src dst left s) (filledLines (mcastPlace core dst) (mcastAll len answers) (done ++ left) left) true

/-- MCAST_COMPLETE: every target has decided; the bytes not yet landed land, the record is written, the command completes (R118, R123-R125). -/
def mcastComplete (b n : Nat) (s : State) : State :=
  match liveCmd s b 0x1000 n with
  | none => s
  | some (k, c) =>
    match c.op with
    | .mcast src dst len mask _ recOff answers =>
      if (List.range 8).any (fun t => (BitVec.ofNat 8 mask).getLsbD t && (Tbl.get answers t).isNone) then s
      else if mcastHurt s b k.core src len answers then consumePoison s b
      else
        let s3 := putSpad (landMcast k.core src dst len c.doneElems answers s) (k.core * Config.spadBytes + recOff) (leBytes 8 (mcastRecord n answers))
        completeCmd (mcastRelease (ctxNum s b) dst len k.core (accepted answers) s3) b 0x1000 n
    | _ => s

/-! ## Lines that fill ahead of their command (03 R78) -/

/-- LINE_SET_FULL for a tensor copy or multicast of the copy timeline: the bytes it writes in a line land, and the line is full. -/
def lineOfCmd (b n line : Nat) (s : State) : State :=
  match liveCmd s b 0x1000 n with
  | none => s
  | some (k, c) =>
    match c.op with
    | .tcopy false _ y cs off _ _ =>
      let j := copyJob s b k c false y cs off
      let mine := (List.range y.bytes).filter (fun q => j.spad q / 128 = line && !c.doneElems.contains q)
      let r := copySteps j c.failed (CopyRun.start s) mine
      if mine = [] || r.waits ≠ [] || r.bad.isSome || r.stall || r.hurt then s else noteRun b 0x1000 n r [line] r.s
    | .mcast src dst len _ _ _ answers =>
      let mine := (mcastAll len answers).filter (fun q => mcastPlace k.core dst q / 128 = line && !c.doneElems.contains q)
      if mine = [] || mcastHurt s b k.core src len answers then s
      else
        let r := { CopyRun.start (mcastBytes k.core src dst mine s) with moved := mine }
        noteRun b 0x1000 n r [line] r.s
    | _ => s

/-- LINE_SET_FULL for the CPY32 with an identity. -/
def lineOfCpy (b id line : Nat) (s : State) : State :=
  match Tbl.get s.blocks b with
  | none => s
  | some k =>
    match k.teams.find? (fun c => c.2.copies.any (fun q => q.id = id)) with
    | none => s
    | some (t, m) =>
      match m.copies.find? (fun q => q.id = id) with
      | none => s
      | some c =>
        if !c.fe || !(cpyLines k.core c).contains line || c.doneLines.contains line || (rerunnable s b && copyPoisoned s b c) then s
        else
          onTeam (setLines (landLanes b k.core c.space (fun a => a / 128 = line && copyStands s c.id a) c.lanes s) [line] true) b t
            (fun m => { m with copies := m.copies.map (fun q => if q.id = id then { q with doneLines := line :: q.doneLines } else q) })

/-! ## Frees that take effect (14 R319) -/

/-- A split has issued a CPY32, not after a step, that has not been accepted. -/
def opensCopy (at_ : Nat) (p : Split) : Bool :=
  (openHeld p).any (fun h => !h.fetching && h.born ≤ at_ && h.code.any (fun w => bitsOf w.toNat 0 2 = 3 && bitsOf w.toNat 3 8 = 0x65))

/-- A team has such a CPY32, or one that has been accepted since. -/
def copiesBefore (at_ : Nat) (m : Team) : Bool :=
  m.splits.any (fun c => opensCopy at_ c.2) || m.defer.any (opensCopy at_) || m.copies.any (fun c => c.born ≤ at_)

/-- Nothing that a pending free waits for is left. -/
def freeReady (k : Block) (a : Alloc) : Bool :=
  a.busy && a.mcast = 0 && a.waitCmds.all (fun q => !k.cmds.any (fun c => c.tl = q.1 && c.num = q.2 && !c.finished)) &&
  a.waitCopies.all (fun q => !k.teams.any (fun c => c.2.copies.any (fun p => p.id = q))) &&
  k.teams.all (fun c => !copiesBefore a.freedAt c.2)

/-- SPFREE_TAKES_EFFECT (R319). -/
def spfreeTakesEffect (b gen : Nat) (s : State) : State :=
  onBlock s b (fun k => { k with allocs := k.allocs.filter (fun a => !(a.gen = gen && freeReady k a)) })

/-! ## The events -/

/-- COPY_COMMAND_COMPLETE (R104). -/
def execCopyCommandComplete (b n : Nat) (s : State) : Out := .next (copyCommandComplete b n s)

/-- CPY32_COMPLETE (R112). -/
def execCpy32Complete (b t tag : Nat) (s : State) : Out := .next (cpy32Complete b t tag s)

/-- MCAST_ARRIVAL (R123). -/
def execMcastArrival (b n target : Nat) (s : State) : Out := .next (mcastArrival b n target s)

/-- MCAST_COMPLETE (R125). -/
def execMcastComplete (b n : Nat) (s : State) : Out := .next (mcastComplete b n s)

/-- SPFREE_TAKES_EFFECT (R319). -/
def execSpfreeTakesEffect (b gen : Nat) (s : State) : Out := .next (spfreeTakesEffect b gen s)

/-- LINE_SET_FULL (R78): `eng` 0 names a command of the copy timeline by its number, 1 a CPY32 by its identity. -/
def execLineSetFull (b eng n line : Nat) (s : State) : Out := .next (if eng = 0 then lineOfCmd b n line s else lineOfCpy b n line s)

end Sys2Proof.Machine
end

