-- ==== Sys2Proof/Machine/Sched.lean ====
section
/-! DEFINITION. Sched: what comes between instructions: asynchronous and pending traps, the progress watchdog, aged splits, results (01 R37,
R42; 02 R50; 15 R331, R339, R340; 25 R465, R467). -/

namespace Sys2Proof.Machine

/-! ## Traps at an instruction boundary -/

/-- A split takes a trap at its next instruction: TPC and TRES name it, and RETT returns the split to the state it had (R465, 01 R42). -/
def takeAsync (s : State) (b t e : Nat) (r : TrapRec) : State :=
  match (teamOf s b t).bind (fun m => Tbl.get m.splits e) with
  | none => s
  | some p =>
    let done := (p.held.map (fun h => h.done)).getD 0
    onTeam (takeTrap s b t e { r with pc := p.pc, res := p.pc, done := done } p.held.isSome []) b t (fun m =>
      { m with trap := m.trap.map (fun h => { h with prior := p.st, kept := p.held, line := p.line }) })

/-- An MMA that waits in the rendezvous latch leaves it when its split traps (05 R134). -/
def leaveLatch (s : State) (b t e : Nat) : State :=
  onBlock s b (fun k => { k with rdv := k.rdv.filter (fun r => !(r.team = t && r.split = e)) })

/-- A trap pending on a split is taken: WATCHDOG at the boundary; any other as its instruction raised it, with the lanes it had done and
the values it issued with (R339, R340). -/
def takePending (s : State) (b t e : Nat) (r : TrapRec) : State :=
  if r.code = 0x09 then takeAsync (leaveLatch s b t e) b t e r
  else
    match (teamOf s b t).bind (fun m => (Tbl.get m.splits e).map (fun p => (m, p))) with
    | none => s
    | some (m, p) => takeTrap s b t e r (r.done ≠ 0) ((p.held.map (fun h => h.xs)).getD m.xr)

/-- The lowest entry with a pending trap. -/
def pendingTrap (m : Team) : Option (Nat × TrapRec) :=
  match m.splits.find? (fun c => c.2.pend.isSome) with
  | none => none
  | some c => c.2.pend.map (fun r => (c.1, r))

/-- The lowest READY entry (R339). -/
def lowestReady (m : Team) : Option Nat := (m.splits.find? (fun c => (readySince c.2).isSome)).map (fun c => c.1)

/-! ## The watchdog (R467) -/

/-- The limit of a context's watchdog: 2^WDLOG cycles, WDLOG 0 standing for 30 (24 R447). -/
def wdLimit (c : Ctx) : Nat := 2 ^ (if c.wdlog = 0 then 30 else c.wdlog)

/-- A split's count has reached the limit, and WATCHDOG has not been taken for it. -/
def wdExpired (s : State) (x : Nat) (p : Split) : Bool := !p.stopped && !p.wdTaken && wdLimit (ctxOf s x) ≤ s.now - p.wd

/-- An expiry that does something: a front program's only while it waits (15 R331); a team's while it runs or handles a trap. -/
def wdDue (s : State) (x t : Nat) (m : Team) (p : Split) : Bool :=
  wdExpired s x p && (if t = frontTeam then p.st = .waitOp && p.avail.isNone else m.st = .running || m.st = .trapped)

/-- The lowest entry whose watchdog has run out (R467). -/
def expiredEntry (s : State) (x t : Nat) (m : Team) : Option Nat := (m.splits.find? (fun c => wdDue s x t m c.2)).map (fun c => c.1)

/-- The topmost deferred split whose watchdog has run out, or that has a trap pending, by its place from the top. -/
def expiredDefer (s : State) (x t : Nat) (m : Team) : Option Nat :=
  m.defer.findIdx? (fun p => wdDue s x t m p || (p.pend.isSome && m.st = .running))

/-- WATCHDOG becomes pending on a split (R339). -/
def pendWatchdog (p : Split) : Split := if p.pend.isSome then { p with wdTaken := true } else { p with pend := some { code := 0x09 }, wdTaken := true }

/-- A split's watchdog as taken, until its count restarts. -/
def wdMark (s : State) (b t e : Nat) : State := onSplit s b t e (fun p => { p with wdTaken := true })

/-- The entry that gives way to a deferred split with a trap: the youngest that waits at a JOIN; where none does, the youngest of those
that are in no rendezvous (DESIGN CHOICE, log 110). -/
def yieldEntry (m : Team) : Option Nat :=
  match youngestEntry (m.splits.filter (fun c => inJoin c.2)) with
  | some e => some e
  | none => youngestEntry (m.splits.filter (fun c => c.2.held.all (fun h => !h.latched)))

/-- A deferred split, by its place from the top, as its slot gives it where that can be read, and the split of an entry change places, and the
slot is written (01 R22, R42; log 110). -/
def bringIn (s : State) (b t d e : Nat) : State :=
  match teamOf s b t with
  | none => s
  | some m =>
    match m.defer[d]?, Tbl.get m.splits e with
    | some p, some y =>
      let n := m.defer.length - 1 - d
      let q := match slotReach s (ctxNum s b) m n needR with
        | (_, .go _) => readSlot s (ctxNum s b) m n p
        | _ => p
      let s1 := onTeam s b t (fun m => restack { m with splits := Tbl.put m.splits e q } (m.defer.set d y))
      writeSlots (((teamOf s1 b t).map (fun m => m.stale)).getD []) b t s1
    | _, _ => s

/-- A split of the table takes WATCHDOG: a handler's split ends the team; another split of a TRAPPED team keeps it pending; a front
program that waits takes a front fault (R467, R339, R341, 15 R331). -/
def expireEntry (s : State) (b t e : Nat) (m : Team) (p : Split) : State :=
  if !wdDue s (ctxNum s b) t m p then s
  else if t = frontTeam then frontFault s b { code := 0x09, pc := p.pc }
  else if m.st = .running then takeAsync (wdMark (leaveLatch s b t e) b t e) b t e { code := 0x09 }
  else if inHandler m p then takeTrap s b t e { code := 0x09, pc := p.pc, res := p.pc } false []
  else onSplit s b t e pendWatchdog

/-- A deferred split takes WATCHDOG, or the trap pending on it, in an entry of the table; in a TRAPPED team it keeps it (01 R42, R467). -/
def expireDefer (s : State) (b t d : Nat) (m : Team) (p : Split) : State :=
  if m.st = .running then
    match yieldEntry m with
    | none => s
    | some e =>
      match p.pend with
      | some r => takePending (bringIn s b t d e) b t e r
      | none =>
        if wdDue s (ctxNum s b) t m p then takeAsync (wdMark (bringIn s b t d e) b t e) b t e { code := 0x09 } else s
  else if !wdDue s (ctxNum s b) t m p then s
  else if inHandler m p then takeTrap s b t (16 + d) { code := 0x09, pc := p.pc, res := p.pc } false []
  else onTeam s b t (fun m => { m with defer := m.defer.modify d pendWatchdog })

/-- A split whose count has reached the limit takes WATCHDOG: entry `e` of the table, or, from 16 up, the deferred split at place
`e - 16` from the top. -/
def watchdogExpiry (b t e : Nat) (s : State) : State :=
  match Tbl.get s.blocks b with
  | none => s
  | some k =>
    if !(k.st = .running || k.st = .shrinking) then s
    else match Tbl.get k.teams t with
      | none => s
      | some m =>
        match Tbl.get m.splits e, m.defer[e - 16]? with
        | some p, _ => expireEntry s b t e m p
        | none, some p => if e < 16 then s else expireDefer s b t (e - 16) m p
        | none, none => s

/-- WATCHDOG_EXPIRY (R467). -/
def execWatchdogExpiry (b t e : Nat) (s : State) : Out := .next (watchdogExpiry b t e s)

/-! ## The trap that comes first -/

/-- A deferred split has a trap to take that there is an entry for. -/
def deferTakes (s : State) (x t : Nat) (m : Team) : Bool :=
  (expiredDefer s x t m).isSome && (m.st ≠ .running || (yieldEntry m).isSome)

/-- A team has a trap to take, or to note, before any instruction: pending ones, lowest entry first; WATCHDOG of the lowest entry that
has expired; the oldest asynchronous one, by the lowest READY entry (R339, R340, R465, R467). -/
def dueTrap (s : State) (x t : Nat) (m : Team) : Bool :=
  (m.st = .running && ((pendingTrap m).isSome || (m.asyncs ≠ [] && (lowestReady m).isSome))) ||
  (expiredEntry s x t m).isSome || deferTakes s x t m

/-- That trap taken. -/
def deliverDue (s : State) (b t : Nat) : State :=
  match teamOf s b t with
  | none => s
  | some m =>
    let x := ctxNum s b
    match if m.st = .running then pendingTrap m else none, expiredEntry s x t m, if deferTakes s x t m then expiredDefer s x t m else none with
    | some (e, r), _, _ => takePending s b t e r
    | none, some e, _ => watchdogExpiry b t e s
    | none, none, some d => watchdogExpiry b t (16 + d) s
    | none, none, none =>
      match if m.st = .running then m.asyncs else [], lowestReady m with
      | r :: rest, some e => takeAsync (onTeam s b t (fun m => { m with asyncs := rest })) b t e r
      | _, _ => s

/-- ASYNC_TRAP_DELIVERY (R465). -/
def execAsyncTrapDelivery (b t : Nat) (s : State) : Out := .next (deliverDue s b t)

/-! ## Aging and results -/

/-- A READY split has waited 56 cycles (01 R37). -/
def isAged (s : State) (p : Split) : Bool := (readySince p).any (fun n => 56 ≤ s.now - n)

/-- An aged split's turn comes ahead of every move chosen; of the splits of its datapath the one that has been READY longest issues in it
(`oldestFirst`; 01 R37, 17 R370). -/
def ageSplit (b t e : Nat) (s : State) : State :=
  match (teamOf s b t).bind (fun m => Tbl.get m.splits e) with
  | none => s
  | some p =>
    if isAged s p then { s with agenda := .run (.split b t e) :: s.agenda.filter (fun v => v ≠ .run (.split b t e)) } else s

/-- SPLIT_AGED (01 R37). -/
def execSplitAged (b t e : Nat) (s : State) : Out := .next (ageSplit b t e s)

/-- RESULT_WRITEBACK (02 R50): an instruction's results stand in its registers when it has issued, which its own split, interlocked,
cannot tell from their later arrival, and no other split can read (log 10). -/
def execResultWriteback (_b _t _e : Nat) (s : State) : Out := .next s

end Sys2Proof.Machine
end

