-- ==== Sys2Proof/Machine/Replay.lean ====
section
/-! DEFINITION. Replay: blocks discarded, context kills, launch replay and unit reruns (24 R449; 25 R471, R476, R477; 26 R526). -/

namespace Sys2Proof.Machine

/-! ## Device accesses of a context's space -/

/-- The pieces of a range of device-global space, as asks. -/
def rangeAsks (s : State) (x a n : Nat) (need : Need) : List Ask :=
  (pieces (n / 512 + 2) a n).map (fun q => { lane := 0, tgt := globalTarget s x q.1 false, need := need })

/-- The device asks for a range of a context's space. -/
def deviceAsk (s : State) (x a n : Nat) (need : Need) : AskRun :=
  askAll x [] { s := s, bad := [], waits := [] } (rangeAsks s x a n need)

/-- Bytes of a context's space that translate. -/
def deviceRead (s : State) (x a n : Nat) : List Byte :=
  (pieces (n / 512 + 2) a n).flatMap (fun q => match placeOf s x (globalTarget s x q.1 false) with
    | none => List.replicate q.2 0
    | some p => (List.range q.2).map (readByte s Shadow.empty p))

/-- Bytes written in pieces by the device. -/
def deviceWritePieces (x : Nat) (ps : List (Nat × Nat)) (bs : List Byte) (s : State) : State :=
  match ps with
  | [] => s
  | q :: r => deviceWritePieces x r (bs.drop q.2) (match placeOf s x (globalTarget s x q.1 false) with
      | none => s
      | some p => writePhys s { b := none, t := 0, counted := false } p (bs.take q.2))

/-- Bytes written to a context's space by the device. -/
def deviceWrite (s : State) (x a : Nat) (bs : List Byte) : State := deviceWritePieces x (pieces (bs.length / 512 + 2) a bs.length) bs s

/-! ## Blocks discarded -/

/-- The transfers that a block's unfinished multicasts have in flight end as the block goes: every byte that a target has accepted lands there,
since no transfer is written in part (04 R124). -/
def releaseMcasts (x core : Nat) (cs : List EngCmd) (s : State) : State :=
  match cs with
  | [] => s
  | c :: r => releaseMcasts x core r (match c.op with
      | .mcast src dst len _ _ _ answers =>
        if c.finished then s
        else mcastRelease x dst len core (accepted answers) (landMcast core src dst len c.doneElems answers s)
      | _ => s)

/-- The save slot of a block given back (24 R463). -/
def freeSlot (s : State) (x : Nat) (k : Block) : State :=
  let c := ctxOf s x
  putCtx s x { c with slotsUsed := c.slotsUsed.filter (fun n => k.slot ≠ some n) }

/-- The transfers of a command into allocations of a core that go: their bytes are written nowhere else (04 R124). -/
def finishInto (core : Nat) (as : List Alloc) (from_ : Nat) (c : EngCmd) : EngCmd :=
  match c.op with
  | .mcast src dst len mask gens r answers =>
    let gone := fun (a : Nat × Nat) => a.2 = 0 && mcastCore from_ a.1 = core && as.any (fun q => q.off ≤ dst && dst + len ≤ q.off + q.len)
    { c with op := .mcast src dst len mask gens r (answers.map (fun a => if gone a then (a.1, 4) else a)) }
  | _ => c

/-- Every transfer into a block's allocations has ended, as the block goes (04 R124). -/
def finishTransfers (s : State) (k : Block) : State :=
  if k.allocs.all (fun a => a.mcast = 0) then s
  else { s with blocks := Tbl.mapVals s.blocks (fun _ q => { q with cmds := q.cmds.map (finishInto k.core k.allocs q.core) }) }

/-- A block discarded, with all it holds (25 R476, R477), at once: it is no teardown that waits as 14 R320 has it; its own commands and CPY32s
are given up, its accepted multicasts land (DESIGN CHOICE, log 130). -/
def dropBlock (s : State) (b : Nat) : State :=
  match Tbl.get s.blocks b with
  | none => s
  | some k =>
    let x := ctxNum s b
    let s1 := freeSlot (releaseMcasts x k.core k.cmds s) x k
    match Tbl.get s1.blocks b with
    | none => s1
    | some k1 => dropSeals (freeBlock (finishTransfers s1 k1) b k1 x) (fun u => u = (k.launch, k.lin, k.copy))

/-- Blocks discarded in order. -/
def dropBlocks (bs : List Nat) (s : State) : State :=
  match bs with
  | [] => s
  | b :: r => dropBlocks r (dropBlock s b)

/-- The blocks of a launch, by number. -/
def blocksOf (s : State) (p : Block → Bool) : List Nat := (s.blocks.filter (fun c => p c.2)).map (fun c => c.1)

/-- Pool pages of a shadow. -/
def Shadow.poolPages (h : Shadow) : List Nat := h.pages.map (fun c => c.2)

/-! ## Requests withdrawn (24 R460) -/

/-- The requests posted for a launch on some clusters are withdrawn (24 R460). -/
def withdrawOn (p : Nat → Bool) (s : State) (n : Nat) : State :=
  { s with blocks := Tbl.mapVals s.blocks (fun _ k =>
      if k.shrink.any (fun q => q.forLaunch = n) && p (k.core / 8) then
        { k with shrink := none, st := if k.st = .shrinking then .running else k.st, prior := if k.prior = .shrinking then .running else k.prior }
      else k) }

/-- Every request posted for a launch is withdrawn. -/
def withdraw (s : State) (n : Nat) : State := withdrawOn (fun _ => true) s n

/-- The requests posted for a list of launches are withdrawn. -/
def withdrawAll (ns : List Nat) (s : State) : State :=
  match ns with
  | [] => s
  | n :: r => withdrawAll r (withdraw s n)

/-! ## Context kills (24 R449) -/

/-- A team as it ends without its block's completion. -/
def deadTeam (m : Team) : Team :=
  { m with st := .ended, splits := [], defer := [], joins := [], dq := [], q1 := [], bars := [], asyncs := [], trap := none }

/-- A block of a killed context: every team ends; what its engines have accepted completes; its save slot
is freed, with the image of a saved one. -/
def endBlock (s : State) (b : Nat) : State :=
  match Tbl.get s.blocks b with
  | none => s
  | some k =>
    if k.st = .saved || k.st = .restoring then dropBlock s b
    else
      let k1 := { k with
        teams := Tbl.mapVals k.teams (fun _ m => deadTeam m), rdv := [], latches := [], slot := none, shrink := none, ended := true }
      retireBlock (putBlock (freeSlot s (ctxNum s b) k) b (abandonStalled k1)) b

/-- Blocks ended in order. -/
def endBlocks (bs : List Nat) (s : State) : State :=
  match bs with
  | [] => s
  | b :: r => endBlocks r (endBlock s b)

/-- Every pin of a context released (03 R83). -/
def releasePins (s : State) (x : Nat) : State :=
  putCtx { s with hbm := Tbl.mapVals s.hbm (fun _ o => if o.pin = some x then { o with pin := none } else o) } x
    { ctxOf s x with pins := 0 }

/-- A collective context halts; an ACTIVE round aborts (R449, R451). -/
def haltCc (s : State) (n : Nat) : State :=
  onCc (abortRound s n 4 0) n (fun c => if c.st = .unbound then c else { c with st := .halted, waits := [], stepWaits := [], sending := none })

/-- Collective contexts halted in order. -/
def haltCcs (ns : List Nat) (s : State) : State :=
  match ns with
  | [] => s
  | n :: r => haltCcs r (haltCc s n)

/-- The collective contexts bound to a device context. -/
def ccsOf (s : State) (x : Nat) : List Nat := (s.ccs.filter (fun c => c.2.st ≠ .unbound && c.2.ctx = x)).map (fun c => c.1)

/-- A launch that counts as discarded by a kill. -/
def liveLaunch (x : Nat) (l : Launch) : Bool := l.ctx = x && (l.st = .queued || l.st = .placed)

/-- The pool pages that a launch's shadows hold. -/
def launchPages (l : Launch) : List Nat := l.shadow.poolPages ++ l.gangs.flatMap (fun g => g.shadow.poolPages)

/-- The pool pages of a context's launches that are discarded, given back (R449, 25 R472). -/
def freePages (x : Nat) (s : State) : State :=
  freePool s x ((s.launches.filter (fun q => liveLaunch x q.2)).flatMap (fun q => launchPages q.2))

/-- A launch of a killed context. -/
def discardLaunch (l : Launch) : Launch :=
  if l.st = .queued || l.st = .placed then { l with st := .discarded, shadow := Shadow.empty, pubs := [], gangs := [], rerun := [] } else l

/-- LIVE to DYING (R449): 1 CTXKILL, 2 escalation, 3 save failure; with the linear index of the block concerned. Requests that made room for
its launches are withdrawn (R460). -/
def killContext (s : State) (x reason lin : Nat) (ack : Option Nat) : State :=
  let c := ctxOf s x
  if c.st ≠ .live then s
  else
    let gone := (s.launches.filter (fun q => liveLaunch x q.2)).map (fun q => q.1)
    let mine := blocksOf s (fun k => ((Tbl.get s.launches k.launch).map (fun l => l.ctx)) = some x)
    let s1 := putCtx s x { c with st := .dying, killReason := reason, killCount := gone.length, killBlock := lin, killAck := ack, killSeq := 0, notifies := [] }
    let s2 := { freePages x s1 with launches := Tbl.mapVals s1.launches (fun _ l => if l.ctx = x then discardLaunch l else l) }
    releasePins (haltCcs (ccsOf s2 x) (endBlocks mine (withdrawAll gone s2))) x

/-! ## Launch replay (25 R477) -/

/-- The lowest seat of the queued launches of a launch's queue. -/
def headSeat (s : State) (l : Launch) : Int :=
  (s.launches.filter (fun q => q.2.ctx = l.ctx && q.2.st = .queued)).foldl (fun m q => min m q.2.seat) l.seat

/-- A launch as it is queued again. -/
def requeued (l : Launch) (seat : Int) (counts : Bool) : Launch :=
  { l with st := .queued, ready := true, nextGang := 0, blocksDone := [], committed := [], gangs := [], rerun := [], mismatched := [], writers := [],
           shadow := Shadow.empty, pubs := [], replays := if counts then l.replays + 1 else l.replays, writeBack := l.param.isSome,
           paramWait := none, seat := seat, blockedSince := [] }

/-- The write-back of PARAM at a replay: a miss waits on its record; a page that cannot be written kills the context (R477). -/
def writeBackParam (s : State) (n : Nat) : State :=
  match Tbl.get s.launches n with
  | none => s
  | some l =>
    if !l.writeBack || l.paramWait.isSome then s
    else
      let a := l.lr.param.toNat
      let r := deviceAsk s l.ctx a 256 needW
      match r.waits, r.bad with
      | p :: _, _ => putLaunch r.s n { l with paramWait := some p }
      | [], _ :: _ => killContext r.s l.ctx 2 0 none
      | [], [] => deviceWrite (putLaunch r.s n { l with writeBack := false }) l.ctx a (l.param.getD [])

/-- A REPLAY entry (R526). -/
def logReplay (s : State) (n cause replays : Nat) (x : Nat) : State :=
  bumpCtx x 7 (logEntry { cls := clsReplay, ctx := x, aux := replays, unit := 6, place := 0, value0 := BitVec.ofNat 64 cause,
                          value1 := BitVec.ofNat 64 n } s)

/-- Whether a launch can be replayed once more; a brown-out's replay does not count (R477, R478). -/
def replayable (l : Launch) (counts : Bool) : Bool := !l.lr.nreplay && !l.nonReplay && (!counts || l.replays < 3)

/-- Launch replay (R477), for a cause of R526; or, where it may not be, a context kill. `lin` is the block concerned. -/
def replayLaunch (s : State) (n cause lin : Nat) : State :=
  let counts := cause ≠ 5
  match Tbl.get s.launches n with
  | none => s
  | some l =>
    if l.st ≠ .placed then s
    else if !replayable l counts then killContext s l.ctx 2 lin none
    else
      let s1 := dropSeals (dropBlocks (blocksOf s (fun k => k.launch = n)) s) (fun u => u.1 = n)
      let s2 := freePool s1 l.ctx (l.shadow.poolPages ++ l.gangs.flatMap (fun g => g.shadow.poolPages))
      let l1 := requeued l (headSeat s2 l - 1) counts
      writeBackParam (logReplay (putLaunch (withdraw s2 n) n l1) n cause l1.replays l.ctx) n

/-- Launches replayed in order. -/
def replayAll (cause : Nat) (ns : List Nat) (s : State) : State :=
  match ns with
  | [] => s
  | n :: r => replayAll cause r (replayLaunch s n cause 0)

/-! ## Unit reruns (25 R476) -/

/-- The next copy number of a gang. -/
def nextCopy (l : Launch) (g : Nat) : Nat :=
  ((l.gangs.filter (fun q => q.idx = g)).map (fun q => q.copy) ++ (l.rerun.filter (fun q => q.1 = g)).map (fun q => q.2)).foldl
    (fun m k => max m (k + 1)) 0

/-- A launch without a copy of a gang, which is to be placed again: itself under COMMIT 2, a further copy under COMMIT 3. -/
def rerunOf (l : Launch) (g copy : Nat) : Launch :=
  let again := if l.lr.commit = 3 then nextCopy l g else copy
  { l with gangs := l.gangs.filter (fun q => !(q.idx = g && q.copy = copy)), rerun := l.rerun ++ [(g, again)],
           blocksDone := if l.lr.commit = 3 then l.blocksDone else l.blocksDone.filter (fun n => n / l.lr.gang ≠ g) }

/-- A RERUN entry (R526). -/
def logRerun (s : State) (l : Launch) (n core lin : Nat) : State :=
  logEntry { cls := clsRerun, ctx := l.ctx, aux := l.lr.commit, unit := 1, place := core * 65536 + 0xFFFE,
             value0 := BitVec.ofNat 64 lin, value1 := BitVec.ofNat 64 n } s

/-- The gang of a block is rerun; under COMMIT 0 and 1 the launch is replayed instead; a launch that may not is killed with its context
(R476). `whole` names the gang's block 0 in the entry. -/
def rerunUnit (s : State) (b : Nat) (whole : Bool) : State :=
  match Tbl.get s.blocks b with
  | none => s
  | some k =>
    match Tbl.get s.launches k.launch with
    | none => s
    | some l =>
      if l.st ≠ .placed then s
      else if l.lr.nreplay || l.nonReplay then killContext s l.ctx 2 k.lin none
      else if l.lr.commit ≤ 1 then replayLaunch s k.launch 4 k.lin
      else
        let mine := blocksOf s (fun q => q.launch = k.launch && q.gang = k.gang && q.copy = k.copy)
        let s1 := dropSeals (dropBlocks mine s) (fun u => u.1 = k.launch && u.2.1 / l.lr.gang = k.gang && u.2.2 = k.copy)
        let s2 := freePool s1 l.ctx ((gangOf l k).map (fun g => g.shadow.poolPages) |>.getD [])
        logRerun (putLaunch s2 k.launch (rerunOf l k.gang k.copy)) l k.launch k.core (if whole then k.gang * l.lr.gang else k.lin)

end Sys2Proof.Machine
end

