-- ==== Sys2Proof/Machine/Fuset.lean ====
section
/-! DEFINITION. Fuset: how a collective context runs an instruction, and its arithmetic, memory, branches, rings and timelines (16
R344-R354, R361, R369). -/

namespace Sys2Proof.Machine

/-! ## Running an instruction (R345, R348) -/

/-- Register n of a context; f0 reads zero (R344). -/
def ccReg (c : Cc) (n : BitVec 5) : DWord := if n = 0 then 0 else Sparse.get c.regs n.toNat

/-- A context with register n written; a write of f0 is discarded (R344). -/
def setCcReg (c : Cc) (n : BitVec 5) (v : DWord) : Cc := { c with regs := if n = 0 then c.regs else Sparse.set c.regs n.toNat v }

/-- sext(IMM) (R347). -/
def fusetOff (o : FOps) : DWord := o.imm.signExtend 64

/-- The value operand x (R347). -/
def fusetX (c : Cc) (o : FOps) : DWord := ccReg c o.fb + fusetOff o

/-- An instruction completes: the context as it leaves it, RUNNING unless a fault came meanwhile. -/
def ccEnd (s : State) (n : Nat) (f : Cc → Cc) : State :=
  onCc s n (fun c =>
    let c1 := f c
    { c1 with st := if c1.st = .waiting then .running else c1.st, waits := [], failed := [], sending := none, stamp := s.tick })

/-- It completes and the next instruction follows. -/
def ccDone (s : State) (n : Nat) : State := ccEnd s n (fun c => { c with pc := c.pc + 8 })

/-- It completes with a register written. -/
def ccPut (s : State) (n : Nat) (d : BitVec 5) (v : DWord) : State := ccEnd s n (fun c => { setCcReg c d v with pc := c.pc + 8 })

/-- It completes with a branch of `off` words (R350). -/
def ccJump (s : State) (n : Nat) (off : DWord) : State := ccEnd s n (fun c => { c with pc := c.pc + 8 * off })

/-- The context waits at its instruction (R368). -/
def ccStall (s : State) (n : Nat) : State := onCc s n (fun c => { c with st := if c.st = .running then .waiting else c.st, stamp := s.tick })

/-- An instruction of the context that `cur` names (R345), whose unused fields are zero (R348). -/
def fuset (op : Nat) (o : FOps) (s : State) (body : Nat → Cc → State) : Host.Outcome State Fault Refusal :=
  match s.cur with
  | .cc n =>
    let c := ccOf s n
    if c.st = .running || c.st = .waiting then .next (if fusetFieldsOk op o then body n c else ccFault s n 0x01 2)
    else .fault .noIssuer
  | _ => .fault .noIssuer

/-- After addresses are asked for: a wait, a fault, or the instruction goes on (R346, R351). -/
def ccAfter (n : Nat) (r : CcAsk) (go : State → State) : State :=
  if r.waits ≠ [] then ccStall (onCc r.s n (fun c => { c with waits := r.waits })) n
  else match r.bad with
    | some (code, reason) => ccFault r.s n code reason
    | none => go r.s

/-- Nothing asked for yet. -/
def askFrom (s : State) : CcAsk := { s := s, waits := [], bad := none }

/-- An instruction that needs a range of the context's space. -/
def ccWith (n : Nat) (need : Need) (both load : Bool) (a len : Nat) (s : State) (go : State → State) : State :=
  ccAfter n (ccAsks n need both load (rangeAsk a len) (askFrom s)) go

/-! ## Arithmetic (R350) -/

/-- fd := a function of f[fa] and x. -/
def fusetAlu (op : Nat) (o : FOps) (s : State) (f : DWord → DWord → DWord) : Host.Outcome State Fault Refusal :=
  fuset op o s (fun n c => ccPut s n o.fd (f (ccReg c o.fa) (fusetX c o)))

/-- SHL and SHR: 0 for a count of 64 or more. -/
def shiftOr0 (f : DWord → Nat → DWord) (a x : DWord) : DWord := if x.toNat < 64 then f a x.toNat else 0

/-- CMP: 0 equal, 1 greater, all ones less, unsigned. -/
def cmp3 (a x : DWord) : DWord := if a = x then 0 else if x.toNat < a.toNat then 1 else 0xFFFFFFFFFFFFFFFF

/-- FUSET_LI (R350). -/
def execFusetLi (o : FOps) (s : State) : Host.Outcome State Fault Refusal :=
  fuset 0x01 o s (fun n _ => ccPut s n o.fd (o.imm.zeroExtend 64 <<< o.fb.toNat))

/-- FUSET_ADD (R350). -/
def execFusetAdd (o : FOps) (s : State) : Host.Outcome State Fault Refusal := fusetAlu 0x02 o s (fun a x => a + x)

/-- FUSET_SUB (R350). -/
def execFusetSub (o : FOps) (s : State) : Host.Outcome State Fault Refusal := fusetAlu 0x03 o s (fun a x => a - x)

/-- FUSET_AND (R350). -/
def execFusetAnd (o : FOps) (s : State) : Host.Outcome State Fault Refusal := fusetAlu 0x04 o s (fun a x => a &&& x)

/-- FUSET_OR (R350). -/
def execFusetOr (o : FOps) (s : State) : Host.Outcome State Fault Refusal := fusetAlu 0x05 o s (fun a x => a ||| x)

/-- FUSET_SHL (R350). -/
def execFusetShl (o : FOps) (s : State) : Host.Outcome State Fault Refusal := fusetAlu 0x06 o s (shiftOr0 (fun a k => a <<< k))

/-- FUSET_SHR (R350). -/
def execFusetShr (o : FOps) (s : State) : Host.Outcome State Fault Refusal := fusetAlu 0x07 o s (shiftOr0 (fun a k => a >>> k))

/-- FUSET_CMP (R350). -/
def execFusetCmp (o : FOps) (s : State) : Host.Outcome State Fault Refusal := fusetAlu 0x08 o s cmp3

/-! ## Memory (R351) -/

/-- An 8-byte access at f[fa] + off: alignment, then the address and its leaf, of either kind. -/
def fusetMem (n : Nat) (need : Need) (load : Bool) (a : DWord) (s : State) (go : State → State) : State :=
  if a.toNat % 8 ≠ 0 then ccFault s n 0x06 0 else ccWith n need true load a.toNat 8 s go

/-- The place an LD reads: the maps answer it (R351, 04 R106, 07 R182). -/
def ldPlace (s : State) (n a : Nat) : Option Phys :=
  match ccReach s n needR true true a with
  | .go p => some p
  | _ => none

/-- The 8 bytes at a place. -/
def ccLdValue (s : State) (n a : Nat) : DWord :=
  match ldPlace s n a with
  | some p => BitVec.ofNat 64 (readPhys s Shadow.empty p 8)
  | none => 0

/-- The 8 bytes at a place hold poison (25 R470). -/
def ccLdPoisoned (s : State) (n a : Nat) : Bool :=
  match ldPlace s n a with
  | some p => poisoned s Shadow.empty p 8
  | none => false

/-- FUSET_LD (R351). A word that holds poison is consumed by the fabric processor (25 R470, log 24). -/
def execFusetLd (o : FOps) (s : State) : Host.Outcome State Fault Refusal :=
  fuset 0x09 o s (fun n c =>
    let a := ccReg c o.fa + fusetOff o
    fusetMem n needR true a s (fun s =>
      let t := ccPut (ccTouch n a.toNat 8 s) n o.fd (ccLdValue s n a.toNat)
      if ccLdPoisoned s n a.toNat then fabricPoison t else t))

/-- FUSET_ST (R351). -/
def execFusetSt (o : FOps) (s : State) : Host.Outcome State Fault Refusal :=
  fuset 0x0A o s (fun n c =>
    let a := ccReg c o.fa + fusetOff o
    fusetMem n needW false a s (fun s => ccDone (ccWrite s n a.toNat (leBytes 8 (ccReg c o.fb).toNat)) n))

/-! ## Branches (R350) -/

/-- FUSET_BR (R350). -/
def execFusetBr (o : FOps) (s : State) : Host.Outcome State Fault Refusal := fuset 0x0B o s (fun n _ => ccJump s n (fusetOff o))

/-- FUSET_BZ (R350). -/
def execFusetBz (o : FOps) (s : State) : Host.Outcome State Fault Refusal :=
  fuset 0x0C o s (fun n c => if ccReg c o.fa = 0 then ccJump s n (fusetOff o) else ccDone s n)

/-- FUSET_BNZ (R350). -/
def execFusetBnz (o : FOps) (s : State) : Host.Outcome State Fault Refusal :=
  fuset 0x0D o s (fun n c => if ccReg c o.fa ≠ 0 then ccJump s n (fusetOff o) else ccDone s n)

/-- FUSET_CALL (R350). -/
def execFusetCall (o : FOps) (s : State) : Host.Outcome State Fault Refusal :=
  fuset 0x0E o s (fun n c =>
    if 16 ≤ c.rets.length then ccFault s n 0x01 3
    else ccEnd s n (fun c => { c with rets := (c.pc + 8) :: c.rets, pc := c.pc + 8 * fusetOff o }))

/-- FUSET_RET (R350). -/
def execFusetRet (o : FOps) (s : State) : Host.Outcome State Fault Refusal :=
  fuset 0x0F o s (fun n c =>
    match c.rets with
    | [] => ccFault s n 0x01 4
    | a :: r => ccEnd s n (fun c => { c with rets := r, pc := a }))

/-! ## Rings (R353) -/

/-- The 64-bit word of a record at a byte offset. -/
def wordAt (bs : List Byte) (off : Nat) : Nat := leNat ((bs.drop off).take 8)

/-- Members of a descriptor by its header. -/
def ringN (hdr : List Byte) : Nat := bitsOf (wordAt hdr 0) 16 13

/-- A header's reserved fields are zero, and N and POS in range. -/
def ringHdrOk (hdr : List Byte) : Bool :=
  let w := wordAt hdr 0
  bitsOf w 29 3 = 0 && bitsOf w 12 4 = 0 && (List.range 7).all (fun k => wordAt hdr (8 * k + 8) = 0) &&
  1 ≤ ringN hdr && ringN hdr ≤ 4096 && bitsOf w 0 12 < ringN hdr

/-- The member words of a descriptor. -/
def ringWords (ms : List Byte) : List Nat := (List.range (ms.length / 4)).map (fun p => leNat ((ms.drop (4 * p)).take 4))

/-- The members' words are in order: reserved bits zero, ranks distinct, this module's rank at POS. -/
def ringMembersOk (rank pos : Nat) (ws : List Nat) : Bool :=
  ws.all (fun w => w < 2 ^ 22) && decide ws.Nodup && ws[pos]? = some rank

/-- A descriptor read: what is bound, or the fault of an invalid one. -/
def withRing (n a : Nat) (s : State) (go : Ring → State → State) : State :=
  if a % 64 ≠ 0 then ccFault s n 0x08 2
  else ccWith n needR false true a 64 s (fun s =>
    let hdr := ccRead s n a 64
    if !ringHdrOk hdr then ccFault s n 0x08 2
    else ccWith n needR false true (a + 64) (4 * ringN hdr) s (fun s =>
      let ws := ringWords (ccRead s n (a + 64) (4 * ringN hdr))
      let pos := bitsOf (wordAt hdr 0) 0 12
      if !ringMembersOk s.fab.rank pos ws then ccFault s n 0x08 2
      else go { gen := bitsOf (wordAt hdr 0) 32 32, pos := pos, ranks := ws }
        (ccTouch n a (64 + 4 * ringN hdr) s)))

/-- FUSET_RING (R353; the order of its faults: log 118). -/
def execFusetRing (o : FOps) (s : State) : Host.Outcome State Fault Refusal :=
  fuset 0x10 o s (fun n c =>
    if c.ring.isSome || active c then ccFault s n 0x01 5
    else withRing n (ccReg c o.fa).toNat s (fun r s => ccDone (onCc s n (fun c => { c with ring := some r })) n))

/-- FUSET_REFORM (R353): every whey object becomes torn. Out of sequence by its ring or round comes before an invalid descriptor, and that
before its GEN (DESIGN CHOICE, log 118). -/
def execFusetReform (o : FOps) (s : State) : Host.Outcome State Fault Refusal :=
  fuset 0x24 o s (fun n c =>
    if c.ring.isNone || active c then ccFault s n 0x01 5
    else withRing n (ccReg c o.fa).toNat s (fun r s =>
      if r.gen ≤ ringGen c then ccFault s n 0x01 5
      else ccDone (onCc s n (fun c => { c with ring := some r, whey := Tbl.mapVals c.whey (fun _ w => { w with torn := true }) })) n))

/-! ## Scoreboards and timelines (R361) -/

/-- FUSET_WAITSB (R361). -/
def execFusetWaitsb (o : FOps) (s : State) : Host.Outcome State Fault Refusal :=
  fuset 0x17 o s (fun n c =>
    let x := (fusetX c o).toNat
    let m := (ccReg c o.fa).extractLsb' 0 32
    if c.sbbits / 32 ≤ x then ccFault s n 0x08 5
    else if !active c || Sparse.get c.board x &&& m = m then ccDone s n
    else ccStall s n)

/-- FUSET_WAITTL (R361). -/
def execFusetWaittl (o : FOps) (s : State) : Host.Outcome State Fault Refusal :=
  fuset 0x18 o s (fun n c =>
    let x := (fusetX c o).toNat
    if 4096 ≤ x then ccFault s n 0x08 5
    else if (ccReg c o.fa).toNat ≤ tlValue s c.ctx x then ccDone s n
    else ccStall s n)

/-- FUSET_SIGTL (R361, 04 R105). -/
def execFusetSigtl (o : FOps) (s : State) : Host.Outcome State Fault Refusal :=
  fuset 0x19 o s (fun n c => ccDone (raiseTl s c.ctx c.tlc (fusetX c o).toNat) n)

/-- FUSET_HALT (R350, R368): one HALTED event. A context that is started again goes on after the HALT (DESIGN CHOICE, log 117). -/
def execFusetHalt (o : FOps) (s : State) : Host.Outcome State Fault Refusal :=
  fuset 0x26 o s (fun n c => emit (event evHalted c.ctx 1 0 c.pc.toNat n) (onCc (ccDone s n) n (fun c => { c with st := .halted })))

/-- FUSET_RESERVED_OPCODE (R348). -/
def execFusetReservedOpcode (_w : DWord) (s : State) : Host.Outcome State Fault Refusal :=
  match s.cur with
  | .cc n =>
    if (ccOf s n).st = .running || (ccOf s n).st = .waiting then .next (ccFault s n 0x01 1) else .fault .noIssuer
  | _ => .fault .noIssuer

end Sys2Proof.Machine
end

