-- ==== Sys2Proof/Machine/Tiles.lean ====
section
/-! DEFINITION. Tiles: the instructions of a context on its tile table and its rounds (16 R355-R364, R367; 07 R185). -/

namespace Sys2Proof.Machine

/-! ## Images and ARM (R355, R356) -/

/-- The fields of an image. -/
def parseImage (bs : List Byte) : TileImage :=
  let w := wordAt bs
  { laddr := bitsOf (w 0) 0 56, raddr := bitsOf (w 8) 0 56, chunk := bitsOf (w 16) 32 32, whey := bitsOf (w 16) 18 6,
    swred := bitsOf (w 16) 13 1 = 1, peermode := bitsOf (w 16) 12 1 = 1, fmt := bitsOf (w 16) 4 1 = 1, role := bitsOf (w 16) 0 3,
    peer := bitsOf (w 24) 32 22, nbits := bitsOf (w 24) 12 13, firstbit := bitsOf (w 24) 0 12 }

/-- Check 4 of R356 does not apply: reserved fields and values, WHEY of role 3, LADDR, NBITS. -/
def imageOk (bs : List Byte) : Bool :=
  let w := wordAt bs
  let im := parseImage bs
  bitsOf (w 0) 56 8 = 0 && bitsOf (w 8) 56 8 = 0 && bitsOf (w 16) 24 8 = 0 && bitsOf (w 16) 14 4 = 0 && bitsOf (w 16) 8 4 = 0 &&
  bitsOf (w 16) 5 3 = 0 && bitsOf (w 16) 3 1 = 0 && bitsOf (w 24) 54 10 = 0 && bitsOf (w 24) 25 7 = 0 && im.role ≤ 3 &&
  (im.role ≠ 3 || im.whey = 0) && im.laddr % 1024 = 0 && 1 ≤ im.nbits && im.nbits ≤ 4096

/-- The first of checks 5 to 10 of R356 that an image fails, as code and reason. -/
def armCheck (c : Cc) (e : TileEntry) (im : TileImage) : Option (Nat × Nat) :=
  if !im.peermode && (c.ring.isNone || !roleOk c im.role im.chunk) then some (0x08, 4)
  else if im.swred && c.prot then some (0x11, 3)
  else if im.role ≠ 3 && !((Tbl.get c.whey im.whey).any (fun w => w.holds im.chunk)) then some (0x11, 4)
  else if im.role ≠ 3 && (Tbl.get c.whey im.whey).any (fun w => w.torn) then some (0x11, 2)
  else if c.sbbits < im.firstbit + im.nbits then some (0x11, 5)
  else if im.role = 0 && e.slot.pending then some (0x08, 6)
  else none

/-- Two images share their slot's chunk and kind of curd. -/
def sameSlot (a b : TileImage) : Bool := a.chunk = b.chunk && ((a.role = 3) = (b.role = 3))

/-- The senders refused for a chunk before an entry was armed for it (R355). -/
def earlyFor (c : Cc) (chunk : Nat) : List Nat := (c.early.filter (fun q => q.1 = chunk)).map (fun q => q.2)

/-- An entry as a valid ARM leaves it (07 R185): a slot posted in the round keeps what it took for the same chunk; the ranks of refused senders
are kept (R355). -/
def TileEntry.arm (e : TileEntry) (im : TileImage) (c : Cc) : TileEntry :=
  { e with st := .armed, version := e.version + 1, image := im, armedRound := c.round.num,
           slot := { e.slot with
             got := if sameSlot e.image im then e.slot.got else []
             kept := (earlyFor c im.chunk).foldl (fun ks r => insertNat ks r) e.slot.kept } }

/-- A valid ARM: a pending post takes effect, and the entry fires if it can (R358, 07 R184). -/
def armEntry (n x : Nat) (im : TileImage) (s : State) : State :=
  let s1 := onEntry s n x (fun e => e.arm im (ccOf s n))
  tryFire (if (entryOf (ccOf s1 n) x).slot.pending then openSlot s1 n x else s1) n x

/-- FUSET_ARM (R356). -/
def execFusetArm (o : FOps) (s : State) : Host.Outcome State Fault Refusal :=
  fuset 0x12 o s (fun n c =>
    let x := (fusetX c o).toNat
    let a := (ccReg c o.fa).toNat
    if 256 ≤ x then ccFault s n 0x08 5
    else if !active c then ccFault s n 0x01 5
    else if (entryOf c x).st = .armed then ccFault s n 0x11 1
    else if a % 32 ≠ 0 then ccFault s n 0x08 3
    else ccWith n needR false true a 32 s (fun s =>
      let bs := ccRead s n a 32
      if !imageOk bs then ccFault s n 0x08 3
      else match armCheck c (entryOf c x) (parseImage bs) with
        | some (code, reason) => ccFault s n code reason
        | none => ccDone (armEntry n x (parseImage bs) (ccTouch n a 32 s)) n))

/-- FUSET_DISARM (07 R185). -/
def execFusetDisarm (o : FOps) (s : State) : Host.Outcome State Fault Refusal :=
  fuset 0x13 o s (fun n c =>
    let x := (fusetX c o).toNat
    if 256 ≤ x then ccFault s n 0x08 5
    else settleRound (ccDone (onEntry s n x (fun e => { e with st := .disarmed })) n) n)

/-! ## Posting (R358) -/

/-- The entry was armed in the current round. -/
def armedNow (c : Cc) (x : Nat) : Bool := (entryOf c x).armedRound = c.round.num

/-- FUSET_POST (R358). -/
def execFusetPost (o : FOps) (s : State) : Host.Outcome State Fault Refusal :=
  fuset 0x14 o s (fun n c =>
    let x := (fusetX c o).toNat
    if 256 ≤ x then ccFault s n 0x08 5
    else if !active c then ccFault s n 0x01 5
    else if !armedNow c x then ccDone (onEntry s n x (fun e => { e with slot := { e.slot with pending := true } })) n
    else if (entryOf c x).image.role = 0 then ccFault s n 0x08 6
    else ccDone (openSlot s n x) n)

/-- FUSET_WAITPOST (R358). -/
def execFusetWaitpost (o : FOps) (s : State) : Host.Outcome State Fault Refusal :=
  fuset 0x15 o s (fun n c =>
    let x := (fusetX c o).toNat
    if 256 ≤ x then ccFault s n 0x08 5
    else if !active c || (armedNow c x && allPosted c (entryOf c x).image) then ccDone s n
    else ccStall s n)

/-! ## TTW and SEND (R359) -/

/-- The refusal mask of an entry's last firing. -/
def lastMask (e : TileEntry) : DWord := (e.last.map Firing.mask).getD 0

/-- FUSET_TTW (R359). -/
def execFusetTtw (o : FOps) (s : State) : Host.Outcome State Fault Refusal :=
  fuset 0x11 o s (fun n c =>
    let x := (fusetX c o).toNat
    let e := entryOf c x
    if 256 ≤ x then ccFault s n 0x08 5
    else if !active c then ccPut s n o.fd 0
    else if e.st = .armed || e.firings.any (Firing.inFlight (chunkBlocks c)) then ccStall s n
    else ccPut s n o.fd (lastMask e))

/-- What a SEND resends: each receiver with the blocks of the mask that it refused. -/
def resendOf (f : Firing) (mask : DWord) : List (Nat × Nat) :=
  f.sends.flatMap (fun q => (q.sent.filter (fun c => c.2 = .refused && mask.getLsbD c.1)).map (fun c => (q.rank, c.1)))

/-- A send of a firing to a receiver has its answer outstanding. -/
def flyingTo (f : Firing) (q : Nat × Nat) : Bool := f.sends.any (fun t => t.rank = q.1 && Tbl.get t.sent q.2 = some .flying)

/-- Blocks sent again with the bytes they had (07 R180). -/
def resendAll (n x : Nat) (f : Firing) (qs : List (Nat × Nat)) (s : State) : State :=
  match qs with
  | [] => s
  | q :: r => resendAll n x f r (sendBlock (onFiring s n x f.version (fun f => { f with sends := f.sends.map (fun t =>
      if t.rank = q.1 then { t with sent := Tbl.put t.sent q.2 .flying } else t) })) n x f q.2 (Tbl.getD f.curds q.2 []) [q.1])

/-- The firing of an entry under a version. -/
def firingOf (e : TileEntry) (v : BitVec 16) : Option Firing := e.firings.find? (fun f => f.version = v)

/-- A SEND that has resent its blocks waits for their answers, and then writes the mask. -/
def sendEnd (s : State) (n x : Nat) (d : BitVec 5) : State :=
  let c := ccOf s n
  match c.sending with
  | none => s
  | some (v, qs) =>
    match firingOf (entryOf c x) v with
    | none => ccPut s n d 0
    | some f => if qs.any (flyingTo f) then ccStall s n else ccPut s n d f.mask

/-- FUSET_SEND (R359). -/
def execFusetSend (o : FOps) (s : State) : Host.Outcome State Fault Refusal :=
  fuset 0x16 o s (fun n c =>
    let x := (fusetX c o).toNat
    let e := entryOf c x
    if 256 ≤ x then ccFault s n 0x08 5
    else if !active c then ccPut s n o.fd 0
    else if c.sending.isSome then sendEnd s n x o.fd
    else match e.last with
      | none => ccFault s n 0x08 6
      | some f =>
        if e.image.role = 3 || f.round ≠ c.round.num then ccFault s n 0x08 6
        else
          let qs := resendOf f (ccReg c o.fa)
          sendEnd (onCc (resendAll n x f qs s) n (fun c => { c with sending := some (f.version, qs) })) n x o.fd)

/-! ## Rounds (R362-R364) -/

/-- FUSET_TMO (R350): the deadline duration, in microseconds. -/
def execFusetTmo (o : FOps) (s : State) : Host.Outcome State Fault Refusal :=
  fuset 0x1A o s (fun n c =>
    let x := (fusetX c o).toNat
    if 2 ^ 32 ≤ x then ccFault s n 0x01 2
    else ccDone (onCc s n (fun c => { c with round := { c.round with duration := x } })) n)

/-- A context as a new round starts (R362). -/
def Cc.startRound (c : Cc) (x now : Nat) : Cc :=
  { c with
    board := [], notices := [], early := [], touched := [],
    entries := Tbl.mapVals c.entries (fun _ e => { e with slot := Slot.clear }),
    round := { st := .active, num := x, duration := c.round.duration,
               deadline := if c.round.duration = 0 then none else some (now + c.round.duration * Config.cyclesPerMicro),
               outcome := 0, abortRank := 0, waitrd := false } }

/-- FUSET_ROUND (R362). -/
def execFusetRound (o : FOps) (s : State) : Host.Outcome State Fault Refusal :=
  fuset 0x1B o s (fun n c =>
    let x := (fusetX c o).toNat
    if c.ring.isNone || active c || x = 0 || 2 ^ 32 ≤ x || x ≤ c.round.num then ccFault s n 0x01 5
    else ccDone (onCc s n (fun c => c.startRound x s.now)) n)

/-- The word that WAITRD writes (R363). -/
def outcomeWord (r : Round) : DWord := BitVec.ofNat 64 (r.abortRank * 2 ^ 32 + r.outcome)

/-- FUSET_WAITRD (R363). -/
def execFusetWaitrd (o : FOps) (s : State) : Host.Outcome State Fault Refusal :=
  fuset 0x1C o s (fun n c =>
    if !active c then ccPut s n o.fd (outcomeWord c.round)
    else
      let s1 := settleRound (onCc s n (fun c => { c with round := { c.round with waitrd := true } })) n
      if active (ccOf s1 n) then ccStall s1 n else ccPut s1 n o.fd (outcomeWord (ccOf s1 n).round))

/-- FUSET_ABORT (R364). -/
def execFusetAbort (o : FOps) (s : State) : Host.Outcome State Fault Refusal :=
  fuset 0x1D o s (fun n _ => ccDone (abortRound s n 2 0) n)

/-! ## STATUS (R367) -/

/-- The code of a round's state. -/
def RoundState.code (r : RoundState) : Nat :=
  match r with
  | .none => 0
  | .active => 1
  | .complete => 2
  | .aborted => 3

/-- The code of an entry's state. -/
def EntryState.code (e : EntryState) : Nat :=
  match e with
  | .disarmed => 0
  | .armed => 1
  | .fired => 2

/-- The item of an entry. -/
def entryItem (blocks : Nat) (e : TileEntry) : Nat :=
  e.version.toNat * 65536 + (if e.firings.any (Firing.inFlight blocks) then 4 else 0) + e.st.code

/-- A status item, read by the context itself. With no ring bound POS and N read 0, as GEN does (DESIGN CHOICE, log 132). -/
def statusItem (s : State) (c : Cc) (x : Nat) : Option Nat :=
  match x with
  | 0 => some (1 + c.round.st.code * 16)
  | 1 => some (c.faultReason * 256 + c.faultCode)
  | 2 => some c.round.num
  | 3 => some (ringGen c)
  | 4 => some (ringPos c)
  | 5 => some (ringSize c)
  | 6 => some ((c.whey.filter (fun q => q.2.torn)).foldl (fun m q => m + 2 ^ q.1) 0)
  | 7 => some c.discarded
  | 8 => some c.droppedPubs
  | 9 => some (tlValue s c.ctx c.tlc)
  | _ => if 0x100 ≤ x && x ≤ 0x1FF then some (entryItem (chunkBlocks c) (entryOf c (x - 0x100))) else none

/-- FUSET_STATUS (R367). -/
def execFusetStatus (o : FOps) (s : State) : Host.Outcome State Fault Refusal :=
  fuset 0x1E o s (fun n c =>
    match statusItem s c (fusetX c o).toNat with
    | none => ccFault s n 0x08 5
    | some v => ccPut s n o.fd (BitVec.ofNat 64 v))

end Sys2Proof.Machine
end

