-- ==== Sys2Proof/Machine/Whey.lean ====
section
/-! DEFINITION. Whey: the instructions of a context on its whey objects, their checkpoints and folding (16 R365, R366; 07 R191-R193; 28
R509). -/

namespace Sys2Proof.Machine

/-! ## WALLOC and WFREE (R365) -/

/-- Two objects' chunk ranges meet. -/
def wheyOverlap (a b : WheyObj) : Bool := rangesMeet a.first a.count b.first b.count

/-- An object that WALLOC takes: reserved bits, COUNT, the base, no overlap. -/
def wheyOk (c : Cc) (w : WheyObj) : Bool :=
  w.desc.extractLsb' 49 15 = 0 && w.count ≠ 0 && w.base % 64 = 0 && !c.whey.any (fun q => wheyOverlap q.2 w)

/-- FUSET_WALLOC (R365): +0 in every entry, the lowest free handle. A bad descriptor faults ahead of the all-ones result of no free handle: R365
gives no order (DESIGN CHOICE, log 133). -/
def execFusetWalloc (o : FOps) (s : State) : Host.Outcome State Fault Refusal :=
  fuset 0x1F o s (fun n c =>
    let w : WheyObj := { base := (ccReg c o.fa).toNat, desc := fusetX c o, torn := false }
    if !wheyOk c w then ccFault s n 0x08 7
    else match Tbl.lowestFree c.whey 64 with
      | none => ccPut s n o.fd 0xFFFFFFFFFFFFFFFF
      | some h =>
        ccWith n needW false false w.base (w.bytes c.ch) s (fun s =>
          let s1 := ccWrite s n w.base (List.replicate (w.bytes c.ch) 0)
          ccPut (onCc s1 n (fun c => { c with whey := Tbl.put c.whey h w })) n o.fd (BitVec.ofNat 64 h)))

/-- An ARMED entry names the handle. -/
def armedOn (c : Cc) (h : Nat) : Bool := c.entries.any (fun q => q.2.st = .armed && q.2.image.role ≠ 3 && q.2.image.whey = h)

/-- A firing that uses the handle has not ended: a block's churn or a send's answer is outstanding; blocks that are refused and not yet sent again
do not hold it open (DESIGN CHOICE, log 119). -/
def firingOn (c : Cc) (h : Nat) : Bool :=
  c.entries.any (fun q => q.2.firings.any (fun f => f.image.role ≠ 3 && f.image.whey = h && f.inFlight (chunkBlocks c)))

/-- FUSET_WFREE (R365): the round has touched no object of that handle any more (28 R514). -/
def execFusetWfree (o : FOps) (s : State) : Host.Outcome State Fault Refusal :=
  fuset 0x20 o s (fun n c =>
    let h := (fusetX c o).toNat
    match Tbl.get c.whey h with
    | none => ccFault s n 0x08 7
    | some _ =>
      if armedOn c h then ccFault s n 0x08 7
      else if firingOn c h then ccStall s n
      else ccDone (onCc s n (fun c => { c with whey := Tbl.del c.whey h, touched := c.touched.erase h })) n)

/-! ## Checkpoints (R366) -/

/-- An instruction on a whey object outside a round: out of range and out of sequence, then a free handle (R366, R369). -/
def onWhey (op : Nat) (o : FOps) (s : State) (body : Nat → Cc → Nat → WheyObj → State) : Host.Outcome State Fault Refusal :=
  fuset op o s (fun n c =>
    let h := (fusetX c o).toNat
    if 64 ≤ h then ccFault s n 0x08 7
    else if active c then ccFault s n 0x01 5
    else match Tbl.get c.whey h with
      | none => ccFault s n 0x08 7
      | some w => body n c h w)

/-- The header of a checkpoint. -/
def ckptHeader (c : Cc) (w : WheyObj) (ver : Nat) : List Byte :=
  leBytes 8 (ringGen c * 2 ^ 32 + c.round.num) ++ leBytes 8 w.desc.toNat ++ leBytes 8 ver ++ List.replicate 40 0

/-- A copy, in the capacity tier or in host memory, is one sealed tile with its version word at 0x10 (R366, 28 R509, 04 R120). -/
def sealCopy (n a len : Nat) (s : State) : State :=
  addSeal s (ccOf s n).ctx (tileOf ((pieces (len / 512 + 2) a len).map (fun q => (ccPlace s n q.1, q.2))) none)

/-- FUSET_WCKPT (R366). -/
def execFusetWckpt (o : FOps) (s : State) : Host.Outcome State Fault Refusal :=
  onWhey 0x21 o s (fun n c _ w =>
    let a := (ccReg c o.fa).toNat
    let len := w.bytes c.ch
    if w.torn || a % 64 ≠ 0 then ccFault s n 0x08 8
    else
      let r := ccAsks n needR false true (rangeAsk w.base len) (askFrom s)
      ccAfter n (ccAsks n needRW true false (rangeAsk a (64 + len)) r) (fun s =>
        let bs := ckptHeader c w (c.ckpts + 1) ++ ccRead s n w.base len
        let s1 := sealCopy n a (64 + len) (ccWrite (ccTouch n w.base len s) n a bs)
        ccDone (onCc s1 n (fun c => { c with ckpts := c.ckpts + 1 })) n))

/-- A header that fits an object: its descriptor, and zero in the reserved words. -/
def ckptFits (w : WheyObj) (hdr : List Byte) : Bool :=
  wordAt hdr 8 = w.desc.toNat && (List.range 5).all (fun k => wordAt hdr (0x18 + 8 * k) = 0)

/-- FUSET_WREST (R366). -/
def execFusetWrest (o : FOps) (s : State) : Host.Outcome State Fault Refusal :=
  onWhey 0x22 o s (fun n c h w =>
    let a := (ccReg c o.fa).toNat
    let len := w.bytes c.ch
    if a % 64 ≠ 0 then ccFault s n 0x08 8
    else ccWith n needR true true a 64 s (fun s =>
      let hdr := ccRead s n a 64
      if !ckptFits w hdr then ccFault s n 0x08 8
      else
        let r := ccAsks n needR true true (rangeAsk a (64 + len)) (askFrom s)
        ccAfter n (ccAsks n needW false false (rangeAsk w.base len) r) (fun s =>
          let s1 := ccWrite (ccTouch n a (64 + len) s) n w.base (ccRead s n (a + 64) len)
          ccPut (onCc s1 n (fun c => { c with whey := Tbl.put c.whey h { w with torn := false } })) n o.fd
            (BitVec.ofNat 64 (wordAt hdr 0)))))

/-! ## WFOLD (07 R192) -/

/-- The value of an FP32 sum as a whey entry: BF16 whey is rounded once, at the end. -/
def wheyNarrow (bf : Bool) (v : Word) : Word := if bf then BitVec.ofNat 32 (toNarrow .ieee bf16 0 false (f32 v)).code else v

/-- w_origin of one element after the fold. -/
def foldElem (bf : Bool) (o h g : Word) : Word := wheyNarrow bf (add32 (add32 (widen bf o) (widen bf h)) (widen bf g))

/-- The entries of a chunk in a role. -/
def chunkWhey (s : State) (n : Nat) (w : WheyObj) (chunk role : Nat) : List Word :=
  wheyWords w (ccRead s n (wheyAddr w (ccOf s n).ch chunk role 0) ((ccOf s n).ch * w.esize))

/-- One chunk folded. -/
def foldChunk (n : Nat) (w : WheyObj) (s : State) (chunk : Nat) : State :=
  let ch := (ccOf s n).ch
  let os := chunkWhey s n w chunk 0
  let hs := chunkWhey s n w chunk 1
  let gs := chunkWhey s n w chunk 2
  let new := (List.range ch).map (fun i => foldElem w.bf (os.getD i 0) (hs.getD i 0) (gs.getD i 0))
  ccWrite s n (wheyAddr w ch chunk 0 0) (wheyBytes w new ++ List.replicate (2 * ch * w.esize) 0)

/-- FUSET_WFOLD (07 R192, 16 R366): every chunk of the object folded, torn cleared. -/
def execFusetWfold (o : FOps) (s : State) : Host.Outcome State Fault Refusal :=
  onWhey 0x23 o s (fun n c h w =>
    ccWith n needRW false false w.base (w.bytes c.ch) s (fun s =>
      let s1 := ((List.range w.count).map (fun k => w.first + k)).foldl (foldChunk n w) (ccTouch n w.base (w.bytes c.ch) s)
      ccDone (onCc s1 n (fun c => { c with whey := Tbl.put c.whey h { w with torn := false } })) n))

end Sys2Proof.Machine
end

