-- ==== Sys2Proof/Machine/Reform.lean ====
section
/-! DEFINITION. Reform: EVENT, and the re-formation of a ring that it asks for (16 R350; 28 R510-R512). -/

namespace Sys2Proof.Machine

/-! ## The record (R510) -/

/-- A record's fields are in order: no reserved bit, DESC aligned, TLSEL owned by software (R511). -/
def recordOk (s : State) (x : Nat) (bs : List Byte) : Bool :=
  let w := wordAt bs
  bitsOf (w 8) 32 32 = 0 && bitsOf (w 16) 56 8 = 0 && w 16 % 64 = 0 && bitsOf (w 24) 12 52 = 0 && bitsOf (w 48) 32 32 = 0 &&
  bitsOf (w 56) 2 62 = 0 && tlOwner (ctxOf s x) (bitsOf (w 24) 0 12) = .software

/-- TLSEL signalled to SIGVAL, as TLSIG does (R510, 04 R105). -/
def signalRecord (s : State) (x sel v : Nat) : State :=
  if tlOwner (ctxOf s x) sel = .software then raiseTl s x sel v else bumpCtx x 2 s

/-- A record answered: bytes written at an offset of it, then the signal. -/
def answerRecord (n a off : Nat) (bs : List Byte) (s : State) : State :=
  let r := ccRead s n a 64
  signalRecord (ccWrite s n (a + off) bs) (ccOf s n).ctx (bitsOf (wordAt r 0x18) 0 12) (wordAt r 0x20)

/-- The bytes of a descriptor (16 R353). -/
def ringBytes (gen pos : Nat) (ranks : List Nat) : List Byte :=
  leBytes 8 (gen * 2 ^ 32 + ranks.length * 2 ^ 16 + pos) ++ List.replicate 56 0 ++ ranks.flatMap (leBytes 4)

/-- Where a record wants the descriptor of its new ring. -/
def recordDesc (s : State) (n a : Nat) : Nat := bitsOf (wordAt (ccRead s n a 64) 0x10) 0 56

/-- A record answered with a new ring: its descriptor, then words 0x28 to 0x38, then the signal (R510). -/
def answerRing (n a newgen restart next : Nat) (ranks : List Nat) (s : State) : State :=
  answerRecord n a 0x28 (leBytes 8 (newgen * 2 ^ 32 + restart) ++ leBytes 8 next ++ leBytes 8 0)
    (ccWrite s n (recordDesc s n a) (ringBytes newgen (ranks.idxOf s.fab.rank) ranks))

/-! ## Collection (R511) -/

/-- The re-formation of a context's ring of a generation. -/
def reformOf (s : State) (n gen : Nat) : Option Reform := s.reforms.find? (fun r => r.cc = n && r.oldgen = gen)

/-- A re-formation put in place of any of the same ring. -/
def putReform (s : State) (r : Reform) : State :=
  { s with reforms := r :: s.reforms.filter (fun q => !(q.cc = r.cc && q.oldgen = r.oldgen)) }

/-- The old position of a rank. -/
def Reform.posOf (r : Reform) (rank : Nat) : Nat := r.ranks.idxOf rank

/-- The heard members, in ascending old position. -/
def Reform.survivors (r : Reform) : List Nat := r.ranks.filter (fun k => r.heard.any (fun h => h.1 = k))

/-- The results: NEWGEN, RESTART, NEXTROUND. -/
def Reform.results (r : Reform) : Nat × Nat × Nat :=
  ((r.oldgen + 1) % 2 ^ 32, r.heard.foldl (fun m h => min m h.2.1) (2 ^ 32 - 1), (r.heard.foldl (fun m h => max m h.2.2) 0 + 1) % 2 ^ 32)

/-- A re-formation's header to a rank. -/
def reformHdr (s : State) (r : Reform) (dst : Nat) : Hdr :=
  { src := s.fab.rank, dst := dst, cc := r.cc, round := (ccOf s r.cc).round.num, gen := r.oldgen }

/-- The results as a message to a rank. -/
def resultsTo (s : State) (r : Reform) (dst : Nat) : Msg :=
  .results (reformHdr s r dst) r.results.1 r.results.2.1 r.results.2.2 r.survivors

/-- Collection ends: the leader, the heard member at the lowest old position, sends the results (R511). -/
def closeReform (s : State) (r : Reform) : State :=
  let lead := r.survivors.head? = some s.fab.rank
  let r1 := { r with closed := true, sent := lead }
  if lead then sendMsgs (r.survivors.map (resultsTo s r)) (putReform s r1) else putReform s r1

/-- Every old member has been heard from. -/
def Reform.allHeard (r : Reform) : Bool := r.ranks.all (fun k => r.heard.any (fun h => h.1 = k))

/-- A late member does not lead while its collection may still be answered: the leader that ended collection without it gives it STATE 1
(R512; log 22). -/
def Reform.unsure (r : Reform) (rank : Nat) : Bool := r.late && r.survivors.head? = some rank

/-- Collection that has nothing more to wait for ends. -/
def checkReform (s : State) (r : Reform) : State :=
  if r.started && !r.closed && r.allHeard && !r.unsure s.fab.rank then closeReform s r else putReform s r

/-- A member heard. -/
def Reform.hear (r : Reform) (h : Nat × Nat × Nat) : Reform := { r with heard := r.heard.filter (fun q => q.1 ≠ h.1) ++ [h] }

/-- When a member was heard. -/
def Reform.heardAt (r : Reform) (rank now : Nat) : Reform := { r with came := Tbl.put r.came rank now }

/-- How long collection lasts at most: 2 ms and the deadline duration of the context (R511). -/
def collectTime (c : Cc) : Nat := (2000 + c.round.duration) * Config.cyclesPerMicro

/-- What has come before this member's own request: every report of a re-formation that has not ended here (R511). -/
def earlyReports (s : State) (n gen : Nat) : Option Reform := (reformOf s n gen).filter (fun r => !r.closed)

/-- Collection lasts at most so long, and the report of the heard member at the lowest old position is older: without this member, that leader's
collection has ended (R512; log 22). -/
def Reform.leadGone (r : Reform) (span now : Nat) : Bool := r.survivors.head?.any (fun k => Tbl.getD r.came k now + span < now)

/-- The request of this member, its record being in reach: its report to every other old member, and collection begins; or STATE 3 (R511). -/
def startReform (s : State) (n a : Nat) : State :=
  let c := ccOf s n
  let bs := ccRead s n a 64
  let w := wordAt bs
  if c.ring.isNone || !recordOk s c.ctx bs then answerRecord n a 0x38 (leBytes 8 3) s
  else
    let gen := bitsOf (w 0) 32 32
    let r0 := earlyReports s n gen
    let r : Reform := { cc := n, oldgen := gen, ranks := ringRanks c, heard := (r0.map (fun q => q.heard)).getD [], started := true, closed := false,
                        sent := false, record := a, deadline := s.now + collectTime c, late := r0.any (fun q => q.leadGone (collectTime c) s.now) }
    let s1 := sendMsgs ((otherRanks c).map (fun k => .report (reformHdr s r k) (bitsOf (w 0) 0 32) (bitsOf (w 8) 0 32))) s
    checkReform s1 (r.hear (s.fab.rank, bitsOf (w 0) 0 32, bitsOf (w 8) 0 32))

/-! ## Firmware's work at a record (R510, 24 R456) -/

/-- What firmware's work asks for: its record and, for a new ring, the descriptor's place. -/
def dutyAsk (s : State) (d : FwDuty) : AskRun :=
  let x := (ccOf s d.cc).ctx
  let r := deviceAsk s x d.record 64 needRW
  match d.act with
  | .ring _ _ _ ranks =>
    if r.waits ≠ [] || r.bad ≠ [] then r else deviceAsk r.s x (recordDesc r.s d.cc d.record) (64 + 4 * ranks.length) needRW
  | _ => r

/-- Firmware's work done. -/
def dutyDone (d : FwDuty) (s : State) : State :=
  match d.act with
  | .start => startReform s d.cc d.record
  | .answer st => answerRecord d.cc d.record 0x38 (leBytes 8 st) s
  | .ring newgen restart next ranks => answerRing d.cc d.record newgen restart next ranks s

/-- Firmware's work: done; or it waits for pages; or, where the record or the descriptor cannot be reached, left (log 22). -/
def doDuty (d : FwDuty) (s : State) : State :=
  if (ccOf s d.cc).st = .unbound || (ctxOf s (ccOf s d.cc).ctx).st ≠ .live then s
  else
    let r := dutyAsk s d
    if r.waits ≠ [] then { r.s with duties := r.s.duties ++ [{ d with waits := r.waits }] }
    else if r.bad ≠ [] then r.s
    else dutyDone d r.s

/-- Work in order. -/
def doDuties (ds : List FwDuty) (s : State) : State :=
  match ds with
  | [] => s
  | d :: r => doDuties r (doDuty d s)

/-- A record has gone: work that waits for pages is taken up again; it ends where its page's record has failed (24 R457). -/
def retryDuties (x page : Nat) (fails : Bool) (s : State) : State :=
  let ends := fun (d : FwDuty) => fails && (ccOf s d.cc).ctx = x && d.waits.contains page
  doDuties (s.duties.filter (fun d => !ends d)) { s with duties := [] }

/-- FUSET_EVENT (16 R350): FEVENT to the host; under DUTY bit 2 = 0, code 0xFF01 asks for re-formation (R510). -/
def execFusetEvent (o : FOps) (s : State) : Host.Outcome State Fault Refusal :=
  fuset 0x25 o s (fun n c =>
    let x := (fusetX c o).toNat
    let a := (ccReg c o.fa).toNat
    if 2 ^ 16 ≤ x then ccFault s n 0x01 2
    else
      let s1 := ccDone (emit (event evFEvent c.ctx x 0 a n) s) n
      if x = 0xFF01 && !s.chan.duty.getLsbD 2 && a % 64 = 0 then doDuty { cc := n, record := a, act := .start, waits := [] } s1 else s1)

/-! ## The events (R511, R512) -/

/-- A report for a re-formation that this member has not begun is kept for it, unless the ring now bound is a later one (R512; log
22). -/
def earlyReport (s : State) (h : Hdr) (lastck curround : Nat) : State :=
  let c := ccOf s h.cc
  if c.ring.isSome && h.gen < ringGen c then discard s h.cc
  else
    putReform s { cc := h.cc, oldgen := h.gen, ranks := ringRanks c, heard := [(h.src, lastck, curround)], started := false,
                  closed := false, sent := false, record := 0, deadline := 0, came := [(h.src, s.now)] }

/-- A member's report arrives: heard; or too late, after this leader has sent its results, and answered so (R512). -/
def reportArrives (s : State) (h : Hdr) (lastck curround : Nat) : State :=
  if (ccOf s h.cc).st = .unbound then s
  else match reformOf s h.cc h.gen with
    | none => earlyReport s h lastck curround
    | some r =>
      if r.sent then (if r.survivors.contains h.src then s else sendMsg s (resultsTo s r h.src))
      else if r.closed then s
      else checkReform s ((r.hear (h.src, lastck, curround)).heardAt h.src s.now)

/-- Results come from the lowest old position heard from: this member's own from itself, others' from no higher position than the lowest other
member heard (R512). -/
def Reform.trusts (r : Reform) (me src : Nat) : Bool :=
  if src = me then r.survivors.head? = some me
  else match r.survivors.filter (fun k => k ≠ me) with
    | [] => true
    | k :: _ => r.posOf src ≤ r.posOf k

/-- Results arrive: from the lowest old position heard, a new ring, or, without this member, STATE 1; others are discarded (R512). -/
def resultsArrive (s : State) (h : Hdr) (newgen restart next : Nat) (ranks : List Nat) : State :=
  if (ccOf s h.cc).st = .unbound then s
  else match reformOf s h.cc h.gen with
    | none => s
    | some r =>
      if !r.started || !r.trusts s.fab.rank h.src then s
      else doDuty { cc := h.cc, record := r.record, waits := [], act := if ranks.contains s.fab.rank then .ring newgen restart next ranks else .answer 1 }
        (putReform s { r with started := false, closed := true })

/-- REFORM_REPORT (R511). -/
def execReformReport (m : Msg) (s : State) : Host.Outcome State Fault Refusal :=
  onMsg s m (fun s m => match m with
    | .report h lastck curround => some (reportArrives s h lastck curround)
    | _ => none)

/-- Collection has lasted as long as it may. -/
def collectOver (s : State) (r : Reform) : Bool := r.started && !r.closed && r.deadline ≤ s.now

/-- REFORM_COLLECTION_END (R511): 2 ms and the deadline duration have passed since this member's request. -/
def execReformCollectionEnd (cc : Nat) (s : State) : Host.Outcome State Fault Refusal :=
  .next (match s.reforms.find? (fun r => r.cc = cc && collectOver s r) with
    | none => s
    | some r => closeReform s r)

/-- REFORM_RESULTS (R512). -/
def execReformResults (m : Msg) (s : State) : Host.Outcome State Fault Refusal :=
  onMsg s m (fun s m => match m with
    | .results h newgen restart next ranks => some (resultsArrive s h newgen restart next ranks)
    | _ => none)

end Sys2Proof.Machine
end

