-- ==== Sys2Proof/Machine/Faults.lean ====
section
/-! DEFINITION. Faults: fault records resolved or failed (24 R456, R457), soft errors (25 R470, R471, R482), commits and paired execution
(25 R473-R476), the harvest of the log (25 R483), and the end of a context kill (24 R449). -/

namespace Sys2Proof.Machine

/-! ## Waiters of a record (24 R457) -/

/-- The pages that one who waits still waits for: those with a record. -/
def keptWaits (s : State) (x : Nat) (ps : List Nat) : List Nat := ps.filter (fun p => (recordFor s x p).isSome)

/-- The pages that have failed for one who waits. -/
def failsOf (bad : Option Nat) (waits failed : List Nat) : List Nat :=
  match bad with
  | none => failed
  | some p => if waits.contains p then addPage failed p else failed

/-- An open instruction whose waits are looked at again. -/
def wakeHeld (s : State) (x : Nat) (bad : Option Nat) (h : Held) : Held :=
  { h with waits := keptWaits s x h.waits, failed := failsOf bad h.waits h.failed }

/-- The splits of a team. -/
def wakeTeamWaits (s : State) (x : Nat) (bad : Option Nat) (m : Team) : Team :=
  let f := fun (p : Split) => { p with held := p.held.map (wakeHeld s x bad) }
  { m with splits := Tbl.mapVals m.splits (fun _ p => f p), defer := m.defer.map f, popWaits := keptWaits s x m.popWaits,
           popFailed := failsOf bad m.popWaits m.popFailed }

/-- A block's splits and commands. -/
def wakeBlock (s : State) (x : Nat) (bad : Option Nat) (k : Block) : Block :=
  { k with saveWaits := keptWaits s x k.saveWaits, teams := Tbl.mapVals k.teams (fun _ m => wakeTeamWaits s x bad m),
           cmds := k.cmds.map (fun c => { c with waits := keptWaits s x c.waits, failed := failsOf bad c.waits c.failed }) }

/-- A collective context. -/
def wakeCc (s : State) (x : Nat) (bad : Option Nat) (c : Cc) : Cc :=
  { c with waits := keptWaits s x c.waits, stepWaits := keptWaits s x c.stepWaits,
           failed := failsOf bad c.stepWaits (failsOf bad c.waits c.failed) }

/-- A launch that waits for PARAM. -/
def wakeLaunch (s : State) (l : Launch) : Launch := { l with paramWait := l.paramWait.filter (fun p => (recordFor s l.ctx p).isSome) }

/-- What has failed for a context: a page of the context `x`. -/
def failFor (x : Nat) (bad : Option Nat) (y : Nat) : Option Nat := if x = y then bad else none

/-- Every waiter looks again at the pages it waits for, those of other contexts too, whose misses may have found no record free (R456); a
page of a context that has failed is failed for those that wait on it. -/
def wakeAllWaits (s : State) (x : Nat) (bad : Option Nat) : State :=
  { s with
    blocks := Tbl.mapVals s.blocks (fun b k => wakeBlock s (ctxNum s b) (failFor x bad (ctxNum s b)) k),
    ccs := Tbl.mapVals s.ccs (fun _ c => wakeCc s c.ctx (failFor x bad c.ctx) c),
    launches := Tbl.mapVals s.launches (fun _ l => wakeLaunch s l) }

/-- Pops that waited for a page are tried again (01 R22): of every team with a deferred split. -/
def retryPops (qs : List (Nat × Nat)) (s : State) : State :=
  match qs with
  | [] => s
  | (b, t) :: r => retryPops r (settleTeam s b t)

/-- The teams whose deferral stack holds splits and waits for no page. -/
def poppers (s : State) : List (Nat × Nat) :=
  s.blocks.flatMap (fun c => (c.2.teams.filter (fun q => q.2.defer ≠ [] && q.2.popWaits = [])).map (fun q => (c.1, q.1)))

/-- Steps of collective contexts with work left go on (25 R483: in the order of the channels). -/
def runAllSteps (ns : List Nat) (s : State) : State := runStepsOf (ns.filter (fun n => openFirings (ccOf s n) ≠ [])) s

/-- A launch rejected at first placement (01 R41 reason 11, 25 R477). -/
def rejectPlaced (s : State) (n : Nat) : State :=
  match Tbl.get s.launches n with
  | none => s
  | some l => emit (event evLRej l.ctx 11 n 0 0) (withdraw (putLaunch s n { l with st := .discarded }) n)

/-- Launches whose PARAM page failed: the copy rejects the launch, the write-back kills the context (R477). -/
def failParams (page x : Nat) (ns : List Nat) (s : State) : State :=
  match ns with
  | [] => s
  | n :: r =>
    failParams page x r (match Tbl.get s.launches n with
      | none => s
      | some l =>
        if l.ctx = x && l.paramWait = some page && l.st = .queued then
          (if l.writeBack then killContext s x 2 0 none else rejectPlaced s n)
        else s)

/-- A block whose saving or restoring waited on a page that failed: its context is killed (24 R461, R449). -/
def failSaves (page x : Nat) (bs : List Nat) (s : State) : State :=
  match bs with
  | [] => s
  | b :: r =>
    failSaves page x r (match Tbl.get s.blocks b with
      | none => s
      | some k => if ctxNum s b = x && k.saveWaits.contains page then killContext s x 3 k.lin none else s)

/-- Records have gone: everyone who waits looks again, and goes on where it can (R456, R457). -/
def recordsGone (s : State) (x page : Nat) (fails : Bool) : State :=
  let s1 := wakeAllWaits s x (if fails then some page else none)
  let s2 := retryDuties x page fails (retryPops (poppers s1) s1)
  runAllSteps (s2.ccs.map (fun c => c.1)) s2

/-- A record goes: its page failed, or to be walked again by those that wait. -/
def closeRecord (s : State) (r : FaultRec) (fails : Bool) : State :=
  let s1 := { s with faults := s.faults.filter (fun q => q.num ≠ r.num) }
  let s2 := if fails then failSaves r.page r.ctx (s.blocks.map (fun c => c.1)) (failParams r.page r.ctx (s.launches.map (fun c => c.1)) s1)
            else s1
  recordsGone s2 r.ctx r.page fails

/-- A record re-walked: a valid entry lets its waiters replay; one that stops makes a new record (R457). -/
def rewalk (s : State) (r : FaultRec) : State :=
  match walk s r.ctx (r.page * 65536) with
  | .leaf _ _ _ _ _ _ => closeRecord s r false
  | .stop level cls => joinRecord { s with faults := s.faults.filter (fun q => q.num ≠ r.num) } r.ctx r.page level cls r.kinds

/-! ## Demand-zero pages (24 R457) -/

/-- The address of the level-0 entry that a walk reaches, if it reaches one. -/
def entryAddr (mem : List Host.Cell) (fuel level table va : Nat) : Option Nat :=
  match fuel with
  | 0 => none
  | fuel + 1 =>
    let a := table + 8 * tableIndex level va
    if level = 0 then some a
    else
      let e := leNat (readBytes mem a 8)
      if e % 2 = 1 && bitsOf e 1 2 = 0 && tableOk level e then entryAddr mem fuel (level - 1) (bitsOf e 8 44 * 256) va else none

/-- A physical page of zeros. -/
def zeroPage (s : State) (pa : Nat) : State :=
  let s1 := clearSeals s false (fun u => u.isNone) pa 65536
  { s1 with mem := s1.mem.filter (fun c => c.1 < pa || pa + 65536 ≤ c.1),
            poison := healBytes s1.poison (fun a => pa ≤ a && a < pa + 65536) }

/-- A level-0 entry: V, TYPE 1, R and W, and a page. -/
def zeroEntry (pa : Nat) : Nat := pa / 65536 * 65536 + 0x1B

/-- The lowest free pool page, zeroed, behind a demand-zero entry; none while the pool is empty. -/
def fillDemandZero (s : State) (r : FaultRec) : Option State :=
  let c := ctxOf s r.ctx
  match lowestPool c, entryAddr s.mem 4 3 c.root (r.page * 65536) with
  | some p, some a =>
    let pa := c.pool + 65536 * p
    let s1 := zeroPage (putCtx s r.ctx { c with poolUsed := p :: c.poolUsed }) pa
    some (writePhys s1 { b := none, t := 0, counted := false } (.cap a) (leBytes 8 (zeroEntry pa)))
  | _, _ => none

/-- A record resolved by firmware, which walks again first: an entry made valid since lets the waiters replay (R457, R458, 15 R342; log
111). -/
def firmwareResolves (s : State) (r : FaultRec) : State :=
  match walk s r.ctx (r.page * 65536) with
    | .leaf _ _ _ _ _ _ => closeRecord s r false
    | .stop 0 3 =>
      match fillDemandZero s r with
      | none => closeRecord s r true
      | some s1 => closeRecord s1 r false
    | .stop _ _ => closeRecord s r true

/-- FAULT_RECORD_RESOLUTION (R457): of a record made in hardware mode. -/
def execFaultRecordResolution (n : Nat) (s : State) : Out :=
  .next (match s.faults.find? (fun r => r.num = n && !r.host) with
    | none => s
    | some r => firmwareResolves s r)

/-! ## Soft errors (25 R470, R482) -/

/-- The live lanes that a datapath lane serves: team, lane (17 R370). -/
def mappedLanes (s : State) (core dp i : Nat) : List (Nat × Nat × Nat) :=
  (s.blocks.filter (fun c => c.2.core = core && blockResident c.2)).flatMap (fun c =>
    (c.2.teams.filter (fun q => q.1 < 16 && teamLive q.2 && q.2.dp = dp)).flatMap (fun q =>
      ((lanesOf (liveLanes q.2) q.2.width).filter (fun l => l % 32 = i % 32)).map (fun l => (c.1, q.1, l))))

/-- Those lanes die, each counted against the datapath (29 R523). -/
def killMapped (core dp : Nat) (qs : List (Nat × Nat × Nat)) (s : State) : State :=
  match qs with
  | [] => s
  | (b, t, l) :: r => killMapped core dp r (countDeath (laneDeath s b t l) (dpNumber core dp))

/-- The open block of a firing that an error meets: its churn is poisoned. -/
def churnError (n e blk : Nat) (s : State) : State :=
  match (entryOf (ccOf s n) e).firings.find? (fun f => !f.blocksDone.contains blk) with
  | none => s
  | some f => if blk < chunkBlocks (ccOf s n) then settleRound (stepBlockAs true .faults n e f.version (stepBlockAs true .churns n e f.version s blk) blk) n else s

/-- The addresses of a word of 8 bytes joined to a list, kept rising. -/
def insertWord (ps : List Nat) (a : Nat) : List Nat := (List.range 8).foldl (fun t i => insertNat t (a / 8 * 8 + i)) ps

/-- A POISON entry (R526). -/
def logPoison (unit place addr aux : Nat) (s : State) : State :=
  logEntry { cls := clsPoison, ctx := 0xFF, aux := aux, unit := unit, place := place, value0 := BitVec.ofNat 64 addr, value1 := 0 } s

/-- A word of the capacity tier that is written back with poison, of the stack that holds it or of the capacity tier. -/
def poisonWord (pa : Nat) (s : State) : State :=
  logPoison 5 ((if hbmResident s pa then hbmStack pa else 8) * 65536) pa 0 { s with poison := insertWord s.poison pa }

/-- A word of a core's scratchpad. -/
def poisonSpad (core off : Nat) (s : State) : State :=
  logPoison 1 (core * 65536 + 0xFFFE) off 1 { s with spadPoison := insertWord s.spadPoison (core * Config.spadBytes + off) }

/-- A word of a core's accumulator memory: 65,536 words of 4 bytes. -/
def poisonAcc (core w : Nat) (s : State) : State :=
  logPoison 1 (core * 65536 + 0xFFFE) (4 * w) 2 { s with accPoison := insertNat s.accPoison (core * 65536 + w) }

/-- A register of a lane; its offset is taken within the team's registers (log 24). -/
def poisonRegister (b t n l : Nat) (s : State) : State :=
  match Tbl.get s.blocks b, teamOf s b t with
  | some k, some m =>
    if m.nregs ≤ n || m.width ≤ l || !teamLive m then s
    else logPoison 1 (teamPlace k t) (4 * (n * m.width + l)) 3
      (onTeam s b t (fun m => { m with poison := insertNat m.poison (n * 1024 + l) }))
  | _, _ => s

/-- An uncorrectable error where it is consumed, or of a word written back with poison, which its next consumer answers for (R470). -/
def softError (w : ErrorSite) (s : State) : State :=
  match w with
  | .lane b t l => if t < frontTeam then laneDeath s b t l else rerunUnit s b false
  | .datapathLane core dp i => killMapped core dp (mappedLanes s core dp i) s
  | .teamControl b _ => rerunUnit s b false
  | .block b => rerunUnit s b false
  | .clusterMemory b => rerunUnit s b true
  | .churn cc e blk => churnError cc e blk s
  | .unpinned die => replayAll 1 (launchesOn s die) s
  | .memoryWord pa => if pa < Config.capacityBytes then poisonWord pa s else s
  | .spadWord core off => if core < Config.cores && off < Config.spadBytes then poisonSpad core off s else s
  | .accWord core w => if core < Config.cores && w < 65536 then poisonAcc core w s else s
  | .registerWord b t n l => poisonRegister b t n l s

/-- UNCORRECTABLE_ERROR (R470). -/
def execUncorrectableError (w : ErrorSite) (s : State) : Out := .next (softError w s)

/-- CORRECTABLE_ERROR (R482). -/
def execCorrectableError (s : State) : Out := .next (countClass clsCorr s)

/-- The oldest work that errors have started is done (R470). -/
def doDue (s : State) : State :=
  match s.due with
  | [] => s
  | .replay n cause lin :: r => replayLaunch { s with due := r } n cause lin
  | .rerun b whole :: r => rerunUnit { s with due := r } b whole

/-! ## Commits (25 R473) -/

/-- The block at a linear index under COMMIT 2 may commit: it has ended, and every one before it has committed. -/
def commitReady (l : Launch) (lin : Nat) : Bool :=
  l.blocksDone.contains lin && !l.committed.contains lin && (List.range lin).all (fun n => l.committed.contains n)

/-- A unit commits: the launch under COMMIT 1, once every block has completed; a block under COMMIT 2, in linear order. -/
def blockCommit (n u : Nat) (s : State) : State :=
  match Tbl.get s.launches n with
  | none => s
  | some l =>
    if l.st ≠ .placed then s
    else if l.lr.commit = 1 then
      if l.blocksDone.length = gridBlocks l.lr && l.committed = [] then launchEndCheck (commitLaunch s n) n else s
    else if l.lr.commit = 2 && commitReady l u then launchEndCheck (commitBlock s n u 0) n
    else s

/-- BLOCK_COMMIT (R473). -/
def execBlockCommit (l u : Nat) (s : State) : Out := .next (blockCommit l u s)

/-! ## Paired execution (25 R474, R475) -/

/-- The signatures that the copies of a gang have left for a position: copy, signature, core; ascending copy. -/
def sigsFor (l : Launch) (g pos : Nat) : List (Nat × DWord × Nat) :=
  (l.gangs.filter (fun q => q.idx = g)).filterMap (fun q => (Tbl.get q.sigs pos).map (fun v => (q.copy, v.1, v.2)))

/-- Clusters with a core in service. -/
def clustersInService (s : State) : Nat :=
  ((List.range Config.clusters).filter (fun c => (List.range 8).any (fun i => !s.mgmt.out.contains (.core (8 * c + i))))).length

/-- What a copy holds for a position is given up. -/
def dropCopy (n g pos copy : Nat) (s : State) : State :=
  match Tbl.get s.launches n with
  | none => s
  | some l =>
    match l.gangs.find? (fun q => q.idx = g && q.copy = copy) with
    | none => s
    | some q =>
      let d := shadowDrop q.shadow (some pos)
      dropSeals (freePool (putLaunch s n { l with gangs := l.gangs.map (fun r => if r.idx = g && r.copy = copy then
        { r with shadow := d.1, pubs := r.pubs.filter (fun p => p.1 ≠ pos) } else r) }) l.ctx d.2)
        (fun u => u = (n, g * l.lr.gang + pos, copy))

/-- The copies of a list give up a position. -/
def dropCopies (n g pos : Nat) (cs : List Nat) (s : State) : State :=
  match cs with
  | [] => s
  | c :: r => dropCopies n g pos r (dropCopy n g pos c s)

/-- A block confirmed: one copy's shadow is committed, the others' discarded, and the block counts as complete, which under DET lets the next
end (23 R443). -/
def confirmBlock (s : State) (n lin copy : Nat) (l : Launch) : State :=
  let s1 := commitBlock s n lin copy
  let others := ((l.gangs.filter (fun q => q.idx = lin / l.lr.gang)).map (fun q => q.copy)).filter (fun c => c ≠ copy)
  let s2 := dropCopies n (lin / l.lr.gang) (lin % l.lr.gang) others s1
  match Tbl.get s2.launches n with
  | none => s2
  | some l2 =>
    let s3 := putLaunch s2 n { l2 with blocksDone := l2.blocksDone ++ [lin] }
    launchEndCheck (retireEnded s3) n

/-- One PAIRMISMATCH entry with both signatures of a block, made once (R475, R526). -/
def logMismatch (s : State) (n lin : Nat) (l : Launch) (a b : Nat × DWord × Nat) : State :=
  if l.mismatched.contains lin then s
  else logEntry { cls := clsPairMismatch, ctx := l.ctx, aux := 0, unit := 1, place := a.2.2 * 65536 + 0xFFFE, value0 := a.2.1, value1 := b.2.1 }
    (putLaunch s n { l with mismatched := lin :: l.mismatched })

/-- A copy of the gang runs or is to run, beyond those with signatures. -/
def moreComing (l : Launch) (g : Nat) (have_ : List Nat) : Bool :=
  (l.gangs.any (fun q => q.idx = g && !have_.contains q.copy)) || l.rerun.any (fun q => q.1 = g)

/-- Under DET a block is confirmed after the one before it (23 R443). -/
def inTurn (l : Launch) (lin : Nat) : Bool := !l.lr.det || lin = 0 || l.blocksDone.contains (lin - 1)

/-- A gang is to run once more, as its next copy. -/
def thirdCopy (s : State) (n g : Nat) : State :=
  match Tbl.get s.launches n with
  | none => s
  | some l => putLaunch s n { l with rerun := l.rerun ++ [(g, nextCopy l g)] }

/-- The signatures of a block compared: two that agree confirm it; two that differ call for a third copy; three with none alike, or too
few clusters, a replay (R475). -/
def pairCompare (n lin : Nat) (s : State) : State :=
  match Tbl.get s.launches n with
  | none => s
  | some l =>
    let g := lin / l.lr.gang
    if l.st ≠ .placed || l.lr.commit ≠ 3 || l.blocksDone.contains lin || !inTurn l lin then s
    else match sigsFor l g (lin % l.lr.gang) with
      | a :: b :: r =>
        if a.2.1 = b.2.1 then confirmBlock s n lin a.1 l
        else
          let s1 := logMismatch s n lin l a b
          match r with
          | [] =>
            if moreComing l g [a.1, b.1] then s1
            else if clustersInService s < 3 then replayLaunch s1 n 3 lin
            else thirdCopy s1 n g
          | c :: _ =>
            if a.2.1 = c.2.1 then confirmBlock s1 n lin a.1 l
            else if b.2.1 = c.2.1 then confirmBlock s1 n lin b.1 l
            else replayLaunch s1 n 3 lin
      | _ => s

/-- PAIR_COMPARE (R475). -/
def execPairCompare (l u : Nat) (s : State) : Out := .next (pairCompare l u s)

/-! ## The harvest (25 R483) -/

/-- The 32 bytes of an entry (R481). -/
def entryBytes (e : DWord × DWord × DWord × DWord) : List Byte :=
  leBytes 8 e.1.toNat ++ leBytes 8 e.2.1.toNat ++ leBytes 8 e.2.2.1.toNat ++ leBytes 8 e.2.2.2.toNat

/-- Firmware copies the oldest entry to the host's buffer and advances LOGHEAD. -/
def harvest (s : State) : State :=
  let l := s.log
  if s.chan.duty.getLsbD 1 || l.hsize = 0 || l.head = l.tail then s
  else
    let e := Tbl.getD l.entries (l.head.toNat % 4096) (0, 0, 0, 0)
    { s with host := writeBytes s.host (l.hbase.toNat + 32 * (l.head.toNat % l.hsize.toNat)) (entryBytes e),
             log := { l with head := l.head + 1 } }

/-- LOG_HARVEST (R483). -/
def execLogHarvest (s : State) : Out := .next (harvest s)

/-! ## The end of a kill (24 R449) -/

/-- The CTXKILL entry (R526). -/
def logKill (s : State) (x : Nat) (c : Ctx) : State :=
  logEntry { cls := clsCtxKill, ctx := x, aux := 0, unit := 6, place := 0, value0 := BitVec.ofNat 64 (c.killCount * 2 ^ 32 + c.killReason),
             value1 := BitVec.ofNat 64 c.killBlock } s

/-- DYING to KILLED, once every block is gone and every collective context has halted: one entry, one CTXKILLED event, which names the command
that killed it where one did, then the DONE of the command (R449, 23 R436). -/
def killComplete (x : Nat) (s : State) : State :=
  let c := ctxOf s x
  if c.st ≠ .dying || s.blocks.any (fun q => ctxNum s q.1 = x) || (ccsOf s x).any (fun n => (ccOf s n).st ≠ .halted) then s
  else
    let s1 := logKill (putCtx s x { c with st := .killed, slotsUsed := [], framesUsed := [], poolUsed := c.poolUsed }) x c
    let s2 := emit (event evCtxKilled x c.killReason c.killSeq c.killCount c.killBlock) s1
    match c.killAck with
    | none => s2
    | some q => emit (event evDone x 0 q 0 0) s2

/-- CONTEXT_KILL_COMPLETE (R449). -/
def execContextKillComplete (x : Nat) (s : State) : Out := .next (killComplete x s)

end Sys2Proof.Machine
end

