-- ==== Sys2Proof/Machine/Distribute.lean ====
section
/-! DEFINITION. Distribute: the distributor: launches that become ready, gangs that are placed (01 R15, R16, R39; 17 R377, R378; 23 R440-R445;
24 R455; 25 R477). -/

namespace Sys2Proof.Machine

/-! ## Launches in their queues (23 R439-R445) -/

/-- The rank of a launch's queue: the privileged queue above PRIO 15 (23 R441, 24 R459). -/
def rankOf (l : Launch) : Nat := if l.priv then 16 else l.lr.prio

/-- Every wait of a launch holds (R440). -/
def waitsHold (s : State) (l : Launch) : Bool := l.waits.all (fun w => w.2 ≤ tlValue s l.ctx w.1)

/-- A launch whose waits hold becomes ready; under host-assisted arbitration the host is told (R440, R444). -/
def becomeReady (s : State) (n : Nat) : State :=
  match Tbl.get s.launches n with
  | none => s
  | some l =>
    if l.st ≠ .queued || l.ready || !waitsHold s l then s
    else
      let s1 := putLaunch s n { l with ready := true, lready := s.chan.duty.getLsbD 3 }
      if s.chan.duty.getLsbD 3 then emit (event evLReady l.ctx 0 n n l.lr.prio) s1 else s1

/-- The launches that are queued or placed. -/
def openLaunches (s : State) : List Nat := (s.launches.filter (fun q => q.2.st = .queued || q.2.st = .placed)).map (fun q => q.1)

/-- Launches become ready in order. -/
def readyAll (ns : List Nat) (s : State) : State :=
  match ns with
  | [] => s
  | n :: r => readyAll r (becomeReady s n)

/-- A launch may be placed: it is ready, and dispatched where the host arbitrates it (R444, R445). -/
def released (s : State) (l : Launch) : Bool := l.ready && !l.writeBack && (!l.lready || l.dispatched) && (ctxOf s l.ctx).st = .live

/-- Launches of a context with placed blocks (R442). -/
def placedCount (s : State) (x : Nat) : Nat := (s.launches.filter (fun q => q.2.ctx = x && q.2.st = .placed)).length

/-- Launches of a context that are queued (R442). -/
def queuedCount (s : State) (x : Nat) : Nat := (s.launches.filter (fun q => q.2.ctx = x && q.2.st = .queued)).length

/-- What a launch has to place next: a gang, its copy, and whether it is a saved gang to be restored. Saved gangs go ahead of unplaced
ones (24 R463), reruns ahead of new gangs. -/
structure GangUnit where
  gang : Nat
  copy : Nat
  restore : Bool
deriving DecidableEq, Repr

/-- The saved gangs of a launch, by gang and copy. -/
def savedGangs (s : State) (n : Nat) : List (Nat × Nat) :=
  ((s.blocks.filter (fun c => c.2.launch = n && c.2.st = .saved)).map (fun c => (c.2.gang, c.2.copy))).eraseDups

/-- The earlier of two gangs. -/
def earlier (a b : Nat × Nat) : Nat × Nat := if b.1 < a.1 || (b.1 = a.1 && b.2 < a.2) then b else a

/-- A launch's next unit (R441). -/
def nextUnit (s : State) (n : Nat) (l : Launch) : Option GangUnit :=
  match savedGangs s n, l.rerun with
  | g :: r, _ => let u := r.foldl earlier g; some { gang := u.1, copy := u.2, restore := true }
  | [], (g, k) :: _ => some { gang := g, copy := k, restore := false }
  | [], [] =>
    if l.nextGang * l.lr.gang < gridBlocks l.lr then some { gang := l.nextGang, copy := 0, restore := false } else none

/-! ## Fit (R16; 17 R377, R378; 24 R455, R463) -/

/-- Datapaths for the first teams of a block of a record. -/
def dpsFor (s : State) (core : Nat) (r : LaunchRec) (n : Nat) : Option (List Nat) :=
  seatAll s core (List.replicate n (newTeam 0 0 r.width r.regs r.tentry 0 0)) []

/-- A core in service can take a new block. -/
def coreFits (s : State) (core : Nat) (r : LaunchRec) : Bool :=
  !s.mgmt.out.contains (.core core) && (dpsFor s core r r.initt).isSome &&
    (r.scratch = 0 || (lowestRun (coreAllocs s core) r.scratch).isSome)

/-- Bank ranges of the blocks resident on a core. -/
def coreBanks (s : State) (core : Nat) : List (Nat × Nat) :=
  (s.blocks.filter (fun c => c.2.core = core && blockResident c.2)).flatMap (fun c => c.2.handles.map (fun h => (h.first, h.count)))

/-- Teams of a block with registers in its image, ascending. -/
def imageTeams (k : Block) : List (Nat × Team) := k.teams.filter (fun c => c.1 < 16 && teamLive c.2)

/-- Datapaths for the live teams of a saved block, their released slices given back (17 R377, R378). -/
def dpsBack (s : State) (core : Nat) (k : Block) : Option (List Nat) := seatAll s core ((imageTeams k).map (fun c => c.2)) []

/-- A core can take a saved block back: its datapaths, its own offsets and banks, and its latches (24 R463, 05 R138, log 25). -/
def coreRestores (s : State) (core : Nat) (k : Block) : Bool :=
  !s.mgmt.out.contains (.core core) && (dpsBack s core k).isSome && coreLatches s core + k.latches.length ≤ 4 &&
    k.allocs.all (fun a => runFree (coreAllocs s core) a.off a.len) &&
    k.handles.all (fun h => (coreBanks s core).all (fun q => !rangesMeet q.1 q.2 h.first h.count))

/-- The blocks of a saved gang, by position. -/
def savedBlocks (s : State) (n : Nat) (u : GangUnit) : List (Nat × Block) :=
  (List.range 8).flatMap (fun p => s.blocks.filter (fun c => c.2.launch = n && c.2.gang = u.gang && c.2.copy = u.copy && c.2.pos = p))

/-- Ascending cores that take a list of saved blocks in order. -/
def greedyCores (s : State) (cs : List Nat) (ks : List (Nat × Block)) : Bool :=
  match cs, ks with
  | _, [] => true
  | [], _ => false
  | c :: t, k :: q => if coreRestores s c k.2 then greedyCores s t q else greedyCores s t (k :: q)

/-- The cores of a cluster. -/
def clusterCores (c : Nat) : List Nat := (List.range 8).map (fun i => 8 * c + i)

/-- Free lane-private frames of a context. -/
def freeFrames (c : Ctx) : List Nat := (List.range c.nframes).filter (fun f => !c.framesUsed.contains f)

/-- A cluster is open to a copy of a gang: no other copy stands on it (25 R474, R475). -/
def copyApart (l : Launch) (u : GangUnit) (c : Nat) : Bool :=
  l.gangs.all (fun g => g.idx ≠ u.gang || g.copy = u.copy || g.cluster ≠ c)

/-- A unit fits on a cluster. -/
def clusterFits (s : State) (n : Nat) (l : Launch) (u : GangUnit) (c : Nat) : Bool :=
  copyApart l u c &&
  (if u.restore then greedyCores s (clusterCores c) (savedBlocks s n u)
   else l.lr.gang ≤ ((clusterCores c).filter (fun i => coreFits s i l.lr)).length &&
        l.lr.gang * l.lr.maxt ≤ (freeFrames (ctxOf s l.ctx)).length)

/-! ## Who goes first (23 R441, R442; 24 R459) -/

/-- The blocks on a cluster of launches of lower rank, those being saved or restored among them. -/
def lowerBlocks (s : State) (rank c : Nat) : List (Nat × Block) :=
  s.blocks.filter (fun q => q.2.core / 8 = c && blockResident q.2 && (Tbl.get s.launches q.2.launch).any (fun l => rankOf l < rank))

/-- The machine without some blocks. -/
def withoutBlocks (s : State) (bs : List Nat) : State := { s with blocks := s.blocks.filter (fun c => !bs.contains c.1) }

/-- A unit cannot be placed on a cluster because of lower-priority work there: it is blocked, and waits there (R459, R441). -/
def waitsOn (s : State) (n : Nat) (l : Launch) (u : GangUnit) (c : Nat) : Bool :=
  let lower := lowerBlocks s (rankOf l) c
  lower ≠ [] && !clusterFits s n l u c && clusterFits (withoutBlocks s (lower.map (fun q => q.1))) n l u c

/-- A launch takes part: it is released, has a unit to place, and its context's count allows it (R442). -/
def takesPart (s : State) (l : Launch) : Bool :=
  released s l && (l.st = .placed || (l.st = .queued && placedCount s l.ctx < 256))

/-- A gang of higher rank waits on a cluster (R441). -/
def barredFor (s : State) (rank c : Nat) : Bool :=
  s.launches.any (fun q => rank < rankOf q.2 && takesPart s q.2 && (nextUnit s q.1 q.2).any (fun u => waitsOn s q.1 q.2 u c))

/-- A launch's next unit can be placed now. One whose PARAM page is waited for keeps its turn (DESIGN CHOICE, log 116). -/
def canPlace (s : State) (n : Nat) (l : Launch) : Bool :=
  takesPart s l && (nextUnit s n l).any (fun u =>
    (List.range Config.clusters).any (fun c => clusterFits s n l u c && !barredFor s (rankOf l) c))

/-- The launches that can place a unit. -/
def canPlaceAll (s : State) : List (Nat × Launch) := s.launches.filter (fun q => canPlace s q.1 q.2)

/-- Of the contexts of a list, the one whose turn follows the last (R441). -/
def nextTurn (last : Option Nat) (xs : List Nat) : Option Nat :=
  let low := fun (ys : List Nat) => ys.foldl (fun m y => match m with
    | none => some y
    | some v => some (min v y)) (none : Option Nat)
  match last with
  | none => low xs
  | some v => (low (xs.filter (fun y => v < y))).orElse (fun _ => low xs)

/-- It is a launch's turn: no higher rank can place, its context is next in turn, and it is the first of its queue that can (R441). -/
def itsTurn (s : State) (n : Nat) (l : Launch) : Bool :=
  let all := canPlaceAll s
  let peers := all.filter (fun q => rankOf q.2 = rankOf l)
  all.all (fun q => rankOf q.2 ≤ rankOf l) &&
  nextTurn (Tbl.get s.turns (rankOf l)) (peers.map (fun q => q.2.ctx)) = some l.ctx &&
  peers.all (fun q => q.2.ctx ≠ l.ctx || l.seat < q.2.seat || (l.seat = q.2.seat && n ≤ q.1))

/-- Cores of one cluster, ascending, one for each block (R16). -/
def coresOk (cores : List Nat) (n : Nat) : Bool :=
  cores.length = n && cores.all (fun c => c < Config.cores && c / 8 = cores.headD 0 / 8) &&
    (List.zip cores cores.tail).all (fun q => q.1 < q.2)

/-! ## PARAM (25 R477) -/

/-- The 256 bytes at PARAM copied at first placement; none while they are waited for or when they cannot be read. -/
def copyParam (s : State) (n : Nat) (l : Launch) : Option State × State :=
  if l.param.isSome then (some s, s)
  else if l.paramWait.isSome then (none, s)
  else
    let a := l.lr.param.toNat
    let r := deviceAsk s l.ctx a 256 needR
    match r.waits, r.bad with
    | p :: _, _ => (none, putLaunch r.s n { l with paramWait := some p })
    | [], _ :: _ => (none, rejectPlaced r.s n)
    | [], [] =>
      let s1 := putLaunch r.s n { l with param := some (deviceRead r.s l.ctx a 256) }
      (some s1, s1)

/-! ## Placement (R15, R16, R29, R39; 24 R455) -/

/-- The scratchpad run and generation of a new block (R39; 03 R77). -/
def takeScratch (s : State) (core : Nat) (r : LaunchRec) : Nat × Nat × State :=
  if r.scratch = 0 then (0, 0, s)
  else
    let off := (lowestRun (coreAllocs s core) r.scratch).getD 0
    let c := coreOf s core
    (off, c.gen, clearSpad { s with cores := Tbl.put s.cores core { c with gen := nextGen c.gen } } core off r.scratch)

/-- One block placed on a core, with its frames and datapaths. -/
def placeBlock (n : Nat) (l : Launch) (u : GangUnit) (pos core : Nat) (s : State) : State :=
  let c := ctxOf s l.ctx
  let frames := (freeFrames c).take l.lr.maxt
  let dps := (dpsFor s core l.lr l.lr.initt).getD []
  let r := takeScratch (putCtx s l.ctx { c with framesUsed := c.framesUsed ++ frames }) core l.lr
  let k := newBlock n (u.gang * l.lr.gang + pos) u.copy u.gang pos core l.lr frames dps r.1 r.2.1 s.now s.tick
  { putBlock r.2.2 s.nextBlock k with nextBlock := s.nextBlock + 1 }

/-- The blocks of a gang placed, by position. -/
def placeBlocks (n : Nat) (l : Launch) (u : GangUnit) (pos : Nat) (cores : List Nat) (s : State) : State :=
  match cores with
  | [] => s
  | c :: r => placeBlocks n l u (pos + 1) r (placeBlock n l u pos c s)

/-- The launch once a unit is placed: under COMMIT 3 a first copy calls for a second (25 R474). -/
def placedLaunch (l : Launch) (u : GangUnit) (cluster : Nat) : Launch :=
  let fromRerun := l.rerun ≠ []
  { l with
           st := .placed, blockedSince := [], gangs := l.gangs ++ [newGang u.gang u.copy cluster l.lr],
           rerun := (if fromRerun then l.rerun.tail else []) ++ (if l.lr.commit = 3 && u.copy = 0 && !fromRerun then [(u.gang, 1)] else []),
           nextGang := if fromRerun then l.nextGang else l.nextGang + 1 }

/-- Each core chosen takes a block of the unit. -/
def coresFit (s : State) (l : Launch) (cores : List Nat) : Bool := cores.all (fun c => coreFits s c l.lr)

/-- A gang placed whole on cores of one cluster, in its launch's turn (R441, R443, R477). -/
def placeGang (n g k : Nat) (cores : List Nat) (s : State) : State :=
  let s0 := becomeReady s n
  match Tbl.get s0.launches n with
  | none => s0
  | some l =>
    if !s0.mgmt.ready || s0.mgmt.brown || !itsTurn s0 n l || nextUnit s0 n l ≠ some { gang := g, copy := k, restore := false } then s0
    else
      let u : GangUnit := { gang := g, copy := k, restore := false }
      let cluster := cores.headD 0 / 8
      if !coresOk cores l.lr.gang || !coresFit s0 l cores || !clusterFits s0 n l u cluster || barredFor s0 (rankOf l) cluster then s0
      else match copyParam s0 n l with
        | (none, s1) => s1
        | (some s1, _) =>
          match Tbl.get s1.launches n with
          | none => s1
          | some l1 =>
            let s2 := placeBlocks n l1 u 0 cores (withdraw s1 n)
            { putLaunch s2 n (placedLaunch l1 u cluster) with turns := Tbl.put s2.turns (rankOf l1) l1.ctx }

/-- PLACE_GANG (R441). -/
def execPlaceGang (l g k : Nat) (cores : List Nat) (s : State) : Out := .next (placeGang l g k cores s)

/-! ## The distributor's watch (24 R459, R460; 25 R477) -/

/-- The clusters on which a launch's next unit is blocked. -/
def blockedOn (s : State) (n : Nat) (l : Launch) : List Nat :=
  if !takesPart s l then []
  else match nextUnit s n l with
    | none => []
    | some u => (List.range Config.clusters).filter (waitsOn s n l u)

/-- A launch looked at: ready, its write-back made, blocked on clusters since now, or no more. -/
def watchLaunch (s : State) (n : Nat) : State :=
  let s1 := writeBackParam (becomeReady s n) n
  match Tbl.get s1.launches n with
  | none => s1
  | some l =>
    let cs := blockedOn s1 n l
    let since := cs.map (fun c => (c, Tbl.getD l.blockedSince c s1.now))
    if since = l.blockedSince then s1
    else withdrawOn (fun c => !cs.contains c) (putLaunch s1 n { l with blockedSince := since }) n

/-- Every launch looked at. -/
def watchAll (ns : List Nat) (s : State) : State :=
  match ns with
  | [] => s
  | n :: r => watchAll r (watchLaunch s n)

/-- The distributor's own work. -/
def watch (s : State) : State := watchAll (openLaunches s) s

end Sys2Proof.Machine
end

