-- ==== Sys2Proof/Machine/Image.lean ====
section
/-! DEFINITION. Image: what a save image and a debug snapshot hold of a block's control state: for each area whose bytes the spec does not
lay out, its listed contents as numbers, in the order of the list (24 R462, 25 R468; log 90). -/

namespace Sys2Proof.Machine

/-- A truth value as a number. -/
def boolNum (b : Bool) : Nat := if b then 1 else 0

/-- A number that may be absent. -/
def optNum (v : Option Nat) : List Nat :=
  match v with
  | none => [0]
  | some n => [1, n]

/-- A split's state, with the wait it is in. -/
def splitNums (st : SplitState) : List Nat :=
  match st with
  | .ready => [0]
  | .waitOp => [1]
  | .waitJoin t => [2, t]
  | .waitBar i p => [3, i, p]

/-- A team's state. -/
def teamNum (st : TeamState) : Nat :=
  match st with
  | .running => 0
  | .stopped => 1
  | .trapped => 2
  | .ended => 3
  | .saved => 4

/-- What stopped a team. -/
def causeNum (w : StopCause) : Nat :=
  match w with
  | .bkpt => 0
  | .breakpoint => 1
  | .step => 2
  | .command => 3
  | .halt => 4

/-- A block's state. -/
def blockNum (st : BlockState) : Nat :=
  match st with
  | .running => 0
  | .shrinking => 1
  | .halted => 2
  | .saving => 3
  | .saved => 4
  | .restoring => 5
  | .complete => 6

/-- A trap record. -/
def trapNums (r : TrapRec) : List Nat :=
  [r.code, r.aux, r.field, r.split, r.reason, r.pc.toNat, r.res.toNat, r.parcel.toNat, r.val.toNat, r.cmd.toNat, r.sel.toNat, r.laneFlags.toNat,
   r.lane, r.done.toNat] ++ r.leak.map (fun w => w.toNat)

/-- A split-table entry: activity mask, PC, state, stop, done mask, watchdog count, pending trap. -/
def entryNums (now e : Nat) (p : Split) : List Nat :=
  [e, p.mask.toNat, p.pc.toNat] ++ splitNums (if p.avail.isSome then .ready else p.st) ++ [boolNum p.stopped, boolNum p.step, (p.held.map (fun h => h.done.toNat)).getD 0, p.wdKept.getD (now - p.wd)] ++
    (p.pend.map trapNums).getD []

/-- Barriers: members, arrivals, phase. -/
def barNums (bs : List Barrier) : List Nat := bs.flatMap (fun b => [b.m, b.a, b.phase])

/-- A timeline: N and V. -/
def tlNums (t : Timeline) : List Nat := [t.n, t.v]

/-- A register's uniform flag: one value in every live lane (02 R48). -/
def isUniform (m : Team) (n : Nat) : Bool :=
  match (List.range m.width).filter (hasLane (liveLanes m)) with
  | [] => true
  | l :: r => r.all (fun q => Sparse.get (w := 32) m.regs (n * 1024 + q) = Sparse.get m.regs (n * 1024 + l))

/-- A team's record: split table, join records, X and D, AL and LP, x0 to x7, tag counters, decision queue, q1, FLAGS, FPEN, HSCR, trap
registers; of a STOPPED team, what stopped it (25 R468). -/
def teamImage (now : Nat) (m : Team) : List Nat :=
  m.splits.flatMap (fun c => entryNums now c.1 c.2) ++ m.defer.flatMap (entryNums now 16) ++ m.joins.flatMap (fun c => [c.1, c.2.toNat]) ++
  [m.ex.toNat, m.dead.toNat] ++ m.bars.flatMap (fun c => c.1 :: c.2.al.toNat :: optNum c.2.lp) ++ m.xr.map (fun w => w.toNat) ++
  (List.range 4).map (tagCount m) ++ m.dq.map (fun w => w.toNat) ++ m.q1.flatMap (fun q => q.num :: q.toCome :: q.elems.map (fun w => w.toNat)) ++
  [m.flags.toNat, m.fpen.toNat] ++ m.hscr.flatMap (fun c => [c.1, c.2.toNat]) ++ (m.trap.map (fun h => trapNums h.trap)).getD [] ++
  m.asyncs.flatMap trapNums ++ optNum (m.cause.map causeNum)

/-- A value that a front program's PUSHD has not yet delivered: the team it waits for. -/
def stalledPushd (p : Split) : List Nat :=
  match p.line with
  | some (.room t, _) => [1, t]
  | some (.discarded, _) => [2]
  | _ => [0]

/-- The front program: k-registers, its split with PC and wait, FLAGS, FFAULT, FFPC, FFVAL, a stalled PUSHD. -/
def frontImage (now : Nat) (k : Block) (m : Team) : List Nat :=
  (List.range m.nregs).map (fun n => (Sparse.get (w := 32) m.regs (n * 1024)).toNat) ++ m.splits.flatMap (fun c => entryNums now c.1 c.2 ++ stalledPushd c.2) ++
  [m.flags.toNat, k.ffault.toNat, k.ffpc.toNat, k.ffval.toNat]

/-- The header: the block's names and state, its timelines and barriers, at position 0 the cluster barriers, and the directory of its teams. -/
def headerImage (s : State) (k : Block) : List Nat :=
  [k.launch, k.lin, k.gang, k.pos, blockNum k.priorSave] ++ tlNums k.copyTl ++ tlNums k.mmaTl ++ tlNums k.mvTl ++ barNums k.bars ++
  (if k.pos = 0 then (((Tbl.get s.launches k.launch).bind (fun l => gangOf l k)).map (fun g => barNums g.bars)).getD [] else []) ++
  (imageTeams k).flatMap (fun c => [c.1, c.2.width, c.2.nregs, teamNum c.2.st, c.2.frame])

/-- The matrix engine: A latches with their tags, the rendezvous, handles, token holders. -/
def matrixImage (k : Block) : List Nat :=
  k.latches.flatMap (fun a => a.gang.toNat :: a.minor :: (a.words ++ a.scales).map (fun w => w.toNat)) ++
  k.rdv.flatMap (fun r => [r.team, r.split, r.gang.toNat, r.minor, boolNum r.ru, r.handle.toNat, r.bOff.toNat, r.sOff.toNat, r.tile.toNat, r.aReg, r.cReg, r.lanes.toNat]) ++
  k.handles.flatMap (fun h => [h.serial, h.count, h.first, h.owner] ++ optNum h.token)

/-- The full lines of a block's allocations, by line of the core. -/
def fullLines (s : State) (k : Block) : List Nat :=
  (s.full.filter (fun n => n / 4096 = k.core && k.allocs.any (fun a => a.off / 128 ≤ n % 4096 && n % 4096 < (a.off + a.len) / 128))).map
    (fun n => n % 4096)

/-- Scratchpad metadata: allocations with generations and spans, full bits. -/
def metaImage (s : State) (k : Block) : List Nat := k.allocs.flatMap (fun a => [a.off, a.len, a.gen, a.span]) ++ fullLines s k

end Sys2Proof.Machine
end

