-- ==== Sys2Proof/Machine/Preempt.lean ====
section
/-! DEFINITION. Preempt: room made by shrink requests and by saving gangs whole, and their return (21 R415; 24 R459-R464; 01 R32, R44). -/

namespace Sys2Proof.Machine

/-! ## A save begins (24 R461 step 1, R462) -/

/-- A block stands on its core, in none of the saving states. -/
def blockPlaced (k : Block) : Bool := k.st = .running || k.st = .shrinking || k.st = .halted

/-- The blocks of a gang or copy, by number. -/
def gangBlocks (s : State) (n g c : Nat) : List Nat := blocksOf s (fun k => k.launch = n && k.gang = g && k.copy = c)

/-- Free save slots of a context, ascending. -/
def freeSlots (c : Ctx) : List Nat := (List.range c.slots).filter (fun n => !c.slotsUsed.contains n)

/-- One block enters SAVING and takes the lowest free slot. -/
def saveBlockStart (s : State) (b : Nat) : State :=
  match Tbl.get s.blocks b with
  | none => s
  | some k =>
    let x := ctxNum s b
    let c := ctxOf s x
    match freeSlots c with
    | [] => s
    | n :: _ => putBlock (putCtx s x { c with slotsUsed := c.slotsUsed ++ [n] }) b { k with st := .saving, priorSave := k.st, slot := some n }

/-- Blocks enter SAVING in order. -/
def saveBlocksStart (bs : List Nat) (s : State) : State :=
  match bs with
  | [] => s
  | b :: r => saveBlocksStart r (saveBlockStart s b)

/-- A gang's save begins; none where its context has too few free slots (R459). -/
def startSave (s : State) (n g c : Nat) : Option State :=
  match Tbl.get s.launches n with
  | none => none
  | some l =>
    let bs := gangBlocks s n g c
    if bs.length ≤ (freeSlots (ctxOf s l.ctx)).length then some (saveBlocksStart bs s) else none

/-! ## The victims (24 R459, 21 R415) -/

/-- A placed block of lower rank may be a victim. -/
structure Victim where
  b : Nat
  k : Block
  rank : Nat
deriving DecidableEq, Repr

/-- One victim comes before another: lower rank, then placed later. -/
def victimBefore (u v : Victim) : Bool :=
  u.rank < v.rank || (u.rank = v.rank && (v.k.placed < u.k.placed || (u.k.placed = v.k.placed && v.b < u.b)))

/-- A victim put in its place. -/
def insertVictim (v : Victim) (vs : List Victim) : List Victim :=
  match vs with
  | [] => [v]
  | u :: r => if victimBefore u v then u :: insertVictim v r else v :: u :: r

/-- The victims of a cluster in order: placed blocks of lower rank with no request pending. -/
def victimsOf (s : State) (rank c : Nat) : List Victim :=
  ((lowerBlocks s rank c).filter (fun q => blockPlaced q.2 && q.2.shrink.isNone)).foldl (fun vs q =>
    insertVictim { b := q.1, k := q.2, rank := ((Tbl.get s.launches q.2.launch).map rankOf).getD 0 } vs) []

/-- The machine with the `c` highest-indexed live teams of a block gone. -/
def withoutTeams (s : State) (b c : Nat) : State :=
  onBlock s b (fun k =>
    let ts := liveTeams k
    { k with teams := Tbl.mapVals k.teams (fun t m => if (ts.drop (ts.length - c)).contains t then { m with st := .ended } else m) })

/-- The machine with no team on the victims, their storage kept. -/
def withoutAllTeams (vs : List Victim) (s : State) : State :=
  match vs with
  | [] => s
  | v :: r => withoutAllTeams r (withoutTeams s v.b (liveTeams v.k).length)

/-- What the search has taken: the machine as it would be, requests (block, count), gangs to be pre-empted (launch, gang, copy), the
gangs passed over, whether the waiting gang now fits. -/
structure Taken where
  s : State
  asks : List (Nat × Nat)
  gangs : List (Nat × Nat × Nat)
  refused : List (Nat × Nat × Nat)
  fits : Bool

/-- Save slots of a context that a list of gangs takes. -/
def slotsTaken (s : State) (x : Nat) (gs : List (Nat × Nat × Nat)) : Nat :=
  (gs.map (fun g => if ((Tbl.get s.launches g.1).map (fun l => l.ctx)) = some x then (gangBlocks s g.1 g.2.1 g.2.2).length else 0)).sum

/-- A victim's gang. -/
def Victim.gang (v : Victim) : Nat × Nat × Nat := (v.k.launch, v.k.gang, v.k.copy)

/-- A victim taken whole with its gang, or passed over for want of slots. -/
def takeGang (s0 : State) (fits : State → Bool) (v : Victim) (r : Taken) : Taken :=
  let bs := gangBlocks s0 v.k.launch v.k.gang v.k.copy
  let x := ctxNum s0 v.b
  if r.refused.contains v.gang then r
  else if (freeSlots (ctxOf s0 x)).length < slotsTaken s0 x r.gangs + bs.length then { r with refused := r.refused ++ [v.gang] }
  else
    let s1 := withoutBlocks r.s bs
    { r with s := s1, gangs := r.gangs ++ [v.gang], asks := r.asks.filter (fun q => !bs.contains q.1), fits := fits s1 }

/-- A victim that shrinks: the least count that lets the gang fit, or all teams but one. -/
def takeTeams (fits : State → Bool) (v : Victim) (r : Taken) : Taken :=
  let n := (liveTeams v.k).length - 1
  match ((List.range n).map (fun c => c + 1)).find? (fun c => fits (withoutTeams r.s v.b c)) with
  | some c => { r with s := withoutTeams r.s v.b c, asks := r.asks ++ [(v.b, c)], fits := true }
  | none => { r with s := withoutTeams r.s v.b n, asks := if n = 0 then r.asks else r.asks ++ [(v.b, n)] }

/-- Victims taken one at a time until the gang fits. What a gang lacks lies in datapath places and lane-registers if it would fit with
every lower team gone and their storage kept. -/
def takeVictims (s0 : State) (fits : State → Bool) (all vs : List Victim) (r : Taken) : Taken :=
  match vs with
  | [] => r
  | v :: t =>
    if r.fits then r
    else if r.gangs.contains v.gang then takeVictims s0 fits all t r
    else
      let ok := ((Tbl.get s0.launches v.k.launch).map (fun l => l.lr.shrinkok)).getD false
      takeVictims s0 fits all t (if ok && fits (withoutAllTeams all r.s) then takeTeams fits v r else takeGang s0 fits v r)

/-- A shrink request posted (01 R32, R44). -/
def postShrink (s : State) (n b c : Nat) : State :=
  onBlock s b (fun k =>
    let q : Shrink := { c := c, target := max 1 ((liveTeams k).length - c), posted := s.now, forLaunch := n }
    { k with shrink := some q, st := if k.st = .running then .shrinking else k.st,
             prior := if k.st = .halted then .shrinking else k.prior })

/-- Requests posted in order. -/
def postShrinks (n : Nat) (qs : List (Nat × Nat)) (s : State) : State :=
  match qs with
  | [] => s
  | (b, c) :: r => postShrinks n r (postShrink s n b c)

/-- Saves begun in order. -/
def startSaves (gs : List (Nat × Nat × Nat)) (s : State) : State :=
  match gs with
  | [] => s
  | (n, g, c) :: r => startSaves r ((startSave s n g c).getD s)

/-- The slot-refusal counter of each gang passed over. -/
def refuseSlots (gs : List (Nat × Nat × Nat)) (s : State) : State :=
  match gs with
  | [] => s
  | (n, _, _) :: r => refuseSlots r (match Tbl.get s.launches n with
      | none => s
      | some l => bumpCtx l.ctx 5 s)

/-- A launch's next unit has been blocked on a cluster for 10 µs. -/
def blockedLong (s : State) (l : Launch) (c : Nat) : Bool :=
  match Tbl.get l.blockedSince c with
  | none => false
  | some t => 10 * Config.cyclesPerMicro ≤ s.now - t

/-- The blocks of lower rank on a cluster that are being saved: their departures are counted already. -/
def leaving (s : State) (rank c : Nat) : List Nat :=
  ((lowerBlocks s rank c).filter (fun q => q.2.st = .saving)).map (fun q => q.1)

/-- The search for what a gang takes on a cluster (R459). -/
def searchRoom (s : State) (n c : Nat) (l : Launch) (u : GangUnit) : Taken :=
  let vs := victimsOf s (rankOf l) c
  let fits := fun (t : State) => clusterFits t n l u c
  let s0 := withoutBlocks s (leaving s (rankOf l) c)
  takeVictims s fits vs vs { s := s0, asks := [], gangs := [], refused := [], fits := fits s0 }

/-- The victims taken together let the gang fit: all of them are handled; otherwise the gang stays blocked (R459). -/
def makeRoom (s : State) (n c : Nat) (l : Launch) (u : GangUnit) : State :=
  let r := searchRoom s n c l u
  let s1 := refuseSlots r.refused s
  if r.fits then startSaves r.gangs (postShrinks n r.asks s1) else s1

/-- A shrink request that makes room for a launch stands. -/
def roomAsked (s : State) (n : Nat) : Bool := s.blocks.any (fun q => q.2.shrink.any (fun r => r.forLaunch = n))

/-- The 10 µs of a launch's next gang on a cluster begin again (log 27). -/
def waitAgain (n c : Nat) (s : State) : State :=
  match Tbl.get s.launches n with
  | none => s
  | some l => putLaunch s n { l with blockedSince := Tbl.put l.blockedSince c s.now }

/-- A gang blocked for 10 µs on a cluster, with no request posted for it (R459). -/
def shrinkBlocked (n g c : Nat) (s : State) : State :=
  match Tbl.get s.launches n with
  | none => s
  | some l =>
    match nextUnit s n l with
    | none => s
    | some u =>
      if u.gang = g && c < Config.clusters && takesPart s l && blockedLong s l c && waitsOn s n l u c && !roomAsked s n then waitAgain n c (makeRoom s n c l u)
      else s

/-- SHRINK_BLOCKED_TIMEOUT (R459). -/
def execShrinkBlockedTimeout (l g cluster : Nat) (s : State) : Out := .next (shrinkBlocked l g cluster s)

/-- The shrink limit of a context in cycles: SHRLIM µs, 0 standing for 100 (24 R447). -/
def shrinkLimit (c : Ctx) : Nat := (if c.shrlim = 0 then 100 else c.shrlim) * Config.cyclesPerMicro

/-- A request unmet at its limit: the gang is saved, or, with too few slots, the request stays (R460, R459). -/
def shrinkExpires (b : Nat) (s : State) : State :=
  match Tbl.get s.blocks b with
  | none => s
  | some k =>
    match k.shrink with
    | none => s
    | some q =>
      let x := ctxNum s b
      if !blockPlaced k || s.now - q.posted < shrinkLimit (ctxOf s x) then s
      else (startSave s k.launch k.gang k.copy).getD (bumpCtx x 5 s)

/-- SHRINK_LIMIT_EXPIRY (R460). -/
def execShrinkLimitExpiry (b : Nat) (s : State) : Out := .next (shrinkExpires b s)

/-! ## Images (24 R462) -/

/-- Where a block's image lies in its context's space. -/
def imageAddr (c : Ctx) (k : Block) : Nat := c.savebase + 0x200000 * k.slot.getD 0

/-- The words of a team's registers: register by register, one word for each lane. -/
def regWords (m : Team) : List Word :=
  (List.range m.nregs).flatMap (fun n => (List.range m.width).map (fun l => Sparse.get m.regs (n * 1024 + l)))

/-- Registers from those words. -/
def regsFrom (m : Team) (ws : List Word) : Sparse 32 :=
  (ws.mapIdx (fun i v => (i / m.width * 1024 + i % m.width, v))).foldl (fun r c => Sparse.set r c.1 c.2) []

/-- Words as little-endian bytes. -/
def wordBytes (ws : List Word) : List Byte := ws.flatMap (fun w => leBytes 4 w.toNat)

/-- Little-endian words of bytes. -/
def bytesWords (n : Nat) (bs : List Byte) : List Word :=
  (List.range n).map (fun i => BitVec.ofNat 32 (leNat ((bs.drop (4 * i)).take 4)))

/-- A block's accumulator words of a handle, bank by bank. -/
def handleKeys (core : Nat) (h : Handle) : List Nat :=
  (List.range (h.count * Config.bankWords)).map (fun i => core * 65536 + h.first * Config.bankWords + i)

/-- Where a handle's banks lie in an image: each at its logical bank (log 90). -/
def handleAt (a : Nat) (h : Handle) : Nat := a + 0x140000 + 4 * (h.first * Config.bankWords)

/-- An area of an image whose bytes the spec does not lay out, as a function of what it lists for it (log 90). -/
def areaBytes (kind n : Nat) (vs : List Nat) : List Byte := (List.range n).map (Config.imageByte kind vs)

/-- The areas of a block's image that hold its control state, each with its offset, kind and contents (R462). -/
def imageAreas (s : State) (k : Block) : List (Nat × List Byte) :=
  (0, areaBytes 0 0x1000 (headerImage s k)) ::
  (0x1000, areaBytes 1 0x1000 (((Tbl.get k.teams frontTeam).map (frontImage s.now k)).getD [])) ::
  (0x22000, areaBytes 3 0x10000 (matrixImage k)) ::
  (0x32000, areaBytes 4 0xE000 (metaImage s k)) ::
  (imageTeams k).map (fun c => (0x2000 + 0x2000 * c.1, areaBytes 2 0x2000 (teamImage s.now c.2)))

/-- A list of areas written. -/
def writeAreas (x a : Nat) (qs : List (Nat × List Byte)) (s : State) : State :=
  match qs with
  | [] => s
  | (o, bs) :: r => writeAreas x a r (deviceWrite s x (a + o) bs)

/-- The uniform flags of teams' registers, register by register: as many bytes, of a free encoding (log 90). -/
def uniformBytes (ms : List Team) : List Byte :=
  let flags := ms.flatMap (fun m => (List.range m.nregs).map (fun n => boolNum (isUniform m n)))
  areaBytes 5 flags.length flags

/-- The register area of an image: the words of its teams, and behind them the uniform flags, as far as the area reaches (R462; log 90). -/
def registerArea (k : Block) : List Byte :=
  let ms := (imageTeams k).map (fun c => c.2)
  (wordBytes (ms.flatMap regWords) ++ uniformBytes ms).take 0x100000

/-- A block's image written (R462). -/
def writeImage (s : State) (x : Nat) (k : Block) : State :=
  let a := imageAddr (ctxOf s x) k
  let s1 := writeAreas x a (imageAreas s k) s
  let s2 := deviceWrite s1 x (a + 0x40000) (registerArea k)
  let s3 := k.handles.foldl (fun t h => deviceWrite t x (handleAt a h) (wordBytes ((handleKeys k.core h).map (Sparse.get s.acc)))) s2
  k.allocs.foldl (fun t al => deviceWrite t x (a + 0x180000 + al.off) (readBytes s.spad (k.core * Config.spadBytes + al.off) al.len)) s3

/-! ## Saving (24 R461) -/

/-- Nothing accepted is left, so that N = V; pending frees have taken effect (R461 step 2, 04 R108). A command whose fault stands is waited for
like any other, until its team's handler has dealt with it, also where a debugger has stopped the team (log 115). -/
def saveDrained (k : Block) : Bool :=
  k.cmds.all (fun c => c.finished) && k.teams.all (fun c => c.2.copies.isEmpty) &&
    k.allocs.all (fun a => !a.busy && a.mcast = 0)

/-- The address of a spill slot of a lane of a team (24 R455). -/
def laneSpillAddr (c : Ctx) (m : Team) (l n : Nat) : Nat := lpLane c m.frame l + c.lpuser + 8 * n

/-- The spills of a block's return stacks: team, lane, slot number, entry; oldest entry first (R461 step 4). -/
def saveSpills (k : Block) : List (Team × Nat × Nat × BitVec 56) :=
  (imageTeams k).flatMap (fun c => c.2.rets.flatMap (fun q =>
    q.2.reverse.mapIdx (fun i v => (c.2, q.1, c.2.spilledOf q.1 + i, v))))

/-- A spill that lies beyond its lane's area (24 R455). -/
def spillBeyond (c : Ctx) (q : Team × Nat × Nat × BitVec 56) : Bool := lpRegion c - c.lpuser < 8 * q.2.2.1 + 8

/-- What a save needs translated: the image and the spills. -/
def saveAsks (s : State) (x : Nat) (k : Block) : List Ask :=
  let c := ctxOf s x
  (List.range 32).map (fun p => { lane := 0, tgt := globalTarget s x (imageAddr c k + 65536 * p) false, need := needW }) ++
  (saveSpills k).map (fun q => { lane := q.2.1, tgt := .virt (laneSpillAddr c q.1 q.2.1 q.2.2.1) false, need := needW })

/-- Spills stored. -/
def storeSpills (x : Nat) (qs : List (Team × Nat × Nat × BitVec 56)) (s : State) : State :=
  match qs with
  | [] => s
  | (m, l, n, v) :: r => storeSpills x r (deviceWrite s x (laneSpillAddr (ctxOf s x) m l n) (leBytes 8 v.toNat))

/-- A split as it is saved: its watchdog count stands still. -/
def saveSplit (now : Nat) (p : Split) : Split := if p.stopped then p else { p with wdKept := some (now - p.wd) }

/-- A team as it is saved: SAVED, its return stacks spilled, its registers gone. -/
def saveTeam (now : Nat) (t : Nat) (m : Team) : Team :=
  if !teamLive m then m
  else
    { m with st := .saved, prior := m.st, regs := if t < 16 then [] else m.regs,
             splits := Tbl.mapVals m.splits (fun _ p => saveSplit now p), defer := m.defer.map (saveSplit now),
             spilled := if t < 16 then m.rets.foldl (fun sp q => Tbl.put sp q.1 (Tbl.getD sp q.1 0 + q.2.length)) m.spilled else m.spilled,
             rets := if t < 16 then [] else m.rets }

/-- A block's scratchpad and banks leave its core. -/
def leaveCore (k : Block) (s : State) : State :=
  let keys := k.handles.flatMap (handleKeys k.core)
  let s1 := if keys.isEmpty then s else clearAcc s keys.contains
  k.allocs.foldl (fun t a => clearSpad t k.core a.off a.len) s1

/-- One block saved (R461 steps 4 to 6). -/
def saveBlock (s : State) (b : Nat) : State :=
  match Tbl.get s.blocks b with
  | none => s
  | some k =>
    let x := ctxNum s b
    let s1 := writeImage (storeSpills x (saveSpills k) s) x k
    putBlock (leaveCore k s1) b { k with st := .saved, saveWaits := [], savedFull := fullLines s k,
                                         teams := Tbl.mapVals k.teams (saveTeam s.now) }

/-- Blocks saved in order. -/
def saveBlocks (bs : List Nat) (s : State) : State :=
  match bs with
  | [] => s
  | b :: r => saveBlocks r (saveBlock s b)

/-- The asks of every block of a list, and whether a spill lies beyond its area. -/
def gangAsks (f : State → Nat → Block → List Ask) (s : State) (bs : List Nat) : List Ask :=
  bs.flatMap (fun b => match Tbl.get s.blocks b with
    | none => []
    | some k => f s (ctxNum s b) k)

/-- A gang's translations stand, and it goes on; or it waits on its records, or its context is killed with reason 3 (R461, R449). -/
def gangMoves (s : State) (b : Nat) (bs : List Nat) (asks : List Ask) (bad : Bool) (go : State → State) : State :=
  let x := ctxNum s b
  let r := askAll x [] { s := s, bad := [], waits := [] } asks
  if bad || r.bad ≠ [] then killContext r.s x 3 (((Tbl.get s.blocks b).map (fun k => k.lin)).getD 0) none
  else if r.waits ≠ [] then onBlock r.s b (fun k => { k with saveWaits := r.waits })
  else go (bs.foldl (fun t n => onBlock t n (fun k => { k with saveWaits := [] })) r.s)

/-- A save would read poison in a block's scratchpad lines or accumulator banks (25 R470). -/
def saveHurt (s : State) (b : Nat) : Bool :=
  rerunnable s b && (Tbl.get s.blocks b).any (fun k =>
    k.allocs.any (fun a => poisoned s Shadow.empty (.spad (k.core * Config.spadBytes + a.off)) a.len) ||
    k.handles.any (fun h => (handleKeys k.core h).any s.accPoison.contains))

/-- The live lanes of a block's teams whose registers hold poison, which a save would read (25 R470). -/
def saveDying (s : State) (b : Nat) : List (Nat × List Nat) :=
  ((Tbl.get s.blocks b).map (fun k => (imageTeams k).map (fun c =>
    (c.1, ((c.2.poison.map (fun n => n % 1024)).eraseDups).filter (hasLane (liveLanes c.2)))))).getD [] |>.filter (fun q => q.2 ≠ [])

/-- Lanes of teams of a block die. -/
def deathsOf (b : Nat) (qs : List (Nat × List Nat)) (s : State) : State :=
  match qs with
  | [] => s
  | q :: r => deathsOf b r (laneDeaths b q.1 q.2 s)

/-- Lanes of teams of several blocks die. -/
def deathsIn (bs : List (Nat × List (Nat × List Nat))) (s : State) : State :=
  match bs with
  | [] => s
  | q :: r => deathsIn r (deathsOf q.1 q.2 s)

/-- The gang of a block that is SAVING, once all its blocks have drained. The save engine consumes what it reads: poison of a scratchpad line or
a bank reruns the block, that of a register kills its lane first (25 R470). -/
def saveComplete (b : Nat) (s : State) : State :=
  match Tbl.get s.blocks b with
  | none => s
  | some k =>
    let bs := gangBlocks s k.launch k.gang k.copy
    let ks := bs.filterMap (fun n => Tbl.get s.blocks n)
    if !ks.all (fun q => q.st = .saving && saveDrained q) || ks.any (fun q => q.saveWaits ≠ []) then s
    else match bs.find? (saveHurt s) with
    | some n => consumePoison s n
    | none =>
      let s := deathsIn (bs.map (fun n => (n, saveDying s n))) s
      let c := ctxOf s (ctxNum s b)
      gangMoves s b bs (gangAsks saveAsks s bs) (ks.any (fun q => (saveSpills q).any (spillBeyond c))) (saveBlocks bs)

/-- SAVE_COMPLETE (R461). -/
def execSaveComplete (b : Nat) (s : State) : Out := .next (saveComplete b s)

/-! ## Restoring (24 R463) -/

/-- What a restore needs translated. -/
def restoreAsks (s : State) (x : Nat) (k : Block) : List Ask :=
  (List.range 32).map (fun p => { lane := 0, tgt := globalTarget s x (imageAddr (ctxOf s x) k + 65536 * p) false, need := needR })

/-- Teams given their datapaths in turn. -/
def seatTeams (dps : List Nat) (ts : List (Nat × Team)) (all : Tbl Team) : Tbl Team :=
  match dps, ts with
  | d :: r, (t, m) :: q => seatTeams r q (Tbl.put all t { m with dp := d })
  | _, _ => all

/-- A split as it returns; the time that it has been READY begins (17 R370). -/
def restoreSplit (now : Nat) (p : Split) : Split :=
  if p.stopped then p
  else match p.wdKept with
    | some n => { p with wd := now - n, wdKept := none, since := now, avail := p.avail.map (fun _ => now) }
    | none => p

/-- A team as it returns. -/
def restoreTeam (now : Nat) (m : Team) : Team :=
  if m.st = .saved then
    { m with st := m.prior, splits := Tbl.mapVals m.splits (fun _ p => restoreSplit now p), defer := m.defer.map (restoreSplit now) }
  else m

/-- Registers of teams from the bytes of an image, in order. -/
def fillRegs (bs : List Byte) (ts : List (Nat × Team)) (all : Tbl Team) : Tbl Team :=
  match ts with
  | [] => all
  | (t, m) :: r =>
    let n := m.nregs * m.width
    fillRegs (bs.drop (4 * n)) r (match Tbl.get all t with
      | none => all
      | some q => Tbl.put all t { q with regs := regsFrom m (bytesWords n bs) })

/-- A block's scratchpad and banks on its core, from its image. -/
def fillCore (x : Nat) (k : Block) (s : State) : State :=
  let a := imageAddr (ctxOf s x) k
  let s1 := k.allocs.foldl (fun t al =>
    putSpad (clearSpad t k.core al.off al.len) (k.core * Config.spadBytes + al.off) (deviceRead s x (a + 0x180000 + al.off) al.len)) s
  let s2 := k.handles.foldl (fun t h =>
    let keys := handleKeys k.core h
    { t with acc := (List.zip keys (bytesWords keys.length (deviceRead s x (handleAt a h) (4 * keys.length)))).foldl
                      (fun m c => Sparse.set m c.1 c.2) t.acc }) s1
  { s2 with full := (k.savedFull.map (fun n => k.core * 4096 + n)).foldl insertNat s2.full }

/-- A request is withdrawn when its block returns (R463). -/
def unshrunk (st : BlockState) : BlockState := if st = .shrinking then .running else st

/-- A block RESTORING holds what it had on a core of its own: datapaths, offsets, banks and latches (R463, 01 R44). -/
def holdCore (b core : Nat) (s : State) : State :=
  onBlock s b (fun k =>
    { k with core := core, st := .restoring, shrink := none, prior := unshrunk k.prior,
             teams := seatTeams ((dpsBack s core k).getD []) (imageTeams k) k.teams })

/-- Blocks RESTORING in order on their cores. -/
def holdCores (bs cores : List Nat) (s : State) : State :=
  match bs, cores with
  | b :: r, c :: q => holdCores r q (holdCore b c s)
  | _, _ => s

/-- A restored block, its state reloaded (R463). -/
def restoreBlock (b : Nat) (s : State) : State :=
  match Tbl.get s.blocks b with
  | none => s
  | some k =>
    let x := ctxNum s b
    let ts := imageTeams k
    let n := 4 * (ts.map (fun c => c.2.nregs * c.2.width)).sum
    let teams := fillRegs (deviceRead s x (imageAddr (ctxOf s x) k + 0x40000) n) ts k.teams
    let k1 := { k with st := unshrunk k.priorSave, savedFull := [], teams := Tbl.mapVals teams (fun _ m => restoreTeam s.now m) }
    onBlock (freeSlot (putBlock (fillCore x k s) b k1) x k) b (fun q => { q with slot := none })

/-- Blocks restored in order. -/
def restoreBlocks (bs : List Nat) (s : State) : State :=
  match bs with
  | [] => s
  | b :: r => restoreBlocks r (restoreBlock b s)

/-- Each core can take its block back. -/
def coresRestore (s : State) (cores : List Nat) (ks : List (Nat × Block)) : Bool :=
  (List.zip cores ks).all (fun q => coreRestores s q.1 q.2.2)

/-- The launch as a gang returns to a cluster. -/
def restoredLaunch (l : Launch) (u : GangUnit) (cluster : Nat) : Launch :=
  { l with
    blockedSince := [], gangs := l.gangs.map (fun g => if g.idx = u.gang && g.copy = u.copy then { g with cluster := cluster } else g) }

/-- A saved gang begins to return, whole, to cores of one cluster, in its launch's turn: its blocks enter RESTORING together (R463, 01
R44). -/
def restoreStart (n : Nat) (u : GangUnit) (cores : List Nat) (s : State) : State :=
  match Tbl.get s.launches n with
  | none => s
  | some l =>
    let ks := savedBlocks s n u
    let cluster := cores.headD 0 / 8
    if !s.mgmt.ready || s.mgmt.brown || nextUnit s n l ≠ some u || !itsTurn s n l || !coresOk cores ks.length || !copyApart l u cluster ||
       !coresRestore s cores ks || barredFor s (rankOf l) cluster then s
    else
      let t := withdraw (putLaunch (holdCores (ks.map (fun q => q.1)) cores s) n (restoredLaunch l u cluster)) n
      { t with turns := Tbl.put t.turns (rankOf l) l.ctx }

/-- A range of a context's space that the device reads holds poison (25 R470). -/
def devicePoison (s : State) (x a n : Nat) : Bool :=
  s.poison ≠ [] && (pieces (n / 512 + 2) a n).any (fun q =>
    (placeOf s x (globalTarget s x q.1 false)).any (fun p => poisoned s Shadow.empty p q.2))

/-- A block's image holds poison where its return reads control state, scratchpad lines or accumulator banks (25 R470). -/
def imageHurt (s : State) (b : Nat) : Bool :=
  rerunnable s b && (Tbl.get s.blocks b).any (fun k =>
    let x := ctxNum s b
    let a := imageAddr (ctxOf s x) k
    devicePoison s x a 0x40000 || k.allocs.any (fun al => devicePoison s x (a + 0x180000 + al.off) al.len) ||
    k.handles.any (fun h => devicePoison s x (handleAt a h) (4 * (handleKeys k.core h).length)))

/-- The lanes of teams for which the words of registers, from an address up, hold poison. -/
def wordsHurt (s : State) (x a : Nat) (ts : List (Nat × Team)) : List (Nat × List Nat) :=
  match ts with
  | [] => []
  | (t, m) :: r =>
    (t, (List.range m.width).filter (fun l => (List.range m.nregs).any (fun n => devicePoison s x (a + 4 * (n * m.width + l)) 4))) ::
      wordsHurt s x (a + 4 * (m.nregs * m.width)) r

/-- The lanes to which the return of a block delivers a poisoned register, which die (25 R470). -/
def imageDying (s : State) (b : Nat) : List (Nat × List Nat) :=
  match Tbl.get s.blocks b with
  | none => []
  | some k => if s.poison = [] then [] else wordsHurt s (ctxNum s b) (imageAddr (ctxOf s (ctxNum s b)) k + 0x40000) (imageTeams k)

/-- The state of a gang that is RESTORING reloaded, once its images can be read; a block whose teams have all ended then completes (R463;
01 R36). What the return reads of poison is consumed: a block is rerun, a lane dies (25 R470). -/
def restoreFinish (bs : List Nat) (s : State) : State :=
  if bs.any (fun b => (Tbl.get s.blocks b).any (fun k => k.saveWaits ≠ [])) then s
  else gangMoves s (bs.headD 0) bs (gangAsks restoreAsks s bs) false (fun t =>
    match bs.find? (imageHurt t) with
    | some n => consumePoison t n
    | none => retireEnded (deathsIn (bs.map (fun b => (b, imageDying t b))) (restoreBlocks bs t)))

/-- The blocks of a gang that is RESTORING. -/
def restoringBlocks (s : State) (n g c : Nat) : List Nat :=
  blocksOf s (fun k => k.launch = n && k.gang = g && k.copy = c && k.st = .restoring)

/-- A saved gang begins its return, or the return of one that is RESTORING ends. -/
def gangRestore (n g c : Nat) (cores : List Nat) (s : State) : State :=
  match restoringBlocks s n g c with
  | [] => restoreStart n { gang := g, copy := c, restore := true } cores s
  | b :: r => restoreFinish (b :: r) s

/-- GANG_RESTORE (R463). -/
def execGangRestore (l g k : Nat) (cores : List Nat) (s : State) : Out := .next (gangRestore l g k cores s)

end Sys2Proof.Machine
end

