-- ==== Sys2Proof/Machine/Channel.lean ====
section
/-! DEFINITION. Channel: how a command is accepted or refused (23 R432-R435; 26 R495; 29 R519, R522), and the launch commands (23 R433,
R439-R445). -/

namespace Sys2Proof.Machine

/-! ## Fields of an entry (R432) -/

/-- The context a command names. -/
def cmdCtx (c : Cmd) : Nat := bitsOf c.head.toNat 0 6
/-- ACK. -/
def cmdAck (c : Cmd) : Bool := c.head.getLsbD 16
/-- PRIVQ. -/
def cmdPrivq (c : Cmd) : Bool := c.head.getLsbD 17
/-- The operands. -/
def cmdArgs (c : Cmd) : List DWord := [c.a0, c.a1, c.a2, c.a3, c.a4, c.a5]

/-- A reserved field, a flag the opcode does not have, or an operand word it does not use is not zero (R432, R433). -/
def cmdReserved (c : Cmd) (used : Nat) (privq : Bool) : Bool :=
  c.head.extractLsb' 24 40 ≠ 0 || c.head.extractLsb' 6 2 ≠ 0 || c.head.extractLsb' 18 6 ≠ 0 || (!privq && cmdPrivq c) ||
    ((cmdArgs c).drop used).any (fun a => a ≠ 0)

/-! ## Acceptance (R434, R435) -/

/-- What the checks and the effect of a command come to: refused for a reason, or performed, with its DONE due now or not. -/
inductive Verdict where
  | refuse (reason : Nat)
  /-- Refused, with an effect that stands (26 R495). -/
  | refuseWith (reason : Nat) (s : State)
  | done (s : State)
  | later (s : State)

/-- Which commands an opcode stands among: the context it must name, whether RECOVERY and an unusable module accept it, whether a test
in progress holds it off (R434; 26 R495; 29 R519, R522). -/
inductive CmdKind where
  /-- NOP. -/
  | free
  /-- A command that acts on a live context. -/
  | onContext
  /-- CTXNEW. -/
  | creates
  /-- CTXDEL. -/
  | deletes
  /-- FWSTAGE, FWCOMMIT, FWROLLBACK: CTX 0. -/
  | firmware
  /-- SELFTEST: CTX 0. -/
  | test
deriving DecidableEq, Repr

/-- RECOVERY accepts NOP and the firmware commands alone (26 R495). -/
def CmdKind.inRecovery (k : CmdKind) : Bool := k = .free || k = .firmware

/-- An unusable module accepts NOP, SELFTEST and the firmware commands alone (29 R522). -/
def CmdKind.inUnusable (k : CmdKind) : Bool := k = .free || k = .firmware || k = .test

/-- A test in progress holds off CTXNEW, the firmware commands and a second SELFTEST (29 R519). -/
def CmdKind.heldOffByTest (k : CmdKind) : Bool := k = .creates || k = .firmware || k = .test

/-- CTX must be 0. -/
def CmdKind.needsZero (k : CmdKind) : Bool := k = .firmware || k = .test

/-- A command that the module's health or a test in progress holds off: reason 9, where no lower reason applies (R434; 29 R519, R522; log 75). -/
def heldOff (k : CmdKind) (s : State) : Bool := (s.mgmt.unusable && !k.inUnusable) || (s.mgmt.test.isSome && k.heldOffByTest)

/-- The first reason that refuses a command before its own checks. -/
def refusedFirst (k : CmdKind) (c : Cmd) (reserved : Bool) (s : State) : Option Nat :=
  if reserved || (s.mgmt.recovery && !k.inRecovery) || (k.needsZero && cmdCtx c ≠ 0) then some 1
  else if k = .onContext && (ctxOf s (cmdCtx c)).st ≠ .live then some 2
  else none

/-- A refusal's event. -/
def cmdRej (c : Cmd) (reason : Nat) (s : State) : State := emit (event evCmdRej (cmdCtx c) reason c.seq.toNat 0 0) s

/-- The DONE of a command with ACK. -/
def cmdDone (c : Cmd) (s : State) : State := if cmdAck c then emit (event evDone (cmdCtx c) 0 c.seq.toNat 0 0) s else s

/-- The acceptance of a command: CMDACC advances; it is refused, or performed (R434, R435). Nothing is accepted before READY (26 R489). -/
def accept (k : CmdKind) (c : Cmd) (reserved : Bool) (s : State) (perform : State → Verdict) : State :=
  if !s.mgmt.ready then s
  else
    let s1 := { s with chan := { s.chan with cmdacc := s.chan.cmdacc + 1 } }
    match refusedFirst k c reserved s with
    | some r => cmdRej c r s1
    | none =>
      match perform s1, heldOff k s with
      | .refuse r, held => cmdRej c (if held then min r 9 else r) s1
      | .refuseWith r _, true => cmdRej c (min r 9) s1
      | _, true => cmdRej c 9 s1
      | .refuseWith r s2, false => cmdRej c r s2
      | .done s2, false => cmdDone c s2
      | .later s2, false => s2

/-! ## NOP, SIGNAL, NOTIFY -/

/-- COMMAND_NOP (R433). -/
def execCommandNop (c : Cmd) (s : State) : Out := .next (accept .free c (cmdReserved c 0 false) s .done)

/-- SIGNAL (R433). -/
def execSignal (c : Cmd) (s : State) : Out :=
  .next (accept .onContext c (cmdReserved c 2 false) s (fun s =>
    if 4095 < c.a0.toNat || tlOwner (ctxOf s (cmdCtx c)) c.a0.toNat ≠ .software then .refuse 6
    else .done (raiseTl s (cmdCtx c) c.a0.toNat c.a1.toNat)))

/-- NOTIFY (R433, R436). -/
def execNotify (c : Cmd) (s : State) : Out :=
  .next (accept .onContext c (cmdReserved c 2 false) s (fun s =>
    let x := cmdCtx c
    let v := tlValue s x c.a0.toNat
    if 4095 < c.a0.toNat then .refuse 6
    else if c.a1.toNat ≤ v then .done (emit (event evTlReached x 0 c.seq.toNat v c.a0.toNat) s)
    else .later (putCtx s x { ctxOf s x with notifies := (ctxOf s x).notifies ++ [(c.seq.toNat, c.a0.toNat, c.a1.toNat, cmdAck c)] })))

/-! ## SUBMIT (R433, R434, R439; 01 R38, R41) -/

/-- The waits that a SUBMIT carries. -/
def submitWaits (c : Cmd) : List (Nat × Nat) :=
  ((List.range (bitsOf c.a1.toNat 48 2 + 1)).zip [c.a2, c.a3, c.a4, c.a5]).map (fun q => (bitsOf c.a1.toNat (12 * q.1) 12, q.2.toNat))

/-- A SUBMIT's reserved bits and the value words of waits it does not use. -/
def submitReserved (c : Cmd) : Bool :=
  cmdReserved c 6 true || c.a1.extractLsb' 50 14 ≠ 0 || ((cmdArgs c).drop (3 + bitsOf c.a1.toNat 48 2)).any (fun a => a ≠ 0)

/-- The 128 bytes at a record's address, where they translate and may be read (R434 reason 3). -/
def recordAt (s : State) (x a : Nat) : Option (List Byte) :=
  if a % 128 ≠ 0 then none
  else match reachTarget s x [] needR (globalTarget s x a false) with
    | .go p => some ((List.range 128).map (readByte s Shadow.empty p))
    | _ => none

/-- A 56-bit field. -/
def field56 (v : Nat) : BitVec 56 := BitVec.ofNat 56 v

/-- A record's fields (R38). -/
def parseRecord (bs : List Byte) : LaunchRec :=
  let w := wordAt bs
  { tentry := field56 (w 0x00), fentry := field56 (w 0x08), jentry := field56 (w 0x10), handler := field56 (w 0x18),
    param := field56 (w 0x20), gang := bitsOf (w 0x28) 56 4, gridz := bitsOf (w 0x28) 40 16, gridy := bitsOf (w 0x28) 24 16,
    gridx := bitsOf (w 0x28) 0 24, kregs := bitsOf (w 0x30) 40 8, regs := bitsOf (w 0x30) 32 8, maxt := bitsOf (w 0x30) 21 5,
    initt := bitsOf (w 0x30) 16 5, width := bitsOf (w 0x30) 0 11, accmax := bitsOf (w 0x38) 28 8, span := bitsOf (w 0x38) 25 3,
    scratch := bitsOf (w 0x38) 0 20, strict := bitsOf (w 0x40) 15 1 = 1, ldesc := bitsOf (w 0x40) 14 1 = 1,
    nreplay := bitsOf (w 0x40) 13 1 = 1, shrinkok := bitsOf (w 0x40) 12 1 = 1, det := bitsOf (w 0x40) 8 1 = 1,
    commit := bitsOf (w 0x40) 4 2, prio := bitsOf (w 0x40) 0 4, tlid := bitsOf (w 0x48) 0 12, tlval := w 0x50 }

/-- A reserved field of a record is not zero (R38). -/
def recordReserved (bs : List Byte) : Bool :=
  let w := wordAt bs
  [0x00, 0x08, 0x10, 0x18, 0x20].any (fun o => bitsOf (w o) 56 8 ≠ 0) || bitsOf (w 0x28) 60 4 ≠ 0 || bitsOf (w 0x30) 48 16 ≠ 0 ||
    bitsOf (w 0x30) 26 6 ≠ 0 || bitsOf (w 0x30) 11 5 ≠ 0 || bitsOf (w 0x38) 36 28 ≠ 0 || bitsOf (w 0x38) 20 5 ≠ 0 ||
    bitsOf (w 0x40) 16 48 ≠ 0 || bitsOf (w 0x40) 9 3 ≠ 0 || bitsOf (w 0x40) 6 2 ≠ 0 || bitsOf (w 0x48) 12 52 ≠ 0 ||
    [0x58, 0x60, 0x68, 0x70, 0x78].any (fun o => w o ≠ 0)

/-- Datapaths in service on the core in service that has the most (29 R524). -/
def mostDatapaths (s : State) : Nat :=
  (((List.range Config.cores).filter (fun k => !s.mgmt.out.contains (.core k))).map (fun k =>
    ((List.range 4).filter (fun d => !s.mgmt.out.contains (.datapath (dpNumber k d)))).length)).foldl max 0

/-- The first check of R41 that a record fails, 0 for none. -/
def recordReason (s : State) (x : Nat) (bs : List Byte) : Nat :=
  let r := parseRecord bs
  if recordReserved bs then 1
  else if r.tentry = 0 || r.tentry.getLsbD 0 || r.fentry.getLsbD 0 || r.jentry.getLsbD 0 || r.handler.getLsbD 0 || r.param.toNat % 64 ≠ 0 then 2
  else if r.width < 32 || 1024 < r.width || r.width % 32 ≠ 0 then 3
  else if r.regs < 8 || 240 < r.regs || r.regs % 8 ≠ 0 || 65536 < r.width * r.regs then 4
  else if r.initt = 0 || r.maxt < r.initt || 16 < r.maxt || (r.initt < r.maxt && r.jentry = 0) then 5
  else if r.gang = 0 || 8 < r.gang || r.gridx = 0 || r.gridy = 0 || r.gridz = 0 || gridBlocks r % r.gang ≠ 0 then 6
  else if (r.fentry = 0 && r.kregs ≠ 0) || (r.fentry ≠ 0 && r.kregs < 8) || 192 < r.kregs || r.kregs % 8 ≠ 0 then 7
  else if 524288 < r.scratch || r.scratch % 128 ≠ 0 || 128 < r.accmax then 8
  else if mostDatapaths s * teamCap r.width r.regs < r.initt then 9
  else if tlOwner (ctxOf s x) r.tlid ≠ .software then 10
  else 0

/-- A launch as it joins its queue (R439). -/
def newLaunch (x : Nat) (r : LaunchRec) (c : Cmd) : Launch :=
  { ctx := x, lr := r, priv := cmdPrivq c, waits := submitWaits c, ack := cmdAck c, st := .queued, ready := false, nextGang := 0,
    blocksDone := [], committed := [], param := none, paramWait := none, writeBack := false, seat := c.seq.toNat, replays := 0,
    nonReplay := false, dispatched := false, lready := false, writers := [], shadow := Shadow.empty, pubs := [], gangs := [], rerun := [],
    blockedSince := [] }

/-- A SUBMIT: reasons 3 to 5, then a launch queued, or rejected with LREJ (R434, R41). -/
def submitted (c : Cmd) (s : State) : Verdict :=
  let x := cmdCtx c
  match recordAt s x c.a0.toNat with
  | none => .refuse 3
  | some bs =>
    if 4096 ≤ queuedCount s x then .refuse 4
    else if cmdPrivq c && !(ctxOf s x).privok then .refuse 5
    else
      let r := recordReason s x bs
      if r ≠ 0 then .later (emit (event evLRej x r c.seq.toNat 0 0) s)
      else .later (putLaunch s c.seq.toNat (newLaunch x (parseRecord bs) c))

/-- SUBMIT (R433). -/
def execSubmit (c : Cmd) (s : State) : Out := .next (accept .onContext c (submitReserved c) s (submitted c))

/-! ## RESUME, CANCEL, DISPATCH -/

/-- Blocks that an entry names by launch id and linear index, of its own context, ascending copy. -/
def namedBlocks (c : Cmd) (s : State) : List (Nat × Block) :=
  s.blocks.filter (fun q => q.2.launch = c.a0.toNat && q.2.lin = c.a1.toNat && ctxNum s q.1 = cmdCtx c)

/-- Blocks resumed in order. -/
def resumeBlocks (bs : List Nat) (s : State) : State :=
  match bs with
  | [] => s
  | b :: r => resumeBlocks r (resumeBlock s b)

/-- RESUME (R433, 01 R44). -/
def execResume (c : Cmd) (s : State) : Out :=
  .next (accept .onContext c (cmdReserved c 2 false) s (fun s =>
    match (namedBlocks c s).filter (fun q => blockHalted q.2) with
    | [] => .refuse 7
    | bs => .done (resumeBlocks (bs.map (fun q => q.1)) s)))

/-- The launch that an entry names, of its own context. -/
def namedLaunch (c : Cmd) (s : State) : Option Launch :=
  (Tbl.get s.launches c.a0.toNat).filter (fun l => l.ctx = cmdCtx c)

/-- CANCEL (R433): of a launch no block of which has been placed. -/
def execCancel (c : Cmd) (s : State) : Out :=
  .next (accept .onContext c (cmdReserved c 1 false) s (fun s =>
    match namedLaunch c s with
    | none => .refuse 7
    | some l =>
      if l.st = .queued && l.param.isNone then .done (withdraw (putLaunch s c.a0.toNat { l with st := .discarded }) c.a0.toNat) else .refuse 7))

/-- DISPATCH (R433, R444): of a ready launch. -/
def execDispatch (c : Cmd) (s : State) : Out :=
  .next (accept .onContext c (cmdReserved c 1 false) s (fun s0 =>
    let s := becomeReady s0 c.a0.toNat
    match namedLaunch c s with
    | none => .refuse 7
    | some l => if l.st = .queued && l.ready then .done (putLaunch s c.a0.toNat { l with dispatched := true }) else .refuse 7))

/-- UNASSIGNED_COMMAND (R434). -/
def execUnassignedCommand (c : Cmd) (s : State) : Out := .next (accept .free c true s .done)

end Sys2Proof.Machine
end

