-- ==== Sys2Proof/Machine/System.lean ====
section
/-! DEFINITION. System: system registers, return from a trap, TLB invalidation, HALT (15 R334-R343; 05 R144). -/

namespace Sys2Proof.Machine

/-! ## System registers (R334-R338) -/

/-- TCAUSE of a trap record (R336). -/
def TrapRec.cause (r : TrapRec) : Word :=
  BitVec.ofNat 32 (r.aux % 256 * 2 ^ 24 + r.field % 16 * 2 ^ 20 + r.split % 16 * 2 ^ 16 + r.reason % 256 * 2 ^ 8 + r.code)

/-- The low or the high word of a 64-bit value. -/
def halfOf (v : DWord) (high : Bool) : Word := if high then v.extractLsb' 32 32 else v.extractLsb' 0 32

/-- A trap register of the record being handled, in a lane (R334). -/
def trapReg (r : TrapRec) (n l : Nat) : Word :=
  match n with
  | 0x08 => r.cause
  | 0x09 => halfOf (r.pc.zeroExtend 64) false
  | 0x0A => halfOf (r.pc.zeroExtend 64) true
  | 0x0B => halfOf (r.res.zeroExtend 64) false
  | 0x0C => halfOf (r.res.zeroExtend 64) true
  | 0x0D => r.parcel.zeroExtend 32
  | 0x0E => halfOf r.val false
  | 0x0F => halfOf r.val true
  | 0x10 => halfOf r.cmd false
  | 0x11 => halfOf r.cmd true
  | 0x12 => r.sel.zeroExtend 32
  | 0x13 => BitVec.ofNat 32 (r.laneFlags.toNat * 2 ^ 16 + r.lane)
  | 0x14 => if hasLane r.done l then 1 else 0
  | _ => r.leak.getD l 0

/-- MVCTL of a context (05 R144). -/
def mvctl (c : Ctx) : Word := BitVec.ofNat 32 (c.stkv * 16 + c.path)

/-- The FLAGS of a block's front program. -/
def frontFlags (k : Block) : Word := ((Tbl.get k.teams frontTeam).map (fun m => m.flags.zeroExtend 32)).getD 0

/-- The value of system register n in a lane (R334). -/
def sysreg (s : State) (i : Iss) (n l : Nat) : Word :=
  let c := ctxOf s i.l.ctx
  match n with
  | 0x00 => i.m.flags.zeroExtend 32
  | 0x01 => i.m.fpen.zeroExtend 32
  | 0x02 => frontFlags i.k
  | 0x03 => i.k.ffault
  | 0x04 => halfOf i.k.ffpc false
  | 0x05 => halfOf i.k.ffpc true
  | 0x06 => halfOf i.k.ffval false
  | 0x07 => halfOf i.k.ffval true
  | 0x18 => Sparse.get i.m.hscr l
  | 0x19 => Sparse.get i.m.hscr (1024 + l)
  | 0x1A => Sparse.get i.m.hscr (2048 + l)
  | 0x1B => Sparse.get i.m.hscr (3072 + l)
  | 0x1C => BitVec.ofNat 32 i.mode
  | 0x20 => mvctl c
  | 0x21 => BitVec.ofNat 32 ((if c.debug then 256 else 0) + i.l.ctx)
  | 0x22 => halfOf (BitVec.ofNat 64 c.tlmap) false
  | 0x23 => halfOf (BitVec.ofNat 64 c.tlmap) true
  | 0x24 => halfOf (BitVec.ofNat 64 c.sbmap) false
  | 0x25 => halfOf (BitVec.ofNat 64 c.sbmap) true
  | 0x26 => BitVec.ofNat 32 c.lpuser
  | _ => match i.m.trap with
    | none => 0
    | some h => trapReg h.trap n l

/-- Another split of the team has issued an instruction that has not completed (R338, 02 R68). -/
def othersOpen (i : Iss) (p : Held → Bool) : Bool :=
  (i.m.splits.filter (fun c => c.1 ≠ i.e)).any (fun c => (openHeld c.2).any p) || i.m.defer.any (fun q => (openHeld q).any p)

/-- RDSR and WRSR of FLAGS and FPEN wait for the team's open instructions (R338). -/
def sysWaits (n : Nat) (i : Iss) : Bool := n ≤ 1 && othersOpen i (fun h => !h.fetching)

/-- RDSR (R338). -/
def rdsr (op : Op) (s : State) : Out :=
  issueWhen op [] s (sysWaits op.o.b.toNat) (fun i s => i.complete op s (fun l => .word (sysreg s i op.o.b.toNat l)))

/-- A change to the record of the trap being handled. -/
def onTrap (f : TrapRec → TrapRec) (m : Team) : Team := { m with trap := m.trap.map (fun h => { h with trap := f h.trap }) }

/-- TDONE written in lanes: bit 0 of each one's value. -/
def setDone (d : Mask) (vs : List (Nat × Word)) : Mask :=
  vs.foldl (fun d q => if q.2.getLsbD 0 then d ||| maskOf [q.1] else d &&& ~~~(maskOf [q.1])) d

/-- A resume address as WRSR leaves it: bit 0 and the bits above 55 zero (R334). -/
def resumeAddr (v : BitVec 56) : BitVec 56 := v &&& 0xFFFFFFFFFFFFFE

/-- A team's register n written: a uniform one with the leader's value, a lane's with each executing lane's (R338). -/
def setSysreg (n : Nat) (v : Word) (vs : List (Nat × Word)) (m : Team) : Team :=
  match n with
  | 0x00 => { m with flags := v.extractLsb' 0 8 }
  | 0x01 => { m with fpen := v.extractLsb' 0 8 &&& 0xBF }
  | 0x0B => onTrap (fun r => { r with res := resumeAddr (r.res.extractLsb' 32 24 ++ v) }) m
  | 0x0C => onTrap (fun r => { r with res := v.extractLsb' 0 24 ++ r.res.extractLsb' 0 32 }) m
  | 0x14 => onTrap (fun r => { r with done := setDone r.done vs }) m
  | _ => { m with hscr := applyWrites m.hscr (vs.map (fun q => ((n - 0x18) * 1024 + q.1, q.2))) }

/-- A value that MVCTL takes (05 R144). -/
def mvctlOk (v : Word) : Bool := v.extractLsb' 8 24 = 0 && v.extractLsb' 2 2 = 0 && bitsOf v.toNat 0 2 ≤ 2 && bitsOf v.toNat 4 4 ≤ 8

/-- A register with a value per lane (R334). -/
def laneReg (n : Nat) : Bool := n = 0x14 || (0x18 ≤ n && n ≤ 0x1B)

/-- WRSR (R338). A uniform register's a is read, and its index register held to its bound, in the leader alone (log 108). -/
def wrsr (op : Op) (s : State) : Out :=
  let n := op.o.b.toNat
  issueWhen op (if laneReg n then [] else [2]) s (sysWaits n) (fun i s =>
    let v := i.a op i.leader
    if n = 0x20 then
      if !mvctlOk v then i.illopValue s op
      else i.plain op (putCtx s i.l.ctx { ctxOf s i.l.ctx with path := bitsOf v.toNat 0 2, stkv := bitsOf v.toNat 4 4 })
    else i.plain op (onTeam s i.b i.t (setSysreg n v (i.lanes.map (fun l => (l, i.a op l))))))

/-! ## RETT, TLBINV, HALT (R340, R342, R343) -/

/-- RETT (R340). -/
def rett (op : Op) (s : State) : Out :=
  issue op [] s (fun i s =>
    match i.m.trap with
    | none => i.illop s op
    | some h =>
      if h.lanes &&& liveLanes i.m &&& ~~~i.p.mask ≠ 0 then i.illop s op else returnFromTrap s i.b i.t i.e h)

/-- The cached translations a descriptor names removed (R342). -/
def invalidate (s : State) (x kind vpn : Nat) : State :=
  { s with tlb := s.tlb.filter (fun c => c.ctx ≠ x || !(kind = 1 || (c.va ≤ vpn * 65536 && vpn * 65536 < c.va + c.size))) }

/-- A descriptor of TLBINV and INVAL with no reserved bit or kind (R342). -/
def invalOk (d : DWord) : Bool := d.extractLsb' 56 8 = 0 && d.extractLsb' 2 14 = 0 && bitsOf d.toNat 0 2 ≤ 1

/-- An instruction whose accesses are under way: it has passed the checks of R74 (R342). -/
def accessOpen (h : Held) : Bool := h.passed || h.waits ≠ []

/-- TLBINV (R342): it waits for every earlier access of the team. Its a is read, and its index register held to its bound, in the
leader alone (log 108). -/
def tlbinv (op : Op) (s : State) : Out :=
  issue op [2] s (fun i s =>
    let d := i.a64 op i.leader
    if !invalOk d then i.illop s op
    else if othersOpen i accessOpen then i.pause s
    else i.plain op (invalidate s i.l.ctx (bitsOf d.toNat 0 2) (bitsOf d.toNat 16 40)))

/-- HALT (R343). -/
def haltOp (op : Op) (s : State) : Out := issue op [] s (fun i s => haltBlock (i.advance s op) i.b i.p.pc)

/-! ## The instructions -/

/-- RDSR (R338). -/
def execRdsr (o : LOps) (s : State) : Out := rdsr (opL 0xE0 o) s

/-- WRSR (R338). -/
def execWrsr (o : LOps) (s : State) : Out := wrsr (opL 0xE1 o) s

/-- RETT_W32 (R340). -/
def execRettW32 (o : WOps) (s : State) : Out := rett (opW 0xE2 o) s

/-- RETT_L64 (R340). -/
def execRettL64 (o : LOps) (s : State) : Out := rett (opL 0xE2 o) s

/-- TLBINV_W32 (R342). -/
def execTlbinvW32 (o : WOps) (s : State) : Out := tlbinv (opW 0xE3 o) s

/-- TLBINV_L64 (R342). -/
def execTlbinvL64 (o : LOps) (s : State) : Out := tlbinv (opL 0xE3 o) s

/-- HALT_W32 (R343). -/
def execHaltW32 (o : WOps) (s : State) : Out := haltOp (opW 0xE5 o) s

/-- HALT_L64 (R343). -/
def execHaltL64 (o : LOps) (s : State) : Out := haltOp (opL 0xE5 o) s

end Sys2Proof.Machine
end

