-- ==== Sys2Proof/Machine/Contexts.lean ====
section
/-! DEFINITION. Contexts: the context and translation commands (24 R446-R451, R457, R458, R464) and SECKEY (27 R506). -/

namespace Sys2Proof.Machine

/-! ## CTXNEW (R447, R448) -/

/-- The 128 bytes of a descriptor in host memory. -/
def descBytes (s : State) (a : Nat) : List Byte := readBytes s.host a 128

/-- A descriptor's reserved fields are zero, its addresses aligned, its fields in range, its maps apart (R447, R448; 04 R107). -/
def descOk (bs : List Byte) : Bool :=
  let w := wordAt bs
  bitsOf (w 0x00) 52 12 = 0 && bitsOf (w 0x00) 0 16 = 0 &&
  [0x08, 0x10, 0x18, 0x40].all (fun o => bitsOf (w o) 56 8 = 0) &&
  w 0x08 % 32768 = 0 && w 0x10 % 512 = 0 && w 0x18 % 65536 = 0 && w 0x40 % 0x200000 = 0 &&
  1 ≤ bitsOf (w 0x20) 48 16 && bitsOf (w 0x20) 48 16 ≤ 6144 && 2 ≤ bitsOf (w 0x20) 32 16 &&
  bitsOf (w 0x20) 0 32 % 16 = 0 && bitsOf (w 0x20) 0 32 + 64 ≤ 64 * bitsOf (w 0x20) 32 16 &&
  (bitsOf (w 0x28) 40 8 = 0 || (16 ≤ bitsOf (w 0x28) 40 8 && bitsOf (w 0x28) 40 8 ≤ 40)) &&
  bitsOf (w 0x28) 32 8 = 0 && bitsOf (w 0x28) 0 16 = 0 &&
  bitsOf (w 0x30) 40 24 = 0 && bitsOf (w 0x30) 32 8 ≤ 64 && bitsOf (w 0x30) 2 30 = 0 &&
  bitsOf (w 0x38) 52 12 = 0 && bitsOf (w 0x48) 16 48 = 0 &&
  [0x50, 0x58, 0x60, 0x68, 0x70, 0x78].all (fun o => w o = 0) &&
  !rangesMeet (w 0x08) 32768 (w 0x10) 524288 && bitsOf (w 0x00) 16 36 * 65536 < Config.capacityBytes && bitsOf (w 0x38) 16 36 * 65536 < Config.capacityBytes

/-- The MiB of chip scratchpad that no context has, ascending; the same on both dies. -/
def chipFree (s : State) : List Nat :=
  (List.range 64).filter (fun n => !s.ctxs.any (fun c => c.2.st ≠ .free && c.2.chipAt.contains n))

/-- The lowest free MiB for a grant; none where it exceeds what is not granted (R448; log 81). -/
def chipRoom (s : State) (mb : Nat) : Option (List Nat) :=
  if mb ≤ (chipFree s).length then some ((chipFree s).take mb) else none

/-- A context as CTXNEW leaves it (R448). -/
def contextFrom (bs : List Byte) (units : List Nat) : Ctx :=
  let w := wordAt bs
  { Ctx.free with
    st := .live, root := bitsOf (w 0x00) 16 36 * 65536, tlmap := w 0x08, sbmap := w 0x10, lpbase := w 0x18,
    nframes := bitsOf (w 0x20) 48 16, lpstride := bitsOf (w 0x20) 32 16, lpuser := bitsOf (w 0x20) 0 32,
    shrlim := bitsOf (w 0x28) 48 16, wdlog := bitsOf (w 0x28) 40 8, pinmax := bitsOf (w 0x28) 16 16,
    chipmb := bitsOf (w 0x30) 32 8, debug := bitsOf (w 0x30) 1 1 = 1, privok := bitsOf (w 0x30) 0 1 = 1,
    pool := bitsOf (w 0x38) 16 36 * 65536, pooln := bitsOf (w 0x38) 0 16, savebase := w 0x40, slots := bitsOf (w 0x48) 0 16,
    chipAt := units }

/-- A grant's bytes on both dies zeroed. -/
def clearGrant (m : List Host.Cell) (units : List Nat) : List Host.Cell :=
  m.filter (fun c => !units.contains (c.1 % Config.chipBytes / 2 ^ 20))

/-- CTXNEW (R446, R448). -/
def execCtxnew (c : Cmd) (s : State) : Out :=
  .next (accept .creates c (cmdReserved c 1 false) s (fun s =>
    let x := cmdCtx c
    let bs := descBytes s c.a0.toNat
    if (ctxOf s x).st ≠ .free then .refuse 7
    else if c.a0.toNat % 128 ≠ 0 || !descOk bs then .refuse 8
    else
      match chipRoom s (bitsOf (wordAt bs 0x30) 32 8) with
      | none => .refuse 9
      | some units => .done { putCtx s x (contextFrom bs units) with chip := clearGrant s.chip units }))

/-! ## CTXKILL, CTXDEL (R446, R449, R451) -/

/-- A kill that a command asked for names the command in its event (23 R436). -/
def killedBy (x seq : Nat) (s : State) : State := if (ctxOf s x).st = .dying then putCtx s x { ctxOf s x with killSeq := seq } else s

/-- CTXKILL: its DONE follows the kill. -/
def execCtxkill (c : Cmd) (s : State) : Out :=
  .next (accept .onContext c (cmdReserved c 0 false) s (fun s =>
    .later (killedBy (cmdCtx c) c.seq.toNat (killContext s (cmdCtx c) 1 0 (if cmdAck c then some c.seq.toNat else none)))))

/-- A context is idle: no launch queued or placed, no collective context bound. -/
def idle (s : State) (x : Nat) : Bool :=
  !s.launches.any (fun q => liveLaunch x q.2) && (ccsOf s x) = []

/-- A context and all that is kept in its name are gone, its pins with it (03 R83); its collective contexts are unbound. -/
def clearContext (s0 : State) (x : Nat) : State :=
  let s := releasePins s0 x
  let ns := ccsOf s x
  { s with ctxs := Tbl.del s.ctxs x, launches := s.launches.filter (fun q => q.2.ctx ≠ x), ccs := s.ccs.filter (fun q => !ns.contains q.1),
           reforms := s.reforms.filter (fun r => !ns.contains r.cc), duties := s.duties.filter (fun d => !ns.contains d.cc), faults := s.faults.filter (fun r => r.ctx ≠ x),
           tlb := s.tlb.filter (fun t => t.ctx ≠ x) }

/-- A context deleted; where fault records go with it, whoever found all 256 in use asks again (R456). -/
def deleteContext (s : State) (x : Nat) : State :=
  if s.faults.any (fun r => r.ctx = x) then recordsGone (clearContext s x) x 0 false else clearContext s x

/-- CTXDEL. -/
def execCtxdel (c : Cmd) (s : State) : Out :=
  .next (accept .deletes c (cmdReserved c 0 false) s (fun s =>
    let x := cmdCtx c
    if (ctxOf s x).st = .killed || ((ctxOf s x).st = .live && idle s x) then .done (deleteContext s x) else .refuse 7))

/-! ## TLOWN (R446, R450) -/

/-- An owner kind and number, where they are in range. -/
def ownerOf (kind n : Nat) : Option TlOwner :=
  if kind = 0 && n = 0 then some .software
  else if kind = 1 && n < 1024 then some (.collective n)
  else if kind = 2 && n < 8 then some (.stackQueue n)
  else none

/-- A timeline given to an owner. -/
def setOwner (s : State) (x sel : Nat) (o : TlOwner) : State :=
  let c := ctxOf s x
  putCtx s x { c with owners := if o = .software then Tbl.del c.owners sel else Tbl.put c.owners sel o }

/-- TLOWN. -/
def execTlown (c : Cmd) (s : State) : Out :=
  .next (accept .onContext c (cmdReserved c 3 false) s (fun s =>
    let x := cmdCtx c
    if 4095 < c.a0.toNat then .refuse 6
    else if (ccsOf s x).any (fun n => (ccOf s n).tlc = c.a0.toNat) then .refuse 7
    else match ownerOf c.a1.toNat c.a2.toNat with
      | none => .refuse 8
      | some o => .done (setOwner s x c.a0.toNat o)))

/-! ## FAULTRES, INVAL (R457, R458) -/

/-- FAULTRES: outcome 0 re-walks, outcome 1 fails. -/
def execFaultres (c : Cmd) (s : State) : Out :=
  .next (accept .onContext c (cmdReserved c 2 false) s (fun s =>
    match s.faults.find? (fun r => r.num = c.a0.toNat && r.ctx = cmdCtx c) with
    | none => .refuse 7
    | some r => if 1 < c.a1.toNat then .refuse 8 else .done (if c.a1 = 0 then rewalk s r else closeRecord s r true)))

/-- INVAL: TLBINV from the host, which waits for nothing. -/
def execInval (c : Cmd) (s : State) : Out :=
  .next (accept .onContext c (cmdReserved c 1 false) s (fun s =>
    if !invalOk c.a0 then .refuse 8 else .done (invalidate s (cmdCtx c) (bitsOf c.a0.toNat 0 2) (bitsOf c.a0.toNat 16 40))))

/-! ## PREEMPT (R464) -/

/-- The copies of a gang, each with all its blocks placed. -/
def placedCopies (s : State) (n g : Nat) : List Nat :=
  ((s.blocks.filter (fun q => q.2.launch = n && q.2.gang = g)).map (fun q => q.2.copy)).eraseDups.filter (fun k =>
    (gangBlocks s n g k).all (fun b => ((Tbl.get s.blocks b).map blockPlaced).getD false))

/-- Each copy's save begins. -/
def startCopies (n g : Nat) (ks : List Nat) (s : State) : State := startSaves (ks.map (fun k => (n, g, k))) s

/-- PREEMPT. With too few free slots it is refused for want of resources. -/
def execPreempt (c : Cmd) (s : State) : Out :=
  .next (accept .onContext c (cmdReserved c 2 false) s (fun s =>
    let n := c.a0.toNat
    let g := c.a1.toNat
    match namedLaunch c s, placedCopies s n g with
    | none, _ => .refuse 7
    | some _, [] => .refuse 7
    | some _, ks =>
      if (freeSlots (ctxOf s (cmdCtx c))).length < (ks.map (fun k => (gangBlocks s n g k).length)).sum then .refuse 9
      else .done (startCopies n g ks s)))

/-! ## CCBIND, CCSTART, CCSTOP (R451; 16 R344, R368) -/

/-- The operands of CCBIND in order, its timeline software-owned. -/
def bindOk (s : State) (x : Nat) (c : Cmd) : Bool :=
  let a1 := c.a1.toNat
  let ch := bitsOf a1 16 7
  let sb := bitsOf a1 0 13
  c.a0.toNat < 1024 && bitsOf a1 25 39 = 0 && bitsOf a1 23 1 = 0 && bitsOf a1 13 3 = 0 && 1 ≤ ch && ch ≤ 64 &&
    sb % 32 = 0 && 32 ≤ sb && sb ≤ 4096 && c.a2.toNat % 8 = 0 && c.a2.toNat < 2 ^ 56 && tlOwner (ctxOf s x) c.a3.toNat = .software

/-- A collective context as binding leaves it (R344). -/
def boundCc (x : Nat) (c : Cmd) : Cc :=
  { Cc.unbound with st := .ready, ctx := x, ch := 256 * bitsOf c.a1.toNat 16 7, sbbits := bitsOf c.a1.toNat 0 13, entry := c.a2.toNat,
                    tlc := c.a3.toNat, prot := bitsOf c.a1.toNat 24 1 = 1, pc := c.a2 }

/-- CCBIND. -/
def execCcbind (c : Cmd) (s : State) : Out :=
  .next (accept .onContext c (cmdReserved c 4 false) s (fun s =>
    let x := cmdCtx c
    if 4095 < c.a3.toNat then .refuse 6
    else if !s.fab.valid || (ccOf s c.a0.toNat).st ≠ .unbound then .refuse 7
    else if !bindOk s x c then .refuse 8
    else .done (setOwner (putCc s c.a0.toNat (boundCc x c)) x c.a3.toNat (.collective c.a0.toNat))))

/-- The collective context that an entry names is bound to its device context. -/
def ownCc (c : Cmd) (s : State) : Bool :=
  (ccOf s c.a0.toNat).st ≠ .unbound && (ccOf s c.a0.toNat).ctx = cmdCtx c

/-- A collective context started: from READY at its entry; the fault word is 0. -/
def startCc (c : Cc) : Cc :=
  { c with st := .running, pc := if c.st = .ready then BitVec.ofNat 64 c.entry else c.pc, faultCode := 0, faultReason := 0, armReason := 0,
           waits := [], failed := [] }

/-- CCSTART. -/
def execCcstart (c : Cmd) (s : State) : Out :=
  .next (accept .onContext c (cmdReserved c 1 false) s (fun s =>
    let n := c.a0.toNat
    let st := (ccOf s n).st
    if !ownCc c s || st = .running || st = .waiting then .refuse 7
    else if (ccOf s n).prot && (ctxOf s (cmdCtx c)).keyCur.isNone then .refuse 8
    else .done (onCc s n startCc)))

/-- CCSTOP. -/
def execCcstop (c : Cmd) (s : State) : Out :=
  .next (accept .onContext c (cmdReserved c 1 false) s (fun s => if !ownCc c s then .refuse 7 else .done (haltCc s c.a0.toNat)))

/-! ## SECKEY (27 R506) -/

/-- SECKEY: its operand checks have a reason of their own. -/
def execSeckey (c : Cmd) (s : State) : Out :=
  .next (accept .onContext c (cmdReserved c 6 false) s (fun s =>
    let x := cmdCtx c
    let k := ctxOf s x
    if c.a0.toNat % 32 ≠ 0 || ((cmdArgs c).drop 1).any (fun a => a ≠ 0) then .refuse 8
    else .done (putCtx s x { k with keyPrev := k.keyCur, keyCur := some (readBytes s.host c.a0.toNat 32), keyTime := s.now })))

/-- KEY_GRACE_EXPIRY (27 R506): 10 s after a change the previous key goes. -/
def keyGrace (x : Nat) (s : State) : State :=
  let k := ctxOf s x
  if k.keyPrev.isSome && k.keyTime + 10000000 * Config.cyclesPerMicro ≤ s.now then putCtx s x { k with keyPrev := none } else s

/-- KEY_GRACE_EXPIRY (27 R506). -/
def execKeyGraceExpiry (x : Nat) (s : State) : Out := .next (keyGrace x s)

end Sys2Proof.Machine
end

