-- ==== Sys2Proof/Machine/Debug.lean ====
section
/-! DEFINITION. Debug: the debug commands (25 R468, R469). -/

namespace Sys2Proof.Machine

/-- The block that an entry names: the lowest copy. -/
def namedBlock (c : Cmd) (s : State) : Option (Nat × Block) := (namedBlocks c s).head?

/-- A block runs on its core, not HALTED. -/
def blockActive (k : Block) : Bool := k.st = .running || k.st = .shrinking

/-- A stopped team of a block may resume: the block runs; or it is SAVING, and a command of the team stands stalled, which only its handler can
release (04 R108; log 115). -/
def teamResumes (k : Block) (t : Nat) (m : Team) : Bool :=
  m.st = .stopped && (blockActive k || (k.st = .saving && k.cmds.any (fun c => c.team = t && c.stalled)))

/-- A debug command of a context with DEBUG, on a block it names (R468). -/
def debugging (c : Cmd) (s : State) (go : Nat → Block → Verdict) : Verdict :=
  if !(ctxOf s (cmdCtx c)).debug then .refuse 8
  else match namedBlock c s with
    | none => .refuse 7
    | some q => go q.1 q.2

/-- A team of 0 to 15 of a block. -/
def namedTeam (k : Block) (t : DWord) : Option Team := if t.toNat < 16 then Tbl.get k.teams t.toNat else none

/-- A team runs or handles a trap. -/
def teamGoes (m : Team) : Bool := m.st = .running || m.st = .trapped

/-- The split of a team that would issue next: the READY one with the oldest stamp, the lowest-numbered of several. -/
def oldestReady (m : Team) : Option (Nat × Split) :=
  (m.splits.filter (fun c => c.2.st = .ready)).foldl (fun best c =>
    match best with
    | none => some c
    | some b => if c.2.stamp < b.2.stamp then some c else some b) none

/-- The pc at which a team stops: that of the split to issue next, or of its first entry where none is READY. -/
def stopPc (m : Team) : BitVec 56 :=
  match oldestReady m with
  | some c => c.2.pc
  | none => (m.splits.head?.map (fun c => c.2.pc)).getD 0

/-! ## DBGSTOP, DBGRESUME -/

/-- DBGSTOP: a team, or with 31 every team and the front program, stops. -/
def execDbgstop (c : Cmd) (s : State) : Out :=
  .next (accept .onContext c (cmdReserved c 3 false) s (fun s => debugging c s (fun b k =>
    if !blockActive k then .refuse 7
    else if c.a2 = 31 then
      match k.teams.filter (fun q => teamGoes q.2) with
      | [] => .refuse 7
      | q :: _ => .done (haltedEvent (putBlock s b (stopTeams s.now .command k)) k (stopPc q.2))
    else match namedTeam k c.a2 with
      | none => .refuse 7
      | some m =>
        if teamGoes m then .done (haltedEvent (putBlock s b (mapTeam k c.a2.toNat (stopTeam s.now .command))) k (stopPc m)) else .refuse 7)))

/-- DBGRESUME: stopped teams resume; a HALTED block returns to its prior state (01 R43, R44). -/
def execDbgresume (c : Cmd) (s : State) : Out :=
  .next (accept .onContext c (cmdReserved c 3 false) s (fun s => debugging c s (fun b k =>
    if c.a2 = 31 then
      if blockHalted k then .done (resumeBlock s b)
      else if k.teams.any (fun q => teamResumes k q.1 q.2) then .done (arriveAll b (k.teams.map (fun q => q.1)) (putBlock s b (resumeTeams s.now k)))
      else .refuse 7
    else match namedTeam k c.a2 with
      | none => .refuse 7
      | some m =>
        if teamResumes k c.a2.toNat m then
          .done (arriveLate (putBlock s b (mapTeam k c.a2.toNat (resumeTeam s.now))) b c.a2.toNat) else .refuse 7)))

/-! ## DBGSTEP -/

/-- The entry that a step names: 0 to 15, or 16 for the oldest READY split. -/
def stepEntry (m : Team) (a : DWord) : Option Nat :=
  if a.toNat < 16 then (Tbl.get m.splits a.toNat).map (fun _ => a.toNat)
  else if a.toNat = 16 then (oldestReady m).map (fun c => c.1)
  else none

/-- A team that is to step one split: that split alone may issue. -/
def stepTeam (now e : Nat) (m : Team) : Team :=
  { m with st := if m.trap.isSome then .trapped else .running, cause := none,
           splits := Tbl.mapVals m.splits (fun n p => if n = e then { resumeSplit now p with step := true } else p) }

/-- DBGSTEP: one instruction of a split is to issue. -/
def execDbgstep (c : Cmd) (s : State) : Out :=
  .next (accept .onContext c (cmdReserved c 4 false) s (fun s => debugging c s (fun b k =>
    match namedTeam k c.a2 with
    | none => .refuse 7
    | some m =>
      match stepEntry m c.a3 with
      | none => .refuse 7
      | some e =>
        if blockActive k && m.st = .stopped then
          .done (arriveLate (putBlock s b (mapTeam k c.a2.toNat (stepTeam s.now e))) b c.a2.toNat) else .refuse 7)))

/-- The end of a step: the team stops again, with its block in stop-block mode, and the stop is reported with the pc the split has
come to (R468, R469). -/
def endStep (s : State) (b t e : Nat) : State :=
  match (teamOf s b t) with
  | none => s
  | some m =>
    let pc := ((Tbl.get m.splits e).map (fun p => p.pc)).getD (stopPc m)
    let clear := fun (p : Split) => { p with step := false }
    let s1 := onTeam s b t (fun m => { m with splits := Tbl.mapVals m.splits (fun _ p => clear p), defer := m.defer.map clear })
    if teamGoes m then debugStop s1 b t .step pc else s1

/-! ## DBGSNAP -/

/-- The 8 KiB record of a team, with what stopped it, then its registers with their uniform flags (R468, 24 R462). -/
def snapBytes (s : State) (m : Team) : List Byte := areaBytes 2 0x2000 (teamImage s.now m) ++ wordBytes (regWords m) ++ uniformBytes [m]

/-- DBGSNAP. -/
def execDbgsnap (c : Cmd) (s : State) : Out :=
  .next (accept .onContext c (cmdReserved c 4 false) s (fun s => debugging c s (fun _ k =>
    match namedTeam k c.a2 with
    | none => .refuse 7
    | some m =>
      if m.st ≠ .stopped || k.st = .saved then .refuse 7
      else if c.a3.toNat % 4096 ≠ 0 then .refuse 8
      else .done { s with host := writeBytes s.host c.a3.toNat (snapBytes s m) })))

/-! ## DBGBP, DBGMODE -/

/-- A debug command that names no block. -/
def debugContext (c : Cmd) (s : State) (go : Ctx → Verdict) : Verdict :=
  if !(ctxOf s (cmdCtx c)).debug then .refuse 8 else go (ctxOf s (cmdCtx c))

/-- DBGBP: one of the context's four address breakpoints set or cleared. -/
def execDbgbp (c : Cmd) (s : State) : Out :=
  .next (accept .onContext c (cmdReserved c 2 false || c.a1.extractLsb' 9 55 ≠ 0 || c.a1.extractLsb' 2 6 ≠ 0) s (fun s =>
    debugContext c s (fun k =>
      let slot := bitsOf c.a1.toNat 0 2
      if c.a0.getLsbD 0 || 2 ^ 56 ≤ c.a0.toNat then .refuse 8
      else .done (putCtx s (cmdCtx c) { k with bps := if c.a1.getLsbD 8 then Tbl.put k.bps slot (c.a0.extractLsb' 0 56) else Tbl.del k.bps slot }))))

/-- DBGMODE: stop-block mode. -/
def execDbgmode (c : Cmd) (s : State) : Out :=
  .next (accept .onContext c (cmdReserved c 2 false || c.a0 ≠ 0 || c.a1.extractLsb' 1 63 ≠ 0) s (fun s =>
    debugContext c s (fun k => .done (putCtx s (cmdCtx c) { k with stopBlock := c.a1.getLsbD 0 }))))

/-- An address breakpoint of the context stands at an address (R468). -/
def breaksAt (c : Ctx) (pc : BitVec 56) : Bool := c.bps.any (fun q => q.2 = pc)

/-- An address breakpoint acts as a BKPT before the instruction: the team stops there, its next issue passes (R468). -/
def takeBreakpoint (s : State) (b t e : Nat) : State :=
  match (teamOf s b t).bind (fun m => Tbl.get m.splits e) with
  | none => s
  | some p => debugStop (onSplit s b t e (fun p => { p with bpSkip := true })) b t .breakpoint p.pc

end Sys2Proof.Machine
end

