-- ==== Sys2Proof/Machine/Firmware.lean ====
section
/-! DEFINITION. Firmware: boot images, boot, the identity key and its leaves, update and rollback (26 R485-R493, R495, R496). -/

namespace Sys2Proof.Machine

/-! ## Images (R487, R489) -/

/-- A header's words. -/
def imgWord (b : ImageBank) (off : Nat) : Nat := wordAt b.header off

/-- SVN of an image. -/
def imgSvn (b : ImageBank) : Nat := bitsOf (imgWord b 0x08) 32 32

/-- A header is well formed (R487). -/
def headerOk (b : ImageBank) : Bool :=
  b.header.length = 64 && bitsOf (imgWord b 0x00) 32 32 = 0x45484B37 && bitsOf (imgWord b 0x00) 0 32 = 1 &&
  bitsOf (imgWord b 0x08) 0 32 = b.body.length && b.body.length % 64 = 0 && bitsOf (imgWord b 0x10) 1 63 = 0 && imgWord b 0x18 = 0

/-- An image's signature verifies against the ROM's anchor: under the root key whose digest the ROM holds (R485, R488). -/
def anchored (b : ImageBank) : Bool :=
  sha256 Config.rootKey = Config.romAnchor && hssVerify Config.rootKey (b.header ++ b.body) b.sig

/-- A bank is bootable (R489). -/
def bootable (f : Flash) (b : ImageBank) : Bool :=
  b.valid && headerOk b && anchored b && (b.header.drop 0x20).take 32 = sha256 b.body &&
    f.minsvn ≤ imgSvn b

/-- A bank: B, or A. -/
def Flash.bank (f : Flash) (isB : Bool) : ImageBank := if isB then f.bankB else f.bankA

/-- A bank put in place. -/
def Flash.setBank (f : Flash) (isB : Bool) (b : ImageBank) : Flash := if isB then { f with bankB := b } else { f with bankA := b }

/-! ## Leaves of the identity key (R493) -/

/-- The valid slot with the higher sequence number. -/
def newerIsX (f : Flash) : Bool := f.slotX.valid && (!f.slotY.valid || f.slotY.seq < f.slotX.seq)

/-- The slot that counts. -/
def keySlot (f : Flash) : KeySlot := if newerIsX f then f.slotX else f.slotY

/-- RESV: the first leaf not reserved; 0 with no valid slot. -/
def resv (f : Flash) : Nat := if (keySlot f).valid then (keySlot f).resv else 0

/-- What the next reservation writes: RESV + 64 with the next sequence number. -/
def nextSlot (f : Flash) : KeySlot := { seq := (if (keySlot f).valid then (keySlot f).seq else 0) + 1, resv := resv f + 64, valid := true }

/-- The older slot written. -/
def putSlot (f : Flash) (k : KeySlot) : Flash := if newerIsX f then { f with slotY := k } else { f with slotX := k }

/-- Leaves of the key (R488, R493). -/
def leafCount : Nat := 2 ^ 30

/-- No signature is to be had (R493, R494). -/
def noSigning (m : Mgmt) : Bool := m.idfail || m.keyend

/-- The identity key's identifier and seed (R492). -/
def identKey (m : Mgmt) : List Byte × List Byte :=
  let v := fixLen 32 (m.ident.getD [])
  ((sha256 (v ++ [1])).take 16, sha256 (v ++ [2]))

/-- The identity key's public half, which the device certificate binds to the serial number (R492). -/
def identPublic (m : Mgmt) : List Byte := hssPublic (identKey m).1 (identKey m).2

/-- A signature with leaf `q` of the identity key: 3,284 bytes (R488). -/
def signWith (m : Mgmt) (q : Nat) (bs : List Byte) : List Byte := hssSign (identKey m).1 (identKey m).2 q bs

/-- The next leaf taken: the last one ends the key. -/
def useLeaf (m : Mgmt) : Mgmt := { m with nextLeaf := m.nextLeaf + 1, keyend := leafCount ≤ m.nextLeaf + 1 }

/-! ## Boot (R489-R493) -/

/-- The bank that boots: the active one if it is bootable, else the other; none where neither is. -/
def bootBank (f : Flash) : Option Bool :=
  if bootable f (f.bank f.activeB) then some f.activeB
  else if bootable f (f.bank (!f.activeB)) then some (!f.activeB)
  else none

/-- Measurement slots after stage 3 (R491). -/
def measured (body : List Byte) : List (List Byte) :=
  (List.range 8).map (fun i => if i < 4 then sha256 (List.replicate 32 0 ++ Config.bodyDigest body i) else List.replicate 32 0)

/-- A unit of the configuration image: kind and number. -/
def configUnit (q : Nat × Nat) : UnitId :=
  match q.1 with
  | 0 => .core q.2
  | 1 => .datapath q.2
  | 2 => .stackEngine q.2
  | _ => .port q.2

/-- A port at boot stages 4 and 6 (27 R501, R502): a disabled one reads FAILED and EN 0; another starts its training. -/
def bootPort (out : List UnitId) (p : Nat) : Port :=
  if out.contains (.port p) then { Port.reset with en := false, disabled := true, st := .failed } else { Port.reset with st := .training }

/-- The module with power good and nothing running, its flash kept; the host's memory is no part of it (log 3). -/
def poweredOn (s : State) : State := { State.reset with flash := s.flash, host := s.host, tick := s.tick, agenda := s.agenda, cur := s.cur }

/-- The identity's value s at a boot, where the pattern of the SRAM can be corrected (R492). -/
def bootIdent (s : State) : Option (List Byte) := Config.pufCorrect (Config.sramPattern s.mgmt.boots) s.flash.helper

/-- A memory unit or the link, by the numbers that name one. -/
def memUnit (q : Nat × Nat) : UnitId :=
  match q.1 with
  | 0 => .hbm (q.2 % 8)
  | 1 => .lpddr (q.2 % 24)
  | _ => .cxl

/-- The memory units and the link that fail to train at this boot (R489 stage 6; log 83). -/
def bootFailures (s : State) : List UnitId := (Config.trainFailures s.mgmt.boots).map memUnit

/-- The stage of the last failure of a boot with a bank (R489, R490): training, the identity, units that the service map misses. -/
def failStage (s : State) : Nat :=
  if bootFailures s ≠ [] then 6 else if (bootIdent s).isNone then 5 else if s.flash.removed ≠ [] then 4 else 0

/-- Stages 3 to 7 with a bank. -/
def bootFrom (s : State) (isB : Bool) : State :=
  let b := s.flash.bank isB
  let out := ((Config.disabledUnits b.body).map configUnit ++ s.flash.removed ++ bootFailures s).eraseDups
  let leaf := resv s.flash
  let s1 := poweredOn s
  { s1 with
    mgmt := { s1.mgmt with ready := true, bankB := isB, svn := imgSvn b, meas := measured b.body, out := out, ident := bootIdent s,
                           idfail := (bootIdent s).isNone, unusable := decide (bootFailures s ≠ []), fail := failStage s, nextLeaf := leaf,
                           keyend := leafCount ≤ leaf, boots := s.mgmt.boots + 1 },
    fab := { s1.fab with ports := (List.range 48).map (fun p => (p, bootPort out p)) } }

/-- A boot with no bootable bank: RECOVERY, with the channel alone (R489 stage 2, R495). No management firmware runs, so no later stage
does: the identity is not reconstructed (log 83). -/
def bootRecovery (s : State) : State :=
  let s1 := poweredOn s
  let leaf := resv s.flash
  { s1 with
    mgmt := { s1.mgmt with ready := true, recovery := true, idfail := true, fail := 2, nextLeaf := leaf, keyend := leafCount ≤ leaf,
                           boots := s.mgmt.boots + 1 } }

/-- BOOT (R489), of a machine that is not READY. -/
def bootUp (s : State) : State :=
  if s.mgmt.ready then s
  else match bootBank s.flash with
    | none => bootRecovery s
    | some isB => bootFrom s isB

/-- BOOT (R489). -/
def execBoot (s : State) : Out := .next (bootUp s)

/-- Power lost: nothing survives but flash (25 R478; 29 R525). -/
def losePower (s : State) : State :=
  { poweredOn s with power := false, mgmt := { Mgmt.reset with boots := s.mgmt.boots } }

/-! ## Update and rollback (R495, R496) -/

/-- The image of `n` bytes at a host address, as a bank holds it. -/
def stagedBank (s : State) (a n : Nat) : ImageBank :=
  let bs := readBytes s.host a n
  let len := bitsOf (wordAt bs 0x08) 0 32
  { header := bs.take 64, body := (bs.drop 64).take len, sig := bs.drop (64 + len), valid := true }

/-- FWSTAGE: the inactive bank takes the image and verifies it; one that fails leaves the bank invalid. -/
def stage (c : Cmd) (s : State) : Verdict :=
  if c.a0.toNat % 4096 ≠ 0 then .refuse 8
  else
    let isB := !s.flash.activeB
    let b := stagedBank s c.a0.toNat c.a1.toNat
    if bootable s.flash b then .done { s with flash := s.flash.setBank isB b, mgmt := { s.mgmt with staged := some isB } }
    else .refuseWith 8 { s with flash := s.flash.setBank isB { b with valid := false }, mgmt := { s.mgmt with staged := none } }

/-- FWSTAGE (R495). -/
def execFwstage (c : Cmd) (s : State) : Out := .next (accept .firmware c (cmdReserved c 2 false) s (stage c))

/-- FWCOMMIT: the staged bank is active for the next boot; RAISE raises MINSVN. -/
def commitImage (s : State) : Verdict :=
  match s.mgmt.staged with
  | none => .refuse 8
  | some isB =>
    let b := s.flash.bank isB
    let raise := bitsOf (imgWord b 0x10) 0 1 = 1
    .done { s with flash := { s.flash with activeB := isB, minsvn := if raise then max s.flash.minsvn (imgSvn b) else s.flash.minsvn },
                   mgmt := { s.mgmt with staged := none } }

/-- FWCOMMIT (R495). -/
def execFwcommit (c : Cmd) (s : State) : Out := .next (accept .firmware c (cmdReserved c 0 false) s commitImage)

/-- FWROLLBACK: the other bank is active for the next boot, if it is bootable. A staged image stays staged (log 76). -/
def rollback (s : State) : Verdict :=
  let isB := !s.flash.activeB
  if !bootable s.flash (s.flash.bank isB) then .refuse 8
  else .done { s with flash := { s.flash with activeB := isB } }

/-- FWROLLBACK (R495). -/
def execFwrollback (c : Cmd) (s : State) : Out := .next (accept .firmware c (cmdReserved c 0 false) s rollback)

end Sys2Proof.Machine
end

