-- ==== Sys2Proof/Machine/SelfTest.lean ====
section
/-! DEFINITION. SelfTest: the post-transport self-test and its report (29 R519-R521, R523). -/

namespace Sys2Proof.Machine

/-- A test as it begins. -/
def newTest (c : Cmd) (s : State) : SelfTest :=
  { phase := 1, buf := c.a0.toNat, nonce := c.a2, seq := c.seq.toNat, ack := cmdAck c,
    corr0 := ((Tbl.get s.log.counters clsCorr).getD Counter.zero).count.toNat, start := s.now, began := s.now }

/-- SELFTEST's own checks and its start (R519). -/
def startTest (c : Cmd) (s : State) : Verdict :=
  if c.a0.toNat % 4096 ≠ 0 || c.a1.toNat < 3540 then .refuse 8
  else if s.ctxs.any (fun q => q.2.st ≠ .free) then .refuse 9
  else .later { s with mgmt := { s.mgmt with test := some (newTest c s) } }

/-- SELFTEST (R519). -/
def execSelftest (c : Cmd) (s : State) : Out := .next (accept .test c (cmdReserved c 3 false) s (startTest c))

/-- The units that a phase tests (R520). -/
def phaseUnits (phase : Nat) : List UnitId :=
  match phase with
  | 1 => (List.range 8).map .hbm
  | 2 => (List.range 24).map .lpddr
  | 3 => (List.range 48).map .port ++ [.cxl]
  | 4 => (List.range 192).map .core ++ (List.range 768).map .datapath
  | _ => (List.range 256).map .stackEngine

/-- The memories that a phase uses, cleared (R520). -/
def clearPhase (phase : Nat) (s : State) : State :=
  match phase with
  | 1 => { s with hbm := [] }
  | 2 => { s with mem := [], poison := [], l2 := [] }
  | 4 => { s with spad := [], full := [], acc := [], chip := [], spadPoison := [], accPoison := [] }
  | 5 => { s with hbm := [], mem := [], poison := [], l2 := [] }
  | _ => s

/-- Units removed at the end of a phase (R520, R523 cause 1). -/
def removeUnits (phase : Nat) (us : List UnitId) (s : State) : State :=
  match us with
  | [] => s
  | u :: r => removeUnits phase r (removeUnit s u 1 phase)

/-- The units that passed a phase return to the service map, which the next boot applies (R523). -/
def passUnits (phase : Nat) (failed : List UnitId) (s : State) : State :=
  { s with flash := { s.flash with removed := s.flash.removed.filter (fun u => !(phaseUnits phase).contains u || failed.contains u) } }

/-! ## The report (R521) -/

/-- A mask of units in service as bytes, bit k of the mask for unit k. -/
def okMask (s : State) (n : Nat) (u : Nat → UnitId) : List Byte :=
  (List.range (n / 8)).map (fun i => BitVec.ofNat 8
    (((List.range 8).filter (fun k => !s.mgmt.out.contains (u (8 * i + k)))).map (fun k => 2 ^ k)).sum)

/-- The bit of a unit in service. -/
def okBit (s : State) (u : UnitId) : Nat := if s.mgmt.out.contains u then 0 else 1

/-- VERDICT of the units alone: 2 for a memory unit or the link, 1 for any other out of service. -/
def unitVerdict (s : State) : Nat := if s.mgmt.out.any memoryUnit then 2 else if s.mgmt.out = [] then 0 else 1

/-- Bytes 0x000 to 0x0FF of the report. -/
def reportBody (s : State) (t : SelfTest) (verdict : Nat) : List Byte :=
  leBytes 8 (0x45485354 * 2 ^ 32 + 1) ++ leBytes 8 Config.serial.toNat ++ leBytes 8 t.nonce.toNat ++
  leBytes 8 (s.mgmt.svn % 2 ^ 32 * 2 ^ 32 + (s.now - t.start) / (Config.cyclesPerMicro * 1000000) % 2 ^ 16 * 2 ^ 16 + verdict) ++
  (s.mgmt.meas.getD 0 []) ++ okMask s 192 .core ++ okMask s 768 .datapath ++ okMask s 256 .stackEngine ++
  (okMask s 48 .port ++ leBytes 2 0) ++
  (okMask s 8 .hbm ++ okMask s 24 .lpddr ++ leBytes 4 (okBit s .cxl)) ++
  leBytes 8 ((((Tbl.get s.log.counters clsCorr).getD Counter.zero).count - BitVec.ofNat 32 t.corr0).toNat) ++ leBytes 16 0

/-- The seconds that a phase takes (R520). -/
def phaseSeconds (phase : Nat) : Nat :=
  match phase with
  | 1 => 180
  | 2 => 240
  | 4 => 120
  | _ => 60

/-- A phase has taken its time. -/
def phaseOver (s : State) (t : SelfTest) : Bool := t.began + phaseSeconds t.phase * 1000000 * Config.cyclesPerMicro ≤ s.now

/-- The units of a phase that failed, in the order of the channels by which they report (25 R483). -/
def phaseBad (phase : Nat) (failed : List UnitId) : List UnitId :=
  (List.range 76).flatMap (fun k => (phaseUnits phase).filter (fun u => unitChannel u = k && failed.contains u))

/-- A phase ends, its time over, with the units of it that failed; after the last the report is firmware's to make (R520, R521). -/
def phaseEnd (failed : List UnitId) (s : State) : State :=
  match s.mgmt.test with
  | none => s
  | some t =>
    if 5 < t.phase || !phaseOver s t then s
    else
      let bad := phaseBad t.phase failed
      let s1 := passUnits t.phase bad (removeUnits t.phase bad (clearPhase t.phase s))
      let t1 := { t with phase := t.phase + 1, began := s.now }
      let s2 := { s1 with mgmt := { s1.mgmt with test := some t1 } }
      if t.phase < 5 then s2 else { s2 with mgmt := { s2.mgmt with jobs := s2.mgmt.jobs ++ [.report t1] } }

end Sys2Proof.Machine
end

