-- ==== Sys2Proof/Machine/Attest.lean ====
section
/-! DEFINITION. Attest: the work of management firmware in order of arrival: SPDM answers and the report of a self-test, each signature
with a leaf reserved before it is used (26 R493, R494; 29 R521). One piece of work is one event, so that power may be lost between the
write of a key-state slot, its end, and the signature. -/

namespace Sys2Proof.Machine

/-! ## What the answers say (R494; log 122) -/

/-- The measurement blocks that an index names: 1 to 4 for slots 0 to 3; all of them; none, with their number alone. -/
def measBody (s : State) (index : Nat) : SpdmBody :=
  let all := (List.range 4).map (fun i => (i + 1, s.mgmt.meas.getD i []))
  if index = 0 then .measurements 4 []
  else if index = 0xFF then .measurements 4 all
  else if index ≤ 4 then .measurements 4 (all.filter (fun q => q.1 = index))
  else .error .invalidRequest

/-- What the answer to a request says where nothing forbids it. -/
def spdmBody (s : State) (r : SpdmReq) : SpdmBody :=
  match r with
  | .getVersion => .version 1 2
  | .getCapabilities => .capabilities true true true
  | .negotiateAlgorithms => .algorithms true Config.hssRegistry
  | .getDigests => .digests (sha256 s.flash.cert)
  | .getCertificate => .certificate s.flash.cert
  | .challenge _ => .challengeAuth (sha256 s.flash.cert)
  | .getMeasurements _ index _ => measBody s index

/-- An index that has an answer: a slot's, all of them, or their number. -/
def measIndexOk (index : Nat) : Bool := index ≤ 4 || index = 0xFF

/-- The nonce of a request whose answer is signed. -/
def signedNonce (r : SpdmReq) : Option (List Byte) :=
  match r with
  | .challenge nonce => some nonce
  | .getMeasurements true index nonce => if measIndexOk index then some nonce else none
  | _ => none

/-- A request for a signature: CHALLENGE, and GET_MEASUREMENTS that asks for one, whatever its index. -/
def asksSignature (r : SpdmReq) : Bool :=
  match r with
  | .challenge _ => true
  | .getMeasurements signed _ _ => signed
  | _ => false

/-- The bytes that a body carries. -/
def bodyBytes (b : SpdmBody) : List Byte :=
  match b with
  | .digests c => c
  | .certificate c => c
  | .challengeAuth c => c
  | .measurements _ bs => bs.flatMap (fun q => q.2)
  | _ => []

/-- An answer sent. -/
def answered (s : State) (b : SpdmBody) (leaf : Option Nat) (sig : List Byte) : State :=
  { s with mgmt := { s.mgmt with spdm := some { body := b, leaf := leaf, sig := sig } } }

/-- A signed answer, with the next leaf. -/
def answerSigned (s : State) (b : SpdmBody) (nonce : List Byte) : State :=
  let q := s.mgmt.nextLeaf
  answered { s with mgmt := useLeaf s.mgmt } b (some q) (signWith s.mgmt q (Config.spdmSigned nonce (bodyBytes b)))

/-- A request answered: with IDFAIL or KEYEND every request for a signature has ERROR Unspecified. -/
def answerSpdm (s : State) (r : SpdmReq) : State :=
  if asksSignature r && noSigning s.mgmt then answered s (.error .unspecified) none []
  else match signedNonce r with
    | none => answered s (spdmBody s r) none []
    | some nonce => answerSigned s (spdmBody s r) nonce

/-! ## The report (29 R521) -/

/-- The report written; then the DONE of the command. With IDFAIL or KEYEND its signature is zero and its verdict 2. -/
def writeReport (s : State) (t : SelfTest) : State :=
  let q := s.mgmt.nextLeaf
  let none := noSigning s.mgmt
  let body := reportBody s t (if none then 2 else unitVerdict s)
  let sig := if none then List.replicate 3284 0 else signWith s.mgmt q body
  let m := if none then s.mgmt else useLeaf s.mgmt
  let s1 := { s with host := writeBytes s.host t.buf (body ++ sig), mgmt := { m with test := Option.none } }
  if t.ack then emit (event evDone 0 0 t.seq 0 0) s1 else s1

/-! ## The work, in order -/

/-- A job signs. -/
def jobSigns (m : Mgmt) (j : FwJob) : Bool :=
  !noSigning m && (match j with | .spdm r => (signedNonce r).isSome | .report _ => true)

/-- A job done. -/
def doJob (s : State) (j : FwJob) : State :=
  match j with
  | .spdm r => answerSpdm s r
  | .report t => writeReport s t

/-- The next piece of work: the write of a key-state slot begins, and until it ends that slot is not valid; it ends; a job is done with a
leaf reserved. -/
def firmwareWork (s : State) : State :=
  match s.mgmt.slotWrite, s.mgmt.jobs with
  | some k, _ => { s with flash := putSlot s.flash k, mgmt := { s.mgmt with slotWrite := none } }
  | none, [] => s
  | none, j :: r =>
    if jobSigns s.mgmt j && resv s.flash ≤ s.mgmt.nextLeaf then
      { s with flash := putSlot s.flash { nextSlot s.flash with valid := false }, mgmt := { s.mgmt with slotWrite := some (nextSlot s.flash) } }
    else doJob { s with mgmt := { s.mgmt with jobs := r } } j

/-- A job that arrives: the work on it begins at once if there is no other. -/
def firmwareJob (s : State) (j : FwJob) : State :=
  let s1 := { s with mgmt := { s.mgmt with jobs := s.mgmt.jobs ++ [j] } }
  if s.mgmt.jobs = [] then firmwareWork s1 else s1

/-- SPDM_REQUEST (R494): answered once the module is READY. -/
def execSpdmRequest (r : SpdmReq) (s : State) : Out := .next (if s.mgmt.ready then firmwareJob s (.spdm r) else s)

/-- SELFTEST_PHASE_END (29 R520, R521). -/
def execSelftestPhaseEnd (failed : List UnitId) (s : State) : Out := .next (phaseEnd failed s)

end Sys2Proof.Machine
end

