-- ==== Sys2Proof/Machine/CrossLane.lean ====
section
/-! DEFINITION. CrossLane: shuffles, votes, reductions over the fixed pairwise tree, scans, and the readers of identity and activity
(12 R258-R266; 06 R169, R170). -/

namespace Sys2Proof.Machine

/-- Lane `l` executes. -/
def Iss.execs (i : Iss) (l : Nat) : Bool := hasLane i.ex l

/-- What a reader receives from source lane `q` of the team: its value, or 0, with PSN when the lane is dead (R259). -/
def fromLane (i : Iss) (q : Nat) (v : Nat → Word) : LaneOut :=
  if i.m.width ≤ q then .word 0
  else if i.execs q then .word (v q)
  else .flagged 0 (flagIf (hasLane i.m.dead q) fPSN)

/-- The group position SHFL reads from, if any: minors get, rot, shift, xor (R260). -/
def shflPos (f g p : Nat) (n : Word) : Option Nat :=
  match f with
  | 0 => some (n.toNat % g)
  | 1 => some ((p + n.toNat) % g)
  | 2 =>
    let j : Int := (p : Int) + n.toInt
    if j < 0 || (g : Int) ≤ j then none else some j.toNat
  | _ => some (p ^^^ (n.toNat % g))

/-- SHFL (R260). -/
def laneShfl (i : Iss) (op : Op) (l : Nat) : LaneOut :=
  let g := 32 * 2 ^ op.o.rm.toNat
  match shflPos op.o.f.toNat g (l % g) (i.bv op l) with
  | none => .word 0
  | some j => fromLane i (l / g * g + j) (i.a op)

/-- BCAST (R264). -/
def laneBcast (i : Iss) (op : Op) (l : Nat) : LaneOut := fromLane i (i.bv op l).toNat (i.a op)

/-- The executing lanes whose bit 0 of a is set. -/
def voteLanes (i : Iss) (op : Op) : List Nat := i.lanes.filter (fun l => (i.a op l).getLsbD 0)

/-- Word j of a set of lanes (01 R18). -/
def maskWord (m : Mask) (j : Nat) : Word := m.extractLsb' (32 * j) 32

/-- VOTE (R261). -/
def laneVote (i : Iss) (op : Op) (l : Nat) : LaneOut :=
  let v := voteLanes i op
  match op.o.f.toNat with
  | 0 => .word (boolWord (v ≠ []))
  | 1 => .word (boolWord (v.length = i.lanes.length))
  | 2 => .word (boolWord (i.lanes.all (fun k => i.a op k = i.a op i.leader)))
  | 3 => .word (maskWord (maskOf v) (l / 32))
  | _ => .word (BitVec.ofNat 32 v.length)

/-! ## Trees (R169, R170) -/

/-- A node of a floating tree: its value and the flags of every add below it. -/
structure Node where
  val : Word
  fl : BitVec 8
deriving DecidableEq, Repr

/-- The sum of two nodes, rounded under rm. -/
def Node.add (rm : Nat) (a b : Node) : Node :=
  let r := fAdd fp32 rm (f32 a.val) (f32 b.val)
  { val := BitVec.ofNat 32 r.code, fl := a.fl ||| b.fl ||| r.fl }

/-- The greater of two nodes by the rule of FMAX (R246). -/
def Node.max (a b : Node) : Node :=
  let r := fMinMax true false a.val b.val
  { val := BitVec.ofNat 32 r.code, fl := a.fl ||| b.fl ||| r.fl }

/-- One level of a tree from the level below. -/
def pairUp (g : Node → Node → Node) (ns : List Node) : List Node :=
  match ns with
  | a :: b :: r => g a b :: pairUp g r
  | l => l

/-- The levels of a tree, leaves first. -/
def treeLevels (g : Node → Node → Node) (fuel : Nat) (ns : List Node) : List (List Node) :=
  match fuel with
  | 0 => [ns]
  | fuel + 1 => ns :: treeLevels g fuel (pairUp g ns)

/-- The least k with n at most 2^k. -/
def log2Up (n : Nat) : Nat := ((List.range 11).find? (fun k => n ≤ 2 ^ k)).getD 11

/-- The leaves of a team's tree: a of executing lanes, the identity elsewhere, up to a power of two. -/
def treeLeaves (i : Iss) (op : Op) (ident : Word) : List Node :=
  (List.range (2 ^ log2Up i.m.width)).map (fun l => { val := if i.execs l then i.a op l else ident, fl := 0 })

/-- A node that stands for nothing. -/
def Node.none : Node := { val := 0, fl := 0 }

/-- The root of a team's tree. -/
def treeRoot (i : Iss) (op : Op) (ident : Word) (g : Node → Node → Node) : Node :=
  (((treeLevels g (log2Up i.m.width) (treeLeaves i op ident)).getLast?).bind (fun l => l.head?)).getD Node.none

/-- The nodes of the aligned blocks of [0, n), largest first, from level k down. -/
def prefixNodes (levels : List (List Node)) (n k pos : Nat) : List Node :=
  match k with
  | 0 => []
  | k + 1 =>
    if n.testBit k then ((levels.getD k []).getD (pos / 2 ^ k) Node.none) :: prefixNodes levels n k (pos + 2 ^ k)
    else prefixNodes levels n k pos

/-- A single leaf as a result: a NaN is canonical and a signalling one raises NV (06 R151). -/
def Node.alone (n : Node) : Node :=
  match f32 n.val with
  | .nan g => { val := 0x7FC00000, fl := n.fl ||| flagIf g fNV }
  | _ => n

/-- The sum of [0, n) as R170 builds it; +0 for n = 0. -/
def prefixSum (rm : Nat) (levels : List (List Node)) (n : Nat) : Node :=
  match prefixNodes levels n 11 0 with
  | [] => Node.none
  | [a] => if n = 1 then a.alone else a
  | a :: r => r.foldl (Node.add rm) a

/-! ## Reductions and scans -/

/-- The identity of a REDUX minor (R262). -/
def reduxIdent (f : Nat) : Word :=
  match f with
  | 1 => 0x7FFFFFFF
  | 2 => 0x80000000
  | 3 => 0xFFFFFFFF
  | 6 => 0x80000000
  | 7 => 0xFF800000
  | _ => 0

/-- The integer operation of a REDUX minor: add, min, max, and, or, xor. -/
def reduxInt (f : Nat) (a b : Word) : Word :=
  match f with
  | 0 => a + b
  | 1 => if a.slt b then a else b
  | 2 => if a.slt b then b else a
  | 3 => a &&& b
  | 4 => a ||| b
  | _ => a ^^^ b

/-- REDUX (R262). -/
def laneRedux (i : Iss) (op : Op) (_l : Nat) : LaneOut :=
  let f := op.o.f.toNat
  if f = 6 then
    let n := treeRoot i op (reduxIdent 6) (Node.add op.o.rm.toNat)
    .flagged n.val n.fl
  else if f = 7 then
    let n := treeRoot i op (reduxIdent 7) Node.max
    .flagged n.val n.fl
  else .word (i.lanes.foldl (fun v l => reduxInt f v (i.a op l)) (reduxIdent f))

/-- The sum of a over the executing lanes below n. -/
def intPrefix (i : Iss) (op : Op) (n : Nat) : Word :=
  (i.lanes.filter (fun l => l < n)).foldl (fun v l => v + i.a op l) 0

/-- The node SCAN gives a lane: minor 2 inclusive, 3 exclusive. -/
def scanNode (i : Iss) (op : Op) (l : Nat) : Node :=
  let rm := op.o.rm.toNat
  prefixSum rm (treeLevels (Node.add rm) (log2Up i.m.width) (treeLeaves i op 0x80000000))
    (if op.o.f.toNat = 2 then l + 1 else l)

/-- The flags of a floating SCAN, raised once: those of every add whose result reaches an executing lane (R263). -/
def scanFlags (i : Iss) (op : Op) : BitVec 8 := i.lanes.foldl (fun f l => f ||| (scanNode i op l).fl) 0

/-- SCAN (R263). -/
def laneScan (i : Iss) (op : Op) (l : Nat) : LaneOut :=
  match op.o.f.toNat with
  | 0 => .word (intPrefix i op (l + 1))
  | 1 => .word (intPrefix i op l)
  | _ => .flagged (scanNode i op l).val (scanFlags i op)

/-! ## Identity and activity -/

/-- ACT (R265). -/
def laneAct (_i : Iss) (_op : Op) (_l : Nat) : LaneOut := .word 1

/-- MASKW (R265). -/
def laneMaskw (i : Iss) (op : Op) (l : Nat) : LaneOut :=
  let j := (i.av op l).toNat
  .word (if i.m.width / 32 ≤ j then 0 else maskWord i.p.mask j)

/-- The cycle count that a split reads: one count gives both halves, so that the half read second is of the count read first (R266; DESIGN
CHOICE, log 114). -/
def cycleCount (s : State) (p : Split) (sel : Nat) : Nat :=
  match p.cyc with
  | some (q, n) => if q = sel then n else s.now
  | none => s.now

/-- A split that has read one half of a count keeps the count for the other. -/
def keepCount (now sel : Nat) (p : Split) : Split :=
  { p with cyc := if p.cyc.any (fun c => c.1 = sel) then none else some (41 - sel, now) }

/-- The value of a GETS selector in a lane (R266). -/
def getsValue (s : State) (i : Iss) (sel l : Nat) : Nat :=
  let r := i.l.lr
  match sel with
  | 0 => l
  | 1 => i.t
  | 2 => r.width
  | 3 => (liveTeams i.k).length
  | 4 => i.k.lin % r.gridx
  | 5 => i.k.lin / r.gridx % r.gridy
  | 6 => i.k.lin / (r.gridx * r.gridy)
  | 7 => i.k.lin % 2 ^ 32
  | 8 => i.k.lin / 2 ^ 32
  | 9 => i.k.pos
  | 10 => r.param.toNat % 2 ^ 32
  | 11 => r.param.toNat / 2 ^ 32
  | 12 => i.k.core
  | 13 => i.k.core / Config.coresPerCluster
  | 14 => i.k.spgen
  | 15 => i.k.spbase
  | 16 => (maskWord i.m.ex (l / 32)).toNat
  | 17 => (maskWord i.m.dead (l / 32)).toNat
  | 18 => ((List.range 32).filter (fun j => maskWord i.m.dead j ≠ 0)).foldl (fun v j => v + 2 ^ j) 0
  | 19 => i.e
  | 20 => cycleCount s i.p 20 % 2 ^ 32
  | _ => cycleCount s i.p 21 / 2 ^ 32

/-- GETS in a lane. -/
def laneGets (s : State) (i : Iss) (op : Op) (l : Nat) : LaneOut :=
  .word (BitVec.ofNat 32 (getsValue s i op.o.b.toNat l))

/-- GETS (R266). -/
def getsOp (op : Op) (s : State) : Out :=
  if op.o.b.toNat = 20 || op.o.b.toNat = 21 then
    issue op [] s (fun i s1 => i.complete op (onSplit s1 i.b i.t i.e (keepCount s1.now op.o.b.toNat)) (laneGets s1 i op))
  else laneOp op s (laneGets s)

/-! ## The instructions -/

/-- SHFL_W32 (R260). -/
def execShflW32 (o : WOps) (s : State) : Out := laneOp (opW 0x50 o) s laneShfl

/-- SHFL_L64 (R260). -/
def execShflL64 (o : LOps) (s : State) : Out := laneOp (opL 0x50 o) s laneShfl

/-- VOTE_W32 (R261). -/
def execVoteW32 (o : WOps) (s : State) : Out := laneOp (opW 0x51 o) s laneVote

/-- VOTE_L64 (R261). -/
def execVoteL64 (o : LOps) (s : State) : Out := laneOp (opL 0x51 o) s laneVote

/-- REDUX_W32 (R262). -/
def execReduxW32 (o : WOps) (s : State) : Out := laneOp (opW 0x52 o) s laneRedux

/-- REDUX_L64 (R262). -/
def execReduxL64 (o : LOps) (s : State) : Out := laneOp (opL 0x52 o) s laneRedux

/-- SCAN_W32 (R263). -/
def execScanW32 (o : WOps) (s : State) : Out := laneOp (opW 0x53 o) s laneScan

/-- SCAN_L64 (R263). -/
def execScanL64 (o : LOps) (s : State) : Out := laneOp (opL 0x53 o) s laneScan

/-- GETS_W32 (R266). -/
def execGetsW32 (o : WOps) (s : State) : Out := getsOp (opW 0x54 o) s

/-- GETS_L64 (R266). -/
def execGetsL64 (o : LOps) (s : State) : Out := getsOp (opL 0x54 o) s

/-- ACT_W32 (R265). -/
def execActW32 (o : WOps) (s : State) : Out := laneOp (opW 0x55 o) s laneAct

/-- ACT_L64 (R265). -/
def execActL64 (o : LOps) (s : State) : Out := laneOp (opL 0x55 o) s laneAct

/-- MASKW_W32 (R265). -/
def execMaskwW32 (o : WOps) (s : State) : Out := laneOp (opW 0x56 o) s laneMaskw

/-- MASKW_L64 (R265). -/
def execMaskwL64 (o : LOps) (s : State) : Out := laneOp (opL 0x56 o) s laneMaskw

/-- BCAST_W32 (R264). -/
def execBcastW32 (o : WOps) (s : State) : Out := laneOp (opW 0x57 o) s laneBcast

/-- BCAST_L64 (R264). -/
def execBcastL64 (o : LOps) (s : State) : Out := laneOp (opL 0x57 o) s laneBcast

end Sys2Proof.Machine
end

