-- ==== Sys2Proof/Machine/Memory.lean ====
section
/-! DEFINITION. Memory: loads, stores, atomics, fences, hints and flushes (12 R267-R278; 03 R79, R82, R83, R102). -/

namespace Sys2Proof.Machine

/-- The effective address of a lane (R267). -/
def effAddr (i : Iss) (op : Op) (l : Nat) : Nat := (i.a64 op l + (op.o.lit.getD 0).signExtend 64).toNat

/-- The space of a memory instruction (R71). -/
def Op.space (op : Op) : Nat := op.o.rm.toNat

/-- Who stores: space 1 is outside shadows and the ordering detector (log 12). -/
def Iss.writer (i : Iss) (space : Nat) (counted : Bool) : Writer :=
  { b := if space = 1 then none else some i.b, t := i.t, counted := counted }

/-- The shadow an access of a space reads through (25 R472, log 12). -/
def Iss.view (i : Iss) (s : State) (space : Nat) : Shadow := if space = 1 then Shadow.empty else shadowOf s i.b

/-- A store at a place has room in its unit's shadow (25 R472). -/
def storeRoom (s : State) (w : Writer) (p : Phys) : Bool :=
  match p, w.b with
  | .cap pa, some b => shadowRoom s b pa
  | _, _ => true

/-! ## Loads and stores -/

/-- Bytes of a size minor of LD (R269). -/
def ldBytes (f : Nat) : Nat :=
  match f with
  | 0 => 1
  | 1 => 1
  | 2 => 2
  | 3 => 2
  | 4 => 4
  | 5 => 8
  | _ => 16

/-- What LD writes for the bytes it read (R269). -/
def ldValue (f v : Nat) : BitVec 128 :=
  match f with
  | 1 => ((BitVec.ofNat 8 v).signExtend 32).zeroExtend 128
  | 3 => ((BitVec.ofNat 16 v).signExtend 32).zeroExtend 128
  | _ => BitVec.ofNat 128 v

/-- The line of a scratchpad place is full (03 R78). -/
def lineFull (s : State) (p : Phys) : Bool :=
  match p with
  | .spad a => s.full.contains (a / 128)
  | _ => true

/-- One lane of LD: under .fe it waits for its line (R79). -/
def ldPerform (i : Iss) (op : Op) (s : State) (q : LaneAcc) (p : Phys) : Option Did :=
  if op.o.b.toNat = 1 && !lineFull s p then none
  else
    let v := readPhys s (i.view s op.space) p (ldBytes op.o.f.toNat)
    some { s := touch s p false, rec? := [],
           ws := i.dstWrites op.o.d q.lane (wordsOf op.dstExtent (ldValue op.o.f.toNat v)) }

/-- LD (R269). -/
def execLd (op : Op) (s : State) : Out :=
  issue op [] s (fun i s =>
    let n := ldBytes op.o.f.toNat
    memIssue i op s n n needR (i.accs (effAddr i op) (fun ea l => targetOf s i op.space ea n l true false)) (ldPerform i op))

/-- Bytes of a size minor of ST (R270). -/
def stBytes (f : Nat) : Nat := 2 ^ f

/-- The data a lane stores (R270). -/
def stData (i : Iss) (op : Op) (l : Nat) : Nat :=
  match op.o.f.toNat with
  | 3 => (i.c64 op l).toNat
  | 4 => (i.src128 op.o.c l).toNat
  | _ => (i.c op l).toNat

/-- One lane of ST. -/
def stPerform (i : Iss) (op : Op) (s : State) (q : LaneAcc) (p : Phys) : Option Did :=
  let w := i.writer op.space true
  let bs := leBytes (stBytes op.o.f.toNat) (stData i op q.lane)
  if !storeRoom s w p then none
  else some { s := writePhys s w p bs, ws := [], rec? := [sigRecord q.ea bs op.space] }

/-- ST (R270). -/
def execStOp (op : Op) (s : State) : Out :=
  issue op [] s (fun i s =>
    let n := stBytes op.o.f.toNat
    memIssue i op s n 0 needW (i.accs (effAddr i op) (fun ea l => targetOf s i op.space ea n l false true)) (stPerform i op))

/-- The value a lane of LDV reads. -/
def ldvValue (i : Iss) (op : Op) (s : State) (l : Nat) : BitVec 128 :=
  match placeOf s i.l.ctx (targetOf s i 0 (effAddr i op l) (ldBytes op.o.f.toNat) l false false) with
  | none => 0
  | some p => BitVec.ofNat 128 (readPhys s (shadowOf s i.b) p (ldBytes op.o.f.toNat))

/-- Every place of a list touched by a read. -/
def touchAll (s : State) (ps : List (Option Phys)) : State :=
  match ps with
  | [] => s
  | none :: r => touchAll s r
  | some p :: r => touchAll (touch s p false) r

/-- The lanes of LDV to which the read delivers poison (25 R470). -/
def ldvDead (i : Iss) (op : Op) (s : State) : List Nat :=
  i.lanes.filter (fun l =>
    (placeOf s i.l.ctx (targetOf s i 0 (effAddr i op l) (ldBytes op.o.f.toNat) l false false)).any
      (fun p => poisoned s (shadowOf s i.b) p (ldBytes op.o.f.toNat)))

/-- LDV: every page first, then every lane reads at once (R271, R102); lanes that read poison die, and the others complete (25 R471). -/
def execLdv (op : Op) (s : State) : Out :=
  issue op [] s (fun i s =>
    let n := ldBytes op.o.f.toNat
    let qs := i.accs (effAddr i op) (fun ea l => targetOf s i 0 ea n l false false)
    match if i.passed then none else addrTrap n qs with
    | some r => i.trap s r
    | none => i.translated s (qs.map (fun q => { lane := q.lane, tgt := q.tgt, need := needR })) (fun s =>
        i.afterDeaths (ldvDead i op s) (touchAll s (qs.map (fun q => placeOf s i.l.ctx q.tgt))) (fun s1 =>
          (i.without (ldvDead i op s)).complete op s1 (fun l => { val := ldvValue i op s l, fl := 0 }))))

/-! ## Atomics (R272-R274) -/

/-- The new value of ATOM: none where nothing is written. -/
def atomNew (f : Nat) (old : Word) (c : Word) (c1 : Word) : Option Word :=
  match f with
  | 0 => some (old + c)
  | 1 => some (if c.slt old then c else old)
  | 2 => some (if old.slt c then c else old)
  | 3 => some (if c.ult old then c else old)
  | 4 => some (if old.ult c then c else old)
  | 5 => some (old &&& c)
  | 6 => some (old ||| c)
  | 7 => some (old ^^^ c)
  | 8 => some c
  | 9 => if old = c then some c1 else none
  | 10 => some (BitVec.ofNat 32 (fAdd fp32 0 (f32 old) (f32 c)).code)
  | 11 =>
    let h := fun (k : Nat) => (fAdd bf16 0 (decodeIeee bf16 (bitsOf old.toNat (16 * k) 16)) (decodeIeee bf16 (bitsOf c.toNat (16 * k) 16))).code
    some (BitVec.ofNat 32 (h 1 * 65536 + h 0))
  | 12 => some (if c.ule old then 0 else old + 1)
  | _ => some (if old = 0 || c.ult old then c else old - 1)

/-- The new value of ATOM64. -/
def atom64New (f : Nat) (old c c1 : DWord) : Option DWord :=
  match f with
  | 0 => some (old + c)
  | 1 => some c
  | 2 => if old = c then some c1 else none
  | 3 => some (if c.ult old then c else old)
  | _ => some (if old.ult c then c else old)

/-- One lane of an atomic of `n` bytes: read, compute, write, return the old value. -/
def atomPerform (i : Iss) (op : Op) (n : Nat) (counted : Bool) (new : Nat → Nat → Option Nat) (s : State) (q : LaneAcc)
    (p : Phys) : Option Did :=
  let w := i.writer op.space counted
  let old := readPhys s (shadowOf s i.b) p n
  let ws := i.dstWrites op.o.d q.lane (wordsOf op.dstExtent (BitVec.ofNat 128 old))
  match new q.lane old with
  | none => some { s := touch s p false, ws := ws, rec? := [] }
  | some v =>
    if !storeRoom s w p then none
    else some { s := writePhys s w p (leBytes n v), ws := ws, rec? := [sigRecord q.ea (leBytes n v) op.space] }

/-- An atomic over `n` bytes. -/
def execAtomic (op : Op) (s : State) (n : Nat) (counted : Bool) (new : Iss → Nat → Nat → Option Nat) : Out :=
  issue op [] s (fun i s =>
    memIssue i op s n n needRW (i.accs (effAddr i op) (fun ea l => targetOf s i op.space ea n l false true))
      (atomPerform i op n counted (new i)))

/-- The new value of a lane of ATOM. -/
def atomLane (op : Op) (i : Iss) (l old : Nat) : Option Nat :=
  let f := op.o.f.toNat
  let cs := if f = 9 then i.srcs op.o.c l 2 else [i.c op l, 0]
  (atomNew f (BitVec.ofNat 32 old) (cs.getD 0 0) (cs.getD 1 0)).map BitVec.toNat

/-- The new value of a lane of ATOM64. -/
def atom64Lane (op : Op) (i : Iss) (l old : Nat) : Option Nat :=
  let f := op.o.f.toNat
  let c1 : DWord := if f = 2 then (i.src128 op.o.c l).extractLsb' 64 64 else 0
  (atom64New f (BitVec.ofNat 64 old) (i.c64 op l) c1).map BitVec.toNat

/-! ## Hints and flushes -/

/-- The unit a hint names: its line, or its sector (R276). -/
def hintKey (f : Nat) (p : Phys) : Option (Nat × Nat) :=
  match p with
  | .cap pa => some (0, if f = 0 then pa / 128 else pa / 2048)
  | .sys pa => some (1, pa / 128)
  | _ => none

/-- A pin asked for (03 R82). -/
def pinSector (s : State) (x pa : Nat) : State :=
  let c := ctxOf s x
  let o := Tbl.get s.hbm (hbmSet pa)
  let held := (o.map (fun q => q.pin)).getD none
  if held = some x && hbmResident s pa then s
  else if held = none && c.pins < c.pinmax then
    let s1 := hbmFill s pa false
    match Tbl.get s1.hbm (hbmSet pa) with
    | none => s1
    | some q => putCtx { s1 with hbm := Tbl.put s1.hbm (hbmSet pa) { q with pin := some x } } x { c with pins := c.pins + 1 }
  else bumpCtx x 4 s

/-- A pin given up (03 R82). -/
def unpinSector (s : State) (x pa : Nat) : State :=
  match Tbl.get s.hbm (hbmSet pa) with
  | none => s
  | some q =>
    if q.tag = hbmTag pa && q.pin = some x then
      putCtx { s with hbm := Tbl.put s.hbm (hbmSet pa) { q with pin := none } } x { ctxOf s x with pins := (ctxOf s x).pins - 1 }
    else s

/-- One hint at a place (03 R82). -/
def hintAt (s : State) (x f : Nat) (p : Phys) : State :=
  match p with
  | .cap pa =>
    match f with
    | 0 => touch s p false
    | 1 => hbmFill s pa false
    | 2 => pinSector s x pa
    | _ => unpinSector s x pa
  | .sys _ => touch s p false
  | _ => s

/-- The hints of the lanes, each unit once; a page that does not translate for a read drops its own (03 R82). -/
def hintAll (s : State) (x f : Nat) (seen : List (Nat × Nat)) (ts : List Target) : State :=
  match ts with
  | [] => s
  | t :: r =>
    match reachTarget s x [] needR t with
    | .go p =>
      match hintKey f p with
      | none => hintAll s x f seen r
      | some k => if seen.contains k then hintAll s x f seen r else hintAll (hintAt s x f p) x f (k :: seen) r
    | _ => hintAll s x f seen r

/-- The target of a hint: an address in a map has no effect (04 R107). -/
def hintTarget (s : State) (i : Iss) (space ea : Nat) : Target :=
  let c := ctxOf s i.l.ctx
  if ea < 2 ^ 56 && (inTlmap c ea || inSbmap c ea) then .direct (.tlmap i.l.ctx 0)
  else if 2 ^ 56 ≤ ea then .barred else .virt ea (space = 5)

/-- LDHINT (R276). -/
def execLdhint (op : Op) (s : State) : Out :=
  issue op [] s (fun i s =>
    let qs := i.accs (effAddr i op) (fun ea _ => hintTarget s i op.space ea)
    match addrTrap 1 qs with
    | some r => i.trap s r
    | none => i.plain op (hintAll s i.l.ctx op.o.f.toNat [] (qs.map (fun q => q.tgt))))

/-- A line written back from L2, and with `drop` removed from it (R277). -/
def flushLine (s : State) (p : Phys) (drop : Bool) : State :=
  match l2Line p with
  | none => s
  | some n =>
    match Tbl.get s.l2 n with
    | none => s
    | some dirty =>
      let s1 := match p with
        | .cap pa => if dirty then hbmFill s pa true else s
        | _ => s
      { s1 with l2 := if drop then Tbl.del s1.l2 n else Tbl.put s1.l2 n false }

/-- CFLUSH: minor 0 writes back, 1 invalidates (R277). -/
def execCflush (op : Op) (s : State) : Out :=
  issue op [] s (fun i s =>
    memIssue i op s 1 0 needR (i.accs (effAddr i op) (fun ea l => targetOf s i op.space ea 1 l true false))
      (fun s _ p => some { s := flushLine s p (op.o.f.toNat = 1), ws := [], rec? := [] }))

/-! ## The instructions -/

/-- LD_W32 (R269). -/
def execLdW32 (o : WOps) (s : State) : Out := execLd (opW 0x60 o) s

/-- LD_L64 (R269). -/
def execLdL64 (o : LOps) (s : State) : Out := execLd (opL 0x60 o) s

/-- ST (R270). -/
def execSt (o : LOps) (s : State) : Out := execStOp (opL 0x61 o) s

/-- ATOM (R272). -/
def execAtom (o : LOps) (s : State) : Out := execAtomic (opL 0x62 o) s 4 (8 ≤ o.f.toNat) (atomLane (opL 0x62 o))

/-- ATOM64 (R273). -/
def execAtom64 (o : LOps) (s : State) : Out := execAtomic (opL 0x63 o) s 8 (o.f.toNat = 1 || o.f.toNat = 2) (atom64Lane (opL 0x63 o))

/-- FENCE (R275). -/
def execFence (o : LOps) (s : State) : Out := issue (opL 0x64 o) [] s (fun i s => i.plain (opL 0x64 o) s)

/-- LDHINT_W32 (R276). -/
def execLdhintW32 (o : WOps) (s : State) : Out := execLdhint (opW 0x6B o) s

/-- LDHINT_L64 (R276). -/
def execLdhintL64 (o : LOps) (s : State) : Out := execLdhint (opL 0x6B o) s

/-- CFLUSH_W32 (R277). -/
def execCflushW32 (o : WOps) (s : State) : Out := execCflush (opW 0x6C o) s

/-- CFLUSH_L64 (R277). -/
def execCflushL64 (o : LOps) (s : State) : Out := execCflush (opL 0x6C o) s

/-- LDV_W32 (R271). -/
def execLdvW32 (o : WOps) (s : State) : Out := execLdv (opW 0x6D o) s

/-- LDV_L64 (R271). -/
def execLdvL64 (o : LOps) (s : State) : Out := execLdv (opL 0x6D o) s

end Sys2Proof.Machine
end

