-- ==== Sys2Proof/Machine/CurdOps.lean ====
section
/-! DEFINITION. CurdOps: curds in a team's registers, and publishing tiles: CENC, CDEC, TSET (14 R323-R327). -/

namespace Sys2Proof.Machine

/-- The whey of the instruction is BF16 (R309). -/
def Op.bfWhey (op : Op) : Bool := op.o.sc.toNat = 1

/-- The ternary form. -/
def Op.ternary (op : Op) : Bool := op.o.f.toNat = 1

/-- Words of an image: 9 or 14 (R323). -/
def imageWords (tern : Bool) : Nat := if tern then 14 else 9

/-- The groups of 256 lanes that hold an executing lane. -/
def Iss.groups (i : Iss) : List Nat := (List.range 4).filter (fun g => i.lanes.any (fun l => l / curdLen = g))

/-- The executing lanes of a group. -/
def Iss.curdLanes (i : Iss) (g : Nat) : List Nat := i.lanes.filter (fun l => l / curdLen = g)

/-! ## CENC (R323, R324) -/

/-- The value lane j of a group brings. -/
def cencValue (i : Iss) (op : Op) (g j : Nat) : Word :=
  let l := curdLen * g + j
  if i.execs l then add32 (i.a op l) (widen op.bfWhey (i.bv op l)) else 0

/-- A group encoded. -/
def cencGroup (i : Iss) (op : Op) (g : Nat) : Encoded :=
  encodeCurd op.ternary op.bfWhey ((List.range curdLen).map (cencValue i op g))

/-- Word k of an image, its missing bytes zero. -/
def imageWord (image : List Byte) (k : Nat) : Word := BitVec.ofNat 32 (leNat ((image.drop (4 * k)).take 4))

/-- A lane's image word. -/
def cencWord (op : Op) (r : Encoded) (j : Nat) : Word := if j < imageWords op.ternary then imageWord r.image j else 0

/-- A lane of a group writes its image word to d, then its residual to c. -/
def cencWrites (i : Iss) (op : Op) (r : Encoded) (l : Nat) : List (Nat × Word) :=
  let j := l % curdLen
  i.dstWrites op.o.d l [cencWord op r j] ++ i.dstWrites op.o.c l [r.resid.getD j 0]

/-- CENC (R323). -/
def cenc (op : Op) (s : State) : Out :=
  issue op [] s (fun i s =>
    let rs := i.groups.map (fun g => (g, cencGroup i op g))
    let outs := rs.flatMap (fun q => (i.curdLanes q.1).map (fun l =>
      (l, ({ val := 0, fl := flagIf q.2.sat fSAT ||| flagIf q.2.psn fPSN } : LaneOut))))
    match fpTrap (fpenMask i.m) outs with
    | some r => i.trap s r
    | none => i.done op s i.lanes (rs.flatMap (fun q => (i.curdLanes q.1).flatMap (cencWrites i op q.2))) (unionFlags outs))

/-! ## CDEC (R323, R324) -/

/-- The image a group holds. -/
def cdecImage (i : Iss) (op : Op) (g : Nat) : List Byte :=
  (List.range (imageWords op.ternary)).flatMap (fun k =>
    let l := curdLen * g + k
    leBytes 4 (if i.execs l then (i.a op l).toNat else 0))

/-- A word lane of a group is dead (R324). -/
def deadWord (i : Iss) (op : Op) (g : Nat) : Bool :=
  (List.range (imageWords op.ternary)).any (fun k => hasLane i.m.dead (curdLen * g + k))

/-- What CDEC gives a lane. -/
def cdecLane (i : Iss) (op : Op) (l : Nat) : LaneOut :=
  let g := l / curdLen
  let image := cdecImage i op g
  let y := decodeElem op.ternary image (l % curdLen)
  LaneOut.flagged (add32 (add32 y (i.bv op l)) (widen op.bfWhey (i.c op l)))
    (flagIf (deadWord i op g || curdPoisoned op.ternary image) fPSN)

/-- The lowest group with an invalid byte, and the byte. -/
def cdecBad (i : Iss) (op : Op) (gs : List Nat) : Option (Nat × Nat) :=
  match gs with
  | [] => none
  | g :: r => match badCurdByte op.ternary (cdecImage i op g) with
    | some b => some (g, b)
    | none => cdecBad i op r

/-- CDEC (R323). -/
def cdec (op : Op) (s : State) : Out :=
  issue op [] s (fun i s =>
    match cdecBad i op i.groups with
    | some (g, b) => i.trap s { code := 0x0C, val := BitVec.ofNat 64 (g * 256 + b) }
    | none => i.complete op s (cdecLane i op))

/-! ## TSET (R326, R327; 07 R182, R183, R188) -/

/-- The mask of a lane: field B, or field C in the X96 form. -/
def tsetMask (i : Iss) (op : Op) (l : Nat) : Word := if op.o.lit.isSome then i.c op l else i.src op.o.b l

/-- The collective context and word an address names, if its scoreboard holds it (R182). -/
def tsetWord (s : State) (x ea : Nat) : Option (Nat × Nat) :=
  let c := ctxOf s x
  if ea < 2 ^ 56 && inSbmap c ea then
    let n := (ea - c.sbmap) / 512
    let w := (ea - c.sbmap) % 512 / 4
    let q := ccOf s n
    if q.st ≠ .unbound && q.ctx = x && 32 * w < q.sbbits then some (n, w) else none
  else none

/-- The first check of R326 that a lane fails. -/
def tsetTrap (s : State) (i : Iss) (op : Op) : Option TrapRec :=
  match i.lanes.find? (fun l => effAddr i op l % 4 ≠ 0) with
  | some l => some { code := 0x06, val := BitVec.ofNat 64 (effAddr i op l) }
  | none =>
    match i.lanes.find? (fun l => (tsetWord s i.l.ctx (effAddr i op l)).isNone) with
    | some l => some { code := 0x08, val := BitVec.ofNat 64 (effAddr i op l) }
    | none =>
      match (i.lanes.filterMap (fun l => tsetWord s i.l.ctx (effAddr i op l))).find? (fun q => tsetBarred (ccOf s q.1)) with
      | some q => some { code := 0x11, reason := tsetReason (ccOf s q.1) }
      | none => none

/-- One lane's OR: performed, or held with the unit (R327). -/
def tsetLane (i : Iss) (op : Op) (s : State) (l : Nat) : State :=
  match tsetWord s i.l.ctx (effAddr i op l) with
  | none => s
  | some (n, w) => if i.l.lr.commit = 0 then boardOr s n w (tsetMask i op l) else holdPub s i (.tset n w (tsetMask i op l))

/-- The lanes in ascending order (R183). -/
def tsetLanes (i : Iss) (op : Op) (ls : List Nat) (s : State) : State :=
  match ls with
  | [] => s
  | l :: r => tsetLanes i op r (tsetLane i op s l)

/-- TSET (R326): under COMMIT 3 each lane adds a record to the signature (R327). -/
def tset (op : Op) (s : State) : Out :=
  issue op [] s (fun i s =>
    match tsetTrap s i op with
    | some r => i.trap s r
    | none =>
      let recs := i.lanes.map (fun l => sigRecord (effAddr i op l) (leBytes 4 (tsetMask i op l).toNat) 0)
      i.plain op (sigSplit (tsetLanes i op i.lanes s) i.b i.t i.e i.l.lr.commit recs))

/-! ## The instructions -/

/-- CENC (R323). -/
def execCenc (o : LOps) (s : State) : Out := cenc (opL 0xB0 o) s

/-- CDEC (R323). -/
def execCdec (o : LOps) (s : State) : Out := cdec (opL 0xB1 o) s

/-- TSET_W32 (R326). -/
def execTsetW32 (o : WOps) (s : State) : Out := tset (opW 0xB2 o) s

/-- TSET_L64 (R326). -/
def execTsetL64 (o : LOps) (s : State) : Out := tset (opL 0xB2 o) s

end Sys2Proof.Machine
end

