-- ==== Sys2Proof/Machine/Matrix.lean ====
section
/-! DEFINITION. Matrix: accumulator handles and their tokens, the rendezvous and tiles of MMA, the fixed summation order, and MVX (05
R126-R146; 14 R322). -/

namespace Sys2Proof.Machine

/-! ## Handles (R127-R131) -/

/-- A live handle of a block by its value. -/
def liveHandle (k : Block) (w : Word) : Option Handle := k.handles.find? (fun h => h.word = w)

/-- The accumulator words of a core's banks, from a bank. -/
def bankWord (core bank : Nat) : Nat := core * 65536 + bank * Config.bankWords

/-- An accumulator word lies in a handle's banks. -/
def inHandle (core : Nat) (h : Handle) (n : Nat) : Bool := bankWord core h.first ≤ n && n < bankWord core h.first + h.count * Config.bankWords

/-- Values put in place of a run of an array. -/
def Sparse.setRun {w : Nat} (m : Sparse w) (a : Nat) (vs : List (BitVec w)) : Sparse w :=
  m.filter (fun c => c.1 < a) ++ (vs.zipIdx.filter (fun c => c.1 ≠ 0)).map (fun c => (a + c.2, c.1)) ++
    m.filter (fun c => a + vs.length ≤ c.1)

/-- A handle of a block changed. -/
def mapHandle (w : Word) (f : Handle → Handle) (k : Block) : Block :=
  { k with handles := k.handles.map (fun h => if h.word = w then f h else h) }

/-- The banks taken on a core: of every block that stands there. -/
def takenBanks (s : State) (core : Nat) : List (Nat × Nat) :=
  (s.blocks.filter (fun c => c.2.core = core && blockResident c.2)).flatMap (fun c => c.2.handles.map (fun h => (h.first, h.count)))

/-- The lowest run of `n` free banks (R322). -/
def freeBanks (taken : List (Nat × Nat)) (n : Nat) : Option Nat :=
  (List.range (Config.accBanks + 1 - n)).find? (fun f => taken.all (fun c => f + n ≤ c.1 || c.1 + c.2 ≤ f))

/-- ACCALLOC (R128). -/
def accalloc (op : Op) (s : State) : Out :=
  issue op [2] s (fun i s =>
    let n := (i.a op i.leader).toNat
    if n = 0 || 128 < n then i.trap s { code := 0x08 }
    else if i.l.lr.accmax < (i.k.handles.map (fun h => h.count)).sum + n then i.completeAll op s 0
    else match freeBanks (takenBanks s i.k.core) n with
      | none => i.completeAll op s 0
      | some f =>
        let c := coreOf s i.k.core
        let h : Handle := { serial := c.serial, count := n, first := f, owner := i.t, token := some i.t }
        let s1 := { s with cores := Tbl.put s.cores i.k.core { c with serial := if c.serial = 0xFFFF then 1 else c.serial + 1 } }
        i.completeAll op (onBlock s1 i.b (fun k => { k with handles := k.handles ++ [h] })) (h.word.zeroExtend 128))

/-- An instruction on a live handle named by the leader's a (R127). -/
def onHandle (op : Op) (s : State) (body : Iss → State → Handle → State) : Out :=
  issue op [2] s (fun i s => match liveHandle i.k (i.a op i.leader) with
    | none => i.trap s { code := 0x08 }
    | some h => body i s h)

/-- ACCFREE (R128). -/
def accfree (op : Op) (s : State) : Out :=
  onHandle op s (fun i s h =>
    if h.owner ≠ i.t then i.trap s { code := 0x08 }
    else if h.token ≠ some i.t then i.trap s { code := 0x04 }
    else
      let s1 := clearAcc s (inHandle i.k.core h)
      i.plain op (onBlock s1 i.b (fun k => { k with handles := k.handles.filter (fun q => q.word ≠ h.word) })))

/-- An unfinished MMA names a handle. -/
def mmaPending (k : Block) (w : Word) : Bool :=
  k.cmds.any (fun c => !c.finished && (match c.op with
    | .mma _ h _ _ _ _ _ _ => h = w
    | _ => false))

/-- An ACCACQ of another split of the block stands before the issuer's in the line for a token (R130). -/
def tokenAhead (i : Iss) (w : Word) : Bool := lineAhead (i.k.teams.map (fun c => c.2)) (.token w) i.m i.p

/-- ACCACQ (R130): teams are served in the order in which they came; the token comes at once, and the split waits until the MMAs accepted
before have completed. -/
def accacq (op : Op) (s : State) : Out :=
  onHandle op s (fun i s h =>
    let w := h.word
    match h.token with
    | none =>
      if tokenAhead i w then i.pauseIn (i.wait s (i.hold 0 [] [])) (.token w)
      else
        let s1 := onBlock s i.b (mapHandle w (fun h => { h with token := some i.t }))
        if mmaPending i.k w then onSplit (i.wait s1 (i.hold 0 [] [])) i.b i.t i.e (fun p => { p with line := none }) else i.plain op s1
    | some u =>
      if u ≠ i.t then i.pauseIn (i.wait s (i.hold 0 [] [])) (.token w)
      else if i.p.held.isSome && mmaPending i.k w then i.wait s (i.hold 0 [] []) else i.plain op s)

/-- ACCREL (R130). -/
def accrel (op : Op) (s : State) : Out :=
  onHandle op s (fun i s h =>
    if h.token ≠ some i.t then i.trap s { code := 0x04 }
    else i.plain op (onBlock s i.b (mapHandle h.word (fun h => { h with token := none }))))

/-- An instruction on the words of a handle whose token the team holds, with every lane's index inside it (R130, R131). -/
def onBanks (op : Op) (s : State) (body : Iss → State → Nat → State) : Out :=
  onHandle op s (fun i s h =>
    if h.token ≠ some i.t then i.trap s { code := 0x04 }
    else if op.o.f.toNat ≠ 2 && i.lanes.any (fun l => h.count * Config.bankWords ≤ (i.bv op l).toNat) then i.trap s { code := 0x08 }
    else body i s (bankWord i.k.core h.first))

/-- A block that consumes poison of its accumulators is rerun (25 R470). -/
def accConsumed (s : State) (b : Nat) (words : List Nat) : State :=
  if s.accPoison = [] || !words.any s.accPoison.contains then s else consumePoison s b

/-- ACCLD (R131). -/
def accld (op : Op) (s : State) : Out :=
  onBanks op s (fun i s base =>
    i.complete op (accConsumed s i.b (i.lanes.map (fun l => base + (i.bv op l).toNat)))
      (fun l => .word (Sparse.get s.acc (base + (i.bv op l).toNat))))

/-- ACCST (R131): the highest lane's value remains. -/
def accst (op : Op) (s : State) : Out :=
  onBanks op s (fun i s base =>
    let ws := i.lanes.map (fun l => (base + (i.bv op l).toNat, i.c op l))
    i.plain op { s with acc := applyWrites s.acc ws, accPoison := healBytes s.accPoison (fun q => ws.any (fun w => w.1 = q)) })

/-- ACCZERO (R131). -/
def acczero (op : Op) (s : State) : Out :=
  onHandle op s (fun i s h =>
    if h.token ≠ some i.t then i.trap s { code := 0x04 }
    else i.plain op (clearAcc s (inHandle i.k.core h)))

/-! ## Elements and the summation order (R132, R135, R139) -/

/-- The formats of minors' operands. -/
inductive MatFmt where
  | e4m3
  | e5m2
  | e2m1
  | bf16
  | fp16
deriving DecidableEq, Repr

/-- Bits of an element. -/
def MatFmt.bits (f : MatFmt) : Nat :=
  match f with
  | .e4m3 => 8
  | .e5m2 => 8
  | .e2m1 => 4
  | .bf16 => 16
  | .fp16 => 16

/-- The value of an element. -/
def MatFmt.value (f : MatFmt) (v : Nat) : FVal :=
  match f with
  | .e4m3 => decodeE4m3 v
  | .e5m2 => decodeIeee Machine.e5m2 v
  | .e2m1 => decodeE2m1 v
  | .bf16 => decodeIeee Machine.bf16 v
  | .fp16 => decodeIeee Machine.fp16 v

/-- The format of A of a minor. -/
def aFmt (minor : Nat) : MatFmt :=
  match minor with
  | 0 => .e4m3
  | 1 => .e4m3
  | 2 => .e5m2
  | 3 => .e5m2
  | 4 => .e2m1
  | 5 => .bf16
  | _ => .fp16

/-- The format of B, or of x. -/
def bFmt (minor : Nat) : MatFmt :=
  match minor with
  | 0 => .e4m3
  | 1 => .e5m2
  | 2 => .e4m3
  | 3 => .e5m2
  | 4 => .e2m1
  | 5 => .bf16
  | _ => .fp16

/-- The minor has scales. -/
def scaled (minor : Nat) : Bool := minor ≤ 4

/-- K-blocks of a tile: 2 of 8-bit elements, 4 of 4-bit, 1 of 16-bit (R132). -/
def tileBlocks (minor : Nat) : Nat := 16 / (aFmt minor).bits

/-- The elements packed in words, low first (R135). -/
def rowElems (f : MatFmt) (ws : List Word) : List FVal :=
  ws.flatMap (fun w => (List.range (32 / f.bits)).map (fun j => f.value (bitsOf w.toNat (j * f.bits) f.bits)))

/-- A row cut into K-blocks of 32 elements. -/
def kBlocks (n : Nat) (es : List FVal) : List (List FVal) := (List.range n).map (fun kb => (es.drop (32 * kb)).take 32)

/-- The exact sum of finite products, rounded under the block's scales; an exact zero gives +0 (R139). -/
def termOf (ps : List (Bool × Nat × Int)) (e : Int) : Word :=
  let nz := ps.filter (fun t => t.2.1 ≠ 0)
  let q := nz.foldl (fun q t => min q t.2.2) ((nz.head?.map (fun t => t.2.2)).getD 0)
  let v := nz.foldl (fun v t => v + termAt q t) 0
  if v = 0 then 0 else BitVec.ofNat 32 (deliver fp32 0 (v < 0) v.natAbs (q + e) false).code

/-- T of one K-block (R139). -/
def blockTerm (as bs : List FVal) (ea eb : Nat) : Word :=
  let ps := List.zipWith mulVals as bs
  if ea = 255 || eb = 255 || as.any FVal.isNan || bs.any FVal.isNan || ps.contains none then 0x7FC00000
  else if ps.contains (some (.inf true)) && ps.contains (some (.inf false)) then 0x7FC00000
  else if ps.contains (some (.inf true)) then 0xFF800000
  else if ps.contains (some (.inf false)) then 0x7F800000
  else termOf (ps.filterMap (fun p => match p with
    | some (.fin s m e) => some (s, m, e)
    | _ => none)) ((ea : Int) + eb - 254)

/-- A row or a column: its K-blocks and their scale codes. -/
structure MatRow where
  elems : List (List FVal)
  scales : List Nat

/-- acc plus the product of a row and a column, block after block (R139). -/
def dotRow (acc : Word) (a b : MatRow) : Word :=
  (List.zip (List.zip a.elems b.elems) (List.zip a.scales b.scales)).foldl
    (fun acc q => add32 acc (blockTerm q.1.1 q.1.2 q.2.1 q.2.2)) acc

/-! ## The rendezvous (R133, R134) -/

/-- The gang register is in order for the issuing team (R133). -/
def gangOk (k : Block) (t : Nat) (g : Word) : Bool :=
  let n := bitsOf g.toNat 0 4
  let ts := gangTeams g
  2 ≤ n && n ≤ 6 && bitsOf g.toNat 28 4 = 0 && (List.range 6).all (fun p => p < n || bitsOf g.toNat (4 + 4 * p) 4 = 0) &&
  ts.eraseDups.length = ts.length && ts.all (fun u => (liveTeams k).contains u) && ts.contains t

/-- An entry of the latch stands: its split still waits in it, or its team has ended (R134). -/
def rdvStands (k : Block) (r : RdvEntry) : Bool :=
  match Tbl.get k.teams r.team with
  | none => false
  | some m => !teamLive m || ((Tbl.get m.splits r.split).bind (fun p => p.held)).any (fun h => h.latched)

/-- The entries of a gang. -/
def rdvOf (k : Block) (g : Word) : List RdvEntry := k.rdv.filter (fun r => r.gang = g && rdvStands k r)

/-- Register range reached by a team's part of `n` words (R135). -/
def reaches (nregs w count p n reg : Nat) : Bool :=
  (List.range n).any (fun j => j % (count * w) / w = p && nregs ≤ reg + j / (count * w))

/-- The words of scales of a tile. -/
def scaleWords (minor : Nat) : Nat := if scaled minor then 32 * tileBlocks minor else 0

/-- The entry of the team at a position. -/
def rdvAt (rs : List RdvEntry) (ts : List Nat) (p : Nat) : Option RdvEntry := rs.find? (fun r => r.team = ts.getD p 255)

/-- The word that a gang lane brings, and whether it is a dead lane's (R135). -/
def gangWord (k : Block) (rs : List RdvEntry) (ts : List Nat) (w : Nat) (reg : RdvEntry → Nat) (j : Nat) : Word :=
  let g := j % (ts.length * w)
  match rdvAt rs ts (g / w) with
  | none => 0
  | some r => match Tbl.get k.teams r.team with
    | none => 0
    | some m => if hasLane r.lanes (g % w) && hasLane (liveLanes m) (g % w) then m.reg (reg r + j / (ts.length * w)) (g % w) else 0

/-- A dead lane of a team brings a word. -/
def gangDead (k : Block) (ts : List Nat) (w n p : Nat) : Bool :=
  match Tbl.get k.teams (ts.getD p 255) with
  | none => false
  | some m => (List.range n).any (fun j => j % (ts.length * w) / w = p && hasLane m.dead (j % (ts.length * w) % w))

/-- The rendezvous's compared values agree with another's. -/
def rdvSame (a b : RdvEntry) : Bool :=
  a.minor = b.minor && a.ru = b.ru && a.handle = b.handle && a.bOff = b.bOff && a.sOff = b.sOff && a.tile = b.tile

/-- The A latch of a gang. -/
def gangLatch (k : Block) (g : Word) : Option ALatch := k.latches.find? (fun a => a.gang = g)

/-- The first check of R134 that fails, for a complete latch: its trap and the address for TVAL. -/
def rdvCheck (k : Block) (l : Launch) (rs : List RdvEntry) (r : RdvEntry) : Option (Nat × Nat) :=
  let ts := gangTeams r.gang
  let off := (bitsOf r.tile.toNat 0 7)
  let latch := gangLatch k r.gang
  let w := l.lr.width
  if !rs.all (rdvSame r) || !ts.all (fun t => (liveTeams k).contains t) then some (0x0F, 0)
  else if latch.any (fun a => a.minor ≠ r.minor) then some (0x0F, 0)
  else if latch.isNone && (List.range ts.length).any (fun p => match rdvAt rs ts p with
      | none => false
      | some q => reaches l.lr.regs w ts.length p 2048 q.aReg || reaches l.lr.regs w ts.length p (scaleWords r.minor) q.cReg) then
    some (0x01, 0)
  else match liveHandle k r.handle with
    | none => some (0x08, 0)
    | some h =>
      if h.token.isSome then some (0x04, 0)
      else if bitsOf r.tile.toNat 8 24 ≠ 0 || off % 32 ≠ 0 || h.count < off + 32 then some (0x08, 0)
      else if r.bOff.toNat % 16 ≠ 0 || !spadOk k r.bOff.toNat 8192 then some (0x08, r.bOff.toNat)
      else if r.sOff.toNat % 16 ≠ 0 || !spadOk k r.sOff.toNat (max 1 (4 * scaleWords r.minor)) then some (0x08, r.sOff.toNat)
      else if tlFull k.mmaTl then some (0x08, 0)
      else none

/-- The entries of a rendezvous leave the latch. -/
def rdvLeave (rs : List RdvEntry) (k : Block) : Block := { k with rdv := k.rdv.filter (fun r => !rs.contains r) }

/-- A listed split goes on past its MMA, its team raising PSN when a dead lane's word was read. -/
def rdvGoOn (s : State) (psn : Nat → Bool) (k : Block) (r : RdvEntry) : Block :=
  mapTeam k r.team (fun m => { m with
    flags := m.flags ||| flagIf (psn r.team) fPSN,
    splits := Tbl.mapVals m.splits (fun e p => if e = r.split then p.stepTo (p.pc + 8) s else p) })

/-- The value of q0 that a split's instruction popped while it waits. -/
def heldQ0 (m : Team) (e : Nat) : List Word := (((Tbl.get m.splits e).bind (fun p => p.held)).bind (fun h => h.q0)).toList

/-- A listed split takes the trap of a failed check; under ILLOP no queue is popped (09 R224). -/
def rdvTrap (code addr : Nat) (k : Block) (r : RdvEntry) : Block :=
  mapTeam k r.team (fun m => { m with
    dq := if code = 0x01 then heldQ0 m r.split ++ m.dq else m.dq,
    splits := Tbl.mapVals m.splits (fun e p => if e = r.split then
      { p with st := .ready, held := none,
               pend := some { code := code, pc := p.pc, res := p.pc, val := BitVec.ofNat 64 addr,
                              parcel := if code = 0x01 then r.parcel else 0 } } else p) })

/-- A latch for the tile's A: as latched, or as read (R138). -/
def tileLatch (k : Block) (l : Launch) (rs : List RdvEntry) (r : RdvEntry) : ALatch :=
  match gangLatch k r.gang with
  | some a => a
  | none =>
    let ts := gangTeams r.gang
    { gang := r.gang, minor := r.minor, words := (List.range 2048).map (gangWord k rs ts l.lr.width (fun q => q.aReg)),
      scales := (List.range (scaleWords r.minor)).map (gangWord k rs ts l.lr.width (fun q => q.cReg)) }

/-- A team's part of A or of its scales has a dead lane's word, and is read. -/
def tilePsn (k : Block) (l : Launch) (r : RdvEntry) (t : Nat) : Bool :=
  let ts := gangTeams r.gang
  (gangLatch k r.gang).isNone && (List.range ts.length).any (fun p => ts.getD p 255 = t && gangDead k ts l.lr.width 2048 p)

/-- The lanes of a gang from which a word of A or of its scales would be read that holds poison, by team (25 R470). -/
def tilePoison (k : Block) (l : Launch) (rs : List RdvEntry) (r : RdvEntry) : List (Nat × Nat) :=
  let ts := gangTeams r.gang
  let w := l.lr.width
  if (gangLatch k r.gang).isSome || k.teams.all (fun c => c.2.poison = []) then []
  else
    let reads := fun (n : Nat) (reg : RdvEntry → Nat) => (List.range n).filterMap (fun j =>
      let g := j % (ts.length * w)
      (rdvAt rs ts (g / w)).bind (fun q => (Tbl.get k.teams q.team).bind (fun m =>
        if hasLane q.lanes (g % w) && hasLane (liveLanes m) (g % w) && m.poison.contains ((reg q + j / (ts.length * w)) * 1024 + g % w) then
          some (q.team, g % w) else none)))
    (reads 2048 (fun q => q.aReg) ++ reads (scaleWords r.minor) (fun q => q.cReg)).eraseDups

/-- Lanes of a block's teams die, in order. -/
def teamDeaths (b : Nat) (qs : List (Nat × Nat)) (s : State) : State :=
  match qs with
  | [] => s
  | q :: r => teamDeaths b r (laneDeath s b q.1 q.2)

/-- The MMA of a rendezvous accepted (R134, R138). -/
def rdvAccept (s : State) (b : Nat) (k : Block) (l : Launch) (rs : List RdvEntry) (r : RdvEntry) : State :=
  let a := tileLatch k l rs r
  let k1 := rs.foldl (rdvGoOn s (tilePsn k l r)) (rdvLeave rs k)
  let n := k.mmaTl.n + 1
  let c : EngCmd :=
    { tl := 0x1001, num := n, team := r.team, doneElems := [], stalled := false, waits := [], failed := [], finished := false,
      op := .mma r.minor r.handle (bitsOf r.tile.toNat 0 7) (r.tile.getLsbD 7) a.words a.scales r.bOff.toNat r.sOff.toNat }
  putBlock s b { k1 with mmaTl := { k1.mmaTl with n := n }, cmds := k1.cmds ++ [c],
                         latches := k1.latches.filter (fun q => q.gang ≠ r.gang) ++ (if r.ru then [a] else []) }

/-- The rendezvous of a gang looked at: incomplete, or waiting for a latch, it stands; else it traps or is accepted (R134, R138). -/
def rdvTry (s : State) (b : Nat) (g : Word) : State :=
  match Tbl.get s.blocks b with
  | none => s
  | some k =>
    match Tbl.get s.launches k.launch, rdvOf k g with
    | some l, r :: q =>
      let rs := r :: q
      if !(gangTeams g).all (fun t => rs.any (fun c => c.team = t)) then s
      else match rdvCheck k l rs r with
        | some (code, addr) => putBlock s b (rs.foldl (rdvTrap code addr) (rdvLeave rs k))
        | none =>
          if r.ru && (gangLatch k g).isNone && 4 ≤ coreLatches s k.core then s
          else match tilePoison k l rs r with
            | [] => rdvAccept s b k l rs r
            | ps => teamDeaths b ps s
    | _, _ => s

/-- What an MMA puts in the latch. -/
def mmaEntry (i : Iss) (op : Op) (g : Word) : RdvEntry :=
  let q := i.srcs op.o.b i.leader 4
  { team := i.t, split := i.e, gang := g, minor := op.o.f.toNat, ru := op.o.ru, handle := i.src op.o.d i.leader, bOff := q.getD 0 0,
    sOff := q.getD 1 0, tile := q.getD 3 0, aReg := op.o.a.toNat, cReg := op.o.c.toNat, lanes := i.ex, parcel := op.parcel }

/-- MMA (R133, R134): a split already in the latch waits on; a second split of a team waits for the next rendezvous. -/
def mma (op : Op) (s : State) : Out :=
  issue op [1, 3] s (fun i s =>
    let g := (i.srcs op.o.b i.leader 4).getD 2 0
    if i.p.held.any (fun h => h.latched) then rdvTry s i.b g
    else if !gangOk i.k i.t g then i.trap s { code := 0x0F }
    else if (rdvOf i.k g).any (fun r => r.team = i.t) then i.wait s (i.hold 0 [] [])
    else
      let s1 := i.wait s { i.hold 0 [] [] with latched := true }
      rdvTry (onBlock s1 i.b (fun k => { k with rdv := k.rdv.filter (rdvStands k) ++ [mmaEntry i op g] })) i.b g)

/-! ## A tile's product (R135-R137) -/

/-- Byte i of words. -/
def wordByte (ws : List Word) (i : Nat) : Nat := bitsOf (ws.getD (i / 4) 0).toNat (8 * (i % 4)) 8

/-- The words of a byte string. -/
def byteWords (bs : List Byte) : List Word := (List.range (bs.length / 4)).map (fun j => BitVec.ofNat 32 (leNat ((bs.drop (4 * j)).take 4)))

/-- The scale codes of row or column m. -/
def tileScales (minor : Nat) (ws : List Word) (m : Nat) : List Nat :=
  (List.range (tileBlocks minor)).map (fun kb => if scaled minor then wordByte ws (tileBlocks minor * m + kb) else 127)

/-- Row m of A. -/
def tileRow (minor : Nat) (words scales : List Word) (m : Nat) : MatRow :=
  { elems := kBlocks (tileBlocks minor) (rowElems (aFmt minor) ((words.drop (16 * m)).take 16)), scales := tileScales minor scales m }

/-- Column n of B (R136). -/
def tileCol (s : State) (core minor bOff sOff n : Nat) : MatRow :=
  let sc := byteWords (readBytes s.spad (core * Config.spadBytes + sOff) (4 * scaleWords minor))
  { elems := kBlocks (tileBlocks minor) (rowElems (bFmt minor) (byteWords (readBytes s.spad (core * Config.spadBytes + bOff + 64 * n) 64))),
    scales := tileScales minor sc n }

/-- The 128 by 128 words of C after the product. -/
def tileResult (s : State) (core base : Nat) (minor : Nat) (zero : Bool) (words scales : List Word) (bOff sOff : Nat) : List Word :=
  let cols := (List.range 128).map (tileCol s core minor bOff sOff)
  (List.range 128).flatMap (fun m =>
    let row := tileRow minor words scales m
    cols.zipIdx.map (fun c => dotRow (if zero then 0 else Sparse.get s.acc (base + 128 * m + c.2)) row c.1))

/-- The B, its scales or the C that a product reads holds poison (25 R470). -/
def mmaPoisoned (s : State) (core base minor : Nat) (zero : Bool) (bOff sOff : Nat) : Bool :=
  let a := core * Config.spadBytes
  poisoned s Shadow.empty (.spad (a + bOff)) 8192 || poisoned s Shadow.empty (.spad (a + sOff)) (4 * scaleWords minor) ||
  (!zero && s.accPoison.any (fun q => base ≤ q && q < base + 16384))

/-- MMA_COMPLETE (R137): in number order among the MMAs that name one handle. Banks released meanwhile are not written. -/
def mmaComplete (b n : Nat) (s : State) : State :=
  match liveCmd s b 0x1001 n with
  | none => s
  | some (k, c) =>
    match c.op with
    | .mma minor handle boff zero words scales bOff sOff =>
      if mmaPending { k with cmds := k.cmds.filter (fun q => q.tl = 0x1001 && q.num < n) } handle then s
      else match liveHandle k handle with
        | none => completeCmd s b 0x1001 n
        | some h =>
          let base := bankWord k.core (h.first + boff)
          if rerunnable s b && mmaPoisoned s k.core base minor zero bOff sOff then consumePoison s b
          else
            completeCmd { s with acc := Sparse.setRun s.acc base (tileResult s k.core base minor zero words scales bOff sOff),
                                 accPoison := healBytes s.accPoison (fun q => base ≤ q && q < base + 16384) } b 0x1001 n
    | _ => s

/-! ## MVX (R140-R146) -/

/-- The FMT of A that a minor asks for. -/
def mvxFmt (minor : Nat) : Nat := if minor ≤ 3 then 0 else if minor = 4 then 4 else 1

/-- What is wrong with the records, as the REASON of the trap: 2 for reason 2 of R116, 0 for the rest (R141). -/
def mvxRecords (minor : Nat) (bs : List Byte) : Option Nat :=
  let y := parseLayout bs
  let z := parseLayout (bs.drop 64)
  if !layoutOk bs false || (scaled minor && !layoutOk (bs.drop 64) false) then some 2
  else if y.fmt ≠ mvxFmt minor || y.rank ≠ 2 then some 0
  else if scaled minor && (z.rank ≠ 2 || z.fmt ≠ 0 || z.dim 0 * 32 ≠ y.dim 0 || z.dim 1 ≠ y.dim 1) then some 0
  else none

/-- The lane of a K-block's scale. -/
def scaleLane (kb : Nat) : Nat := 32 * kb

/-- The scale code a team gives a K-block (R141): 0x7F where its lane lies in a released slice, also when that lane is dead (DESIGN CHOICE,
log 112). -/
def teamScale (i : Iss) (reg kb : Nat) : Nat :=
  let l := scaleLane kb
  if (List.range 32).all (fun j => !hasLane (liveLanes i.m) (l + j)) then 0x7F
  else if hasLane i.m.dead l then 0xFF
  else bitsOf (i.m.reg reg l).toNat 24 8

/-- The offset of the front program's x image. -/
def frontX (i : Iss) (op : Op) : Nat := (i.bv op 0).toNat

/-- The offset at which the front program wants y. -/
def frontY (i : Iss) (op : Op) : Nat := (i.m.reg (op.o.c.toNat + 1) 0).toNat

/-- Word k of x_j of a front program's image. -/
def frontWord (s : State) (i : Iss) (op : Op) (kk j k : Nat) : Word :=
  BitVec.ofNat 32 (leNat (readBytes s.spad (i.k.core * Config.spadBytes + frontX i op + 4 * (j * kk + k)) 4))

/-- The element words of x_j. -/
def mvxX (s : State) (i : Iss) (op : Op) (kk j : Nat) : List Word :=
  (List.range kk).map (fun k =>
    if i.front then frontWord s i op kk j k else if i.execs k then i.m.reg (op.o.b.toNat + j) k else 0)

/-- The scale codes of x_j. -/
def mvxScales (s : State) (i : Iss) (op : Op) (kk j : Nat) : List Byte :=
  (List.range (kk / 32)).map (fun kb => BitVec.ofNat 8
    (if i.front then bitsOf (frontWord s i op kk j (scaleLane kb)).toNat 24 8 else teamScale i (op.o.b.toNat + j) kb))

/-- The bytes of a row of a record's tensor. -/
def rowBytes (y : Layout) : Nat := y.dim 0 * y.nibbles / 2

/-- The address of row m. -/
def rowAddr (y : Layout) (m : Nat) : Nat := y.base + m * y.stride 1

/-- The pieces of row m. -/
def rowPieces (y : Layout) (m : Nat) : List (Nat × Nat) := pieces (rowBytes y / 512 + 2) (rowAddr y m) (rowBytes y)

/-- The pieces of A and, for a scaled minor, of its scales. -/
def mvxPieces (minor : Nat) (y z : Layout) : List (Nat × Nat) :=
  (List.range (y.dim 1)).flatMap (rowPieces y) ++ (if scaled minor then (List.range (z.dim 1)).flatMap (rowPieces z) else [])

/-- Churn commands queued on a stack: blocks of firings that are still to run there (R145). -/
def churnQueued (s : State) (stack : Nat) : Nat :=
  (s.ccs.map (fun q => (q.2.entries.map (fun e => (e.2.firings.map (fun f =>
    ((List.range (q.2.ch / 256)).filter (fun j => !f.blocksDone.contains j &&
        (capPlace s q.2.ctx (f.image.laddr + 1024 * j)).any (fun pa => hbmStack pa = stack))).length)).sum)).sum)).sum

/-- A piece lies in HBM, on a stack with room for churn (R145). -/
def pieceReady (s : State) (x : Nat) (q : Nat × Nat) : Bool :=
  match capPlace s x q.1 with
  | none => false
  | some pa => hbmResident s pa && churnQueued s (hbmStack pa) < 32

/-- The stack engines take an MVX (R144, R145). -/
def mvxStack (s : State) (x v minor : Nat) (y z : Layout) : Bool :=
  let c := ctxOf s x
  c.path = 2 || (c.path = 0 && v ≤ c.stkv && (mvxPieces minor y z).all (pieceReady s x))

/-- The stack engine that performs each row: the one that serves the sector of the row's first A byte (R145; 29 R524). -/
def mvxEngines (s : State) (x : Nat) (y : Layout) : List Nat :=
  (List.range (y.dim 1)).map (fun m => match capPlace s x (rowAddr y m) with
    | none => 0
    | some pa => hbmStack pa * 32 + servingEngine s (hbmStack pa) (hbmGroup pa))

/-- The first check of R141 and R142 that fails, the records read. -/
def mvxTrap (i : Iss) (op : Op) (bs : List Byte) : Option TrapRec :=
  let y := parseLayout bs
  let v := (i.c op i.leader).toNat
  let kk := y.dim 0
  let at0 := fun (a : Nat) => some ({ code := 0x08, val := BitVec.ofNat 64 a } : TrapRec)
  match mvxRecords op.o.f.toNat bs with
  | some r => some { code := 0x08, reason := r, val := i.a64 op i.leader }
  | none =>
    if kk % 32 ≠ 0 || (if i.front then 1024 else i.m.width) < kk || y.dim 1 = 0 || 4096 < y.dim 1 || v = 0 || 8 < v then at0 0
    else if i.front && frontX i op % 4 ≠ 0 then some { code := 0x06, val := BitVec.ofNat 64 (frontX i op) }
    else if i.front && frontY i op % 4 ≠ 0 then some { code := 0x06, val := BitVec.ofNat 64 (frontY i op) }
    else if i.front && (allocHolding i.k (frontX i op) (4 * v * kk)).isNone then at0 (frontX i op)
    else if i.front && (allocHolding i.k (frontY i op) (4 * v * y.dim 1)).isNone then at0 (frontY i op)
    else if tlFull i.k.mvTl then at0 0
    else none

/-- The vector image of a front program holds poison that its block's unit can be rerun for (25 R470). -/
def frontPoisoned (i : Iss) (op : Op) (s : State) (y : Layout) : Bool :=
  i.front && rerunnable s i.b &&
    poisoned s Shadow.empty (.spad (i.k.core * Config.spadBytes + frontX i op)) (4 * (i.c op i.leader).toNat * y.dim 0)

/-- MVX with its records read (R140-R145). A front program's x image is read whole when the command is accepted: R142 gives no time (DESIGN
CHOICE, log 125). -/
def mvxWith (i : Iss) (op : Op) (s : State) (bs : List Byte) : State :=
  match mvxTrap i op bs with
  | some r => i.trap s r
  | none =>
    let y := parseLayout bs
    if frontPoisoned i op s y then consumePoison s i.b else
    let z := parseLayout (bs.drop 64)
    let v := (i.c op i.leader).toNat
    let minor := op.o.f.toNat
    let kk := y.dim 0
    let st := mvxStack s i.l.ctx v minor y z
    let r := acceptCmd s i 0x1002 (.mvx minor y z ((List.range v).map (mvxX s i op kk)) ((List.range v).map (mvxScales s i op kk))
      (if i.front then some (frontY i op) else none) (if st then some (mvxEngines s i.l.ctx y) else none))
    let s1 := bumpCtx i.l.ctx (if st then 1 else 0) r.1
    let s2 := if i.front then s1
      else onTeam s1 i.b i.t (fun m => { m with q1 := m.q1 ++ [{ num := r.2, elems := [], toCome := v * y.dim 1 }] })
    i.done op s2 i.lanes (i.dstWrites op.o.d i.leader (wordsOf 2 (BitVec.ofNat 128 r.2)))
      (flagIf ((List.range kk).any (hasLane i.m.dead)) fPSN)

/-- An x register, or the front program's kc + 1, does not exist (R141, R142). -/
def mvxMissing (i : Iss) (op : Op) : Bool :=
  if i.front then i.m.nregs ≤ op.o.c.toNat + 1 else i.m.nregs < op.o.b.toNat + (i.c op i.leader).toNat

/-- MVX (R140). -/
def mvx (op : Op) (s : State) : Out :=
  issue op [2, 3, 4] s (fun i s =>
    if mvxMissing i op then i.illopValue s op
    else i.withRecord s (i.a64 op i.leader).toNat (if scaled op.o.f.toNat then 128 else 64) (fun s bs => mvxWith i op s bs))

/-- The bytes of a row that translates. -/
def rowRead (s : State) (b x : Nat) (y : Layout) (m : Nat) : List Byte :=
  (rowPieces y m).flatMap (fun q => readRecord s b x q.1 q.2)

/-- Row m of A with its scales. -/
def mvxRow (s : State) (b x minor : Nat) (y z : Layout) (m : Nat) : MatRow :=
  { elems := kBlocks (y.dim 0 / 32) (rowElems (aFmt minor) (byteWords (rowRead s b x y m))),
    scales := if scaled minor then (rowRead s b x z m).map (fun v => v.toNat) else List.replicate (y.dim 0 / 32) 127 }

/-- x_j as a column. The scale codes of 16-bit formats are 127 (R139), also where a lane that would carry one is dead (R141; DESIGN CHOICE, log
113). -/
def mvxCol (minor : Nat) (ws : List Word) (sc : List Byte) : MatRow :=
  { elems := kBlocks (ws.length / 32) (ws.map (fun w => (bFmt minor).value (bitsOf w.toNat 0 (bFmt minor).bits))),
    scales := if scaled minor then sc.map (fun v => v.toNat) else List.replicate (ws.length / 32) 127 }

/-- y_0, then y_1, up to y_(V-1) (R143). -/
def mvxResultWords (s : State) (b x minor : Nat) (y z : Layout) (xs : List (List Word)) (scs : List (List Byte)) : List Word :=
  let rows := (List.range (y.dim 1)).map (mvxRow s b x minor y z)
  (List.zip xs scs).flatMap (fun q => let col := mvxCol minor q.1 q.2; rows.map (fun r => dotRow 0 r col))

/-- What reading a piece leaves of residency: on the stack path its sector in HBM, on the core path its lines in L2 too (R145; 22 R426). -/
def notePiece (x : Nat) (stack : Bool) (s : State) (q : Nat × Nat) : State :=
  match capPlace s x q.1 with
  | none => s
  | some pa => if stack then hbmFill s pa false
               else (List.range ((pa % 128 + q.2 + 127) / 128)).foldl (fun s j => touch s (.cap (pa + 128 * j)) false) s

/-- Results enter their stream, or the front program's scratchpad (R142, R143). -/
def deliverMvx (s : State) (b : Nat) (c : EngCmd) (core : Nat) (yOff : Option Nat) (ws : List Word) : State :=
  match yOff with
  | some off => putSpad s (core * Config.spadBytes + off) (ws.flatMap (fun w => leBytes 4 w.toNat))
  | none => onTeam s b c.team (fun m => { m with
      q1 := m.q1.map (fun q => if q.num = c.num then { q with elems := ws, toCome := 0 } else q) })

/-- The reads of an MVX tried: what it waits for, or the first fault (R109). -/
def mvxProbe (s : State) (x : Nat) (c : EngCmd) (ps : List (Nat × Nat)) : CopyRun :=
  probeAll x c.failed needR (CopyRun.start s) (ps.map (fun q => q.1))

/-- A piece of A or of its scales holds poison (25 R470). -/
def piecePoisoned (s : State) (b x : Nat) (q : Nat × Nat) : Bool :=
  match placeOf s x (recordTarget s x q.1) with
  | some p => poisoned s (shadowOf s b) p q.2
  | none => false

/-- MVX_RESULT: A and its scales are read, the results delivered, the number reached (R143). -/
def mvxResult (b n : Nat) (s : State) : State :=
  match liveCmd s b 0x1002 n with
  | none => s
  | some (k, c) =>
    match c.op with
    | .mvx minor y z xs scs yOff rows =>
      let x := ctxNum s b
      let ps := mvxPieces minor y z
      let r := mvxProbe s x c ps
      if r.waits ≠ [] || r.bad.isSome then endRun b 0x1002 n r (noteRun b 0x1002 n r [] r.s)
      else if rerunnable s b && ps.any (piecePoisoned r.s b x) then consumePoison r.s b
      else
        let s1 := ps.foldl (notePiece x rows.isSome) r.s
        completeCmd (deliverMvx s1 b c k.core yOff (mvxResultWords s1 b x minor y z xs scs)) b 0x1002 n
    | _ => s

/-! ## Faults of the engines -/

/-- A command's global side would fault now (04 R109). -/
def commandFaults (b sel n : Nat) (s : State) : Bool :=
  match liveCmd s b sel n with
  | none => false
  | some (k, c) =>
    match c.op with
    | .tcopy store isSealed y cs off _ verAddr =>
      let j := copyJob s b k c store y cs off
      let left := (List.range y.bytes).filter (fun q => !c.doneElems.contains q)
      let r := if isSealed then probeAll j.x c.failed needRW (CopyRun.start s)
                 ((left.filter (fun q => (boxByte y cs q).2 ≠ 0)).map (fun q => (boxByte y cs q).1) ++ [verAddr])
               else copySteps j c.failed (CopyRun.start s) left
      r.waits = [] && !r.stall && !r.hurt && r.bad.isSome
    | .mvx minor y z _ _ _ _ =>
      let r := mvxProbe s (ctxNum s b) c (mvxPieces minor y z)
      r.waits = [] && r.bad.isSome
    | _ => false

/-- ENGINE_TRANSLATION_FAULT: a TCOPY or MVX whose global side faults runs up to the fault (R109). -/
def engineTranslationFault (b sel n : Nat) (s : State) : State :=
  if !commandFaults b sel n s then s
  else if sel = 0x1000 then copyCommandComplete b n s else mvxResult b n s

/-! ## The events -/

/-- MMA_COMPLETE (R137). -/
def execMmaComplete (b n : Nat) (s : State) : Out := .next (mmaComplete b n s)

/-- MVX_RESULT (R143). -/
def execMvxResult (b n : Nat) (s : State) : Out := .next (mvxResult b n s)

/-- ENGINE_TRANSLATION_FAULT (R109). -/
def execEngineTranslationFault (b sel n : Nat) (s : State) : Out := .next (engineTranslationFault b sel n s)

/-! ## The instructions -/

/-- ACCALLOC_W32 (R128). -/
def execAccallocW32 (o : WOps) (s : State) : Out := accalloc (opW 0xA0 o) s

/-- ACCALLOC_L64 (R128). -/
def execAccallocL64 (o : LOps) (s : State) : Out := accalloc (opL 0xA0 o) s

/-- ACCFREE_W32 (R128). -/
def execAccfreeW32 (o : WOps) (s : State) : Out := accfree (opW 0xA0 o) s

/-- ACCFREE_L64 (R128). -/
def execAccfreeL64 (o : LOps) (s : State) : Out := accfree (opL 0xA0 o) s

/-- ACCACQ_W32 (R130). -/
def execAccacqW32 (o : WOps) (s : State) : Out := accacq (opW 0xA1 o) s

/-- ACCACQ_L64 (R130). -/
def execAccacqL64 (o : LOps) (s : State) : Out := accacq (opL 0xA1 o) s

/-- ACCREL_W32 (R130). -/
def execAccrelW32 (o : WOps) (s : State) : Out := accrel (opW 0xA1 o) s

/-- ACCREL_L64 (R130). -/
def execAccrelL64 (o : LOps) (s : State) : Out := accrel (opL 0xA1 o) s

/-- ACCLD_W32 (R131). -/
def execAccldW32 (o : WOps) (s : State) : Out := accld (opW 0xA3 o) s

/-- ACCLD_L64 (R131). -/
def execAccldL64 (o : LOps) (s : State) : Out := accld (opL 0xA3 o) s

/-- ACCST (R131). -/
def execAccst (o : LOps) (s : State) : Out := accst (opL 0xA3 o) s

/-- ACCZERO_W32 (R131). -/
def execAcczeroW32 (o : WOps) (s : State) : Out := acczero (opW 0xA3 o) s

/-- ACCZERO_L64 (R131). -/
def execAcczeroL64 (o : LOps) (s : State) : Out := acczero (opL 0xA3 o) s

/-- MMA (R134). -/
def execMma (o : LOps) (s : State) : Out := mma (opL 0xA2 o) s

/-- MVX (R140). -/
def execMvx (o : LOps) (s : State) : Out := mvx (opL 0xA4 o) s

end Sys2Proof.Machine
end

