-- ==== Sys2Proof/Machine/Registers.lean ====
section
/-! DEFINITION. Registers: the BAR (23 R428, R430, R431, R445; 25 R480-R482; 26 R489-R491; 27 R499, R501; 29 R522), the ports' states (27
R502-R505), and the host's window on the capacity tier (23 R429). -/

namespace Sys2Proof.Machine

/-! ## Channel and log registers -/

/-- A write that is ignored and sets CFGERR. -/
def cfgErr (s : State) : State := { s with chan := { s.chan with cfgerr := true } }

/-- A ring size (R430). -/
def sizeOk (v : DWord) : Bool := 64 ≤ v.toNat && v.toNat ≤ 65536 && 2 ^ v.toNat.log2 = v.toNat

/-- A configuration register of the channel takes a value in range while EN is 0 (R430). -/
def cfgWrite (s : State) (ok : Bool) (f : Channel → Channel) : State :=
  if s.chan.en || !ok then cfgErr s else { s with chan := f s.chan }

/-- CHCTL (R431): held events go out once EN is set. -/
def chctlWrite (v : DWord) (s : State) : State :=
  drainEvents { s with chan := { s.chan with en := v.getLsbD 0, snoop := v.getLsbD 1 } }

/-- CHSTAT: EVOVF and CFGERR are cleared by writing 1 (R431). -/
def chstatWrite (v : DWord) (s : State) : State :=
  { s with chan := { s.chan with evovf := s.chan.evovf && !v.getLsbD 4, cfgerr := s.chan.cfgerr && !v.getLsbD 1 } }

/-- CMDTAIL (R435). -/
def cmdtailWrite (v : DWord) (s : State) : State :=
  if v.toNat < s.chan.cmdacc.toNat || s.chan.cmdacc.toNat + s.chan.cmdsize.toNat < v.toNat then s
  else { s with chan := { s.chan with cmdtail := v, seqerr := false } }

/-- CPLHEAD (R430, R437). -/
def cplheadWrite (v : DWord) (s : State) : State :=
  if v.toNat < s.chan.cplhead.toNat || s.chan.cplemit.toNat < v.toNat then cfgErr s
  else drainEvents { s with chan := { s.chan with cplhead := v } }

/-- A launch that the host has not dispatched goes back to the device's arbitration (R445). -/
def undutied (l : Launch) : Launch := if l.dispatched then l else { l with lready := false }

/-- DUTY (R444, R445): launches whose waits hold already are ready in the mode they began in; those not dispatched revert when bit 3 is
cleared. -/
def dutyWrite (v : DWord) (s : State) : State :=
  let s1 := readyAll (openLaunches s) s
  { s1 with
    chan := { s1.chan with duty := v &&& 0x1F }
    launches := if v.getLsbD 3 then s1.launches else Tbl.mapVals s1.launches (fun _ l => undutied l) }

/-- LOGHEAD (25 R480). -/
def logheadWrite (v : DWord) (s : State) : State :=
  if v.toNat < s.log.head.toNat || s.log.tail.toNat < v.toNat then cfgErr s else { s with log := { s.log with head := v } }

/-- LOGSTAT: OVF is cleared by writing 1 (25 R480). -/
def logstatWrite (v : DWord) (s : State) : State := { s with log := { s.log with ovf := s.log.ovf && !v.getLsbD 0 } }

/-- LOGHBASE (25 R480). -/
def loghbaseWrite (v : DWord) (s : State) : State :=
  if v.toNat % 4096 ≠ 0 || s.log.hsize ≠ 0 then cfgErr s else { s with log := { s.log with hbase := v } }

/-- LOGHSIZE (25 R480). -/
def loghsizeWrite (v : DWord) (s : State) : State :=
  if (v ≠ 0 && !sizeOk v) || (!s.chan.duty.getLsbD 1 && s.log.hsize ≠ 0) then cfgErr s else { s with log := { s.log with hsize := v } }

/-- The fabric registers take a value while no collective context is bound (27 R499). -/
def fabWrite (s : State) (ok : Bool) (f : Fabric → Fabric) : State :=
  if !ok || s.ccs.any (fun c => c.2.st ≠ .unbound) then cfgErr s else { s with fab := f s.fab }

/-! ## Ports (27 R501, R502) -/

/-- A port leaves LIVE or TRAINING for a state, out of the spray set: what it sent and had not acknowledged is lost (R502, R504). -/
def portTo (s : State) (p : Nat) (st : PortState) : State :=
  let q := portOf s p
  putPort (if q.inset then portLeaves s p else s) p { q with st := st, inset := false }

/-- Training starts, or starts again (R502). -/
def startTraining (s : State) (p : Nat) : State :=
  putPort s p { portOf s p with st := .training, start := s.now, since := s.now }

/-- EN as written. -/
def portEnable (s : State) (p : Nat) (en : Bool) : State :=
  let s1 := putPort s p { portOf s p with en := en }
  match (portOf s p).st with
  | .down => if en then startTraining s1 p else s1
  | .failed => s1
  | _ => if en then s1 else portTo s1 p .down

/-- PCTL written: EN, then RETRAIN; a disabled port ignores both (R501, R502). -/
def pctlWrite (p : Nat) (v : DWord) (s : State) : State :=
  if 48 ≤ p || (portOf s p).disabled then s
  else
    let s1 := portEnable s p (v.getLsbD 0)
    if v.getLsbD 1 && (portOf s1 p).st = .live then startTraining (portTo s1 p .training) p else s1

/-- A port in a state, or nothing. -/
def portIn (p : Nat) (st : PortState) (s : State) (f : State → State) : State := if p < 48 && (portOf s p).st = st then f s else s

/-- Cycles of one millisecond. -/
def cyclesPerMilli : Nat := 1000 * Config.cyclesPerMicro

/-- The lock has held for 1 ms, with FECUNC unchanged: the port is LIVE, and in the spray set unless it is out of service (R502, R524). -/
def lockHeld (p : Nat) (s : State) : State :=
  if s.now < (portOf s p).since + cyclesPerMilli then s
  else putPort s p { portOf s p with st := .live, inset := !s.mgmt.out.contains (.port p), errs := [] }

/-- PORT_LOCK_HELD (R502). -/
def execPortLockHeld (p : Nat) (s : State) : Out := .next (portIn p .training s (lockHeld p))

/-- Cycles of a window of WINFAIL: 60 s. -/
def winfailCycles : Nat := 60000 * cyclesPerMilli

/-- A port at a time: WINFAIL is 0 at the start of each window of 60 s (R502). -/
def Port.windowAt (q : Port) (now : Nat) : Port :=
  if now < q.window + winfailCycles then q
  else { q with winfail := 0, window := now - (now - q.window) % winfailCycles }

/-- A training attempt fails after 100 ms; the eighth in a window fails the port (R502, 29 R523). -/
def trainingFails (p : Nat) (s : State) : State :=
  let q := (portOf s p).windowAt s.now
  if s.now < q.start + 100 * cyclesPerMilli then s
  else if 8 ≤ q.winfail + 1 then removeUnit (putPort s p { q with winfail := q.winfail + 1, st := .failed, inset := false }) (.port p) 2 0
  else startTraining (putPort s p { q with winfail := q.winfail + 1 }) p

/-- TRAINING_TIMEOUT (R502). -/
def execTrainingTimeout (p : Nat) (s : State) : Out := .next (portIn p .training s (trainingFails p))

/-- A LIVE port loses lock: LOCKLOSS and one PORTLOCK counter update (R502). -/
def loseLock (p : Nat) (s : State) : State :=
  let s1 := startTraining (portTo s p .training) p
  countClass clsPortLock (putPort s1 p { portOf s1 p with lockloss := (portOf s1 p).lockloss + 1 })

/-- LOCK_LOSS (R502). -/
def execLockLoss (p : Nat) (s : State) : Out := .next (portIn p .live s (loseLock p))

/-- Codewords met now outside a packet, which FECUNC and FECCORR count (R501): in training the lock counts from the uncorrectable ones; on a
LIVE port the fourth within 1 ms loses the lock (R502). -/
def codewords (p n corr : Nat) (s : State) : State :=
  let q := (portOf s p).received 0 corr
  let errs := List.replicate n s.now ++ q.errs.filter (fun t => s.now < t + cyclesPerMilli)
  let q1 := { q with fecunc := q.fecunc + BitVec.ofNat 64 n }
  match q.st with
  | .training => putPort s p (if n = 0 then q1 else { q1 with since := s.now })
  | .live => if 4 ≤ errs.length then loseLock p (putPort s p { q1 with errs := [] }) else putPort s p { q1 with errs := errs }
  | _ => s

/-- FEC_UNCORRECTABLE_BURST (R502): a burst of codewords. -/
def execFecUncorrectableBurst (q : FecBurst) (s : State) : Out := .next (if q.port < 48 then codewords q.port q.count q.corr s else s)

/-- A window of 60 s is over: WINFAIL is 0 at the start of the next (R502). -/
def windowEnds (p : Nat) (s : State) : State :=
  if s.now < (portOf s p).window + winfailCycles then s else putPort s p ((portOf s p).windowAt s.now)

/-- WINFAIL_WINDOW (R502). -/
def execWinfailWindow (p : Nat) (s : State) : Out := .next (if p < 48 then windowEnds p s else s)

/-! ## Writes of the BAR (R428, R430) -/

/-- An aligned 8-byte write. -/
def barStore (off : Nat) (v : DWord) (s : State) : State :=
  match off with
  | 0x008 => chctlWrite v s
  | 0x010 => chstatWrite v s
  | 0x018 => cfgWrite s (v.toNat % 4096 = 0) (fun c => { c with cmdbase := v })
  | 0x020 => cfgWrite s (sizeOk v) (fun c => { c with cmdsize := v })
  | 0x028 => cmdtailWrite v s
  | 0x038 => cfgWrite s (v.toNat % 4096 = 0) (fun c => { c with cplbase := v })
  | 0x040 => cfgWrite s (sizeOk v) (fun c => { c with cplsize := v })
  | 0x048 => cplheadWrite v s
  | 0x058 => dutyWrite v s
  | 0x060 => cfgWrite s (v.toNat % 2 ^ 30 = 0) (fun c => { c with winbase := v })
  | 0x068 => cfgWrite s (v.toNat % 2 ^ 30 = 0) (fun c => { c with winsize := v })
  | 0x100 => logheadWrite v s
  | 0x110 => logstatWrite v s
  | 0x128 => loghbaseWrite v s
  | 0x130 => loghsizeWrite v s
  | 0x40000 => fabWrite s true (fun f => { f with valid := v.getLsbD 22, rank := bitsOf v.toNat 0 22 })
  | 0x40008 => fabWrite s (v.extractLsb' 0 22 = 0) (fun f => { f with pfxlo := v })
  | 0x40010 => fabWrite s true (fun f => { f with pfxhi := v })
  | _ => if 0x41000 ≤ off && (off - 0x41000) % 0x40 = 0 then pctlWrite ((off - 0x41000) / 0x40) v s else s

/-- A write of the BAR: ignored until READY (26 R489), and of no effect at any other width or alignment (R428). -/
def barWrite (off width : Nat) (v : DWord) (s : State) : State := if !s.mgmt.ready || off % 8 ≠ 0 || width ≠ 8 then s else barStore off v s

/-- CMDTAIL_WRITE (R435). -/
def execCmdtailWrite (v : DWord) (s : State) : Out := .next (barWrite 0x028 8 v s)
/-- CPLHEAD_WRITE (R437). -/
def execCplheadWrite (v : DWord) (s : State) : Out := .next (barWrite 0x048 8 v s)
/-- CHANNEL_ENABLE (R431). -/
def execChannelEnable (v : DWord) (s : State) : Out := .next (barWrite 0x008 8 v s)
/-- SNOOP_MODE (R431): the same register as CHANNEL_ENABLE. -/
def execSnoopMode (v : DWord) (s : State) : Out := .next (barWrite 0x008 8 v s)
/-- CHSTAT_CLEAR (R431). -/
def execChstatClear (v : DWord) (s : State) : Out := .next (barWrite 0x010 8 v s)
/-- DUTY_WRITE (R445). -/
def execDutyWrite (v : DWord) (s : State) : Out := .next (barWrite 0x058 8 v s)
/-- LOGHEAD_WRITE (25 R480). -/
def execLogheadWrite (v : DWord) (s : State) : Out := .next (barWrite 0x100 8 v s)
/-- LOGSTAT_CLEAR (25 R480). -/
def execLogstatClear (v : DWord) (s : State) : Out := .next (barWrite 0x110 8 v s)
/-- PORT_ENABLE (27 R502). -/
def execPortEnable (p : Nat) (v : DWord) (s : State) : Out := .next (if p < 48 then barWrite (0x41000 + 0x40 * p) 8 v s else s)
/-- PORT_RETRAIN (27 R502): the same register as PORT_ENABLE. -/
def execPortRetrain (p : Nat) (v : DWord) (s : State) : Out := .next (if p < 48 then barWrite (0x41000 + 0x40 * p) 8 v s else s)
/-- REGISTER_WRITE (R430): at an offset, of a width in bytes (R428). -/
def execRegisterWrite (w : BarAccess) (v : DWord) (s : State) : Out := .next (barWrite w.off w.width v s)

/-! ## Reads of the BAR -/

/-- CHSTAT (R431). An enabled channel with CMDSIZE 0 accepts nothing: RUN reads 0 (log 121). -/
def chstat (c : Channel) : DWord :=
  let full := cplFull c
  BitVec.ofNat 64 ((if c.evovf then 16 else 0) + (if full then 8 else 0) + (if c.seqerr then 4 else 0) + (if c.cfgerr then 2 else 0) +
    (if c.en && !c.seqerr && !full && c.cmdsize ≠ 0 then 1 else 0))

/-- BOOTSTAT (26 R490). -/
def bootstat (m : Mgmt) : DWord :=
  BitVec.ofNat 64 (m.svn % 2 ^ 32 * 2 ^ 32 + m.fail % 256 * 2 ^ 24 + (if m.keyend then 512 else 0) + (if m.bankB then 256 else 0) +
    (if m.idfail then 4 else 0) + (if m.recovery then 2 else 0) + (if m.ready then 1 else 0))

/-- The number of a port's state (27 R501). -/
def PortState.code (st : PortState) : Nat :=
  match st with
  | .down => 0
  | .training => 1
  | .live => 2
  | .failed => 3

/-- A register of a port block (27 R501). -/
def portRead (q : Port) (off : Nat) : DWord :=
  match off with
  | 0x00 => if q.en then 1 else 0
  | 0x08 => BitVec.ofNat 64 (q.lockloss.toNat * 2 ^ 32 + q.winfail % 2 ^ 16 * 2 ^ 16 + (if q.inset then 256 else 0) + q.st.code)
  | 0x10 => q.tx
  | 0x18 => q.rx
  | 0x20 => q.feccorr
  | 0x28 => q.fecunc
  | _ => 0

/-- A counter word (25 R482). -/
def counterWord (c : Counter) : DWord := c.esn ++ c.count

/-- One word of a log entry (25 R480, R481). -/
def logRead (l : ErrorLog) (off : Nat) : DWord :=
  let e := Tbl.getD l.entries (off / 32) (0, 0, 0, 0)
  match off % 32 / 8 with
  | 0 => e.1
  | 1 => e.2.1
  | 2 => e.2.2.1
  | _ => e.2.2.2

/-- The words beyond the registers with an offset of their own. -/
def barReadBlock (s : State) (off : Nat) : DWord :=
  if 0x300 ≤ off && off < 0x400 then BitVec.ofNat 64 (leNat (((s.mgmt.meas.getD ((off - 0x300) / 32) []).drop (off % 32)).take 8))
  else if 0x800 ≤ off && off < 0x900 then counterWord ((Tbl.get s.log.counters ((off - 0x800) / 8)).getD Counter.zero)
  else if 0x1000 ≤ off && off < 0x5000 then
    let c := ctxOf s ((off - 0x1000) / 0x100)
    if c.st = .free then 0 else counterWord ((c.counters[off % 0x100 / 8]?).getD Counter.zero)
  else if 0x10000 ≤ off && off < 0x30000 then logRead s.log (off - 0x10000)
  else if 0x41000 ≤ off && off < 0x41C00 then portRead ((portOf s ((off - 0x41000) / 0x40)).windowAt s.now) (off % 0x40)
  else 0

/-- What an aligned 8-byte read of the BAR gives (R428, R430). -/
def barLoad (s : State) (off : Nat) : DWord :=
  match off with
  | 0x000 => 0x10000
  | 0x008 => BitVec.ofNat 64 ((if s.chan.snoop then 2 else 0) + (if s.chan.en then 1 else 0))
  | 0x010 => chstat s.chan
  | 0x018 => s.chan.cmdbase
  | 0x020 => s.chan.cmdsize
  | 0x028 => s.chan.cmdtail
  | 0x030 => s.chan.cmdacc
  | 0x038 => s.chan.cplbase
  | 0x040 => s.chan.cplsize
  | 0x048 => s.chan.cplhead
  | 0x050 => s.chan.cplemit
  | 0x058 => s.chan.duty
  | 0x060 => s.chan.winbase
  | 0x068 => s.chan.winsize
  | 0x070 => s.chan.evdrop
  | 0x100 => s.log.head
  | 0x108 => s.log.tail
  | 0x110 => if s.log.ovf then 1 else 0
  | 0x118 => s.log.drop
  | 0x120 => s.log.esn.zeroExtend 64
  | 0x128 => s.log.hbase
  | 0x130 => s.log.hsize
  | 0x200 => bootstat s.mgmt
  | 0x210 => healthWord s
  | 0x40000 => BitVec.ofNat 64 ((if s.fab.valid then 2 ^ 22 else 0) + s.fab.rank % 2 ^ 22)
  | 0x40008 => s.fab.pfxlo
  | 0x40010 => s.fab.pfxhi
  | _ => barReadBlock s off

/-- A read of the BAR of a width in bytes: at any other width or alignment 0 (R428); until READY only BOOTSTAT is not 0 (26 R489). -/
def barRead (s : State) (off width : Nat) : DWord :=
  if off % 8 ≠ 0 || width ≠ 8 || (!s.mgmt.ready && off ≠ 0x200) then 0 else barLoad s off

/-! ## The CXL.mem window (R428, R429) -/

/-- `n` bytes at an offset of the window lie in it and in the capacity tier. A WINBASE and a WINSIZE whose window reaches beyond the tier are
accepted, and the bytes beyond are not reached: R430 does not say whether such values are out of range (DESIGN CHOICE, log 134). -/
def inWindow (s : State) (off n : Nat) : Bool :=
  s.mgmt.ready && off + n ≤ s.chan.winsize.toNat && s.chan.winbase.toNat + off + n ≤ Config.capacityBytes

/-- The bytes that a read through the window gives: those of the capacity tier (R429). -/
def windowBytes (s : State) (off n : Nat) : List Byte := (List.range n).map (readByte s Shadow.empty (.cap (s.chan.winbase.toNat + off)))

/-- Every line of a range of the capacity tier read (03 R81). -/
def touchRange (pa n : Nat) (s : State) : State :=
  (List.range ((pa % 128 + n + 127) / 128)).foldl (fun s k => touch s (.cap (pa / 128 * 128 + 128 * k)) false) s

/-- An access of the host through the window, or to its own memory. -/
def hostAccess (w : HostAccess) (s : State) : State :=
  match w with
  | .read off n => if inWindow s off n then touchRange (s.chan.winbase.toNat + off) n s else s
  | .write off bs =>
    if inWindow s off bs.length then writePhys s { b := none, t := 0, counted := false } (.cap (s.chan.winbase.toNat + off)) bs else s
  | .ownWrite pa bs => { s with host := writeBytes s.host pa bs }

/-- HOST_MEMORY_ACCESS (R429). -/
def execHostMemoryAccess (w : HostAccess) (s : State) : Out := .next (hostAccess w s)

end Sys2Proof.Machine
end

