-- ==== Sys2Proof/Machine/Supply.lean ====
section
/-! DEFINITION. Supply: voltage, power and heat (25 R478; 29 R525). -/

namespace Sys2Proof.Machine

/-- DROOP_TRIP (R478): the clock of a region stretches; cycle counts and results do not change; the DROOP counter counts. -/
def execDroopTrip (_region : Nat) (s : State) : Out := .next (countClass clsDroop s)

/-- INPUT_UNDERVOLTAGE (R478): ridden through on module capacitance at full load. -/
def execInputUndervoltage (s : State) : Out := .next s

/-- The launches with placed blocks or saved ones. -/
def placedLaunches (s : State) : List (Nat × Launch) := s.launches.filter (fun q => q.2.st = .placed)

/-- The contexts that a brown-out kills: those of placed launches that may not be replayed. -/
def brownKills (s : State) : List Nat := (((placedLaunches s).filter (fun q => !replayable q.2 false)).map (fun q => q.2.ctx)).eraseDups

/-- Contexts killed in order, for an error (24 R449 reason 2). -/
def killAll (xs : List Nat) (s : State) : State :=
  match xs with
  | [] => s
  | x :: r => killAll r (killContext s x 2 0 none)

/-- Rounds aborted in order. -/
def abortAll (ns : List Nat) (s : State) : State :=
  match ns with
  | [] => s
  | n :: r => abortAll r (abortRound s n 4 0)

/-- A brown-out (R478): contexts of non-replayable launches are killed, the other placed launches queued for replay, ACTIVE rounds aborted,
placement held off; one BROWNOUT entry (25 R526). -/
def brownOut (s : State) : State :=
  let kills := brownKills s
  let s1 := killAll kills { s with mgmt := { s.mgmt with brown := true } }
  let again := (placedLaunches s1).map (fun q => q.1)
  let s2 := abortAll (s.ccs.map (fun c => c.1)) (replayAll 5 again s1)
  logEntry { cls := clsBrownout, ctx := 0xFF, aux := 0, unit := 6, place := 0, value0 := BitVec.ofNat 64 again.length,
             value1 := BitVec.ofNat 64 kills.length } s2

/-- BROWNOUT (R478). -/
def execBrownout (s : State) : Out := .next (if s.mgmt.ready && !s.mgmt.brown then brownOut s else s)

/-- BROWNOUT_RECOVERY (R478): placement resumes. -/
def execBrownoutRecovery (s : State) : Out := .next { s with mgmt := { s.mgmt with brown := false } }

/-- POWER_LOSS (R478). -/
def execPowerLoss (s : State) : Out := .next (losePower s)

/-- THERMAL_THROTTLE (R525): the clock stretches; results do not change. -/
def execThermalThrottle (s : State) : Out := .next s

/-- THERMAL_SHUTDOWN (R525): handled as power lost. -/
def execThermalShutdown (s : State) : Out := .next (losePower s)

end Sys2Proof.Machine
end

