-- ==== Sys2Proof/Machine/Fetch.lean ====
section
/-! DEFINITION. Fetch: the instruction that an agent runs next: the parcels of a split's, the word of a collective context's, the entry
that the channel takes (09 R210-R212, R223, R224, R233; 16 R346, R348; 23 R435). -/

namespace Sys2Proof.Machine

/-! ## Parcels (R210-R212) -/

/-- What the fetch of some bytes comes to. -/
inductive Fetched where
  /-- The bytes, as a little-endian number. -/
  | bytes (v : Nat) (s : State)
  /-- A miss: the page waited on. -/
  | miss (page : Nat) (s : State)
  /-- XLATE or ACCESS at an address. -/
  | barred (code a : Nat)
  /-- The bytes hold poison (25 R470). -/
  | poison

/-- `n` bytes of one page fetched from a context's space, as a unit sees it (24 R454: X; 25 R472). Neither a fetch nor a page walk moves a
line into L2 or a sector into HBM (DESIGN CHOICE, log 3). -/
def fetchBytes (s : State) (h : Shadow) (x : Nat) (failed : List Nat) (a n : Nat) : Fetched :=
  if failed.contains (a / 65536) then .barred 0x07 a
  else match xlate s x a with
  | .leaf pa _ sys _ _ ex =>
    let p : Phys := if sys then .sys pa else .cap pa
    if !ex then .barred 0x08 a
    else if poisoned s h p n then .poison
    else .bytes (readPhys s h p n) (noteXlate s x a)
  | .stop level cls => .miss (a / 65536) (joinRecord s x (a / 65536) level cls needX.kinds)

/-- The address of a parcel of an instruction. -/
def parcelAddr (pc : BitVec 56) (i : Nat) : Nat := (pc + BitVec.ofNat 56 (2 * i)).toNat

/-- `n` parcels from the `i`-th of an instruction, as a number: the first that fails decides. -/
def fetchParcels (h : Shadow) (n i x : Nat) (failed : List Nat) (pc : BitVec 56) (s : State) : Fetched :=
  match n with
  | 0 => .bytes 0 s
  | n + 1 =>
    match fetchBytes s h x failed (parcelAddr pc i) 2 with
    | .bytes v s1 =>
      match fetchParcels h n (i + 1) x failed pc s1 with
      | .bytes w s2 => .bytes (v + 65536 * w) s2
      | r => r
    | r => r

/-- All parcels of the instruction at an address: its first gives their number (R211). -/
def fetchCode (s : State) (h : Shadow) (x : Nat) (failed : List Nat) (pc : BitVec 56) : Fetched :=
  match fetchBytes s h x failed pc.toNat 2 with
  | .bytes v s1 => fetchParcels h (parcelCount (BitVec.ofNat 16 v)) 0 x failed pc s1
  | r => r

/-! ## Decode errors (R223, R224, R233) -/

/-- The first parcel of a word. -/
def firstParcel (w : BitVec 96) : BitVec 16 := w.extractLsb' 0 16

/-- The end of an instruction that no term stands for, by its length (R211). -/
def pastWord (pc : BitVec 56) (w : BitVec 96) : BitVec 56 := pc + BitVec.ofNat 56 (2 * parcelCount (firstParcel w))

/-- ILLOP of a split whose instruction no term stands for; under an empty mask it takes no trap (R223). -/
def badWord (s : State) (b t e : Nat) (w : BitVec 96) : State :=
  match (teamOf s b t).bind (fun m => Tbl.get m.splits e) with
  | none => s
  | some p =>
    if p.mask = 0 then onSplit s b t e (fun p => p.stepTo (pastWord p.pc w) s)
    else takeTrap s b t e { code := 0x01, pc := p.pc, res := p.pc, parcel := firstParcel w } false []

/-- RESERVED_ENCODING (R233): ILLOP; under an empty mask no trap (R223). -/
def execReservedEncoding (w : BitVec 96) (s : State) : Out :=
  match issuer s with
  | none => .fault .noIssuer
  | some i => .next (badWord s i.b i.t i.e w)

/-! ## Who may issue (01 R37, R42-R44; 15 R339; 16 R368) -/

/-- A split waits on a fault record. -/
def waitsPage (p : Split) : Bool := p.held.any (fun h => h.waits ≠ [])

/-- A split is READY, or in WAIT-OP at an instruction that may go on, or has a trap pending. -/
def splitGoes (p : Split) : Bool := (p.st = .ready || p.st = .waitOp || p.pend.isSome) && !p.stopped && !waitsPage p

/-- A team runs; or, TRAPPED, the split runs its handler or has an instruction that it issued before (15 R339). -/
def teamIssues (m : Team) (p : Split) : Bool :=
  m.st = .running || (m.st = .trapped && (inHandler m p || (openHeld p).any (fun h => !h.fetching)))

/-- A block's team may issue: the block runs; or it is being saved, and a command of the team is stalled in a fault that its handler has to
deal with first (04 R108; log 115). -/
def blockIssues (k : Block) (t : Nat) : Bool := blockActive k || (k.st = .saving && k.cmds.any (fun c => c.team = t && c.stalled))

/-- The records of a split that may issue. -/
def issuing (s : State) (b t e : Nat) : Option (Block × Team × Split) :=
  match Tbl.get s.blocks b with
  | none => none
  | some k =>
    match (Tbl.get k.teams t).bind (fun m => (Tbl.get m.splits e).map (fun p => (k, m, p))) with
    | none => none
    | some q => if blockIssues k t && teamIssues q.2.1 q.2.2 && splitGoes q.2.2 then some q else none

/-- A collective context may issue. -/
def ccIssues (c : Cc) : Bool := (c.st = .running || c.st = .waiting) && c.waits = []

/-! ## Splits -/

/-- An issue record for a split that waits on the fetch of its instruction. -/
def fetchHeld (h : Option Held) (page : Nat) : Held :=
  match h with
  | some q => { q with fetching := true, waits := [page], code := none }
  | none => { xs := [], q0 := none, q1 := none, done := 0, waits := [page], failed := [], spgen := none, latched := false, code := none,
              fetching := true }

/-- The issue record of a split whose instruction has been fetched. -/
def fetchedHeld (h : Option Held) : Option Held :=
  match h with
  | none => none
  | some q => if q.xs = [] then none else some { q with fetching := false }

/-- The pages on which a split's fetch failed. -/
def fetchFailed (p : Split) : List Nat :=
  match p.held with
  | none => []
  | some h => if h.fetching then h.failed else []

/-- What an agent's turn comes to: nothing more to do, or an instruction to run in a state. -/
inductive Turn where
  | settled (s : State)
  | run (i : Instr) (w : BitVec 96) (s : State)

/-- The term that a split runs for a fetched word; ILLOP where the decoder rejects it. -/
noncomputable def turnOf (s : State) (b t e : Nat) (w : BitVec 96) : Turn :=
  match decode w with
  | .ok i => .run i w { s with cur := .split b t e }
  | .error _ => .settled (badWord s b t e w)

/-- The turn of a split that may issue, with no trap due and no breakpoint: an open instruction goes on, another is fetched. -/
noncomputable def splitTurn (s : State) (b t e : Nat) (p : Split) : Turn :=
  match p.held.bind (fun h => h.code) with
  | some w => turnOf s b t e w
  | none =>
    match fetchCode s (shadowOf s b) (ctxNum s b) (fetchFailed p) p.pc with
    | .bytes v s1 => turnOf (onSplit s1 b t e (fun p => { p with held := fetchedHeld p.held })) b t e (BitVec.ofNat 96 v)
    | .miss page s1 => .settled (onSplit s1 b t e (fun p => { p with st := .waitOp, held := some (fetchHeld p.held page), stamp := s1.tick, avail := none }))
    | .barred code a =>
      .settled (takeTrap s b t e { code := code, pc := p.pc, res := p.pc, val := BitVec.ofNat 64 a } false [])
    | .poison => .settled (consumePoison s b)

/-- An address breakpoint stops the split before its next instruction (25 R468). -/
def breakDue (s : State) (b : Nat) (p : Split) : Bool :=
  p.st = .ready && p.held.isNone && !p.bpSkip && breaksAt (ctxOf s (ctxNum s b)) p.pc

/-- A trap due at a boundary, taken; a step of the team ends with it (15 R339, R340; 25 R465, R469). -/
def trapTurn (s : State) (b t e : Nat) (p : Split) : State :=
  if p.step then endStep (deliverDue s b t) b t e else deliverDue s b t

/-- A split's turn. -/
noncomputable def turnSplit (s : State) (b t e : Nat) : Turn :=
  match issuing s b t e with
  | none => .settled s
  | some (_, m, p) =>
    if dueTrap s (ctxNum s b) t m then .settled (trapTurn s b t e p)
    else if breakDue s b p then .settled (takeBreakpoint s b t e)
    else splitTurn s b t e p

/-- A split that is still at its instruction keeps its word, and gives way to others; any other has passed its breakpoint. -/
def keepWord (w : BitVec 96) (tick : Nat) (p : Split) : Split :=
  if p.st = .waitOp then { p with stamp := tick, held := p.held.map (fun h => if h.code.isNone then { h with code := some w } else h) } else { p with bpSkip := false }

/-- After an instruction of a split: its word is kept while it waits; a step ends (25 R469). -/
def afterSplit (b t e : Nat) (w : BitVec 96) (before : Split) (s : State) : State :=
  let s1 := onSplit s b t e (keepWord w s.tick)
  if before.step && before.st = .ready then endStep s1 b t e else s1

/-! ## Collective contexts (16 R345, R346) -/

/-- A collective context's turn: 8 bytes fetched and decoded. -/
noncomputable def turnCc (s : State) (n : Nat) : Turn :=
  let c := ccOf s n
  if !ccIssues c then .settled s
  else if 2 ^ 56 ≤ c.pc.toNat then .settled (ccFault s n 0x08 1)
  else match fetchBytes s Shadow.empty c.ctx c.failed c.pc.toNat 8 with
    | .bytes v s1 =>
      match decodeFuset (BitVec.ofNat 64 v) with
      | .ok i => .run i 0 { s1 with cur := .cc n }
      | .error _ => .settled (ccFault s1 n 0x01 2)
    | .miss page s1 => .settled (onCc s1 n (fun c => { c with waits := [page], stamp := s1.tick }))
    | .barred code _ => .settled (ccFault s n code (if code = 0x07 then 0 else 1))
    | .poison => .settled (fabricPoison s)

/-- An agent's turn. -/
noncomputable def turnAgent (s : State) (a : Agent) : Turn :=
  match a with
  | .none => .settled s
  | .split b t e => turnSplit s b t e
  | .cc n => turnCc s n

/-- After an agent's instruction. -/
def afterAgent (a : Agent) (w : BitVec 96) (before s : State) : State :=
  match a with
  | .split b t e =>
    match (teamOf before b t).bind (fun m => Tbl.get m.splits e) with
    | none => s
    | some p => afterSplit b t e w p s
  | _ => s

/-! ## The channel's next entry (23 R435) -/

/-- The entry at a host address. -/
def entryAt (h : List Host.Cell) (a : Nat) : Cmd :=
  let w := fun (o : Nat) => BitVec.ofNat 64 (leNat (readBytes h (a + o) 8))
  { seq := w 0x00, head := w 0x08, a0 := w 0x10, a1 := w 0x18, a2 := w 0x20, a3 := w 0x28, a4 := w 0x30, a5 := w 0x38 }

/-- Where entry `n` lies (R430). -/
def entryPlace (c : Channel) (n : DWord) : Nat := c.cmdbase.toNat + 64 * (n.toNat % c.cmdsize.toNat)

/-- The channel may accept: it runs, and the event ring has room (R431, R435, R437). With CMDSIZE 0 no entry has a place, and none is
accepted (DESIGN CHOICE, log 121). -/
def channelRuns (s : State) : Bool :=
  s.mgmt.ready && s.chan.en && !s.chan.seqerr && s.chan.cmdsize ≠ 0 && !cplFull s.chan

/-- The entry to be taken next has been announced: by the tail, or, when snooping, by its number. -/
def entryDue (s : State) : Bool :=
  let n := s.chan.cmdacc + 1
  channelRuns s && (if s.chan.snoop then (entryAt s.host (entryPlace s.chan n)).seq = n else n.toNat ≤ s.chan.cmdtail.toNat)

/-- Acceptance stops at an entry with a wrong number (R435). -/
def seqErr (s : State) (seq : DWord) : State :=
  emit (event evSeqErr 0 0 0 seq.toNat (s.chan.cmdacc + 1).toNat) { s with chan := { s.chan with seqerr := true } }

/-- The channel's turn. -/
noncomputable def turnChannel (s : State) : Turn :=
  if !entryDue s then .settled s
  else
    let n := s.chan.cmdacc + 1
    let c := entryAt s.host (entryPlace s.chan n)
    if c.seq = n then .run (decodeCommand c) 0 { s with cur := .none } else .settled (seqErr s c.seq)

end Sys2Proof.Machine
end

