-- ==== Sys2Proof/Machine/Place.lean ====
section
/-! DEFINITION. Place: a launch already placed in a context already made, which is how `withFetchWord` sets an instruction up as the
next one to run (log 1). -/

namespace Sys2Proof.Machine

/-- A launch record of one gang of one block of one team: 32 lanes, 32 registers, all fields of a kind the checks of R41 accept. -/
def slotRecord : LaunchRec :=
  { tentry := 0x100000, fentry := 0x100000, jentry := 0, handler := 0, param := 0x20000, gang := 1, gridx := 1, gridy := 1,
    gridz := 1, kregs := 192, regs := 240, maxt := 1, initt := 1, width := 32, accmax := 0, span := 0, scratch := 4096,
    strict := false, ldesc := false, nreplay := false, shrinkok := false, det := false, commit := 0, prio := 0, tlid := 0,
    tlval := 1 }

/-- That launch, submitted on the privileged queue and placed. -/
def slotLaunch : Launch :=
  { ctx := 0, lr := slotRecord, priv := true, waits := [], ack := false, st := .placed, ready := true, nextGang := 1,
    blocksDone := [], committed := [], param := some (List.replicate 256 0), paramWait := none, writeBack := false, seat := 0, replays := 0, nonReplay := false,
    dispatched := true, lready := true, writers := [], shadow := Shadow.empty, pubs := [], gangs := [newGang 0 0 0 slotRecord],
    rerun := [], blockedSince := [] }

/-- Its block. -/
def slotBlock (now tick : Nat) : Block := newBlock 0 0 0 0 0 0 slotRecord [0] [0] 0 1 now tick

/-- Its context: page tables at 0x10000, maps high up. -/
def slotCtx : Ctx :=
  { Ctx.free with st := .live, root := 0x10000, tlmap := 0x80000000000000, sbmap := 0x80000000080000, lpbase := 0x180000, nframes := 1,
                  lpstride := 2, lpuser := 64, shrlim := 100, wdlog := 30, framesUsed := [0] }

/-- An entry of a page table, at an address. -/
def tableEntry (m : List Host.Cell) (a v : Nat) : List Host.Cell := writeBytes m a (leBytes 8 v)

/-- Page tables that map the pages 0x0 to 0x1F0000 of addresses to themselves, with all permissions. -/
def slotTables (m : List Host.Cell) : List Host.Cell :=
  tableEntry (tableEntry (tableEntry m 0x10000 0x30001) 0x30000 0x40001) 0x40000 0x3B

/-- The machine after boot with that context, launch and block. -/
def slotState (s : State) : State :=
  { s with mgmt := { s.mgmt with ready := true }, ctxs := Tbl.put s.ctxs 0 slotCtx, mem := slotTables s.mem,
           launches := Tbl.put s.launches 0 slotLaunch, blocks := Tbl.put s.blocks 0 (slotBlock s.now s.tick),
           nextBlock := 1, cores := Tbl.put s.cores 0 { gen := 2, serial := 1 }, tlb := [], due := [] }

/-- A word's bits are those of PUSHD, which front programs alone run (13 R307). -/
def slotFront (w : Nat) : Bool := if bitsOf w 0 2 = 1 then bitsOf w 2 8 = 0x97 else bitsOf w 0 2 = 3 && bitsOf w 3 8 = 0x97

/-- The agent that runs the word: the team's first split, or the front program. -/
def slotAgent (w : Nat) : Agent := .split 0 (if slotFront w then 16 else 0) 0

/-- That machine with an instruction's bytes where its agent fetches, and that agent to move next. -/
def slotWith (s : State) (nbits w : Nat) : State :=
  let s1 := slotState s
  { s1 with mem := writeBytes s1.mem 0x100000 (leBytes 12 (w % 2 ^ nbits)), agenda := [.run (slotAgent (w % 2 ^ nbits))] }

end Sys2Proof.Machine
end

