-- ==== Sys2Proof/Machine/Agenda.lean ====
section
/-! DEFINITION. Agenda: which move comes next: work that errors have started, the move chosen, or the one that comes when none is chosen
(log 1). -/

namespace Sys2Proof.Machine


/-- A split is READY to issue, or has a trap to take (01 R42). -/
def splitReady (p : Split) : Bool := ((readySince p).isSome || (p.pend.isSome && !p.stopped)) && !waitsPage p

/-- The splits of a team that may issue, with their stamps. -/
def teamTurns (b t : Nat) (m : Team) : List (Nat × Agent) :=
  (m.splits.filter (fun c => teamIssues m c.2 && splitReady c.2)).map (fun c => (c.2.stamp, .split b t c.1))

/-- The READY splits of a datapath of a core that may issue, with the cycle since which each has been (01 R37, 17 R370). -/
def readyOn (s : State) (core dp : Nat) : List (Nat × Agent) :=
  (s.blocks.filter (fun c => c.2.core = core)).flatMap (fun c =>
    (c.2.teams.filter (fun q => q.1 < frontTeam && q.2.dp = dp && blockIssues c.2 q.1)).flatMap (fun q =>
      q.2.splits.filterMap (fun p => if teamIssues q.2 p.2 && !waitsPage p.2 then (readySince p.2).map (fun n => (n, .split c.1 q.1 p.1)) else none)))

/-- The first of a list of agents with numbers: the least number, the first of several. -/
def leastAgent (qs : List (Nat × Agent)) : Option Agent :=
  (qs.foldl (fun best q => match best with
    | none => some q
    | some r => if q.1 < r.1 then some q else some r) none).map (fun q => q.2)

/-- The agent that issues when an agent is given its turn: of its datapath's splits the one that has been READY longest, and so, of aged
splits, the one that aged first (01 R37, 17 R370); among several that have been READY as long, the agent itself if it is one of them. -/
def oldestFirst (s : State) (a : Agent) : Agent :=
  match a with
  | .split b t _ =>
    match Tbl.get s.blocks b, teamOf s b t with
    | some k, some m =>
      if t = frontTeam then a
      else
        let rs := readyOn s k.core m.dp
        (leastAgent (rs.filter (fun q => q.2 = a) ++ rs)).getD a
    | _, _ => a
  | _ => a

/-- Every agent that may issue, with its stamp. -/
def readyAgents (s : State) : List (Nat × Agent) :=
  (s.blocks.flatMap (fun c => (c.2.teams.filter (fun q => blockIssues c.2 q.1)).flatMap (fun q => teamTurns c.1 q.1 q.2))) ++
  (s.ccs.filter (fun c => ccIssues c.2)).map (fun c => (c.2.stamp, .cc c.1))

/-- The agent that has waited longest. -/
def nextAgent (s : State) : Option Agent := leastAgent (readyAgents s)

/-- What an open command may do next: answers of a multicast's targets, its completion, the delivery of its fault. -/
noncomputable def cmdEvents (b : Nat) (c : EngCmd) : List Instr :=
  if c.finished || c.stalled || c.waits ≠ [] then []
  else if c.failed ≠ [] then [.engineTranslationFault b c.tl c.num]
  else if c.tl = 0x1001 then [.mmaComplete b c.num]
  else if c.tl = 0x1002 then [.mvxResult b c.num]
  else match c.op with
    | .mcast _ _ _ mask _ _ answers =>
      match (List.range 8).find? (fun t => (BitVec.ofNat 8 mask).getLsbD t && (Tbl.get answers t).isNone) with
      | some t => [.mcastArrival b c.num t]
      | none => [.mcastComplete b c.num]
    | _ => [.copyCommandComplete b c.num]

/-- What the engines of a block may do next, and the end of its save or its return. -/
noncomputable def blockEvents (b : Nat) (k : Block) : List Instr :=
  (k.cmds.flatMap (cmdEvents b)).take 1 ++
  k.teams.flatMap (fun q => (q.2.copies.map (fun c => Instr.cpy32Complete b q.1 c.tag)).take 1) ++
  k.allocs.filterMap (fun a => if freeReady k a then some (.spfreeTakesEffect b a.gen) else none) ++
  (if k.st = .saving then [.saveComplete b] else if k.st = .restoring then [.gangRestore k.launch k.gang k.copy []] else [])

/-- The delivery of a message. -/
noncomputable def msgEvent (m : Msg) : Instr :=
  match m with
  | .curd _ _ _ _ _ _ => .curdArrival m
  | .reply _ _ _ _ => .curdReply m
  | .posted _ _ _ => .postedNotice m
  | .abort _ => .abortNotice m
  | .report _ _ _ => .reformReport m
  | .results _ _ _ _ _ => .reformResults m

/-- What the entries and the round of a collective context may do next. -/
noncomputable def ccEvents (now n : Nat) (c : Cc) : List Instr :=
  c.entries.flatMap (fun q =>
    (if q.2.st = .armed then [Instr.entryFire n q.1] else []) ++ (if q.2.firings = [] then [] else [.firingComplete n q.1])) ++
  c.wheyWaits.map (fun p => .wheyPageIn n p) ++
  (if c.round.deadline.any (fun t => t ≤ now) then [.roundDeadline n] else [])

/-- A block that is not confirmed and of which two copies have ended (25 R475). -/
def pairEnded (l : Launch) (u : Nat) : Bool :=
  !l.blocksDone.contains u && 2 ≤ (sigsFor l (u / l.lr.gang) (u % l.lr.gang)).length

/-- What a launch may do next: its commits, and the placement or restore of a unit. -/
noncomputable def commitEvents (n : Nat) (l : Launch) : List Instr :=
  if l.st ≠ .placed then []
  else match l.lr.commit with
    | 0 => []
    | 1 => if l.blocksDone.length = gridBlocks l.lr && l.committed = [] then [.blockCommit n 0] else []
    | 2 => ((List.range (gridBlocks l.lr)).find? (fun u => commitReady l u)).toList.map (fun u => .blockCommit n u)
    | _ => ((List.range (gridBlocks l.lr)).find? (pairEnded l)).toList.map (fun u => .pairCompare n u)

/-- Cores of a cluster, ascending, that a list of tests accepts one for one. -/
def firstCores (s : State) (tests : List (Nat → Bool)) (cs : List Nat) : List Nat :=
  match tests, cs with
  | f :: r, c :: q => if f c then c :: firstCores s r q else firstCores s (f :: r) q
  | _, _ => []

/-- The placement or restore of a launch's next unit on the lowest cluster that takes it. -/
noncomputable def placeEvent (s : State) (n : Nat) (l : Launch) : Option Instr :=
  if !itsTurn s n l then none
  else match nextUnit s n l with
    | none => none
    | some u =>
      match (List.range Config.clusters).find? (fun c => clusterFits s n l u c && !barredFor s (rankOf l) c) with
      | none => none
      | some c =>
        if u.restore then
          some (.gangRestore n u.gang u.copy (firstCores s ((savedBlocks s n u).map (fun q i => coreRestores s i q.2)) (clusterCores c)))
        else some (.placeGang n u.gang u.copy (firstCores s (List.replicate l.lr.gang (fun i => coreFits s i l.lr)) (clusterCores c)))

/-- The watchdogs of a team that have run out: of its table's entries, and of its deferred splits from 16 up. -/
noncomputable def wdTeam (s : State) (b t : Nat) (m : Team) : List Instr :=
  ((m.splits.filter (fun c => wdDue s (ctxNum s b) t m c.2)).map (fun c => .watchdogExpiry b t c.1)) ++
  ((m.defer.zipIdx.filter (fun c => wdDue s (ctxNum s b) t m c.1)).map (fun c => .watchdogExpiry b t (16 + c.2)))

/-- The watchdogs that have run out (25 R467). -/
noncomputable def wdEvents (s : State) (b : Nat) (k : Block) : List Instr :=
  if !blockActive k then [] else k.teams.flatMap (fun q => wdTeam s b q.1 q.2)

/-- The traps of deferred splits that are due in teams that run (01 R22; log 110). -/
noncomputable def deferEvents (s : State) (b : Nat) (k : Block) : List Instr :=
  if !blockActive k then []
  else (k.teams.filter (fun q => q.2.st = .running && deferTakes s (ctxNum s b) q.1 q.2)).map (fun q => .asyncTrapDelivery b q.1)

/-- A shrink request that its limit ends with a save (24 R460). -/
def shrinkDue (s : State) (b : Nat) (k : Block) : Bool :=
  match k.shrink with
  | none => false
  | some q => blockPlaced k && shrinkLimit (ctxOf s (ctxNum s b)) ≤ s.now - q.posted && (startSave s k.launch k.gang k.copy).isSome

/-- A gang blocked for 10 µs, on the lowest cluster that it waits on (24 R459). -/
noncomputable def blockedEvents (s : State) (n : Nat) (l : Launch) : List Instr :=
  if roomAsked s n then []
  else match nextUnit s n l with
    | none => []
    | some u => (((blockedOn s n l).find? (blockedLong s l)).map (fun c => Instr.shrinkBlockedTimeout n u.gang c)).toList

/-- A lost packet whose time to be sent again has come (27 R504). -/
def resendDue (s : State) (q : TxPacket) : Bool := q.lost.any (fun t => t + 20 * Config.cyclesPerMicro ≤ s.now)

/-- What time has made due. -/
noncomputable def timeEvents (s : State) : List Instr :=
  s.blocks.flatMap (fun q => wdEvents s q.1 q.2 ++ deferEvents s q.1 q.2) ++
  (s.blocks.filter (fun q => shrinkDue s q.1 q.2)).map (fun q => .shrinkLimitExpiry q.1) ++
  s.launches.flatMap (fun q => blockedEvents s q.1 q.2) ++
  (s.fab.tx.filter (resendDue s)).map (fun q => .retransmitTimeout q.psn) ++
  (s.ctxs.filter (fun c => c.2.keyPrev.isSome && c.2.keyTime + 10000000 * Config.cyclesPerMicro ≤ s.now)).map (fun c => .keyGraceExpiry c.1) ++
  (s.fab.ports.filter (fun p => s.mgmt.ready && p.2.window + winfailCycles ≤ s.now)).map (fun p => .winfailWindow p.1)

/-- What the device's own units may do next. -/
noncomputable def ownEvents (s : State) : List Instr :=
  timeEvents s ++
  (s.faults.filter (fun r => !r.host)).map (fun r => Instr.faultRecordResolution r.num) ++
  s.blocks.flatMap (fun q => blockEvents q.1 q.2) ++
  s.ccs.flatMap (fun c => ccEvents s.now c.1 c.2) ++
  s.fab.inbox.map msgEvent ++
  (s.reforms.filter (collectOver s)).map (fun r => .reformCollectionEnd r.cc) ++
  (s.ctxs.filter (fun c => c.2.st = .dying)).map (fun c => .contextKillComplete c.1) ++
  (s.launches.filter (fun q => q.2.st = .queued || q.2.st = .placed)).flatMap (fun q => (placeEvent s q.1 q.2).toList ++ commitEvents q.1 q.2) ++
  (if s.log.head = s.log.tail || s.log.hsize = 0 || s.chan.duty.getLsbD 1 then [] else [.logHarvest])

/-- A move chosen by turns: the device's units, its watch, its agents. -/
noncomputable def turnMove (s : State) : Move :=
  match s.tick % 3, ownEvents s, nextAgent s with
  | 0, i :: r, _ => .event ((i :: r).getD (s.tick / 3 % (i :: r).length) i)
  | 1, _, _ => .watch
  | _, _, some a => .run a
  | _, i :: _, none => .event i
  | _, [], none => .watch

/-- The move that comes when none is chosen: boot, then the channel, then by turns. -/
noncomputable def defaultMove (s : State) : Move :=
  if !s.mgmt.ready then (if s.power then .event .boot else .watch)
  else if entryDue s then .channel
  else turnMove s

/-! ## Moves -/

/-- A row of the table that happens to the machine: neither an instruction of an agent nor a command of the channel. -/
def isHappening (i : Instr) : Bool :=
  match codedOf i with
  | .event =>
    match i with
    | .reservedEncoding _ => false
    | .fusetReservedOpcode _ => false
    | .unassignedCommand _ => false
    | _ => true
  | _ => false

/-- A move taken up. -/
noncomputable def turnOfMove (s : State) (v : Move) : Turn :=
  match v with
  | .run a => turnAgent s a
  | .event i => if isHappening i then .run i 0 { s with cur := .none } else .settled s
  | .channel => turnChannel s
  | .watch => .settled (watch (firmwareWork s))

/-- A move as it is made: on a datapath the oldest READY split issues, whichever of its splits is chosen (17 R370). -/
def madeMove (s : State) (v : Move) : Move :=
  match v with
  | .run a => .run (oldestFirst s a)
  | _ => v

/-- The machine's next turn: work that errors have started, then the move chosen, then the one that comes of itself. -/
noncomputable def nextTurnOf (s : State) : Turn × Move :=
  if s.due ≠ [] then (.settled (doDue s), .watch)
  else match s.agenda with
    | v :: r => (turnOfMove { s with agenda := r } (madeMove s v), madeMove s v)
    | [] => (turnOfMove s (madeMove s (defaultMove s)), madeMove s (defaultMove s))

/-- What follows an instruction, by the move that brought it. -/
def afterMove (v : Move) (w : BitVec 96) (before s : State) : State :=
  match v with
  | .run a => afterAgent a w before s
  | _ => s

/-! ## Operands that become available (01 R42) -/

/-- A split waits in WAIT-OP for something other than a page's record, and nothing is known to have come. -/
def awaits (p : Split) : Bool := p.st = .waitOp && p.avail.isNone && !p.stopped && p.pend.isNone && !waitsPage p

/-- A split waits on at its instruction just as it did. -/
def waitsStill (p q : Split) : Bool :=
  q.st = .waitOp && q.pc = p.pc && q.mask = p.mask && q.held.map (fun h => { h with code := none }) = p.held.map (fun h => { h with code := none })

/-- The same of the split of an entry in the state that a turn leaves. -/
def stillWaits (b t e : Nat) (p : Split) (u : State) : Bool :=
  ((teamOf u b t).bind (fun m => Tbl.get m.splits e)).any (waitsStill p)

/-- What a split in WAIT-OP waits for is available: its instruction, issued now, would do something. -/
noncomputable def opAvailable (meaning : Instr → State → Out) (s : State) (b t e : Nat) (p : Split) : Bool :=
  match splitTurn s b t e p with
  | .settled u => !stillWaits b t e p u
  | .run i _ u =>
    match meaning i u with
    | .next v => !stillWaits b t e p v
    | _ => false

/-- The splits of a table in WAIT-OP whose operands have become available. -/
noncomputable def wokenSplits (meaning : Instr → State → Out) (s : State) (b t : Nat) (ps : Tbl Split) : Tbl Split :=
  ps.map (fun c => if awaits c.2 && opAvailable meaning s b t c.1 c.2 then (c.1, { c.2 with avail := some s.now }) else c)

/-- A block holds a split that waits for something. -/
def blockAwaits (k : Block) : Bool := k.teams.any (fun q => blockIssues k q.1 && q.2.splits.any (fun c => awaits c.2))

/-- Every split in WAIT-OP whose operand, q0 entry, full line or timeline is available turns READY (01 R42). -/
noncomputable def wakeOps (meaning : Instr → State → Out) (s : State) : State :=
  if s.blocks.any (fun c => blockAwaits c.2) then
    { s with blocks := s.blocks.map (fun c =>
        if blockAwaits c.2 then (c.1, { c.2 with teams := c.2.teams.map (fun q => (q.1, { q.2 with splits := wokenSplits meaning s c.1 q.1 q.2.splits })) })
        else c) }
  else s

/-- A step's end: time passes (log 2). -/
def passTime (s : State) : State := { s with tick := s.tick + 1, now := s.now + 1 + Config.freeCycles s.tick }

/-- What an instruction comes to once it has run, as the end of a step. -/
noncomputable def closeStep (meaning : Instr → State → Out) (v : Move) (w : BitVec 96) (before : State) (o : Out) : Out :=
  match o with
  | .next u => .next (wakeOps meaning (passTime (afterMove v w before u)))
  | .fault f => .fault f
  | .refused r => .refused r

/-- One step with a meaning for every instruction. -/
noncomputable def stepWith (meaning : Instr → State → Out) (s : State) : Out :=
  match nextTurnOf s with
  | (.settled t, _) => .next (wakeOps meaning (passTime t))
  | (.run i w t, v) => closeStep meaning v w t (meaning i t)

end Sys2Proof.Machine
end

