-- ==== Sys2Proof/Machine/Special.lean ====
section
/-! DEFINITION. Special: the special functions, Philox and carry-less products (06 R168, R171, R173; 11 R255-R257). The transcendental
functions are computed in fixed point with hundreds of bits beyond FP32 and then rounded once (log 11). -/

namespace Sys2Proof.Machine

/-! ## Fixed point: an integer x stands for x / 2^fxBits -/

/-- Fraction bits of the fixed-point numbers. -/
def fxBits : Nat := 900
/-- One. -/
def fxOne : Int := 2 ^ 900
/-- A product, rounded down. -/
def fxMul (x y : Int) : Int := x * y / fxOne
/-- A quotient, rounded down. -/
def fxDiv (x y : Int) : Int := x * fxOne / y

/-- The terms t, t*x/n, t*x^2/(n(n+1)), ... summed: `fuel` of them. -/
def fxExpFrom (fuel : Nat) (x t : Int) (n : Nat) (acc : Int) : Int :=
  match fuel with
  | 0 => acc
  | fuel + 1 => fxExpFrom fuel x (fxMul t x / (n : Int)) (n + 1) (acc + t)

/-- e^x for |x| at most 1. -/
def fxExp (x : Int) : Int := fxExpFrom 180 x fxOne 1 0

/-- The series x + x^3/3 + x^5/5 + ..., with alternating signs when `s` is -1. -/
def fxAtanFrom (fuel : Nat) (x2 p : Int) (n : Nat) (acc : Int) : Int :=
  match fuel with
  | 0 => acc
  | fuel + 1 => fxAtanFrom fuel x2 (fxMul p x2) (n + 2) (acc + p / (n : Int))

/-- artanh x for |x| at most 1/3. -/
def fxAtanh (x : Int) : Int := fxAtanFrom 320 (fxMul x x) x 1 0
/-- arctan x for |x| at most 1/5. -/
def fxAtan (x : Int) : Int := fxAtanFrom 320 (-(fxMul x x)) x 1 0

/-- ln 2 = 2 artanh (1/3). -/
def fxLn2 : Int := 2 * fxAtanh (fxOne / 3)
/-- pi / 2, by Machin's formula. -/
def fxHalfPi : Int := 8 * fxAtan (fxOne / 5) - 2 * fxAtan (fxOne / 239)

/-- The terms of the sine (from x, n = 2) or cosine (from 1, n = 1) series. -/
def fxTrigFrom (fuel : Nat) (x2 t : Int) (n : Nat) (acc : Int) : Int :=
  match fuel with
  | 0 => acc
  | fuel + 1 => fxTrigFrom fuel x2 (-(fxMul t x2) / ((n * (n + 1) : Nat) : Int)) (n + 2) (acc + t)

/-- sin x for |x| at most 2. -/
def fxSin (x : Int) : Int := fxTrigFrom 120 (fxMul x x) x 2 0
/-- cos x for |x| at most 2. -/
def fxCos (x : Int) : Int := fxTrigFrom 120 (fxMul x x) fxOne 1 0

/-- The finite value (-1)^s m 2^e as fixed point; exact for every FP32 value. -/
def fxOf (s : Bool) (m : Nat) (e : Int) : Int :=
  let v : Int := ((m * 2 ^ (e + 900).toNat : Nat) : Int)
  if s then -v else v

/-- An inexact fixed-point value times 2^k, rounded to nearest FP32 (R154). -/
def fxDeliver (x : Int) (k : Int) : FOut := deliver fp32 0 (x < 0) x.natAbs (k - 900) true

/-- e^x as a significand in fixed point and a power of two. -/
def fxExpScaled (x : Int) : Int × Int :=
  let k := x / fxLn2
  (fxExp (x - k * fxLn2), k)

/-! ## The functions (R168) -/

/-- RCP. -/
def spRcp (v : FVal) : FOut :=
  match v with
  | .nan g => nanOut fp32 g
  | .inf s => .clean (fp32.signed s 0)
  | .fin s m _ => if m = 0 then { code := fp32.signed s fp32.infCode, fl := fDZ } else fDiv fp32 0 (.fin false 1 0) v

/-- RSQ: 1/√x from the square root of 2^2k / m. -/
def spRsq (v : FVal) : FOut :=
  match v with
  | .nan g => nanOut fp32 g
  | .inf s => if s then nanOut fp32 true else .clean 0
  | .fin s m e =>
    if m = 0 then { code := fp32.signed s fp32.infCode, fl := fDZ }
    else if s then nanOut fp32 true
    else
      let g : Nat := if e % 2 = 0 then 0 else 1
      let x := 2 ^ 200 * 2 ^ g / m
      let r := isqrt x
      deliver fp32 0 false r ((-e - (g : Int)) / 2 - 100) (r * r * m ≠ 2 ^ 200 * 2 ^ g)

/-- EX2. -/
def spEx2 (v : FVal) : FOut :=
  match v with
  | .nan g => nanOut fp32 g
  | .inf s => .clean (if s then 0 else fp32.infCode)
  | .fin s m e =>
    if m = 0 then .clean 0x3F800000
    else if 8 ≤ (Nat.log2 m : Int) + e then
      (if s then deliver fp32 0 false 1 (-1000) true else deliver fp32 0 false 1 1000 false)
    else
      let x := fxOf s m e
      let k := x / fxOne
      let f := x - k * fxOne
      if f = 0 then deliver fp32 0 false 1 k false else fxDeliver (fxExp (fxMul f fxLn2)) k

/-- LG2. -/
def spLg2 (v : FVal) : FOut :=
  match v with
  | .nan g => nanOut fp32 g
  | .inf s => if s then nanOut fp32 true else .clean fp32.infCode
  | .fin s m e =>
    if m = 0 then { code := fp32.signed true fp32.infCode, fl := fDZ }
    else if s then nanOut fp32 true
    else
      let k := Nat.log2 m
      let n : Int := (k : Int) + e
      if m = 2 ^ k then deliver fp32 0 (n < 0) n.natAbs 0 false
      else
        let y := fxOf false m (-(k : Int))
        fxDeliver (n * fxOne + fxDiv (2 * fxAtanh (fxDiv (y - fxOne) (y + fxOne))) fxLn2) 0

/-- The sine of a non-zero value, or its cosine, after reduction by pi / 2. -/
def spTrig (cosine : Bool) (s : Bool) (m : Nat) (e : Int) : FOut :=
  let x := fxOf s m e
  let k := (x + fxHalfPi / 2) / fxHalfPi
  let r := x - k * fxHalfPi
  match ((if cosine then k + 1 else k) % 4).toNat with
  | 0 => fxDeliver (fxSin r) 0
  | 1 => fxDeliver (fxCos r) 0
  | 2 => fxDeliver (-(fxSin r)) 0
  | _ => fxDeliver (-(fxCos r)) 0

/-- SIN. -/
def spSin (v : FVal) : FOut :=
  match v with
  | .nan g => nanOut fp32 g
  | .inf _ => nanOut fp32 true
  | .fin s m e => if m = 0 then .clean (fp32.signed s 0) else spTrig false s m e

/-- COS. -/
def spCos (v : FVal) : FOut :=
  match v with
  | .nan g => nanOut fp32 g
  | .inf _ => nanOut fp32 true
  | .fin s m e => if m = 0 then .clean 0x3F800000 else spTrig true s m e

/-- TANH: beyond 128 the value lies just below 1. -/
def spTanh (v : FVal) : FOut :=
  match v with
  | .nan g => nanOut fp32 g
  | .inf s => .clean (fp32.signed s 0x3F800000)
  | .fin s m e =>
    if m = 0 then .clean (fp32.signed s 0)
    else if 7 ≤ (Nat.log2 m : Int) + e then deliver fp32 0 s (2 ^ 200 - 1) (-200) true
    else
      let p := fxExpScaled (fxOf true m (e + 1))
      let w := p.1 * 2 ^ (p.2 + 400).toNat / 2 ^ 400
      let y := fxDiv (fxOne - w) (fxOne + w)
      fxDeliver (if s then -y else y) 0

/-- SGMD: beyond 256 the value lies just below 1, or far below the least subnormal. -/
def spSgmd (v : FVal) : FOut :=
  match v with
  | .nan g => nanOut fp32 g
  | .inf s => .clean (if s then 0 else 0x3F800000)
  | .fin s m e =>
    if m = 0 then .clean 0x3F000000
    else if 8 ≤ (Nat.log2 m : Int) + e then
      (if s then deliver fp32 0 false 1 (-1000) true else deliver fp32 0 false (2 ^ 200 - 1) (-200) true)
    else
      let p := fxExpScaled (fxOf true m e)
      let w := p.1 * 2 ^ (p.2 + 400).toNat / 2 ^ 400
      if s then fxDeliver (fxDiv w (fxOne + w)) 0 else fxDeliver (fxDiv fxOne (fxOne + w)) 0

/-- A special function of a lane (R255). -/
def specialLane (g : FVal → FOut) (i : Iss) (op : Op) (l : Nat) : LaneOut := (g (f32 (i.a op l))).lane

/-- RCP (R255). -/
def laneRcp (i : Iss) (op : Op) (l : Nat) : LaneOut := specialLane spRcp i op l
/-- RSQ (R255). -/
def laneRsq (i : Iss) (op : Op) (l : Nat) : LaneOut := specialLane spRsq i op l
/-- EX2 (R255). -/
def laneEx2 (i : Iss) (op : Op) (l : Nat) : LaneOut := specialLane spEx2 i op l
/-- LG2 (R255). -/
def laneLg2 (i : Iss) (op : Op) (l : Nat) : LaneOut := specialLane spLg2 i op l
/-- SIN (R255). -/
def laneSin (i : Iss) (op : Op) (l : Nat) : LaneOut := specialLane spSin i op l
/-- COS (R255). -/
def laneCos (i : Iss) (op : Op) (l : Nat) : LaneOut := specialLane spCos i op l
/-- TANH (R255). -/
def laneTanh (i : Iss) (op : Op) (l : Nat) : LaneOut := specialLane spTanh i op l
/-- SGMD (R255). -/
def laneSgmd (i : Iss) (op : Op) (l : Nat) : LaneOut := specialLane spSgmd i op l

/-! ## Random numbers and carry-less products -/

/-- Counter and key of Philox. -/
structure Philox where
  c0 : Word
  c1 : Word
  c2 : Word
  c3 : Word
  k0 : Word
  k1 : Word
deriving DecidableEq, Repr

/-- One round (R171). -/
def philoxRound (s : Philox) : Philox :=
  let p := mulUnsigned 0xD2511F53 s.c0
  let q := mulUnsigned 0xCD9E8D57 s.c2
  { c0 := q.extractLsb' 32 32 ^^^ s.c1 ^^^ s.k0, c1 := q.extractLsb' 0 32, c2 := p.extractLsb' 32 32 ^^^ s.c3 ^^^ s.k1,
    c3 := p.extractLsb' 0 32, k0 := s.k0 + 0x9E3779B9, k1 := s.k1 + 0xBB67AE85 }

/-- Ten rounds. -/
def philox (key : DWord) (ctr : BitVec 128) : BitVec 128 :=
  let w := fun (j : Nat) => ctr.extractLsb' (32 * j) 32
  let s := philoxRound^[10] { c0 := w 0, c1 := w 1, c2 := w 2, c3 := w 3, k0 := key.extractLsb' 0 32, k1 := key.extractLsb' 32 32 }
  (s.c3 ++ s.c2) ++ (s.c1 ++ s.c0)

/-- RNG (R256). -/
def laneRng (i : Iss) (op : Op) (l : Nat) : LaneOut := { val := philox (i.a64 op l) (i.src128 op.o.b l), fl := 0 }

/-- The carry-less product (R173, R257). -/
def clmul (a b : Word) : DWord :=
  (List.range 32).foldl (fun p j => if b.getLsbD j then p ^^^ (a.zeroExtend 64 <<< j) else p) 0

/-- CLMUL: minor 0 low, 1 high (R257). -/
def laneClmul (i : Iss) (op : Op) (l : Nat) : LaneOut :=
  let p := clmul (i.a op l) (i.bv op l)
  .word (if op.o.f.toNat = 0 then p.extractLsb' 0 32 else p.extractLsb' 32 32)

/-! ## The instructions -/

/-- RCP_W32 (R255). -/
def execRcpW32 (o : WOps) (s : State) : Out := laneOp (opW 0xC0 o) s laneRcp

/-- RCP_L64 (R255). -/
def execRcpL64 (o : LOps) (s : State) : Out := laneOp (opL 0xC0 o) s laneRcp

/-- RSQ_W32 (R255). -/
def execRsqW32 (o : WOps) (s : State) : Out := laneOp (opW 0xC0 o) s laneRsq

/-- RSQ_L64 (R255). -/
def execRsqL64 (o : LOps) (s : State) : Out := laneOp (opL 0xC0 o) s laneRsq

/-- EX2_W32 (R255). -/
def execEx2W32 (o : WOps) (s : State) : Out := laneOp (opW 0xC0 o) s laneEx2

/-- EX2_L64 (R255). -/
def execEx2L64 (o : LOps) (s : State) : Out := laneOp (opL 0xC0 o) s laneEx2

/-- LG2_W32 (R255). -/
def execLg2W32 (o : WOps) (s : State) : Out := laneOp (opW 0xC0 o) s laneLg2

/-- LG2_L64 (R255). -/
def execLg2L64 (o : LOps) (s : State) : Out := laneOp (opL 0xC0 o) s laneLg2

/-- SIN_W32 (R255). -/
def execSinW32 (o : WOps) (s : State) : Out := laneOp (opW 0xC0 o) s laneSin

/-- SIN_L64 (R255). -/
def execSinL64 (o : LOps) (s : State) : Out := laneOp (opL 0xC0 o) s laneSin

/-- COS_W32 (R255). -/
def execCosW32 (o : WOps) (s : State) : Out := laneOp (opW 0xC0 o) s laneCos

/-- COS_L64 (R255). -/
def execCosL64 (o : LOps) (s : State) : Out := laneOp (opL 0xC0 o) s laneCos

/-- TANH_W32 (R255). -/
def execTanhW32 (o : WOps) (s : State) : Out := laneOp (opW 0xC0 o) s laneTanh

/-- TANH_L64 (R255). -/
def execTanhL64 (o : LOps) (s : State) : Out := laneOp (opL 0xC0 o) s laneTanh

/-- SGMD_W32 (R255). -/
def execSgmdW32 (o : WOps) (s : State) : Out := laneOp (opW 0xC0 o) s laneSgmd

/-- SGMD_L64 (R255). -/
def execSgmdL64 (o : LOps) (s : State) : Out := laneOp (opL 0xC0 o) s laneSgmd

/-- RNG_W32 (R256). -/
def execRngW32 (o : WOps) (s : State) : Out := laneOp (opW 0xC1 o) s laneRng

/-- RNG_L64 (R256). -/
def execRngL64 (o : LOps) (s : State) : Out := laneOp (opL 0xC1 o) s laneRng

/-- CLMUL_W32 (R257). -/
def execClmulW32 (o : WOps) (s : State) : Out := laneOp (opW 0xC2 o) s laneClmul

/-- CLMUL_L64 (R257). -/
def execClmulL64 (o : LOps) (s : State) : Out := laneOp (opL 0xC2 o) s laneClmul

end Sys2Proof.Machine
end

