-- ==== Sys2Proof/Machine/Dispatch.lean ====
section
/-! DEFINITION. Dispatch: the meaning of every row of the opcode table, one arm each. -/

namespace Sys2Proof.Machine

def exec (i : Instr) (s : State) : Host.Outcome State Fault Refusal :=
  match i with
  | .nopC16 o => Sys2Proof.Machine.execNopC16 o s
  | .nopW32 o => Sys2Proof.Machine.execNopW32 o s
  | .nopL64 o => Sys2Proof.Machine.execNopL64 o s
  | .movC16 o => Sys2Proof.Machine.execMovC16 o s
  | .movW32 o => Sys2Proof.Machine.execMovW32 o s
  | .movL64 o => Sys2Proof.Machine.execMovL64 o s
  | .iaddC16 o => Sys2Proof.Machine.execIaddC16 o s
  | .iaddW32 o => Sys2Proof.Machine.execIaddW32 o s
  | .iaddL64 o => Sys2Proof.Machine.execIaddL64 o s
  | .isubC16 o => Sys2Proof.Machine.execIsubC16 o s
  | .isubW32 o => Sys2Proof.Machine.execIsubW32 o s
  | .isubL64 o => Sys2Proof.Machine.execIsubL64 o s
  | .imulC16 o => Sys2Proof.Machine.execImulC16 o s
  | .imulW32 o => Sys2Proof.Machine.execImulW32 o s
  | .imulL64 o => Sys2Proof.Machine.execImulL64 o s
  | .imad o => Sys2Proof.Machine.execImad o s
  | .idivW32 o => Sys2Proof.Machine.execIdivW32 o s
  | .idivL64 o => Sys2Proof.Machine.execIdivL64 o s
  | .iremW32 o => Sys2Proof.Machine.execIremW32 o s
  | .iremL64 o => Sys2Proof.Machine.execIremL64 o s
  | .iminW32 o => Sys2Proof.Machine.execIminW32 o s
  | .iminL64 o => Sys2Proof.Machine.execIminL64 o s
  | .imaxW32 o => Sys2Proof.Machine.execImaxW32 o s
  | .imaxL64 o => Sys2Proof.Machine.execImaxL64 o s
  | .icmpW32 o => Sys2Proof.Machine.execIcmpW32 o s
  | .icmpL64 o => Sys2Proof.Machine.execIcmpL64 o s
  | .sel o => Sys2Proof.Machine.execSel o s
  | .andC16 o => Sys2Proof.Machine.execAndC16 o s
  | .andW32 o => Sys2Proof.Machine.execAndW32 o s
  | .andL64 o => Sys2Proof.Machine.execAndL64 o s
  | .orC16 o => Sys2Proof.Machine.execOrC16 o s
  | .orW32 o => Sys2Proof.Machine.execOrW32 o s
  | .orL64 o => Sys2Proof.Machine.execOrL64 o s
  | .xorC16 o => Sys2Proof.Machine.execXorC16 o s
  | .xorW32 o => Sys2Proof.Machine.execXorW32 o s
  | .xorL64 o => Sys2Proof.Machine.execXorL64 o s
  | .andnW32 o => Sys2Proof.Machine.execAndnW32 o s
  | .andnL64 o => Sys2Proof.Machine.execAndnL64 o s
  | .ornW32 o => Sys2Proof.Machine.execOrnW32 o s
  | .ornL64 o => Sys2Proof.Machine.execOrnL64 o s
  | .xnorW32 o => Sys2Proof.Machine.execXnorW32 o s
  | .xnorL64 o => Sys2Proof.Machine.execXnorL64 o s
  | .notW32 o => Sys2Proof.Machine.execNotW32 o s
  | .notL64 o => Sys2Proof.Machine.execNotL64 o s
  | .shlC16 o => Sys2Proof.Machine.execShlC16 o s
  | .shlW32 o => Sys2Proof.Machine.execShlW32 o s
  | .shlL64 o => Sys2Proof.Machine.execShlL64 o s
  | .shrlC16 o => Sys2Proof.Machine.execShrlC16 o s
  | .shrlW32 o => Sys2Proof.Machine.execShrlW32 o s
  | .shrlL64 o => Sys2Proof.Machine.execShrlL64 o s
  | .shraC16 o => Sys2Proof.Machine.execShraC16 o s
  | .shraW32 o => Sys2Proof.Machine.execShraW32 o s
  | .shraL64 o => Sys2Proof.Machine.execShraL64 o s
  | .rotlW32 o => Sys2Proof.Machine.execRotlW32 o s
  | .rotlL64 o => Sys2Proof.Machine.execRotlL64 o s
  | .rotrW32 o => Sys2Proof.Machine.execRotrW32 o s
  | .rotrL64 o => Sys2Proof.Machine.execRotrL64 o s
  | .shf o => Sys2Proof.Machine.execShf o s
  | .bfeW32 o => Sys2Proof.Machine.execBfeW32 o s
  | .bfeL64 o => Sys2Proof.Machine.execBfeL64 o s
  | .bfi o => Sys2Proof.Machine.execBfi o s
  | .popcW32 o => Sys2Proof.Machine.execPopcW32 o s
  | .popcL64 o => Sys2Proof.Machine.execPopcL64 o s
  | .clzW32 o => Sys2Proof.Machine.execClzW32 o s
  | .clzL64 o => Sys2Proof.Machine.execClzL64 o s
  | .ctzW32 o => Sys2Proof.Machine.execCtzW32 o s
  | .ctzL64 o => Sys2Proof.Machine.execCtzL64 o s
  | .brevW32 o => Sys2Proof.Machine.execBrevW32 o s
  | .brevL64 o => Sys2Proof.Machine.execBrevL64 o s
  | .iabsW32 o => Sys2Proof.Machine.execIabsW32 o s
  | .iabsL64 o => Sys2Proof.Machine.execIabsL64 o s
  | .inegW32 o => Sys2Proof.Machine.execInegW32 o s
  | .inegL64 o => Sys2Proof.Machine.execInegL64 o s
  | .add64W32 o => Sys2Proof.Machine.execAdd64W32 o s
  | .add64L64 o => Sys2Proof.Machine.execAdd64L64 o s
  | .sub64W32 o => Sys2Proof.Machine.execSub64W32 o s
  | .sub64L64 o => Sys2Proof.Machine.execSub64L64 o s
  | .leaW32 o => Sys2Proof.Machine.execLeaW32 o s
  | .leaL64 o => Sys2Proof.Machine.execLeaL64 o s
  | .shl64W32 o => Sys2Proof.Machine.execShl64W32 o s
  | .shl64L64 o => Sys2Proof.Machine.execShl64L64 o s
  | .shr64W32 o => Sys2Proof.Machine.execShr64W32 o s
  | .shr64L64 o => Sys2Proof.Machine.execShr64L64 o s
  | .cmp64W32 o => Sys2Proof.Machine.execCmp64W32 o s
  | .cmp64L64 o => Sys2Proof.Machine.execCmp64L64 o s
  | .bysel o => Sys2Proof.Machine.execBysel o s
  | .idot4 o => Sys2Proof.Machine.execIdot4 o s
  | .faddC16 o => Sys2Proof.Machine.execFaddC16 o s
  | .faddW32 o => Sys2Proof.Machine.execFaddW32 o s
  | .faddL64 o => Sys2Proof.Machine.execFaddL64 o s
  | .fsubC16 o => Sys2Proof.Machine.execFsubC16 o s
  | .fsubW32 o => Sys2Proof.Machine.execFsubW32 o s
  | .fsubL64 o => Sys2Proof.Machine.execFsubL64 o s
  | .fmulC16 o => Sys2Proof.Machine.execFmulC16 o s
  | .fmulW32 o => Sys2Proof.Machine.execFmulW32 o s
  | .fmulL64 o => Sys2Proof.Machine.execFmulL64 o s
  | .ffma o => Sys2Proof.Machine.execFfma o s
  | .fminC16 o => Sys2Proof.Machine.execFminC16 o s
  | .fminW32 o => Sys2Proof.Machine.execFminW32 o s
  | .fminL64 o => Sys2Proof.Machine.execFminL64 o s
  | .fmaxC16 o => Sys2Proof.Machine.execFmaxC16 o s
  | .fmaxW32 o => Sys2Proof.Machine.execFmaxW32 o s
  | .fmaxL64 o => Sys2Proof.Machine.execFmaxL64 o s
  | .fminpW32 o => Sys2Proof.Machine.execFminpW32 o s
  | .fminpL64 o => Sys2Proof.Machine.execFminpL64 o s
  | .fmaxpW32 o => Sys2Proof.Machine.execFmaxpW32 o s
  | .fmaxpL64 o => Sys2Proof.Machine.execFmaxpL64 o s
  | .fcmpW32 o => Sys2Proof.Machine.execFcmpW32 o s
  | .fcmpL64 o => Sys2Proof.Machine.execFcmpL64 o s
  | .fabsW32 o => Sys2Proof.Machine.execFabsW32 o s
  | .fabsL64 o => Sys2Proof.Machine.execFabsL64 o s
  | .fnegW32 o => Sys2Proof.Machine.execFnegW32 o s
  | .fnegL64 o => Sys2Proof.Machine.execFnegL64 o s
  | .fcpysW32 o => Sys2Proof.Machine.execFcpysW32 o s
  | .fcpysL64 o => Sys2Proof.Machine.execFcpysL64 o s
  | .fdivW32 o => Sys2Proof.Machine.execFdivW32 o s
  | .fdivL64 o => Sys2Proof.Machine.execFdivL64 o s
  | .fsqrtW32 o => Sys2Proof.Machine.execFsqrtW32 o s
  | .fsqrtL64 o => Sys2Proof.Machine.execFsqrtL64 o s
  | .fclassW32 o => Sys2Proof.Machine.execFclassW32 o s
  | .fclassL64 o => Sys2Proof.Machine.execFclassL64 o s
  | .frndW32 o => Sys2Proof.Machine.execFrndW32 o s
  | .frndL64 o => Sys2Proof.Machine.execFrndL64 o s
  | .fscaleW32 o => Sys2Proof.Machine.execFscaleW32 o s
  | .fscaleL64 o => Sys2Proof.Machine.execFscaleL64 o s
  | .fdot2 o => Sys2Proof.Machine.execFdot2 o s
  | .cvtW32 o => Sys2Proof.Machine.execCvtW32 o s
  | .cvtL64 o => Sys2Proof.Machine.execCvtL64 o s
  | .pack8W32 o => Sys2Proof.Machine.execPack8W32 o s
  | .pack8L64 o => Sys2Proof.Machine.execPack8L64 o s
  | .unpk8W32 o => Sys2Proof.Machine.execUnpk8W32 o s
  | .unpk8L64 o => Sys2Proof.Machine.execUnpk8L64 o s
  | .pack4W32 o => Sys2Proof.Machine.execPack4W32 o s
  | .pack4L64 o => Sys2Proof.Machine.execPack4L64 o s
  | .unpk4W32 o => Sys2Proof.Machine.execUnpk4W32 o s
  | .unpk4L64 o => Sys2Proof.Machine.execUnpk4L64 o s
  | .bqscalW32 o => Sys2Proof.Machine.execBqscalW32 o s
  | .bqscalL64 o => Sys2Proof.Machine.execBqscalL64 o s
  | .bqencW32 o => Sys2Proof.Machine.execBqencW32 o s
  | .bqencL64 o => Sys2Proof.Machine.execBqencL64 o s
  | .bqdecW32 o => Sys2Proof.Machine.execBqdecW32 o s
  | .bqdecL64 o => Sys2Proof.Machine.execBqdecL64 o s
  | .mxscalW32 o => Sys2Proof.Machine.execMxscalW32 o s
  | .mxscalL64 o => Sys2Proof.Machine.execMxscalL64 o s
  | .shflW32 o => Sys2Proof.Machine.execShflW32 o s
  | .shflL64 o => Sys2Proof.Machine.execShflL64 o s
  | .voteW32 o => Sys2Proof.Machine.execVoteW32 o s
  | .voteL64 o => Sys2Proof.Machine.execVoteL64 o s
  | .reduxW32 o => Sys2Proof.Machine.execReduxW32 o s
  | .reduxL64 o => Sys2Proof.Machine.execReduxL64 o s
  | .scanW32 o => Sys2Proof.Machine.execScanW32 o s
  | .scanL64 o => Sys2Proof.Machine.execScanL64 o s
  | .getsW32 o => Sys2Proof.Machine.execGetsW32 o s
  | .getsL64 o => Sys2Proof.Machine.execGetsL64 o s
  | .actW32 o => Sys2Proof.Machine.execActW32 o s
  | .actL64 o => Sys2Proof.Machine.execActL64 o s
  | .maskwW32 o => Sys2Proof.Machine.execMaskwW32 o s
  | .maskwL64 o => Sys2Proof.Machine.execMaskwL64 o s
  | .bcastW32 o => Sys2Proof.Machine.execBcastW32 o s
  | .bcastL64 o => Sys2Proof.Machine.execBcastL64 o s
  | .ldW32 o => Sys2Proof.Machine.execLdW32 o s
  | .ldL64 o => Sys2Proof.Machine.execLdL64 o s
  | .st o => Sys2Proof.Machine.execSt o s
  | .atom o => Sys2Proof.Machine.execAtom o s
  | .atom64 o => Sys2Proof.Machine.execAtom64 o s
  | .fence o => Sys2Proof.Machine.execFence o s
  | .cpy32 o => Sys2Proof.Machine.execCpy32 o s
  | .waittagW32 o => Sys2Proof.Machine.execWaittagW32 o s
  | .waittagL64 o => Sys2Proof.Machine.execWaittagL64 o s
  | .tcopy o => Sys2Proof.Machine.execTcopy o s
  | .mcast o => Sys2Proof.Machine.execMcast o s
  | .spallocW32 o => Sys2Proof.Machine.execSpallocW32 o s
  | .spallocL64 o => Sys2Proof.Machine.execSpallocL64 o s
  | .spfreeW32 o => Sys2Proof.Machine.execSpfreeW32 o s
  | .spfreeL64 o => Sys2Proof.Machine.execSpfreeL64 o s
  | .femarkW32 o => Sys2Proof.Machine.execFemarkW32 o s
  | .femarkL64 o => Sys2Proof.Machine.execFemarkL64 o s
  | .ldhintW32 o => Sys2Proof.Machine.execLdhintW32 o s
  | .ldhintL64 o => Sys2Proof.Machine.execLdhintL64 o s
  | .cflushW32 o => Sys2Proof.Machine.execCflushW32 o s
  | .cflushL64 o => Sys2Proof.Machine.execCflushL64 o s
  | .ldvW32 o => Sys2Proof.Machine.execLdvW32 o s
  | .ldvL64 o => Sys2Proof.Machine.execLdvL64 o s
  | .bra o => Sys2Proof.Machine.execBra o s
  | .joinW32 o => Sys2Proof.Machine.execJoinW32 o s
  | .joinL64 o => Sys2Proof.Machine.execJoinL64 o s
  | .call o => Sys2Proof.Machine.execCall o s
  | .callIndirectW32 o => Sys2Proof.Machine.execCallIndirectW32 o s
  | .callIndirectL64 o => Sys2Proof.Machine.execCallIndirectL64 o s
  | .retW32 o => Sys2Proof.Machine.execRetW32 o s
  | .retL64 o => Sys2Proof.Machine.execRetL64 o s
  | .exitW32 o => Sys2Proof.Machine.execExitW32 o s
  | .exitL64 o => Sys2Proof.Machine.execExitL64 o s
  | .brdq o => Sys2Proof.Machine.execBrdq o s
  | .trapW32 o => Sys2Proof.Machine.execTrapW32 o s
  | .trapL64 o => Sys2Proof.Machine.execTrapL64 o s
  | .bkptW32 o => Sys2Proof.Machine.execBkptW32 o s
  | .bkptL64 o => Sys2Proof.Machine.execBkptL64 o s
  | .yieldW32 o => Sys2Proof.Machine.execYieldW32 o s
  | .yieldL64 o => Sys2Proof.Machine.execYieldL64 o s
  | .barW32 o => Sys2Proof.Machine.execBarW32 o s
  | .barL64 o => Sys2Proof.Machine.execBarL64 o s
  | .attachW32 o => Sys2Proof.Machine.execAttachW32 o s
  | .attachL64 o => Sys2Proof.Machine.execAttachL64 o s
  | .detachW32 o => Sys2Proof.Machine.execDetachW32 o s
  | .detachL64 o => Sys2Proof.Machine.execDetachL64 o s
  | .growW32 o => Sys2Proof.Machine.execGrowW32 o s
  | .growL64 o => Sys2Proof.Machine.execGrowL64 o s
  | .shrqW32 o => Sys2Proof.Machine.execShrqW32 o s
  | .shrqL64 o => Sys2Proof.Machine.execShrqL64 o s
  | .tlwaitW32 o => Sys2Proof.Machine.execTlwaitW32 o s
  | .tlwaitL64 o => Sys2Proof.Machine.execTlwaitL64 o s
  | .tlreadW32 o => Sys2Proof.Machine.execTlreadW32 o s
  | .tlreadL64 o => Sys2Proof.Machine.execTlreadL64 o s
  | .tlsigW32 o => Sys2Proof.Machine.execTlsigW32 o s
  | .tlsigL64 o => Sys2Proof.Machine.execTlsigL64 o s
  | .xset o => Sys2Proof.Machine.execXset o s
  | .xget o => Sys2Proof.Machine.execXget o s
  | .pushdW32 o => Sys2Proof.Machine.execPushdW32 o s
  | .pushdL64 o => Sys2Proof.Machine.execPushdL64 o s
  | .accallocW32 o => Sys2Proof.Machine.execAccallocW32 o s
  | .accallocL64 o => Sys2Proof.Machine.execAccallocL64 o s
  | .accfreeW32 o => Sys2Proof.Machine.execAccfreeW32 o s
  | .accfreeL64 o => Sys2Proof.Machine.execAccfreeL64 o s
  | .accacqW32 o => Sys2Proof.Machine.execAccacqW32 o s
  | .accacqL64 o => Sys2Proof.Machine.execAccacqL64 o s
  | .accrelW32 o => Sys2Proof.Machine.execAccrelW32 o s
  | .accrelL64 o => Sys2Proof.Machine.execAccrelL64 o s
  | .mma o => Sys2Proof.Machine.execMma o s
  | .accldW32 o => Sys2Proof.Machine.execAccldW32 o s
  | .accldL64 o => Sys2Proof.Machine.execAccldL64 o s
  | .accst o => Sys2Proof.Machine.execAccst o s
  | .acczeroW32 o => Sys2Proof.Machine.execAcczeroW32 o s
  | .acczeroL64 o => Sys2Proof.Machine.execAcczeroL64 o s
  | .mvx o => Sys2Proof.Machine.execMvx o s
  | .cenc o => Sys2Proof.Machine.execCenc o s
  | .cdec o => Sys2Proof.Machine.execCdec o s
  | .tsetW32 o => Sys2Proof.Machine.execTsetW32 o s
  | .tsetL64 o => Sys2Proof.Machine.execTsetL64 o s
  | .rcpW32 o => Sys2Proof.Machine.execRcpW32 o s
  | .rcpL64 o => Sys2Proof.Machine.execRcpL64 o s
  | .rsqW32 o => Sys2Proof.Machine.execRsqW32 o s
  | .rsqL64 o => Sys2Proof.Machine.execRsqL64 o s
  | .ex2W32 o => Sys2Proof.Machine.execEx2W32 o s
  | .ex2L64 o => Sys2Proof.Machine.execEx2L64 o s
  | .lg2W32 o => Sys2Proof.Machine.execLg2W32 o s
  | .lg2L64 o => Sys2Proof.Machine.execLg2L64 o s
  | .sinW32 o => Sys2Proof.Machine.execSinW32 o s
  | .sinL64 o => Sys2Proof.Machine.execSinL64 o s
  | .cosW32 o => Sys2Proof.Machine.execCosW32 o s
  | .cosL64 o => Sys2Proof.Machine.execCosL64 o s
  | .tanhW32 o => Sys2Proof.Machine.execTanhW32 o s
  | .tanhL64 o => Sys2Proof.Machine.execTanhL64 o s
  | .sgmdW32 o => Sys2Proof.Machine.execSgmdW32 o s
  | .sgmdL64 o => Sys2Proof.Machine.execSgmdL64 o s
  | .rngW32 o => Sys2Proof.Machine.execRngW32 o s
  | .rngL64 o => Sys2Proof.Machine.execRngL64 o s
  | .clmulW32 o => Sys2Proof.Machine.execClmulW32 o s
  | .clmulL64 o => Sys2Proof.Machine.execClmulL64 o s
  | .rdsr o => Sys2Proof.Machine.execRdsr o s
  | .wrsr o => Sys2Proof.Machine.execWrsr o s
  | .rettW32 o => Sys2Proof.Machine.execRettW32 o s
  | .rettL64 o => Sys2Proof.Machine.execRettL64 o s
  | .tlbinvW32 o => Sys2Proof.Machine.execTlbinvW32 o s
  | .tlbinvL64 o => Sys2Proof.Machine.execTlbinvL64 o s
  | .haltW32 o => Sys2Proof.Machine.execHaltW32 o s
  | .haltL64 o => Sys2Proof.Machine.execHaltL64 o s
  | .fusetLi o => Sys2Proof.Machine.execFusetLi o s
  | .fusetAdd o => Sys2Proof.Machine.execFusetAdd o s
  | .fusetSub o => Sys2Proof.Machine.execFusetSub o s
  | .fusetAnd o => Sys2Proof.Machine.execFusetAnd o s
  | .fusetOr o => Sys2Proof.Machine.execFusetOr o s
  | .fusetShl o => Sys2Proof.Machine.execFusetShl o s
  | .fusetShr o => Sys2Proof.Machine.execFusetShr o s
  | .fusetCmp o => Sys2Proof.Machine.execFusetCmp o s
  | .fusetLd o => Sys2Proof.Machine.execFusetLd o s
  | .fusetSt o => Sys2Proof.Machine.execFusetSt o s
  | .fusetBr o => Sys2Proof.Machine.execFusetBr o s
  | .fusetBz o => Sys2Proof.Machine.execFusetBz o s
  | .fusetBnz o => Sys2Proof.Machine.execFusetBnz o s
  | .fusetCall o => Sys2Proof.Machine.execFusetCall o s
  | .fusetRet o => Sys2Proof.Machine.execFusetRet o s
  | .fusetRing o => Sys2Proof.Machine.execFusetRing o s
  | .fusetTtw o => Sys2Proof.Machine.execFusetTtw o s
  | .fusetArm o => Sys2Proof.Machine.execFusetArm o s
  | .fusetDisarm o => Sys2Proof.Machine.execFusetDisarm o s
  | .fusetPost o => Sys2Proof.Machine.execFusetPost o s
  | .fusetWaitpost o => Sys2Proof.Machine.execFusetWaitpost o s
  | .fusetSend o => Sys2Proof.Machine.execFusetSend o s
  | .fusetWaitsb o => Sys2Proof.Machine.execFusetWaitsb o s
  | .fusetWaittl o => Sys2Proof.Machine.execFusetWaittl o s
  | .fusetSigtl o => Sys2Proof.Machine.execFusetSigtl o s
  | .fusetTmo o => Sys2Proof.Machine.execFusetTmo o s
  | .fusetRound o => Sys2Proof.Machine.execFusetRound o s
  | .fusetWaitrd o => Sys2Proof.Machine.execFusetWaitrd o s
  | .fusetAbort o => Sys2Proof.Machine.execFusetAbort o s
  | .fusetStatus o => Sys2Proof.Machine.execFusetStatus o s
  | .fusetWalloc o => Sys2Proof.Machine.execFusetWalloc o s
  | .fusetWfree o => Sys2Proof.Machine.execFusetWfree o s
  | .fusetWckpt o => Sys2Proof.Machine.execFusetWckpt o s
  | .fusetWrest o => Sys2Proof.Machine.execFusetWrest o s
  | .fusetWfold o => Sys2Proof.Machine.execFusetWfold o s
  | .fusetReform o => Sys2Proof.Machine.execFusetReform o s
  | .fusetEvent o => Sys2Proof.Machine.execFusetEvent o s
  | .fusetHalt o => Sys2Proof.Machine.execFusetHalt o s
  | .resultWriteback b t e => Sys2Proof.Machine.execResultWriteback b t e s
  | .splitAged b t e => Sys2Proof.Machine.execSplitAged b t e s
  | .watchdogExpiry b t e => Sys2Proof.Machine.execWatchdogExpiry b t e s
  | .asyncTrapDelivery b t => Sys2Proof.Machine.execAsyncTrapDelivery b t s
  | .placeGang l g k cores => Sys2Proof.Machine.execPlaceGang l g k cores s
  | .shrinkBlockedTimeout l g cluster => Sys2Proof.Machine.execShrinkBlockedTimeout l g cluster s
  | .shrinkLimitExpiry b => Sys2Proof.Machine.execShrinkLimitExpiry b s
  | .saveComplete b => Sys2Proof.Machine.execSaveComplete b s
  | .gangRestore l g k cores => Sys2Proof.Machine.execGangRestore l g k cores s
  | .spfreeTakesEffect b gen => Sys2Proof.Machine.execSpfreeTakesEffect b gen s
  | .copyCommandComplete b n => Sys2Proof.Machine.execCopyCommandComplete b n s
  | .engineTranslationFault b sel n => Sys2Proof.Machine.execEngineTranslationFault b sel n s
  | .cpy32Complete b t tag => Sys2Proof.Machine.execCpy32Complete b t tag s
  | .mcastArrival b n target => Sys2Proof.Machine.execMcastArrival b n target s
  | .mcastComplete b n => Sys2Proof.Machine.execMcastComplete b n s
  | .mmaComplete b n => Sys2Proof.Machine.execMmaComplete b n s
  | .mvxResult b n => Sys2Proof.Machine.execMvxResult b n s
  | .faultRecordResolution r => Sys2Proof.Machine.execFaultRecordResolution r s
  | .uncorrectableError w => Sys2Proof.Machine.execUncorrectableError w s
  | .correctableError => Sys2Proof.Machine.execCorrectableError s
  | .blockCommit l u => Sys2Proof.Machine.execBlockCommit l u s
  | .pairCompare l u => Sys2Proof.Machine.execPairCompare l u s
  | .logHarvest => Sys2Proof.Machine.execLogHarvest s
  | .entryFire cc e => Sys2Proof.Machine.execEntryFire cc e s
  | .firingComplete cc e => Sys2Proof.Machine.execFiringComplete cc e s
  | .curdArrival m => Sys2Proof.Machine.execCurdArrival m s
  | .curdReply m => Sys2Proof.Machine.execCurdReply m s
  | .postedNotice m => Sys2Proof.Machine.execPostedNotice m s
  | .abortNotice m => Sys2Proof.Machine.execAbortNotice m s
  | .roundDeadline cc => Sys2Proof.Machine.execRoundDeadline cc s
  | .wheyPageIn cc page => Sys2Proof.Machine.execWheyPageIn cc page s
  | .reformReport m => Sys2Proof.Machine.execReformReport m s
  | .reformCollectionEnd cc => Sys2Proof.Machine.execReformCollectionEnd cc s
  | .reformResults m => Sys2Proof.Machine.execReformResults m s
  | .commandNop c => Sys2Proof.Machine.execCommandNop c s
  | .submit c => Sys2Proof.Machine.execSubmit c s
  | .signal c => Sys2Proof.Machine.execSignal c s
  | .notify c => Sys2Proof.Machine.execNotify c s
  | .resume c => Sys2Proof.Machine.execResume c s
  | .cancel c => Sys2Proof.Machine.execCancel c s
  | .dispatch c => Sys2Proof.Machine.execDispatch c s
  | .ctxnew c => Sys2Proof.Machine.execCtxnew c s
  | .ctxkill c => Sys2Proof.Machine.execCtxkill c s
  | .contextKillComplete x => Sys2Proof.Machine.execContextKillComplete x s
  | .ctxdel c => Sys2Proof.Machine.execCtxdel c s
  | .tlown c => Sys2Proof.Machine.execTlown c s
  | .faultres c => Sys2Proof.Machine.execFaultres c s
  | .inval c => Sys2Proof.Machine.execInval c s
  | .preempt c => Sys2Proof.Machine.execPreempt c s
  | .ccbind c => Sys2Proof.Machine.execCcbind c s
  | .ccstart c => Sys2Proof.Machine.execCcstart c s
  | .ccstop c => Sys2Proof.Machine.execCcstop c s
  | .dbgstop c => Sys2Proof.Machine.execDbgstop c s
  | .dbgresume c => Sys2Proof.Machine.execDbgresume c s
  | .dbgstep c => Sys2Proof.Machine.execDbgstep c s
  | .dbgsnap c => Sys2Proof.Machine.execDbgsnap c s
  | .dbgbp c => Sys2Proof.Machine.execDbgbp c s
  | .dbgmode c => Sys2Proof.Machine.execDbgmode c s
  | .fwstage c => Sys2Proof.Machine.execFwstage c s
  | .fwcommit c => Sys2Proof.Machine.execFwcommit c s
  | .fwrollback c => Sys2Proof.Machine.execFwrollback c s
  | .selftest c => Sys2Proof.Machine.execSelftest c s
  | .selftestPhaseEnd failed => Sys2Proof.Machine.execSelftestPhaseEnd failed s
  | .seckey c => Sys2Proof.Machine.execSeckey c s
  | .cmdtailWrite v => Sys2Proof.Machine.execCmdtailWrite v s
  | .cplheadWrite v => Sys2Proof.Machine.execCplheadWrite v s
  | .channelEnable v => Sys2Proof.Machine.execChannelEnable v s
  | .snoopMode v => Sys2Proof.Machine.execSnoopMode v s
  | .chstatClear v => Sys2Proof.Machine.execChstatClear v s
  | .dutyWrite v => Sys2Proof.Machine.execDutyWrite v s
  | .logheadWrite v => Sys2Proof.Machine.execLogheadWrite v s
  | .logstatClear v => Sys2Proof.Machine.execLogstatClear v s
  | .portEnable p v => Sys2Proof.Machine.execPortEnable p v s
  | .portRetrain p v => Sys2Proof.Machine.execPortRetrain p v s
  | .registerWrite w v => Sys2Proof.Machine.execRegisterWrite w v s
  | .hostMemoryAccess w => Sys2Proof.Machine.execHostMemoryAccess w s
  | .spdmRequest r => Sys2Proof.Machine.execSpdmRequest r s
  | .boot => Sys2Proof.Machine.execBoot s
  | .portLockHeld p => Sys2Proof.Machine.execPortLockHeld p s
  | .trainingTimeout p => Sys2Proof.Machine.execTrainingTimeout p s
  | .lockLoss p => Sys2Proof.Machine.execLockLoss p s
  | .fecUncorrectableBurst q => Sys2Proof.Machine.execFecUncorrectableBurst q s
  | .winfailWindow p => Sys2Proof.Machine.execWinfailWindow p s
  | .sprayRejoin p => Sys2Proof.Machine.execSprayRejoin p s
  | .packetReceive k => Sys2Proof.Machine.execPacketReceive k s
  | .packetAck k => Sys2Proof.Machine.execPacketAck k s
  | .retransmitTimeout psn => Sys2Proof.Machine.execRetransmitTimeout psn s
  | .keyGraceExpiry x => Sys2Proof.Machine.execKeyGraceExpiry x s
  | .droopTrip region => Sys2Proof.Machine.execDroopTrip region s
  | .inputUndervoltage => Sys2Proof.Machine.execInputUndervoltage s
  | .brownout => Sys2Proof.Machine.execBrownout s
  | .brownoutRecovery => Sys2Proof.Machine.execBrownoutRecovery s
  | .powerLoss => Sys2Proof.Machine.execPowerLoss s
  | .thermalThrottle => Sys2Proof.Machine.execThermalThrottle s
  | .thermalShutdown => Sys2Proof.Machine.execThermalShutdown s
  | .lineSetFull b eng n line => Sys2Proof.Machine.execLineSetFull b eng n line s
  | .reservedEncoding w => Sys2Proof.Machine.execReservedEncoding w s
  | .fusetReservedOpcode w => Sys2Proof.Machine.execFusetReservedOpcode w s
  | .unassignedCommand c => Sys2Proof.Machine.execUnassignedCommand c s

end Sys2Proof.Machine
end

