-- ==== Sys2Proof/Machine/Step.lean ====
section
/-! DEFINITION. Step: one step of the machine, and an instruction set up as the next one it runs (log 1). -/

namespace Sys2Proof.Machine

/-- One step: one move of one agent or unit, whole. -/
noncomputable def step (s : State) : Host.Outcome State Fault Refusal := stepWith exec s

/-- The machine with an instruction's bits where `step` fetches next. -/
def State.withFetchWord (s : State) (nbits w : Nat) : State := slotWith s nbits w

end Sys2Proof.Machine
end

