-- ==== Sys2Proof/Safety.lean ====
section
/-! DEFINITION. Safety: what a safe step and a safe run are, and the terms in which statements say that an instruction issues, completes, and
leaves the rest of the machine alone. -/

namespace Sys2Proof

open Sys2Proof.Machine

/-- A step that ends in a next state: neither a fault nor a refusal. -/
def SafeStep (s : State) : Prop := ∃ t, step s = .next t

/-- A state that `n` steps lead to from another. -/
inductive Reaches : Nat → State → State → Prop where
  | none (s : State) : Reaches 0 s s
  | more (n : Nat) (s t u : State) : Reaches n s t → step t = .next u → Reaches (n + 1) s u

/-- A safe run: every state it comes to has a next one. -/
def SafeRun (s : State) : Prop := ∀ n t, Reaches n s t → SafeStep t

/-! ## Frames -/

/-- The two states differ in blocks at most: every byte of every memory, every context, counter, log entry and register outside the blocks
is the same. -/
def OnlyBlocks (s t : State) : Prop := t = { s with blocks := t.blocks }

/-- They differ in block `b` at most. -/
def OnlyBlock (b : Nat) (s t : State) : Prop := OnlyBlocks s t ∧ ∀ c, c ≠ b → Tbl.get t.blocks c = Tbl.get s.blocks c

/-- They differ in team `n` of block `b` at most: the block's barriers, allocations, handles, timelines, latches, registers and other teams
are the same. -/
def OnlyTeam (b n : Nat) (s t : State) : Prop :=
  OnlyBlock b s t ∧ ∃ k, Tbl.get s.blocks b = some k ∧ ∃ k', Tbl.get t.blocks b = some k' ∧ k' = { k with teams := k'.teams } ∧
    ∀ u, u ≠ n → Tbl.get k'.teams u = Tbl.get k.teams u

/-- Two tables of splits differ at entry `e` at most. -/
def OnlySplit (e : Nat) (a c : Tbl Split) : Prop := ∀ j, j ≠ e → Tbl.get c j = Tbl.get a j

/-- A split went on past an instruction: READY at a new pc, its lanes and pending trap kept, its signature extended by what it stored, and
the place of what its TCOPY stores still owe that signature moved on by as many records (25 R474). -/
def WentOn (p q : Split) (pc : BitVec 56) (recs : List (List Byte) := []) : Prop :=
  q.pc = pc ∧ q.st = .ready ∧ q.held = none ∧ q.mask = p.mask ∧ q.sig = recs.foldl crc64 p.sig ∧ q.pend = p.pend ∧ q.stopped = p.stopped ∧
  q.owed = p.owed.map (fun c => (c.1, c.2 + 32 * recs.length))

/-! ## Issue -/

/-- The issuer with its executing lanes (11 R234). -/
def withLanes (i : Iss) (op : Op) : Iss := { i with ex := i.execLanes op }

/-- The split that `cur` names issues `op` with an executing lane and every check ahead of the instruction's own passes (09 R223, 10
R232, 02 R55, R63; 25 R470): no ILLOP, no PRIV, no poison is read, the queues it names deliver, no index faults. `j` is the issuer with what its queues gave it, `s1`
the machine with those queues popped (02 R62). -/
def Issues (op : Op) (leaders : List Nat) (s : State) (j : Iss) (s1 : State) : Prop :=
  ∃ i, issuer s = some i ∧ i.p.mask ≠ 0 ∧ op.bad = false ∧ illegalHere op i.front i.m.nregs i.m.width = false ∧
    privBarred op i.mode = false ∧ (withLanes i op).poisonLanes op leaders = [] ∧ i.execLanes op ≠ 0 ∧ queueCheck (withLanes i op) op = (.ok, none) ∧
    j = (withLanes i op).popped op ∧ s1 = onTeam s i.b i.t (popTeam (withLanes i op) op) ∧ idxFault j leaders op j.lanes = none

/-! ## Completion -/

/-- Register `r` of lane `l` after the steps of the index registers that the instruction names: each executing lane adds STEP to the home
of each, once (02 R56). A register that is no such home is as it was. -/
def steppedReg (op : Op) (j : Iss) (r l : Nat) : Word :=
  if l ∈ j.lanes then (op.xNamed.filter (fun x => xHome (j.xreg x) = r)).foldl (fun v x => v + xStep (j.xreg x)) (j.m.reg r l)
  else j.m.reg r l

/-- The instruction completed from `s` in `t`: each register that `dest` gives a value holds it, every other register of every lane is as
it was but for the steps of index registers, the flags `fl` are added to FLAGS (02 R68), and the split stands past the instruction. A
register that it writes holds poison no more (25 R470). `recs` are the signature records of what it stored (25 R474). Nothing else of the team, the block or the machine changes. -/
def Completed (op : Op) (j : Iss) (dest : Nat → Nat → Option Word) (fl : BitVec 8) (s t : State) (recs : List (List Byte) := []) : Prop :=
  OnlyTeam j.b j.t s t ∧
  ∃ m p, teamOf s j.b j.t = some m ∧ Tbl.get m.splits j.e = some p ∧
  ∃ m' p', teamOf t j.b j.t = some m' ∧ m' = { m with regs := m'.regs, flags := m.flags ||| fl, splits := m'.splits, poison := m'.poison } ∧
    (∀ r l, l < 1024 → (r * 1024 + l ∈ m'.poison ↔ r * 1024 + l ∈ m.poison ∧ dest r l = none)) ∧
    (∀ r l, l < 1024 → m'.reg r l = (dest r l).getD (steppedReg op j r l)) ∧
    Tbl.get m'.splits j.e = some p' ∧ OnlySplit j.e m.splits m'.splits ∧ WentOn p p' (j.next op) recs

/-- No register is a destination. -/
def noDest (_r _l : Nat) : Option Word := none

/-- The `n` registers from the one that field `v` names in lane `l` take the words of a value, low first (02 R47). -/
def destOf (j : Iss) (v : BitVec 8) (n : Nat) (val : BitVec 128) (r l : Nat) : Option Word :=
  if j.regNo v.toNat l ≤ r ∧ r < j.regNo v.toNat l + n then some (val.extractLsb' (32 * (r - j.regNo v.toNat l)) 32) else none

/-- In each executing lane, d takes that lane's result. -/
def laneDest (op : Op) (j : Iss) (f : Nat → LaneOut) (r l : Nat) : Option Word :=
  if l ∈ j.lanes then destOf j op.o.d op.dstExtent (f l).val r l else none

/-- In the leader alone, d takes a value (13 R279). -/
def leaderDest (op : Op) (j : Iss) (val : BitVec 128) (r l : Nat) : Option Word :=
  if l = j.leader then destOf j op.o.d 2 val r l else none

/-- No lane's result raises a flag that traps (06 R157). -/
def NoFpTrap (j : Iss) (f : Nat → LaneOut) : Prop := ∀ l ∈ j.lanes, (f l).fl &&& fpenMask j.m = 0

/-- The instruction completed with the results `f` of its executing lanes, whose flags are added to FLAGS. -/
def LanesDone (op : Op) (j : Iss) (f : Nat → LaneOut) (s t : State) (recs : List (List Byte) := []) : Prop :=
  Completed op j (laneDest op j f) (unionFlags (j.outs f)) s t recs

/-- The instruction completed and wrote no register. -/
def PlainDone (op : Op) (j : Iss) (s t : State) : Prop := Completed op j noDest 0 s t

/-- Whenever `op` issues and no enabled flag is raised, `ex` answers a next state in which it has completed with the results `f`. -/
def Computes (ex : State → Out) (op : Op) (f : Iss → Op → Nat → LaneOut) : Prop :=
  ∀ s j s1, Issues op [] s j s1 → NoFpTrap j (f j op) → ∃ t, ex s = .next t ∧ LanesDone op j (f j op) s1 t

/-- The split went on at an address, its lanes together; nothing else of the machine changed. -/
def WentTo (j : Iss) (pc : BitVec 56) (s t : State) : Prop :=
  OnlyTeam j.b j.t s t ∧
  ∃ m p, teamOf s j.b j.t = some m ∧ Tbl.get m.splits j.e = some p ∧
  ∃ m' p', teamOf t j.b j.t = some m' ∧ m' = { m with splits := m'.splits } ∧
    Tbl.get m'.splits j.e = some p' ∧ OnlySplit j.e m.splits m'.splits ∧ WentOn p p' pc

/-- The split waits in WAIT-OP at its instruction, with the lanes of `done` done; nothing else of the machine changed (01 R42). -/
def Waits (j : Iss) (done : Mask) (s t : State) : Prop :=
  OnlyTeam j.b j.t s t ∧
  ∃ m p, teamOf s j.b j.t = some m ∧ Tbl.get m.splits j.e = some p ∧
  ∃ m' p', teamOf t j.b j.t = some m' ∧ m' = { m with splits := m'.splits } ∧
    Tbl.get m'.splits j.e = some p' ∧ OnlySplit j.e m.splits m'.splits ∧
    p'.st = .waitOp ∧ p'.pc = p.pc ∧ p'.mask = p.mask ∧ ∃ h, p'.held = some h ∧ h.done = done

/-! ## Traps -/

/-- The team entered its handler on the issuing split (15 R339): the record is kept, the team is TRAPPED, and the split stands READY at
HANDLER; nothing else of the machine changed. -/
def EnteredHandler (j : Iss) (r : TrapRec) (s t : State) : Prop :=
  OnlyTeam j.b j.t s t ∧
  ∃ m p, teamOf s j.b j.t = some m ∧ Tbl.get m.splits j.e = some p ∧
  ∃ m' p' h, teamOf t j.b j.t = some m' ∧ m' = { m with st := .trapped, trap := m'.trap, splits := m'.splits } ∧
    m'.trap = some h ∧ h.trap = { r with split := j.e } ∧ h.lanes = p.mask ∧
    Tbl.get m'.splits j.e = some p' ∧ OnlySplit j.e m.splits m'.splits ∧
    p'.pc = j.l.lr.handler ∧ p'.st = .ready ∧ p'.mask = p.mask ∧ p'.pend = none

/-- A handler can take the issuer's trap: a team that handles none, whose launch names a handler (15 R339). -/
def CanTrap (j : Iss) : Prop := j.front = false ∧ j.m.trap = none ∧ j.l.lr.handler ≠ 0

/-- An instruction traps: it answers the state in which the handler has been entered with a record. -/
def Traps (ex : State → Out) (j : Iss) (r : TrapRec) (s1 : State) (s : State) : Prop :=
  CanTrap j → ∃ t, ex s = .next t ∧ EnteredHandler j { r with pc := j.p.pc, res := j.p.pc } s1 t

/-! ## Accesses of lanes -/

/-- The lanes of an access, in turn, reach their places: each address translates, its permissions allow the access, the `n` bytes that it
delivers to the lane hold no poison, and `ready` holds; `act` is what a lane's access does to the machine (03 R74, R98; 24 R454; 25 R470). -/
inductive LanesReach (b n x : Nat) (failed : List Nat) (need : Need) (ready : State → LaneAcc → Phys → Prop)
    (act : State → LaneAcc → Phys → State) (place : Nat → Phys) : State → List LaneAcc → State → Prop where
  | none (s : State) : LanesReach b n x failed need ready act place s [] s
  | more (s t : State) (q : LaneAcc) (qs : List LaneAcc) :
    reachTarget s x failed need q.tgt = .go (place q.lane) → laneDies s b n (place q.lane) = false →
    ready (noteTarget s x q.tgt) q (place q.lane) →
    LanesReach b n x failed need ready act place (act (noteTarget s x q.tgt) q (place q.lane)) qs t →
    LanesReach b n x failed need ready act place s (q :: qs) t

/-- The lanes of an access, in turn, where some meet pages that do not translate (03 R98, R99): `dn` are the lanes that reached their places
and did what they do, `ms` the pages that missed, each of which makes or joins its fault record, and `bad` the lanes whose page failed or
forbids the access, with the code of the trap and the address. -/
inductive LanesPass (b n x : Nat) (failed : List Nat) (need : Need) (ready : State → LaneAcc → Phys → Prop)
    (act : State → LaneAcc → Phys → State) (place : Nat → Phys) :
    State → List LaneAcc → List Nat → List Nat → List (Nat × Nat × Nat) → State → Prop where
  | none (s : State) : LanesPass b n x failed need ready act place s [] [] [] [] s
  | done (s t : State) (q : LaneAcc) (qs : List LaneAcc) (dn ms : List Nat) (bad : List (Nat × Nat × Nat)) :
    reachTarget s x failed need q.tgt = .go (place q.lane) → laneDies s b n (place q.lane) = false →
    ready (noteTarget s x q.tgt) q (place q.lane) →
    LanesPass b n x failed need ready act place (act (noteTarget s x q.tgt) q (place q.lane)) qs dn ms bad t →
    LanesPass b n x failed need ready act place s (q :: qs) (q.lane :: dn) ms bad t
  | miss (s t : State) (q : LaneAcc) (qs : List LaneAcc) (dn ms : List Nat) (bad : List (Nat × Nat × Nat)) (level cls : Nat) :
    reachTarget s x failed need q.tgt = .miss level cls →
    LanesPass b n x failed need ready act place (joinRecord s x (targetPage q.tgt) level cls need.kinds) qs dn ms bad t →
    LanesPass b n x failed need ready act place s (q :: qs) dn (targetPage q.tgt :: ms) bad t
  | stop (s t : State) (q : LaneAcc) (qs : List LaneAcc) (dn ms : List Nat) (bad : List (Nat × Nat × Nat)) (code : Nat) :
    (reachTarget s x failed need q.tgt = .denied ∧ code = 0x08) ∨ (reachTarget s x failed need q.tgt = .failed ∧ code = 0x07) →
    LanesPass b n x failed need ready act place s qs dn ms bad t →
    LanesPass b n x failed need ready act place s (q :: qs) dn ms ((q.lane, code, q.ea) :: bad) t

/-- Every translation asked for is there and allowed, in turn (12 R271). -/
inductive AsksGo (x : Nat) (failed : List Nat) : State → List Ask → State → Prop where
  | none (s : State) : AsksGo x failed s [] s
  | more (s t : State) (q : Ask) (qs : List Ask) (p : Phys) :
    reachTarget s x failed q.need q.tgt = .go p → AsksGo x failed (noteTarget s x q.tgt) qs t → AsksGo x failed s (q :: qs) t

/-- The two states differ in what the caches hold at most: every byte of memory, every register and every counter is the same. -/
def OnlyCaches (s t : State) : Prop := t = { s with hbm := t.hbm, l2 := t.l2, tlb := t.tlb }

/-! ## The form of the memories -/

/-- Every memory is in its one canonical form (log 3): addresses strictly rising and no entry equal to what an unlisted address reads as. -/
def Canonical (s : State) : Prop :=
  Memory.wf s.mem = true ∧ Memory.wf s.host = true ∧ Memory.wf s.chip = true ∧ Memory.wf s.spad = true ∧ Sparse.wf s.acc = true

end Sys2Proof
end

