-- ==== Sys2Proof/Certificates/Slice0/Obligations.lean ====
section
/-! DEFINITION. Obligations: the statements for the provers. -/

open Sys2Proof Sys2Proof.Machine

/-! ## Values of the integer instructions as 11 R238 to R244 state them -/

namespace Sys2Proof.Spec

/-- A sum or difference of minor `f`: wrapped, or clamped to the signed or the unsigned range with SAT for a clamped lane (R238). -/
def finishSum (f : Nat) (s : Int) : LaneOut :=
  if f = 0 then .word (BitVec.ofInt 32 s)
  else
    let lo : Int := if f = 1 then -2 ^ 31 else 0
    let hi : Int := if f = 1 then 2 ^ 31 - 1 else 2 ^ 32 - 1
    .flagged (BitVec.ofInt 32 (max lo (min s hi))) (if lo ≤ s ∧ s ≤ hi then 0 else fSAT)

/-- The integer that minor `f` of IADD and ISUB reads an operand as: signed under f1 (R238). -/
def addend (f : Nat) (v : Word) : Int := if f = 1 then v.toInt else (v.toNat : Int)

def movSpec (i : Iss) (op : Op) (l : Nat) : LaneOut := .word (i.bv op l)
def iaddSpec (i : Iss) (op : Op) (l : Nat) : LaneOut :=
  finishSum op.o.f.toNat (addend op.o.f.toNat (i.a op l) + addend op.o.f.toNat (i.bv op l))
def isubSpec (i : Iss) (op : Op) (l : Nat) : LaneOut :=
  finishSum op.o.f.toNat (addend op.o.f.toNat (i.a op l) - addend op.o.f.toNat (i.bv op l))
def imulSpec (i : Iss) (op : Op) (l : Nat) : LaneOut :=
  match op.o.f.toNat with
  | 0 => .word (BitVec.ofNat 32 ((i.a op l).toNat * (i.bv op l).toNat))
  | 1 => .word (BitVec.ofInt 32 ((i.a op l).toInt * (i.bv op l).toInt / 2 ^ 32))
  | _ => .word (BitVec.ofNat 32 ((i.a op l).toNat * (i.bv op l).toNat / 2 ^ 32))
def imadSpec (i : Iss) (op : Op) (l : Nat) : LaneOut :=
  match op.o.f.toNat with
  | 0 => .word (BitVec.ofNat 32 ((i.a op l).toNat * (i.bv op l).toNat + (i.c op l).toNat))
  | 1 => .dword (BitVec.ofInt 64 ((i.a op l).toInt * (i.bv op l).toInt + (i.c64 op l).toInt))
  | _ => .dword (BitVec.ofNat 64 ((i.a op l).toNat * (i.bv op l).toNat + (i.c64 op l).toNat))
/-- A quotient by zero is all ones and raises IDZ (06 R164). -/
def idivSpec (i : Iss) (op : Op) (l : Nat) : LaneOut :=
  if (i.bv op l).toNat = 0 then .flagged 0xFFFFFFFF fIDZ
  else if op.o.f.toNat = 0 then .word (BitVec.ofInt 32 ((i.a op l).toInt.tdiv (i.bv op l).toInt))
  else .word (BitVec.ofNat 32 ((i.a op l).toNat / (i.bv op l).toNat))
/-- A remainder by zero is the dividend and raises IDZ (06 R164). -/
def iremSpec (i : Iss) (op : Op) (l : Nat) : LaneOut :=
  if (i.bv op l).toNat = 0 then .flagged (i.a op l) fIDZ
  else if op.o.f.toNat = 0 then .word (BitVec.ofInt 32 ((i.a op l).toInt.tmod (i.bv op l).toInt))
  else .word (BitVec.ofNat 32 ((i.a op l).toNat % (i.bv op l).toNat))
def iminSpec (i : Iss) (op : Op) (l : Nat) : LaneOut :=
  if op.o.f.toNat = 0 then .word (BitVec.ofInt 32 (min (i.a op l).toInt (i.bv op l).toInt))
  else .word (BitVec.ofNat 32 (min (i.a op l).toNat (i.bv op l).toNat))
def imaxSpec (i : Iss) (op : Op) (l : Nat) : LaneOut :=
  if op.o.f.toNat = 1 then .word (BitVec.ofInt 32 (max (i.a op l).toInt (i.bv op l).toInt))
  else .word (BitVec.ofNat 32 (max (i.a op l).toNat (i.bv op l).toNat))
def iabsSpec (i : Iss) (op : Op) (l : Nat) : LaneOut := .word (BitVec.ofNat 32 (i.a op l).toInt.natAbs)
def inegSpec (i : Iss) (op : Op) (l : Nat) : LaneOut := .word (BitVec.ofInt 32 (-((i.a op l).toNat : Int)))
/-- Byte j of a word, signed under f0 (R238). -/
def byteInt (f : Nat) (v : Word) (j : Nat) : Int :=
  let b := v.toNat / 2 ^ (8 * j) % 256
  if f = 0 ∧ 128 ≤ b then (b : Int) - 256 else (b : Int)
def idot4Spec (i : Iss) (op : Op) (l : Nat) : LaneOut :=
  let p := fun j => byteInt op.o.f.toNat (i.a op l) j * byteInt op.o.f.toNat (i.bv op l) j
  .word (BitVec.ofInt 32 ((i.c op l).toNat + (p 0 + p 1 + p 2 + p 3)))

/-- 1 where a condition holds, else 0 (R239). -/
def oneIf (p : Prop) [Decidable p] : LaneOut := .word (if p then 1 else 0)
def icmpSpec (i : Iss) (op : Op) (l : Nat) : LaneOut :=
  let a := i.a op l
  let b := i.bv op l
  match op.o.f.toNat with
  | 0 => oneIf (a = b)
  | 1 => oneIf (a ≠ b)
  | 2 => oneIf (a.toInt < b.toInt)
  | 3 => oneIf (a.toInt ≤ b.toInt)
  | 4 => oneIf (b.toInt < a.toInt)
  | 5 => oneIf (b.toInt ≤ a.toInt)
  | 6 => oneIf (a.toNat < b.toNat)
  | 7 => oneIf (a.toNat ≤ b.toNat)
  | 8 => oneIf (b.toNat < a.toNat)
  | _ => oneIf (b.toNat ≤ a.toNat)
def cmp64Spec (i : Iss) (op : Op) (l : Nat) : LaneOut :=
  let a := i.a64 op l
  let b := i.b64 op l
  match op.o.f.toNat with
  | 0 => oneIf (a = b)
  | 1 => oneIf (a ≠ b)
  | 2 => oneIf (a.toInt < b.toInt)
  | 3 => oneIf (a.toNat < b.toNat)
  | 4 => oneIf (b.toInt ≤ a.toInt)
  | _ => oneIf (b.toNat ≤ a.toNat)
def selSpec (i : Iss) (op : Op) (l : Nat) : LaneOut :=
  .word (if (i.c op l).toNat % 2 = 1 then i.a op l else i.bv op l)

/-- The word whose bits a test gives. -/
def wordOfBits (p : Nat → Bool) : Word := BitVec.ofNat 32 (((List.range 32).map (fun k => if p k then 2 ^ k else 0)).sum)
/-- A word made bit by bit from two words (R240). -/
def bitwise (g : Bool → Bool → Bool) (a b : Word) : Word := wordOfBits (fun k => g (a.getLsbD k) (b.getLsbD k))
def andSpec (i : Iss) (op : Op) (l : Nat) : LaneOut := .word (bitwise (fun x y => x && y) (i.a op l) (i.bv op l))
def orSpec (i : Iss) (op : Op) (l : Nat) : LaneOut := .word (bitwise (fun x y => x || y) (i.a op l) (i.bv op l))
def xorSpec (i : Iss) (op : Op) (l : Nat) : LaneOut := .word (bitwise (fun x y => x != y) (i.a op l) (i.bv op l))
def andnSpec (i : Iss) (op : Op) (l : Nat) : LaneOut := .word (bitwise (fun x y => x && !y) (i.a op l) (i.bv op l))
def ornSpec (i : Iss) (op : Op) (l : Nat) : LaneOut := .word (bitwise (fun x y => x || !y) (i.a op l) (i.bv op l))
def xnorSpec (i : Iss) (op : Op) (l : Nat) : LaneOut := .word (bitwise (fun x y => x == y) (i.a op l) (i.bv op l))
def notSpec (i : Iss) (op : Op) (l : Nat) : LaneOut := .word (bitwise (fun x _ => !x) (i.a op l) (i.a op l))

def shlSpec (i : Iss) (op : Op) (l : Nat) : LaneOut :=
  .word (if (i.bv op l).toNat < 32 then BitVec.ofNat 32 ((i.a op l).toNat * 2 ^ (i.bv op l).toNat) else 0)
def shrlSpec (i : Iss) (op : Op) (l : Nat) : LaneOut :=
  .word (if (i.bv op l).toNat < 32 then BitVec.ofNat 32 ((i.a op l).toNat / 2 ^ (i.bv op l).toNat) else 0)
def shraSpec (i : Iss) (op : Op) (l : Nat) : LaneOut :=
  .word (BitVec.ofInt 32 ((i.a op l).toInt / 2 ^ min (i.bv op l).toNat 31))
/-- A word rotated left by n, n below 32: the bits that leave at the top enter at the bottom (R241). -/
def rotated (a : Word) (n : Nat) : Word := BitVec.ofNat 32 (a.toNat * 2 ^ n + a.toNat / 2 ^ (32 - n))
def rotlSpec (i : Iss) (op : Op) (l : Nat) : LaneOut := .word (rotated (i.a op l) ((i.bv op l).toNat % 32))
def rotrSpec (i : Iss) (op : Op) (l : Nat) : LaneOut := .word (rotated (i.a op l) ((32 - (i.bv op l).toNat % 32) % 32))
def shl64Spec (i : Iss) (op : Op) (l : Nat) : LaneOut :=
  .dword (if (i.bv op l).toNat < 64 then BitVec.ofNat 64 ((i.a64 op l).toNat * 2 ^ (i.bv op l).toNat) else 0)
def shr64Spec (i : Iss) (op : Op) (l : Nat) : LaneOut :=
  .dword (if (i.bv op l).toNat < 64 then BitVec.ofNat 64 ((i.a64 op l).toNat / 2 ^ (i.bv op l).toNat) else 0)
def shfSpec (i : Iss) (op : Op) (l : Nat) : LaneOut :=
  let n := (i.c op l).toNat
  let w := (i.bv op l).toNat * 2 ^ 32 + (i.a op l).toNat
  .word (if 64 ≤ n then 0 else if op.o.f.toNat = 0 then BitVec.ofNat 32 (w / 2 ^ n) else BitVec.ofNat 32 (w * 2 ^ n % 2 ^ 64 / 2 ^ 32))

/-- The bits of a field that a control word names (R242). -/
def fieldBits (ctl : Word) : Nat × Nat :=
  let pos := ctl.toNat % 256
  let len := ctl.toNat / 256 % 256
  (pos, if 32 ≤ pos then 0 else min len (32 - pos))
def bfeSpec (i : Iss) (op : Op) (l : Nat) : LaneOut :=
  let pos := (fieldBits (i.bv op l)).1
  let n := (fieldBits (i.bv op l)).2
  let v := (i.a op l).toNat / 2 ^ pos % 2 ^ n
  .word (BitVec.ofInt 32 (if op.o.f.toNat = 1 ∧ n ≠ 0 ∧ 2 ^ (n - 1) ≤ v then (v : Int) - 2 ^ n else v))
/-- Bit k of BFI: within the field a bit of a, elsewhere the base's (R242). -/
def bfiSpec (i : Iss) (op : Op) (l : Nat) : LaneOut :=
  let pos := (fieldBits (i.c op l)).1
  let n := (fieldBits (i.c op l)).2
  .word (wordOfBits (fun k => if pos ≤ k ∧ k < pos + n then (i.a op l).getLsbD (k - pos) else (i.bv op l).getLsbD k))

/-- A count of the numbers below 32 that satisfy a test, as a word. -/
def countTo32 (p : Nat → Bool) : LaneOut := .word (BitVec.ofNat 32 ((List.range 32).countP p))
def popcSpec (i : Iss) (op : Op) (l : Nat) : LaneOut := countTo32 (fun k => (i.a op l).toNat / 2 ^ k % 2 = 1)
/-- Leading zeros: how many powers of two up to 2^31 are above a (R243). -/
def clzSpec (i : Iss) (op : Op) (l : Nat) : LaneOut := countTo32 (fun k => (i.a op l).toNat < 2 ^ k)
/-- Trailing zeros: how many powers of two from 2 to 2^32 divide a (R243). -/
def ctzSpec (i : Iss) (op : Op) (l : Nat) : LaneOut := countTo32 (fun k => (i.a op l).toNat % 2 ^ (k + 1) = 0)
def brevSpec (i : Iss) (op : Op) (l : Nat) : LaneOut :=
  .word (BitVec.ofNat 32 (((List.range 32).map (fun k => if (i.a op l).getLsbD k then 2 ^ (31 - k) else 0)).sum))
/-- Bit k of byte j of BYSEL (R243). -/
def byselBit (w : DWord) (t j k : Nat) : Bool :=
  let s := 8 * (t / 2 ^ (8 * j) % 8)
  match t / 2 ^ (8 * j) / 8 % 4 with
  | 0 => w.getLsbD (s + k)
  | 1 => w.getLsbD (s + (7 - k))
  | 2 => w.getLsbD (s + 7)
  | _ => false
def byselSpec (i : Iss) (op : Op) (l : Nat) : LaneOut :=
  .word (BitVec.ofNat 32 (((List.range 32).map (fun k =>
    if byselBit (i.bv op l ++ i.a op l) (i.c op l).toNat (k / 8) (k % 8) then 2 ^ k else 0)).sum))

def add64Spec (i : Iss) (op : Op) (l : Nat) : LaneOut := .dword (BitVec.ofNat 64 ((i.a64 op l).toNat + (i.b64 op l).toNat))
def sub64Spec (i : Iss) (op : Op) (l : Nat) : LaneOut := .dword (BitVec.ofInt 64 ((i.a64 op l).toNat - (i.b64 op l).toNat))
def leaSpec (i : Iss) (op : Op) (l : Nat) : LaneOut :=
  .dword (BitVec.ofInt 64 ((i.a64 op l).toNat + (i.bv op l).toInt * 2 ^ op.o.f.toNat))

end Sys2Proof.Spec

open Sys2Proof Sys2Proof.Machine Sys2Proof.Spec

/-- 11 R238 (and 06 R164 for a divisor of zero): NOP changes nothing; every form of MOV, IADD, ISUB, IMUL, IMAD, IDIV, IREM, IMIN, IMAX, IABS, INEG and IDOT4 completes in each executing lane with the value, and the SAT or IDZ, that the rules state, and changes nothing else. -/
def Obligations.IntegerArithmetic : Prop :=
  (∀ s j s1,
    (∀ o, Issues (opC 15 o) [] s j s1 → ∃ t, exec (.nopC16 o) s = .next t ∧ PlainDone (opC 15 o) j s1 t) ∧
    (∀ o, Issues (opW 0x00 o) [] s j s1 → ∃ t, exec (.nopW32 o) s = .next t ∧ PlainDone (opW 0x00 o) j s1 t) ∧
    (∀ o, Issues (opL 0x00 o) [] s j s1 → ∃ t, exec (.nopL64 o) s = .next t ∧ PlainDone (opL 0x00 o) j s1 t)) ∧
  (∀ o, Computes (exec (.movC16 o)) (opC 0 o) movSpec) ∧
  (∀ o, Computes (exec (.movW32 o)) (opW 0x01 o) movSpec) ∧
  (∀ o, Computes (exec (.movL64 o)) (opL 0x01 o) movSpec) ∧
  (∀ o, Computes (exec (.iaddC16 o)) (opC 1 o) iaddSpec) ∧
  (∀ o, Computes (exec (.iaddW32 o)) (opW 0x02 o) iaddSpec) ∧
  (∀ o, Computes (exec (.iaddL64 o)) (opL 0x02 o) iaddSpec) ∧
  (∀ o, Computes (exec (.isubC16 o)) (opC 2 o) isubSpec) ∧
  (∀ o, Computes (exec (.isubW32 o)) (opW 0x03 o) isubSpec) ∧
  (∀ o, Computes (exec (.isubL64 o)) (opL 0x03 o) isubSpec) ∧
  (∀ o, Computes (exec (.imulC16 o)) (opC 3 o) imulSpec) ∧
  (∀ o, Computes (exec (.imulW32 o)) (opW 0x04 o) imulSpec) ∧
  (∀ o, Computes (exec (.imulL64 o)) (opL 0x04 o) imulSpec) ∧
  (∀ o, Computes (exec (.imad o)) (opL 0x05 o) imadSpec) ∧
  (∀ o, Computes (exec (.idivW32 o)) (opW 0x06 o) idivSpec) ∧
  (∀ o, Computes (exec (.idivL64 o)) (opL 0x06 o) idivSpec) ∧
  (∀ o, Computes (exec (.iremW32 o)) (opW 0x07 o) iremSpec) ∧
  (∀ o, Computes (exec (.iremL64 o)) (opL 0x07 o) iremSpec) ∧
  (∀ o, Computes (exec (.iminW32 o)) (opW 0x08 o) iminSpec) ∧
  (∀ o, Computes (exec (.iminL64 o)) (opL 0x08 o) iminSpec) ∧
  (∀ o, Computes (exec (.imaxW32 o)) (opW 0x08 o) imaxSpec) ∧
  (∀ o, Computes (exec (.imaxL64 o)) (opL 0x08 o) imaxSpec) ∧
  (∀ o, Computes (exec (.iabsW32 o)) (opW 0x11 o) iabsSpec) ∧
  (∀ o, Computes (exec (.iabsL64 o)) (opL 0x11 o) iabsSpec) ∧
  (∀ o, Computes (exec (.inegW32 o)) (opW 0x11 o) inegSpec) ∧
  (∀ o, Computes (exec (.inegL64 o)) (opL 0x11 o) inegSpec) ∧
  (∀ o, Computes (exec (.idot4 o)) (opL 0x17 o) idot4Spec)

/-- 11 R239, R242, R243, R244: every form of ICMP and CMP64 writes 1 when its condition holds and 0 otherwise, and SEL chooses by bit 0 of c; every
form of the bit fields, the counts, BREV and BYSEL gives the bits that the rules state; ADD64, SUB64 and LEA act on pairs, modulo 2^64. -/
def Obligations.ComparisonsBitFieldsAndPairs : Prop :=
  (∀ o, Computes (exec (.icmpW32 o)) (opW 0x09 o) icmpSpec) ∧
  (∀ o, Computes (exec (.icmpL64 o)) (opL 0x09 o) icmpSpec) ∧
  (∀ o, Computes (exec (.sel o)) (opL 0x0A o) selSpec) ∧
  (∀ o, Computes (exec (.cmp64W32 o)) (opW 0x15 o) cmp64Spec) ∧
  (∀ o, Computes (exec (.cmp64L64 o)) (opL 0x15 o) cmp64Spec) ∧
  (∀ o, Computes (exec (.bfeW32 o)) (opW 0x0E o) bfeSpec) ∧
  (∀ o, Computes (exec (.bfeL64 o)) (opL 0x0E o) bfeSpec) ∧
  (∀ o, Computes (exec (.bfi o)) (opL 0x0F o) bfiSpec) ∧
  (∀ o, Computes (exec (.popcW32 o)) (opW 0x10 o) popcSpec) ∧
  (∀ o, Computes (exec (.popcL64 o)) (opL 0x10 o) popcSpec) ∧
  (∀ o, Computes (exec (.clzW32 o)) (opW 0x10 o) clzSpec) ∧
  (∀ o, Computes (exec (.clzL64 o)) (opL 0x10 o) clzSpec) ∧
  (∀ o, Computes (exec (.ctzW32 o)) (opW 0x10 o) ctzSpec) ∧
  (∀ o, Computes (exec (.ctzL64 o)) (opL 0x10 o) ctzSpec) ∧
  (∀ o, Computes (exec (.brevW32 o)) (opW 0x10 o) brevSpec) ∧
  (∀ o, Computes (exec (.brevL64 o)) (opL 0x10 o) brevSpec) ∧
  (∀ o, Computes (exec (.bysel o)) (opL 0x16 o) byselSpec) ∧
  (∀ o, Computes (exec (.add64W32 o)) (opW 0x12 o) add64Spec) ∧
  (∀ o, Computes (exec (.add64L64 o)) (opL 0x12 o) add64Spec) ∧
  (∀ o, Computes (exec (.sub64W32 o)) (opW 0x12 o) sub64Spec) ∧
  (∀ o, Computes (exec (.sub64L64 o)) (opL 0x12 o) sub64Spec) ∧
  (∀ o, Computes (exec (.leaW32 o)) (opW 0x13 o) leaSpec) ∧
  (∀ o, Computes (exec (.leaL64 o)) (opL 0x13 o) leaSpec)

/-- 11 R240, R241: every form of the logic instructions is the operation on each bit; every form of the shifts and rotations reads
counts as whole unsigned words. -/
def Obligations.LogicAndShifts : Prop :=
  (∀ o, Computes (exec (.andC16 o)) (opC 4 o) andSpec) ∧
  (∀ o, Computes (exec (.andW32 o)) (opW 0x0B o) andSpec) ∧
  (∀ o, Computes (exec (.andL64 o)) (opL 0x0B o) andSpec) ∧
  (∀ o, Computes (exec (.orC16 o)) (opC 5 o) orSpec) ∧
  (∀ o, Computes (exec (.orW32 o)) (opW 0x0B o) orSpec) ∧
  (∀ o, Computes (exec (.orL64 o)) (opL 0x0B o) orSpec) ∧
  (∀ o, Computes (exec (.xorC16 o)) (opC 6 o) xorSpec) ∧
  (∀ o, Computes (exec (.xorW32 o)) (opW 0x0B o) xorSpec) ∧
  (∀ o, Computes (exec (.xorL64 o)) (opL 0x0B o) xorSpec) ∧
  (∀ o, Computes (exec (.andnW32 o)) (opW 0x0B o) andnSpec) ∧
  (∀ o, Computes (exec (.andnL64 o)) (opL 0x0B o) andnSpec) ∧
  (∀ o, Computes (exec (.ornW32 o)) (opW 0x0B o) ornSpec) ∧
  (∀ o, Computes (exec (.ornL64 o)) (opL 0x0B o) ornSpec) ∧
  (∀ o, Computes (exec (.xnorW32 o)) (opW 0x0B o) xnorSpec) ∧
  (∀ o, Computes (exec (.xnorL64 o)) (opL 0x0B o) xnorSpec) ∧
  (∀ o, Computes (exec (.notW32 o)) (opW 0x0B o) notSpec) ∧
  (∀ o, Computes (exec (.notL64 o)) (opL 0x0B o) notSpec) ∧
  (∀ o, Computes (exec (.shlC16 o)) (opC 7 o) shlSpec) ∧
  (∀ o, Computes (exec (.shlW32 o)) (opW 0x0C o) shlSpec) ∧
  (∀ o, Computes (exec (.shlL64 o)) (opL 0x0C o) shlSpec) ∧
  (∀ o, Computes (exec (.shrlC16 o)) (opC 8 o) shrlSpec) ∧
  (∀ o, Computes (exec (.shrlW32 o)) (opW 0x0C o) shrlSpec) ∧
  (∀ o, Computes (exec (.shrlL64 o)) (opL 0x0C o) shrlSpec) ∧
  (∀ o, Computes (exec (.shraC16 o)) (opC 9 o) shraSpec) ∧
  (∀ o, Computes (exec (.shraW32 o)) (opW 0x0C o) shraSpec) ∧
  (∀ o, Computes (exec (.shraL64 o)) (opL 0x0C o) shraSpec) ∧
  (∀ o, Computes (exec (.rotlW32 o)) (opW 0x0C o) rotlSpec) ∧
  (∀ o, Computes (exec (.rotlL64 o)) (opL 0x0C o) rotlSpec) ∧
  (∀ o, Computes (exec (.rotrW32 o)) (opW 0x0C o) rotrSpec) ∧
  (∀ o, Computes (exec (.rotrL64 o)) (opL 0x0C o) rotrSpec) ∧
  (∀ o, Computes (exec (.shf o)) (opL 0x0D o) shfSpec) ∧
  (∀ o, Computes (exec (.shl64W32 o)) (opW 0x14 o) shl64Spec) ∧
  (∀ o, Computes (exec (.shl64L64 o)) (opL 0x14 o) shl64Spec) ∧
  (∀ o, Computes (exec (.shr64W32 o)) (opW 0x14 o) shr64Spec) ∧
  (∀ o, Computes (exec (.shr64L64 o)) (opL 0x14 o) shr64Spec)

/-! ## Values of the floating instructions that move or compare bits, of the exact conversions, of CLMUL and of RNG, bit by bit (11 R246 to
R251, R256, R257) -/

namespace Sys2Proof.Spec

/-- A word is an FP32 NaN; a signalling one, whose top fraction bit is 0 (06 R150). -/
def nan32 (w : Word) : Bool := 0x7F800000 < w.toNat % 2 ^ 31
def signalling32 (w : Word) : Bool := nan32 w && w.toNat % 2 ^ 23 < 2 ^ 22
/-- The order of FP32 words that are no NaN: of their magnitudes as integers, with the sign; `split` puts -0 below +0. -/
def order32 (split : Bool) (w : Word) : Int :=
  if w.toNat < 2 ^ 31 then (w.toNat : Int) else -((w.toNat - 2 ^ 31 : Nat) : Int) - (if split then 1 else 0)

/-- FMIN, FMAX, FMINP and FMAXP (R246). -/
def minMaxSpec (greater prop : Bool) (i : Iss) (op : Op) (l : Nat) : LaneOut :=
  let a := i.a op l
  let b := i.bv op l
  let fl := if signalling32 a || signalling32 b then fNV else 0
  let pick := if (order32 true a < order32 true b) = (greater = true) then b else a
  .flagged (if nan32 a && nan32 b then 0x7FC00000 else if nan32 a then (if prop then 0x7FC00000 else b)
    else if nan32 b then (if prop then 0x7FC00000 else a) else pick) fl
/-- FCMP (R247). -/
def fcmpSpec (i : Iss) (op : Op) (l : Nat) : LaneOut :=
  let a := i.a op l
  let b := i.bv op l
  let un := nan32 a || nan32 b
  let x := order32 false a
  let y := order32 false b
  let f := op.o.f.toNat
  let holds : Bool := match f with
    | 0 => !un && x = y
    | 1 => un || x ≠ y
    | 2 => !un && x < y
    | 3 => !un && x ≤ y
    | 4 => !un && y < x
    | 5 => !un && y ≤ x
    | 6 => un
    | _ => !un
  .flagged (if holds then 1 else 0) (if signalling32 a || signalling32 b || (2 ≤ f && f ≤ 5 && un) then fNV else 0)
/-- FABS, FNEG and FCPYS move bits (R248). -/
def fabsSpec (i : Iss) (op : Op) (l : Nat) : LaneOut := .word (wordOfBits (fun k => k ≠ 31 && (i.a op l).getLsbD k))
def fnegSpec (i : Iss) (op : Op) (l : Nat) : LaneOut := .word (wordOfBits (fun k => (i.a op l).getLsbD k != (k = 31)))
def fcpysSpec (i : Iss) (op : Op) (l : Nat) : LaneOut :=
  .word (wordOfBits (fun k => if k = 31 then (i.bv op l).getLsbD 31 else (i.a op l).getLsbD k))
/-- The bit of FCLASS for a word (R249). -/
def classOf (w : Word) : Nat :=
  let neg := 2 ^ 31 ≤ w.toNat
  let e := w.toNat / 2 ^ 23 % 256
  let f := w.toNat % 2 ^ 23
  if e = 255 then (if f = 0 then (if neg then 9 else 2) else if f < 2 ^ 22 then 0 else 1)
  else if e = 0 then (if f = 0 then (if neg then 6 else 5) else (if neg then 7 else 4))
  else (if neg then 8 else 3)
def fclassSpec (i : Iss) (op : Op) (l : Nat) : LaneOut := .word (BitVec.ofNat 32 (2 ^ classOf (i.a op l)))

/-- The FP32 code of a finite value of a narrower format: its sign, exponent field and fraction, of `w` bits, under bias `b` (06 R147, R152).
A subnormal is normalised by the place of its highest bit. -/
def widened (w b : Nat) (neg : Bool) (e f : Nat) : Nat :=
  (if neg then 2 ^ 31 else 0) +
    (if e ≠ 0 then (e + 127 - b) * 2 ^ 23 + f * 2 ^ (23 - w)
     else if f = 0 then 0
     else (128 - b - w + f.log2) * 2 ^ 23 + (f - 2 ^ f.log2) * 2 ^ (23 - f.log2))
/-- A code of a format with infinities as FP32: exact, with the canonical NaN, and NV for a signalling one (06 R151). -/
def exactIeee (x w b v : Nat) : LaneOut :=
  let neg := v / 2 ^ (x + w) % 2 = 1
  let e := v / 2 ^ w % 2 ^ x
  let f := v % 2 ^ w
  if e = 2 ^ x - 1 then
    (if f = 0 then .word (if neg then 0xFF800000 else 0x7F800000) else .flagged 0x7FC00000 (if f < 2 ^ (w - 1) then fNV else 0))
  else .word (BitVec.ofNat 32 (widened w b neg e f))
/-- BF16 is the upper half of FP32 (R250 f4). -/
def exactBf16 (v : Nat) : LaneOut :=
  let w : Word := BitVec.ofNat 32 (v * 2 ^ 16)
  if nan32 w then .flagged 0x7FC00000 (if v % 2 ^ 7 < 2 ^ 6 then fNV else 0) else .word w
/-- S24 has FP32's exponent and 16 of its fraction bits; exponent 255 is poison (R250 f8, 06 R161). -/
def exactS24 (v : Nat) : LaneOut := if v / 2 ^ 16 = 255 then .flagged 0x7FC00000 fPSN else .word (BitVec.ofNat 32 (v * 2 ^ 7))
/-- E8M0 is an exponent field; its zero is the subnormal 2^-127 (R250 f12, 06 R160). -/
def exactE8m0 (v : Nat) : LaneOut := .word (if v = 255 then 0x7FC00000 else if v = 0 then 0x00400000 else BitVec.ofNat 32 (v * 2 ^ 23))
/-- CVT (R250): the exact forms bit by bit, the forms that round as the model rounds. -/
def cvtSpec (i : Iss) (op : Op) (l : Nat) : LaneOut :=
  let a := (i.a op l).toNat
  match op.o.f.toNat with
  | 4 => exactBf16 (a % 2 ^ 16)
  | 6 => exactIeee 5 10 15 (a % 2 ^ 16)
  | 8 => exactS24 (a % 2 ^ 24)
  | 12 => exactE8m0 (a % 2 ^ 8)
  | _ => laneCvt i op l
/-- UNPK8: E4M3 under f2, whose only NaNs have every bit below the sign set, else E5M2 (R251, 06 R147). -/
def unpk8Spec (i : Iss) (op : Op) (l : Nat) : LaneOut :=
  let v := (i.a op l).toNat / 2 ^ (8 * (l % 4)) % 2 ^ 8
  if op.o.f.toNat = 2 then
    (if v % 2 ^ 7 = 0x7F then .word 0x7FC00000 else .word (BitVec.ofNat 32 (widened 3 7 (v / 2 ^ 7 = 1) (v / 2 ^ 3 % 2 ^ 4) (v % 2 ^ 3))))
  else exactIeee 5 2 15 v
/-- UNPK4 (R251). -/
def unpk4Spec (i : Iss) (op : Op) (l : Nat) : LaneOut :=
  let v := (i.a op l).toNat / 2 ^ (4 * (l % 8)) % 2 ^ 4
  .word (BitVec.ofNat 32 (widened 1 1 (v / 2 ^ 3 = 1) (v / 2 % 2 ^ 2) (v % 2)))

/-- Bit `k` of the carry-less product (R257). -/
def clmulBit (a b : Word) (k : Nat) : Bool := (List.range 32).countP (fun j => j ≤ k && a.getLsbD j && b.getLsbD (k - j)) % 2 = 1
def clmulSpec (i : Iss) (op : Op) (l : Nat) : LaneOut :=
  .word (wordOfBits (fun k => clmulBit (i.a op l) (i.bv op l) (if op.o.f.toNat = 0 then k else k + 32)))
/-- One round of Philox on c0 to c3 and k0, k1 (06 R171). -/
def philoxStep (c : Nat × Nat × Nat × Nat) (k : Nat × Nat) : Nat × Nat × Nat × Nat :=
  let p := 0xD2511F53 * c.1
  let q := 0xCD9E8D57 * c.2.2.1
  (q / 2 ^ 32 ^^^ c.2.1 ^^^ k.1, q % 2 ^ 32, p / 2 ^ 32 ^^^ c.2.2.2 ^^^ k.2, p % 2 ^ 32)
/-- `n` rounds, the key stepped after each. -/
def philoxSteps (n : Nat) (c : Nat × Nat × Nat × Nat) (k : Nat × Nat) : Nat × Nat × Nat × Nat :=
  match n with
  | 0 => c
  | m + 1 => philoxSteps m (philoxStep c k) ((k.1 + 0x9E3779B9) % 2 ^ 32, (k.2 + 0xBB67AE85) % 2 ^ 32)
/-- RNG: the counter is the quad of b, the key the pair of a, low words first (R256). -/
def rngSpec (i : Iss) (op : Op) (l : Nat) : LaneOut :=
  let w := fun (j : Nat) => (i.src128 op.o.b l).toNat / 2 ^ (32 * j) % 2 ^ 32
  let k := (i.a64 op l).toNat
  let c := philoxSteps 10 (w 0, w 1, w 2, w 3) (k % 2 ^ 32, k / 2 ^ 32)
  { val := BitVec.ofNat 128 (c.1 + c.2.1 * 2 ^ 32 + c.2.2.1 * 2 ^ 64 + c.2.2.2 * 2 ^ 96), fl := 0 }

end Sys2Proof.Spec

/-! ## Rounding, stated on real numbers: exact results, and the one rounding of 06 R153 and R154 -/

namespace Sys2Proof.Spec

/-- The codes of a format: exponent bits, fraction bits, bias (06 R147, R161). -/
structure Codes where
  e : Nat
  f : Nat
  bias : Int

def codes32 : Codes := ⟨8, 23, 127⟩
def codes16 : Codes := ⟨5, 10, 15⟩
def codesBf : Codes := ⟨8, 7, 127⟩
def codesE5 : Codes := ⟨5, 2, 15⟩
def codesE4 : Codes := ⟨4, 3, 7⟩
def codesE2 : Codes := ⟨2, 1, 1⟩
def codesS24 : Codes := ⟨8, 16, 127⟩

/-- A power of two. -/
noncomputable def pow2 (z : ℤ) : ℝ := (2 : ℝ) ^ z
/-- The bits below the sign; the sign. -/
def Codes.low (c : Codes) (v : Nat) : Nat := v % 2 ^ (c.e + c.f)
def Codes.neg (c : Codes) (v : Nat) : Bool := v / 2 ^ (c.e + c.f) % 2 = 1
/-- A magnitude with a sign. -/
def Codes.withSign (c : Codes) (s : Bool) (v : Nat) : Nat := if s then 2 ^ (c.e + c.f) + v else v
/-- The code of infinity and the canonical NaN of a format that has them (06 R147, R150). -/
def Codes.inf (c : Codes) : Nat := (2 ^ c.e - 1) * 2 ^ c.f
def Codes.nan (c : Codes) : Nat := c.inf + 2 ^ (c.f - 1)
def Codes.isNan (c : Codes) (v : Nat) : Bool := c.inf < c.low v
/-- A signalling NaN: its top fraction bit is 0 (06 R150). -/
def Codes.isSig (c : Codes) (v : Nat) : Bool := c.isNan v && v % 2 ^ c.f < 2 ^ (c.f - 1)
def Codes.isInf (c : Codes) (v : Nat) : Bool := c.low v = c.inf
/-- The number that a code stands for (06 R148). -/
noncomputable def Codes.real (c : Codes) (v : Nat) : ℝ :=
  let be := v / 2 ^ c.f % 2 ^ c.e
  let fr := v % 2 ^ c.f
  (if c.neg v then -1 else 1) *
    (if be = 0 then (fr : ℝ) * pow2 (1 - c.bias - c.f) else ((2 ^ c.f + fr : ℕ) : ℝ) * pow2 ((be : ℤ) - c.bias - c.f))

/-- A number rounded to an integer: to nearest with ties to even, toward zero, down, up (06 R153). -/
noncomputable def roundedInt (rm : Nat) (y : ℝ) : ℤ :=
  match rm with
  | 0 => if y - ⌊y⌋ < 1 / 2 then ⌊y⌋ else if 1 / 2 < y - ⌊y⌋ then ⌊y⌋ + 1 else if ⌊y⌋ % 2 = 0 then ⌊y⌋ else ⌊y⌋ + 1
  | 1 => if 0 ≤ y then ⌊y⌋ else ⌈y⌉
  | 2 => ⌊y⌋
  | _ => ⌈y⌉
/-- A number rounded to a multiple of a power of two. -/
noncomputable def onGrid (rm : Nat) (x : ℝ) (q : ℤ) : ℝ := (roundedInt rm (x / pow2 q) : ℝ) * pow2 q
/-- A number rounded with the full fraction width and an unbounded exponent: overflow and tininess are judged on it (06 R154). -/
noncomputable def Codes.wide (c : Codes) (rm : Nat) (x : ℝ) : ℝ := onGrid rm x (Int.log 2 |x| - c.f)
/-- A number rounded once to the format's own grid, which below the smallest normal is that of the subnormals (06 R154). -/
noncomputable def Codes.kept (c : Codes) (rm : Nat) (x : ℝ) : ℝ := onGrid rm x (max (Int.log 2 |x|) (1 - c.bias) - c.f)
/-- The flags of a number that a format holds rounded: UF for a tiny inexact one, NX for an inexact one (06 R155). -/
noncomputable def Codes.smallFl (c : Codes) (rm : Nat) (x : ℝ) : BitVec 8 :=
  (if |c.wide rm x| < pow2 (1 - c.bias) ∧ c.kept rm x ≠ x then fUF else 0) ||| (if c.kept rm x ≠ x then fNX else 0)
/-- An overflow is delivered as an infinity (06 R154). -/
def goesInf (rm : Nat) (x : ℝ) : Prop := rm = 0 ∨ (rm = 2 ∧ x < 0) ∨ (rm = 3 ∧ 0 < x)

/-- A result: its code and its flags. -/
abbrev Res := Nat × BitVec 8
/-- `r` is a number other than zero held in a format: its value is the number rounded once, its sign the number's. -/
def Codes.Holds (c : Codes) (rm : Nat) (x : ℝ) (r : Res) : Prop :=
  r.1 < 2 ^ (1 + c.e + c.f) ∧ c.real r.1 = c.kept rm x ∧ (c.neg r.1 = true ↔ x < 0) ∧ r.2 = c.smallFl rm x
/-- `r` is a number other than zero delivered in a format with infinities (06 R154, R155). -/
def Codes.Delivers (c : Codes) (rm : Nat) (x : ℝ) (r : Res) : Prop :=
  (c.real (c.inf - 1) < |c.wide rm x| → ∃ s, (s = true ↔ x < 0) ∧ r.2 = fOF ||| fNX ∧
    (goesInf rm x → r.1 = c.withSign s c.inf) ∧ (¬ goesInf rm x → r.1 = c.withSign s (c.inf - 1))) ∧
  (|c.wide rm x| ≤ c.real (c.inf - 1) → c.low r.1 < c.inf ∧ c.Holds rm x r)

/-! ### Operands and the operations on them (11 R245, R249) -/

/-- An operand: a NaN, an infinity, or a number with a sign, which a zero has too. -/
inductive Operand where
  | nan
  | inf (neg : Bool)
  | num (neg : Bool) (x : ℝ)

noncomputable def Codes.operand (c : Codes) (v : Nat) : Operand :=
  if c.isNan v then .nan else if c.isInf v then .inf (c.neg v) else .num (c.neg v) (c.real v)
noncomputable def Operand.opposite (v : Operand) : Operand :=
  match v with
  | .nan => .nan
  | .inf s => .inf (!s)
  | .num s x => .num (!s) (-x)
noncomputable def Operand.value (v : Operand) : ℝ :=
  match v with
  | .num _ x => x
  | _ => 0
def Operand.sign (v : Operand) : Bool :=
  match v with
  | .nan => false
  | .inf s => s
  | .num s _ => s
/-- Zero times infinity. -/
def BadProduct (a b : Operand) : Prop := ∃ s t, (a = .inf s ∧ b = .num t 0) ∨ (a = .num t 0 ∧ b = .inf s)
/-- A product that is not bad. -/
noncomputable def product (a b : Operand) : Operand :=
  match a, b with
  | .nan, _ => .nan
  | _, .nan => .nan
  | .num s x, .num t y => .num (s != t) (x * y)
  | v, w => .inf (v.sign != w.sign)

/-- `r` is an operand delivered; an invalid operation is the canonical NaN with NV. -/
def Codes.Gives (c : Codes) (rm : Nat) (invalid : Prop) (v : Operand) (r : Res) : Prop :=
  (invalid → r = (c.nan, fNV)) ∧
  (¬ invalid → (v = .nan → r = (c.nan, 0)) ∧ (∀ s, v = .inf s → r = (c.withSign s c.inf, 0)) ∧
    ∀ s x, v = .num s x → (x = 0 → r = (c.withSign s 0, 0)) ∧ (x ≠ 0 → c.Delivers rm x r))
/-- `v` is the exact sum of operands that are not infinities of both signs: a NaN among them, the infinity, or the number; an exact zero has
the terms' common sign, and with terms of both signs +, or under .rd - (R245). -/
def IsSum (rm : Nat) (vs : List Operand) (v : Operand) : Prop :=
  (Operand.nan ∈ vs → v = .nan) ∧ (Operand.nan ∉ vs → ∀ s, Operand.inf s ∈ vs → v = .inf s) ∧
  (Operand.nan ∉ vs → (∀ s, Operand.inf s ∉ vs) → ∃ s, v = .num s (vs.map Operand.value).sum ∧ ((∀ w ∈ vs, w.sign = true) → s = true) ∧
    ((∀ w ∈ vs, w.sign = false) → s = false) ∧ ((∃ w ∈ vs, w.sign = true) → (∃ w ∈ vs, w.sign = false) → (s = true ↔ rm = 2)))
/-- `r` is an exact sum delivered: infinities of both signs are invalid. -/
def Codes.SumGives (c : Codes) (rm : Nat) (invalid : Prop) (vs : List Operand) (r : Res) : Prop :=
  let both := Operand.nan ∉ vs ∧ Operand.inf true ∈ vs ∧ Operand.inf false ∈ vs
  (both → r = (c.nan, fNV)) ∧ (¬ both → ∃ v, IsSum rm vs v ∧ c.Gives rm invalid v r)

/-- Half `h` of a word in a format, or the whole word in FP32. -/
def Codes.part (c : Codes) (w : Word) (h : Nat) : Nat := w.toNat / 2 ^ (16 * h) % 2 ^ (1 + c.e + c.f)
/-- A result of the type that a minor names: FP32, two FP16 halves, two BF16 halves (R245). -/
def Typed (f : Nat) (P : Codes → Nat → Res → Prop) (out : LaneOut) : Prop :=
  match f with
  | 0 => ∃ r, P codes32 0 r ∧ out = .flagged (BitVec.ofNat 32 r.1) r.2
  | k + 1 => ∃ lo hi, P (if k = 0 then codes16 else codesBf) 0 lo ∧ P (if k = 0 then codes16 else codesBf) 1 hi ∧
      out = .flagged (BitVec.ofNat 32 (hi.1 * 65536 + lo.1)) (lo.2 ||| hi.2)
/-- An FP32 result. -/
def Whole (P : Res → Prop) (out : LaneOut) : Prop := ∃ r, P r ∧ out = .flagged (BitVec.ofNat 32 r.1) r.2

def FaddIs (i : Iss) (op : Op) (l : Nat) : LaneOut → Prop :=
  Typed op.o.f.toNat (fun c h =>
    let a := c.part (i.a op l) h
    let b := c.part (i.bv op l) h
    c.SumGives op.o.rm.toNat (c.isSig a = true ∨ c.isSig b = true) [c.operand a, c.operand b])
def FsubIs (i : Iss) (op : Op) (l : Nat) : LaneOut → Prop :=
  Typed op.o.f.toNat (fun c h =>
    let a := c.part (i.a op l) h
    let b := c.part (i.bv op l) h
    c.SumGives op.o.rm.toNat (c.isSig a = true ∨ c.isSig b = true) [c.operand a, (c.operand b).opposite])
def FmulIs (i : Iss) (op : Op) (l : Nat) : LaneOut → Prop :=
  Typed op.o.f.toNat (fun c h =>
    let a := c.part (i.a op l) h
    let b := c.part (i.bv op l) h
    c.Gives op.o.rm.toNat (c.isSig a = true ∨ c.isSig b = true ∨ BadProduct (c.operand a) (c.operand b)) (product (c.operand a) (c.operand b)))
def FfmaIs (i : Iss) (op : Op) (l : Nat) : LaneOut → Prop :=
  Typed op.o.f.toNat (fun c h =>
    let a := c.part (i.a op l) h
    let b := c.part (i.bv op l) h
    let d := c.part (i.c op l) h
    c.SumGives op.o.rm.toNat (c.isSig a = true ∨ c.isSig b = true ∨ c.isSig d = true ∨ BadProduct (c.operand a) (c.operand b))
      [product (c.operand a) (c.operand b), c.operand d])
/-- FDOT2: two products of halves, BF16 under f0 and FP16 under f1, and an FP32 addend (R249). -/
def Fdot2Is (i : Iss) (op : Op) (l : Nat) : LaneOut → Prop :=
  let c := if op.o.f.toNat = 0 then codesBf else codes16
  let a := fun h => c.part (i.a op l) h
  let b := fun h => c.part (i.bv op l) h
  let d := codes32.part (i.c op l) 0
  Whole (codes32.SumGives op.o.rm.toNat ((∃ h < 2, c.isSig (a h) = true ∨ c.isSig (b h) = true ∨ BadProduct (c.operand (a h)) (c.operand (b h))) ∨
      codes32.isSig d = true) [product (c.operand (a 0)) (c.operand (b 0)), product (c.operand (a 1)) (c.operand (b 1)), codes32.operand d])
/-- FDIV: 0/0 and infinity over infinity are invalid; a finite number other than zero over zero is an infinity with DZ (R249, 06 R155). -/
def FdivIs (i : Iss) (op : Op) (l : Nat) : LaneOut → Prop :=
  let a := (i.a op l).toNat
  let b := (i.bv op l).toNat
  let v := codes32.operand a
  let w := codes32.operand b
  let s := v.sign != w.sign
  Whole (fun r =>
    (codes32.isSig a = true ∨ codes32.isSig b = true → r = (codes32.nan, fNV)) ∧
    (codes32.isSig a = false → codes32.isSig b = false → (v = .nan ∨ w = .nan → r = (codes32.nan, 0)) ∧
      (∀ p q, v = .inf p → w = .inf q → r = (codes32.nan, fNV)) ∧
      (∀ p q y, v = .inf p → w = .num q y → r = (codes32.withSign s codes32.inf, 0)) ∧
      (∀ p x q, v = .num p x → w = .inf q → r = (codes32.withSign s 0, 0)) ∧
      ∀ p x q y, v = .num p x → w = .num q y → (x = 0 → y = 0 → r = (codes32.nan, fNV)) ∧
        (x ≠ 0 → y = 0 → r = (codes32.withSign s codes32.inf, fDZ)) ∧ (x = 0 → y ≠ 0 → r = (codes32.withSign s 0, 0)) ∧
        (x ≠ 0 → y ≠ 0 → codes32.Delivers op.o.rm.toNat (x / y) r)))
/-- FSQRT: of -0 it is -0; of another negative number, invalid (R249). -/
def FsqrtIs (i : Iss) (op : Op) (l : Nat) : LaneOut → Prop :=
  let a := (i.a op l).toNat
  let v := codes32.operand a
  Whole (fun r =>
    (v = .nan → r = (codes32.nan, if codes32.isSig a then fNV else 0)) ∧ (v = .inf true → r = (codes32.nan, fNV)) ∧
    (v = .inf false → r = (codes32.inf, 0)) ∧
    ∀ s x, v = .num s x → (x = 0 → r = (a, 0)) ∧ (x < 0 → r = (codes32.nan, fNV)) ∧ (0 < x → codes32.Delivers op.o.rm.toNat (Real.sqrt x) r))
/-- FRND: an integral value, with the operand's sign (R249). -/
def FrndIs (i : Iss) (op : Op) (l : Nat) : LaneOut → Prop :=
  let a := (i.a op l).toNat
  let v := codes32.operand a
  Whole (fun r =>
    (v = .nan → r = (codes32.nan, if codes32.isSig a then fNV else 0)) ∧ (∀ s, v = .inf s → r = (a, 0)) ∧
    ∀ s x, v = .num s x → codes32.real r.1 = roundedInt op.o.rm.toNat x ∧ codes32.low r.1 < codes32.inf ∧ r.1 < 2 ^ 32 ∧ codes32.neg r.1 = s ∧
      r.2 = if (roundedInt op.o.rm.toNat x : ℝ) ≠ x then fNX else 0)
/-- FSCALE: a times 2 to the signed b (R249). -/
def FscaleIs (i : Iss) (op : Op) (l : Nat) : LaneOut → Prop :=
  let a := (i.a op l).toNat
  let v := codes32.operand a
  Whole (fun r =>
    (v = .nan → r = (codes32.nan, if codes32.isSig a then fNV else 0)) ∧ (∀ s, v = .inf s → r = (a, 0)) ∧
    ∀ s x, v = .num s x → (x = 0 → r = (a, 0)) ∧ (x ≠ 0 → codes32.Delivers op.o.rm.toNat (x * pow2 (i.bv op l).toInt) r))

/-- Whenever `op` issues, its executing lanes have results that satisfy `P`, and with no enabled flag raised `ex` answers a next state in which it
has completed with them. -/
def Rounds (ex : State → Out) (op : Op) (P : Iss → Op → Nat → LaneOut → Prop) : Prop :=
  ∀ s j s1, Issues op [] s j s1 → ∃ f, (∀ l ∈ j.lanes, P j op l (f l)) ∧ (NoFpTrap j f → ∃ t, ex s = .next t ∧ LanesDone op j f s1 t)

/-! ### Conversions (06 R158 to R166, 11 R250 to R253) -/

/-- FP32 to a format: its own infinities (or none), NaN, and answer to overflow; `top` is the code of its largest finite value (R158). -/
structure Target where
  c : Codes
  top : Nat
  /-- What a NaN becomes, its flags from whether it signals; what an infinity becomes without .sat; what an overflow becomes without .sat. -/
  nan : Bool → Res
  inf : Bool → Res
  beyond : Nat → ℝ → Res → Prop

/-- A target with infinities (R158). -/
def ieeeTarget (c : Codes) : Target :=
  { c := c, top := c.inf - 1, nan := fun g => (c.nan, if g then fNV else 0), inf := fun s => (c.withSign s c.inf, 0), beyond := fun rm x r => c.Delivers rm x r }
/-- E4M3: NaN where an infinity would be delivered (R158). -/
def e4Target : Target :=
  { c := codesE4, top := 0x7E, nan := fun g => (0x7F, if g then fNV else 0), inf := fun _ => (0x7F, fNV),
    beyond := fun rm x r => r.2 = fOF ||| fNX ∧ (goesInf rm x → r.1 = 0x7F) ∧
      (¬ goesInf rm x → ∃ s, (s = true ↔ x < 0) ∧ r.1 = codesE4.withSign s 0x7E) }
/-- `r` is an FP32 code converted (R158). -/
def Target.Converts (k : Target) (rm : Nat) (sat : Bool) (a : Nat) (r : Res) : Prop :=
  let v := codes32.operand a
  (v = .nan → r = k.nan (codes32.isSig a)) ∧
  (∀ s, v = .inf s → r = if sat then (k.c.withSign s k.top, fSAT) else k.inf s) ∧
  ∀ s x, v = .num s x → (x = 0 → r = (k.c.withSign s 0, 0)) ∧
    (x ≠ 0 → |k.c.wide rm x| ≤ k.c.real k.top → k.c.low r.1 ≤ k.top ∧ k.c.Holds rm x r) ∧
    (x ≠ 0 → k.c.real k.top < |k.c.wide rm x| → (sat = true → r = (k.c.withSign s k.top, fSAT ||| fNX)) ∧ (sat = false → k.beyond rm x r))
/-- E2M1 clamps in both forms, and has no NaN (R158). -/
def ConvertsE2 (rm : Nat) (a : Nat) (r : Res) : Prop :=
  { c := codesE2, top := 7, nan := fun _ => (0, fNV), inf := fun _ => (0, 0), beyond := fun _ _ _ => True : Target }.Converts rm true a r

/-- An integer as FP32 (R159). -/
def FromInt (rm : Nat) (x : Int) (r : Res) : Prop := (x = 0 → r = (0, 0)) ∧ (x ≠ 0 → codes32.Delivers rm x r)
/-- FP32 as an integer of a range (R159). -/
def ToInt (rm : Nat) (lo hi : Int) (a : Nat) (out : LaneOut) : Prop :=
  let v := codes32.operand a
  (v = .nan → out = .flagged 0 fNV) ∧ (∀ s, v = .inf s → out = .flagged (BitVec.ofInt 32 (if s then lo else hi)) (fNV ||| fSAT)) ∧
  ∀ s x, v = .num s x → let n := roundedInt rm x
    (n < lo → out = .flagged (BitVec.ofInt 32 lo) (fNV ||| fSAT)) ∧ (hi < n → out = .flagged (BitVec.ofInt 32 hi) (fNV ||| fSAT)) ∧
    (lo ≤ n → n ≤ hi → out = .flagged (BitVec.ofInt 32 n) (if (n : ℝ) ≠ x then fNX else 0))
/-- FP32 as S24, which has no sign (R162). -/
def ToS24 (rm : Nat) (a : Nat) (r : Res) : Prop :=
  let v := codes32.operand a
  ((v = .nan ∨ (∃ s, v = .inf s) ∨ v.value < 0) → r = (0xFFFFFF, fNV)) ∧
  ∀ s x, v = .num s x → (x = 0 → r = (0, 0)) ∧
    (0 < x → codesS24.real 0xFEFFFF < codesS24.wide rm x → r = (0xFEFFFF, fOF ||| fNX ||| fSAT)) ∧
    (0 < x → codesS24.wide rm x ≤ codesS24.real 0xFEFFFF → codesS24.Holds rm x r)
/-- FP32 as E8M0: the exponent of the power of two that the magnitude rounds to (R160). -/
def ToE8m0 (rm : Nat) (sat : Bool) (a : Nat) (r : Res) : Prop :=
  let v := codes32.operand a
  (v = .nan → r = (0xFF, if codes32.isSig a then fNV else 0)) ∧ (∀ s, v = .inf s → r = (0xFF, fNV)) ∧
  ∀ s x, v = .num s x → (x = 0 → r = (0, fUF ||| fNX)) ∧
    (x ≠ 0 → ∀ k m, k = Int.log 2 |x| → m = |x| / pow2 k →
      ∀ p, ((rm = 0 ∧ 3 / 2 ≤ m) ∨ (rm = 3 ∧ m ≠ 1) → p = k + 1) → (¬ ((rm = 0 ∧ 3 / 2 ≤ m) ∨ (rm = 3 ∧ m ≠ 1)) → p = k) →
        (127 < p → r = if sat then (0xFE, fSAT ||| fNX) else (0xFF, fOF ||| fNX)) ∧ (p < -127 → r = (0, fUF ||| fNX)) ∧
        (-127 ≤ p → p ≤ 127 → r = ((p + 127).toNat, if m ≠ 1 then fNX else 0)))
/-- CVT's forms that round (R250). -/
def CvtIs (i : Iss) (op : Op) (l : Nat) (out : LaneOut) : Prop :=
  let a := (i.a op l).toNat
  let rm := op.o.rm.toNat
  let sat : Bool := op.o.sc.toNat = 1
  let pair := fun (c : Codes) => ∃ lo hi, (ieeeTarget c).Converts rm sat a lo ∧ (ieeeTarget c).Converts rm sat (i.bv op l).toNat hi ∧
    out = .flagged (BitVec.ofNat 32 (hi.1 * 65536 + lo.1)) (lo.2 ||| hi.2)
  match op.o.f.toNat with
  | 0 => Whole (FromInt rm (i.a op l).toInt) out
  | 1 => Whole (FromInt rm a) out
  | 2 => ToInt rm (-2 ^ 31) (2 ^ 31 - 1) a out
  | 3 => ToInt rm 0 (2 ^ 32 - 1) a out
  | 5 => Whole ((ieeeTarget codesBf).Converts rm sat a) out
  | 7 => Whole ((ieeeTarget codes16).Converts rm sat a) out
  | 9 => Whole (ToS24 rm a) out
  | 10 => pair codesBf
  | 11 => pair codes16
  | 13 => Whole (ToE8m0 rm sat a) out
  | _ => out = cvtSpec i op l
/-- A word packed from the elements of a lane's group of `n`, `w` bits each, 0 for lanes that do not execute; its flags are the lane's own
element's (R251). -/
def PacksGroup (i : Iss) (op : Op) (l n w : Nat) (P : Nat → Res → Prop) (out : LaneOut) : Prop :=
  ∃ (el : Nat → Res) (v : Word), (∀ k, P (i.a op k).toNat (el k)) ∧ out = .flagged v (el l).2 ∧
    ∀ j < n, v.toNat / 2 ^ (w * j) % 2 ^ w = if hasLane i.ex (l / n * n + j) then (el (l / n * n + j)).1 else 0
def Pack8Is (i : Iss) (op : Op) (l : Nat) : LaneOut → Prop :=
  PacksGroup i op l 4 8 ((if op.o.f.toNat = 0 then e4Target else ieeeTarget codesE5).Converts op.o.rm.toNat (op.o.sc.toNat = 1))
def Pack4Is (i : Iss) (op : Op) (l : Nat) : LaneOut → Prop := PacksGroup i op l 8 4 (ConvertsE2 op.o.rm.toNat)

/-- The executing lanes of a lane's group. -/
def groupLanes (i : Iss) (n l : Nat) : List Nat := i.lanes.filter (fun k => k / n = l / n)
/-- A lane's operand a is no number. -/
def NoNumber (i : Iss) (op : Op) (k : Nat) : Prop := codes32.isNan (i.a op k).toNat = true ∨ codes32.isInf (i.a op k).toNat = true
/-- The greatest of some numbers, none below 0. -/
noncomputable def greatest (xs : List ℝ) : ℝ := xs.foldr max 0
/-- The S24 code nearest a number, without flags (R166). -/
def NearestS24 (x : ℝ) (v : Nat) : Prop :=
  (x = 0 → v = 0) ∧ (x ≠ 0 → codesS24.real 0xFEFFFF < codesS24.wide 0 x → v = 0xFEFFFF) ∧
  (x ≠ 0 → codesS24.wide 0 x ≤ codesS24.real 0xFEFFFF → v < 2 ^ 24 ∧ codesS24.real v = codesS24.kept 0 x)
/-- BQSCAL: the greatest magnitude over 127, or the root of the greatest value over 255 (R166, R253). -/
def BqscalIs (i : Iss) (op : Op) (l : Nat) (out : LaneOut) : Prop :=
  let vs := (groupLanes i 64 l).map (fun k => codes32.real (i.a op k).toNat)
  let root := op.o.f.toNat ≠ 0
  ∃ v fl, out = .flagged (BitVec.ofNat 32 v) fl ∧ (fl = fNV ∨ fl = 0) ∧
    (fl = fNV ↔ NoNumber i op l ∨ (root ∧ codes32.real (i.a op l).toNat < 0)) ∧
    ((∃ k ∈ groupLanes i 64 l, NoNumber i op k) → v = 0xFFFFFF) ∧
    ((∀ k ∈ groupLanes i 64 l, ¬ NoNumber i op k) →
      (¬ root → NearestS24 (greatest (vs.map (fun x => |x|)) / 127) v) ∧ (root → NearestS24 (Real.sqrt (greatest vs) / 255) v))
/-- BQENC: the nearest code, clamped with SAT (R166, R253). -/
def BqencIs (i : Iss) (op : Op) (l : Nat) (out : LaneOut) : Prop :=
  let s := (i.bv op l).toNat % 2 ^ 24
  let x := codes32.real (i.a op l).toNat
  (s / 2 ^ 16 = 255 ∨ s = 0 → out = .word 0) ∧
  (s / 2 ^ 16 ≠ 255 → s ≠ 0 → (NoNumber i op l → out = .flagged 0 fNV) ∧
    (¬ NoNumber i op l → op.o.f.toNat = 2 → ∀ n, n = roundedInt 0 (x / codesS24.real s) →
      out = .flagged (BitVec.ofNat 32 (BitVec.ofInt 8 (max (-127) (min n 127))).toNat) (if 127 < |n| then fSAT else 0)) ∧
    (¬ NoNumber i op l → op.o.f.toNat ≠ 2 → (x < 0 → out = .flagged 0 fNV) ∧
      (0 ≤ x → ∀ n, n = roundedInt 0 (Real.sqrt x / codesS24.real s) →
        out = .flagged (BitVec.ofInt 32 (min n 255)) (if 255 < n then fSAT else 0))))
/-- Flags without UF and NX. -/
def noSmall (fl : BitVec 8) : BitVec 8 := fl &&& ~~~(fUF ||| fNX)
/-- BQDEC: code times scale rounded, and under .root that squared and rounded (R166, R253). -/
def BqdecIs (i : Iss) (op : Op) (l : Nat) (out : LaneOut) : Prop :=
  let s := (i.bv op l).toNat % 2 ^ 24
  let v : Nat := (i.a op l).toNat % 2 ^ 8
  let code : Int := if op.o.f.toNat = 5 ∨ v < 128 then (v : Int) else if v = 128 then -127 else (v : Int) - 256
  let x : ℝ := code * codesS24.real s
  (s / 2 ^ 16 = 255 → out = .flagged 0x7FC00000 fPSN) ∧
  (s / 2 ^ 16 ≠ 255 → x = 0 → out.fl = 0 ∧ out.val.toNat % 2 ^ 31 = 0) ∧
  (s / 2 ^ 16 ≠ 255 → x ≠ 0 → ∃ t, codes32.Delivers 0 x t ∧
    (op.o.f.toNat ≠ 5 → out = .flagged (BitVec.ofNat 32 t.1) (noSmall t.2)) ∧
    (op.o.f.toNat = 5 → (codes32.isInf t.1 = true → out = .flagged 0x7F800000 (noSmall t.2)) ∧
      (codes32.isInf t.1 = false → ∃ u, codes32.Delivers 0 (codes32.real t.1 * codes32.real t.1) u ∧
        out = .flagged (BitVec.ofNat 32 u.1) (noSmall (t.2 ||| u.2)))))
/-- MXSCAL: the exponent of the group's greatest magnitude against each format's, rounded up under .ru (R163, R252). -/
def MxscalIs (i : Iss) (op : Op) (l : Nat) (out : LaneOut) : Prop :=
  let m := greatest ((groupLanes i 32 l).map (fun k => |codes32.real (i.a op k).toNat|))
  let sc : Int → Int := fun emax => max 0 (min 254 ((if op.o.rm.toNat = 3 then Int.clog 2 m else Int.log 2 m) - emax + 127))
  ∃ fl, (fl = fNV ∨ fl = 0) ∧ (fl = fNV ↔ NoNumber i op l) ∧
    ((∃ k ∈ groupLanes i 32 l, NoNumber i op k) → out = .flagged 0xFFFFFF fl) ∧
    ((∀ k ∈ groupLanes i 32 l, ¬ NoNumber i op k) → (m = 0 → out = .flagged 0x7F7F7F fl) ∧
      (m ≠ 0 → out = .flagged (BitVec.ofInt 32 (sc 2 * 65536 + sc 15 * 256 + sc 8)) fl))

end Sys2Proof.Spec

/-- 11 R245, R249, 06 R153 to R155: the floating instructions that round deliver the exact real result rounded once under their mode: FADD, FSUB,
FMUL and FFMA of each type, FDIV, FSQRT, FRND, FSCALE and FDOT2, with their NaNs, infinities, zeros and flags. -/
def Obligations.RoundedArithmetic : Prop :=
  (∀ o, Rounds (exec (.faddC16 o)) (opC 10 o) FaddIs) ∧ (∀ o, Rounds (exec (.faddW32 o)) (opW 0x20 o) FaddIs) ∧
  (∀ o, Rounds (exec (.faddL64 o)) (opL 0x20 o) FaddIs) ∧
  (∀ o, Rounds (exec (.fsubC16 o)) (opC 11 o) FsubIs) ∧ (∀ o, Rounds (exec (.fsubW32 o)) (opW 0x21 o) FsubIs) ∧
  (∀ o, Rounds (exec (.fsubL64 o)) (opL 0x21 o) FsubIs) ∧
  (∀ o, Rounds (exec (.fmulC16 o)) (opC 12 o) FmulIs) ∧ (∀ o, Rounds (exec (.fmulW32 o)) (opW 0x22 o) FmulIs) ∧
  (∀ o, Rounds (exec (.fmulL64 o)) (opL 0x22 o) FmulIs) ∧ (∀ o, Rounds (exec (.ffma o)) (opL 0x23 o) FfmaIs) ∧
  (∀ o, Rounds (exec (.fdivW32 o)) (opW 0x27 o) FdivIs) ∧ (∀ o, Rounds (exec (.fdivL64 o)) (opL 0x27 o) FdivIs) ∧
  (∀ o, Rounds (exec (.fsqrtW32 o)) (opW 0x28 o) FsqrtIs) ∧ (∀ o, Rounds (exec (.fsqrtL64 o)) (opL 0x28 o) FsqrtIs) ∧
  (∀ o, Rounds (exec (.frndW32 o)) (opW 0x2A o) FrndIs) ∧ (∀ o, Rounds (exec (.frndL64 o)) (opL 0x2A o) FrndIs) ∧
  (∀ o, Rounds (exec (.fscaleW32 o)) (opW 0x2B o) FscaleIs) ∧ (∀ o, Rounds (exec (.fscaleL64 o)) (opL 0x2B o) FscaleIs) ∧
  (∀ o, Rounds (exec (.fdot2 o)) (opL 0x2C o) Fdot2Is)

/-- 11 R250 to R253, 06 R158 to R166: the conversions that round deliver the exact real value rounded once under their mode to the destination,
with its limits: CVT's, PACK8, PACK4, and the scales and codes of BQ8 and MX. The sign of a BQ8 code times a zero scale is not stated. -/
def Obligations.RoundedConversions : Prop :=
  (∀ o, Rounds (exec (.cvtW32 o)) (opW 0x40 o) CvtIs) ∧ (∀ o, Rounds (exec (.cvtL64 o)) (opL 0x40 o) CvtIs) ∧
  (∀ o, Rounds (exec (.pack8W32 o)) (opW 0x41 o) Pack8Is) ∧ (∀ o, Rounds (exec (.pack8L64 o)) (opL 0x41 o) Pack8Is) ∧
  (∀ o, Rounds (exec (.pack4W32 o)) (opW 0x42 o) Pack4Is) ∧ (∀ o, Rounds (exec (.pack4L64 o)) (opL 0x42 o) Pack4Is) ∧
  (∀ o, Rounds (exec (.bqscalW32 o)) (opW 0x43 o) BqscalIs) ∧ (∀ o, Rounds (exec (.bqscalL64 o)) (opL 0x43 o) BqscalIs) ∧
  (∀ o, Rounds (exec (.bqencW32 o)) (opW 0x43 o) BqencIs) ∧ (∀ o, Rounds (exec (.bqencL64 o)) (opL 0x43 o) BqencIs) ∧
  (∀ o, Rounds (exec (.bqdecW32 o)) (opW 0x43 o) BqdecIs) ∧ (∀ o, Rounds (exec (.bqdecL64 o)) (opL 0x43 o) BqdecIs) ∧
  (∀ o, Rounds (exec (.mxscalW32 o)) (opW 0x44 o) MxscalIs) ∧ (∀ o, Rounds (exec (.mxscalL64 o)) (opL 0x44 o) MxscalIs)

/-- Every form of the floating instructions of 11 R245 to R249 completes in each executing lane and changes nothing else: the minima and
maxima, FCMP, FABS, FNEG, FCPYS and FCLASS (R246 to R248, and R249's classes) with the value and the flags that the rules state bit by bit,
the forms that round with what the model computes, which RoundedArithmetic states against the exact real result. -/
def Obligations.FloatArithmetic : Prop :=
  (∀ o, Computes (exec (.faddC16 o)) (opC 10 o) laneFadd) ∧
  (∀ o, Computes (exec (.faddW32 o)) (opW 0x20 o) laneFadd) ∧
  (∀ o, Computes (exec (.faddL64 o)) (opL 0x20 o) laneFadd) ∧
  (∀ o, Computes (exec (.fsubC16 o)) (opC 11 o) laneFsub) ∧
  (∀ o, Computes (exec (.fsubW32 o)) (opW 0x21 o) laneFsub) ∧
  (∀ o, Computes (exec (.fsubL64 o)) (opL 0x21 o) laneFsub) ∧
  (∀ o, Computes (exec (.fmulC16 o)) (opC 12 o) laneFmul) ∧
  (∀ o, Computes (exec (.fmulW32 o)) (opW 0x22 o) laneFmul) ∧
  (∀ o, Computes (exec (.fmulL64 o)) (opL 0x22 o) laneFmul) ∧
  (∀ o, Computes (exec (.ffma o)) (opL 0x23 o) laneFfma) ∧
  (∀ o, Computes (exec (.fminC16 o)) (opC 14 o) (minMaxSpec false false)) ∧
  (∀ o, Computes (exec (.fminW32 o)) (opW 0x24 o) (minMaxSpec false false)) ∧
  (∀ o, Computes (exec (.fminL64 o)) (opL 0x24 o) (minMaxSpec false false)) ∧
  (∀ o, Computes (exec (.fmaxC16 o)) (opC 13 o) (minMaxSpec true false)) ∧
  (∀ o, Computes (exec (.fmaxW32 o)) (opW 0x24 o) (minMaxSpec true false)) ∧
  (∀ o, Computes (exec (.fmaxL64 o)) (opL 0x24 o) (minMaxSpec true false)) ∧
  (∀ o, Computes (exec (.fminpW32 o)) (opW 0x24 o) (minMaxSpec false true)) ∧
  (∀ o, Computes (exec (.fminpL64 o)) (opL 0x24 o) (minMaxSpec false true)) ∧
  (∀ o, Computes (exec (.fmaxpW32 o)) (opW 0x24 o) (minMaxSpec true true)) ∧
  (∀ o, Computes (exec (.fmaxpL64 o)) (opL 0x24 o) (minMaxSpec true true)) ∧
  (∀ o, Computes (exec (.fcmpW32 o)) (opW 0x25 o) fcmpSpec) ∧
  (∀ o, Computes (exec (.fcmpL64 o)) (opL 0x25 o) fcmpSpec) ∧
  (∀ o, Computes (exec (.fabsW32 o)) (opW 0x26 o) fabsSpec) ∧
  (∀ o, Computes (exec (.fabsL64 o)) (opL 0x26 o) fabsSpec) ∧
  (∀ o, Computes (exec (.fnegW32 o)) (opW 0x26 o) fnegSpec) ∧
  (∀ o, Computes (exec (.fnegL64 o)) (opL 0x26 o) fnegSpec) ∧
  (∀ o, Computes (exec (.fcpysW32 o)) (opW 0x26 o) fcpysSpec) ∧
  (∀ o, Computes (exec (.fcpysL64 o)) (opL 0x26 o) fcpysSpec) ∧
  (∀ o, Computes (exec (.fdivW32 o)) (opW 0x27 o) laneFdiv) ∧
  (∀ o, Computes (exec (.fdivL64 o)) (opL 0x27 o) laneFdiv) ∧
  (∀ o, Computes (exec (.fsqrtW32 o)) (opW 0x28 o) laneFsqrt) ∧
  (∀ o, Computes (exec (.fsqrtL64 o)) (opL 0x28 o) laneFsqrt) ∧
  (∀ o, Computes (exec (.fclassW32 o)) (opW 0x29 o) fclassSpec) ∧
  (∀ o, Computes (exec (.fclassL64 o)) (opL 0x29 o) fclassSpec) ∧
  (∀ o, Computes (exec (.frndW32 o)) (opW 0x2A o) laneFrnd) ∧
  (∀ o, Computes (exec (.frndL64 o)) (opL 0x2A o) laneFrnd) ∧
  (∀ o, Computes (exec (.fscaleW32 o)) (opW 0x2B o) laneFscale) ∧
  (∀ o, Computes (exec (.fscaleL64 o)) (opL 0x2B o) laneFscale) ∧
  (∀ o, Computes (exec (.fdot2 o)) (opL 0x2C o) laneFdot2)

/-- Every form of the conversions and packings of 11 R250 to R254 completes in each executing lane and changes nothing else: the exact
conversions of CVT (R250), UNPK8 and UNPK4 (R251) with the code and the flags that the rules state bit by bit, the others with what the
model computes, which RoundedConversions states against the exact real value. -/
def Obligations.Conversions : Prop :=
  (∀ o, Computes (exec (.cvtW32 o)) (opW 0x40 o) cvtSpec) ∧
  (∀ o, Computes (exec (.cvtL64 o)) (opL 0x40 o) cvtSpec) ∧
  (∀ o, Computes (exec (.pack8W32 o)) (opW 0x41 o) lanePack8) ∧
  (∀ o, Computes (exec (.pack8L64 o)) (opL 0x41 o) lanePack8) ∧
  (∀ o, Computes (exec (.unpk8W32 o)) (opW 0x41 o) unpk8Spec) ∧
  (∀ o, Computes (exec (.unpk8L64 o)) (opL 0x41 o) unpk8Spec) ∧
  (∀ o, Computes (exec (.pack4W32 o)) (opW 0x42 o) lanePack4) ∧
  (∀ o, Computes (exec (.pack4L64 o)) (opL 0x42 o) lanePack4) ∧
  (∀ o, Computes (exec (.unpk4W32 o)) (opW 0x42 o) unpk4Spec) ∧
  (∀ o, Computes (exec (.unpk4L64 o)) (opL 0x42 o) unpk4Spec) ∧
  (∀ o, Computes (exec (.bqscalW32 o)) (opW 0x43 o) laneBqscal) ∧
  (∀ o, Computes (exec (.bqscalL64 o)) (opL 0x43 o) laneBqscal) ∧
  (∀ o, Computes (exec (.bqencW32 o)) (opW 0x43 o) laneBqenc) ∧
  (∀ o, Computes (exec (.bqencL64 o)) (opL 0x43 o) laneBqenc) ∧
  (∀ o, Computes (exec (.bqdecW32 o)) (opW 0x43 o) laneBqdec) ∧
  (∀ o, Computes (exec (.bqdecL64 o)) (opL 0x43 o) laneBqdec) ∧
  (∀ o, Computes (exec (.mxscalW32 o)) (opW 0x44 o) laneMxscal) ∧
  (∀ o, Computes (exec (.mxscalL64 o)) (opL 0x44 o) laneMxscal)

/-- Every form of the special functions of 11 R255 to R257 completes in each executing lane and changes nothing else: RNG (R256) and CLMUL
(R257) with the bits that the rules state, the functions of R255 with what the model computes. -/
def Obligations.SpecialFunctions : Prop :=
  (∀ o, Computes (exec (.rcpW32 o)) (opW 0xC0 o) laneRcp) ∧
  (∀ o, Computes (exec (.rcpL64 o)) (opL 0xC0 o) laneRcp) ∧
  (∀ o, Computes (exec (.rsqW32 o)) (opW 0xC0 o) laneRsq) ∧
  (∀ o, Computes (exec (.rsqL64 o)) (opL 0xC0 o) laneRsq) ∧
  (∀ o, Computes (exec (.ex2W32 o)) (opW 0xC0 o) laneEx2) ∧
  (∀ o, Computes (exec (.ex2L64 o)) (opL 0xC0 o) laneEx2) ∧
  (∀ o, Computes (exec (.lg2W32 o)) (opW 0xC0 o) laneLg2) ∧
  (∀ o, Computes (exec (.lg2L64 o)) (opL 0xC0 o) laneLg2) ∧
  (∀ o, Computes (exec (.sinW32 o)) (opW 0xC0 o) laneSin) ∧
  (∀ o, Computes (exec (.sinL64 o)) (opL 0xC0 o) laneSin) ∧
  (∀ o, Computes (exec (.cosW32 o)) (opW 0xC0 o) laneCos) ∧
  (∀ o, Computes (exec (.cosL64 o)) (opL 0xC0 o) laneCos) ∧
  (∀ o, Computes (exec (.tanhW32 o)) (opW 0xC0 o) laneTanh) ∧
  (∀ o, Computes (exec (.tanhL64 o)) (opL 0xC0 o) laneTanh) ∧
  (∀ o, Computes (exec (.sgmdW32 o)) (opW 0xC0 o) laneSgmd) ∧
  (∀ o, Computes (exec (.sgmdL64 o)) (opL 0xC0 o) laneSgmd) ∧
  (∀ o, Computes (exec (.rngW32 o)) (opW 0xC1 o) rngSpec) ∧
  (∀ o, Computes (exec (.rngL64 o)) (opL 0xC1 o) rngSpec) ∧
  (∀ o, Computes (exec (.clmulW32 o)) (opW 0xC2 o) clmulSpec) ∧
  (∀ o, Computes (exec (.clmulL64 o)) (opL 0xC2 o) clmulSpec)


/-! ## Values of the cross-lane instructions as 12 R258 to R266 state them -/

namespace Sys2Proof.Spec

/-- What an executing lane receives from a source lane: its value if it executes; 0 otherwise, with PSN where it exists and is dead (R258,
R259). -/
def received (i : Iss) (src : Option Nat) (v : Nat → Word) : LaneOut :=
  match src with
  | none => .word 0
  | some q =>
    if q < i.m.width ∧ i.ex.getLsbD q then .word (v q)
    else .flagged 0 (if q < i.m.width ∧ i.m.dead.getLsbD q then fPSN else 0)
/-- The source of SHFL: the group's base and the position that the mode reads (R260). -/
def shflSource (f g l : Nat) (n : Word) : Option Nat :=
  let base := l - l % g
  match f with
  | 0 => some (base + n.toNat % g)
  | 1 => some (base + (l % g + n.toNat) % g)
  | 2 => if 0 ≤ ((l % g : Nat) : Int) + n.toInt ∧ ((l % g : Nat) : Int) + n.toInt < g then some (base + (((l % g : Nat) : Int) + n.toInt).toNat) else none
  | _ => some (base + ((l % g) ^^^ (n.toNat % g)))
def shflSpec (i : Iss) (op : Op) (l : Nat) : LaneOut :=
  received i (shflSource op.o.f.toNat (32 * 2 ^ op.o.rm.toNat) l (i.bv op l)) (i.a op)
def bcastSpec (i : Iss) (op : Op) (l : Nat) : LaneOut := received i (some (i.bv op l).toNat) (i.a op)
def voteSpec (i : Iss) (op : Op) (l : Nat) : LaneOut :=
  match op.o.f.toNat with
  | 0 => oneIf (∃ q ∈ i.lanes, (i.a op q).getLsbD 0)
  | 1 => oneIf (∀ q ∈ i.lanes, (i.a op q).getLsbD 0)
  | 2 => oneIf (∀ q ∈ i.lanes, ∀ r ∈ i.lanes, i.a op q = i.a op r)
  | 3 => .word (wordOfBits (fun k => i.lanes.contains (32 * (l / 32) + k) && (i.a op (32 * (l / 32) + k)).getLsbD 0))
  | _ => .word (BitVec.ofNat 32 (i.lanes.countP (fun q => (i.a op q).getLsbD 0)))
/-- REDUX (R262): the integer forms over the executing lanes; the floating forms over the fixed tree (06 R169) as the model builds it. -/
def reduxSpec (i : Iss) (op : Op) (l : Nat) : LaneOut :=
  match op.o.f.toNat with
  | 0 => .word (BitVec.ofNat 32 (i.lanes.map (fun q => (i.a op q).toNat)).sum)
  | 1 => .word (BitVec.ofInt 32 ((i.lanes.map (fun q => (i.a op q).toInt)).foldl min (2 ^ 31 - 1)))
  | 2 => .word (BitVec.ofInt 32 ((i.lanes.map (fun q => (i.a op q).toInt)).foldl max (-2 ^ 31)))
  | 3 => .word (wordOfBits (fun k => i.lanes.all (fun q => (i.a op q).getLsbD k)))
  | 4 => .word (wordOfBits (fun k => i.lanes.any (fun q => (i.a op q).getLsbD k)))
  | 5 => .word (wordOfBits (fun k => i.lanes.countP (fun q => (i.a op q).getLsbD k) % 2 = 1))
  | _ => laneRedux i op l
/-- SCAN (R263): the integer forms over the executing lanes; the floating forms as the model builds them from 06 R170. -/
def scanSpec (i : Iss) (op : Op) (l : Nat) : LaneOut :=
  match op.o.f.toNat with
  | 0 => .word (BitVec.ofNat 32 ((i.lanes.filter (fun q => q ≤ l)).map (fun q => (i.a op q).toNat)).sum)
  | 1 => .word (BitVec.ofNat 32 ((i.lanes.filter (fun q => q < l)).map (fun q => (i.a op q).toNat)).sum)
  | _ => laneScan i op l
def actSpec (_i : Iss) (_op : Op) (_l : Nat) : LaneOut := .word 1
def maskwSpec (i : Iss) (op : Op) (l : Nat) : LaneOut :=
  let j := (i.av op l).toNat
  .word (if j < i.m.width / 32 then wordOfBits (fun k => i.p.mask.getLsbD (32 * j + k)) else 0)
/-- The count that a half is read of: the count of this split's read of the other half, where that is its last, else the core's (R266's
'read together'; which two reads pair is the model's choice, log 114). -/
def countRead (s : State) (i : Iss) (sel : Nat) : Nat :=
  match i.p.cyc with
  | some (half, n) => if half = sel then n else s.now
  | none => s.now
/-- The selectors of GETS (R266). -/
def getsSpec (s : State) (i : Iss) (op : Op) (l : Nat) : LaneOut :=
  let r := i.l.lr
  .word (match op.o.b.toNat with
  | 0 => BitVec.ofNat 32 l
  | 1 => BitVec.ofNat 32 i.t
  | 2 => BitVec.ofNat 32 r.width
  | 3 => BitVec.ofNat 32 (i.k.teams.countP (fun c => c.1 < 16 && c.2.st ≠ .ended))
  | 4 => BitVec.ofNat 32 (i.k.lin % r.gridx)
  | 5 => BitVec.ofNat 32 (i.k.lin / r.gridx % r.gridy)
  | 6 => BitVec.ofNat 32 (i.k.lin / (r.gridx * r.gridy))
  | 7 => BitVec.ofNat 32 i.k.lin
  | 8 => BitVec.ofNat 32 (i.k.lin / 2 ^ 32)
  | 9 => BitVec.ofNat 32 i.k.pos
  | 10 => r.param.extractLsb' 0 32
  | 11 => r.param.extractLsb' 32 32
  | 12 => BitVec.ofNat 32 i.k.core
  | 13 => BitVec.ofNat 32 (i.k.core / Config.coresPerCluster)
  | 14 => BitVec.ofNat 32 i.k.spgen
  | 15 => BitVec.ofNat 32 i.k.spbase
  | 16 => wordOfBits (fun k => i.m.ex.getLsbD (32 * (l / 32) + k))
  | 17 => wordOfBits (fun k => i.m.dead.getLsbD (32 * (l / 32) + k))
  | 18 => wordOfBits (fun j => (List.range 32).any (fun k => i.m.dead.getLsbD (32 * j + k)))
  | 19 => BitVec.ofNat 32 i.e
  | 20 => BitVec.ofNat 32 (countRead s i 20)
  | _ => BitVec.ofNat 32 (countRead s i 21 / 2 ^ 32))
/-- GETS completes with the values of its selector; it raises nothing, so nothing can trap. A first half read leaves its count for the
other (log 114). -/
def GetsDone (ex : State → Out) (op : Op) : Prop :=
  ∀ s j s1, Issues op [] s j s1 → ∃ t, ex s = .next t ∧ LanesDone op j (getsSpec s j op) s1 t ∧
    ∀ sel, op.o.b.toNat = sel → sel = 20 ∨ sel = 21 → (∀ n, j.p.cyc ≠ some (sel, n)) →
      ∃ m p, teamOf t j.b j.t = some m ∧ Tbl.get m.splits j.e = some p ∧ p.cyc = some (41 - sel, s.now)

end Sys2Proof.Spec

/-- 12 R260, R261, R264, R265, R266 with R258 and R259: every form of SHFL, VOTE, BCAST, ACT, MASKW and GETS completes with the values the
rules state in each executing lane, and changes nothing else; that the two halves of GETS CYC are of one count is log 114's reading. -/
def Obligations.CrossLane : Prop :=
  (∀ o, Computes (exec (.shflW32 o)) (opW 0x50 o) shflSpec) ∧ (∀ o, Computes (exec (.shflL64 o)) (opL 0x50 o) shflSpec) ∧
  (∀ o, Computes (exec (.voteW32 o)) (opW 0x51 o) voteSpec) ∧ (∀ o, Computes (exec (.voteL64 o)) (opL 0x51 o) voteSpec) ∧
  (∀ o, Computes (exec (.actW32 o)) (opW 0x55 o) actSpec) ∧ (∀ o, Computes (exec (.actL64 o)) (opL 0x55 o) actSpec) ∧
  (∀ o, Computes (exec (.maskwW32 o)) (opW 0x56 o) maskwSpec) ∧ (∀ o, Computes (exec (.maskwL64 o)) (opL 0x56 o) maskwSpec) ∧
  (∀ o, Computes (exec (.bcastW32 o)) (opW 0x57 o) bcastSpec) ∧ (∀ o, Computes (exec (.bcastL64 o)) (opL 0x57 o) bcastSpec) ∧
  (∀ o, GetsDone (exec (.getsW32 o)) (opW 0x54 o)) ∧ (∀ o, GetsDone (exec (.getsL64 o)) (opL 0x54 o))

/-- 12 R262, R263: every form of REDUX and SCAN completes with one value over the executing lanes: sums modulo 2^32, signed minima and
maxima, bitwise AND, OR and XOR, and prefix sums, with the identities of R262 for lanes that do not execute; the floating forms are the
model's trees (06 R169, R170). -/
def Obligations.Reductions : Prop :=
  (∀ o, Computes (exec (.reduxW32 o)) (opW 0x52 o) reduxSpec) ∧ (∀ o, Computes (exec (.reduxL64 o)) (opL 0x52 o) reduxSpec) ∧
  (∀ o, Computes (exec (.scanW32 o)) (opW 0x53 o) scanSpec) ∧ (∀ o, Computes (exec (.scanL64 o)) (opL 0x53 o) scanSpec)

/-! ## Memory instructions as 12 R267 to R277 state them -/

namespace Sys2Proof.Spec

/-- The effective address: (w[a] + the literal, signed) mod 2^64 (R267). -/
def address (j : Iss) (op : Op) (l : Nat) : Nat :=
  ((((j.a64 op l).toNat : Int) + (op.o.lit.getD 0).toInt) % 2 ^ 64).toNat
/-- The accesses of `n` bytes that an instruction's lanes make, in ascending order, and where each address leads (03 R71). -/
def accesses (s : State) (j : Iss) (op : Op) (n : Nat) (load write : Bool) : List LaneAcc :=
  j.accs (address j op) (fun ea l => targetOf s j op.o.rm.toNat ea n l load write)
/-- Every address is a multiple of the size and leads somewhere (03 R74). -/
def AddressesPass (n : Nat) (qs : List LaneAcc) : Prop := ∀ q ∈ qs, q.ea % n = 0 ∧ q.tgt ≠ .barred
/-- `n` bytes at a place, little-endian, as the issuer's unit sees them (25 R472). -/
def bytesAt (s : State) (h : Shadow) (p : Phys) (n : Nat) : Nat :=
  ((List.range n).map (fun k => (readByte s h p k).toNat * 256 ^ k)).sum
/-- The bytes of a size minor of LD and LDV: .b8 .s8 .b16 .s16 .b32 .b64 .b128 (R269). -/
def loadSize (f : Nat) : Nat := [1, 1, 2, 2, 4, 8, 16].getD f 16
/-- What d receives: .s8 and .s16 sign-extended to 32 bits, the others zero-extended (R269). -/
def loadResult (f v : Nat) : BitVec 128 :=
  match f with
  | 1 => (BitVec.ofInt 32 (if 2 ^ 7 ≤ v then (v : Int) - 2 ^ 8 else v)).zeroExtend 128
  | 3 => (BitVec.ofInt 32 (if 2 ^ 15 ≤ v then (v : Int) - 2 ^ 16 else v)).zeroExtend 128
  | _ => BitVec.ofNat 128 v

/-- The signature records that an issuer holds, from lanes of its instruction done before (25 R474). -/
def heldRecs (j : Iss) : List (List Byte) := if j.l.lr.commit = 3 then (j.allRecs []).map (fun c => c.2) else []

/-- LD completes where every lane reaches its place, and under .fe finds its line full (R79): each lane's d is the bytes at its place, and
no byte of any memory changes. -/
def LoadDone (ex : State → Out) (op : Op) : Prop :=
  ∀ s j s1 s2 place, Issues op [] s j s1 →
    let n := loadSize op.o.f.toNat
    let qs := accesses s1 j op n true false
    AddressesPass n qs →
    LanesReach j.b n j.l.ctx j.failedPages needR (fun s _ p => op.o.b.toNat = 1 → lineFull s p = true) (fun s _ p => touch s p false) place s1 qs s2 →
    OnlyCaches s1 s2 ∧ ∃ t, ex s = .next t ∧
      LanesDone op j (fun l => { val := loadResult op.o.f.toNat (bytesAt s1 (j.view s1 op.o.rm.toNat) (place l) n), fl := 0 }) s2 t (heldRecs j)
/-- LDV completes where every page of every lane translates and no lane meets poison: every lane reads the same memory at once (R271). -/
def VersionedLoadDone (ex : State → Out) (op : Op) : Prop :=
  ∀ s j s1 s2 (place : Nat → Phys), Issues op [] s j s1 →
    let n := loadSize op.o.f.toNat
    let qs := j.accs (address j op) (fun ea l => targetOf s1 j 0 ea n l false false)
    AddressesPass n qs →
    AsksGo j.l.ctx j.failedPages s1 (qs.map (fun q => { lane := q.lane, tgt := q.tgt, need := needR })) s2 →
    (∀ q ∈ qs, placeOf s2 j.l.ctx q.tgt = some (place q.lane) ∧ poisoned s2 (shadowOf s2 j.b) (place q.lane) n = false) →
    ∃ s3 t, OnlyCaches s1 s3 ∧ ex s = .next t ∧
      LanesDone op j (fun l => { val := BitVec.ofNat 128 (bytesAt s1 (shadowOf s1 j.b) (place l) n), fl := 0 }) s3 t

/-- A place `k` bytes on. -/
def plus (p : Phys) (k : Nat) : Phys :=
  match p with
  | .cap pa => .cap (pa + k)
  | .sys pa => .sys (pa + k)
  | .spad a => .spad (a + k)
  | .chip a => .chip (a + k)
  | .tlmap x off => .tlmap x (off + k)
  | .sbmap x off => .sbmap x (off + k)
/-- The byte at a place, as the issuer's unit sees it. -/
def seen (s : State) (j : Iss) (space : Nat) (p : Phys) : Byte := readByte s (j.view s space) p 0
/-- Byte `p` lies in what lane `l` stores. -/
def Stores (data : Nat → Option Nat) (place : Nat → Phys) (n l k : Nat) (p : Phys) : Prop :=
  (data l).isSome = true ∧ k < n ∧ p = plus (place l) k
/-- What stores of `n` bytes by the lanes of an instruction leave of memory: a byte that no lane stores to reads as before, but for the
events of the ordering detector in the host's memory (25 R479); a byte stored to reads as the highest-numbered lane that stores to it
left it (03 R88). Under COMMIT other than 0, space 0 is the unit's shadow, and committed memory is unchanged (25 R472). -/
def StoredOnly (j : Iss) (space n : Nat) (data : Nat → Option Nat) (place : Nat → Phys) (s t : State) : Prop :=
  (∀ p, (∀ l ∈ j.lanes, ∀ k, ¬ Stores data place n l k p) → (j.l.lr.det = false ∨ ∀ a, p ≠ .sys a) → seen t j space p = seen s j space p) ∧
  (∀ l ∈ j.lanes, ∀ k p v, Stores data place n l k p → data l = some v → (j.l.lr.det = false ∨ ∀ a, p ≠ .sys a) →
    (∀ x a, p ≠ .tlmap x a ∧ p ≠ .sbmap x a) → (∀ q ∈ j.lanes, l < q → ∀ r, ¬ Stores data place n q r p) →
    seen t j space p = BitVec.ofNat 8 (v / 256 ^ k)) ∧
  (j.l.lr.commit ≠ 0 → space = 0 → t.mem = s.mem)
/-- What one lane's store does to the machine. -/
def storeAct (j : Iss) (op : Op) (n : Nat) (counted : Bool) (data : Nat → Option Nat) (s : State) (q : LaneAcc) (p : Phys) : State :=
  match data q.lane with
  | none => touch s p false
  | some v => writePhys s (j.writer op.o.rm.toNat counted) p (leBytes n v)
/-- A store's place has room in its unit's shadow (25 R472). -/
def hasRoom (j : Iss) (op : Op) (data : Nat → Option Nat) (s : State) (q : LaneAcc) (p : Phys) : Prop :=
  data q.lane ≠ none → storeRoom s (j.writer op.o.rm.toNat false) p = true
/-- The issuer's unit has its shadow: no kill has discarded the launch (24 R449), and under COMMIT 2 and 3 its gang stands (25 R472). -/
def HasUnit (j : Iss) : Prop := (j.l.lr.commit = 0 ∨ j.l.st ≠ .discarded) ∧ (j.l.lr.commit ≤ 1 ∨ gangOf j.l j.k ≠ none)
/-- The signature records that the stores of the lanes `ls` add to a unit under COMMIT 3, with those of lanes done before, in ascending
lane order (25 R474). -/
def storeRecs (j : Iss) (op : Op) (n : Nat) (data : Nat → Option Nat) (ls : List Nat) : List (List Byte) :=
  if j.l.lr.commit = 3 then
    (j.allRecs (ls.filterMap (fun l => (data l).map (fun v => (l, sigRecord (address j op l) (leBytes n v) op.o.rm.toNat))))).map (fun c => c.2)
  else []

/-- What a lane of ST stores: the low bytes of c, the word, the pair, the quad (R270). -/
def storeData (j : Iss) (op : Op) (l : Nat) : Nat :=
  match op.o.f.toNat with
  | 0 => (j.c op l).toNat % 2 ^ 8
  | 1 => (j.c op l).toNat % 2 ^ 16
  | 2 => (j.c op l).toNat
  | 3 => (j.c64 op l).toNat
  | _ => (j.src128 op.o.c l).toNat

/-- The new value of ATOM, none where nothing is written (R272); the floating sums are the model's. -/
def atomSpec (f : Nat) (old c c1 : Word) : Option Nat :=
  match f with
  | 0 => some ((old.toNat + c.toNat) % 2 ^ 32)
  | 1 => some (if old.toInt ≤ c.toInt then old.toNat else c.toNat)
  | 2 => some (if old.toInt ≤ c.toInt then c.toNat else old.toNat)
  | 3 => some (min old.toNat c.toNat)
  | 4 => some (max old.toNat c.toNat)
  | 5 => some (bitwise (fun x y => x && y) old c).toNat
  | 6 => some (bitwise (fun x y => x || y) old c).toNat
  | 7 => some (bitwise (fun x y => x != y) old c).toNat
  | 8 => some c.toNat
  | 9 => if old = c then some c1.toNat else none
  | 12 => some (if c.toNat ≤ old.toNat then 0 else old.toNat + 1)
  | 13 => some (if old.toNat = 0 ∨ c.toNat < old.toNat then c.toNat else old.toNat - 1)
  | _ => (atomNew f old c c1).map BitVec.toNat
/-- What a lane of ATOM writes over an old value: c is a pair under .cas (R272). -/
def atomData (j : Iss) (op : Op) (old : Nat → Nat) (l : Nat) : Option Nat :=
  if op.o.f.toNat = 9 then atomSpec 9 (BitVec.ofNat 32 (old l)) ((j.c64 op l).extractLsb' 0 32) ((j.c64 op l).extractLsb' 32 32)
  else atomSpec op.o.f.toNat (BitVec.ofNat 32 (old l)) (j.c op l) 0
/-- What a lane of ATOM64 writes over an old value: c is a quad under .cas (R273). -/
def atom64Data (j : Iss) (op : Op) (old : Nat → Nat) (l : Nat) : Option Nat :=
  match op.o.f.toNat with
  | 0 => some ((old l + (j.c64 op l).toNat) % 2 ^ 64)
  | 1 => some (j.c64 op l).toNat
  | 2 => if old l = (j.c64 op l).toNat then some ((j.src128 op.o.c l).extractLsb' 64 64).toNat else none
  | 3 => some (min (old l) (j.c64 op l).toNat)
  | _ => some (max (old l) (j.c64 op l).toNat)
/-- An atomic completes where every lane reaches its place, one lane after another in ascending order: each lane's d is the old value it
found, `old`, and its new value is stored over it (R272-R274, 03 R88). -/
def AtomicDone (ex : State → Out) (op : Op) (n : Nat) (counted : Bool) (data : Iss → (Nat → Nat) → Nat → Option Nat) : Prop :=
  ∀ s j s1 s2 place old, Issues op [] s j s1 → HasUnit j →
    let qs := accesses s1 j op n false true
    AddressesPass n qs →
    LanesReach j.b n j.l.ctx j.failedPages needRW
      (fun s q p => old q.lane = bytesAt s (shadowOf s j.b) p n ∧ hasRoom j op (data j old) s q p)
      (storeAct j op n counted (data j old)) place s1 qs s2 →
    StoredOnly j op.o.rm.toNat n (data j old) place s1 s2 ∧ ∃ t, ex s = .next t ∧
      LanesDone op j (fun l => { val := BitVec.ofNat 128 (old l), fl := 0 }) s2 t (storeRecs j op n (data j old) j.lanes)

end Sys2Proof.Spec

/-- 12 R267 to R269, R271: LD and LDV in every form, over every space. -/
def Obligations.Loads : Prop :=
  (∀ o, LoadDone (exec (.ldW32 o)) (opW 0x60 o)) ∧ (∀ o, LoadDone (exec (.ldL64 o)) (opL 0x60 o)) ∧
  (∀ o, VersionedLoadDone (exec (.ldvW32 o)) (opW 0x6D o)) ∧ (∀ o, VersionedLoadDone (exec (.ldvL64 o)) (opL 0x6D o))

/-- 12 R270 with 03 R88: ST completes where every lane reaches its place; memory changes in the bytes stored and nowhere else. -/
def Obligations.Stores : Prop :=
  ∀ o s j s1 s2 place, Issues (opL 0x61 o) [] s j s1 → HasUnit j →
    let n := 2 ^ o.f.toNat
    let data := fun l => some (storeData j (opL 0x61 o) l)
    let qs := accesses s1 j (opL 0x61 o) n false true
    AddressesPass n qs →
    LanesReach j.b 0 j.l.ctx j.failedPages needW (hasRoom j (opL 0x61 o) data) (storeAct j (opL 0x61 o) n true data) place s1 qs s2 →
    StoredOnly j o.rm.toNat n data place s1 s2 ∧ ∃ t, exec (.st o) s = .next t ∧
      Completed (opL 0x61 o) j noDest 0 s2 t (storeRecs j (opL 0x61 o) n data j.lanes)

/-- 12 R272 to R274: ATOM and ATOM64. -/
def Obligations.Atomics : Prop :=
  (∀ o, AtomicDone (exec (.atom o)) (opL 0x62 o) 4 (8 ≤ o.f.toNat) (fun j => atomData j (opL 0x62 o))) ∧
  (∀ o, AtomicDone (exec (.atom64 o)) (opL 0x63 o) 8 (o.f.toNat = 1 || o.f.toNat = 2) (fun j => atom64Data j (opL 0x63 o)))

namespace Sys2Proof.Spec

/-- The record of the first check of 03 R74 that a memory instruction's lanes fail: ALIGN for the lowest misaligned lane, else ACCESS for
the lowest lane whose address leads nowhere. -/
def firstAddressTrap (n : Nat) (qs : List LaneAcc) : Option TrapRec :=
  ((qs.filter (fun q => q.ea % n ≠ 0)).head?.map (fun q => { code := 0x06, val := BitVec.ofNat 64 q.ea })).orElse
    (fun _ => (qs.filter (fun q => q.tgt = .barred)).head?.map (fun q => { code := 0x08, val := BitVec.ofNat 64 q.ea }))
/-- A memory instruction whose lanes fail those checks when it issues traps, with no lane done. -/
def AddressTraps (ex : State → Out) (op : Op) (n : Nat) (qs : State → Iss → List LaneAcc) : Prop :=
  ∀ s j s1 r, Issues op [] s j s1 → j.passed = false → firstAddressTrap n (qs s1 j) = some r → Traps ex j r s1 s
/-- The lane of a list with the first trap of a series of checks, each made of every lane before the next: a test, the code of the trap, and
the value it records. -/
def firstOf (ls : List Nat) (cs : List ((Nat → Bool) × Nat × (Nat → DWord))) : Option TrapRec :=
  match cs with
  | [] => none
  | (bad, code, val) :: r => match (ls.filter bad).head? with
    | some l => some { code := code, val := val l }
    | none => firstOf ls r
/-- CPY32: the destination a multiple of 32, the source of 4, the 32 bytes of the destination in allocations, the source inside its space
(R313, 04 R111). -/
def CopyTraps (ex : State → Out) (op : Op) : Prop :=
  ∀ s j s1 r, Issues op [] s j s1 → j.passed = false →
    firstOf j.lanes [(fun l => (j.a op l).toNat % 32 ≠ 0, 0x06, fun l => (j.a op l).zeroExtend 64),
      (fun l => (j.b64 op l).toNat % 4 ≠ 0, 0x06, fun l => j.b64 op l),
      (fun l => !spadOk j.k (j.a op l).toNat 32, 0x08, fun l => (j.a op l).zeroExtend 64),
      (fun l => !cpySrcOk s1 j op l, 0x08, fun l => j.b64 op l)] = some r → Traps ex j r s1 s
/-- The scoreboard word that an address names for a context: of the map, of a collective context bound to it, below SBBITS (07 R182). -/
def boardWordOf (s : State) (x ea : Nat) : Option (Nat × Nat) :=
  let c := ctxOf s x
  let n := (ea - c.sbmap) / 512
  let w := (ea - c.sbmap) % 512 / 4
  if ea < 2 ^ 56 ∧ inSbmap c ea = true ∧ (ccOf s n).st ≠ .unbound ∧ (ccOf s n).ctx = x ∧ 32 * w < (ccOf s n).sbbits then some (n, w) else none
/-- TSET: ALIGN, then ACCESS for an address that names no word, then ARM where the context is halted by a fault, with the fault's reason, or
its round is aborted, with reason 6 (R326). -/
def BoardTraps (ex : State → Out) (op : Op) : Prop :=
  ∀ s j s1, Issues op [] s j s1 →
    (∀ r, firstOf j.lanes [(fun l => address j op l % 4 ≠ 0, 0x06, fun l => BitVec.ofNat 64 (address j op l)),
      (fun l => (boardWordOf s1 j.l.ctx (address j op l)).isNone, 0x08, fun l => BitVec.ofNat 64 (address j op l))] = some r →
      Traps ex j r s1 s) ∧
    ((∀ l ∈ j.lanes, address j op l % 4 = 0 ∧ boardWordOf s1 j.l.ctx (address j op l) ≠ none) →
      ∀ n w rest, (j.lanes.filterMap (fun l => boardWordOf s1 j.l.ctx (address j op l))).filter
          (fun q => (ccOf s1 q.1).st = .faulted || (ccOf s1 q.1).round.st = .aborted) = (n, w) :: rest →
        Traps ex j { code := 0x11, reason := if (ccOf s1 n).st = .faulted then (ccOf s1 n).armReason else 6 } s1 s)

/-- The lanes `dn` of an instruction are done and no other: their results are written, their index registers stepped, and, where `recs` is
not empty, their stores signed (03 R98, 12 R278). Nothing else changes. -/
def PartDone (op : Op) (j : Iss) (dn : List Nat) (dest : Nat → Nat → Option Word) (recs : List (List Byte)) (s t : State) : Prop :=
  OnlyTeam j.b j.t s t ∧
  ∃ m p, teamOf s j.b j.t = some m ∧ Tbl.get m.splits j.e = some p ∧
  ∃ m' p', teamOf t j.b j.t = some m' ∧ m' = { m with regs := m'.regs, poison := m'.poison, splits := m'.splits } ∧
    (∀ r l, l < 1024 → m'.reg r l = if l ∈ dn then (dest r l).getD (steppedReg op j r l) else m.reg r l) ∧
    Tbl.get m'.splits j.e = some p' ∧ OnlySplit j.e m.splits m'.splits ∧
    p' = { p with sig := recs.foldl crc64 p.sig, owed := p.owed.map (fun c => (c.1, c.2 + 32 * recs.length)) }
/-- An instruction whose lanes meet pages that do not translate (03 R98, R99): the lanes that can complete do; while a page is missing the
split waits in WAIT-OP with them in its done mask and the pages on its record, one fault record a page; where none is missing and a page
failed or forbids the access, the instruction traps XLATE or ACCESS with the done mask, for the lowest such lane. -/
def PartlyDone (ex : State → Out) (op : Op) (given : Nat) (need : Need) (qs : State → Iss → List LaneAcc) (n : Nat)
    (ready : Iss → State → LaneAcc → Phys → Prop) (act : Iss → State → LaneAcc → Phys → State)
    (dest : Iss → Nat → Nat → Option Word) (recs : Iss → List Nat → List (List Byte)) : Prop :=
  ∀ s j s1 s2 place dn ms bad, Issues op [] s j s1 → HasUnit j → AddressesPass n (qs s1 j) →
    LanesPass j.b given j.l.ctx j.failedPages need (ready j) (act j) place s1 (qs s1 j) dn ms bad s2 →
    (ms ≠ [] → ∃ s3 t m p h, PartDone op j dn (dest j) [] s2 s3 ∧ ex s = .next t ∧
      Waits j (j.doneLanes ||| maskOf dn) s3 t ∧ teamOf t j.b j.t = some m ∧ Tbl.get m.splits j.e = some p ∧ p.held = some h ∧
      (∀ a, a ∈ h.waits ↔ a ∈ ms) ∧
      ∀ a ∈ ms, recordFor s1 j.l.ctx a = none → s1.faults.length + ms.length ≤ 256 →
        (t.faults.filter (fun r => r.ctx = j.l.ctx ∧ r.page = a)).length = 1) ∧
    (ms = [] → ∀ l code a rest, bad = (l, code, a) :: rest → CanTrap j →
      ∃ s3 t, PartDone op j dn (dest j) (recs j dn) s2 s3 ∧ ex s = .next t ∧
        EnteredHandler j { code := code, pc := j.p.pc, res := j.p.pc, val := BitVec.ofNat 64 a, done := j.doneLanes ||| maskOf dn } s3 t)
/-- LD in part: `got` is what its lanes find. -/
def LoadPartly (ex : State → Out) (op : Op) : Prop :=
  ∀ got : Nat → Nat, PartlyDone ex op (loadSize op.o.f.toNat) needR (fun s j => accesses s j op (loadSize op.o.f.toNat) true false)
    (loadSize op.o.f.toNat)
    (fun j s q p => (op.o.b.toNat = 1 → lineFull s p = true) ∧ got q.lane = bytesAt s (j.view s op.o.rm.toNat) p (loadSize op.o.f.toNat))
    (fun _ s _ p => touch s p false)
    (fun j => laneDest op j (fun l => { val := loadResult op.o.f.toNat (got l), fl := 0 })) (fun j _ => heldRecs j)
/-- An atomic in part: `old` is what its lanes find. -/
def AtomicPartly (ex : State → Out) (op : Op) (n : Nat) (counted : Bool) (data : Iss → (Nat → Nat) → Nat → Option Nat) : Prop :=
  ∀ old, PartlyDone ex op n needRW (fun s j => accesses s j op n false true) n
    (fun j s q p => old q.lane = bytesAt s (shadowOf s j.b) p n ∧ hasRoom j op (data j old) s q p)
    (fun j => storeAct j op n counted (data j old))
    (fun j => laneDest op j (fun l => { val := BitVec.ofNat 128 (old l), fl := 0 }))
    (fun j ls => storeRecs j op n (data j old) ls)

end Sys2Proof.Spec

/-- 03 R74: a lane of LD, LDV, ST, ATOM, ATOM64, CFLUSH, LDHINT, CPY32 or TSET with a misaligned address makes the instruction trap ALIGN,
and one whose address leads nowhere ACCESS, before any lane does anything (TSET: 14 R326, with ARM last). 03 R98, R99 and 12 R278: LD, ST,
ATOM, ATOM64 and CFLUSH complete lane by lane: where a page does not translate, the lanes that can complete do, once; the others wait with
one fault record a page, or trap with the done mask. -/
def Obligations.AddressChecks : Prop :=
  (∀ o, AddressTraps (exec (.ldW32 o)) (opW 0x60 o) (loadSize (opW 0x60 o).o.f.toNat) (fun s j => accesses s j (opW 0x60 o) (loadSize (opW 0x60 o).o.f.toNat) true false)) ∧
  (∀ o, AddressTraps (exec (.ldL64 o)) (opL 0x60 o) (loadSize o.f.toNat) (fun s j => accesses s j (opL 0x60 o) (loadSize o.f.toNat) true false)) ∧
  (∀ o, AddressTraps (exec (.ldvW32 o)) (opW 0x6D o) (loadSize (opW 0x6D o).o.f.toNat)
    (fun s j => j.accs (address j (opW 0x6D o)) (fun ea l => targetOf s j 0 ea (loadSize (opW 0x6D o).o.f.toNat) l false false))) ∧
  (∀ o, AddressTraps (exec (.ldvL64 o)) (opL 0x6D o) (loadSize o.f.toNat)
    (fun s j => j.accs (address j (opL 0x6D o)) (fun ea l => targetOf s j 0 ea (loadSize o.f.toNat) l false false))) ∧
  (∀ o, AddressTraps (exec (.st o)) (opL 0x61 o) (2 ^ o.f.toNat) (fun s j => accesses s j (opL 0x61 o) (2 ^ o.f.toNat) false true)) ∧
  (∀ o, AddressTraps (exec (.atom o)) (opL 0x62 o) 4 (fun s j => accesses s j (opL 0x62 o) 4 false true)) ∧
  (∀ o, AddressTraps (exec (.atom64 o)) (opL 0x63 o) 8 (fun s j => accesses s j (opL 0x63 o) 8 false true)) ∧
  (∀ o, AddressTraps (exec (.cflushW32 o)) (opW 0x6C o) 1 (fun s j => accesses s j (opW 0x6C o) 1 true false)) ∧
  (∀ o, AddressTraps (exec (.cflushL64 o)) (opL 0x6C o) 1 (fun s j => accesses s j (opL 0x6C o) 1 true false)) ∧
  (∀ o s j s1 r, Issues (opW 0x6B o) [] s j s1 →
    firstOf j.lanes [(fun l => 2 ^ 56 ≤ address j (opW 0x6B o) l, 0x08, fun l => BitVec.ofNat 64 (address j (opW 0x6B o) l))] = some r →
    Traps (exec (.ldhintW32 o)) j r s1 s) ∧
  (∀ o s j s1 r, Issues (opL 0x6B o) [] s j s1 →
    firstOf j.lanes [(fun l => 2 ^ 56 ≤ address j (opL 0x6B o) l, 0x08, fun l => BitVec.ofNat 64 (address j (opL 0x6B o) l))] = some r →
    Traps (exec (.ldhintL64 o)) j r s1 s) ∧
  (∀ o, CopyTraps (exec (.cpy32 o)) (opL 0x65 o)) ∧
  (∀ o, BoardTraps (exec (.tsetW32 o)) (opW 0xB2 o)) ∧ (∀ o, BoardTraps (exec (.tsetL64 o)) (opL 0xB2 o)) ∧
  (∀ o, LoadPartly (exec (.ldW32 o)) (opW 0x60 o)) ∧ (∀ o, LoadPartly (exec (.ldL64 o)) (opL 0x60 o)) ∧
  (∀ o, PartlyDone (exec (.st o)) (opL 0x61 o) 0 needW (fun s j => accesses s j (opL 0x61 o) (2 ^ o.f.toNat) false true) (2 ^ o.f.toNat)
    (fun j => hasRoom j (opL 0x61 o) (fun l => some (storeData j (opL 0x61 o) l)))
    (fun j => storeAct j (opL 0x61 o) (2 ^ o.f.toNat) true (fun l => some (storeData j (opL 0x61 o) l))) (fun _ => noDest)
    (fun j ls => storeRecs j (opL 0x61 o) (2 ^ o.f.toNat) (fun l => some (storeData j (opL 0x61 o) l)) ls)) ∧
  (∀ o, AtomicPartly (exec (.atom o)) (opL 0x62 o) 4 (8 ≤ o.f.toNat) (fun j => atomData j (opL 0x62 o))) ∧
  (∀ o, AtomicPartly (exec (.atom64 o)) (opL 0x63 o) 8 (o.f.toNat = 1 || o.f.toNat = 2) (fun j => atom64Data j (opL 0x63 o))) ∧
  (∀ o, PartlyDone (exec (.cflushW32 o)) (opW 0x6C o) 0 needR (fun s j => accesses s j (opW 0x6C o) 1 true false) 1 (fun _ _ _ _ => True)
    (fun _ s _ p => flushLine s p ((opW 0x6C o).o.f.toNat = 1)) (fun _ => noDest) (fun j _ => heldRecs j)) ∧
  (∀ o, PartlyDone (exec (.cflushL64 o)) (opL 0x6C o) 0 needR (fun s j => accesses s j (opL 0x6C o) 1 true false) 1 (fun _ _ _ _ => True)
    (fun _ s _ p => flushLine s p (o.f.toNat = 1)) (fun _ => noDest) (fun j _ => heldRecs j))

namespace Sys2Proof.Spec

/-- LDHINT completes, writes no register, and changes no byte of memory: only what the caches hold, and the context's pins and counters
(R276, 03 R82). -/
def HintDone (ex : State → Out) (op : Op) : Prop :=
  ∀ s j s1, Issues op [] s j s1 → (∀ l ∈ j.lanes, address j op l < 2 ^ 56) →
    ∃ s2 t, ex s = .next t ∧ PlainDone op j s2 t ∧ s2 = { s1 with hbm := s2.hbm, l2 := s2.l2, ctxs := s2.ctxs } ∧
      ∀ x, ctxOf s2 x = { ctxOf s1 x with pins := (ctxOf s2 x).pins, counters := (ctxOf s2 x).counters }
/-- CFLUSH completes where every lane reaches its place; no byte of memory changes; afterwards no line named is in L2, under .invalidate, or
none is dirty there, under .writeback (R277). -/
def FlushDone (ex : State → Out) (op : Op) : Prop :=
  ∀ s j s1 s2 place, Issues op [] s j s1 →
    let qs := accesses s1 j op 1 true false
    AddressesPass 1 qs →
    LanesReach j.b 0 j.l.ctx j.failedPages needR (fun _ _ _ => True) (fun s _ p => flushLine s p (op.o.f.toNat = 1)) place s1 qs s2 →
    OnlyCaches s1 s2 ∧ (∀ l ∈ j.lanes, ∀ n, l2Line (place l) = some n →
      Tbl.get s2.l2 n ≠ some true ∧ (op.o.f.toNat = 1 → Tbl.get s2.l2 n = none)) ∧ ∃ t, ex s = .next t ∧ Completed op j noDest 0 s2 t (heldRecs j)

end Sys2Proof.Spec

/-- 12 R275 to R277: FENCE completes and changes nothing (one core that issues in order, log 4); LDHINT and CFLUSH change where bytes are
held and no value. -/
def Obligations.FencesHintsFlushes : Prop :=
  (∀ o s j s1, Issues (opL 0x64 o) [] s j s1 → ∃ t, exec (.fence o) s = .next t ∧ PlainDone (opL 0x64 o) j s1 t) ∧
  (∀ o, HintDone (exec (.ldhintW32 o)) (opW 0x6B o)) ∧ (∀ o, HintDone (exec (.ldhintL64 o)) (opL 0x6B o)) ∧
  (∀ o, FlushDone (exec (.cflushW32 o)) (opW 0x6C o)) ∧ (∀ o, FlushDone (exec (.cflushL64 o)) (opL 0x6C o))

/-! ## Control as 13 R281 to R290 and 01 R20 to R28 state it -/

namespace Sys2Proof.Spec

/-- The lanes active in the issuing split, ascending (01 R20). -/
def activeLanes (j : Iss) : List Nat := (List.range 1024).filter (fun l => l < j.m.width && j.p.mask.getLsbD l && (liveLanes j.m).getLsbD l)
/-- The target of BRA, BRDQ and CALL: the offset in parcels, signed, from the instruction's own address (09 R222). -/
def target (j : Iss) (o : LOps) : BitVec 56 :=
  BitVec.ofInt 56 (j.p.pc.toNat + 2 * (match o.lit with
    | some v => v.toInt
    | none => ((o.b ++ o.a) ++ o.d).toInt))
/-- The condition in field C takes a lane (R281). -/
def takes (j : Iss) (o : LOps) (l : Nat) : Bool := o.c = 0xFF || ((j.m.reg o.c.toNat l).getLsbD 0 != o.pn)

/-- Byte `k` of a slot of the deferral stack: the mask in 128 bytes, then the pc, the state, the wait tag and the phase that WAIT-BAR waits for
in 8 each, low byte first; READY is state 0 with tag 0 (01 R22; the order of the fields is the model's, log 30). -/
def slotByte (q : Split) (k : Nat) : Byte :=
  let st := match q.st with
    | .ready => (0, 0, 0)
    | .waitOp => (1, 0, 0)
    | .waitJoin t => (2, t, 0)
    | .waitBar i phase => (3, i, phase)
  BitVec.ofNat 8 (if k < 128 then q.mask.toNat / 256 ^ k else if k < 136 then q.pc.toNat / 256 ^ (k - 128)
    else if k < 144 then st.1 / 256 ^ (k - 136) else if k < 152 then st.2.1 / 256 ^ (k - 144) else st.2.2 / 256 ^ (k - 152))
/-- The device-global address of slot `n` of the issuing team's deferral stack: 160 bytes each, above the lane regions of its frame (01 R22,
24 R455). -/
def slotAt (s : State) (j : Iss) (n : Nat) : Nat :=
  let c := ctxOf s j.l.ctx
  c.lpbase + j.m.frame * lpFrame c + 1024 * (64 * c.lpstride) + 160 * n
/-- The slots from the `old`-th up of a team's deferral stack are written, from the bottom up, each at its address; a slot that lies in one
page and is the only one written holds its split's bytes, and every other byte of every memory is as it was. Teams are as they were. -/
def SlotsWritten (j : Iss) (old : Nat) (m : Team) (s t : State) : Prop :=
  let new := m.defer.reverse.zipIdx.drop old
  t = new.foldl (fun s c => writeVirt s j.l.ctx (slotAt s j c.2) ((List.range 160).map (slotByte c.1))) s ∧
  ∀ q n pa, new = [(q, n)] → slotAt s j n % 65536 + 160 ≤ 65536 → placeOf s j.l.ctx (.virt (slotAt s j n) false) = some (.cap pa) →
    (∀ k, k < 160 → readByte t Shadow.empty (.cap (pa + k)) 0 = slotByte q k) ∧
    ∀ p, (∀ k, k < 160 → p ≠ .cap (pa + k)) → readByte t Shadow.empty p 0 = readByte s Shadow.empty p 0

/-- A divergent branch (R281, 01 R21 to R23): the issuing split keeps its entry with the lanes `tk` at `pct`; the lanes `nt` form a split READY
at `pcn`, in the lowest free entry or, with none free, on top of the deferral stack, whose slot is written; with a tag its join record is
opened or widened to both. Nothing else changes. -/
def Diverged (j : Iss) (tag : Nat) (tk : Mask) (pct : BitVec 56) (nt : Mask) (pcn : BitVec 56) (s t : State) : Prop :=
  ∃ u, OnlyTeam j.b j.t s u ∧ ∃ m p, teamOf s j.b j.t = some m ∧ Tbl.get m.splits j.e = some p ∧
  ∃ m' p' q, teamOf u j.b j.t = some m' ∧ SlotsWritten j m.defer.length m' u t ∧
    m' = { m with splits := m'.splits, defer := m'.defer, joins := m'.joins } ∧
    Tbl.get m'.splits j.e = some p' ∧ p'.pc = pct ∧ p'.mask = tk ∧ p'.st = .ready ∧ p'.sig = p.sig ∧
    q.pc = pcn ∧ q.mask = nt ∧ q.st = .ready ∧ q.sig = 0 ∧ q.held = none ∧ q.pend = none ∧
    (match Tbl.lowestFree m.splits 16 with
     | some n => Tbl.get m'.splits n = some q ∧ m'.defer = m.defer ∧ ∀ e, e ≠ j.e → e ≠ n → Tbl.get m'.splits e = Tbl.get m.splits e
     | none => m'.defer = q :: m.defer ∧ OnlySplit j.e m.splits m'.splits) ∧
    (∀ n, Tbl.get m'.joins n = if n = tag ∧ tag ≠ 0 then some ((Tbl.get m.joins n).getD 0 ||| j.p.mask) else Tbl.get m.joins n)

/-- A split, with its lanes, stands somewhere in a team: in the table or deferred. -/
def StandsIn (m : Team) (p : Split) : Prop := (∃ e, Tbl.get m.splits e = some p) ∨ p ∈ m.defer
/-- The entries of a split table that no split holds, lowest first. -/
def freeList (m : Team) : List Nat := (List.range 16).filter (fun e => (Tbl.get m.splits e).isNone)
/-- A split READY with a group of lanes at their address. -/
def Carries (p : Split) (g : Going) : Prop := p.mask = g.mask ∧ p.pc = g.pc ∧ p.st = .ready
/-- Where the active lanes of a split go on, each at its own address: one group for each address, in the order of their lowest lanes (01
R21). -/
def groups (ls : List Nat) (pc : Nat → BitVec 56) : List Going := goings [] (ls.map (fun l => (l, pc l)))
/-- The lanes of the issuing split went on in groups (01 R21): the group with the lowest lane keeps the entry, the others take the free
entries, lowest first, and then slots of the deferral stack, which are written; every other split stands as it was; registers are as the
steps leave them; the return stacks are `rets` and the numbers of spilled entries `spills`. -/
def LanesWent (op : Op) (j : Iss) (gs : List Going) (rets : Nat → List (BitVec 56)) (spills : Nat → Nat) (s t : State) : Prop :=
  ∃ u, OnlyTeam j.b j.t s u ∧ ∃ m, teamOf s j.b j.t = some m ∧
  ∃ m', teamOf u j.b j.t = some m' ∧ SlotsWritten j m.defer.length m' u t ∧
    m' = { m with regs := m'.regs, splits := m'.splits, defer := m'.defer, rets := m'.rets, spilled := m'.spilled } ∧
    (∀ g, gs.head? = some g → ∃ p, Tbl.get m'.splits j.e = some p ∧ Carries p g) ∧
    (∀ (k n : Nat) g, gs.tail[k]? = some g → (freeList m)[k]? = some n → ∃ p, Tbl.get m'.splits n = some p ∧ Carries p g) ∧
    (∀ (k : Nat) g, gs.tail[k]? = some g → (freeList m).length ≤ k → ∃ p, m'.defer[gs.tail.length - 1 - k]? = some p ∧ Carries p g) ∧
    (∀ e p, e ≠ j.e → Tbl.get m.splits e = some p → Tbl.get m'.splits e = some p) ∧
    m'.defer.drop (gs.tail.length - (freeList m).length) = m.defer ∧ (∀ r l, l < 1024 → m'.reg r l = steppedReg op j r l) ∧
    ∀ l, Tbl.getD m'.rets l [] = rets l ∧ Tbl.getD m'.spilled l 0 = spills l
/-- The return stack of a lane, youngest entry first, and the number of entries that it has spilled (01 R28). -/
def stackOf (j : Iss) (l : Nat) : List (BitVec 56) := Tbl.getD j.m.rets l []
def spillsOf (j : Iss) (l : Nat) : Nat := Tbl.getD j.m.spilled l 0
/-- The device-global address of entry `n` of a lane's return-stack area, above the user bytes of its region (01 R28, 24 R455). -/
def spillAt (s : State) (j : Iss) (l n : Nat) : Nat :=
  let c := ctxOf s j.l.ctx
  c.lpbase + j.m.frame * lpFrame c + l * (64 * c.lpstride) + c.lpuser + 8 * n
/-- Entry `n` lies in the area (24 R455). -/
def spillRoom (s : State) (j : Iss) (n : Nat) : Bool :=
  8 * n + 8 ≤ 64 * (ctxOf s j.l.ctx).lpstride - (ctxOf s j.l.ctx).lpuser
/-- The oldest entries of the full stacks of lanes go to memory, in ascending order, each at the place of its lane's next entry: a byte of
none of them reads as before, and a byte of one, and of no later one, holds it. -/
inductive Spilled (j : Iss) (place : Nat → Phys) : State → List Nat → State → Prop where
  | none (s : State) : Spilled j place s [] s
  | more (s t : State) (l : Nat) (ls : List Nat) :
    placeOf s j.l.ctx (.virt (spillAt s j l (spillsOf j l)) false) = some (place l) →
    Spilled j place (writePhys s { b := none, t := j.t, counted := false } (place l) (leBytes 8 ((stackOf j l).getLastD 0).toNat)) ls t →
    Spilled j place s (l :: ls) t
def SpilledOnly (j : Iss) (place : Nat → Phys) (ls : List Nat) (s t : State) : Prop :=
  (∀ p, (∀ l ∈ ls, ∀ k, k < 8 → p ≠ plus (place l) k) → readByte t Shadow.empty p 0 = readByte s Shadow.empty p 0) ∧
  ∀ l ∈ ls, ∀ k, k < 8 → (∀ q ∈ ls, l < q → ∀ r, r < 8 → plus (place l) k ≠ plus (place q) r) →
    readByte t Shadow.empty (plus (place l) k) 0 = BitVec.ofNat 8 (((stackOf j l).getLastD 0).toNat / 256 ^ k)
/-- The translations that an instruction needs before it does anything, asked for in turn (01 R22, 13 R285): with a page missing it waits;
with none missing and one failed or forbidden it traps; otherwise it goes on. -/
def Asked (ex : State → Out) (j : Iss) (s : State) (r : AskRun) (goes : Prop) : Prop :=
  (r.waits ≠ [] → ∃ t, ex s = .next t ∧ Waits j j.doneLanes r.s t) ∧
  (r.waits = [] → (r.bad = [] → goes) ∧ ∀ l code a q, r.bad = (l, code, a) :: q → Traps ex j { code := code, val := BitVec.ofNat 64 a } r.s s)
/-- The slots that `n` groups of lanes push, and their translations (01 R21, R22). -/
def slotsAsked (j : Iss) (s : State) (n : Nat) : AskRun :=
  askAll j.l.ctx j.failedPages { s := s, bad := [], waits := [] } ((List.range (n - 1 - (freeList j.m).length)).flatMap (fun k =>
    [0, 159].map (fun d => { lane := 0, tgt := .virt (slotAt s j (j.m.defer.length + k) + d) false, need := needW })))

/-- CALL: each calling lane pushes the next instruction's address and goes to its target; the other active lanes go on (R284, 01 R28). A full
stack first writes its oldest entry to the lane's area; where that has no room the instruction traps ACCESS before any lane pushes or moves
(R285). The entries to write and the slots to push are translated first. -/
def CallDone (ex : State → Out) (op : Op) (j : Iss) (s s1 : State) (callers : List Nat) (tgt : Nat → BitVec 56) : Prop :=
  let full := callers.filter (fun l => 8 ≤ (stackOf j l).length)
  let gs := groups (activeLanes j) (fun l => if l ∈ callers then tgt l else j.next op)
  (∀ l rest, full.filter (fun l => !spillRoom s1 j (spillsOf j l)) = l :: rest →
    Traps ex j { code := 0x08, val := BitVec.ofNat 64 (spillAt s1 j l (spillsOf j l)) } s1 s) ∧
  ((∀ l ∈ full, spillRoom s1 j (spillsOf j l) = true) →
    let r := askAll j.l.ctx j.failedPages { s := s1, bad := [], waits := [] }
      (full.map (fun l => { lane := l, tgt := .virt (spillAt s1 j l (spillsOf j l)) false, need := needW }) ++
        (List.range (gs.length - 1 - (freeList j.m).length)).flatMap (fun k =>
          [0, 159].map (fun d => { lane := 0, tgt := .virt (slotAt s1 j (j.m.defer.length + k) + d) false, need := needW })))
    Asked ex j s r (∀ place s2, Spilled j place r.s full s2 → SpilledOnly j place full r.s s2 ∧ ∃ t, ex s = .next t ∧
      LanesWent op j gs
        (fun l => if l ∈ callers then j.next op :: (if l ∈ full then (stackOf j l).dropLast else stackOf j l) else stackOf j l)
        (fun l => if l ∈ full then spillsOf j l + 1 else spillsOf j l) s2 t))
/-- CALL.indirect, all of whose targets are even and below 2^56 (R284, R285). -/
def CallIndirectDone (ex : State → Out) (op : Op) : Prop :=
  ∀ s j s1, Issues op [] s j s1 → (∀ l ∈ j.lanes, (j.a64 op l).toNat % 2 = 0 ∧ (j.a64 op l).toNat < 2 ^ 56) →
    CallDone ex op j s s1 j.lanes (fun l => BitVec.ofNat 56 (j.a64 op l).toNat)
/-- CALL.indirect checks every target before any lane pushes: an odd target is ALIGN, then one at or above 2^56 ACCESS (R285). -/
def CallIndirectTraps (ex : State → Out) (op : Op) : Prop :=
  ∀ s j s1, Issues op [] s j s1 →
    (∀ l, (j.lanes.filter (fun l => (j.a64 op l).toNat % 2 = 1)).head? = some l →
      Traps ex j { code := 0x06, val := j.a64 op l } s1 s) ∧
    (∀ l, (∀ q ∈ j.lanes, (j.a64 op q).toNat % 2 = 0) → (j.lanes.filter (fun l => 2 ^ 56 ≤ (j.a64 op l).toNat)).head? = some l →
      Traps ex j { code := 0x08, val := j.a64 op l } s1 s)
/-- Lanes of the issuing team have exited (01 R26, R27): they are in X, in no split and in no open join record; the registers are as they
were; the team ends when no lane is live or, under a handler, when no lane of the handler is. A team that is gone has gone with its
block. -/
def Exited (j : Iss) (ls : Mask) (s t : State) : Prop :=
  ∀ m m', teamOf s j.b j.t = some m → teamOf t j.b j.t = some m' →
    m'.ex = m.ex ||| ls ∧ m'.regs = m.regs ∧ m'.dead = m.dead ∧ (∀ p, StandsIn m' p → p.mask &&& ls = 0) ∧
    (∀ n e, Tbl.get m'.joins n = some e → e &&& ls = 0) ∧
    (allLanes m.width &&& ~~~(m.ex ||| ls) &&& ~~~m.dead = 0 → m'.st = .ended)
/-- RET (R286, 01 R28). Each lane that holds a return address, on the stack or, with that empty, in memory, pops its youngest and goes there; the
other active lanes go on; a lane with nothing to return to exits. The entries to read are translated first, then the slots that the groups
push. `place` are the places of the entries read, which hold no poison; of such a word, bits [63:56] and bit 0 are not taken (log 128, the
model's choice). -/
def ReturnDone (ex : State → Out) (op : Op) : Prop :=
  ∀ s j s1 (place : Nat → Phys), Issues op [] s j s1 →
    let gone := j.lanes.filter (fun l => stackOf j l = [] ∧ spillsOf j l = 0)
    (gone ≠ [] → j.front = false ∧ (∀ h ∈ j.k.handles, h.owner ≠ j.t)) →
    let from_ := j.lanes.filter (fun l => stackOf j l = [] ∧ spillsOf j l ≠ 0)
    let r := askAll j.l.ctx j.failedPages { s := s1, bad := [], waits := [] }
      (from_.map (fun l => { lane := l, tgt := .virt (spillAt s1 j l (spillsOf j l - 1)) false, need := needR }))
    let back := fun l => if stackOf j l = [] then BitVec.ofNat 56 (bytesAt r.s Shadow.empty (place l) 8 / 2 * 2) else (stackOf j l).headD 0
    let gs := groups ((activeLanes j).filter (fun l => l ∉ gone)) (fun l => if l ∈ j.lanes then back l else j.next op)
    let r2 := slotsAsked j r.s gs.length
    Asked ex j s r (
      (∀ l ∈ from_, ∀ u ∈ [r.s, r2.s], placeOf u j.l.ctx (.virt (spillAt u j l (spillsOf j l - 1)) false) = some (place l) ∧
        poisoned u Shadow.empty (place l) 8 = false) →
      Asked ex j s r2 (∃ u t, ex s = .next t ∧ (gone = [] → t = u) ∧ (gone ≠ [] → Exited j (maskOf gone) u t) ∧
        (gs ≠ [] → LanesWent op j gs (fun l => if l ∈ j.lanes then (stackOf j l).tail else stackOf j l)
          (fun l => if l ∈ from_ then spillsOf j l - 1 else spillsOf j l) r2.s u)))

/-- What lanes that exit leave alone, where the team has no deferred split and runs on, outside a handler: every memory; and, with no join
record open and no barrier held, everything but the lanes' own places: the other lanes of each split stay in it, and those of the issuing
split go on at the next instruction. -/
def ExitKeeps (op : Op) (j : Iss) (ls : Mask) (s t : State) : Prop :=
  ∀ m, teamOf s j.b j.t = some m → m.defer = [] → m.trap = none → allLanes m.width &&& ~~~(m.ex ||| ls) &&& ~~~m.dead ≠ 0 →
    t.mem = s.mem ∧ t.host = s.host ∧ t.chip = s.chip ∧ t.spad = s.spad ∧ t.acc = s.acc ∧
    (m.joins = [] → m.bars = [] → OnlyTeam j.b j.t s t ∧ ∃ m', teamOf t j.b j.t = some m' ∧
      m' = { m with ex := m'.ex, splits := m'.splits, sig := m'.sig, owed := m'.owed } ∧
      (∀ e p, e ≠ j.e → Tbl.get m.splits e = some p →
        Tbl.get m'.splits e = if p.mask &&& ~~~ls = 0 then none else some { p with mask := p.mask &&& ~~~ls }) ∧
      ∀ p, Tbl.get m.splits j.e = some p → p.mask &&& ~~~liveLanes m = 0 → (p.mask &&& ~~~ls = 0 → Tbl.get m'.splits j.e = none) ∧
        (p.mask &&& ~~~ls ≠ 0 → ∃ q, Tbl.get m'.splits j.e = some q ∧ q.mask = p.mask &&& ~~~ls ∧ q.pc = j.next op ∧ q.st = .ready))
/-- EXIT in a team that owns no accumulator handles (05 R129), and RET in lanes with nothing to return to (R286, R287). -/
def ExitDone (ex : State → Out) (op : Op) (guard : Iss → Prop) : Prop :=
  ∀ s j s1, Issues op [] s j s1 → j.front = false → guard j → (∀ h ∈ j.k.handles, h.owner ≠ j.t) →
    ∃ t, ex s = .next t ∧ Exited j j.ex s1 t ∧ ExitKeeps op j j.ex s1 t
/-- EXIT of a front program ends it (R287, 01 R36). -/
def FrontExitDone (ex : State → Out) (op : Op) : Prop :=
  ∀ s j s1, Issues op [] s j s1 → j.front = true →
    ∃ t, ex s = .next t ∧ ∀ m', teamOf t j.b j.t = some m' → m'.st = .ended ∧ m'.splits = []

/-- No other split of the team waits for its decision queue in its line before the issuing one (15 R332). -/
def FirstInLine (j : Iss) (w : Line) : Prop := lineAhead [j.m] w j.m j.p = false
/-- The block's front program has not ended (01 R35). -/
def FrontLives (j : Iss) : Prop := ∃ m, Tbl.get j.k.teams 16 = some m ∧ m.st ≠ .ended
/-- The issuing split waits in WAIT-OP in a line, at the place it has or at the end; nothing else changes. -/
def StandsInLine (j : Iss) (w : Line) (s t : State) : Prop :=
  OnlyTeam j.b j.t s t ∧ ∃ m p, teamOf s j.b j.t = some m ∧ Tbl.get m.splits j.e = some p ∧
  ∃ m', teamOf t j.b j.t = some m' ∧ m' = { m with splits := m'.splits } ∧ OnlySplit j.e m.splits m'.splits ∧
    Tbl.get m'.splits j.e = some { p with st := .waitOp, line := if p.line.any (fun q => q.1 = w) then p.line else some (w, s.tick) }

end Sys2Proof.Spec

/-- 13 R281, R282 with 09 R222 and 01 R21 to R23, R35: BRA taken by all its lanes, by none, or by some, with an entry free for the split that
forms or with its slot of the deferral stack, which is translated first and written (its layout is log 30's); BRDQ pops one decision and
never divides; with the queue empty it waits for the front program, or takes trap QUEUE where there is none or it has ended; a split that
comes while another waits is served after it. -/
def Obligations.Branches : Prop :=
  (∀ o s j s1, Issues (opL 0x80 o) [] s j s1 →
    let tk := (activeLanes j).filter (takes j o)
    let nt := (activeLanes j).filter (fun l => !takes j o l)
    (nt = [] → ∃ t, exec (.bra o) s = .next t ∧ WentTo j (target j o) s1 t) ∧
    (tk = [] → nt ≠ [] → ∃ t, exec (.bra o) s = .next t ∧ WentTo j (j.next (opL 0x80 o)) s1 t) ∧
    (tk ≠ [] → nt ≠ [] → freeEntries j.m ≠ 0 → ∃ t, exec (.bra o) s = .next t ∧
      Diverged j o.f.toNat (maskOf tk) (target j o) (maskOf nt) (j.next (opL 0x80 o)) s1 t) ∧
    (tk ≠ [] → nt ≠ [] → freeEntries j.m = 0 →
      Asked (exec (.bra o)) j s (slotsAsked j s1 2) (∃ t, exec (.bra o) s = .next t ∧
        Diverged j o.f.toNat (maskOf tk) (target j o) (maskOf nt) (j.next (opL 0x80 o)) (slotsAsked j s1 2).s t))) ∧
  (∀ o s j s1, Issues (opL 0x85 o) [] s j s1 →
    (∀ v r, j.m.dq = v :: r → FirstInLine j .q0 → ∃ s2 t,
      OnlyTeam j.b j.t s1 s2 ∧ (∀ m, teamOf s1 j.b j.t = some m → teamOf s2 j.b j.t = some { m with dq := r }) ∧
      exec (.brdq o) s = .next t ∧ WentTo j (if v.getLsbD 0 != o.pn then target j o else j.next (opL 0x85 o)) s2 t) ∧
    (¬ FirstInLine j .q0 ∨ j.m.dq = [] ∧ FrontLives j → ∃ t, exec (.brdq o) s = .next t ∧ StandsInLine j .q0 s1 t) ∧
    (FirstInLine j .q0 → j.m.dq = [] → ¬ FrontLives j → Traps (exec (.brdq o)) j { code := 0x0D } s1 s))

/-- 13 R284 to R287 with 01 R21, R22, R26 to R28, R36: calls push and returns pop the lanes' return stacks, which spill to and refill from
lane-private memory, and lanes that go on at different addresses divide their split, over free entries and then the deferral stack, whose
slots are translated first and written (log 30); EXIT retires its executing lanes, and RET those with nothing to return to, while others that it
returns go on; what exits keeps the other lanes and memory as they were; a team with no live lane left ends; EXIT of a front program ends it.
The clause for a rewritten return word is the model's choice (log 128), and so is the layout of a slot (log 30). -/
def Obligations.CallsReturnsExits : Prop :=
  (∀ o s j s1, Issues (opL 0x82 o) [] s j s1 → o.f.toNat = 0 →
    CallDone (exec (.call o)) (opL 0x82 o) j s s1 ((activeLanes j).filter (takes j o)) (fun _ => target j o)) ∧
  (∀ o, CallIndirectDone (exec (.callIndirectW32 o)) (opW 0x82 o)) ∧ (∀ o, CallIndirectDone (exec (.callIndirectL64 o)) (opL 0x82 o)) ∧
  (∀ o, CallIndirectTraps (exec (.callIndirectW32 o)) (opW 0x82 o)) ∧ (∀ o, CallIndirectTraps (exec (.callIndirectL64 o)) (opL 0x82 o)) ∧
  (∀ o, ReturnDone (exec (.retW32 o)) (opW 0x83 o)) ∧ (∀ o, ReturnDone (exec (.retL64 o)) (opL 0x83 o)) ∧
  (∀ o, ExitDone (exec (.exitW32 o)) (opW 0x84 o) (fun _ => True)) ∧ (∀ o, ExitDone (exec (.exitL64 o)) (opL 0x84 o) (fun _ => True)) ∧
  (∀ o, ExitDone (exec (.retW32 o)) (opW 0x83 o) (fun j => ∀ l ∈ j.lanes, stackOf j l = [] ∧ Tbl.getD j.m.spilled l 0 = 0)) ∧
  (∀ o, ExitDone (exec (.retL64 o)) (opL 0x83 o) (fun j => ∀ l ∈ j.lanes, stackOf j l = [] ∧ Tbl.getD j.m.spilled l 0 = 0)) ∧
  (∀ o, FrontExitDone (exec (.exitW32 o)) (opW 0x84 o)) ∧ (∀ o, FrontExitDone (exec (.exitL64 o)) (opL 0x84 o))

namespace Sys2Proof.Spec

/-- A table's numbers rise. -/
def Ordered {α : Type} (t : Tbl α) : Prop := (t.map (fun c => c.1)).Pairwise (fun a c => a < c)
/-- The lanes of a list of splits. -/
def lanesOfSplits (ps : List Split) : Mask := ps.foldl (fun k p => k ||| p.mask) 0
/-- The memory of a team's deferral stack is as the team left it: its bytes have places of their own and hold no poison, and each slot that has
been written gives its split back (01 R22). -/
def StackKept (j : Iss) (m : Team) (s : State) : Prop :=
  m.defer = [] ∨
  ((∀ p, poisoned s Shadow.empty p 1 = false) ∧
    (∀ n q, m.defer.reverse[n]? = some q → splitFrom (liveLanes m) q ((List.range 160).map (slotByte q)) = q ∧
      (n ∉ m.stale → splitFrom (liveLanes m) q (readVirt s j.l.ctx (slotAt s j n) 160) = q)) ∧
    ∀ a c p, slotAt s j 0 ≤ a → a < c → c < slotAt s j (m.defer.length + 1) → placeOf s j.l.ctx (.virt a false) = some p →
      placeOf s j.l.ctx (.virt c false) ≠ some p)
/-- JOIN of a closed record goes on; JOIN of an open one waits until the waiting splits hold every lane of the record that is still live,
and then they are one split, READY in the lowest entry among them, at the next instruction of that one, and the record is closed; every other
split stands as it was (R283, 01 R24). Where splits waited at several JOINs of one tag, which next instruction is taken is the model's
choice (log 29), and so is which pending trap is kept (log 123). No other record completes: each was tested when a split or a lane last left it.
With splits deferred, freed entries are refilled from their slots (01 R22, R25), and a split so moved may have the trap of its slot's translation
pending. -/
def JoinDone (ex : State → Out) (op : Op) : Prop :=
  ∀ s j s1, Issues op [] s j s1 →
    (Tbl.get j.m.joins op.o.f.toNat = none → ∃ t, ex s = .next t ∧ WentTo j (j.next op) s1 t) ∧
    (∀ e m, Tbl.get j.m.joins op.o.f.toNat = some e → teamOf s1 j.b j.t = some m → Ordered m.splits → StackKept j m s1 →
      let live := fun (e : Mask) => e &&& ~~~m.ex &&& ~~~m.dead
      let self : Split := { j.p with pc := j.next op, st := .waitJoin op.o.f.toNat }
      let tab := fun (n : Nat) => (Tbl.put m.splits j.e self).filter (fun c => c.2.st = .waitJoin n)
      let waiting := fun (n : Nat) => (tab n).map (fun c => c.2) ++ m.defer.filter (fun p => p.st = .waitJoin n)
      let all := lanesOfSplits (waiting op.o.f.toNat) = live e
      (∀ n f, n ≠ op.o.f.toNat → Tbl.get m.joins n = some f → lanesOfSplits (waiting n) ≠ live f) →
      ∃ t m', ex s = .next t ∧ teamOf t j.b j.t = some m' ∧ m'.regs = m.regs ∧
        (¬ all → ∃ p, StandsIn m' p ∧ p.mask = j.p.mask ∧ p.st = .waitJoin op.o.f.toNat ∧ p.pc = j.next op) ∧
        (¬ all → m.defer = [] → OnlyTeam j.b j.t s1 t ∧ m' = { m with splits := m'.splits } ∧ OnlySplit j.e m.splits m'.splits) ∧
        (all → Tbl.get m'.joins op.o.f.toNat = none ∧ (∀ p, StandsIn m' p → p.st ≠ .waitJoin op.o.f.toNat) ∧
          ∃ n q p, (tab op.o.f.toNat).head? = some (n, q) ∧ (∀ c ∈ tab op.o.f.toNat, n ≤ c.1) ∧ Tbl.get m'.splits n = some p ∧
            p.mask = live e ∧ p.st = .ready ∧ p.pc = q.pc ∧
            (m.defer = [] → OnlyTeam j.b j.t s1 t ∧ m' = { m with splits := m'.splits, joins := m'.joins } ∧
              (∀ k, k ≠ n → Tbl.get m'.splits k = if k ∈ (tab op.o.f.toNat).map (fun c => c.1) then none else Tbl.get m.splits k) ∧
              ∀ k, k ≠ op.o.f.toNat → Tbl.get m'.joins k = Tbl.get m.joins k)) ∧
        ∀ q, ((∃ k, k ≠ j.e ∧ Tbl.get m.splits k = some q) ∨ q ∈ m.defer) → (all → q.st ≠ .waitJoin op.o.f.toNat) →
          ∃ p, StandsIn m' p ∧ p = { q with pend := p.pend, since := p.since, avail := p.avail })

end Sys2Proof.Spec

/-- 13 R283 with 01 R24: JOIN. -/
def Obligations.Joins : Prop :=
  (∀ o, JoinDone (exec (.joinW32 o)) (opW 0x81 o)) ∧ (∀ o, JoinDone (exec (.joinL64 o)) (opL 0x81 o))

namespace Sys2Proof.Spec

/-- TRAP takes SWTRAP, its steps done, with the leader's code, and resumes past itself (R288). -/
def TrapDone (ex : State → Out) (op : Op) : Prop :=
  ∀ s j s1, Issues op [2] s j s1 → CanTrap j → ∃ s2 t, ex s = .next t ∧ OnlyTeam j.b j.t s1 s2 ∧
    (∀ m, teamOf s1 j.b j.t = some m → ∃ m', teamOf s2 j.b j.t = some m' ∧ m' = { m with regs := m'.regs } ∧
      ∀ r l, l < 1024 → m'.reg r l = steppedReg op j r l) ∧
    EnteredHandler j { code := 0x0B, pc := j.p.pc, res := j.next op, val := (j.av op j.leader).zeroExtend 64 } s2 t
/-- BKPT takes trap BKPT where the context has no debugger, and resumes past itself; with one, the split's team stops, READY past the BKPT
(R289, 25 R468). -/
def BreakpointDone (ex : State → Out) (op : Op) : Prop :=
  ∀ s j s1, Issues op [] s j s1 →
    ((ctxOf s1 j.l.ctx).debug = false → CanTrap j → ∃ t, ex s = .next t ∧
      EnteredHandler j { code := 0x0A, pc := j.p.pc, res := j.next op } s1 t) ∧
    ((ctxOf s1 j.l.ctx).debug = true → (j.m.st = .running ∨ j.m.st = .trapped) → j.p.stopped = false →
      ∃ t m p, ex s = .next t ∧ teamOf t j.b j.t = some m ∧ m.st = .stopped ∧ m.regs = j.m.regs ∧ Tbl.get m.splits j.e = some p ∧
        m.cause = some .bkpt ∧ p.stopped = true ∧ p.st = .ready ∧ p.pc = j.next op ∧ p.mask = j.p.mask)
/-- YIELD goes on and is the youngest: its stamp is the step's own (R290). -/
def YieldDone (ex : State → Out) (op : Op) : Prop :=
  ∀ s j s1, Issues op [] s j s1 → ∃ t, ex s = .next t ∧ WentTo j (j.next op) s1 t ∧
    ∃ m p, teamOf t j.b j.t = some m ∧ Tbl.get m.splits j.e = some p ∧ p.stamp = s1.tick

end Sys2Proof.Spec

/-- 13 R288 to R290: TRAP, BKPT and YIELD. -/
def Obligations.TrapsAndYield : Prop :=
  (∀ o, TrapDone (exec (.trapW32 o)) (opW 0x86 o)) ∧ (∀ o, TrapDone (exec (.trapL64 o)) (opL 0x86 o)) ∧
  (∀ o, BreakpointDone (exec (.bkptW32 o)) (opW 0x87 o)) ∧ (∀ o, BreakpointDone (exec (.bkptL64 o)) (opL 0x87 o)) ∧
  (∀ o, YieldDone (exec (.yieldW32 o)) (opW 0x88 o)) ∧ (∀ o, YieldDone (exec (.yieldL64 o)) (opL 0x88 o))

/-! ## The team, its barriers and timelines as 13 R291 to R307, 01 R30 to R32, R35 and 04 R103 to R105 state them -/

namespace Sys2Proof.Spec

/-- The split stands at an address in a state of its own, its lanes together; nothing else of the machine changed. -/
def Parks (j : Iss) (st : SplitState) (pc : BitVec 56) (s t : State) : Prop :=
  OnlyTeam j.b j.t s t ∧ ∃ m p, teamOf s j.b j.t = some m ∧ Tbl.get m.splits j.e = some p ∧
  ∃ m' p', teamOf t j.b j.t = some m' ∧ m' = { m with splits := m'.splits } ∧ Tbl.get m'.splits j.e = some p' ∧
    OnlySplit j.e m.splits m'.splits ∧ p'.st = st ∧ p'.pc = pc ∧ p'.mask = p.mask ∧ p'.sig = p.sig
/-- The barrier of a number stands: block barriers 0 to 15, the gang's c0 to c3 as 16 to 19 (R291, R295). -/
def HasBarrier (j : Iss) (n : Nat) : Prop :=
  if n < 16 then n < j.k.bars.length else ∃ g, gangOf j.l j.k = some g ∧ n - 16 < g.bars.length
/-- The barrier that BAR names (R291). -/
def barNamed (op : Op) : Nat := if op.o.sc.toNat = 1 then op.o.a.toNat + 16 else op.o.a.toNat
/-- The lanes of the issuing split all stand in an arrived-lane mask. -/
def inAL (j : Iss) (q : BarMember) : Prop := j.p.mask &&& ~~~q.al = 0
/-- Every live lane of the team is in AL once the issuing split has arrived; a team in a handler makes no arrival (R298). -/
def allIn (j : Iss) (q : BarMember) : Bool := j.m.st = .running && liveLanes j.m ≠ 0 && liveLanes j.m &&& ~~~(q.al ||| j.p.mask) = 0
/-- The arrival completes the phase: the last member arrives (01 R31). -/
def releases (r : Barrier) (j : Iss) (q : BarMember) : Bool := allIn j q && (r.a + 1 = r.m)
/-- A split as it was, or READY where it waited at a barrier. -/
def WokenOnly (p q : Split) : Prop :=
  q = p ∨ (∃ i ph, p.st = .waitBar i ph) ∧ q = { p with st := .ready, held := none, since := q.since }
/-- A team changed in its memberships and in splits that waited at barriers alone; a slot of such a deferred split is to be written. -/
def BarsOnly (m m' : Team) : Prop :=
  m' = { m with splits := m'.splits, defer := m'.defer, stale := m'.stale, bars := m'.bars } ∧
  (∀ e, Tbl.get m.splits e = none → Tbl.get m'.splits e = none) ∧
  (∀ e p, Tbl.get m.splits e = some p → ∃ q, Tbl.get m'.splits e = some q ∧ WokenOnly p q) ∧
  m'.defer.length = m.defer.length ∧ ∀ (i : Nat) p, m.defer[i]? = some p → ∃ q, m'.defer[i]? = some q ∧ WokenOnly p q
/-- What an operation on barriers by the issuing team may change: the barriers of its block and gang, its memberships, and splits that wait
at barriers. Every byte of memory, every register and everything else of the machine is as it was. -/
def BarriersOnly (j : Iss) (s t : State) : Prop :=
  t = { s with blocks := t.blocks, launches := t.launches } ∧
  (∀ b, Tbl.get s.blocks b = none → Tbl.get t.blocks b = none) ∧
  (∀ b k, Tbl.get s.blocks b = some k → ∃ k', Tbl.get t.blocks b = some k' ∧ k' = { k with bars := k'.bars, teams := k'.teams } ∧
    (b ≠ j.b → k'.bars = k.bars) ∧ (∀ u, Tbl.get k.teams u = none → Tbl.get k'.teams u = none) ∧
    ∀ u m, Tbl.get k.teams u = some m → ∃ m', Tbl.get k'.teams u = some m' ∧ BarsOnly m m' ∧ (b ≠ j.b ∨ u ≠ j.t → m'.bars = m.bars)) ∧
  (∀ n, Tbl.get s.launches n = none → Tbl.get t.launches n = none) ∧
  ∀ n l, Tbl.get s.launches n = some l → ∃ l', Tbl.get t.launches n = some l' ∧ l' = { l with gangs := l'.gangs } ∧
    l'.gangs.length = l.gangs.length ∧ ∀ (i : Nat) g, l.gangs[i]? = some g → ∃ g', l'.gangs[i]? = some g' ∧ g' = { g with bars := g'.bars } ∧
      (n ≠ j.k.launch ∨ g.idx ≠ j.k.gang ∨ g.copy ≠ j.k.copy → g'.bars = g.bars)
/-- An arrival by the issuing split of a member team (R292, 01 R31): AL takes its lanes; with every live lane in AL, AL is emptied, LP is the
current phase and the team arrives; the last member's arrival releases the phase, and every split of the block that waits for it is READY. -/
def Arrived (j : Iss) (n : Nat) (q : BarMember) (s t : State) : Prop :=
  let r := barOf s j.b n
  BarriersOnly j s t ∧ (∀ m, teamOf s j.b j.t = some m → ∃ m', teamOf t j.b j.t = some m' ∧ m'.regs = m.regs ∧
    Tbl.get m'.bars n = some (if allIn j q then { al := 0, lp := some r.phase } else { al := q.al ||| j.p.mask, lp := q.lp }) ∧
    ∀ i, i ≠ n → Tbl.get m'.bars i = Tbl.get m.bars i) ∧
  barOf t j.b n = (if releases r j q then { m := r.m, a := 0, phase := r.phase + 1 } else if allIn j q then { r with a := r.a + 1 } else r) ∧
  (∀ i, i ≠ n → barOf t j.b i = barOf s j.b i) ∧
  (releases r j q = true → ∀ u m e p, teamOf s j.b u = some m → Tbl.get m.splits e = some p → p.st = .waitBar n r.phase →
    ∃ m' p', teamOf t j.b u = some m' ∧ Tbl.get m'.splits e = some p' ∧ p'.st = .ready ∧ p'.mask = p.mask ∧ p'.pc = p.pc)
/-- BAR (R291 to R294). -/
def BarDone (ex : State → Out) (op : Op) : Prop :=
  ∀ s j s1, Issues op [] s j s1 → HasBarrier j (barNamed op) →
    let n := barNamed op
    let r := barOf s1 j.b n
    (Tbl.get j.m.bars n = none → Traps ex j { code := 0x0E, aux := n, reason := if op.o.f.toNat = 1 then 2 else 1 } s1 s) ∧
    ∀ q, Tbl.get j.m.bars n = some q →
      (op.o.f.toNat ≠ 1 → (inAL j q ∨ q.lp = some r.phase) → ∃ t, ex s = .next t ∧ Parks j (.waitBar n r.phase) j.p.pc s1 t) ∧
      (op.o.f.toNat ≠ 1 → ¬ inAL j q → q.lp ≠ some r.phase → ∃ s2 t, Arrived j n q s1 s2 ∧ ex s = .next t ∧
        (if op.o.f.toNat = 0 ∨ releases r j q = true then WentTo j (j.next op) s2 t
         else Parks j (.waitBar n r.phase) (j.next op) s2 t)) ∧
      (op.o.f.toNat = 1 → inAL j q → ∃ t, ex s = .next t ∧ Parks j (.waitBar n r.phase) (j.next op) s1 t) ∧
      (op.o.f.toNat = 1 → ¬ inAL j q → ∀ ph, q.lp = some ph → ∃ t, ex s = .next t ∧
        (if ph < r.phase then WentTo j (j.next op) s1 t else Parks j (.waitBar n ph) (j.next op) s1 t)) ∧
      (op.o.f.toNat = 1 → ¬ inAL j q → q.lp = none → Traps ex j { code := 0x0E, aux := n, reason := 3 } s1 s)

/-- The barrier mask of ATTACH and DETACH (R296). -/
def barMask (j : Iss) (op : Op) : Word := j.av op j.leader
/-- A barrier after a member has left it (01 R31): a counted arrival is withdrawn, and the phase is released if every remaining member has
arrived. -/
def leftBarrier (r : Barrier) (q : BarMember) : Barrier :=
  let a := if q.lp = some r.phase then r.a - 1 else r.a
  if 0 < r.m - 1 ∧ a = r.m - 1 then { m := r.m - 1, a := 0, phase := r.phase + 1 } else { r with m := r.m - 1, a := a }
/-- ATTACH makes the team a member of each barrier named, and DETACH ends its memberships (R296, R297, 01 R31); nothing else changes but
splits that waited at those barriers. A reserved bit is ILLOP, and nothing is popped (09 R224). -/
def MembershipDone (ex : State → Out) (op : Op) : Prop :=
  ∀ s j s1, Issues op [2] s j s1 →
    let v := barMask j op
    (v.toNat / 2 ^ 20 ≠ 0 → Traps ex j { code := 0x01, parcel := op.parcel, field := 2 } s s) ∧
    (v.toNat / 2 ^ 20 = 0 → (∀ n, n < 20 → v.getLsbD n → HasBarrier j n ∧ (barOf s1 j.b n).a ≤ (barOf s1 j.b n).m) →
      (op.o.f.toNat = 0 → ∃ s2 t m, ex s = .next t ∧ BarriersOnly j s1 s2 ∧ PlainDone op j s2 t ∧ teamOf s2 j.b j.t = some m ∧ ∀ n, n < 20 →
        Tbl.get m.bars n = (if v.getLsbD n ∧ Tbl.get j.m.bars n = none then some { al := 0, lp := none } else Tbl.get j.m.bars n) ∧
        barOf s2 j.b n = (if v.getLsbD n ∧ Tbl.get j.m.bars n = none then { barOf s1 j.b n with m := (barOf s1 j.b n).m + 1 } else barOf s1 j.b n)) ∧
      (op.o.f.toNat ≠ 0 → (∀ n, n < 20 → v.getLsbD n → Tbl.get j.m.bars n ≠ none) →
        ∃ s2 t m, ex s = .next t ∧ BarriersOnly j s1 s2 ∧ PlainDone op j s2 t ∧ teamOf s2 j.b j.t = some m ∧ ∀ n, n < 20 →
          Tbl.get m.bars n = (if v.getLsbD n then none else Tbl.get j.m.bars n) ∧
          barOf s2 j.b n = (match (if v.getLsbD n then Tbl.get j.m.bars n else none) with
            | some q => leftBarrier (barOf s1 j.b n) q
            | none => barOf s1 j.b n))) ∧
    (v.toNat / 2 ^ 20 = 0 → op.o.f.toNat ≠ 0 → ∀ n, (((List.range 20).filter (fun n => v.getLsbD n && (Tbl.get j.m.bars n).isNone)).head? = some n) →
      Traps ex j { code := 0x0E, aux := n, reason := 4 } s1 s)

/-- A team as GROW grants it (R299, 01 R30, R33): every lane live in one split READY at JENTRY, every register zero, no barrier. -/
def Granted (l : Launch) (m : Team) : Prop :=
  m.st = .running ∧ m.width = l.lr.width ∧ m.nregs = l.lr.regs ∧ (∀ r k, m.reg r k = 0) ∧ m.ex = 0 ∧ m.dead = 0 ∧ m.bars = [] ∧ m.dq = [] ∧
  m.joins = [] ∧ m.defer = [] ∧ m.trap = none ∧
  ∃ p, m.splits = [(0, p)] ∧ p.mask = allLanes l.lr.width ∧ p.pc = l.lr.jentry ∧ p.st = .ready
/-- The teams of the launch's size that datapath `d` of the block's core can still take (17 R377, 01 R30): fewer than T(d) teams stand on it,
each counted at full size, and the sum of the sizes is at most 65,536 lane-registers (the sum is the model's reading, log 45). A datapath out
of service takes none. -/
def datapathTakes (s : State) (j : Iss) (d : Nat) : Nat :=
  let on := teamsOn s j.k.core d
  let size := j.l.lr.width * j.l.lr.regs
  if s.mgmt.out.contains (.datapath (4 * j.k.core + d)) then 0
  else min (min 8 (65536 / size) - on.length) ((65536 - (on.map (fun m => m.width * m.nregs)).sum) / size)
/-- The count that GROW grants (01 R30): the least of the request, at most 15; MAXT less the live teams, which is the number of indices that
hold none; and what fits. None with a shrink request pending or no JENTRY. -/
def grantOf (s : State) (j : Iss) (n : Nat) : Nat :=
  if j.k.shrink ≠ none ∨ j.l.lr.jentry = 0 then 0
  else min (min 15 n) (min ((List.range j.l.lr.maxt).filter (fun i => !(liveTeams j.k).contains i)).length
    (((List.range 4).map (datapathTakes s j)).sum))
/-- GROW grants that many teams, on the lowest team indices that hold no live team, and writes their number to every executing lane (R299,
01 R30). -/
def GrowDone (ex : State → Out) (op : Op) : Prop :=
  ∀ s j s1, Issues op [2] s j s1 → j.l.lr.maxt ≤ 16 → Ordered s1.blocks → Ordered j.k.teams → blockResident j.k = true → ∃ s2 t k2,
    let g := grantOf s1 j (j.av op j.leader).toNat
    Tbl.get s2.blocks j.b = some k2 ∧ s2 = { s1 with blocks := s2.blocks } ∧
    (let free := ((List.range j.l.lr.maxt).filter (fun i => !(liveTeams j.k).contains i)).take g
     free.length = g ∧ (∀ i ∈ free, ∃ m, Tbl.get k2.teams i = some m ∧ Granted j.l m) ∧
       ∀ i, i ∉ free → i ≠ j.t → Tbl.get k2.teams i = Tbl.get j.k.teams i) ∧
    ex s = .next t ∧ LanesDone op j (fun _ => .word (BitVec.ofNat 32 g)) s2 t
/-- The count of the pending shrink request, or 0 (01 R32). -/
def pendingShrink (k : Block) : Nat :=
  match k.shrink with
  | some q => q.c
  | none => 0
/-- SHRQ writes the pending count of the shrink request, or 0 (R300). -/
def ShrinkQueryDone (ex : State → Out) (op : Op) : Prop :=
  ∀ s j s1, Issues op [] s j s1 → ∃ t, ex s = .next t ∧ LanesDone op j (fun _ => { val := BitVec.ofNat 128 (pendingShrink j.k), fl := 0 }) s1 t

/-- V of a timeline: numbered below 4096, the block's own copy, matrix and matrix-vector timelines from 0x1000 (04 R103). -/
def timelineValue (s : State) (j : Iss) (sel : Nat) : Nat :=
  if sel = 0x1000 then j.k.copyTl.v else if sel = 0x1001 then j.k.mmaTl.v else if sel = 0x1002 then j.k.mvTl.v
  else (Tbl.getD (ctxOf s j.l.ctx).tls sel { n := 0, v := 0 }).v
/-- The selector that TLWAIT, TLREAD and TLSIG name (04 R103). -/
def selNamed (j : Iss) (op : Op) : Nat := (j.bv op j.leader).toNat
/-- TLWAIT waits for a value below n, else writes what it read; the test writes whether it is reached (R301). -/
def TlwaitDone (ex : State → Out) (op : Op) : Prop :=
  ∀ s j s1, Issues op [2, 3] s j s1 →
    let v := timelineValue s1 j (selNamed j op)
    let n := (j.a64 op j.leader).toNat
    (selNamed j op < 0x1003 → op.o.f.toNat = 0 → v < n → ∃ t, ex s = .next t ∧ Waits j j.doneLanes s1 t) ∧
    (selNamed j op < 0x1003 → op.o.f.toNat = 0 → n ≤ v → ∃ t, ex s = .next t ∧ LanesDone op j (fun _ => .word (BitVec.ofNat 32 v)) s1 t) ∧
    (selNamed j op < 0x1003 → op.o.f.toNat ≠ 0 → ∃ t, ex s = .next t ∧ LanesDone op j (fun _ => .word (if n ≤ v then 1 else 0)) s1 t) ∧
    (0x1003 ≤ selNamed j op → Traps ex j { code := 0x01, parcel := op.parcel } s s)
/-- TLREAD writes V to every executing lane's pair; a reserved selector is ILLOP, and nothing is popped (R302, 04 R103, 09 R224). -/
def TlreadDone (ex : State → Out) (op : Op) : Prop :=
  ∀ s j s1, Issues op [3] s j s1 →
    (selNamed j op < 0x1003 → ∃ t, ex s = .next t ∧
      LanesDone op j (fun _ => { val := BitVec.ofNat 128 (timelineValue s1 j (selNamed j op)), fl := 0 }) s1 t) ∧
    (0x1003 ≤ selNamed j op → Traps ex j { code := 0x01, parcel := op.parcel } s s)
/-- A numbered timeline of context `x` raised to a value (04 R104, R105): V is the greater; no other timeline, no block and no byte of
device memory changes. -/
def Raised (x sel v : Nat) (s t : State) : Prop :=
  (∀ q, tlValue t x q = if q = sel then max (tlValue s x sel) v else tlValue s x q) ∧ t.blocks = s.blocks ∧ t.launches = s.launches ∧
  t.mem = s.mem ∧ t.spad = s.spad ∧ t.chip = s.chip ∧ ∀ y, y ≠ x → ctxOf t y = ctxOf s y
/-- TLSIG raises a software-owned numbered timeline; under COMMIT 1 to 3 the signal is held back with the unit's publications; any other
owner or an aliased selector is ACCESS; a reserved selector is ILLOP (R303, 04 R103). -/
def TlsigDone (ex : State → Out) (op : Op) : Prop :=
  ∀ s j s1, Issues op [2, 3] s j s1 →
    let sel := selNamed j op
    let v := (j.a64 op j.leader).toNat
    (sel < 4096 → tlOwner (ctxOf s1 j.l.ctx) sel = .software → j.l.lr.commit = 0 →
      ∃ s2 t, ex s = .next t ∧ Raised j.l.ctx sel v s1 s2 ∧ PlainDone op j s2 t) ∧
    (sel < 4096 → tlOwner (ctxOf s1 j.l.ctx) sel = .software → j.l.lr.commit = 1 →
      ∃ s2 t, ex s = .next t ∧ PlainDone op j s2 t ∧ s2 = putLaunch s1 j.k.launch { j.l with pubs := j.l.pubs ++ [(j.k.pos, .tlsig sel v)] }) ∧
    (sel < 4096 → tlOwner (ctxOf s1 j.l.ctx) sel = .software → 2 ≤ j.l.lr.commit → ∀ g, gangOf j.l j.k = some g →
      ∃ s2 t l2 g2, ex s = .next t ∧ PlainDone op j s2 t ∧ s2 = { s1 with launches := s2.launches } ∧ Tbl.get s2.launches j.k.launch = some l2 ∧
        gangOf l2 j.k = some g2 ∧ g2 = { g with pubs := g.pubs ++ [(j.k.pos, .tlsig sel v)] }) ∧
    (sel < 0x1003 → 4096 ≤ sel ∨ tlOwner (ctxOf s1 j.l.ctx) sel ≠ .software → Traps ex j { code := 0x08 } s1 s) ∧
    (0x1003 ≤ sel → Traps ex j { code := 0x01, parcel := op.parcel } s s)

end Sys2Proof.Spec

/-- 13 R291 to R294, R296, R297, R299, R300 with 01 R30, R31, R33: BAR arrives, waits or does both; ATTACH, DETACH; GROW and SHRQ. -/
def Obligations.BarriersAndMembership : Prop :=
  (∀ o, BarDone (exec (.barW32 o)) (opW 0x90 o)) ∧ (∀ o, BarDone (exec (.barL64 o)) (opL 0x90 o)) ∧
  (∀ o, MembershipDone (exec (.attachW32 o)) (opW 0x91 o)) ∧ (∀ o, MembershipDone (exec (.attachL64 o)) (opL 0x91 o)) ∧
  (∀ o, MembershipDone (exec (.detachW32 o)) (opW 0x91 o)) ∧ (∀ o, MembershipDone (exec (.detachL64 o)) (opL 0x91 o)) ∧
  (∀ o, GrowDone (exec (.growW32 o)) (opW 0x92 o)) ∧ (∀ o, GrowDone (exec (.growL64 o)) (opL 0x92 o)) ∧
  (∀ o, ShrinkQueryDone (exec (.shrqW32 o)) (opW 0x92 o)) ∧ (∀ o, ShrinkQueryDone (exec (.shrqL64 o)) (opL 0x92 o))

/-- 13 R301 to R303 with 04 R103 to R105: TLWAIT, TLREAD and TLSIG. -/
def Obligations.Timelines : Prop :=
  (∀ o, TlwaitDone (exec (.tlwaitW32 o)) (opW 0x93 o)) ∧ (∀ o, TlwaitDone (exec (.tlwaitL64 o)) (opL 0x93 o)) ∧
  (∀ o, TlreadDone (exec (.tlreadW32 o)) (opW 0x94 o)) ∧ (∀ o, TlreadDone (exec (.tlreadL64 o)) (opL 0x94 o)) ∧
  (∀ o, TlsigDone (exec (.tlsigW32 o)) (opW 0x95 o)) ∧ (∀ o, TlsigDone (exec (.tlsigL64 o)) (opL 0x95 o))

/-- 13 R304, R305 with 02 R52, R53: XSET writes an index register of the team once its checks pass, and traps ILLOP or IDXBOUND where they
fail; XGET reads one. R304 names IDXBOUND for a bad window alone: that its record has AUX the index register's number, field a and lane 0
is the model's choice (log 40). -/
def Obligations.IndexRegisters : Prop :=
  (∀ o s j s1, Issues (opL 0x96 o) [2] s j s1 →
    let d := j.av (opL 0x96 o) j.leader
    let n := o.d.toNat - 0xF8
    let base := d.toNat % 256
    let bound := d.toNat / 2 ^ 8 % 256
    let home := d.toNat / 2 ^ 16 % 256
    let inWin := bound ≠ 0 ∧ base ≤ home ∧ home < base + bound
    (d.toNat / 2 ^ 28 ≠ 0 ∨ 240 ≤ home → Traps (exec (.xset o)) j { code := 0x01, parcel := (opL 0x96 o).parcel } s s) ∧
    (d.toNat / 2 ^ 28 = 0 → home < 240 → (j.m.nregs ≤ home ∨ j.m.nregs < base + bound ∨ inWin) →
      Traps (exec (.xset o)) j { code := 0x03, aux := n, field := 2 } s1 s) ∧
    (d.toNat / 2 ^ 28 = 0 → home < 240 → home < j.m.nregs → base + bound ≤ j.m.nregs → ¬ inWin →
      ∃ s2 t, exec (.xset o) s = .next t ∧ PlainDone (opL 0x96 o) j s2 t ∧ OnlyTeam j.b j.t s1 s2 ∧
        ∀ m, teamOf s1 j.b j.t = some m → teamOf s2 j.b j.t = some { m with xr := m.xr.set n d })) ∧
  (∀ o s j s1, Issues (opL 0x96 o) [] s j s1 → ∃ t, exec (.xget o) s = .next t ∧
    LanesDone (opL 0x96 o) j (fun _ => .word (j.xs.getD (o.a.toNat - 0xF8) 0)) s1 t)

namespace Sys2Proof.Spec

/-- PUSHD appends k[a] to the decision queue of a live team, waits while it holds 16 entries, and is discarded for an index with no live
team, and where its team ended while it waited (R307, 01 R35). -/
def PushDone (ex : State → Out) (op : Op) : Prop :=
  ∀ s j s1, Issues op [] s j s1 →
    let u := (j.bv op 0).toNat
    let gone := j.p.line.any (fun q => q.1 = .discarded)
    (u ∉ liveTeams j.k ∨ gone = true → ∃ t, ex s = .next t ∧ PlainDone op j s1 t) ∧
    (u ∈ liveTeams j.k → gone = false → ∀ m, Tbl.get j.k.teams u = some m →
      (16 ≤ m.dq.length → ∃ t, ex s = .next t ∧ StandsInLine j (.room u) s1 t) ∧
      (m.dq.length < 16 → u ≠ j.t → ∃ s2 t, ex s = .next t ∧ OnlyTeam j.b u s1 s2 ∧
        teamOf s2 j.b u = some { m with dq := m.dq ++ [j.a op 0] } ∧ PlainDone op j s2 t))

end Sys2Proof.Spec

/-- 13 R307 with 01 R35: PUSHD. -/
def Obligations.DecisionQueue : Prop :=
  (∀ o, PushDone (exec (.pushdW32 o)) (opW 0x97 o)) ∧ (∀ o, PushDone (exec (.pushdL64 o)) (opL 0x97 o))

/-! ## Engine instructions as 14 R308 to R327, 04 and 05 state them -/

namespace Sys2Proof.Spec

/-- The last `n` signature-free change of one team: the rest of the machine is as it was. -/
def TeamBecame (j : Iss) (f : Team → Team) (s t : State) : Prop :=
  OnlyTeam j.b j.t s t ∧ ∀ m, teamOf s j.b j.t = some m → teamOf t j.b j.t = some (f m)
/-- Outstanding CPY32s of a tag (04 R112). -/
def outstanding (m : Team) (tag : Nat) : Nat := m.copies.countP (fun c => c.tag = tag)
/-- A timeline of the issuing block (04 R103). -/
def ownTimeline (k : Block) (sel : Nat) : Timeline := if sel = 0x1000 then k.copyTl else if sel = 0x1001 then k.mmaTl else k.mvTl
/-- A command accepted on a timeline of the issuing block takes the next number, stands in the block's list, and changes nothing else (14
R312, 04 R104). -/
def Accepted (j : Iss) (sel : Nat) (what : EngOp) (s t : State) : Prop :=
  OnlyBlock j.b s t ∧ ∃ k k' c, Tbl.get s.blocks j.b = some k ∧ Tbl.get t.blocks j.b = some k' ∧
    k' = { k with copyTl := k'.copyTl, mmaTl := k'.mmaTl, mvTl := k'.mvTl, cmds := k.cmds ++ [c] } ∧
    ownTimeline k' sel = { ownTimeline k sel with n := (ownTimeline k sel).n + 1 } ∧
    (∀ q, q ≠ sel → 0x1000 ≤ q → q ≤ 0x1002 → 0x1000 ≤ sel → sel ≤ 0x1002 → ownTimeline k' q = ownTimeline k q) ∧
    c.tl = sel ∧ c.num = (ownTimeline k sel).n + 1 ∧ c.team = j.t ∧ c.op = what ∧ c.finished = false ∧ c.stalled = false ∧ c.doneElems = []
/-- The instruction completes with the number of its command in the leader's pair d (14 R312). -/
def NumberDone (op : Op) (j : Iss) (sel : Nat) (fl : BitVec 8) (s t : State) : Prop :=
  Completed op j (leaderDest op j (BitVec.ofNat 128 ((ownTimeline j.k sel).n + 1))) fl s t

/-- What CPY32 records of a lane: its destination offset and, for each of the 32 bytes, where its source lies while it is below the valid
count, which is at most 32; the bytes from there on have no source, and are zero (R110). -/
def copiedLane (s : State) (j : Iss) (op : Op) (l : Nat) : Nat × List (Option Nat) :=
  ((j.a op l).toNat, (List.range 32).map (fun q =>
    if q < (j.c op l).toNat then (placeOf s j.l.ctx (targetOf s j op.o.rm.toNat ((j.b64 op l).toNat + q) 1 l false false)).map Phys.num else none))
/-- CPY32 whose checks pass and whose sources translate is accepted as a whole: one copy more of its tag, with each executing lane's
destination and the places of its valid source bytes, no line filled yet; a tag with 63 outstanding makes it wait (14 R313, 04 R110-R112). -/
def CopyLanesDone (ex : State → Out) (op : Op) : Prop :=
  ∀ s j s1 s2, Issues op [] s j s1 → cpyTrap s1 j op = none →
    AsksGo j.l.ctx j.failedPages s1 (j.lanes.flatMap (fun l => (List.range (min (j.c op l).toNat 32)).map (fun q =>
      { lane := l, tgt := targetOf s1 j op.o.rm.toNat ((j.b64 op l).toNat + q) 1 l false false, need := needR }))) s2 →
    OnlyCaches s1 s2 ∧
    (63 ≤ outstanding j.m op.o.f.toNat → ∃ t, ex s = .next t ∧ Waits j j.doneLanes s2 t) ∧
    (outstanding j.m op.o.f.toNat < 63 → ∃ c s3 t, ex s = .next t ∧ PlainDone op j s3 t ∧
      TeamBecame j (fun m => { m with copies := m.copies ++ [c] }) s2 s3 ∧ c.tag = op.o.f.toNat ∧ c.fe = (op.o.sc.toNat = 1) ∧
      c.space = op.o.rm.toNat ∧ c.lanes = j.lanes.map (copiedLane s2 j op) ∧ c.doneLines = [])
/-- WAITTAG goes on once the tag's count is at most n (14 R314). -/
def WaittagDone (ex : State → Out) (op : Op) : Prop :=
  ∀ s j s1, Issues op [] s j s1 →
    (outstanding j.m op.o.a.toNat ≤ op.o.b.toNat → ∃ t, ex s = .next t ∧ PlainDone op j s1 t) ∧
    (op.o.b.toNat < outstanding j.m op.o.a.toNat → ∃ t, ex s = .next t ∧ Waits j j.doneLanes s1 t)

/-- The bytes of a record at an aligned address, each 64-byte piece of which translates for reading, or lies in a map (04 R107, R114). -/
def RecordReads (j : Iss) (a n : Nat) (s s2 : State) (bs : List Byte) : Prop :=
  a % 64 = 0 ∧
  AsksGo j.l.ctx j.failedPages s ((List.range (n / 64)).map (fun k =>
    { lane := j.leader, tgt := globalTarget s j.l.ctx (a + 64 * k) true, need := needR })) s2 ∧
  bs = (List.range (n / 64)).flatMap (fun k => readRecord s2 j.b j.l.ctx (a + 64 * k) 64)
/-- The coordinates of TCOPY (14 R315). -/
def coordinates (j : Iss) (op : Op) (rank : Nat) : List Int :=
  (List.range rank).map (fun k => (j.m.reg (j.regNo op.o.c.toNat j.leader + k) j.leader).toInt)
/-- The pair of a lane's registers from the k-th of those that c names on: a 64-bit operand of the sealed form (14 R315, 04 R119). -/
def sealedPair (j : Iss) (op : Op) (k : Nat) : DWord :=
  j.m.reg (j.regNo op.o.c.toNat j.leader + k + 1) j.leader ++ j.m.reg (j.regNo op.o.c.toNat j.leader + k) j.leader
/-- The place of a store's records is kept in its split's signature under COMMIT 3: as many zero bytes, to which the data are added when the
engine has written them (25 R474, log 13). -/
def RecordsOwed (j : Iss) (num n : Nat) (s t : State) : Prop :=
  OnlyTeam j.b j.t s t ∧ ∃ m p, teamOf s j.b j.t = some m ∧ Tbl.get m.splits j.e = some p ∧ ∃ m', teamOf t j.b j.t = some m' ∧
    m' = { m with splits := m'.splits } ∧ OnlySplit j.e m.splits m'.splits ∧
    Tbl.get m'.splits j.e = some { p with sig := crc64 p.sig (List.replicate (32 * n) 0),
                                          owed := p.owed.map (fun c => (c.1, c.2 + 32 * n)) ++ [(num, 0)] }
/-- TCOPY whose record reads and whose checks pass is accepted, with its direction, layout, coordinates and offset, and, sealed, the version
in c + 6, c + 7 and the address of its version word in c + 8, c + 9; under COMMIT 3 a store keeps a place in the signature for a record of each element that lies in the tensor (14 R315, 04 R114-R119, 25 R474). -/
def TensorCopyDone (ex : State → Out) (op : Op) : Prop :=
  ∀ s j s1 s2 bs, Issues op [2, 3, 4] s j s1 → RecordReads j (j.a64 op j.leader).toNat 64 s1 s2 bs →
    let y := parseLayout bs
    let cs := coordinates j op y.rank
    coordsMissing j op y = false → tcopyReason j op bs cs = none → j.k.copyTl.n < 2 ^ 64 - 1 →
    let n := (elemsIn y cs).length
    let isSealed : Bool := decide (op.o.f.toNat = 2)
    ∃ s3 s4 t, ex s = .next t ∧ OnlyCaches s1 s2 ∧
      Accepted j 0x1000 (.tcopy (op.o.f.toNat ≠ 0) isSealed y cs (j.bv op j.leader).toNat (if isSealed then sealedPair j op 6 else 0)
        (if isSealed then (sealedPair j op 8).toNat else 0)) s2 s3 ∧
      (if op.o.f.toNat ≠ 0 ∧ j.l.lr.commit = 3 ∧ n ≠ 0 then RecordsOwed j (j.k.copyTl.n + 1) n s3 s4 else s4 = s3) ∧
      NumberDone op j 0x1000 0 s4 t
/-- MCAST whose checks pass is accepted with its control quad and the expected generations (14 R316, 04 R122). -/
def MulticastDone (ex : State → Out) (op : Op) : Prop :=
  ∀ s j s1, Issues op [2, 3, 4] s j s1 → mcastTrap j op = none → j.k.copyTl.n < 2 ^ 64 - 1 →
    ∃ s2 t, ex s = .next t ∧ NumberDone op j 0x1000 0 s2 t ∧
      Accepted j 0x1000 (.mcast (mcastWord j op 0) (mcastWord j op 1) (mcastWord j op 2) (mcastWord j op 3) (mcastGens j op)
        (j.bv op j.leader).toNat []) s1 s2

end Sys2Proof.Spec

/-- 14 R312 to R316 with 04 R104, R110 to R125: CPY32, WAITTAG, TCOPY and MCAST. -/
def Obligations.CopyInstructions : Prop :=
  (∀ o, CopyLanesDone (exec (.cpy32 o)) (opL 0x65 o)) ∧
  (∀ o, WaittagDone (exec (.waittagW32 o)) (opW 0x66 o)) ∧ (∀ o, WaittagDone (exec (.waittagL64 o)) (opL 0x66 o)) ∧
  (∀ o, TensorCopyDone (exec (.tcopy o)) (opL 0x67 o)) ∧ (∀ o, MulticastDone (exec (.mcast o)) (opL 0x68 o))

namespace Sys2Proof.Spec

/-- A run of a core's scratchpad is free: inside it, and off every allocation that stands on the core (14 R318). -/
def freeRun (s : State) (core off n : Nat) : Prop :=
  off + n ≤ 524288 ∧ ∀ b k, (b, k) ∈ s.blocks → k.core = core → k.st ≠ .saved → k.st ≠ .complete →
    ∀ a ∈ k.allocs, off + n ≤ a.off ∨ a.off + a.len ≤ off
/-- SPALLOC (14 R317, R318): ACCESS for a size or control word out of range; the null handle with 16 allocations or no free run; else the
lowest free run, its bytes zero and its lines empty, under the core's next generation, with its handle in every executing lane. -/
def SpallocDone (ex : State → Out) (op : Op) : Prop :=
  ∀ s j s1, Issues op [2, 3] s j s1 →
    let n := (j.a op j.leader).toNat
    let w := (j.bv op j.leader).toNat
    let fits := 128 ≤ n ∧ n ≤ 524288 ∧ n % 128 = 0 ∧ w < 8
    (¬ fits → Traps ex j { code := 0x08 } s1 s) ∧
    (fits → (16 ≤ j.k.allocs.length ∨ ∀ off, ¬ freeRun s1 j.k.core off n) → ∃ t, ex s = .next t ∧ LanesDone op j (fun _ => .word 0) s1 t) ∧
    (fits → j.k.allocs.length < 16 → (∃ off, freeRun s1 j.k.core off n) →
      ∃ off s2 t k k' a, freeRun s1 j.k.core off n ∧ (∀ q, q < off → ¬ freeRun s1 j.k.core q n) ∧
        Tbl.get s1.blocks j.b = some k ∧ Tbl.get s2.blocks j.b = some k' ∧ k' = { k with allocs := k.allocs ++ [a] } ∧
        a.off = off ∧ a.len = n ∧ a.span = w ∧ a.busy = false ∧ a.gen = (coreOf s1 j.k.core).gen ∧
        (coreOf s2 j.k.core).gen = (if a.gen = 65535 then 1 else a.gen + 1) ∧
        (∀ q, Sparse.get (w := 8) s2.spad q = if j.k.core * 524288 + off ≤ q ∧ q < j.k.core * 524288 + off + n then 0 else Sparse.get (w := 8) s1.spad q) ∧
        s2 = { s1 with blocks := s2.blocks, cores := s2.cores, spad := s2.spad, spadPoison := s2.spadPoison, full := s2.full } ∧
        ex s = .next t ∧ LanesDone op j (fun _ => .word (BitVec.ofNat 32 (a.gen * 65536 + a.span * 4096 + a.off / 128))) s2 t)
/-- SPFREE (14 R319): the allocation that the handle matches is busy, the free's own step kept with the commands of the block that have not
completed and the CPY32s that have been accepted, and the split waits, until the free has taken effect; a handle that matches none is
ACCESS. -/
def SpfreeDone (ex : State → Out) (op : Op) : Prop :=
  ∀ s j s1, Issues op [2] s j s1 →
    (∀ g, j.p.held.bind (fun h => h.spgen) = some g → (∀ a ∈ j.k.allocs, a.gen ≠ g) → ∃ t, ex s = .next t ∧ PlainDone op j s1 t) ∧
    (j.p.held.bind (fun h => h.spgen) = none → (∀ a ∈ j.k.allocs, a.busy = true ∨ a.handle ≠ j.a op j.leader) →
      Traps ex j { code := 0x08 } s1 s) ∧
    (j.p.held.bind (fun h => h.spgen) = none → ∀ a, (j.k.allocs.filter (fun a => !a.busy && a.handle = j.a op j.leader)).head? = some a →
      ∃ s2 t k', ex s = .next t ∧ OnlyBlock j.b s1 s2 ∧ Waits j 0 s2 t ∧ Tbl.get s2.blocks j.b = some k' ∧
        ∀ q ∈ k'.allocs, q.gen = a.gen → q.busy = true ∧ q.freedAt = s1.tick ∧
          (∀ c ∈ j.k.cmds, c.finished = false → (c.tl, c.num) ∈ q.waitCmds) ∧ ∀ u m c, (u, m) ∈ j.k.teams → c ∈ m.copies → c.id ∈ q.waitCopies)
/-- FEMARK (14 R321): ALIGN, then ACCESS; then every line of the range is full, or empty, and nothing else changes. -/
def FemarkDone (ex : State → Out) (op : Op) : Prop :=
  ∀ s j s1, Issues op [2, 3] s j s1 →
    let a := (j.a op j.leader).toNat
    let n := (j.bv op j.leader).toNat
    (a % 128 ≠ 0 → Traps ex j { code := 0x06, val := BitVec.ofNat 64 a } s1 s) ∧
    (a % 128 = 0 → n % 128 ≠ 0 → Traps ex j { code := 0x06, val := BitVec.ofNat 64 n } s1 s) ∧
    (a % 128 = 0 → n % 128 = 0 → n ≠ 0 → (∀ q ∈ j.k.allocs, ¬ (q.off ≤ a ∧ a + n ≤ q.off + q.len)) →
      Traps ex j { code := 0x08, val := BitVec.ofNat 64 a } s1 s) ∧
    (a % 128 = 0 → n % 128 = 0 → (n = 0 ∨ ∃ q ∈ j.k.allocs, q.off ≤ a ∧ a + n ≤ q.off + q.len) →
      ∃ s2 t, ex s = .next t ∧ PlainDone op j s2 t ∧ s2 = { s1 with full := s2.full } ∧ ∀ line, line ∈ s2.full ↔
        if j.k.core * 4096 + a / 128 ≤ line ∧ line < j.k.core * 4096 + (a + n) / 128 then op.o.f.toNat = 1 else line ∈ s1.full)

end Sys2Proof.Spec

/-- 14 R317 to R321 with 03 R77, R78: SPALLOC, SPFREE and FEMARK. -/
def Obligations.ScratchpadInstructions : Prop :=
  (∀ o, SpallocDone (exec (.spallocW32 o)) (opW 0x69 o)) ∧ (∀ o, SpallocDone (exec (.spallocL64 o)) (opL 0x69 o)) ∧
  (∀ o, SpfreeDone (exec (.spfreeW32 o)) (opW 0x69 o)) ∧ (∀ o, SpfreeDone (exec (.spfreeL64 o)) (opL 0x69 o)) ∧
  (∀ o, FemarkDone (exec (.femarkW32 o)) (opW 0x6A o)) ∧ (∀ o, FemarkDone (exec (.femarkL64 o)) (opL 0x6A o))

namespace Sys2Proof.Spec

/-- The groups of 256 lanes with an executing lane (14 R323). -/
def curdGroups (j : Iss) : List Nat := (List.range 4).filter (fun g => j.lanes.any (fun l => l / 256 = g))
/-- A lane's register after CENC: its residual in c, else its image word in d (14 R323). -/
def cencDest (op : Op) (j : Iss) (r l : Nat) : Option Word :=
  if l ∈ j.lanes then
    if r = j.regNo op.o.c.toNat l then some ((cencGroup j op (l / 256)).resid.getD (l % 256) 0)
    else if r = j.regNo op.o.d.toNat l then some (cencWord op (cencGroup j op (l / 256)) (l % 256)) else none
  else none
/-- The flags of a group that CENC encodes (14 R324). -/
def cencFlags (j : Iss) (op : Op) (l : Nat) : BitVec 8 :=
  (if (cencGroup j op (l / 256)).sat then fSAT else 0) ||| (if (cencGroup j op (l / 256)).psn then fPSN else 0)
/-- The board words and bits that TSET's lanes name (07 R182, R183). -/
def tsetBits (j : Iss) (op : Op) (s : State) (n w : Nat) : Word :=
  j.lanes.foldl (fun v l => if tsetWord s j.l.ctx (address j op l) = some (n, w) then
    v ||| (if op.o.lit.isSome then j.c op l else j.src op.o.b l) else v) 0
/-- The mask of a lane: field B, or field C in the X96 form (R326). -/
def tsetLaneMask (j : Iss) (op : Op) (l : Nat) : Word := if op.o.lit.isSome then j.c op l else j.src op.o.b l
/-- The ORs that TSET holds back, one for each executing lane, in ascending order: the context and word that the lane's address names and
its mask, with the block they come from (R327, R183). -/
def heldOrs (j : Iss) (op : Op) (s : State) : List (Nat × HeldPub) :=
  j.lanes.filterMap (fun l => (tsetWord s j.l.ctx (address j op l)).map (fun q => (j.k.pos, HeldPub.tset q.1 q.2 (tsetLaneMask j op l))))
/-- The record of a held OR: address ea, the mask's four bytes, low first, as data, byte mask 0xF, space 0 (R327, 25 R474). -/
def tsetRecord (j : Iss) (op : Op) (l : Nat) : List Byte :=
  (List.range 8).map (fun k => BitVec.ofNat 8 (address j op l / 256 ^ k)) ++
    (List.range 4).map (fun k => BitVec.ofNat 8 ((tsetLaneMask j op l).toNat / 256 ^ k)) ++ List.replicate 12 0 ++ [0x0F, 0, 0] ++ List.replicate 5 0
/-- TSET whose checks pass (14 R326, R327). Under COMMIT 0 every lane's mask is ORed into the word it names, in the context that holds it.
Under COMMIT 1 each lane's OR is held back with the launch, and under COMMIT 2 and 3 with the block's gang, in issue order after what is held
already; the scoreboards are as they were; under COMMIT 3 each lane adds a record to the split's signature. -/
def TsetDone (ex : State → Out) (op : Op) : Prop :=
  ∀ s j s1, Issues op [] s j s1 → tsetTrap s1 j op = none → ∃ s2 t, ex s = .next t ∧
    Completed op j noDest 0 s2 t (if j.l.lr.commit = 3 then j.lanes.map (tsetRecord j op) else []) ∧
    (j.l.lr.commit = 0 → s2 = { s1 with ccs := s2.ccs } ∧ ∀ n w,
      Sparse.get (ccOf s2 n).board w = Sparse.get (ccOf s1 n).board w ||| tsetBits j op s1 n w) ∧
    (j.l.lr.commit = 1 → s2 = putLaunch s1 j.k.launch { j.l with pubs := j.l.pubs ++ heldOrs j op s1 }) ∧
    (2 ≤ j.l.lr.commit → ∀ g, gangOf j.l j.k = some g → ∃ l2 g2, s2 = { s1 with launches := s2.launches } ∧
      Tbl.get s2.launches j.k.launch = some l2 ∧ gangOf l2 j.k = some g2 ∧ g2 = { g with pubs := g.pubs ++ heldOrs j op s1 })

end Sys2Proof.Spec

/-- 14 R323 to R327: CENC and CDEC complete with the curds and elements that the model computes; TSET sets scoreboard bits, or holds its ORs
back with the unit under COMMIT 1 to 3 and adds its records to the signature under COMMIT 3. -/
def Obligations.CollectiveSignals : Prop :=
  (∀ o s j s1, Issues (opL 0xB0 o) [] s j s1 → (∀ l ∈ j.lanes, cencFlags j (opL 0xB0 o) l &&& fpenMask j.m = 0) →
    ∃ t, exec (.cenc o) s = .next t ∧ Completed (opL 0xB0 o) j (cencDest (opL 0xB0 o) j)
      (j.lanes.foldl (fun f l => f ||| cencFlags j (opL 0xB0 o) l) 0) s1 t) ∧
  (∀ o s j s1, Issues (opL 0xB1 o) [] s j s1 →
    (∀ g ∈ curdGroups j, badCurdByte (o.f.toNat = 1) (cdecImage j (opL 0xB1 o) g) = none) → NoFpTrap j (cdecLane j (opL 0xB1 o)) →
    ∃ t, exec (.cdec o) s = .next t ∧ LanesDone (opL 0xB1 o) j (cdecLane j (opL 0xB1 o)) s1 t) ∧
  (∀ o, TsetDone (exec (.tsetW32 o)) (opW 0xB2 o)) ∧ (∀ o, TsetDone (exec (.tsetL64 o)) (opL 0xB2 o))

/-! ## Accumulators and the matrix engines as 05 R126 to R146 state them -/

namespace Sys2Proof.Spec

/-- A run of `n` banks of a core is free (14 R322). -/
def banksFree (s : State) (core f n : Nat) : Prop :=
  f + n ≤ 128 ∧ ∀ b k, (b, k) ∈ s.blocks → k.core = core → k.st ≠ .saved → k.st ≠ .complete → ∀ h ∈ k.handles, f + n ≤ h.first ∨ h.first + h.count ≤ f
/-- The live handle of the issuing block whose value is the leader's a (05 R127). -/
def Named (j : Iss) (op : Op) (h : Handle) : Prop := (j.k.handles.filter (fun h => h.word = j.a op j.leader)).head? = some h
/-- No live handle has that value. -/
def Unnamed (j : Iss) (op : Op) : Prop := ∀ h ∈ j.k.handles, h.word ≠ j.a op j.leader
/-- The handles of the issuing block became others; nothing else of the machine changed. -/
def HandlesBecame (j : Iss) (hs : List Handle) (s t : State) : Prop :=
  OnlyBlock j.b s t ∧ ∀ k, Tbl.get s.blocks j.b = some k → Tbl.get t.blocks j.b = some { k with handles := hs }
/-- ACCALLOC (05 R128): ACCESS for a count outside 1 to 128; the null handle past ACCMAX or with no run of banks free; else the lowest run,
owned by the team, which holds its token. -/
def AccallocDone (ex : State → Out) (op : Op) : Prop :=
  ∀ s j s1, Issues op [2] s j s1 →
    let n := (j.a op j.leader).toNat
    let room := (j.k.handles.map (fun h => h.count)).sum + n ≤ j.l.lr.accmax
    (n = 0 ∨ 128 < n → Traps ex j { code := 0x08 } s1 s) ∧
    (1 ≤ n → n ≤ 128 → (¬ room ∨ ∀ f, ¬ banksFree s1 j.k.core f n) → ∃ t, ex s = .next t ∧ LanesDone op j (fun _ => .word 0) s1 t) ∧
    (1 ≤ n → n ≤ 128 → room → (∃ f, banksFree s1 j.k.core f n) → ∃ h s2 t k k', ex s = .next t ∧
      banksFree s1 j.k.core h.first n ∧ (∀ f, f < h.first → ¬ banksFree s1 j.k.core f n) ∧ h.count = n ∧ h.owner = j.t ∧ h.token = some j.t ∧
      h.serial = (coreOf s1 j.k.core).serial ∧ (coreOf s2 j.k.core).serial = (if h.serial = 65535 then 1 else h.serial + 1) ∧
      Tbl.get s1.blocks j.b = some k ∧ Tbl.get s2.blocks j.b = some k' ∧ k' = { k with handles := k.handles ++ [h] } ∧
      s2 = { s1 with blocks := s2.blocks, cores := s2.cores } ∧
      LanesDone op j (fun _ => .word (BitVec.ofNat 32 (h.serial * 65536 + h.count * 256 + h.first))) s2 t)
/-- ACCFREE (05 R128, R130): ACCESS unless the team owns the handle, ACCTOKEN unless it holds the token; then the handle is gone and its banks
are +0. -/
def AccfreeDone (ex : State → Out) (op : Op) : Prop :=
  ∀ s j s1, Issues op [2] s j s1 →
    (Unnamed j op → Traps ex j { code := 0x08 } s1 s) ∧ ∀ h, Named j op h →
    (h.owner ≠ j.t → Traps ex j { code := 0x08 } s1 s) ∧
    (h.owner = j.t → h.token ≠ some j.t → Traps ex j { code := 0x04 } s1 s) ∧
    (h.owner = j.t → h.token = some j.t → ∃ s2 s3 t, ex s = .next t ∧ PlainDone op j s3 t ∧ s2 = { s1 with acc := s2.acc, accPoison := s2.accPoison } ∧
      HandlesBecame j (j.k.handles.filter (fun q => q.word ≠ h.word)) s2 s3 ∧
      ∀ i, Sparse.get s3.acc i = if bankWord j.k.core h.first ≤ i ∧ i < bankWord j.k.core h.first + h.count * Config.bankWords then 0 else Sparse.get s1.acc i)
/-- No ACCACQ of another split of the block stands before the issuing one in the line for a handle's token (05 R130). -/
def ServedNext (j : Iss) (h : Handle) : Prop := lineAhead (j.k.teams.map (fun c => c.2)) (.token h.word) j.m j.p = false
/-- ACCACQ (05 R130): a free token is the team's at once, where no other waits before it, and the split goes on unless an accepted MMA on the
handle is unfinished; otherwise it waits in line; the team's own token lets it go on. -/
def AccacqDone (ex : State → Out) (op : Op) : Prop :=
  ∀ s j s1, Issues op [2] s j s1 →
    (Unnamed j op → Traps ex j { code := 0x08 } s1 s) ∧ ∀ h, Named j op h →
    (h.token = none → ServedNext j h → ∃ s2 t, ex s = .next t ∧
      HandlesBecame j (j.k.handles.map (fun q => if q.word = h.word then { q with token := some j.t } else q)) s1 s2 ∧
      (if mmaPending j.k h.word then Waits j 0 s2 t else PlainDone op j s2 t)) ∧
    ((h.token = none ∧ ¬ ServedNext j h) ∨ (∃ u, h.token = some u ∧ u ≠ j.t) → ∃ t m p, ex s = .next t ∧ Waits j 0 s1 t ∧
      teamOf t j.b j.t = some m ∧ Tbl.get m.splits j.e = some p ∧ p.line.map (fun q => q.1) = some (.token h.word)) ∧
    (h.token = some j.t → ∃ t, ex s = .next t ∧
      (if j.p.held.isSome = true ∧ mmaPending j.k h.word = true then Waits j 0 s1 t else PlainDone op j s1 t))
/-- ACCREL (05 R130): ACCTOKEN unless the team holds the token; then nobody holds it. -/
def AccrelDone (ex : State → Out) (op : Op) : Prop :=
  ∀ s j s1, Issues op [2] s j s1 →
    (Unnamed j op → Traps ex j { code := 0x08 } s1 s) ∧ ∀ h, Named j op h →
    (h.token ≠ some j.t → Traps ex j { code := 0x04 } s1 s) ∧
    (h.token = some j.t → ∃ s2 t, ex s = .next t ∧ PlainDone op j s2 t ∧
      HandlesBecame j (j.k.handles.map (fun q => if q.word = h.word then { q with token := none } else q)) s1 s2)
/-- A lane's word of a handle's banks (05 R131). -/
def accWord (j : Iss) (op : Op) (h : Handle) (l : Nat) : Nat := bankWord j.k.core h.first + (j.bv op l).toNat
/-- ACCLD and ACCST (05 R130, R131): ACCTOKEN unless the team holds the token, ACCESS for an index outside the handle; a load gives each lane
its word (a word that holds poison makes the block's rerun due, 25 R470), a store leaves the highest lane's value in each word. -/
def AccLoadDone (ex : State → Out) (op : Op) : Prop :=
  ∀ s j s1 h, Issues op [2] s j s1 → Named j op h →
    (h.token ≠ some j.t → Traps ex j { code := 0x04 } s1 s) ∧
    (h.token = some j.t → op.o.f.toNat ≠ 2 → (∃ l ∈ j.lanes, h.count * Config.bankWords ≤ (j.bv op l).toNat) → Traps ex j { code := 0x08 } s1 s) ∧
    (h.token = some j.t → (∀ l ∈ j.lanes, (j.bv op l).toNat < h.count * Config.bankWords) → ∃ s2 t, ex s = .next t ∧
      s2 = { s1 with due := s2.due } ∧ ((∀ l ∈ j.lanes, accWord j op h l ∉ s1.accPoison) → s2 = s1) ∧
      LanesDone op j (fun l => .word (Sparse.get s1.acc (accWord j op h l))) s2 t)
def AccStoreDone (ex : State → Out) (op : Op) : Prop :=
  ∀ s j s1 h, Issues op [2] s j s1 → Named j op h → h.token = some j.t → (∀ l ∈ j.lanes, (j.bv op l).toNat < h.count * Config.bankWords) →
    ∃ s2 t, ex s = .next t ∧ PlainDone op j s2 t ∧ s2 = { s1 with acc := s2.acc, accPoison := s2.accPoison } ∧
      (∀ i, (∀ l ∈ j.lanes, accWord j op h l ≠ i) → Sparse.get s2.acc i = Sparse.get s1.acc i) ∧
      ∀ l ∈ j.lanes, (∀ q ∈ j.lanes, l < q → accWord j op h q ≠ accWord j op h l) → Sparse.get s2.acc (accWord j op h l) = j.c op l
/-- ACCZERO (05 R131): the handle's banks are +0. -/
def AccZeroDone (ex : State → Out) (op : Op) : Prop :=
  ∀ s j s1 h, Issues op [2] s j s1 → Named j op h → h.token = some j.t →
    ∃ s2 t, ex s = .next t ∧ PlainDone op j s2 t ∧ s2 = { s1 with acc := s2.acc, accPoison := s2.accPoison } ∧
      ∀ i, Sparse.get s2.acc i = if bankWord j.k.core h.first ≤ i ∧ i < bankWord j.k.core h.first + h.count * Config.bankWords then 0 else Sparse.get s1.acc i

end Sys2Proof.Spec

/-- 05 R127 to R131 with 14 R322: the accumulator instructions. -/
def Obligations.Accumulators : Prop :=
  (∀ o, AccallocDone (exec (.accallocW32 o)) (opW 0xA0 o)) ∧ (∀ o, AccallocDone (exec (.accallocL64 o)) (opL 0xA0 o)) ∧
  (∀ o, AccfreeDone (exec (.accfreeW32 o)) (opW 0xA0 o)) ∧ (∀ o, AccfreeDone (exec (.accfreeL64 o)) (opL 0xA0 o)) ∧
  (∀ o, AccacqDone (exec (.accacqW32 o)) (opW 0xA1 o)) ∧ (∀ o, AccacqDone (exec (.accacqL64 o)) (opL 0xA1 o)) ∧
  (∀ o, AccrelDone (exec (.accrelW32 o)) (opW 0xA1 o)) ∧ (∀ o, AccrelDone (exec (.accrelL64 o)) (opL 0xA1 o)) ∧
  (∀ o, AccLoadDone (exec (.accldW32 o)) (opW 0xA3 o)) ∧ (∀ o, AccLoadDone (exec (.accldL64 o)) (opL 0xA3 o)) ∧
  (∀ o, AccStoreDone (exec (.accst o)) (opL 0xA3 o)) ∧
  (∀ o, AccZeroDone (exec (.acczeroW32 o)) (opW 0xA3 o)) ∧ (∀ o, AccZeroDone (exec (.acczeroL64 o)) (opL 0xA3 o))

namespace Sys2Proof.Spec

/-- The gang register that MMA's control quad names (05 R133). -/
def gangNamed (j : Iss) (op : Op) : Word := (j.srcs op.o.b j.leader 4).getD 2 0
/-- The machine once the issuing split waits in WAIT-OP with its MMA in the rendezvous latch (05 R134). -/
def inLatch (j : Iss) (op : Op) (s : State) : State :=
  onBlock (j.wait s { j.hold 0 [] [] with latched := true }) j.b
    (fun k => { k with rdv := k.rdv.filter (rdvStands k) ++ [mmaEntry j op (gangNamed j op)] })
/-- A rendezvous lists every team of its gang (05 R134). -/
def rdvFull (k : Block) (g : Word) : Prop := ∀ u ∈ gangTeams g, ∃ r ∈ rdvOf k g, r.team = u
/-- MMA (05 R133, R134, R138): with its gang register in order, the split waits in the latch until every team of the gang has come; then, its
checks passing, an A latch at hand and no word that it reads poisoned (25 R470), the command takes the next number of the block's mma timeline and every listed split goes on past
its MMA, no register written; a gang register out of order is trap GANG. -/
def MmaDone (ex : State → Out) (op : Op) : Prop :=
  ∀ s j s1, Issues op [1, 3] s j s1 → (j.p.held.any (fun h => h.latched)) = false →
    let g := gangNamed j op
    (gangOk j.k j.t g = false → Traps ex j { code := 0x0F } s1 s) ∧
    (gangOk j.k j.t g = true → (rdvOf j.k g).any (fun r => r.team = j.t) = true → ∃ t, ex s = .next t ∧ Waits j 0 s1 t) ∧
    (gangOk j.k j.t g = true → (rdvOf j.k g).any (fun r => r.team = j.t) = false → ∀ k2, Tbl.get (inLatch j op s1).blocks j.b = some k2 →
      (¬ rdvFull k2 g → ex s = .next (inLatch j op s1)) ∧
      (rdvFull k2 g → ∀ r q, rdvOf k2 g = r :: q → ((r :: q).map (fun x => x.team)).Nodup → rdvCheck k2 j.l (r :: q) r = none → tilePoison k2 j.l (r :: q) r = [] →
        (r.ru = false ∨ (gangLatch k2 g).isSome = true ∨ coreLatches (inLatch j op s1) k2.core < 4) →
        ∃ t k' c, ex s = .next t ∧ OnlyBlock j.b (inLatch j op s1) t ∧ Tbl.get t.blocks j.b = some k' ∧
          k'.mmaTl.n = k2.mmaTl.n + 1 ∧ k'.cmds = k2.cmds ++ [c] ∧ c.tl = 0x1001 ∧ c.num = k2.mmaTl.n + 1 ∧ c.finished = false ∧
          (∃ a sc, c.op = .mma r.minor r.handle (r.tile.toNat % 128) (r.tile.getLsbD 7) a sc r.bOff.toNat r.sOff.toNat) ∧
          ∀ x ∈ r :: q, ∀ m p, Tbl.get k2.teams x.team = some m → Tbl.get m.splits x.split = some p →
            ∃ m' p', Tbl.get k'.teams x.team = some m' ∧ m'.regs = m.regs ∧ Tbl.get m'.splits x.split = some p' ∧
              p'.st = .ready ∧ p'.pc = p.pc + 8 ∧ p'.mask = p.mask))
/-- MVX whose records read and whose checks pass is accepted on the mv timeline; a team's q1 takes its result stream, to come; a dead lane
of its x raises PSN (05 R140 to R143). A front program's vector that holds poison makes its block's rerun due instead (25 R470). -/
def MvxDone (ex : State → Out) (op : Op) : Prop :=
  ∀ s j s1 s2 bs, Issues op [2, 3, 4] s j s1 → mvxMissing j op = false →
    RecordReads j (j.a64 op j.leader).toNat (if op.o.f.toNat ≤ 4 then 128 else 64) s1 s2 bs → mvxTrap j op bs = none →
    frontPoisoned j op s2 (parseLayout bs) = false → ∃ s3 s4 t x xs yOff rows, ex s = .next t ∧ OnlyCaches s1 s2 ∧
      Accepted j 0x1002 (.mvx op.o.f.toNat (parseLayout bs) (parseLayout (bs.drop 64)) x xs yOff rows) s2 s3 ∧
      x.length = (j.c op j.leader).toNat ∧
      s4 = { s3 with blocks := s4.blocks, ctxs := s4.ctxs } ∧
      (∀ m, teamOf s3 j.b j.t = some m → teamOf s4 j.b j.t = some (if j.front then m else
        { m with q1 := m.q1 ++ [{ num := j.k.mvTl.n + 1, elems := [], toCome := (j.c op j.leader).toNat * (parseLayout bs).dim 1 }] })) ∧
      NumberDone op j 0x1002 (if (List.range ((parseLayout bs).dim 0)).any (fun l => j.m.dead.getLsbD l) then fPSN else 0) s4 t

end Sys2Proof.Spec

/-- 05 R133, R134, R138, R140 to R145: MMA and MVX are accepted on their timelines. -/
def Obligations.MatrixInstructions : Prop :=
  (∀ o, MmaDone (exec (.mma o)) (opL 0xA2 o)) ∧ (∀ o, MvxDone (exec (.mvx o)) (opL 0xA4 o))

/-! ## Traps and the system instructions as 15 R333 to R343 state them -/

namespace Sys2Proof.Spec

/-- The registers of the trap being handled (R334, R336), in a lane. -/
def trapRegister (r : TrapRec) (n l : Nat) : Word :=
  match n with
  | 0x08 => BitVec.ofNat 8 r.aux ++ BitVec.ofNat 4 r.field ++ BitVec.ofNat 4 r.split ++ BitVec.ofNat 8 r.reason ++ BitVec.ofNat 8 r.code
  | 0x09 => BitVec.ofNat 32 r.pc.toNat
  | 0x0A => BitVec.ofNat 32 (r.pc.toNat / 2 ^ 32)
  | 0x0B => BitVec.ofNat 32 r.res.toNat
  | 0x0C => BitVec.ofNat 32 (r.res.toNat / 2 ^ 32)
  | 0x0D => BitVec.ofNat 32 r.parcel.toNat
  | 0x0E => BitVec.ofNat 32 r.val.toNat
  | 0x0F => BitVec.ofNat 32 (r.val.toNat / 2 ^ 32)
  | 0x10 => BitVec.ofNat 32 r.cmd.toNat
  | 0x11 => BitVec.ofNat 32 (r.cmd.toNat / 2 ^ 32)
  | 0x12 => BitVec.ofNat 32 r.sel.toNat
  | 0x13 => BitVec.ofNat 32 (r.laneFlags.toNat * 2 ^ 16 + r.lane)
  | 0x14 => if r.done.getLsbD l then 1 else 0
  | _ => r.leak.getD l 0
/-- The value of a system register in a lane (R334). -/
def systemRegister (s : State) (j : Iss) (n l : Nat) : Word :=
  let c := ctxOf s j.l.ctx
  match n with
  | 0x00 => BitVec.ofNat 32 j.m.flags.toNat
  | 0x01 => BitVec.ofNat 32 j.m.fpen.toNat
  | 0x02 => BitVec.ofNat 32 (((Tbl.get j.k.teams 16).map (fun m => m.flags.toNat)).getD 0)
  | 0x03 => j.k.ffault
  | 0x04 => BitVec.ofNat 32 j.k.ffpc.toNat
  | 0x05 => BitVec.ofNat 32 (j.k.ffpc.toNat / 2 ^ 32)
  | 0x06 => BitVec.ofNat 32 j.k.ffval.toNat
  | 0x07 => BitVec.ofNat 32 (j.k.ffval.toNat / 2 ^ 32)
  | 0x18 => Sparse.get j.m.hscr l
  | 0x19 => Sparse.get j.m.hscr (1024 + l)
  | 0x1A => Sparse.get j.m.hscr (2 * 1024 + l)
  | 0x1B => Sparse.get j.m.hscr (3 * 1024 + l)
  | 0x1C => if j.l.priv then 2 else if j.m.trap.any (fun h => j.p.mask &&& ~~~h.lanes = 0) then 1 else 0
  | 0x20 => BitVec.ofNat 32 (c.stkv * 16 + c.path)
  | 0x21 => BitVec.ofNat 32 ((if c.debug then 256 else 0) + j.l.ctx)
  | 0x22 => BitVec.ofNat 32 c.tlmap
  | 0x23 => BitVec.ofNat 32 (c.tlmap / 2 ^ 32)
  | 0x24 => BitVec.ofNat 32 c.sbmap
  | 0x25 => BitVec.ofNat 32 (c.sbmap / 2 ^ 32)
  | 0x26 => BitVec.ofNat 32 c.lpuser
  | _ => match j.m.trap with
    | none => 0
    | some h => trapRegister h.trap n l
/-- The fields of a trap record fit the fields of its registers (R334, R336). -/
def TrapFits (r : TrapRec) : Prop := r.code < 256
/-- The value that a write of a trap register leaves in the record (R334, R338). -/
def recordWritten (n : Nat) (v : Word) (vs : Nat → Option Word) (r r' : TrapRec) : Prop :=
  match n with
  | 0x0B => r' = { r with res := r'.res } ∧ r'.res.toNat = r.res.toNat / 2 ^ 32 * 2 ^ 32 + v.toNat / 2 * 2
  | 0x0C => r' = { r with res := r'.res } ∧ r'.res.toNat = v.toNat % 2 ^ 24 * 2 ^ 32 + r.res.toNat % 2 ^ 32
  | _ => r' = { r with done := r'.done } ∧ ∀ l, l < 1024 → r'.done.getLsbD l = (match vs l with
    | some w => w.getLsbD 0
    | none => r.done.getLsbD l)
/-- The team after a write of one of its registers: FLAGS, FPEN (bit 6 and the bits above 7 stay 0), HSCR0 to HSCR3, or a register of the trap
being handled (R334, R335, R338). -/
def TeamWritten (n : Nat) (v : Word) (vs : Nat → Option Word) (m m' : Team) : Prop :=
  (n = 0x00 → m' = { m with flags := BitVec.ofNat 8 v.toNat }) ∧
  (n = 0x01 → m' = { m with fpen := BitVec.ofNat 8 v.toNat &&& 0xBF }) ∧
  (0x18 ≤ n → n ≤ 0x1B → m' = { m with hscr := m'.hscr } ∧ ∀ q l, l < 1024 → Sparse.get m'.hscr (q * 1024 + l) =
    (if q = n - 0x18 then (vs l).getD (Sparse.get m.hscr (q * 1024 + l)) else Sparse.get m.hscr (q * 1024 + l))) ∧
  (n = 0x0B ∨ n = 0x0C ∨ n = 0x14 → m' = { m with trap := m'.trap } ∧ (m.trap = none → m'.trap = none) ∧
    ∀ h, m.trap = some h → ∃ r', m'.trap = some { h with trap := r' } ∧ recordWritten n v vs h.trap r')
/-- A value that MVCTL takes: STKV at most 8, PATH at most 2, reserved bits 0 (05 R144). -/
def mvctlTakes (v : Word) : Prop := v.toNat < 256 ∧ v.toNat % 16 ≤ 2 ∧ v.toNat / 16 ≤ 8
/-- The registers that hold a value for each lane (R334). -/
def perLane (n : Nat) : Bool := n = 0x14 || n = 0x18 || n = 0x19 || n = 0x1A || n = 0x1B
/-- A lane's a where it executes. -/
def laneValues (j : Iss) (op : Op) (l : Nat) : Option Word := if l ∈ j.lanes then some (j.a op l) else none
/-- A split has an instruction that it has issued and that has neither completed nor trapped. -/
def HasOpen (p : Split) (h : Held) : Prop := p.pend = none ∧ p.st = .waitOp ∧ p.held = some h
/-- No other split of the team has an instruction open (R338, 02 R68). -/
def Alone (j : Iss) : Prop :=
  (∀ e p, (e, p) ∈ j.m.splits → e ≠ j.e → ∀ h, HasOpen p h → h.fetching = true) ∧ ∀ p ∈ j.m.defer, ∀ h, HasOpen p h → h.fetching = true
/-- Another split's instruction is open. -/
def NotAlone (j : Iss) : Prop := ¬ Alone j

end Sys2Proof.Spec

/-- 15 R334 to R338: RDSR gives each executing lane the register's value, and WRSR writes a team's register, or MVCTL; of FLAGS and FPEN both
wait while another split of the team has an instruction open, with no queue popped (02 R62). These clauses are the model's choices: that a WRSR
of a trap register with no trap being handled has no effect (log 56); which instructions count as open, one in WAIT-OP that is not being
fetched, and not a BAR or JOIN that its split waits in (logs 53, 124); that a uniform register takes the leader's a (log 108). -/
def Obligations.SystemRegisters : Prop :=
  (∀ o s j s1, Issues (opL 0xE0 o) [] s j s1 →
    (2 ≤ o.b.toNat ∨ Alone j → (∀ h, j.m.trap = some h → TrapFits h.trap) →
      ∃ t, exec (.rdsr o) s = .next t ∧ LanesDone (opL 0xE0 o) j (fun l => .word (systemRegister s1 j o.b.toNat l)) s1 t) ∧
    (o.b.toNat < 2 → NotAlone j → ∃ t, exec (.rdsr o) s = .next t ∧ Parks j .waitOp j.p.pc s t)) ∧
  (∀ o s j s1, Issues (opL 0xE1 o) (if perLane o.b.toNat then [] else [2]) s j s1 →
    let v := j.a (opL 0xE1 o) j.leader
    (o.b.toNat ≠ 0x20 → (2 ≤ o.b.toNat ∨ Alone j) → ∃ s2 t m m', exec (.wrsr o) s = .next t ∧ PlainDone (opL 0xE1 o) j s2 t ∧
      OnlyTeam j.b j.t s1 s2 ∧ teamOf s1 j.b j.t = some m ∧ teamOf s2 j.b j.t = some m' ∧
      TeamWritten o.b.toNat v (laneValues j (opL 0xE1 o)) m m') ∧
    (o.b.toNat = 0x20 → mvctlTakes v → ∃ s2 t, exec (.wrsr o) s = .next t ∧ PlainDone (opL 0xE1 o) j s2 t ∧
      s2 = putCtx s1 j.l.ctx { ctxOf s1 j.l.ctx with path := v.toNat % 16, stkv := v.toNat / 16 }) ∧
    (o.b.toNat = 0x20 → ¬ mvctlTakes v → Traps (exec (.wrsr o)) j { code := 0x01, parcel := (opL 0xE1 o).parcel } s s) ∧
    (o.b.toNat < 2 → NotAlone j → ∃ t, exec (.wrsr o) s = .next t ∧ Parks j .waitOp j.p.pc s t))

namespace Sys2Proof.Spec

/-- No arrival at a barrier was held back while the team's handler ran (13 R298). -/
def NoneHeldBack (j : Iss) : Prop := ∀ n q, (n, q) ∈ j.m.bars → liveLanes j.m = 0 ∨ liveLanes j.m &&& ~~~q.al ≠ 0
/-- RETT of a handler that was entered with lanes which the split still holds (R340): the team runs again and handles no trap; the split
resumes at TRES (an arrival that was held back is made now); where TRES is TPC and the instruction was partly done, it is to run again for the lanes outside TDONE. Traps of
engines, WATCHDOG and ACCLEAK return with more. -/
def ReturnFromTrapDone (ex : State → Out) (op : Op) : Prop :=
  ∀ s j s1, Issues op [] s j s1 →
    (j.m.trap = none → Traps ex j { code := 0x01, parcel := op.parcel } s1 s) ∧
    ∀ h, j.m.trap = some h → h.lanes &&& liveLanes j.m &&& ~~~j.p.mask = 0 → ∃ t, ex s = .next t ∧
      (h.trap.code ≠ 0x09 → h.trap.sel = 0 → h.trap.code ≠ 0x05 → NoneHeldBack j → OnlyTeam j.b j.t s1 t ∧ ∃ m m' p p',
        teamOf s1 j.b j.t = some m ∧ teamOf t j.b j.t = some m' ∧ Tbl.get m.splits j.e = some p ∧ Tbl.get m'.splits j.e = some p' ∧
        m' = { m with st := .running, trap := none, splits := m'.splits } ∧ OnlySplit j.e m.splits m'.splits ∧
        p'.pc = h.trap.res ∧ p'.mask = p.mask ∧ p'.sig = p.sig ∧ (h.prior = .ready → p'.st = .ready) ∧
        (h.trap.res ≠ h.trap.pc → p'.held = none) ∧
        (h.trap.res = h.trap.pc → h.partly = true → h.kept = none → ∃ q, p'.held = some q ∧ q.done = h.trap.done ∧ q.xs = h.xs)) ∧
      (h.trap.code ≠ 0x09 → h.trap.sel ≠ 0 → ∀ k, Tbl.get t.blocks j.b = some k → ∀ c ∈ k.cmds,
        c.tl = h.trap.sel.toNat → c.num = h.trap.cmd.toNat → c.stalled = false) ∧
      (h.trap.code = 0x09 → ∀ m, teamOf t j.b j.t = some m → m.st = .running ∧ m.trap = none) ∧
      (h.trap.code = 0x05 → h.trap.sel = 0 → ∀ m, teamOf t j.b j.t = some m → m.st = .ended)
/-- TLBINV (R342): ILLOP for a reserved bit or kind; it waits while another split has accesses under way; then no cached translation of the context
that the descriptor names is left, and every other one is. -/
def TlbinvDone (ex : State → Out) (op : Op) : Prop :=
  ∀ s j s1, Issues op [2] s j s1 →
    let d := (j.a64 op j.leader).toNat
    let kind := d % 4
    let va := d / 2 ^ 16 % 2 ^ 40 * 65536
    let valid := d / 2 ^ 56 = 0 ∧ d / 4 % 2 ^ 14 = 0 ∧ kind ≤ 1
    (¬ valid → Traps ex j { code := 0x01, parcel := op.parcel } s1 s) ∧
    let idle := (∀ e p, (e, p) ∈ j.m.splits → e ≠ j.e → ∀ h, HasOpen p h → h.waits = [] ∧ h.passed = false) ∧
      ∀ p ∈ j.m.defer, ∀ h, HasOpen p h → h.waits = [] ∧ h.passed = false
    (valid → ¬ idle → ∃ t, ex s = .next t ∧ Parks j .waitOp j.p.pc s1 t) ∧
    (valid → idle →
      ∃ s2 t, ex s = .next t ∧ PlainDone op j s2 t ∧ s2 = { s1 with tlb := s2.tlb } ∧
        ∀ c, c ∈ s2.tlb ↔ c ∈ s1.tlb ∧ ¬ (c.ctx = j.l.ctx ∧ (kind = 1 ∨ (c.va ≤ va ∧ va < c.va + c.size))))
/-- HALT (R343, 01 R44): the block is halted, every running team of it and its front program stopped, the split to go on at the next
instruction. That one which is SAVING, where a handler deals with a stalled command, is saved halted is the model's choice (log 115). -/
def HaltDone (ex : State → Out) (op : Op) : Prop :=
  ∀ s j s1, Issues op [] s j s1 → (j.m.st = .running ∨ j.m.st = .trapped) → ∃ t k p m, ex s = .next t ∧ Tbl.get t.blocks j.b = some k ∧
    (j.k.st ≠ .saving → k.st = .halted ∧ k.prior = j.k.st) ∧ (j.k.st = .saving → k.st = .saving ∧ k.priorSave = .halted ∧ k.prior = j.k.priorSave) ∧ (∀ u m, Tbl.get k.teams u = some m → m.st ≠ .running ∧ m.st ≠ .trapped) ∧
    Tbl.get k.teams j.t = some m ∧ m.st = .stopped ∧ m.regs = j.m.regs ∧ Tbl.get m.splits j.e = some p ∧ p.pc = j.next op ∧
    p.mask = j.p.mask ∧ k.bars = j.k.bars ∧ k.cmds = j.k.cmds ∧ t.mem = s1.mem ∧ t.spad = s1.spad ∧ t.chip = s1.chip

end Sys2Proof.Spec

/-- 15 R340, R342, R343: RETT, TLBINV and HALT. -/
def Obligations.SystemInstructions : Prop :=
  (∀ o, ReturnFromTrapDone (exec (.rettW32 o)) (opW 0xE2 o)) ∧ (∀ o, ReturnFromTrapDone (exec (.rettL64 o)) (opL 0xE2 o)) ∧
  (∀ o, TlbinvDone (exec (.tlbinvW32 o)) (opW 0xE3 o)) ∧ (∀ o, TlbinvDone (exec (.tlbinvL64 o)) (opL 0xE3 o)) ∧
  (∀ o, HaltDone (exec (.haltW32 o)) (opW 0xE5 o)) ∧ (∀ o, HaltDone (exec (.haltL64 o)) (opL 0xE5 o))

namespace Sys2Proof.Spec

/-- An issuer whose instruction passes every check before privilege (R223). -/
def AtPrivilege (op : Op) (s : State) (i : Iss) : Prop :=
  issuer s = some i ∧ i.p.mask ≠ 0 ∧ op.bad = false ∧ illegalHere op i.front i.m.nregs i.m.width = false
/-- A privileged instruction traps PRIV, whatever its lanes hold, in a launch of user mode outside a handler (R333, 10 R232). -/
def NeedsPrivilege (ex : State → Out) (op : Op) : Prop :=
  ∀ s i, AtPrivilege op s i → i.l.priv = false → Traps ex i { code := 0x02 } s s

end Sys2Proof.Spec

/-- 15 R333, R334 with 10 R232: in user mode RETT, TLBINV, HALT, RDSR of a P register and WRSR of a P or S register trap PRIV; in handler
mode WRSR of MVCTL ends the team (R341), so it has no effect on MVCTL in any mode but system mode. -/
def Obligations.Privilege : Prop :=
  (∀ o, NeedsPrivilege (exec (.rettW32 o)) (opW 0xE2 o)) ∧ (∀ o, NeedsPrivilege (exec (.rettL64 o)) (opL 0xE2 o)) ∧
  (∀ o, NeedsPrivilege (exec (.tlbinvW32 o)) (opW 0xE3 o)) ∧ (∀ o, NeedsPrivilege (exec (.tlbinvL64 o)) (opL 0xE3 o)) ∧
  (∀ o, NeedsPrivilege (exec (.haltW32 o)) (opW 0xE5 o)) ∧ (∀ o, NeedsPrivilege (exec (.haltL64 o)) (opL 0xE5 o)) ∧
  (∀ o, 0x08 ≤ o.b.toNat → o.b.toNat ≤ 0x1B → o.b.toNat ≠ 0x16 → o.b.toNat ≠ 0x17 → NeedsPrivilege (exec (.rdsr o)) (opL 0xE0 o)) ∧
  (∀ o, (0x08 ≤ o.b.toNat ∧ o.b.toNat ≤ 0x1B ∧ o.b.toNat ≠ 0x16 ∧ o.b.toNat ≠ 0x17) ∨ o.b.toNat = 0x20 →
    NeedsPrivilege (exec (.wrsr o)) (opL 0xE1 o)) ∧
  (∀ o s i t, o.b.toNat = 0x20 → AtPrivilege (opL 0xE1 o) s i → i.l.priv = false → exec (.wrsr o) s = .next t →
    ∀ x, (ctxOf t x).path = (ctxOf s x).path ∧ (ctxOf t x).stkv = (ctxOf s x).stkv)

/-- 15 R339, R341, R331 with 25 R465: taking a trap. A team that handles none and has a handler enters it on the trapping split: the record
is kept, the team is TRAPPED, the split stands READY at HANDLER with its lanes, and registers, index registers and FLAGS are as they were. A
team with no handler ends, and so does one whose handler traps; a trap of another split of a team that handles one is pending on its split
(R339 step 2); a front program ends, and its FFAULT, FFPC and FFVAL record the trap. -/
def Obligations.TakingATrap : Prop :=
  ∀ s i r partly xs, issuer s = some i →
    (CanTrap i → EnteredHandler i r s (takeTrap s i.b i.t i.e r partly xs)) ∧
    (i.front = false → i.m.trap ≠ none → inHandler i.m i.p = false → ∃ m m' p, OnlyTeam i.b i.t s (takeTrap s i.b i.t i.e r partly xs) ∧
      teamOf s i.b i.t = some m ∧ teamOf (takeTrap s i.b i.t i.e r partly xs) i.b i.t = some m' ∧ m' = { m with splits := m'.splits } ∧
      OnlySplit i.e m.splits m'.splits ∧ Tbl.get m.splits i.e = some p ∧ Tbl.get m'.splits i.e = some { p with pend := some (p.pend.getD r) }) ∧
    (i.front = false → (i.m.trap ≠ none ∧ inHandler i.m i.p = true ∨ i.m.trap = none ∧ i.l.lr.handler = 0) →
      ∀ m, teamOf (takeTrap s i.b i.t i.e r partly xs) i.b i.t = some m → m.st = .ended ∧ m.splits = [] ∧ m.trap = none ∧ m.regs = i.m.regs) ∧
    (i.front = true → ∀ k, Tbl.get (takeTrap s i.b i.t i.e r partly xs).blocks i.b = some k → ∃ m, Tbl.get k.teams i.t = some m ∧
      m.st = .ended ∧ k.ffault.getLsbD 31 = true ∧ (r.code < 256 → k.ffault.toNat % 256 = r.code) ∧ k.ffpc = r.pc.zeroExtend 64 ∧ k.ffval = r.val)

namespace Sys2Proof.Spec

/-- The operation of a Slauk instruction, with its fields in the full form (09 R213 to R218); none for the other rows of the opcode table. -/
def opOf (i : Instr) : Option Op :=
  match codedOf i with
  | .c16 n o => some (opC n o)
  | .w32 major _ o => some (opW major o)
  | .l64 major _ o => some (opL major o)
  | _ => none
/-- The fields that an instruction reads in the leader alone, by their codes (13 R279, R280): 1 d, 2 a, 3 b, 4 c (15 R336). That WRSR of a
register with one value for the team is among them is the model's choice (log 108). -/
def leaderFields (op : Op) : List Nat :=
  match op.major with
  | 0x67 => [2, 3, 4] | 0x68 => [2, 3, 4] | 0x69 => [2, 3] | 0x6A => [2, 3] | 0x86 => [2] | 0x91 => [2] | 0x92 => [2] | 0x93 => [2, 3]
  | 0x94 => [3] | 0x95 => [2, 3] | 0x96 => [2] | 0xA0 => [2] | 0xA1 => [2] | 0xA2 => [1, 3] | 0xA3 => [2] | 0xA4 => [2, 3, 4] | 0xE3 => [2]
  | 0xE1 => if perLane op.o.b.toNat then [] else [2]
  | _ => []
/-- A field names a register that its issuer does not have: in a team one from REGS up to v239 (02 R45), in a front program one from KREGS or
above k191 (R70), a pair or quad with a register of those among its own, or one whose first is no multiple of its size (R47); a queue as a
destination or in a pair or quad (R61); or a value that names nothing (R69). -/
def BadOperand (op : Op) (j : Iss) : Prop :=
  ∃ f ∈ op.regFields,
    (f.val < 0xF0 ∧ (j.m.nregs < f.val + f.spec.extent ∨ f.val % f.spec.extent ≠ 0)) ∨ (j.front = true ∧ 0xC0 ≤ f.val) ∨
    (0xF0 ≤ f.val ∧ f.val < 0xF4 ∧ (f.code = 1 ∨ f.spec.extent ≠ 1)) ∨ (0xF4 ≤ f.val ∧ f.val < 0xF8)
/-- A predicate field other than none names no register that the issuer has; a front program has none (02 R45, R65, R70). -/
def BadPredicate (op : Op) (j : Iss) : Prop :=
  op.o.p.toNat ≠ 0xFF ∧ (0xF0 ≤ op.o.p.toNat ∨ j.m.nregs ≤ op.o.p.toNat ∨ j.front = true)
/-- The operand of a field, in a lane that reads it, lies outside the window of its index register (02 R54): base and index are no multiple
of its size, or it ends beyond the bound. -/
def Outside (op : Op) (j : Iss) (f : Field) (l : Nat) : Prop :=
  let d := (j.xs.getD (f.val - 0xF8) 0).toNat
  let idx := (j.m.reg (d / 2 ^ 16 % 2 ^ 8) l).toNat
  0xF8 ≤ f.val ∧ (f.code ∉ leaderFields op ∨ l = j.leader) ∧ ((d % 2 ^ 8 + idx) % f.spec.extent ≠ 0 ∨ d / 2 ^ 8 % 2 ^ 8 < idx + f.spec.extent)
/-- The instruction has passed the checks of its bits, of privilege and of its queues, and `f` is the first field whose operand lies outside
its window in the lowest executing lane in which one does (02 R55). -/
def IndexFaults (op : Op) (s : State) (j : Iss) (s1 : State) (f : Field) (l : Nat) : Prop :=
  (∃ i, issuer s = some i ∧ i.p.mask ≠ 0 ∧ op.bad = false ∧ illegalHere op i.front i.m.nregs i.m.width = false ∧
    privBarred op i.mode = false ∧ i.m.poison = [] ∧ i.execLanes op ≠ 0 ∧ queueCheck (withLanes i op) op = (.ok, none) ∧
    j = (withLanes i op).popped op ∧ s1 = onTeam s i.b i.t (popTeam (withLanes i op) op)) ∧
  l ∈ j.lanes ∧ Outside op j f l ∧ (∀ q ∈ j.lanes, q < l → ∀ g ∈ op.regFields, ¬ Outside op j g q) ∧
  ∃ fs gs, op.regFields = fs ++ f :: gs ∧ ∀ g ∈ fs, ¬ Outside op j g l

end Sys2Proof.Spec

/-- 02 R45, R47, R55, R61, R65, R70, 09 R223, R224, 01 R19, 13 R279, 15 R333: what every instruction of a team or front program does before
its own effect. Under an empty split mask it does nothing. An encoding that its issuer may not issue is ILLOP, with the pc and the first
parcel, whatever the lanes hold: a bit or field that the decoder refuses, a register, pair, quad or predicate that does not exist. A
privileged one is PRIV in a mode that bars it. With no executing lane it has no effect. With an index outside its window it is IDXBOUND as
a whole, with the lowest such lane, the field, the index register and the index in the record. FLAGS and FPEN are read and written by an
instruction that first waits for the others of its team, of which log 53 and 124 say which those are. -/
def Obligations.IssueChecks : Prop :=
  ∀ i op, opOf i = some op → ∀ s j, issuer s = some j →
    (j.p.mask = 0 → ∃ t, exec i s = .next t ∧ WentTo j (j.next op) s t) ∧
    (j.p.mask ≠ 0 → op.bad = true ∨ illegalHere op j.front j.m.nregs j.m.width = true ∨ BadOperand op j ∨ BadPredicate op j →
      Traps (exec i) j { code := 0x01, parcel := op.parcel } s s) ∧
    (AtPrivilege op s j → privBarred op j.mode = true → Traps (exec i) j { code := 0x02 } s s) ∧
    (AtPrivilege op s j → privBarred op j.mode = false → j.m.poison = [] → j.execLanes op = 0 →
      ∃ t, exec i s = .next t ∧ WentTo j (j.next op) s t) ∧
    (∀ q s1 f l, i.wf = true → IndexFaults op s q s1 f l → ((op.major = 0xE0 ∨ op.major = 0xE1) → 2 ≤ op.o.b.toNat ∨ Alone q) →
      Traps (exec i) q { code := 0x03, aux := f.val - 0xF8, field := f.code, lane := l,
                         val := BitVec.ofNat 64 (q.m.reg ((q.xs.getD (f.val - 0xF8) 0).toNat / 2 ^ 16 % 2 ^ 8) l).toNat } s1 s)

/-! ## Fuset as 16 R344 to R369 state it -/

namespace Sys2Proof.Spec

/-- The fields that the rows of R350 name, by opcode: FD, FA, FB, IMM. -/
def namesFd (op : Nat) : Bool := [1, 2, 3, 4, 5, 6, 7, 8, 9, 0x11, 0x16, 0x1C, 0x1E, 0x1F, 0x22].contains op
/-- FA is named. -/
def namesFa (op : Nat) : Bool :=
  [2, 3, 4, 5, 6, 7, 8, 9, 0x0A, 0x0C, 0x0D, 0x10, 0x12, 0x16, 0x17, 0x18, 0x1F, 0x21, 0x22, 0x24, 0x25].contains op
/-- FB is named. -/
def namesFb (op : Nat) : Bool :=
  [1, 2, 3, 4, 5, 6, 7, 8, 0x0A, 0x11, 0x12, 0x13, 0x14, 0x15, 0x16, 0x17, 0x18, 0x19, 0x1A, 0x1B, 0x1E, 0x1F, 0x20, 0x21, 0x22, 0x23,
   0x25].contains op
/-- IMM is named. -/
def namesImm (op : Nat) : Bool := !([0x0F, 0x10, 0x1C, 0x1D, 0x24, 0x26].contains op)
/-- The fields a row does not name are zero, and LI shifts by 0 to 23 (R348, R350). -/
def FieldsFit (op : Nat) (o : FOps) : Prop :=
  (namesFd op = false → o.fd = 0) ∧ (namesFa op = false → o.fa = 0) ∧ (namesFb op = false → o.fb = 0) ∧ (namesImm op = false → o.imm = 0) ∧
  (op = 1 → o.fb.toNat ≤ 23)
/-- A running or waiting context is the one that issues (R345, R368). -/
def CcIssues (n : Nat) (s : State) : Prop := s.cur = .cc n ∧ ((ccOf s n).st = .running ∨ (ccOf s n).st = .waiting)
/-- It issues an instruction whose fields fit. -/
def FusetIssues (op : Nat) (o : FOps) (n : Nat) (s : State) : Prop := CcIssues n s ∧ FieldsFit op o
/-- The value operand x (R347). -/
def fX (c : Cc) (o : FOps) : Nat := ((ccReg c o.fb).toNat + (o.imm.signExtend 64).toNat) % 2 ^ 64
/-- f[fa]. -/
def fA (c : Cc) (o : FOps) : Nat := (ccReg c o.fa).toNat
/-- The address f[fa] + off of LD and ST. -/
def fEa (c : Cc) (o : FOps) : Nat := ((ccReg c o.fa).toNat + (o.imm.signExtend 64).toNat) % 2 ^ 64
/-- The two states differ in one collective context at most. -/
def OnlyCc (n : Nat) (s t : State) : Prop := t = { s with ccs := t.ccs } ∧ ∀ k, k ≠ n → Tbl.get t.ccs k = Tbl.get s.ccs k
/-- The context completed its instruction: it is RUNNING and waits for nothing, `g` says what else of it changed, and `reg` what its
registers hold; no other context and no other part of the machine changed. -/
def CcCompleted (n : Nat) (s t : State) (g : Cc → Cc) (reg : BitVec 5 → DWord) : Prop :=
  OnlyCc n s t ∧ (∀ r, ccReg (ccOf t n) r = reg r) ∧
  ccOf t n = { g (ccOf s n) with st := .running, regs := (ccOf t n).regs, waits := [], failed := [], sending := none, stamp := (ccOf t n).stamp }
/-- The next instruction follows. -/
def onward (c : Cc) : Cc := { c with pc := c.pc + 8 }
/-- The registers with one written; f0 reads zero (R344). -/
def withReg (c : Cc) (d : BitVec 5) (v : DWord) (r : BitVec 5) : DWord := if r = 0 then 0 else if r = d then v else ccReg c r
/-- The instruction completed and wrote fd. -/
def CcPut (n : Nat) (s t : State) (d : BitVec 5) (v : Nat) : Prop :=
  CcCompleted n s t onward (withReg (ccOf s n) d (BitVec.ofNat 64 v))
/-- The instruction completed and wrote no register. -/
def CcDone (n : Nat) (s t : State) : Prop := CcCompleted n s t onward (ccReg (ccOf s n))
/-- The context waits at its instruction; nothing else changed (R368). -/
def CcWaits (n : Nat) (s t : State) : Prop :=
  OnlyCc n s t ∧ ccOf t n = { ccOf s n with st := .waiting, stamp := (ccOf t n).stamp }
/-- `ex` writes a value to fd whenever it issues. -/
def CcComputes (ex : FOps → State → Out) (op : Nat) (value : Cc → FOps → Nat) : Prop :=
  ∀ o n s, FusetIssues op o n s → ∃ t, ex o s = .next t ∧ CcPut n s t o.fd (value (ccOf s n) o)

end Sys2Proof.Spec

/-- 16 R347, R350 with R344: LI, ADD, SUB, AND, OR, SHL, SHR and CMP write their value to fd, f0 staying zero, and nothing else. -/
def Obligations.FusetArithmetic : Prop :=
  CcComputes (fun o => exec (.fusetLi o)) 0x01 (fun _ o => o.imm.toNat * 2 ^ o.fb.toNat % 2 ^ 64) ∧
  CcComputes (fun o => exec (.fusetAdd o)) 0x02 (fun c o => (fA c o + fX c o) % 2 ^ 64) ∧
  CcComputes (fun o => exec (.fusetSub o)) 0x03 (fun c o => (2 ^ 64 + fA c o - fX c o) % 2 ^ 64) ∧
  CcComputes (fun o => exec (.fusetAnd o)) 0x04 (fun c o => Nat.land (fA c o) (fX c o)) ∧
  CcComputes (fun o => exec (.fusetOr o)) 0x05 (fun c o => Nat.lor (fA c o) (fX c o)) ∧
  CcComputes (fun o => exec (.fusetShl o)) 0x06 (fun c o => if fX c o < 64 then fA c o * 2 ^ fX c o % 2 ^ 64 else 0) ∧
  CcComputes (fun o => exec (.fusetShr o)) 0x07 (fun c o => if fX c o < 64 then fA c o / 2 ^ fX c o else 0) ∧
  CcComputes (fun o => exec (.fusetCmp o)) 0x08 (fun c o => if fA c o = fX c o then 0 else if fX c o < fA c o then 1 else 2 ^ 64 - 1)

namespace Sys2Proof.Spec

/-- Addresses of the context's space are asked for in turn, and every one translates and may be used so (R351). -/
inductive CcAsksGo (n : Nat) (need : Need) (both load : Bool) : State → List Nat → State → Prop where
  | none (s : State) : CcAsksGo n need both load s [] s
  | more (s t : State) (a : Nat) (as : List Nat) (p : Phys) : ccReach s n need both load a = .go p → a < 2 ^ 56 →
    CcAsksGo n need both load (noteXlate s (ccOf s n).ctx a) as t → CcAsksGo n need both load s (a :: as) t
/-- The byte at a place, in committed memory. -/
def byteAt (s : State) (p : Phys) : Byte := readByte s Shadow.empty p 0

end Sys2Proof.Spec

/-- 16 R351: LD reads 8 bytes, little-endian, where an aligned address leads, and changes no byte; ST writes f[fb] there, and no other
byte of any memory changes. -/
def Obligations.FusetMemory : Prop :=
  (∀ o n s p, FusetIssues 0x09 o n s →
    let a := fEa (ccOf s n) o
    a % 8 = 0 → ccReach s n needR true true a = .go p →
    ∃ s2 s3 t, exec (.fusetLd o) s = .next t ∧ OnlyCaches s s2 ∧
      CcPut n s2 s3 o.fd (((List.range 8).map (fun k => (byteAt s (plus p k)).toNat * 256 ^ k)).sum) ∧
      t = { s3 with due := t.due } ∧ (poisoned s Shadow.empty p 8 = false → t = s3)) ∧
  (∀ o n s p, FusetIssues 0x0A o n s →
    let a := fEa (ccOf s n) o
    a % 8 = 0 → ccReach s n needW true false a = .go p →
    ∃ s2 t, exec (.fusetSt o) s = .next t ∧ CcDone n s2 t ∧ s2.ccs = s.ccs ∧ s2.blocks = s.blocks ∧
      (∀ k, k < 8 → byteAt s2 (plus p k) = BitVec.ofNat 8 ((ccReg (ccOf s n) o.fb).toNat / 256 ^ k)) ∧
      ∀ q, (∀ k, k < 8 → q ≠ plus p k) → byteAt s2 q = byteAt s q)

/-- 16 R350: BR, BZ and BNZ go to PC + 8 x off, or on; CALL pushes PC + 8 and RET pops it, and each faults where the stack has no room or
no entry; HALT halts the context with one HALTED event (R368); EVENT sends its event. -/
def Obligations.FusetBranches : Prop :=
  (∀ o n s, FusetIssues 0x0B o n s → ∃ t, exec (.fusetBr o) s = .next t ∧
    CcCompleted n s t (fun c => { c with pc := c.pc + 8 * o.imm.signExtend 64 }) (ccReg (ccOf s n))) ∧
  (∀ o n s, FusetIssues 0x0C o n s → ∃ t, exec (.fusetBz o) s = .next t ∧
    CcCompleted n s t (fun c => { c with pc := if fA c o = 0 then c.pc + 8 * o.imm.signExtend 64 else c.pc + 8 }) (ccReg (ccOf s n))) ∧
  (∀ o n s, FusetIssues 0x0D o n s → ∃ t, exec (.fusetBnz o) s = .next t ∧
    CcCompleted n s t (fun c => { c with pc := if fA c o ≠ 0 then c.pc + 8 * o.imm.signExtend 64 else c.pc + 8 }) (ccReg (ccOf s n))) ∧
  (∀ o n s, FusetIssues 0x0E o n s → (ccOf s n).rets.length < 16 → ∃ t, exec (.fusetCall o) s = .next t ∧
    CcCompleted n s t (fun c => { c with pc := c.pc + 8 * o.imm.signExtend 64, rets := (c.pc + 8) :: c.rets }) (ccReg (ccOf s n))) ∧
  (∀ o n s a r, FusetIssues 0x0F o n s → (ccOf s n).rets = a :: r → ∃ t, exec (.fusetRet o) s = .next t ∧
    CcCompleted n s t (fun c => { c with pc := a, rets := r }) (ccReg (ccOf s n))) ∧
  (∀ o n s, FusetIssues 0x26 o n s → ∃ s2, exec (.fusetHalt o) s = .next (emit (event evHalted (ccOf s n).ctx 1 0 (ccOf s n).pc.toNat n) s2) ∧
    OnlyCc n s s2 ∧ (ccOf s2 n).st = .halted ∧ (∀ r, ccReg (ccOf s2 n) r = ccReg (ccOf s n) r) ∧ (ccOf s2 n).round = (ccOf s n).round ∧
    (ccOf s2 n).entries = (ccOf s n).entries ∧ (ccOf s2 n).whey = (ccOf s n).whey ∧ (ccOf s2 n).faultCode = (ccOf s n).faultCode) ∧
  (∀ o n s, FusetIssues 0x25 o n s → fX (ccOf s n) o < 2 ^ 16 → (fX (ccOf s n) o ≠ 0xFF01 ∨ s.chan.duty.getLsbD 2 = true) →
    ∃ t, exec (.fusetEvent o) s = .next t ∧
      CcDone n (emit (event evFEvent (ccOf s n).ctx (fX (ccOf s n) o) 0 (fA (ccOf s n) o) n) s) t)

namespace Sys2Proof.Spec

/-- The 64-bit word at an offset of a record's bytes. -/
def word64 (bs : List Byte) (off : Nat) : Nat := ((List.range 8).map (fun k => (bs.getD (off + k) 0).toNat * 256 ^ k)).sum
/-- The 32-bit word at an offset of a record's bytes. -/
def word32 (bs : List Byte) (off : Nat) : Nat := ((List.range 4).map (fun k => (bs.getD (off + k) 0).toNat * 256 ^ k)).sum
/-- A field of a word: `len` bits from bit `lo`. -/
def bitField (w lo len : Nat) : Nat := w / 2 ^ lo % 2 ^ len
/-- A ring descriptor is valid for a module's rank: header and members (R353). -/
def ValidRing (rank : Nat) (hdr members : List Byte) : Prop :=
  let w := word64 hdr 0
  let n := bitField w 16 13
  bitField w 29 3 = 0 ∧ bitField w 12 4 = 0 ∧ (∀ k, k < 7 → word64 hdr (8 + 8 * k) = 0) ∧ 1 ≤ n ∧ n ≤ 4096 ∧ bitField w 0 12 < n ∧
  members.length = 4 * n ∧ (∀ p, p < n → word32 members (4 * p) < 2 ^ 22) ∧
  (∀ p q, p < n → q < n → word32 members (4 * p) = word32 members (4 * q) → p = q) ∧ word32 members (4 * bitField w 0 12) = rank
/-- The ring that a valid descriptor binds. -/
def ringOf (hdr members : List Byte) : Ring :=
  { gen := word64 hdr 0 / 2 ^ 32, pos := bitField (word64 hdr 0) 0 12,
    ranks := (List.range (bitField (word64 hdr 0) 16 13)).map (fun p => word32 members (4 * p)) }
/-- The descriptor at f[fa] is aligned, reachable and valid; `s3` is the machine once it has been asked for. -/
def RingThere (n a : Nat) (s s3 : State) (r : Ring) : Prop :=
  a % 64 = 0 ∧ ∃ s2 hdr members, CcAsksGo n needR false true s (rangeAsk a 64) s2 ∧ ccRead s2 n a 64 = hdr ∧
    CcAsksGo n needR false true s2 (rangeAsk (a + 64) (4 * bitField (word64 hdr 0) 16 13)) s3 ∧
    ccRead s3 n (a + 64) (4 * bitField (word64 hdr 0) 16 13) = members ∧ ValidRing s.fab.rank hdr members ∧ r = ringOf hdr members

end Sys2Proof.Spec

/-- 16 R353: RING binds a valid descriptor while no ring is bound and no round ACTIVE; REFORM replaces the ring by one of a greater GEN and
marks every whey object torn. -/
def Obligations.FusetRings : Prop :=
  (∀ o n s s3 r, FusetIssues 0x10 o n s → (ccOf s n).ring = none → (ccOf s n).round.st ≠ .active → RingThere n (fA (ccOf s n) o) s s3 r →
    ∃ s4 t, exec (.fusetRing o) s = .next t ∧ OnlyCaches s s4 ∧
      CcCompleted n s4 t (fun c => { onward c with ring := some r }) (ccReg (ccOf s n))) ∧
  (∀ o n s s3 r old, FusetIssues 0x24 o n s → (ccOf s n).ring = some old → (ccOf s n).round.st ≠ .active →
    RingThere n (fA (ccOf s n) o) s s3 r → old.gen < r.gen →
    ∃ s4 t, exec (.fusetReform o) s = .next t ∧ OnlyCaches s s4 ∧
      CcCompleted n s4 t (fun c => { onward c with ring := some r, whey := Tbl.mapVals c.whey (fun _ w => { w with torn := true }) })
        (ccReg (ccOf s n)))

namespace Sys2Proof.Spec

/-- The fields of a tile-table image (R355). -/
def imageOf (bs : List Byte) : TileImage :=
  { laddr := bitField (word64 bs 0) 0 56, raddr := bitField (word64 bs 8) 0 56, chunk := bitField (word64 bs 16) 32 32,
    whey := bitField (word64 bs 16) 18 6, swred := bitField (word64 bs 16) 13 1 = 1, peermode := bitField (word64 bs 16) 12 1 = 1,
    fmt := bitField (word64 bs 16) 4 1 = 1, role := bitField (word64 bs 16) 0 3, peer := bitField (word64 bs 24) 32 22,
    nbits := bitField (word64 bs 24) 12 13, firstbit := bitField (word64 bs 24) 0 12 }
/-- Check 4 of R356 passes: reserved fields and values, WHEY of role 3, LADDR, NBITS. -/
def ImageFits (bs : List Byte) : Prop :=
  bitField (word64 bs 0) 56 8 = 0 ∧ bitField (word64 bs 8) 56 8 = 0 ∧ bitField (word64 bs 16) 24 8 = 0 ∧ bitField (word64 bs 16) 14 4 = 0 ∧
  bitField (word64 bs 16) 8 4 = 0 ∧ bitField (word64 bs 16) 5 3 = 0 ∧ bitField (word64 bs 16) 3 1 = 0 ∧ bitField (word64 bs 24) 54 10 = 0 ∧
  bitField (word64 bs 24) 25 7 = 0 ∧ (imageOf bs).role ≤ 3 ∧ ((imageOf bs).role = 3 → (imageOf bs).whey = 0) ∧ (imageOf bs).laddr % 1024 = 0 ∧
  1 ≤ (imageOf bs).nbits ∧ (imageOf bs).nbits ≤ 4096
/-- ROLE is that of POS for CHUNK (R179): with N members, the final owner of chunk c stands at c mod N, its origin one position on. -/
def RoleOfPos (c : Cc) (role chunk : Nat) : Prop :=
  ∃ r, c.ring = some r ∧ (
    let k := (r.pos + r.ranks.length - chunk % r.ranks.length) % r.ranks.length
    (k = 0 → role = 2) ∧ (k = 1 → role = 0 ∨ role = 3) ∧ (2 ≤ k → role = 1 ∨ role = 3))
/-- A chunk lies in an object (R365). -/
def chunkIn (w : WheyObj) (chunk : Nat) : Prop :=
  w.desc.toNat % 2 ^ 32 ≤ chunk ∧ chunk < w.desc.toNat % 2 ^ 32 + w.desc.toNat / 2 ^ 32 % 2 ^ 16
/-- Checks 5 to 10 of R356 pass. -/
def ArmFits (c : Cc) (e : TileEntry) (im : TileImage) : Prop :=
  (im.peermode = false → RoleOfPos c im.role im.chunk) ∧ (im.swred = true → c.prot = false) ∧
  (im.role ≠ 3 → ∃ w, Tbl.get c.whey im.whey = some w ∧ chunkIn w im.chunk ∧ w.torn = false) ∧
  im.firstbit + im.nbits ≤ c.sbbits ∧ (im.role = 0 → e.slot.pending = false)
/-- Every bit of the scoreboard under an image's mask is set (R184). -/
def MaskSet (c : Cc) (im : TileImage) : Prop :=
  ∀ i, im.firstbit ≤ i → i < im.firstbit + im.nbits → (Sparse.get c.board (i / 32)).getLsbD (i % 32) = true
/-- To whom a POST of an entry sends its posted notice (R358). -/
def noticeTo (c : Cc) (e : TileEntry) : List Nat :=
  let at' := fun p => (ringRanks c).getD (p % (ringRanks c).length) 0
  if e.image.peermode then (if e.image.role = 1 then e.slot.kept else [e.image.peer])
  else if e.image.role = 3 then [at' e.image.chunk] else [at' (ringPos c + (ringRanks c).length - 1)]
/-- The entry's other fields, with its slot posted. -/
def slotPosted (e : TileEntry) : TileEntry := { e with slot := { e.slot with posted := true, pending := false } }
/-- One entry of a context's tile table changed. -/
def entrySet (x : Nat) (e : TileEntry) (c : Cc) : Cc := { c with entries := Tbl.put c.entries x e }
/-- A posted notice of an entry to each of its senders (R354, R358). -/
def noticesOf (s : State) (n : Nat) (e : TileEntry) : List Msg :=
  (noticeTo (ccOf s n) e).map (fun r => .posted
    { src := s.fab.rank, dst := r, cc := n, round := (ccOf s n).round.num, gen := ringGen (ccOf s n) } (e.image.role = 3) e.image.chunk)

end Sys2Proof.Spec

/-- 16 R355, R356 with 07 R185: ARM of an image that passes the checks of R356 arms the entry under its next version; where its mask is not
all set, it does not fire, and keeps the ranks whose curds for its chunk have been refused in the round. DISARM disarms the entry. That the
ranks kept for an entry stay across its next ARM, with those refused for the chunk before any entry was armed, and that DISARM leaves the
slot as it was, are the model's choices (log 66). -/
def Obligations.FusetArmDisarm : Prop :=
  (∀ o n s s2 bs, FusetIssues 0x12 o n s →
    let c := ccOf s n
    let x := fX c o
    let e := entryOf c x
    x < 256 → c.round.st = .active → e.st ≠ .armed → fA c o % 32 = 0 → CcAsksGo n needR false true s (rangeAsk (fA c o) 32) s2 →
    ccRead s2 n (fA c o) 32 = bs → ImageFits bs → ArmFits c e (imageOf bs) →
    ∃ t, exec (.fusetArm o) s = .next t ∧ (ccOf t n).pc = c.pc + 8 ∧ (∀ r, ccReg (ccOf t n) r = ccReg c r) ∧
      (let e' := entryOf (ccOf t n) x
       e'.version = e.version + 1 ∧ e'.image = imageOf bs ∧ e'.armedRound = c.round.num ∧
       (¬ MaskSet c (imageOf bs) → e'.st = .armed ∧ e'.firings = e.firings ∧ t.mem = s.mem ∧ t.host = s.host ∧ t.spad = s.spad ∧
          t.chip = s.chip ∧ t.blocks = s.blocks ∧
          (∀ r, r ∈ e.slot.kept ∨ ((imageOf bs).chunk, r) ∈ c.early → r ∈ e'.slot.kept) ∧
          (e.slot.pending = true → e'.slot.posted = true ∧ e'.slot.pending = false)))) ∧
  (∀ o n s, FusetIssues 0x13 o n s →
    let c := ccOf s n
    let x := fX c o
    x < 256 → ∃ t, exec (.fusetDisarm o) s = .next t ∧ OnlyCc n s t ∧ (ccOf t n).pc = c.pc + 8 ∧ (ccOf t n).st = .running ∧
      (∀ r, ccReg (ccOf t n) r = ccReg c r) ∧ (ccOf t n).whey = c.whey ∧ (ccOf t n).board = c.board ∧
      (c.round.waitrd = false → (ccOf t n).round = c.round) ∧
      (let e := entryOf c x
       let e' := entryOf (ccOf t n) x
       e'.st = .disarmed ∧ e'.version = e.version ∧ e'.image = e.image ∧ e'.slot = e.slot) ∧
      ∀ y, y ≠ x → (entryOf (ccOf t n) y).st = (entryOf c y).st ∧ (entryOf (ccOf t n) y).version = (entryOf c y).version)

/-- 16 R358: POST posts the slot of an entry armed in the round and sends its notices, or records a pending post; WAITPOST ends once every
receiver has sent its notice, or no round is ACTIVE, and waits otherwise. That a POST of an entry armed in the round and DISARMED since
takes effect at once is the model's choice (log 66). -/
def Obligations.FusetPosting : Prop :=
  (∀ o n s, FusetIssues 0x14 o n s →
    let c := ccOf s n
    let x := fX c o
    let e := entryOf c x
    x < 256 → c.round.st = .active →
    (e.armedRound = c.round.num → e.image.role ≠ 0 → ∃ s2 t, exec (.fusetPost o) s = .next t ∧
      CcCompleted n s2 t (fun c => entrySet x (slotPosted e) (onward c)) (ccReg c) ∧ s2 = sendMsgs (noticesOf s n e) s) ∧
    (e.armedRound ≠ c.round.num → ∃ t, exec (.fusetPost o) s = .next t ∧
      CcCompleted n s t (fun c => entrySet x { e with slot := { e.slot with pending := true } } (onward c)) (ccReg c))) ∧
  (∀ o n s, FusetIssues 0x15 o n s →
    let c := ccOf s n
    let x := fX c o
    let e := entryOf c x
    let told := e.armedRound = c.round.num ∧ ∀ r ∈ receivers c e.image, (r, decide (e.image.role = 2), e.image.chunk) ∈ c.notices
    x < 256 →
    (c.round.st ≠ .active ∨ told → ∃ t, exec (.fusetWaitpost o) s = .next t ∧ CcDone n s t) ∧
    (c.round.st = .active → ¬ told → ∃ t, exec (.fusetWaitpost o) s = .next t ∧ CcWaits n s t))

namespace Sys2Proof.Spec

/-- The blocks that a receiver of a firing has refused, as a mask (R357). -/
def RefusalMask (f : Firing) (m : Nat) : Prop :=
  m < 2 ^ 64 ∧ ∀ b, b < 64 → (m.testBit b = true ↔ ∃ q ∈ f.sends, (b, .refused) ∈ q.sent)
/-- Each block of a firing is a block of a chunk, answered once by each receiver. -/
def FiringFits (f : Firing) : Prop := ∀ q ∈ f.sends, ∀ b v, (b, v) ∈ q.sent → b < 64 ∧ Tbl.get q.sent b = some v

end Sys2Proof.Spec

/-- 16 R357, R359: TTW waits while its entry is ARMED or a firing of it is in flight, and otherwise writes the refusal mask of the last
firing; SEND resends the blocks of f[fa] that were refused and waits for the answers, sends nothing for a mask that names none, and
writes the new mask; with no round ACTIVE each writes 0. -/
def Obligations.FusetSends : Prop :=
  (∀ o n s, FusetIssues 0x11 o n s →
    let c := ccOf s n
    let e := entryOf c (fX c o)
    fX c o < 256 →
    (c.round.st ≠ .active → ∃ t, exec (.fusetTtw o) s = .next t ∧ CcPut n s t o.fd 0) ∧
    (c.round.st = .active → (e.st = .armed ∨ ∃ f ∈ e.firings, f.inFlight (c.ch / 256) = true) →
      ∃ t, exec (.fusetTtw o) s = .next t ∧ CcWaits n s t) ∧
    (c.round.st = .active → e.st ≠ .armed → (∀ f ∈ e.firings, f.inFlight (c.ch / 256) = false) →
      (e.firings = [] → ∃ t, exec (.fusetTtw o) s = .next t ∧ CcPut n s t o.fd 0) ∧
      (∀ f m, e.firings.getLast? = some f → FiringFits f → RefusalMask f m → ∃ t, exec (.fusetTtw o) s = .next t ∧ CcPut n s t o.fd m))) ∧
  (∀ o n s, FusetIssues 0x16 o n s →
    let c := ccOf s n
    let e := entryOf c (fX c o)
    fX c o < 256 →
    (c.round.st ≠ .active → ∃ t, exec (.fusetSend o) s = .next t ∧ CcPut n s t o.fd 0) ∧
    (∀ f m, c.round.st = .active → c.sending = none → e.firings.getLast? = some f → e.image.role ≠ 3 → f.round = c.round.num →
      (∀ g ∈ e.firings, g.version = f.version → g = f) → FiringFits f → RefusalMask f m →
      (Nat.land m (fA c o) = 0 → ∃ t, exec (.fusetSend o) s = .next t ∧ CcPut n s t o.fd m) ∧
      (Nat.land m (fA c o) ≠ 0 → ∃ t, exec (.fusetSend o) s = .next t ∧ (ccOf t n).st = .waiting ∧ (ccOf t n).pc = c.pc ∧
        (∀ r, ccReg (ccOf t n) r = ccReg c r) ∧ (ccOf t n).whey = c.whey ∧ t.mem = s.mem ∧ t.blocks = s.blocks ∧
        ∃ qs, (ccOf t n).sending = some (f.version, qs) ∧ ∀ r b, (r, b) ∈ qs ↔
          (fA c o).testBit b = true ∧ ∃ q ∈ f.sends, q.rank = r ∧ (b, .refused) ∈ q.sent)) ∧
    (∀ f v qs m, c.round.st = .active → c.sending = some (v, qs) → e.firings.find? (fun f => f.version = v) = some f → FiringFits f →
      RefusalMask f m →
      ((∀ r b, (r, b) ∈ qs → ∀ q ∈ f.sends, q.rank = r → Tbl.get q.sent b ≠ some .flying) →
        ∃ t, exec (.fusetSend o) s = .next t ∧ CcPut n s t o.fd m) ∧
      (∀ r b, (r, b) ∈ qs → ∀ q ∈ f.sends, q.rank = r → Tbl.get q.sent b = some .flying →
        ∃ t, exec (.fusetSend o) s = .next t ∧ CcWaits n s t)))

namespace Sys2Proof.Spec

/-- The state codes of item 0 (R367). -/
def roundCode (r : RoundState) : Nat :=
  match r with
  | .none => 0
  | .active => 1
  | .complete => 2
  | .aborted => 3
/-- The states of an entry (R367). -/
def entryCode (e : EntryState) : Nat :=
  match e with
  | .disarmed => 0
  | .armed => 1
  | .fired => 2
/-- The status item of a context (R367), none for a selector out of range; item 6 is stated by its bits. -/
def StatusItem (s : State) (c : Cc) (x v : Nat) : Prop :=
  (x = 0 → v = 1 + 16 * roundCode c.round.st) ∧ (x = 1 → v = c.faultReason * 256 + c.faultCode) ∧ (x = 2 → v = c.round.num) ∧
  (x = 3 → v = ringGen c) ∧ (x = 4 → v = ringPos c) ∧ (x = 5 → v = (ringRanks c).length) ∧
  (x = 6 → v = (c.whey.map (fun q => if q.2.torn then 2 ^ q.1 else 0)).sum) ∧
  (x = 7 → v = c.discarded) ∧ (x = 8 → v = c.droppedPubs) ∧ (x = 9 → v = (Tbl.getD (ctxOf s c.ctx).tls c.tlc { n := 0, v := 0 }).v) ∧
  (0x100 ≤ x → let e := entryOf c (x - 0x100)
    v = e.version.toNat * 2 ^ 16 + (if ∃ f ∈ e.firings, f.inFlight (c.ch / 256) = true then 4 else 0) + entryCode e.st)
/-- A selector of STATUS (R367). -/
def isItem (x : Nat) : Prop := x ≤ 9 ∨ (0x100 ≤ x ∧ x ≤ 0x1FF)

end Sys2Proof.Spec

/-- 16 R361: WAITSB waits for every bit of f[fa] in its scoreboard word, WAITTL for its timeline to reach f[fa]; SIGTL raises the context's own
timeline. R367: STATUS writes the item that x names. -/
def Obligations.FusetWaitsAndStatus : Prop :=
  (∀ o n s, FusetIssues 0x17 o n s →
    let c := ccOf s n
    let set := Nat.land (Sparse.get c.board (fX c o)).toNat (fA c o % 2 ^ 32) = fA c o % 2 ^ 32
    fX c o < c.sbbits / 32 →
    (c.round.st ≠ .active ∨ set → ∃ t, exec (.fusetWaitsb o) s = .next t ∧ CcDone n s t) ∧
    (c.round.st = .active → ¬ set → ∃ t, exec (.fusetWaitsb o) s = .next t ∧ CcWaits n s t)) ∧
  (∀ o n s, FusetIssues 0x18 o n s →
    let c := ccOf s n
    let v := (Tbl.getD (ctxOf s c.ctx).tls (fX c o) { n := 0, v := 0 }).v
    fX c o < 4096 →
    (fA c o ≤ v → ∃ t, exec (.fusetWaittl o) s = .next t ∧ CcDone n s t) ∧
    (v < fA c o → ∃ t, exec (.fusetWaittl o) s = .next t ∧ CcWaits n s t)) ∧
  (∀ o n s, FusetIssues 0x19 o n s → ∃ s2 t, exec (.fusetSigtl o) s = .next t ∧ CcDone n s2 t ∧ s2.ccs = s.ccs ∧
    Raised (ccOf s n).ctx (ccOf s n).tlc (fX (ccOf s n) o) s s2) ∧
  (∀ o n s, FusetIssues 0x1E o n s → isItem (fX (ccOf s n) o) →
    ∃ v t, StatusItem s (ccOf s n) (fX (ccOf s n) o) v ∧ exec (.fusetStatus o) s = .next t ∧ CcPut n s t o.fd v)

namespace Sys2Proof.Spec

/-- Nothing armed in the round is outstanding: no entry of it is ARMED, and every firing of it has completed with no refusal (R357, R363). -/
def RoundOver (c : Cc) : Prop :=
  ∀ x e, (x, e) ∈ c.entries → ¬ (e.armedRound = c.round.num ∧ e.st = .armed) ∧
    ∀ f ∈ e.firings, f.round = c.round.num → f.inFlight (c.ch / 256) = false ∧ f.refused = []
/-- The context after its round has been aborted (07 R185, R190; 16 R364): the round ABORTED, its entries DISARMED and their slots
unposted and empty, the objects touched in it torn. -/
def RoundAborted (outcome : Nat) (c c' : Cc) : Prop :=
  c'.round = { c.round with st := .aborted, outcome := outcome, abortRank := 0, deadline := none } ∧
  (∀ x, (entryOf c' x).st = .disarmed ∧ (entryOf c' x).slot.posted = false ∧ (entryOf c' x).slot.got = [] ∧
    (entryOf c' x).version = (entryOf c x).version) ∧
  (∀ h w, Tbl.get c.whey h = some w → Tbl.get c'.whey h = some (if h ∈ c.touched then { w with torn := true } else w)) ∧
  c'.notices = [] ∧ c'.board = c.board
/-- The context as ROUND leaves it (R362): the scoreboard clear, every slot unposted and empty, no notice kept, the round's number and
deadline set; entries keep their states. -/
def RoundStarted (x now : Nat) (c c' : Cc) : Prop :=
  (∀ w, Sparse.get c'.board w = 0) ∧ c'.notices = [] ∧ c'.whey = c.whey ∧ c'.round.st = .active ∧ c'.round.num = x ∧
  c'.round.duration = c.round.duration ∧ (c.round.duration = 0 → c'.round.deadline = none) ∧
  (0 < c.round.duration → c'.round.deadline = some (now + c.round.duration * Config.cyclesPerMicro)) ∧
  ∀ i, (entryOf c' i).st = (entryOf c i).st ∧ (entryOf c' i).version = (entryOf c i).version ∧ (entryOf c' i).image = (entryOf c i).image ∧
    (entryOf c' i).slot = { posted := false, pending := false, got := [], kept := [] }
/-- The outcome word of a round (R363). -/
def outcomeOf (r : Round) : Nat := r.abortRank * 2 ^ 32 + r.outcome

end Sys2Proof.Spec

/-- 16 R350, R362 to R364: TMO sets the deadline duration of later rounds; ROUND starts a round; WAITRD writes the outcome of a round that has
ended, completes one with nothing outstanding and otherwise waits; ABORT aborts an ACTIVE round, tells every other member of the ring,
and does nothing with none. -/
def Obligations.FusetRounds : Prop :=
  (∀ o n s, FusetIssues 0x1A o n s → fX (ccOf s n) o < 2 ^ 32 → ∃ t, exec (.fusetTmo o) s = .next t ∧
    CcCompleted n s t (fun c => { onward c with round := { c.round with duration := fX c o } }) (ccReg (ccOf s n))) ∧
  (∀ o n s, FusetIssues 0x1B o n s →
    let c := ccOf s n
    c.ring ≠ none → c.round.st ≠ .active → 0 < fX c o → fX c o < 2 ^ 32 → c.round.num < fX c o →
    ∃ t, exec (.fusetRound o) s = .next t ∧ OnlyCc n s t ∧ RoundStarted (fX c o) s.now c (ccOf t n) ∧ (ccOf t n).pc = c.pc + 8 ∧
      (ccOf t n).st = .running ∧ (∀ r, ccReg (ccOf t n) r = ccReg c r) ∧ (ccOf t n).ring = c.ring) ∧
  (∀ o n s, FusetIssues 0x1C o n s →
    let c := ccOf s n
    (c.round.st ≠ .active → ∃ t, exec (.fusetWaitrd o) s = .next t ∧ CcPut n s t o.fd (outcomeOf c.round)) ∧
    (c.round.st = .active → RoundOver c → ∃ t, exec (.fusetWaitrd o) s = .next t ∧ OnlyCc n s t ∧ (ccOf t n).round.st = .complete ∧
      (ccOf t n).round.deadline = none ∧ (ccOf t n).pc = c.pc + 8 ∧ (ccOf t n).st = .running ∧
      ∀ r, ccReg (ccOf t n) r = withReg c o.fd 0 r) ∧
    (c.round.st = .active → ¬ RoundOver c → ∃ t, exec (.fusetWaitrd o) s = .next t ∧ OnlyCc n s t ∧ (ccOf t n).st = .waiting ∧
      (ccOf t n).pc = c.pc ∧ (ccOf t n).round = { c.round with waitrd := true } ∧ ∀ r, ccReg (ccOf t n) r = ccReg c r)) ∧
  (∀ o n s, FusetIssues 0x1D o n s →
    let c := ccOf s n
    (c.round.st ≠ .active → ∃ t, exec (.fusetAbort o) s = .next t ∧ CcDone n s t) ∧
    (c.round.st = .active → ∃ s2 t, exec (.fusetAbort o) s = .next t ∧
      s2 = sendMsgs ((otherRanks c).map (fun r => .abort { src := s.fab.rank, dst := r, cc := n, round := c.round.num, gen := ringGen c })) s ∧
      OnlyCc n s2 t ∧ RoundAborted 2 c (ccOf t n) ∧ (ccOf t n).pc = c.pc + 8 ∧ (ccOf t n).st = .running ∧
      ∀ r, ccReg (ccOf t n) r = ccReg c r))

namespace Sys2Proof.Spec

/-- Bytes of an object: chunks x 3 roles x CH x esize (R365). -/
def objectBytes (w : WheyObj) (ch : Nat) : Nat :=
  w.desc.toNat / 2 ^ 32 % 2 ^ 16 * 3 * ch * (if w.desc.getLsbD 48 then 2 else 4)
/-- A descriptor and base that WALLOC takes (R365). -/
def ObjectFits (c : Cc) (base : Nat) (desc : DWord) : Prop :=
  desc.toNat / 2 ^ 49 = 0 ∧ desc.toNat / 2 ^ 32 % 2 ^ 16 ≠ 0 ∧ base % 64 = 0 ∧
  ∀ h w, (h, w) ∈ c.whey →
    w.desc.toNat % 2 ^ 32 + w.desc.toNat / 2 ^ 32 % 2 ^ 16 ≤ desc.toNat % 2 ^ 32 ∨
    desc.toNat % 2 ^ 32 + desc.toNat / 2 ^ 32 % 2 ^ 16 ≤ w.desc.toNat % 2 ^ 32
/-- Pieces of bytes land one after another at their places in the context's space; only this changes, and every byte outside them stays. -/
inductive CcLands (n : Nat) : State → List (Nat × List Byte) → State → Prop where
  | none (s : State) : CcLands n s [] s
  | more (s t : State) (a : Nat) (bs : List Byte) (r : List (Nat × List Byte)) (p : Phys) : ccPlace s n a = some p →
    CcLands n (writePhys s { b := none, t := 0, counted := false } p bs) r t → CcLands n s ((a, bs) :: r) t
/-- The bytes of a range in the pieces by which the context's accesses reach it. -/
def piecesOf (a : Nat) (bs : List Byte) : List (Nat × List Byte) :=
  (pieces (bs.length / 512 + 2) a bs.length).map (fun q => (q.1, (bs.drop (q.1 - a)).take q.2))
/-- The lowest free handle. -/
def lowestHandle (c : Cc) (h : Nat) : Prop := h < 64 ∧ Tbl.get c.whey h = none ∧ ∀ k, k < h → Tbl.get c.whey k ≠ none

end Sys2Proof.Spec

/-- 16 R365: WALLOC writes +0 to every entry of the object and the lowest free handle to fd, or all ones when none is free; WFREE frees a
handle that nothing uses, which the round has then touched no object of, and waits for the firings that use it, blocks that were refused
and not sent again left out (log 119). -/
def Obligations.FusetWheyHandles : Prop :=
  (∀ o n s, FusetIssues 0x1F o n s →
    let c := ccOf s n
    let desc := BitVec.ofNat 64 (fX c o)
    ObjectFits c (fA c o) desc →
    ((∀ h, h < 64 → Tbl.get c.whey h ≠ none) → ∃ t, exec (.fusetWalloc o) s = .next t ∧ CcPut n s t o.fd (2 ^ 64 - 1)) ∧
    (∀ h s2 s3, lowestHandle c h →
      let w : WheyObj := { base := fA c o, desc := desc, torn := false }
      CcAsksGo n needW false false s (rangeAsk (fA c o) (objectBytes w c.ch)) s2 →
      CcLands n s2 (piecesOf (fA c o) (List.replicate (objectBytes w c.ch) 0)) s3 →
      ∃ t, exec (.fusetWalloc o) s = .next t ∧
        CcCompleted n s3 t (fun c => { onward c with whey := Tbl.put c.whey h w }) (withReg c o.fd (BitVec.ofNat 64 h)))) ∧
  (∀ o n s, FusetIssues 0x20 o n s →
    let c := ccOf s n
    let h := fX c o
    let armed := ∃ x e, (x, e) ∈ c.entries ∧ e.st = .armed ∧ e.image.role ≠ 3 ∧ e.image.whey = h
    let used := ∃ x e f, (x, e) ∈ c.entries ∧ f ∈ e.firings ∧ f.image.role ≠ 3 ∧ f.image.whey = h ∧ f.inFlight (c.ch / 256) = true
    Tbl.get c.whey h ≠ none → ¬ armed →
    (¬ used → ∃ t, exec (.fusetWfree o) s = .next t ∧ CcCompleted n s t
      (fun c => { onward c with whey := Tbl.del c.whey h, touched := c.touched.erase h }) (ccReg c)) ∧
    (used → ∃ t, exec (.fusetWfree o) s = .next t ∧ CcWaits n s t))

namespace Sys2Proof.Spec

/-- The header of a checkpoint (R366). -/
def HeaderOf (c : Cc) (w : WheyObj) (hdr : List Byte) : Prop :=
  hdr.length = 64 ∧ word64 hdr 0 = (ringGen c * 2 ^ 32 + c.round.num) % 2 ^ 64 ∧ word64 hdr 8 = w.desc.toNat ∧
  word64 hdr 16 = (c.ckpts + 1) % 2 ^ 64 ∧ ∀ k, k < 5 → word64 hdr (24 + 8 * k) = 0
/-- A header that WREST takes for an object (R366). -/
def HeaderFits (w : WheyObj) (hdr : List Byte) : Prop := word64 hdr 8 = w.desc.toNat ∧ ∀ k, k < 5 → word64 hdr (24 + 8 * k) = 0
/-- An object whose torn mark is cleared. -/
def mended (w : WheyObj) : WheyObj := { w with torn := false }
/-- The two states differ in sealed tiles, and the counter of those given up, at most (03 R102, 04 R120). -/
def OnlySeals (s t : State) : Prop :=
  t = { s with ctxs := t.ctxs } ∧ ∀ x, ctxOf t x = { ctxOf s x with seals := (ctxOf t x).seals, counters := (ctxOf t x).counters }
/-- The value of an entry (FP32, or BF16 widened) and the fold of its three roles (07 R192): origin plus hop plus gather, in FP32, rounded
once at the end for BF16 whey. -/
def folded (bf : Bool) (o h g : Word) : Word :=
  let v := add32 (add32 (if bf then o <<< 16 else o) (if bf then h <<< 16 else h)) (if bf then g <<< 16 else g)
  if bf then BitVec.ofNat 32 (toNarrow .ieee bf16 0 false (f32 v)).code else v
/-- Element i of an entry list in memory. -/
def element (w : WheyObj) (bs : List Byte) (i : Nat) : Word :=
  if w.desc.getLsbD 48 then BitVec.ofNat 32 ((bs.getD (2 * i) 0).toNat + 256 * (bs.getD (2 * i + 1) 0).toNat)
  else BitVec.ofNat 32 (word32 bs (4 * i))
/-- Bytes of an entry (R365). -/
def entryBytes (w : WheyObj) : Nat := if w.desc.getLsbD 48 then 2 else 4
/-- The address of a chunk's entries in a role (R365). -/
def roleAddr (w : WheyObj) (ch chunk role : Nat) : Nat := w.base + ((chunk - w.desc.toNat % 2 ^ 32) * 3 + role) * ch * entryBytes w
/-- A chunk's bytes after the fold: the origin's entries folded, the hop's and the gather's zero. -/
def foldedBytes (n : Nat) (w : WheyObj) (ch chunk : Nat) (s : State) : List Byte :=
  let rd := fun role => ccRead s n (roleAddr w ch chunk role) (ch * entryBytes w)
  (List.range ch).flatMap (fun i => leBytes (entryBytes w)
    (folded (w.desc.getLsbD 48) (element w (rd 0) i) (element w (rd 1) i) (element w (rd 2) i)).toNat) ++
  List.replicate (2 * ch * entryBytes w) 0
/-- Chunks of an object folded one after another. -/
inductive ChunksFolded (n : Nat) (w : WheyObj) (ch : Nat) : State → List Nat → State → Prop where
  | none (s : State) : ChunksFolded n w ch s [] s
  | more (s t u : State) (chunk : Nat) (r : List Nat) : CcLands n s (piecesOf (roleAddr w ch chunk 0) (foldedBytes n w ch chunk s)) t →
    ChunksFolded n w ch t r u → ChunksFolded n w ch s (chunk :: r) u

end Sys2Proof.Spec

/-- 16 R366 with 28 R509: WCKPT of a whole object writes its header and its entries at f[fa] and counts the checkpoint; WREST replaces the
object's entries by those of a copy that fits it, clears torn and writes GEN and ROUNDNO to fd; 07 R192:
WFOLD folds the three roles of every element of the object's chunks into the origin's, makes the other two +0, and clears torn. -/
def Obligations.FusetCheckpoints : Prop :=
  (∀ o n s s2 s3 s4 w hdr, FusetIssues 0x21 o n s →
    let c := ccOf s n
    let len := objectBytes w c.ch
    fX c o < 64 → c.round.st ≠ .active → Tbl.get c.whey (fX c o) = some w → w.torn = false → fA c o % 64 = 0 →
    CcAsksGo n needR false true s (rangeAsk w.base len) s2 → CcAsksGo n needRW true false s2 (rangeAsk (fA c o) (64 + len)) s3 →
    HeaderOf c w hdr → CcLands n (ccTouch n w.base len s3) (piecesOf (fA c o) (hdr ++ ccRead s3 n w.base len)) s4 →
    ∃ s5 t, exec (.fusetWckpt o) s = .next t ∧ OnlySeals s4 s5 ∧
      CcCompleted n s5 t (fun c => { onward c with ckpts := c.ckpts + 1 }) (ccReg c)) ∧
  (∀ o n s s2 s3 s4 s5 w hdr, FusetIssues 0x22 o n s →
    let c := ccOf s n
    let len := objectBytes w c.ch
    fX c o < 64 → c.round.st ≠ .active → Tbl.get c.whey (fX c o) = some w → fA c o % 64 = 0 →
    CcAsksGo n needR true true s (rangeAsk (fA c o) 64) s2 → ccRead s2 n (fA c o) 64 = hdr → HeaderFits w hdr →
    CcAsksGo n needR true true s2 (rangeAsk (fA c o) (64 + len)) s3 → CcAsksGo n needW false false s3 (rangeAsk w.base len) s4 →
    CcLands n (ccTouch n (fA c o) (64 + len) s4) (piecesOf w.base (ccRead s4 n (fA c o + 64) len)) s5 →
    ∃ t, exec (.fusetWrest o) s = .next t ∧
      CcCompleted n s5 t (fun c => { onward c with whey := Tbl.put c.whey (fX c o) (mended w) })
        (withReg c o.fd (BitVec.ofNat 64 (word64 hdr 0)))) ∧
  (∀ o n s s2 s3 w, FusetIssues 0x23 o n s →
    let c := ccOf s n
    let first := w.desc.toNat % 2 ^ 32
    fX c o < 64 → c.round.st ≠ .active → Tbl.get c.whey (fX c o) = some w →
    CcAsksGo n needRW false false s (rangeAsk w.base (objectBytes w c.ch)) s2 →
    ChunksFolded n w c.ch (ccTouch n w.base (objectBytes w c.ch) s2)
      ((List.range (w.desc.toNat / 2 ^ 32 % 2 ^ 16)).map (fun k => first + k)) s3 →
    ∃ t, exec (.fusetWfold o) s = .next t ∧
      CcCompleted n s3 t (fun c => { onward c with whey := Tbl.put c.whey (fX c o) (mended w) }) (ccReg c))

namespace Sys2Proof.Spec

/-- A fault of the context that issues (R368): FAULTED with its fault word set, its pc and registers kept; an ACTIVE round aborts with outcome
4; one CCFAULT entry is counted; no byte of device memory changes. -/
def CcFaults (n code reason : Nat) (s t : State) : Prop :=
  (ccOf t n).st = .faulted ∧ (ccOf t n).faultCode = code ∧ (ccOf t n).faultReason = reason ∧ (ccOf t n).pc = (ccOf s n).pc ∧
  (∀ r, ccReg (ccOf t n) r = ccReg (ccOf s n) r) ∧ ((ccOf s n).round.st = .active → RoundAborted 4 (ccOf s n) (ccOf t n)) ∧
  ((ccOf s n).round.st ≠ .active → (ccOf t n).round = (ccOf s n).round ∧ (ccOf t n).entries = (ccOf s n).entries) ∧
  (∀ k, k ≠ n → Tbl.get t.ccs k = Tbl.get s.ccs k) ∧ t.mem = s.mem ∧ t.blocks = s.blocks ∧
  (Tbl.getD t.log.counters 0x0D { esn := 0, count := 0 }).count = (Tbl.getD s.log.counters 0x0D { esn := 0, count := 0 }).count + 1
/-- An instruction whose fields do not fit is ILLOP reason 2 (R348). -/
def BadFieldFaults (ex : FOps → State → Out) (op : Nat) : Prop :=
  ∀ o n s, CcIssues n s → ¬ FieldsFit op o → ∃ t, ex o s = .next t ∧ CcFaults n 0x01 2 s t
/-- A selector out of range is ACCESS, with the reason of R369. -/
def SelectorFaults (ex : FOps → State → Out) (op limit reason : Nat) : Prop :=
  ∀ o n s, FusetIssues op o n s → limit ≤ fX (ccOf s n) o → ∃ t, ex o s = .next t ∧ CcFaults n 0x08 reason s t

end Sys2Proof.Spec

/-- 16 R348, R350 and R369: the faults of a context's instructions: opcodes and fields that are reserved (of every instruction whose row in R350
leaves a field out; ADD to CMP, SEND, WALLOC and WREST name all four), the return stack, a misaligned LD or ST, selectors out of range,
rings and rounds out of sequence, a descriptor that WALLOC does not take, which the model's choice puts ahead of the all-ones answer of one
with no free handle (log 133). -/
def Obligations.FusetFaults : Prop :=
  (∀ w n s, CcIssues n s → ∃ t, exec (.fusetReservedOpcode w) s = .next t ∧ CcFaults n 0x01 1 s t) ∧
  (BadFieldFaults (fun o => exec (.fusetLi o)) 0x01 ∧ BadFieldFaults (fun o => exec (.fusetLd o)) 0x09 ∧
   BadFieldFaults (fun o => exec (.fusetSt o)) 0x0A ∧ BadFieldFaults (fun o => exec (.fusetBr o)) 0x0B ∧
   BadFieldFaults (fun o => exec (.fusetBz o)) 0x0C ∧ BadFieldFaults (fun o => exec (.fusetBnz o)) 0x0D ∧
   BadFieldFaults (fun o => exec (.fusetCall o)) 0x0E ∧ BadFieldFaults (fun o => exec (.fusetRet o)) 0x0F ∧
   BadFieldFaults (fun o => exec (.fusetRing o)) 0x10 ∧ BadFieldFaults (fun o => exec (.fusetTtw o)) 0x11 ∧
   BadFieldFaults (fun o => exec (.fusetArm o)) 0x12 ∧ BadFieldFaults (fun o => exec (.fusetDisarm o)) 0x13 ∧
   BadFieldFaults (fun o => exec (.fusetPost o)) 0x14 ∧ BadFieldFaults (fun o => exec (.fusetWaitpost o)) 0x15 ∧
   BadFieldFaults (fun o => exec (.fusetWaitsb o)) 0x17 ∧ BadFieldFaults (fun o => exec (.fusetWaittl o)) 0x18 ∧
   BadFieldFaults (fun o => exec (.fusetSigtl o)) 0x19 ∧ BadFieldFaults (fun o => exec (.fusetTmo o)) 0x1A ∧
   BadFieldFaults (fun o => exec (.fusetRound o)) 0x1B ∧ BadFieldFaults (fun o => exec (.fusetWaitrd o)) 0x1C ∧
   BadFieldFaults (fun o => exec (.fusetAbort o)) 0x1D ∧ BadFieldFaults (fun o => exec (.fusetStatus o)) 0x1E ∧
   BadFieldFaults (fun o => exec (.fusetWfree o)) 0x20 ∧ BadFieldFaults (fun o => exec (.fusetWckpt o)) 0x21 ∧
   BadFieldFaults (fun o => exec (.fusetWfold o)) 0x23 ∧ BadFieldFaults (fun o => exec (.fusetReform o)) 0x24 ∧
   BadFieldFaults (fun o => exec (.fusetEvent o)) 0x25 ∧ BadFieldFaults (fun o => exec (.fusetHalt o)) 0x26) ∧
  (∀ o n s, FusetIssues 0x0E o n s → 16 ≤ (ccOf s n).rets.length → ∃ t, exec (.fusetCall o) s = .next t ∧ CcFaults n 0x01 3 s t) ∧
  (∀ o n s, FusetIssues 0x0F o n s → (ccOf s n).rets = [] → ∃ t, exec (.fusetRet o) s = .next t ∧ CcFaults n 0x01 4 s t) ∧
  (∀ o n s, FusetIssues 0x09 o n s → fEa (ccOf s n) o % 8 ≠ 0 → ∃ t, exec (.fusetLd o) s = .next t ∧ CcFaults n 0x06 0 s t) ∧
  (∀ o n s, FusetIssues 0x0A o n s → fEa (ccOf s n) o % 8 ≠ 0 → ∃ t, exec (.fusetSt o) s = .next t ∧ CcFaults n 0x06 0 s t) ∧
  SelectorFaults (fun o => exec (.fusetTtw o)) 0x11 256 5 ∧ SelectorFaults (fun o => exec (.fusetArm o)) 0x12 256 5 ∧
  SelectorFaults (fun o => exec (.fusetDisarm o)) 0x13 256 5 ∧ SelectorFaults (fun o => exec (.fusetPost o)) 0x14 256 5 ∧
  SelectorFaults (fun o => exec (.fusetWaitpost o)) 0x15 256 5 ∧ SelectorFaults (fun o => exec (.fusetSend o)) 0x16 256 5 ∧
  SelectorFaults (fun o => exec (.fusetWaittl o)) 0x18 4096 5 ∧
  SelectorFaults (fun o => exec (.fusetWckpt o)) 0x21 64 7 ∧ SelectorFaults (fun o => exec (.fusetWrest o)) 0x22 64 7 ∧
  SelectorFaults (fun o => exec (.fusetWfold o)) 0x23 64 7 ∧
  (∀ o n s, FusetIssues 0x17 o n s → (ccOf s n).sbbits / 32 ≤ fX (ccOf s n) o → ∃ t, exec (.fusetWaitsb o) s = .next t ∧ CcFaults n 0x08 5 s t) ∧
  (∀ o n s, FusetIssues 0x1E o n s → ¬ isItem (fX (ccOf s n) o) → ∃ t, exec (.fusetStatus o) s = .next t ∧ CcFaults n 0x08 5 s t) ∧
  (∀ o n s, FusetIssues 0x1F o n s → ¬ ObjectFits (ccOf s n) (fA (ccOf s n) o) (BitVec.ofNat 64 (fX (ccOf s n) o)) →
    ∃ t, exec (.fusetWalloc o) s = .next t ∧ CcFaults n 0x08 7 s t) ∧
  (∀ o n s, FusetIssues 0x1A o n s → 2 ^ 32 ≤ fX (ccOf s n) o → ∃ t, exec (.fusetTmo o) s = .next t ∧ CcFaults n 0x01 2 s t) ∧
  (∀ o n s, FusetIssues 0x25 o n s → 2 ^ 16 ≤ fX (ccOf s n) o → ∃ t, exec (.fusetEvent o) s = .next t ∧ CcFaults n 0x01 2 s t) ∧
  (∀ o n s, FusetIssues 0x1B o n s → (ccOf s n).ring = none ∨ (ccOf s n).round.st = .active ∨ fX (ccOf s n) o ≤ (ccOf s n).round.num →
    ∃ t, exec (.fusetRound o) s = .next t ∧ CcFaults n 0x01 5 s t) ∧
  (∀ o n s, FusetIssues 0x10 o n s → (ccOf s n).ring ≠ none ∨ (ccOf s n).round.st = .active →
    ∃ t, exec (.fusetRing o) s = .next t ∧ CcFaults n 0x01 5 s t) ∧
  (∀ o n s, FusetIssues 0x14 o n s → fX (ccOf s n) o < 256 → (ccOf s n).round.st ≠ .active →
    ∃ t, exec (.fusetPost o) s = .next t ∧ CcFaults n 0x01 5 s t)

/-! ## What happens to the machine of itself: the engines, teams between instructions, placement, collectives, errors, the fabric, boot -/

namespace Sys2Proof.Spec

/-- A command of a block's own timeline that is open: accepted, not completed, held by no fault, waiting for no page (04 R104, R109). -/
def OpenCmd (s : State) (b sel n : Nat) (k : Block) (c : EngCmd) : Prop :=
  Tbl.get s.blocks b = some k ∧ k.cmds.find? (fun c => c.tl = sel && c.num = n) = some c ∧ c.finished = false ∧ c.stalled = false ∧ c.waits = []
/-- No command of that number is open any more. -/
def NoneOpen (s : State) (b sel n : Nat) : Prop :=
  ∀ k, Tbl.get s.blocks b = some k → ∀ c ∈ k.cmds, c.tl = sel → c.num = n → c.finished = true
/-- A block whose command `n` of a timeline has completed (04 R104): V is the largest number below which every command has completed; no other
command, team, barrier, allocation or handle changes. -/
def FinishedIn (sel n : Nat) (k k' : Block) : Prop :=
  k' = { k with cmds := k'.cmds, copyTl := k'.copyTl, mmaTl := k'.mmaTl, mvTl := k'.mvTl } ∧
  (∀ c ∈ k'.cmds, c.tl = sel → c.num = n → c.finished = true) ∧
  (∀ c ∈ k.cmds, ¬ (c.tl = sel ∧ c.num = n) → c.finished = false → c ∈ k'.cmds) ∧
  (blockTl k' sel).n = (blockTl k sel).n ∧ (blockTl k' sel).v ≤ (blockTl k sel).n ∧
  (∀ c ∈ k.cmds, c.tl = sel → c.num ≠ n → c.finished = false → 0 < c.num → (blockTl k' sel).v < c.num) ∧
  ((blockTl k' sel).v = (blockTl k sel).n ∨ ∃ c ∈ k.cmds, c.tl = sel ∧ c.num ≠ n ∧ c.finished = false ∧ c.num ≤ (blockTl k' sel).v + 1)
/-- The command has completed, and the block's end has been tested (01 R36); the notes of bytes written while copies are outstanding may go. -/
def CmdDone (b sel n : Nat) (s t : State) : Prop :=
  ∃ k k' notes, Tbl.get s.blocks b = some k ∧ FinishedIn sel n k k' ∧ (notes = s.spadRaces ∨ notes = []) ∧
    t = blockEndCheck { putBlock s b k' with spadRaces := notes } b
/-- The unit of a block stands, no kill having discarded it, so that what it writes is kept (25 R472, 24 R449). -/
def UnitStands (s : State) (k : Block) : Prop :=
  ∃ l, Tbl.get s.launches k.launch = some l ∧ (l.lr.commit = 0 ∨ l.st ≠ .discarded) ∧ (l.lr.commit ≤ 1 ∨ gangOf l k ≠ none)
/-- The byte that a copy of number `id` (the step of its acceptance) brings to a place of a scratchpad stands there: none of the byte's writes
has come after the copy's acceptance, or the copy's comes last. The spec leaves the 8-byte unit either value (04 R113, 14 R315, log 14). -/
def Stands (s : State) (id a : Nat) : Prop :=
  ∀ t, Tbl.get s.spadRaces a = some t → t ≤ id ∨ Config.copyFirst id (a / 8) = false
/-- A block between the bytes of its command and its end: only what the command has moved is noted; in a paired launch the signatures take
the data of a store (25 R474). -/
def Noted (paired : Bool) (b : Nat) (s t : State) : Prop :=
  (∀ q, q ≠ b → Tbl.get t.blocks q = Tbl.get s.blocks q) ∧
  ∀ k, Tbl.get s.blocks b = some k → ∃ k', Tbl.get t.blocks b = some k' ∧ k' = { k with cmds := k'.cmds, teams := k'.teams } ∧
    (paired = false → k'.teams = k.teams)
/-- A unit of a block's launch is compared with others (25 R474). -/
def isPaired (s : State) (k : Block) : Bool := (Tbl.get s.launches k.launch).any (fun l => l.lr.commit = 3)
/-- The byte at a place as a block sees it. -/
def blockSees (s : State) (b : Nat) (p : Phys) : Byte := readByte s (shadowOf s b) p 0

/-- Bytes of a tensor copy's box are moved in turn: each that lies in the tensor reaches its place, and none that is moved holds poison (04
R117-R121, 25 R470). -/
inductive CopyGoes (j : CopyJob) (failed : List Nat) (place : Nat → Phys) : State → List Nat → State → Prop where
  | none (s : State) : CopyGoes j failed place s [] s
  | outside (s t : State) (k : Nat) (ks : List Nat) : (boxByte j.y j.c k).2 = 0 →
    CopyGoes j failed place (if j.store then s else loadByte j.born (j.spad k) j.y.fill s) ks t →
    CopyGoes j failed place s (k :: ks) t
  | inside (s t : State) (k : Nat) (ks : List Nat) : (boxByte j.y j.c k).2 ≠ 0 →
    reachTarget s j.x failed (if j.store then needW else needR) (globalTarget s j.x (boxByte j.y j.c k).1 (!j.store)) = .go (place k) →
    copyHurt j k s (place k) = false →
    (j.store = true → ∀ pa, place k = .cap pa → shadowRoom s j.b pa = true) →
    CopyGoes j failed place (copyByte j k (noteTarget s j.x (globalTarget s j.x (boxByte j.y j.c k).1 (!j.store))) (place k)) ks t →
    CopyGoes j failed place s (k :: ks) t
/-- The bytes of a box not yet moved. -/
def leftOf (y : Layout) (c : EngCmd) : List Nat := (List.range y.bytes).filter (fun k => !c.doneElems.contains k)
/-- The facts of a copy command. -/
def jobOf (s : State) (b : Nat) (k : Block) (c : EngCmd) (store : Bool) (y : Layout) (cs : List Int) (off : Nat) : CopyJob :=
  { b := b, x := ctxNum s b, core := k.core, team := c.team, store := store, y := y, c := cs, off := off, born := c.born }
/-- What a load of a box leaves: each byte of the box that stands (log 129) the tensor's bits under its mask and the fill elsewhere; no other
byte of any memory changes (04 R117). -/
def BoxLoaded (j : CopyJob) (ks : List Nat) (place : Nat → Phys) (s t : State) : Prop :=
  t.mem = s.mem ∧ t.host = s.host ∧ t.chip = s.chip ∧
  (∀ k ∈ ks, Stands s j.born (j.spad k) → Sparse.get (w := 8) t.spad (j.spad k) =
    (if (boxByte j.y j.c k).2 = 0 then j.y.fill
     else (blockSees s j.b (place k) &&& (boxByte j.y j.c k).2) ||| (j.y.fill &&& ~~~(boxByte j.y j.c k).2))) ∧
  ∀ a, (∀ k ∈ ks, Stands s j.born (j.spad k) → a ≠ j.spad k) → Sparse.get (w := 8) t.spad a = Sparse.get (w := 8) s.spad a
/-- What a store of a box leaves: at each place that one byte of the box alone has, the scratchpad's bits under the mask; every other
byte, and the scratchpad, as before (04 R117). -/
def BoxStored (j : CopyJob) (ks : List Nat) (place : Nat → Phys) (s t : State) : Prop :=
  t.spad = s.spad ∧ t.chip = s.chip ∧
  (∀ k ∈ ks, (boxByte j.y j.c k).2 ≠ 0 → (∀ q ∈ ks, q ≠ k → (boxByte j.y j.c q).2 ≠ 0 → place q ≠ place k) →
    blockSees t j.b (place k) = (blockSees s j.b (place k) &&& ~~~(boxByte j.y j.c k).2) |||
      (Sparse.get (w := 8) s.spad (j.spad k) &&& (boxByte j.y j.c k).2)) ∧
  ∀ pa, (∀ k ∈ ks, (boxByte j.y j.c k).2 ≠ 0 → place k ≠ .cap pa) → blockSees t j.b (.cap pa) = blockSees s j.b (.cap pa)
/-- The event of a copy command that is no sealed store. -/
def CopyCompletes : Prop :=
  ∀ b n s s2 k c store y cs off ver verAddr place, OpenCmd s b 0x1000 n k c → c.op = .tcopy store false y cs off ver verAddr →
    UnitStands s k →
    let j := jobOf s b k c store y cs off
    CopyGoes j c.failed place s (leftOf y c) s2 →
    (store = false → BoxLoaded j (leftOf y c) place s s2) ∧ (store = true → BoxStored j (leftOf y c) place s s2) ∧
    ∃ s3 t, exec (.copyCommandComplete b n) s = .next t ∧ CmdDone b 0x1000 n s3 t ∧
      s3 = { s2 with full := s3.full, blocks := s3.blocks } ∧ Noted (store && isPaired s k) b s2 s3 ∧ (store = false → ∀ q ∈ leftOf y c, j.spad q / 128 ∈ s3.full)
/-- The event of a sealed store: every byte and its version word can be reached; the bytes, the version word and the seal are written (04
R119, R120), the seal over every byte of the box and the version word, wherever they lie. -/
def SealedCopyCompletes : Prop :=
  ∀ b n s s2 k c y cs off ver verAddr place pv, OpenCmd s b 0x1000 n k c → c.op = .tcopy true true y cs off ver verAddr →
    UnitStands s k →
    let j := jobOf s b k c true y cs off
    (∀ a ∈ ((leftOf y c).filter (fun q => (boxByte y cs q).2 ≠ 0)).map (fun q => (boxByte y cs q).1) ++ [verAddr],
      ∃ p, reachTarget s j.x c.failed needRW (globalTarget s j.x a false) = .go p) →
    CopyGoes j c.failed place s (leftOf y c) s2 → placeOf s2 j.x (globalTarget s2 j.x verAddr false) = some pv →
    (∀ pa, pv = .cap pa → shadowRoom s2 b pa = true) →
    ∃ s3 t, exec (.copyCommandComplete b n) s = .next t ∧ CmdDone b 0x1000 n s3 t ∧
      (∀ q, q < 8 → blockSees s3 b (plus pv q) = BitVec.ofNat 8 (ver.toNat / 256 ^ q)) ∧
      ∃ tile, (ctxOf s3 j.x).seals.getLast? = some tile ∧ (∀ pa, pv = .cap pa → (pa, 8) ∈ tile.cap) ∧ (∀ pa, pv = .sys pa → (pa, 8) ∈ tile.sys) ∧
        ∀ q, q < y.bytes → (boxByte y cs q).2 ≠ 0 → ∀ p, placeOf s2 j.x (globalTarget s2 j.x (boxByte y cs q).1 false) = some p →
          (∀ pa, p = .cap pa → (pa, 1) ∈ tile.cap) ∧ ∀ pa, p = .sys pa → (pa, 1) ∈ tile.sys

/-- The scratchpad addresses that a CPY32's lane writes: 32 bytes from its own offset (04 R110). -/
def landsAt (core : Nat) (q : Nat × List (Option Nat)) (i : Nat) : Nat := core * 2 ^ 19 + q.1 + i
/-- The byte a CPY32 lane reads: zero past the end of its source (04 R110). -/
def landByte (s : State) (b space : Nat) (src : Option Nat) : Byte :=
  match src with
  | none => 0
  | some a => blockSees s b (copyPlace space a)
/-- No source byte of a CPY32 lies where it writes. -/
def SourcesApart (core : Nat) (c : TagCopy) : Prop :=
  ∀ q ∈ c.lanes, ∀ a, some a ∈ q.2 → ∀ r ∈ c.lanes, ∀ i, i < r.2.length → copyPlace c.space a ≠ .spad (landsAt core r i)
/-- A CPY32 has landed (04 R110, R112) in the places that `keep` names: where lanes meet, the highest one's byte remains; no other byte changes. -/
def Landed (b core : Nat) (c : TagCopy) (keep : Nat → Prop) (s t : State) : Prop :=
  t.mem = s.mem ∧ t.host = s.host ∧ t.chip = s.chip ∧
  (∀ (m : Nat) q (i : Nat), c.lanes[m]? = some q → (hi : i < q.2.length) → keep (landsAt core q i) →
    (∀ (m' : Nat) r (i' : Nat), m < m' → c.lanes[m']? = some r → i' < r.2.length → landsAt core r i' ≠ landsAt core q i) →
    Sparse.get (w := 8) t.spad (landsAt core q i) = landByte s b c.space q.2[i]) ∧
  ∀ a, (∀ q ∈ c.lanes, ∀ i, i < q.2.length → keep a → a ≠ landsAt core q i) → Sparse.get (w := 8) t.spad a = Sparse.get (w := 8) s.spad a
/-- The event of the oldest CPY32 of a tag, no line of which has landed ahead and no source of which holds poison: it lands, and its tag's
counter falls by one. -/
def Cpy32Completes : Prop :=
  ∀ b t tag s k m c, Tbl.get s.blocks b = some k → Tbl.get k.teams t = some m → m.copies.find? (fun c => c.tag = tag) = some c →
    c.doneLines = [] → SourcesApart k.core c → (rerunnable s b = true → copyPoisoned s b c = false) →
    ∃ s2 k' m', exec (.cpy32Complete b t tag) s = .next (blockEndCheck s2 b) ∧ Landed b k.core c (Stands s c.id) s s2 ∧
      Tbl.get s2.blocks b = some k' ∧ k' = { k with teams := k'.teams } ∧ Tbl.get k'.teams t = some m' ∧
      m' = { m with copies := m.copies.filter (fun q => q.id ≠ c.id) } ∧
      (c.fe = true → ∀ q ∈ c.lanes, (k.core * 2 ^ 19 + q.1) / 128 ∈ s2.full)

/-- The event of a targeted core's decision on a multicast (04 R123): 1 with no block of the context that holds the range, or out of service;
2 for another generation; 3 while the allocation is being freed or its block moves; else accepted, and counted against the allocation. -/
def McastArrives : Prop :=
  ∀ b n target s k c src dst len mask gens recOff answers, OpenCmd s b 0x1000 n k c → c.op = .mcast src dst len mask gens recOff answers →
    target < 8 → (BitVec.ofNat 8 mask).getLsbD target = true → Tbl.get answers target = none →
    let core := k.core / 8 * 8 + target
    ∃ r t k' c', exec (.mcastArrival b n target) s = .next t ∧ t = { s with blocks := t.blocks } ∧ Tbl.get t.blocks b = some k' ∧ c' ∈ k'.cmds ∧
      c'.tl = 0x1000 ∧ c'.num = n ∧ c'.op = .mcast src dst len mask gens recOff (Tbl.put answers target r) ∧
      (.core core ∈ s.mgmt.out → r = 1) ∧
      ((∀ q h, (q, h) ∈ s.blocks → h.core = core → ctxNum s q = ctxNum s b → allocHolding h dst len = none) → r = 1) ∧
      (.core core ∉ s.mgmt.out → ∀ q a, holderOn s (ctxNum s b) core dst len = some (q, a) →
        (a.gen ≠ gens.getD target 0 → r = 2) ∧ (a.gen = gens.getD target 0 → a.busy = true → r = 3) ∧
        (a.gen = gens.getD target 0 → a.busy = false → (∀ h, Tbl.get s.blocks q = some h → h.st = .running) → r = 0))
/-- The event that ends a multicast whose targets have all decided: the bytes stand at every target that accepted, the completion record
in the issuer's scratchpad, and no other byte has changed (04 R123-R125). A target whose block has gone since it accepted takes no bytes. -/
def McastCompletes : Prop :=
  ∀ b n s k c src dst len mask gens recOff answers, OpenCmd s b 0x1000 n k c → c.op = .mcast src dst len mask gens recOff answers →
    (∀ t : Nat, t < 8 → (BitVec.ofNat 8 mask).getLsbD t = true → Tbl.get answers t ≠ none) → c.doneElems = [] →
    let dstAt := fun (t i : Nat) => (k.core / 8 * 8 + t) * 2 ^ 19 + dst + i
    let srcAt := fun (i : Nat) => k.core * 2 ^ 19 + src + i
    let recAt := fun (i : Nat) => k.core * 2 ^ 19 + recOff + i
    dst + len ≤ 2 ^ 19 → (∀ q ∈ answers, q.1 < 8) → mcastHurt s b k.core src len answers = false →
    (∀ t i i' : Nat, (t, 0) ∈ answers → i < len → i' < len → dstAt t i ≠ srcAt i') →
    (∀ t i i' : Nat, (t, 0) ∈ answers → i < len → i' < 8 → dstAt t i ≠ recAt i') →
    ∃ t, exec (.mcastComplete b n) s = .next t ∧ NoneOpen t b 0x1000 n ∧ t.mem = s.mem ∧ t.chip = s.chip ∧
      (∀ q i : Nat, (q, 0) ∈ answers → i < len → Sparse.get (w := 8) t.spad (dstAt q i) = Sparse.get (w := 8) s.spad (srcAt i)) ∧
      (∀ i : Nat, i < 8 → Sparse.get (w := 8) t.spad (recAt i) = BitVec.ofNat 8 ((n % 2 ^ 32 * 2 ^ 32 +
        (answers.map (fun q => if q.2 = 0 ∨ q.2 = 4 then 2 ^ (24 + q.1) else 2 ^ (16 + q.1) + q.2 * 4 ^ q.1)).sum) / 256 ^ i)) ∧
      ∀ a, (∀ q i : Nat, (q, 0) ∈ answers → i < len → a ≠ dstAt q i) → (∀ i : Nat, i < 8 → a ≠ recAt i) →
        Sparse.get (w := 8) t.spad a = Sparse.get (w := 8) s.spad a
/-- The event that ends an MMA, none numbered below it naming its handle still open and none of its operands poisoned: each word of the tile is the dot product of its row and
column, added to what the word held, or to zero; no other accumulator word changes (05 R137). -/
def MmaCompletes : Prop :=
  ∀ b n s k c minor handle boff zero words scales bOff sOff h, OpenCmd s b 0x1001 n k c →
    c.op = .mma minor handle boff zero words scales bOff sOff →
    (∀ q ∈ k.cmds, q.tl = 0x1001 → q.num < n → q.finished = false → ∀ mi bo z w sc bo' so, q.op ≠ .mma mi handle bo z w sc bo' so) →
    liveHandle k handle = some h →
    let base := bankWord k.core (h.first + boff)
    (rerunnable s b = true → mmaPoisoned s k.core base minor zero bOff sOff = false) →
    ∃ s2 t, exec (.mmaComplete b n) s = .next t ∧ CmdDone b 0x1001 n s2 t ∧ s2 = { s with acc := s2.acc, accPoison := s2.accPoison } ∧
      (∀ a, a ∈ s2.accPoison ↔ a ∈ s.accPoison ∧ (a < base ∨ base + 128 * 128 ≤ a)) ∧
      (∀ m q, m < 128 → q < 128 → Sparse.get s2.acc (base + 128 * m + q) =
        dotRow (if zero then 0 else Sparse.get s.acc (base + 128 * m + q)) (tileRow minor words scales m) (tileCol s k.core minor bOff sOff q)) ∧
      ∀ a, (a < base ∨ base + 128 * 128 ≤ a) → Sparse.get s2.acc a = Sparse.get s.acc a

/-- The event that ends an MVX, all of whose reads can be made and none of which meets poison: y_j of row m is the dot product of row m of A
and x_j, in the issuing team's stream of its number, or, of the front program, in its scratchpad from where it asked (05 R142, R143). -/
def MvxCompletes : Prop :=
  ∀ b n s k c minor y z xs scs yOff rows, OpenCmd s b 0x1002 n k c → c.op = .mvx minor y z xs scs yOff rows → xs.length = scs.length →
    (∀ q ∈ mvxPieces minor y z, (∃ p, reachTarget s (ctxNum s b) c.failed needR (globalTarget s (ctxNum s b) q.1 true) = .go p) ∧
      (rerunnable s b = true → piecePoisoned s b (ctxNum s b) q = false)) →
    let result := fun (j m : Nat) => dotRow 0 (mvxRow s b (ctxNum s b) minor y z m) (mvxCol minor (xs.getD j []) (scs.getD j []))
    ∃ s2 t, exec (.mvxResult b n) s = .next t ∧ CmdDone b 0x1002 n s2 t ∧
      s2 = { s with hbm := s2.hbm, l2 := s2.l2, spad := s2.spad, spadPoison := s2.spadPoison, spadRaces := s2.spadRaces, blocks := s2.blocks } ∧
      (yOff = none → s2.spad = s.spad ∧ ∀ m, Tbl.get k.teams c.team = some m → ∃ k' m', Tbl.get s2.blocks b = some k' ∧
        Tbl.get k'.teams c.team = some m' ∧ m'.regs = m.regs ∧ m'.splits = m.splits ∧ ∀ q ∈ m'.q1, q.num = n → q.toCome = 0 ∧
          ∀ j i, j < xs.length → i < y.dim 1 → q.elems[j * y.dim 1 + i]? = some (result j i)) ∧
      ∀ off, yOff = some off → s2.blocks = s.blocks ∧
        (∀ j i q, j < xs.length → i < y.dim 1 → q < 4 →
          Sparse.get (w := 8) s2.spad (k.core * 2 ^ 19 + off + 4 * (j * y.dim 1 + i) + q) = BitVec.ofNat 8 ((result j i).toNat / 256 ^ q)) ∧
        ∀ a, (a < k.core * 2 ^ 19 + off ∨ k.core * 2 ^ 19 + off + 4 * (xs.length * y.dim 1) ≤ a) →
          Sparse.get (w := 8) s2.spad a = Sparse.get (w := 8) s.spad a
/-- A split has issued a CPY32, at a step or before, that has not been accepted: it waits for pages, or for its tag (14 R313). -/
def CopyWaits (at_ : Nat) (p : Split) : Prop :=
  ∃ h w, HasOpen p h ∧ h.fetching = false ∧ h.born ≤ at_ ∧ h.code = some w ∧ w.toNat % 4 = 3 ∧ w.toNat / 8 % 256 = 0x65
/-- The event of a free that takes effect (14 R319): the allocation of the generation goes once its transfers have finished and what it waits for
has completed: the commands and CPY32s accepted before it, and the CPY32s that issued before it and were accepted later. -/
def SpfreeCompletes : Prop :=
  ∀ b gen s k, Tbl.get s.blocks b = some k → ∃ t k', exec (.spfreeTakesEffect b gen) s = .next t ∧ OnlyBlock b s t ∧
    Tbl.get t.blocks b = some k' ∧ k' = { k with allocs := k'.allocs } ∧
    ∀ a, a ∈ k'.allocs ↔ a ∈ k.allocs ∧ ¬ (a.gen = gen ∧ a.busy = true ∧ a.mcast = 0 ∧
      (∀ q ∈ a.waitCmds, ∀ c ∈ k.cmds, c.tl = q.1 → c.num = q.2 → c.finished = true) ∧
      (∀ q ∈ a.waitCopies, ∀ u m, (u, m) ∈ k.teams → ∀ c ∈ m.copies, c.id ≠ q) ∧
      ∀ u m, (u, m) ∈ k.teams → (∀ c ∈ m.copies, a.freedAt < c.born) ∧ (∀ e p, (e, p) ∈ m.splits → ¬ CopyWaits a.freedAt p) ∧
        ∀ p ∈ m.defer, ¬ CopyWaits a.freedAt p)
/-- The events of a line that fills ahead of its command (03 R78): its bytes land and it is full; the command stays open. -/
def LineFills : Prop :=
  (∀ b n line s s2 k c sealed' y cs off ver verAddr place, OpenCmd s b 0x1000 n k c → c.op = .tcopy false sealed' y cs off ver verAddr →
    let j := jobOf s b k c false y cs off
    let mine := (leftOf y c).filter (fun q => j.spad q / 128 = line)
    mine ≠ [] → CopyGoes j c.failed place s mine s2 →
    BoxLoaded j mine place s s2 ∧ ∃ t k' c', exec (.lineSetFull b 0 n line) s = .next t ∧ t = { s2 with full := t.full, blocks := t.blocks } ∧
      line ∈ t.full ∧ Tbl.get t.blocks b = some k' ∧ k'.cmds.find? (fun c => c.tl = 0x1000 && c.num = n) = some c' ∧
      c' = { c with doneElems := c.doneElems ++ mine }) ∧
  (∀ b n line s k c src dst len mask gens recOff answers, OpenCmd s b 0x1000 n k c → c.op = .mcast src dst len mask gens recOff answers →
    let mine := (mcastAll len answers).filter (fun q => mcastPlace k.core dst q / 128 = line && !c.doneElems.contains q)
    mine ≠ [] → mcastHurt s b k.core src len answers = false →
    ∃ t k' c', exec (.lineSetFull b 0 n line) s = .next t ∧ line ∈ t.full ∧ t.mem = s.mem ∧ Tbl.get t.blocks b = some k' ∧
      k'.cmds.find? (fun c => c.tl = 0x1000 && c.num = n) = some c' ∧ c' = { c with doneElems := c.doneElems ++ mine } ∧
      ∀ a, (∀ q ∈ mine, a ≠ mcastPlace k.core dst q) → Sparse.get (w := 8) t.spad a = Sparse.get (w := 8) s.spad a) ∧
  (∀ b line s k t m c, Tbl.get s.blocks b = some k → k.teams.find? (fun q => q.2.copies.any (fun p => p.id = c.id)) = some (t, m) →
    Tbl.get k.teams t = some m → m.copies.find? (fun p => p.id = c.id) = some c → c.fe = true → line ∉ c.doneLines → SourcesApart k.core c →
    (rerunnable s b = true → copyPoisoned s b c = false) →
    (∃ q ∈ c.lanes, (k.core * 2 ^ 19 + q.1) / 128 = line) →
    ∃ u k' m', exec (.lineSetFull b 1 c.id line) s = .next u ∧ Landed b k.core c (fun a => a / 128 = line ∧ Stands s c.id a) s u ∧ line ∈ u.full ∧
      Tbl.get u.blocks b = some k' ∧ k' = { k with teams := k'.teams } ∧ Tbl.get k'.teams t = some m' ∧
      { c with doneLines := line :: c.doneLines } ∈ m'.copies)
/-- The event of a fault of a command's global side (04 R109): XLATE or ACCESS is pending on a live issuing team that has a handler, and the
command is held; of any other issuer the command is abandoned, with one ABANDON entry counted. -/
def EngineFaults : Prop :=
  ∀ b sel n s k c, OpenCmd s b sel n k c → commandFaults b sel n s = true →
    (sel = 0x1000 ∧ ∃ st se y cs off v va, c.op = .tcopy st se y cs off v va) ∨ (sel = 0x1002 ∧ ∃ mi y z xs ss yo sk, c.op = .mvx mi y z xs ss yo sk) →
    let served := c.team < 16 ∧ (∃ m, Tbl.get k.teams c.team = some m ∧ m.st ≠ .ended) ∧ ∃ l, Tbl.get s.launches k.launch = some l ∧ l.lr.handler ≠ 0
    ∃ t, exec (.engineTranslationFault b sel n) s = .next t ∧
      (served → ∃ k' m' c' code a, (code = 0x07 ∨ code = 0x08) ∧ Tbl.get t.blocks b = some k' ∧ Tbl.get k'.teams c.team = some m' ∧
        m'.asyncs.getLast? = some { code := code, sel := BitVec.ofNat 16 sel, cmd := BitVec.ofNat 64 n, val := BitVec.ofNat 64 a } ∧
        c' ∈ k'.cmds ∧ c'.tl = sel ∧ c'.num = n ∧ c'.stalled = true ∧ c'.finished = false) ∧
      (¬ served → NoneOpen t b sel n ∧ (Tbl.getD t.log.counters 0x0C { esn := 0, count := 0 }).count =
        (Tbl.getD s.log.counters 0x0C { esn := 0, count := 0 }).count + 1)
/-- The events of commands that meet poison in a unit that runs (25 R470; log 24): the block is to be rerun, the command stays open, and nothing
else of the machine changes but what had moved ahead of the word. -/
def PoisonReruns : Prop :=
  (∀ b n s k c minor handle boff zero words scales bOff sOff h, OpenCmd s b 0x1001 n k c →
    c.op = .mma minor handle boff zero words scales bOff sOff →
    (∀ q ∈ k.cmds, q.tl = 0x1001 → q.num < n → q.finished = false → ∀ mi bo z w sc bo' so, q.op ≠ .mma mi handle bo z w sc bo' so) →
    liveHandle k handle = some h → rerunnable s b = true →
    mmaPoisoned s k.core (bankWord k.core (h.first + boff)) minor zero bOff sOff = true →
    exec (.mmaComplete b n) s = .next (addDue s (.rerun b false))) ∧
  (∀ b n s k c src dst len mask gens recOff answers, OpenCmd s b 0x1000 n k c → c.op = .mcast src dst len mask gens recOff answers →
    (∀ t : Nat, t < 8 → (BitVec.ofNat 8 mask).getLsbD t = true → Tbl.get answers t ≠ none) → mcastHurt s b k.core src len answers = true →
    exec (.mcastComplete b n) s = .next (addDue s (.rerun b false))) ∧
  (∀ b t tag s k m c, Tbl.get s.blocks b = some k → Tbl.get k.teams t = some m → m.copies.find? (fun c => c.tag = tag) = some c →
    rerunnable s b = true → copyPoisoned s b c = true → exec (.cpy32Complete b t tag) s = .next (addDue s (.rerun b false)))

end Sys2Proof.Spec

/-- 04 R104, R109 to R125, 05 R137, R142, R143, 14 R319, 03 R78: what the copy, matrix and matrix-vector engines do of themselves: tensor
copies, CPY32s, multicasts, MMAs and MVXs complete, allocations are freed, lines fill, faults are delivered, and poison reruns the block
(25 R470). Which of two writes stands where a copy and another write meet is free (logs 14, 129). -/
def Obligations.EngineEvents : Prop :=
  Spec.CopyCompletes ∧ SealedCopyCompletes ∧ Cpy32Completes ∧ McastArrives ∧ McastCompletes ∧ MmaCompletes ∧ MvxCompletes ∧ SpfreeCompletes ∧
  LineFills ∧ EngineFaults ∧ PoisonReruns


namespace Sys2Proof.Spec

/-! ### Teams -/

/-- Team `n` of block `b` has entered its handler on entry `e` between two instructions (15 R339, 25 R465): TPC and TRES name the split's
next instruction, TDONE the lanes that an open one has done, and RETT is to give the split its state back (01 R42). -/
def BoundaryTrap (b n e : Nat) (r : TrapRec) (s t : State) : Prop :=
  OnlyTeam b n s t ∧
  ∃ k l m p, Tbl.get s.blocks b = some k ∧ Tbl.get s.launches k.launch = some l ∧ Tbl.get k.teams n = some m ∧ Tbl.get m.splits e = some p ∧
  ∃ m' p' h, teamOf t b n = some m' ∧ m' = { m with st := .trapped, trap := m'.trap, splits := m'.splits } ∧ m'.trap = some h ∧
    h.trap = { r with split := e, pc := p.pc, res := p.pc, done := (p.held.map (fun q => q.done)).getD 0 } ∧ h.lanes = p.mask ∧
    h.prior = p.st ∧ h.kept = p.held ∧ Tbl.get m'.splits e = some p' ∧ OnlySplit e m.splits m'.splits ∧
    p'.pc = l.lr.handler ∧ p'.st = .ready ∧ p'.mask = p.mask ∧ p'.pend = none
/-- The count of a class of the error log (25 R482). -/
def classCount (s : State) (cls : Nat) : Word := (Tbl.getD s.log.counters cls { esn := 0, count := 0 }).count
/-- The count of a context's counter (25 R482). -/
def ctxCount (s : State) (x i : Nat) : Word := ((ctxOf s x).counters.getD i { esn := 0, count := 0 }).count
/-- A split with its team and block, on a core and not being saved. -/
def SplitAt (s : State) (b n e : Nat) (k : Block) (m : Team) (p : Split) : Prop :=
  Tbl.get s.blocks b = some k ∧ Tbl.get k.teams n = some m ∧ Tbl.get m.splits e = some p
/-- A split's watchdog count has reached its context's limit, 2^WDLOG cycles, 2^30 for WDLOG 0 (25 R467, 24 R447), and WATCHDOG has not been
taken for it. -/
def WdReached (s : State) (b : Nat) (p : Split) : Prop :=
  let log := (ctxOf s (ctxNum s b)).wdlog
  p.stopped = false ∧ p.wdTaken = false ∧ 2 ^ (if log = 0 then 30 else log) ≤ s.now - p.wd
/-- The event of a watchdog that expires (25 R467, 15 R339, R341, R331). A front program's counts while it waits for what it does not have yet
(01 R42). That an MMA of the split leaves the rendezvous latch is the model's reading (log 69). -/
def WatchdogExpires : Prop :=
  ∀ b n e s k m p, SplitAt s b n e k m p → (k.st = .running ∨ k.st = .shrinking) →
    ∃ t, exec (.watchdogExpiry b n e) s = .next t ∧
    (¬ WdReached s b p → t = s) ∧
    (WdReached s b p →
      (n < 16 → m.st = .running → m.trap = none → (∃ l, Tbl.get s.launches k.launch = some l ∧ l.lr.handler ≠ 0) →
        BoundaryTrap b n e { code := 0x09 } (leaveLatch s b n e) t) ∧
      (n < 16 → m.st = .trapped → (∃ h, m.trap = some h ∧ p.mask &&& ~~~h.lanes ≠ 0) →
        OnlyTeam b n s t ∧ ∃ m' p', teamOf t b n = some m' ∧ m' = { m with splits := m'.splits } ∧ OnlySplit e m.splits m'.splits ∧
          Tbl.get m'.splits e = some p' ∧ p' = { p with wdTaken := true, pend := p'.pend } ∧ (p.pend = none → p'.pend = some { code := 0x09 }) ∧
          (p.pend ≠ none → p'.pend = p.pend)) ∧
      (n < 16 → m.st = .trapped → (∃ h, m.trap = some h ∧ p.mask &&& ~~~h.lanes = 0) → (∃ l, Tbl.get s.launches k.launch = some l) →
        (∀ m', teamOf t b n = some m' → m'.st = .ended ∧ m'.splits = [] ∧ m'.trap = none) ∧ classCount t 0x06 = classCount s 0x06 + 1) ∧
      (n = 16 → p.st ≠ .waitOp ∨ p.avail ≠ none → t = s) ∧
      (n = 16 → p.st = .waitOp → p.avail = none → (∃ l, Tbl.get s.launches k.launch = some l) →
        classCount t 0x06 = classCount s 0x06 + 1 ∧ ∀ k', Tbl.get t.blocks b = some k' → k'.ffault.getLsbD 31 = true ∧
          k'.ffault.toNat % 256 = 0x09 ∧ k'.ffpc = p.pc.zeroExtend 64 ∧ ∃ m', Tbl.get k'.teams 16 = some m' ∧ m'.st = .ended ∧ m'.splits = []))
/-- The event of a watchdog that expires in a deferred split, the `d`-th from the top (25 R467: whatever its state): it takes the entry of the
youngest split that may give way, which takes its place on the stack (01 R22; the exchange is the model's, log 110), and its WATCHDOG there, as
its slot gives it, which then holds the other's bytes (R22; the slot's layout is log 30's); in a TRAPPED team it keeps it pending. -/
def DeferredWatchdog : Prop :=
  ∀ b n d s k m p, Tbl.get s.blocks b = some k → Tbl.get k.teams n = some m → m.defer[d]? = some p → n < 16 → (∀ q ∈ m.splits, q.1 < 16) →
    (k.st = .running ∨ k.st = .shrinking) → p.pend = none → WdReached s b p →
    ∃ t, exec (.watchdogExpiry b n (16 + d)) s = .next t ∧
    (∀ e y, m.st = .running → m.trap = none → (∃ l, Tbl.get s.launches k.launch = some l ∧ l.lr.handler ≠ 0) →
      yieldEntry m = some e → Tbl.get m.splits e = some y →
      let x := ctxNum s b
      let slot := m.defer.length - 1 - d
      (∀ i ∈ m.stale, i = slot) → (∀ need, need = needR ∨ need = needW → ∃ a ph, slotReach s x m slot need = (a, .go ph)) →
      ∃ s2 m2, teamOf s2 b n = some m2 ∧ m2 = { m with splits := m2.splits, defer := m.defer.set d y, stale := m2.stale } ∧
        m2.splits = Tbl.put m.splits e (if slot ∈ m.stale then p else splitFrom (liveLanes m) p (readVirt s x (deferAddr (ctxOf s x) m slot) 160)) ∧
        (y.pend = none → m2.stale = []) ∧ s2.launches = s.launches ∧ s2.acc = s.acc ∧ s2.spad = s.spad ∧
        BoundaryTrap b n e { code := 0x09 } s2 t) ∧
    (m.st = .trapped → (∃ h, m.trap = some h ∧ p.mask &&& ~~~h.lanes ≠ 0) →
      OnlyTeam b n s t ∧ teamOf t b n = some { m with defer := m.defer.set d { p with wdTaken := true, pend := some { code := 0x09 } } })
/-- No split of a team has reached its watchdog's limit, and no deferred one has a trap pending. -/
def NoneExpired (s : State) (b : Nat) (m : Team) : Prop :=
  (∀ e p, (e, p) ∈ m.splits → ¬ WdReached s b p) ∧ ∀ p ∈ m.defer, ¬ WdReached s b p ∧ p.pend = none
/-- The event that delivers what waits to be taken (15 R339, R340; 25 R465, R467): a pending trap first, then the watchdog of the lowest entry
that has reached its limit, then an asynchronous trap, the oldest of these on the lowest READY entry; none of these in a team that is not
RUNNING. -/
def AsyncTrapArrives : Prop :=
  ∀ b n s k m, Tbl.get s.blocks b = some k → Tbl.get k.teams n = some m → n < 16 →
    ∃ t, exec (.asyncTrapDelivery b n) s = .next t ∧
    (m.st ≠ .running → NoneExpired s b m → t = s) ∧
    (∀ e p, m.st = .running → (∀ e p, (e, p) ∈ m.splits → p.pend = none) → (∀ i, i < e → ∀ q, Tbl.get m.splits i = some q → ¬ WdReached s b q) →
      Tbl.get m.splits e = some p → m.splits.Pairwise (fun x y => x.1 < y.1) → WdReached s b p → exec (.watchdogExpiry b n e) s = .next t) ∧
    (m.st = .running → NoneExpired s b m → m.trap = none → (∃ l, Tbl.get s.launches k.launch = some l ∧ l.lr.handler ≠ 0) → (∀ e p, (e, p) ∈ m.splits → p.pend = none) →
      (∀ r rest e, m.asyncs = r :: rest → lowestReady m = some e → (∃ p, Tbl.get m.splits e = some p) →
        BoundaryTrap b n e r (onTeam s b n (fun m => { m with asyncs := rest })) t) ∧
      (m.asyncs = [] ∨ lowestReady m = none → t = s)) ∧
    (m.st = .running → m.trap = none → (∃ l, Tbl.get s.launches k.launch = some l ∧ l.lr.handler ≠ 0) →
      ∀ e r p, pendingTrap m = some (e, r) → r.code ≠ 0x09 → Tbl.get m.splits e = some p →
        OnlyTeam b n s t ∧ ∃ m' p' h, teamOf t b n = some m' ∧ m'.asyncs = m.asyncs ∧ m'.regs = m.regs ∧ m'.st = .trapped ∧ m'.trap = some h ∧
          h.trap = { r with split := e } ∧ h.lanes = p.mask ∧ Tbl.get m'.splits e = some p' ∧ OnlySplit e m.splits m'.splits ∧
          p'.st = .ready ∧ p'.mask = p.mask ∧ p'.pend = none)
/-- A split has been READY since a cycle: at an instruction that it may issue, or in WAIT-OP with its operand available (01 R42). -/
def ReadyFrom (p : Split) (since : Nat) : Prop :=
  p.stopped = false ∧ ((p.st = .ready ∧ p.since = since) ∨ (p.st ≠ .ready ∧ p.avail = some since))
open Classical in
/-- A split that has been READY for 56 cycles (01 R37): its turn comes ahead of every move that has been chosen (log 15). -/
def SplitAges : Prop :=
  ∀ b n e s k m p, SplitAt s b n e k m p → exec (.splitAged b n e) s =
    .next (if ∃ since, ReadyFrom p since ∧ 56 ≤ s.now - since then
      { s with agenda := .run (.split b n e) :: s.agenda.filter (fun v => v ≠ .run (.split b n e)) } else s)
/-- Every block of a gang is being saved, in a save slot of its own (24 R459, R461). -/
def GangSaving (s : State) (n g c : Nat) : Prop :=
  (∀ b k, Tbl.get s.blocks b = some k → k.launch = n → k.gang = g → k.copy = c → k.st = .saving ∧ k.slot ≠ none) ∧
  ∀ b b' k k', Tbl.get s.blocks b = some k → Tbl.get s.blocks b' = some k' → k.launch = n → k.gang = g → k.copy = c →
    k'.launch = n → k'.gang = g → k'.copy = c → b ≠ b' → k.slot ≠ k'.slot
/-- What a gang that waits takes on a cluster, lowest rank and latest placed first; what is being saved there has gone already (24 R459). -/
def roomFor (s : State) (n c : Nat) (l : Launch) (u : GangUnit) : Taken :=
  let vs := victimsOf s (rankOf l) c
  let going := (s.blocks.filter (fun q => q.2.core / 8 = c && q.2.st = .saving &&
    (Tbl.get s.launches q.2.launch).any (fun h => rankOf h < rankOf l))).map (fun q => q.1)
  let s0 := { s with blocks := s.blocks.filter (fun q => !going.contains q.1) }
  takeVictims s (fun t => clusterFits t n l u c) vs vs { s := s0, asks := [], gangs := [], refused := [], fits := clusterFits s0 n l u c }
/-- The event of a gang that has been blocked for 10 µs by lower work on a cluster (24 R459, 01 R32): if its victims together make room,
each block asked for teams has its request and each gang taken is being saved; otherwise no block changes. Its 10 µs begin again. -/
def BlockedGangAsks : Prop :=
  ∀ n g c s l u since, Tbl.get s.launches n = some l → nextUnit s n l = some u → u.gang = g → c < Config.clusters → takesPart s l = true →
    Tbl.get l.blockedSince c = some since → 10 * Config.cyclesPerMicro ≤ s.now - since → waitsOn s n l u c = true → roomAsked s n = false →
    (s.blocks.map (fun q => q.1)).Nodup →
    ∃ t l', exec (.shrinkBlockedTimeout n g c) s = .next t ∧ Tbl.get t.launches n = some l' ∧ l' = { l with blockedSince := Tbl.put l.blockedSince c s.now } ∧
      t.mem = s.mem ∧ t.spad = s.spad ∧
      ((roomFor s n c l u).fits = false → t.blocks = s.blocks) ∧
      ((roomFor s n c l u).fits = true →
        (∀ b cnt k, (b, cnt) ∈ (roomFor s n c l u).asks → Tbl.get s.blocks b = some k → ∃ k', Tbl.get t.blocks b = some k' ∧
          k'.shrink = some { c := cnt, target := max 1 ((liveTeams k).length - cnt), posted := s.now, forLaunch := n } ∧ k'.teams = k.teams) ∧
        ∀ q ∈ (roomFor s n c l u).gangs, ∀ b k, Tbl.get t.blocks b = some k → k.launch = q.1 → k.gang = q.2.1 → k.copy = q.2.2 → k.st = .saving)
/-- The event of a shrink request unmet at its limit, SHRLIM µs, 100 for SHRLIM 0 (24 R460, R459): its gang is saved, or, where too few
slots are free, the refusal is counted. -/
def ShrinkLimitReached : Prop :=
  ∀ b s k q l, Tbl.get s.blocks b = some k → k.shrink = some q → Tbl.get s.launches k.launch = some l → Tbl.get s.ctxs l.ctx ≠ none →
    (k.st = .running ∨ k.st = .shrinking ∨ k.st = .halted) → (s.blocks.map (fun q => q.1)).Nodup → (ctxOf s l.ctx).counters.length = 11 →
    let limit := (if (ctxOf s l.ctx).shrlim = 0 then 100 else (ctxOf s l.ctx).shrlim) * Config.cyclesPerMicro
    let free := ((List.range (ctxOf s l.ctx).slots).filter (fun i => !(ctxOf s l.ctx).slotsUsed.contains i)).length
    let gang := s.blocks.filter (fun c => c.2.launch = k.launch && c.2.gang = k.gang && c.2.copy = k.copy)
    ∃ t, exec (.shrinkLimitExpiry b) s = .next t ∧ t.mem = s.mem ∧ t.spad = s.spad ∧ t.launches = s.launches ∧
      (s.now - q.posted < limit → t = s) ∧
      (limit ≤ s.now - q.posted → gang.length ≤ free → GangSaving t k.launch k.gang k.copy) ∧
      (limit ≤ s.now - q.posted → free < gang.length → t.blocks = s.blocks ∧ ctxCount t l.ctx 5 = ctxCount s l.ctx 5 + 1)
/-- The bytes that a commit installs from a shadow: of each address the value written last, of one block position or of all (25 R472,
R473). -/
def Installs (bs : List (Nat × Byte)) (s t : State) : Prop :=
  (∀ a v, (a, v) ∈ bs → Sparse.get (w := 8) t.mem a = v) ∧ ∀ a, (∀ v, (a, v) ∉ bs) → Sparse.get (w := 8) t.mem a = Sparse.get (w := 8) s.mem a
/-- The event of a unit's commit (25 R473): the launch under COMMIT 1 once every block has completed, a block under COMMIT 2 once it has and
every one before it has committed; its shadow's bytes become memory's. -/
def UnitCommits : Prop :=
  ∀ n u s l, Tbl.get s.launches n = some l → l.st = .placed →
    (l.lr.commit = 1 → l.blocksDone.length = l.lr.gridx * l.lr.gridy * l.lr.gridz → l.committed = [] → (l.shadow.cells.map (fun c => c.1)).Nodup →
      l.pubs = [] → ∃ t l', exec (.blockCommit n u) s = .next t ∧ Tbl.get t.launches n = some l' ∧ Installs (shadowBytes l.shadow none) s t ∧
        l'.shadow = Shadow.empty ∧ ∀ i, i ∈ l'.committed ↔ i < l.lr.gridx * l.lr.gridy * l.lr.gridz) ∧
    (l.lr.commit = 2 → u ∈ l.blocksDone → u ∉ l.committed → (∀ i, i < u → i ∈ l.committed) →
      ∀ g, l.gangs.find? (fun g => g.idx = u / l.lr.gang && g.copy = 0) = some g → (g.shadow.cells.map (fun c => c.1)).Nodup →
        (∀ q ∈ g.pubs, q.1 ≠ u % l.lr.gang) →
        ∃ t l', exec (.blockCommit n u) s = .next t ∧ Tbl.get t.launches n = some l' ∧ l'.committed = l.committed ++ [u] ∧
          Installs (shadowBytes g.shadow (some (u % l.lr.gang))) s t) ∧
    ((l.lr.commit = 2 ∧ (u ∉ l.blocksDone ∨ u ∈ l.committed ∨ ∃ i, i < u ∧ i ∉ l.committed)) ∨ l.lr.commit = 0 ∨ l.lr.commit = 3 →
      exec (.blockCommit n u) s = .next s)
/-- A word that no instruction of the table has: ILLOP with its first parcel; under an empty split mask no trap, and the split goes past the
word (09 R223, R224, R233). -/
def ReservedWordTraps : Prop :=
  ∀ w s i, issuer s = some i →
    (i.p.mask ≠ 0 → CanTrap i → ∃ t, exec (.reservedEncoding w) s = .next t ∧
      EnteredHandler i { code := 0x01, pc := i.p.pc, res := i.p.pc, parcel := w.extractLsb' 0 16 } s t) ∧
    (i.p.mask = 0 → ∃ t m m' p', exec (.reservedEncoding w) s = .next t ∧ OnlyTeam i.b i.t s t ∧ teamOf s i.b i.t = some m ∧
      teamOf t i.b i.t = some m' ∧ m' = { m with splits := m'.splits } ∧ OnlySplit i.e m.splits m'.splits ∧ Tbl.get m'.splits i.e = some p' ∧
      p'.pc = pastWord i.p.pc w ∧ p'.mask = 0)

end Sys2Proof.Spec

/-- 25 R465, R467, R473, 15 R339 to R341, 01 R32, R37, 02 R50, 24 R459, R460, 09 R224: what befalls teams between their instructions: watchdogs,
asynchronous traps, splits that age, results that arrive, requests for room, limits, commits, and words that decode to nothing. These
clauses are the model's choices: a deferred split's exchange (log 110) and its slot's layout (log 30), an MMA that leaves the latch (log 69),
the time at which an aged split's turn comes (log 15), the 10 µs that begin again after each attempt to make room (log 27), the refusal
counted where a gang cannot be saved at its limit (log 88), and a result's arrival, which changes nothing (log 10). -/
def Obligations.TeamEvents : Prop :=
  WatchdogExpires ∧ DeferredWatchdog ∧ AsyncTrapArrives ∧ SplitAges ∧ BlockedGangAsks ∧ ShrinkLimitReached ∧ UnitCommits ∧ ReservedWordTraps ∧
  (∀ b n e s, exec (.resultWriteback b n e) s = .next s)


namespace Sys2Proof.Spec

/-! ### Placement, saving, restoring, and the ends of launches and contexts -/

/-- A team at its start (01 R29, R31, R33): RUNNING with every lane in one READY split at its entry, and, under a block's start, a member of
all 20 barriers. -/
def FreshTeam (m : Team) (width : Nat) (mask : Mask) (pc : BitVec 56) : Prop :=
  m.st = .running ∧ m.width = width ∧ m.ex = 0 ∧ m.dead = 0 ∧ m.trap = none ∧ m.dq = [] ∧ m.joins = [] ∧ m.defer = [] ∧ (∀ r k, m.reg r k = 0) ∧
  ∃ p, m.splits = [(0, p)] ∧ p.mask = mask ∧ p.pc = pc ∧ p.st = .ready ∧ p.held = none ∧ p.pend = none
/-- A block as it is placed (01 R16, R29, R31, R34, R39): its first teams at TENTRY, its front program at FENTRY if it has one, its
barriers counting its teams, its scratchpad zero in one allocation. -/
def FreshBlock (s : State) (n g c pos core : Nat) (r : LaunchRec) (k : Block) : Prop :=
  k.launch = n ∧ k.lin = g * r.gang + pos ∧ k.copy = c ∧ k.gang = g ∧ k.pos = pos ∧ k.core = core ∧ k.st = .running ∧ k.shrink = none ∧
  k.handles = [] ∧ k.cmds = [] ∧ k.copyTl = { n := 0, v := 0 } ∧ k.mmaTl = { n := 0, v := 0 } ∧ k.mvTl = { n := 0, v := 0 } ∧
  k.bars.length = 16 ∧ (∀ b ∈ k.bars, b.m = r.initt ∧ b.a = 0 ∧ b.phase = 0) ∧
  (∀ i, i < r.initt → ∃ m, Tbl.get k.teams i = some m ∧ m.nregs = r.regs ∧ FreshTeam m r.width (allLanes r.width) r.tentry ∧
    ∀ b, b < 20 → ∃ q, Tbl.get m.bars b = some q ∧ q.al = 0) ∧
  (∀ i, r.initt ≤ i → i < 16 → Tbl.get k.teams i = none) ∧
  (r.fentry = 0 → Tbl.get k.teams 16 = none) ∧
  (r.fentry ≠ 0 → ∃ m, Tbl.get k.teams 16 = some m ∧ m.nregs = r.kregs ∧ FreshTeam m 1 1 r.fentry) ∧
  (r.scratch = 0 → k.allocs = []) ∧
  (r.scratch ≠ 0 → ∃ a, k.allocs = [a] ∧ a.len = r.scratch ∧ a.span = r.span ∧ a.busy = false ∧ k.spgen = a.gen ∧ k.spbase = a.off ∧
    ∀ i, i < r.scratch → Sparse.get (w := 8) s.spad (core * 2 ^ 19 + a.off + i) = 0)
/-- The event that places a gang whose launch's turn it is on cores of one cluster that can take it, PARAM having been copied (01 R15, R16; 23
R441; 25 R474, R477). -/
def GangPlaced : Prop :=
  ∀ n g c cores s l, Tbl.get s.launches n = some l → l.ready = true → l.param ≠ none → s.mgmt.ready = true → s.mgmt.brown = false →
    let u : GangUnit := { gang := g, copy := c, restore := false }
    itsTurn s n l = true → nextUnit s n l = some u → coresOk cores l.lr.gang = true → (∀ q ∈ cores, coreFits s q l.lr = true) →
    clusterFits s n l u (cores.headD 0 / 8) = true → barredFor s (rankOf l) (cores.headD 0 / 8) = false →
    (∀ b, s.nextBlock ≤ b → Tbl.get s.blocks b = none) → l.lr.initt ≤ 16 →
    ∃ t l', exec (.placeGang n g c cores) s = .next t ∧ t.mem = s.mem ∧ t.nextBlock = s.nextBlock + l.lr.gang ∧ Tbl.get t.launches n = some l' ∧
      (∀ i core, cores[i]? = some core → ∃ k, Tbl.get t.blocks (s.nextBlock + i) = some k ∧ FreshBlock t n g c i core l.lr k) ∧
      (∀ b k, Tbl.get s.blocks b = some k → (∀ q, k.shrink = some q → q.forLaunch ≠ n) → Tbl.get t.blocks b = some k) ∧
      l'.st = .placed ∧ l'.blockedSince = [] ∧ (∃ gg, l'.gangs = l.gangs ++ [gg] ∧ gg.idx = g ∧ gg.copy = c ∧ gg.cluster = cores.headD 0 / 8 ∧
        gg.bars.length = 4 ∧ ∀ b ∈ gg.bars, b.m = l.lr.gang * l.lr.initt ∧ b.a = 0 ∧ b.phase = 0) ∧
      (l.rerun = [] → l'.nextGang = l.nextGang + 1 ∧ l'.rerun = if l.lr.commit = 3 ∧ c = 0 then [(g, 1)] else []) ∧
      (∀ q rest, l.rerun = q :: rest → l'.nextGang = l.nextGang ∧ l'.rerun = rest) ∧
      Tbl.get t.turns (rankOf l) = some l.ctx
/-- The blocks of a gang that is being saved have come to rest: none has a command accepted and not completed, nor a copy, a multicast or a
free that is open, so that N equals V on each of its timelines (24 R461, 04 R108). -/
def AtRest (q : Block) : Prop :=
  q.st = .saving ∧ q.saveWaits = [] ∧ (∀ c ∈ q.cmds, c.finished = true) ∧ (∀ m ∈ q.teams, m.2.copies = []) ∧
  ∀ a ∈ q.allocs, a.busy = false ∧ a.mcast = 0
/-- An address lies in the image of a block (24 R462). -/
def InImage (s : State) (i : Nat) (k : Block) (a : Nat) : Prop :=
  imageAddr (ctxOf s (ctxNum s i)) k ≤ a ∧ a < imageAddr (ctxOf s (ctxNum s i)) k + 0x200000
/-- An address lies in the image of one of a list of blocks. -/
def InImages (s : State) (bs : List Nat) (a : Nat) : Prop := ∃ i k, i ∈ bs ∧ Tbl.get s.blocks i = some k ∧ InImage s i k a
/-- The returns that a save spills, each with the address of its slot (24 R461, R455). -/
def spillSlots (s : State) (bs : List Nat) : List (Nat × BitVec 56) :=
  bs.flatMap (fun i => match Tbl.get s.blocks i with
    | none => []
    | some k => (saveSpills k).map (fun q => (laneSpillAddr (ctxOf s (ctxNum s i)) q.1 q.2.1 q.2.2.1, q.2.2.2)))
/-- An address lies in a slot that a save spills to. -/
def InSpills (s : State) (bs : List Nat) (a : Nat) : Prop := ∃ q ∈ spillSlots s bs, q.1 ≤ a ∧ a < q.1 + 8
/-- Addresses of a context's space lie in the capacity tier at the places that `loc` gives, in one run within each sector. -/
def LiesAt (s : State) (x : Nat) (area : Nat → Prop) (loc : Nat → Nat) : Prop :=
  ∀ a, area a → placeOf s x (globalTarget s x a false) = some (.cap (loc a)) ∧ (a % 512 ≠ 511 → area (a + 1) → loc (a + 1) = loc a + 1)
/-- What a save of a list of blocks writes, images and spills, lies byte by byte apart, and off the tables that translate it. -/
def ImagesApart (s : State) (x : Nat) (bs : List Nat) (loc : Nat → Nat) : Prop :=
  let area := fun a => InImages s bs a ∨ InSpills s bs a
  (∀ a b, area a → area b → loc a = loc b → a = b) ∧
  (∀ mem, (∀ p, (∀ a, area a → loc a ≠ p) → Sparse.get (w := 8) mem p = Sparse.get (w := 8) s.mem p) → LiesAt { s with mem := mem } x area loc) ∧
  (∀ a i j k q, i ∈ bs → j ∈ bs → Tbl.get s.blocks i = some k → Tbl.get s.blocks j = some q → InImage s i k a → InImage s j q a → i = j) ∧
  (∀ a, InImages s bs a → ¬ InSpills s bs a) ∧ (spillSlots s bs).Pairwise (fun u v => u.1 + 8 ≤ v.1 ∨ v.1 + 8 ≤ u.1)
/-- Lane-registers of teams, a word each. -/
def teamWords (ts : List (Nat × Team)) : Nat := (ts.map (fun c => c.2.nregs * c.2.width)).sum
/-- What blocks hold on their cores is within each core's stores and nowhere held twice: banks, scratchpad lines, registers (05 R128; 03 R78; 01 R29). -/
def StoresApart (s : State) (bs : List Nat) : Prop :=
  let held := fun (f : Block → List (Nat × Nat)) => bs.flatMap (fun i => ((Tbl.get s.blocks i).map f).getD [])
  let apart := fun (u v : Nat × Nat) => u.1 + u.2 ≤ v.1 ∨ v.1 + v.2 ≤ u.1
  (held (fun k => k.handles.map (fun h => (k.core * 128 + h.first, h.count)))).Pairwise apart ∧
  (held (fun k => k.allocs.map (fun a => (k.core * 2 ^ 19 + a.off, a.len)))).Pairwise apart ∧
  ∀ i k, i ∈ bs → Tbl.get s.blocks i = some k → (∀ h ∈ k.handles, h.first + h.count ≤ 128) ∧
    (∀ a ∈ k.allocs, a.off + a.len ≤ 2 ^ 19 ∧ a.off % 128 = 0 ∧ a.len % 128 = 0) ∧ teamWords (imageTeams k) ≤ 0x40000 ∧
    (k.teams.map (fun c => c.1)).Nodup ∧ ∀ c ∈ k.teams, c.2.width ≤ 1024
/-- A little-endian word of memory at an address of an image. -/
def WordAt (mem : List Host.Cell) (loc : Nat → Nat) (a : Nat) (v : Word) : Prop :=
  ∀ i, i < 4 → Sparse.get (w := 8) mem (loc (a + i)) = BitVec.ofNat 8 (v.toNat / 256 ^ i)
/-- An image holds a block's registers, banks and scratchpad as they stand: each register as one word a lane in logical order, team by team;
the banks by logical bank; the scratchpad by offset (24 R462). -/
def ImageHas (mem : List Host.Cell) (loc : Nat → Nat) (a : Nat) (k : Block) (o : State) : Prop :=
  (∀ j c r l, (imageTeams k)[j]? = some c → r < c.2.nregs → l < c.2.width →
    WordAt mem loc (a + 0x40000 + 4 * (teamWords ((imageTeams k).take j) + r * c.2.width + l)) (c.2.reg r l)) ∧
  (∀ h ∈ k.handles, ∀ w, w < h.count * 512 →
    WordAt mem loc (a + 0x140000 + 4 * (h.first * 512 + w)) (Sparse.get o.acc (k.core * 65536 + h.first * 512 + w))) ∧
  (∀ al ∈ k.allocs, ∀ n, n < al.len →
    Sparse.get (w := 8) mem (loc (a + 0x180000 + al.off + n)) = Sparse.get (w := 8) o.spad (k.core * 2 ^ 19 + al.off + n))
/-- The event that saves a gang at rest, all of its images and spills being in reach (24 R461): every block SAVED with its teams, no
register, return, bank or scratchpad line left on the core, and all of them held by its image and its spill areas; no other byte of memory
changed. A save that would read poison of a block's banks or scratchpad has that block rerun instead (25 R470). -/
def GangSaved : Prop :=
  ∀ b s k, Tbl.get s.blocks b = some k → (s.blocks.map (fun q => q.1)).Nodup →
    let gang := gangBlocks s k.launch k.gang k.copy
    (∀ i q, Tbl.get s.blocks i = some q → i ∈ gang → AtRest q) →
    (∀ n, gang.find? (saveHurt s) = some n → exec (.saveComplete b) s = .next (addDue s (.rerun n false))) ∧
    ∀ s2, (∀ i q, Tbl.get s.blocks i = some q → i ∈ gang → saveHurt s i = false ∧ saveDying s i = [] ∧
        ∀ p ∈ saveSpills q, spillBeyond (ctxOf s (ctxNum s b)) p = false) →
      AsksGo (ctxNum s b) [] s (gangAsks saveAsks s gang) s2 →
      ∃ t, exec (.saveComplete b) s = .next t ∧
        (∀ i q, Tbl.get s.blocks i = some q → i ∈ gang → ∃ q', Tbl.get t.blocks i = some q' ∧
          q' = { q with st := .saved, savedFull := q'.savedFull, teams := q'.teams } ∧
          (∀ h ∈ q.handles, ∀ w, w < h.count * 512 → Sparse.get t.acc (q.core * 65536 + h.first * 512 + w) = 0) ∧
          (∀ al ∈ q.allocs, ∀ n, n < al.len → Sparse.get (w := 8) t.spad (q.core * 2 ^ 19 + al.off + n) = 0) ∧
          ∀ n m, Tbl.get q.teams n = some m → ∃ m', Tbl.get q'.teams n = some m' ∧ (m.st = .ended → m' = m) ∧
            (m.st ≠ .ended → m' = { m with st := .saved, prior := m.st, regs := m'.regs, splits := m'.splits, defer := m'.defer, spilled := m'.spilled,
                                           rets := m'.rets } ∧
              (n < 16 → m'.regs = [] ∧ m'.rets = []) ∧ (n = 16 → m'.regs = m.regs ∧ m'.rets = m.rets) ∧
              ∀ e p, Tbl.get m.splits e = some p → ∃ p', Tbl.get m'.splits e = some p' ∧
                p' = { p with wdKept := if p.stopped then p.wdKept else some (s.now - p.wd) })) ∧
        ∀ loc, ImagesApart s2 (ctxNum s b) gang loc → StoresApart s gang →
          (∀ i q, Tbl.get s.blocks i = some q → i ∈ gang → ImageHas t.mem loc (imageAddr (ctxOf s (ctxNum s i)) q) q s ∧
            ∃ q', Tbl.get t.blocks i = some q' ∧ q'.savedFull = fullLines s q) ∧
          (∀ q ∈ spillSlots s gang, ∀ i, i < 8 → Sparse.get (w := 8) t.mem (loc (q.1 + i)) = BitVec.ofNat 8 (q.2.toNat / 256 ^ i)) ∧
          ∀ p, (∀ a, InImages s gang a ∨ InSpills s gang a → loc a ≠ p) → Sparse.get (w := 8) t.mem p = Sparse.get (w := 8) s.mem p
/-- The event by which a saved gang begins its return to cores that can take it, in its launch's turn (24 R463, 01 R44): each block is RESTORING
on its core, its request withdrawn, and holds datapaths there. -/
def GangReturns : Prop :=
  ∀ n g c cores s l, Tbl.get s.launches n = some l → s.mgmt.ready = true → s.mgmt.brown = false → restoringBlocks s n g c = [] →
    let u : GangUnit := { gang := g, copy := c, restore := true }
    let ks := savedBlocks s n u
    nextUnit s n l = some u → itsTurn s n l = true → coresOk cores ks.length = true → copyApart l u (cores.headD 0 / 8) = true →
    (∀ q ∈ List.zip cores ks, coreRestores s q.1 q.2.2 = true) → barredFor s (rankOf l) (cores.headD 0 / 8) = false →
    (s.blocks.map (fun q => q.1)).Nodup →
    ∃ t l', exec (.gangRestore n g c cores) s = .next t ∧ Tbl.get t.launches n = some l' ∧ l'.blockedSince = [] ∧ t.mem = s.mem ∧
      t.spad = s.spad ∧ Tbl.get t.turns (rankOf l) = some l.ctx ∧
      (∀ gg ∈ l'.gangs, gg.idx = g → gg.copy = c → gg.cluster = cores.headD 0 / 8) ∧
      ∀ (i b : Nat) (k : Block) (core : Nat), ks[i]? = some (b, k) → cores[i]? = some core → ∃ k', Tbl.get t.blocks b = some k' ∧
        k' = { k with core := core, st := .restoring, shrink := none, prior := if k.prior = .shrinking then .running else k.prior, teams := k'.teams } ∧
        ∀ q m, Tbl.get k.teams q = some m → ∃ m', Tbl.get k'.teams q = some m' ∧ m' = { m with dp := m'.dp }
/-- A block as it was saved and as it returns: the same teams of the same sizes, the same handles and allocations. -/
def SameShape (q k : Block) : Prop :=
  (imageTeams q).map (fun c => (c.1, c.2.nregs, c.2.width)) = (imageTeams k).map (fun c => (c.1, c.2.nregs, c.2.width)) ∧
  q.handles = k.handles ∧ q.allocs = k.allocs
/-- A block on its core holds what a block of that shape held in another state, on the core it was on then: its registers (the predicates are
among them), its accumulator banks and its scratchpad. -/
def HoldsAgain (q k' : Block) (o t : State) : Prop :=
  (∀ c ∈ imageTeams q, ∃ m', Tbl.get k'.teams c.1 = some m' ∧ ∀ r l, r < c.2.nregs → l < c.2.width → m'.reg r l = c.2.reg r l) ∧
  (∀ h ∈ q.handles, ∀ w, w < h.count * 512 →
    Sparse.get t.acc (k'.core * 65536 + h.first * 512 + w) = Sparse.get o.acc (q.core * 65536 + h.first * 512 + w)) ∧
  (∀ al ∈ q.allocs, ∀ n, n < al.len →
    Sparse.get (w := 8) t.spad (k'.core * 2 ^ 19 + al.off + n) = Sparse.get (w := 8) o.spad (q.core * 2 ^ 19 + al.off + n))
/-- The event that ends the return of a gang that is RESTORING, its images being in reach and none of its blocks having ended (24 R463, 01 R43,
R44): each block and team in the state it had, its slot free. The round trip: a block whose image holds the registers, banks and scratchpad
of a block as it was saved (`GangSaved`) holds them again on its core. A return that would read poison of an image's control state, banks or
scratchpad has that block rerun instead (25 R470). -/
def GangRestored : Prop :=
  ∀ n g c cores s s2 b0 rest, restoringBlocks s n g c = b0 :: rest → (s.blocks.map (fun q => q.1)).Nodup →
    (∀ b k, b ∈ b0 :: rest → Tbl.get s.blocks b = some k → k.saveWaits = [] ∧ k.ended = false ∧ (k.teams.map (fun q => q.1)).Nodup) →
    AsksGo (ctxNum s b0) [] s (gangAsks restoreAsks s (b0 :: rest)) s2 →
    (∀ h, (b0 :: rest).find? (imageHurt s2) = some h → ∃ t, exec (.gangRestore n g c cores) s = .next t ∧ .rerun h false ∈ t.due ∧ t.acc = s.acc ∧
      t.spad = s.spad ∧ t.mem = s.mem ∧ ∀ b k, Tbl.get s.blocks b = some k → Tbl.get t.blocks b = some k) ∧
    ((∀ b ∈ b0 :: rest, imageHurt s2 b = false ∧ imageDying s2 b = []) →
      ∃ t, exec (.gangRestore n g c cores) s = .next t ∧
        (∀ b k, b ∈ b0 :: rest → Tbl.get s.blocks b = some k → ∃ k', Tbl.get t.blocks b = some k' ∧
          k' = { k with slot := none, st := if k.priorSave = .shrinking then .running else k.priorSave, savedFull := [], teams := k'.teams } ∧
          ∀ q m, Tbl.get k.teams q = some m → ∃ m', Tbl.get k'.teams q = some m' ∧ (m.st = .ended → m' = m) ∧ (q = 16 → m'.regs = m.regs) ∧
            (m.st ≠ .saved → m' = { m with regs := m'.regs }) ∧
            (m.st = .saved → m' = { m with st := m.prior, regs := m'.regs, splits := m'.splits, defer := m'.defer } ∧
              ∀ e p, Tbl.get m.splits e = some p → ∃ p', Tbl.get m'.splits e = some p' ∧
                (p.stopped = true ∨ p.wdKept = none → p' = p) ∧
                ∀ v, p.stopped = false → p.wdKept = some v →
                  p' = { p with wd := s.now - v, wdKept := none, since := s.now, avail := p.avail.map (fun _ => s.now) })) ∧
        ∀ loc, LiesAt s2 (ctxNum s b0) (InImages s2 (b0 :: rest)) loc → StoresApart s (blocksOf s (fun k => k.ended) ++ b0 :: rest) →
          ∀ b k, b ∈ b0 :: rest → Tbl.get s.blocks b = some k → ∃ k', Tbl.get t.blocks b = some k' ∧
            (∀ q o, ImageHas s.mem loc (imageAddr (ctxOf s (ctxNum s b)) k) q o → SameShape q k → HoldsAgain q k' o t) ∧
            ∀ l ∈ k.savedFull, (∃ al ∈ k.allocs, al.off / 128 ≤ l ∧ l < (al.off + al.len) / 128) → k.core * 4096 + l ∈ t.full)
/-- A context that is DYING of a reason (24 R449). -/
def Dying (t : State) (x reason lin : Nat) : Prop :=
  (ctxOf t x).st = .dying ∧ (ctxOf t x).killReason = reason ∧ (ctxOf t x).killBlock = lin
/-- A placed launch replayed (25 R477): none of its blocks is left, and, unless writing PARAM back has killed its context, it is queued with
nothing done and nothing committed; one that cannot be replayed once more kills its context instead. `counts` is false for a brown-out. -/
def Replayed (n lin : Nat) (counts : Bool) (s t : State) : Prop :=
  ∀ l, Tbl.get s.launches n = some l → l.st = .placed → (ctxOf s l.ctx).st = .live →
    (replayable l counts = true → (∀ b k, Tbl.get t.blocks b = some k → k.launch ≠ n) ∧ ∃ l', Tbl.get t.launches n = some l' ∧ l'.gangs = [] ∧
      ((ctxOf t l.ctx).st = .live → l'.st = .queued ∧ l'.ready = true ∧ l'.blocksDone = [] ∧ l'.committed = [] ∧ l'.shadow = Shadow.empty ∧
        l'.pubs = [] ∧ l'.nextGang = 0 ∧ l'.lr = l.lr ∧ l'.replays = (if counts then l.replays + 1 else l.replays) ∧
        ∀ k q, k ≠ n → Tbl.get s.launches k = some q → q.ctx = l.ctx → q.st = .queued → l'.seat < q.seat)) ∧
    (replayable l counts = false → Dying t l.ctx 2 lin)
/-- A mismatch of a block's signatures has been logged: one entry for the block, made once (25 R475). -/
def MismatchNoted (u : Nat) (s t : State) (l l' : Launch) : Prop :=
  u ∈ l'.mismatched ∧ classCount t 0x08 = classCount s 0x08 + (if u ∈ l.mismatched then 0 else 1) ∧ t.blocks = s.blocks ∧ t.mem = s.mem
/-- The event that compares the signatures of the copies of a block (25 R474, R475). -/
def PairsCompared : Prop :=
  ∀ n u s l, Tbl.get s.launches n = some l → l.st = .placed → l.lr.commit = 3 → u ∉ l.blocksDone →
    (l.lr.det = true → u ≠ 0 → u - 1 ∈ l.blocksDone) →
    let g := u / l.lr.gang
    let sigs := sigsFor l g (u % l.lr.gang)
    let confirmed := fun (t : State) (copy : Nat) => ∃ l', Tbl.get t.launches n = some l' ∧ u ∈ l'.blocksDone ∧ u ∈ l'.committed ∧
      ∀ q, l.gangs.find? (fun q => q.idx = g && q.copy = copy) = some q → (q.shadow.cells.map (fun c => c.1)).Nodup →
        (∀ r ∈ q.pubs, r.1 ≠ u % l.lr.gang) → Installs (shadowBytes q.shadow (some (u % l.lr.gang))) s t
    let hasGang := fun (copy : Nat) => (l.gangs.find? (fun q => q.idx = g && q.copy = copy)).isSome = true
    ∃ t, exec (.pairCompare n u) s = .next t ∧
      (∀ a b, sigs = [a, b] → a.2.1 = b.2.1 → hasGang a.1 → confirmed t a.1) ∧
      (∀ a b, sigs = [a, b] → a.2.1 ≠ b.2.1 →
        (moreComing l g [a.1, b.1] = true → ∃ l', Tbl.get t.launches n = some l' ∧ l' = { l with mismatched := l'.mismatched } ∧
          MismatchNoted u s t l l') ∧
        (moreComing l g [a.1, b.1] = false → 3 ≤ clustersInService s → ∃ l' c, Tbl.get t.launches n = some l' ∧
          l' = { l with rerun := l.rerun ++ [(g, c)], mismatched := l'.mismatched } ∧ (∀ q ∈ l.gangs, q.idx = g → q.copy < c) ∧
          MismatchNoted u s t l l') ∧
        (moreComing l g [a.1, b.1] = false → clustersInService s < 3 → Replayed n u true s t)) ∧
      (∀ a b c, sigs = [a, b, c] →
        ((a.2.1 = b.2.1 ∨ a.2.1 = c.2.1) → hasGang a.1 → confirmed t a.1) ∧
        (a.2.1 ≠ b.2.1 → a.2.1 ≠ c.2.1 → b.2.1 = c.2.1 → hasGang b.1 → confirmed t b.1) ∧
        (a.2.1 ≠ b.2.1 → a.2.1 ≠ c.2.1 → b.2.1 ≠ c.2.1 → Replayed n u true s t)) ∧
      (sigs.length < 2 → t = s)
/-- The event that ends a context kill (24 R449): once no block of it is left and its collective contexts have halted, the context is
KILLED, one CTXKILL entry is counted and one CTXKILLED event arises, with the number of the command that killed it (23 R436), then the DONE
of the command that asked for it. -/
def KillEnds : Prop :=
  ∀ x s,
    ((ctxOf s x).st = .dying → (∀ b k, (b, k) ∈ s.blocks → ctxNum s b ≠ x) →
      (∀ n c, (n, c) ∈ s.ccs → c.st ≠ .unbound → c.ctx = x → (ccOf s n).st = .halted) →
      let c := ctxOf s x
      ∃ s1 t, exec (.contextKillComplete x) s = .next t ∧ (ctxOf s1 x).st = .killed ∧ classCount s1 0x09 = classCount s 0x09 + 1 ∧
        s1.blocks = s.blocks ∧ s1.mem = s.mem ∧ s1.launches = s.launches ∧
        t = (match c.killAck with
          | none => emit (event 0x09 x c.killReason c.killSeq c.killCount c.killBlock) s1
          | some q => emit (event 0x01 x 0 q 0 0) (emit (event 0x09 x c.killReason c.killSeq c.killCount c.killBlock) s1))) ∧
    (((ctxOf s x).st ≠ .dying ∨ (∃ b k, (b, k) ∈ s.blocks ∧ ctxNum s b = x) ∨
      ∃ n c, (n, c) ∈ s.ccs ∧ c.st ≠ .unbound ∧ c.ctx = x ∧ (ccOf s n).st ≠ .halted) → exec (.contextKillComplete x) s = .next s)

end Sys2Proof.Spec

/-- 01 R15, R16, R29, R31, R34, R39, 23 R441, 24 R449, R461, R463, 25 R474, R475: gangs placed, saved and restored whole, pairs compared, and
contexts killed to the end. -/
def Obligations.PlacementEvents : Prop :=
  GangPlaced ∧ GangSaved ∧ GangReturns ∧ GangRestored ∧ PairsCompared ∧ KillEnds


namespace Sys2Proof.Spec

/-! ### Collectives -/

/-- What is left to arrive once a message has been taken (27 R498). -/
def Taken1 (m : Msg) (s s1 : State) : Prop := deliverable s m = true ∧ s1 = { s with fab := { s.fab with inbox := s.fab.inbox.erase m } }
/-- The context counts an arrival that it discards (16 R354). -/
def Discards (n : Nat) (s t : State) : Prop :=
  (∀ k, k ≠ n → Tbl.get t.ccs k = Tbl.get s.ccs k) ∧ ccOf t n = { ccOf s n with discarded := (ccOf s n).discarded + 1 }
/-- A message's generation and round are those of a context, with no ring bound generation 0 (16 R354). -/
def Matches (s : State) (h : Hdr) : Prop := h.gen = ringGen (ccOf s h.cc) ∧ h.round = (ccOf s h.cc).round.num
/-- They are those of a bound context. -/
def Addressed (s : State) (h : Hdr) : Prop := (ccOf s h.cc).st ≠ .unbound ∧ Matches s h
/-- An entry that its mask and its curds let fire (07 R184). -/
def CanFire (c : Cc) (x : Nat) : Prop :=
  let e := entryOf c x
  c.round.st = .active ∧ e.st = .armed ∧ MaskSet c e.image ∧
  (needsCurd c e.image = true → e.slot.posted = true ∧ ∀ j, j < c.ch / 256 → Tbl.get e.slot.got j ≠ none)
/-- The event of an entry that fires (07 R184, R186): FIRED, with a firing that captures its image, round and version, and for an origin the
data that can be read then; a fault of its churn ends the round instead. That an origin's data whose page is missing are read once the page
has come is the model's choice (log 135). With an entry that cannot fire, its firings' churn goes on, and with none open nothing happens. -/
def EntryFires : Prop :=
  ∀ n x s, n < 1024 →
    (CanFire (ccOf s n) x → ∃ t, exec (.entryFire n x) s = .next t ∧ ((ccOf t n).round.st ≠ .aborted →
      (entryOf (ccOf t n) x).st = .fired ∧ (entryOf (ccOf t n) x).version = (entryOf (ccOf s n) x).version ∧
      ∃ f, (entryOf (ccOf t n) x).firings.getLast? = some f ∧ f.image = (entryOf (ccOf s n) x).image ∧ f.round = (ccOf s n).round.num ∧
        f.version = (entryOf (ccOf s n) x).version ∧ ∀ j, j < (ccOf s n).ch / 256 → f.image.role = 0 → ∀ p,
          ccReach s n needR false true (f.image.laddr + 1024 * j) = .go p → poisoned s Shadow.empty p 1024 = false →
          Tbl.get f.data j = some ((List.range 1024).map (readByte s Shadow.empty p)))) ∧
    (¬ CanFire (ccOf s n) x → (∀ v, (x, v) ∉ openFirings (ccOf s n)) → exec (.entryFire n x) s = .next s) ∧
    (∀ v, ¬ CanFire (ccOf s n) x → (x, v) ∈ openFirings (ccOf s n) → exec (.entryFire n x) s = exec (.firingComplete n x) s)
/-- Element by element, what a block of 256 elements sends before it is encoded (07 R178, 28 R513): an origin g + whey; a hop what came in
+ g + its own whey, then the origin's where any of that is not zero; a final owner what came in (nothing when alone in its ring) + g, the origin's
in the same way, then its own whey. -/
def BlockSums (c : Cc) (f : Firing) (bf : Bool) (inn g wo w : List Word) : Prop :=
  inn.length = 256 → g.length = 256 → wo.length = 256 → w.length = 256 → ∀ i, i < 256 →
    let gi := g.getD i 0
    let carry := fun v => if wo.any (fun q => (widen bf q).extractLsb' 0 31 ≠ 0) then add32 v (widen bf (wo.getD i 0)) else v
    let v := (blockValue c f bf g inn wo w).getD i 0
    (f.image.role = 0 → v = add32 gi (widen bf (wo.getD i 0))) ∧
    (f.image.role = 1 → v = carry (add32 (add32 (inn.getD i 0) gi) (widen bf (w.getD i 0)))) ∧
    (f.image.role = 2 → needsCurd c f.image = true → v = add32 (carry (add32 (inn.getD i 0) gi)) (widen bf (w.getD i 0))) ∧
    (f.image.role = 2 → needsCurd c f.image = false → v = add32 (carry gi) (widen bf (w.getD i 0)))
/-- What a block's churn leaves (07 R178, R180): the curd it sends, the whey of its own role and zeros for the origin's where it was added, and
the values it writes: a final owner's own curd decoded, a gather receipt's the curd that came. -/
def BlockLeaves (c : Cc) (f : Firing) (bf : Bool) (j : Nat) (g wo w : List Word) : Prop :=
  let e := encodeCurd f.image.fmt bf (blockValue c f bf g (curdIn f j) wo w)
  let o := blockChurn c f bf j g wo w
  let reset := if wo.any (fun q => (widen bf q).extractLsb' 0 31 ≠ 0) then [(0, List.replicate 256 (0 : Word))] else []
  (f.image.role = 0 → o.curd = some e.image ∧ o.whey = [(0, e.resid)] ∧ o.result = none) ∧
  (f.image.role = 1 → o.curd = some e.image ∧ o.whey = reset ++ [(1, e.resid)] ∧ o.result = none) ∧
  (f.image.role = 2 → o.curd = some e.image ∧ o.whey = reset ++ [(2, e.resid)] ∧
    o.result = some ((List.range 256).map (decodeElem f.image.fmt e.image))) ∧
  (f.image.role = 3 → o.curd = none ∧ o.whey = [] ∧ (curdBad f j = false → o.result = some ((List.range 256).map (decodeElem f.image.fmt (Tbl.getD f.got j [])))))
/-- What lands of a block's churn: whey, then values (07 R180). -/
def churnPieces (c : Cc) (f : Firing) (w : Option WheyObj) (j : Nat) (o : BlockOut) : List (Nat × List Byte) :=
  (match w with
    | none => []
    | some w => o.whey.flatMap (fun q => piecesOf (wheyAddr w c.ch f.image.chunk q.1 j) (wheyBytes w q.2))) ++
  (match o.result with
    | none => []
    | some vs => piecesOf (blockAddr f j) (vs.flatMap (fun v => leBytes 4 v.toNat)))
/-- The event by which firings go on (16 R357; 07 R177, R180), where one block is left of one firing, all it reads and writes is in reach and
nothing holds poison: the block's whey and values land, its curd goes to every receiver, and it is done. An origin's data are those its firing
read as it started. That the whey object counts as touched from the step's start is the model's choice (log 127). -/
def FiringGoesOn : Prop :=
  (∀ c f bf inn g wo w, BlockSums c f bf inn g wo w) ∧ (∀ c f bf j g wo w, BlockLeaves c f bf j g wo w) ∧
  ∀ n x f j s s1 s2 s3,
    let c := ccOf s n
    openFirings c = [(x, f.version)] → (entryOf c x).firings.find? (fun g => g.version = f.version) = some f → (∀ g ∈ (entryOf c x).firings, g.version = f.version → g = f) → c.st ≠ .unbound →
    j < c.ch / 256 → j ∉ f.blocksDone → (∀ i, i < c.ch / 256 → i ≠ j → i ∈ f.blocksDone) → mustWait c f = false → s.poison = [] →
    (needsCurd c f.image = true → curdBad f j = false) →
    let w := if f.image.role = 3 then none else Tbl.get c.whey f.image.whey
    s1 = (if w.isSome then putCc s n { c with touched := insertNat c.touched f.image.whey } else s) →
    let ask := if (Tbl.get f.data j).isSome then [] else [f.image.laddr + 1024 * j]
    ∀ sm, CcAsksGo n (if f.image.role = 2 then needRW else if f.image.role = 3 then needW else needR) false (f.image.role ≠ 2 && f.image.role ≠ 3) s1 ask sm →
    CcAsksGo n needRW false false sm (blockWhey c f w j) s2 → wheyAbsent s2 n (blockWhey c f w j) = [] →
    let o := blockChurn c f ((w.map WheyObj.bf).getD false) j (dataWords ((Tbl.get f.data j).getD (ccRead s2 n (f.image.laddr + 1024 * j) 1024)))
      ((w.map (fun w => wheyIn s2 n f w 0 j)).getD []) ((w.map (fun w => wheyIn s2 n f w f.image.role j)).getD [])
    CcLands n s2 (churnPieces c f w j o) s3 →
    ∃ t, exec (.firingComplete n x) s = .next t ∧ t.mem = s3.mem ∧ t.host = s3.host ∧ t.spad = s3.spad ∧ t.chip = s3.chip ∧ t.blocks = s.blocks ∧
      (t.fab = (sendMsgs (match o.curd with
        | none => []
        | some bs => (receivers c f.image).map (fun r => .curd { src := s.fab.rank, dst := r, cc := n, round := f.round, gen := ringGen c }
            (f.image.role = 2) f.image.chunk j (f.version.toNat * 256 + x) bs)) s).fab) ∧
      ∀ f', (entryOf (ccOf t n) x).firings.find? (fun g => g.version = f.version) = some f' → f'.blocksDone = f.blocksDone ++ [j]
/-- The answer to a curd (07 R189). -/
def answerOf (h : Hdr) (entry blk : Nat) (ok : Bool) : Msg := .reply { h with src := h.dst, dst := h.src } entry blk ok
/-- The event of a curd's arrival (07 R180, R189; 16 R354, R355): accepted once by the posted slot of the entry armed for it, answered; refused
"not posted" where no slot stands open, the rank of its sender kept; refused, discarded and counted where its ring or round is another. That one
for a context not bound here is dropped, uncounted and unanswered, is the model's choice (log 126). -/
def CurdArrives : Prop :=
  ∀ h gather chunk blk entry bytes s s1, Taken1 (.curd h gather chunk blk entry bytes) s s1 →
    let c := ccOf s h.cc
    ∃ t, exec (.curdArrival (.curd h gather chunk blk entry bytes)) s = .next t ∧
      (c.st = .unbound → t = s1) ∧
      (c.st ≠ .unbound → ¬ Matches s h → Discards h.cc s1 t ∧ t.fab = (sendMsg s1 (answerOf h entry blk false)).fab) ∧
      (Addressed s h → slotFor c gather chunk h.src = none → ∃ c2, c2 = { c with early := c2.early } ∧
        t = sendMsg (putCc s1 h.cc c2) (answerOf h entry blk false) ∧ (∀ q ∈ c2.early, q ∈ c.early ∨ q = (chunk, h.src)) ∧
        (∀ q ∈ c.early, q ∈ c2.early) ∧ (gather = false → c.round.st = .active → h.src ∈ ringRanks c → (chunk, h.src) ∈ c2.early)) ∧
      (∀ x, Addressed s h → slotFor c gather chunk h.src = some x →
        let e := entryOf c x
        (e.slot.posted = false → t.fab = (sendMsg s1 (answerOf h entry blk false)).fab ∧ (entryOf (ccOf t h.cc) x).slot.got = e.slot.got ∧
          (e.image.peermode = true → e.image.role = 1 → h.src ∈ (entryOf (ccOf t h.cc) x).slot.kept)) ∧
        (e.slot.posted = true → Tbl.get e.slot.got blk ≠ none → Discards h.cc s1 t ∧ t.fab = (sendMsg s1 (answerOf h entry blk true)).fab) ∧
        (e.slot.posted = true → Tbl.get e.slot.got blk = none →
          let c2 := { c with entries := Tbl.put c.entries x { e with slot := { e.slot with got := Tbl.put e.slot.got blk bytes } } }
          (¬ CanFire c2 x → t = sendMsg (putCc s1 h.cc c2) (answerOf h entry blk true)) ∧
          (CanFire c2 x → h.cc < 1024 → exec (.entryFire h.cc x) (sendMsg (putCc s1 h.cc c2) (answerOf h entry blk true)) = .next t)))
/-- A firing whose send of a block has been answered by a rank (16 R357). -/
def answered (rank blk : Nat) (ok : Bool) (f : Firing) : Firing :=
  { f with sends := f.sends.map (fun q => if q.rank = rank ∧ Tbl.get q.sent blk = some .flying then
      { q with sent := Tbl.put q.sent blk (if ok then .accepted else .refused) } else q) }
/-- The event of an answer (07 R189, 16 R357): the send in flight to its sender is accepted or refused; of another ring or round, or with none
ACTIVE (the model's choice, log 120), it is discarded and counted. -/
def ReplyArrives : Prop :=
  ∀ h entry blk ok s s1, Taken1 (.reply h entry blk ok) s s1 →
    let c := ccOf s h.cc
    let x := entry % 256
    let v := BitVec.ofNat 16 (entry / 256)
    ∃ t, exec (.curdReply (.reply h entry blk ok)) s = .next t ∧
      (c.st ≠ .unbound → (¬ Matches s h ∨ c.round.st ≠ .active) → Discards h.cc s1 t) ∧
      (Addressed s h → c.round.st = .active → OnlyCc h.cc s1 t ∧ (entryOf (ccOf t h.cc) x).st = (entryOf c x).st ∧
        (∀ f', f' ∈ (entryOf (ccOf t h.cc) x).firings → ∃ f ∈ (entryOf c x).firings, f' = if f.version = v then answered h.src blk ok f else f) ∧
        ∀ f, (entryOf c x).firings.getLast? = some f →
          (entryOf (ccOf t h.cc) x).firings.getLast? = some (if f.version = v then answered h.src blk ok f else f))
/-- The event of a posted notice (16 R358): kept, once; with no round ACTIVE it is discarded and counted (the model's choice, log 120). -/
def NoticeArrives : Prop :=
  ∀ h gather chunk s s1, Taken1 (.posted h gather chunk) s s1 →
    let c := ccOf s h.cc
    ∃ t, exec (.postedNotice (.posted h gather chunk)) s = .next t ∧
      (c.st ≠ .unbound → (¬ Matches s h ∨ c.round.st ≠ .active) → Discards h.cc s1 t) ∧
      (Addressed s h → c.round.st = .active → OnlyCc h.cc s1 t ∧
        ccOf t h.cc = { c with notices := if (h.src, gather, chunk) ∈ c.notices then c.notices else c.notices ++ [(h.src, gather, chunk)] })
/-- A round ended as ABORTED with an outcome and the rank that began it (07 R185, R190; 16 R364), every other member told. -/
def AbortsRound (n outcome rank : Nat) (s t : State) : Prop :=
  let c := ccOf s n
  let c' := ccOf t n
  (∀ k, k ≠ n → Tbl.get t.ccs k = Tbl.get s.ccs k) ∧ t.mem = s.mem ∧ t.blocks = s.blocks ∧
  c'.round = { c.round with st := .aborted, outcome := outcome, abortRank := rank, deadline := none } ∧
  (∀ x, (entryOf c' x).st = .disarmed ∧ (entryOf c' x).slot = { posted := false, pending := false, got := [], kept := [] } ∧
    (entryOf c' x).version = (entryOf c x).version ∧ ∀ f ∈ (entryOf c' x).firings, f.inFlight (c.ch / 256) = false) ∧
  (∀ h w, Tbl.get c.whey h = some w → Tbl.get c'.whey h = some (if h ∈ c.touched then { w with torn := true } else w)) ∧
  c'.notices = [] ∧ c'.board = c.board ∧
  t.fab = (sendMsgs ((otherRanks c).map (fun r => .abort { src := s.fab.rank, dst := r, cc := n, round := c.round.num, gen := ringGen c })) s).fab
/-- The events that abort a round: another member's notice, outcome 3 and its rank, and the deadline, outcome 1 (16 R362, R364). -/
def AbortsArrive : Prop :=
  (∀ h s s1, Taken1 (.abort h) s s1 → ∃ t, exec (.abortNotice (.abort h)) s = .next t ∧
    ((ccOf s h.cc).st ≠ .unbound → (¬ Matches s h ∨ (ccOf s h.cc).round.st ≠ .active) → Discards h.cc s1 t) ∧
    (Addressed s h → (ccOf s h.cc).round.st = .active → AbortsRound h.cc 3 h.src s1 t)) ∧
  (∀ n s, ∃ t, exec (.roundDeadline n) s = .next t ∧
    (∀ d, (ccOf s n).round.deadline = some d → d ≤ s.now → (ccOf s n).round.st = .active → AbortsRound n 1 0 s t) ∧
    ((ccOf s n).round.deadline = none ∨ (∃ d, (ccOf s n).round.deadline = some d ∧ s.now < d) ∨ (ccOf s n).round.st ≠ .active → t = s))
/-- The event of a page of whey brought in for a context with no other work (07 R177, 23 R444): no sector of it is absent but where another is
pinned, and the context waits for it no more. A page that was asked of the host is waited for until the host's accesses have moved it; that all
of its 32 sectors must then be resident is the model's choice (log 60). -/
def WheyComesIn : Prop :=
  ∀ n page s, page ∈ (ccOf s n).wheyWaits → openFirings (ccOf s n) = [] → (ccOf s n).round.waitrd = false →
    ∃ t, exec (.wheyPageIn n page) s = .next t ∧ ∀ pa, ccPlace s n (page * 65536) = some (.cap pa) →
      let sector := fun (k : Nat) => pa / 65536 * 65536 + 2048 * k
      let barred := fun (a : Nat) => ∃ o, Tbl.get s.hbm (hbmSet a) = some o ∧ o.tag ≠ hbmTag a ∧ o.pin ≠ none
      (page ∉ (ccOf s n).wheyHost → t.mem = s.mem ∧ t.blocks = s.blocks ∧ (ccOf t n).wheyWaits = (ccOf s n).wheyWaits.erase page ∧
        ∀ k, k < 32 → ¬ barred (sector k) → hbmResident t (sector k) = true) ∧
      (page ∈ (ccOf s n).wheyHost → (∃ k, k < 32 ∧ hbmResident s (sector k) = false ∧ ¬ barred (sector k)) → t = s) ∧
      (page ∈ (ccOf s n).wheyHost → (∀ k, k < 32 → hbmResident s (sector k) = true) →
        OnlyCc n s t ∧ (ccOf t n).wheyWaits = (ccOf s n).wheyWaits.erase page)
/-- What a leader finds of those it has heard (28 R511): the next generation, the smallest LASTCK and one more than the largest round. -/
def ReformFinds (r : Reform) (newgen restart next : Nat) : Prop :=
  newgen = (r.oldgen + 1) % 2 ^ 32 ∧ (∀ h ∈ r.heard, restart ≤ h.2.1) ∧ (r.heard ≠ [] → (∀ h ∈ r.heard, h.2.1 < 2 ^ 32) → ∃ h ∈ r.heard, restart = h.2.1) ∧
  ∃ m, next = (m + 1) % 2 ^ 32 ∧ (∀ h ∈ r.heard, h.2.2 ≤ m) ∧ (r.heard ≠ [] → ∃ h ∈ r.heard, m = h.2.2)
/-- The heard members of an old ring, in its order (28 R511). -/
def heardRanks (r : Reform) : List Nat := r.ranks.filter (fun k => r.heard.any (fun h => h.1 = k))
/-- Collection has ended (28 R511): the leader, the first of those heard, sends the results to each of them. -/
def CollectionEnds (r : Reform) (s t : State) : Prop :=
  ∃ newgen restart next, ReformFinds r newgen restart next ∧
    let lead := (heardRanks r).head? = some s.fab.rank
    { r with closed := true, sent := decide lead } ∈ t.reforms ∧ t.ccs = s.ccs ∧ t.mem = s.mem ∧
    t.fab = (if lead then (sendMsgs ((heardRanks r).map (fun k => .results
      { src := s.fab.rank, dst := k, cc := r.cc, round := (ccOf s r.cc).round.num, gen := r.oldgen } newgen restart next (heardRanks r))) s).fab
      else s.fab)
/-- A late member does not lead on what it has heard: the leader whose collection ended without it answers it with STATE 1 (28 R512; log 22). -/
def Unsure (r : Reform) (me : Nat) : Prop := r.late = true ∧ (heardRanks r).head? = some me
/-- The events of a re-formation (28 R511, R512): reports are heard until collection ends, a late one is answered by the leader; the time of
collection runs out. -/
def ReformCollects : Prop :=
  (∀ h lastck curround s s1, Taken1 (.report h lastck curround) s s1 → (ccOf s h.cc).st ≠ .unbound →
    ∃ t, exec (.reformReport (.report h lastck curround)) s = .next t ∧
      (reformOf s h.cc h.gen = none → (ccOf s h.cc).ring ≠ none → h.gen < ringGen (ccOf s h.cc) → Discards h.cc s1 t) ∧
      (∀ r, reformOf s h.cc h.gen = some r →
        let r2 := { r with heard := r.heard.filter (fun q => q.1 ≠ h.src) ++ [(h.src, lastck, curround)], came := Tbl.put r.came h.src s.now }
        (r.sent = false → r.closed = true → t = s1) ∧
        (r.sent = true → h.src ∈ heardRanks r → t = s1) ∧
        (r.sent = true → h.src ∉ heardRanks r → ∃ newgen restart next, ReformFinds r newgen restart next ∧
          t = sendMsg s1 (.results { src := s.fab.rank, dst := h.src, cc := r.cc, round := (ccOf s r.cc).round.num, gen := r.oldgen } newgen restart next (heardRanks r))) ∧
        (r.sent = false → r.closed = false → r.started = true → (∀ k ∈ r.ranks, ∃ q ∈ r2.heard, q.1 = k) →
          ¬ Unsure r2 s.fab.rank → CollectionEnds r2 s1 t) ∧
        (r.sent = false → r.closed = false → (r.started = false ∨ (∃ k ∈ r.ranks, ∀ q ∈ r2.heard, q.1 ≠ k) ∨ Unsure r2 s.fab.rank) →
          r2 ∈ t.reforms ∧ t = { s1 with reforms := t.reforms }))) ∧
  (∀ n s, ∃ t, exec (.reformCollectionEnd n) s = .next t ∧
    (∀ r, s.reforms.find? (fun r => r.cc = n && (r.started && !r.closed && r.deadline ≤ s.now)) = some r → CollectionEnds r s t) ∧
    ((∀ r ∈ s.reforms, r.cc = n → r.started = false ∨ r.closed = true ∨ s.now < r.deadline) → t = s))
/-- The words of a record after its answer: NEWGEN and RESTART, NEXTROUND, STATE 0 (28 R510). -/
def answerBytes (newgen restart next : Nat) : List Byte := leBytes 8 (newgen * 2 ^ 32 + restart) ++ leBytes 8 next ++ leBytes 8 0
/-- Results are taken from the lowest old position heard from: from this member only if it is that, from another if no other member heard
stands lower (28 R512; log 22). -/
def Trusted (r : Reform) (me src : Nat) : Prop :=
  (src = me → (heardRanks r).head? = some me) ∧
  (src ≠ me → ∀ k, ((heardRanks r).filter (fun k => k ≠ me)).head? = some k → r.ranks.idxOf src ≤ r.ranks.idxOf k)
/-- Firmware can read and write a range of a context's space (28 R510). -/
def FirmwareReaches (x a n : Nat) (s t : State) : Prop := AsksGo x [] s (rangeAsks s x a n needRW) t
/-- The event of the results (28 R510, R512), taken from the lowest of the ranks heard, the context LIVE and its record and descriptor being in
reach: the new ring's descriptor at DESC, the answer in the record, TLSEL raised to SIGVAL; a member that the results leave out gets STATE 1.
While a page is missing the answer waits for it. -/
def ReformAnswered : Prop :=
  ∀ h newgen restart next ranks s s1 r, Taken1 (.results h newgen restart next ranks) s s1 → (ccOf s h.cc).st ≠ .unbound →
    (ctxOf s (ccOf s h.cc).ctx).st = .live → reformOf s h.cc h.gen = some r →
    let x := (ccOf s h.cc).ctx
    let s2 := { s1 with reforms := { r with started := false, closed := true } :: s1.reforms.filter (fun q => !(q.cc = r.cc && q.oldgen = r.oldgen)) }
    ∃ t, exec (.reformResults (.results h newgen restart next ranks)) s = .next t ∧
      (r.started = false ∨ ¬ Trusted r s.fab.rank h.src → t = s1) ∧
      (r.started = true → Trusted r s.fab.rank h.src → (deviceAsk s2 x r.record 64 needRW).waits ≠ [] → t.ctxs = s.ctxs ∧ t.mem = s.mem ∧
        ∃ d, t.duties = s.duties ++ [d] ∧ d.cc = h.cc ∧ d.record = r.record ∧ d.waits ≠ []) ∧
      (∀ s3 s4 rec, r.started = true → Trusted r s.fab.rank h.src → s.fab.rank ∉ ranks →
        FirmwareReaches x r.record 64 s2 s3 → ccRead s3 h.cc r.record 64 = rec → CcLands h.cc s3 (piecesOf (r.record + 0x38) (leBytes 8 1)) s4 →
        tlOwner (ctxOf s4 (ccOf s3 h.cc).ctx) (bitField (word64 rec 0x18) 0 12) = .software →
        Raised (ccOf s3 h.cc).ctx (bitField (word64 rec 0x18) 0 12) (word64 rec 0x20) s4 t) ∧
      (∀ s3 s4 s5 s6 rec rec2, r.started = true → Trusted r s.fab.rank h.src → s.fab.rank ∈ ranks →
        FirmwareReaches x r.record 64 s2 s3 → ccRead s3 h.cc r.record 64 = rec →
        let d := bitField (word64 rec 0x10) 0 56
        let bs := leBytes 8 (newgen * 2 ^ 32 + ranks.length * 2 ^ 16 + ranks.idxOf s.fab.rank) ++ List.replicate 56 0 ++ ranks.flatMap (leBytes 4)
        FirmwareReaches x d bs.length s3 s4 → ccRead s4 h.cc r.record 64 = rec →
        CcLands h.cc s4 (piecesOf d bs) s5 → ccRead s5 h.cc r.record 64 = rec2 →
        CcLands h.cc s5 (piecesOf (r.record + 0x28) (answerBytes newgen restart next)) s6 →
        tlOwner (ctxOf s6 (ccOf s5 h.cc).ctx) (bitField (word64 rec2 0x18) 0 12) = .software →
        Raised (ccOf s5 h.cc).ctx (bitField (word64 rec2 0x18) 0 12) (word64 rec2 0x20) s6 t)

end Sys2Proof.Spec

/-- 07 R177 to R190, 16 R354 to R364, 28 R510 to R513: what collectives do of themselves: entries fire, blocks churn, curds, answers and
notices arrive, rounds abort, whey comes in, and rings re-form. What the clauses take beyond the rules is the model's own: whey that the host
brings in counts once all 32 sectors of its page are resident (log 60); logs 22, 120, 126, 127 and 135. -/
def Obligations.CollectiveEvents : Prop :=
  EntryFires ∧ FiringGoesOn ∧ CurdArrives ∧ ReplyArrives ∧ NoticeArrives ∧ AbortsArrive ∧ WheyComesIn ∧ ReformCollects ∧ ReformAnswered


namespace Sys2Proof.Spec

/-! ### Faults of memory, errors, and power -/

/-- The waits of splits have been looked at again (24 R456, R457): the open instruction of each split, of any context, waits for those of its pages
that still have a record; a page of a context that has failed has failed for those of that context that waited on it. -/
def WaitsAgain (bad : Option (Nat × Nat)) (s t : State) : Prop :=
  ∀ b k n m e p h, Tbl.get s.blocks b = some k → Tbl.get k.teams n = some m → Tbl.get m.splits e = some p → p.held = some h →
    ∃ m' p' h', teamOf t b n = some m' ∧ m'.regs = m.regs ∧ Tbl.get m'.splits e = some p' ∧ p' = { p with held := some h' } ∧
      h' = { h with waits := h'.waits, failed := h'.failed } ∧
      (∀ q, q ∈ h'.waits ↔ q ∈ h.waits ∧ ∃ f ∈ t.faults, f.ctx = ctxNum s b ∧ f.page = q) ∧
      (∀ q, bad = some (ctxNum s b, q) → q ∈ h.waits → q ∈ h'.failed) ∧
      ((∀ q, bad = some (ctxNum s b, q) → q ∉ h.waits) → h'.failed = h.failed)
/-- A record has gone, its page failed or not (24 R456, R457). -/
def RecordGone (r : FaultRec) (fails : Bool) (s t : State) : Prop :=
  (∀ q ∈ t.faults, q.num ≠ r.num) ∧ WaitsAgain (if fails then some (r.ctx, r.page) else none) s t
/-- No collective context has a firing with work left, and no launch, saved gang, deferral stack or work of firmware waits on a page. -/
def OnlySplitsWait (s : State) : Prop :=
  (∀ n c, (n, c) ∈ s.ccs → openFirings c = []) ∧ (∀ n l, (n, l) ∈ s.launches → l.paramWait = none) ∧ s.duties = [] ∧
  ∀ b k, (b, k) ∈ s.blocks → k.saveWaits = [] ∧ ∀ n m, (n, m) ∈ k.teams → m.defer = []
/-- The event of firmware's resolution of a record, which walks again (24 R457, R458; log 111): an entry that is valid now is taken; a
demand-zero page is backed by a zeroed page of the pool behind its entry; with no page left, and for any other stop, the record fails. -/
def RecordsResolve : Prop :=
  ∀ n s r, s.faults.find? (fun r => r.num = n && !r.host) = some r → OnlySplitsWait s →
    ∃ t, exec (.faultRecordResolution n) s = .next t ∧
      (∀ level cls, walk s r.ctx (r.page * 65536) = .stop level cls → (level ≠ 0 ∨ cls ≠ 3) → RecordGone r true s t ∧ t.mem = s.mem) ∧
      (∀ pa size sys rd wr ex, walk s r.ctx (r.page * 65536) = .leaf pa size sys rd wr ex → RecordGone r false s t ∧ t.mem = s.mem) ∧
      (walk s r.ctx (r.page * 65536) = .stop 0 3 →
        ((∀ p, p < (ctxOf s r.ctx).pooln → p ∈ (ctxOf s r.ctx).poolUsed) → RecordGone r true s t ∧ t.mem = s.mem) ∧
        ∀ p a, p < (ctxOf s r.ctx).pooln → p ∉ (ctxOf s r.ctx).poolUsed → (∀ q, q < p → q ∈ (ctxOf s r.ctx).poolUsed) →
          entryAddr s.mem 4 3 (ctxOf s r.ctx).root (r.page * 65536) = some a →
          let pa := (ctxOf s r.ctx).pool + 65536 * p
          (a + 8 ≤ pa ∨ pa + 65536 ≤ a) → RecordGone r false s t ∧ p ∈ (ctxOf t r.ctx).poolUsed ∧
            (∀ i, i < 65536 → Sparse.get (w := 8) t.mem (pa + i) = 0) ∧
            (∀ i, i < 8 → Sparse.get (w := 8) t.mem (a + i) = BitVec.ofNat 8 ((pa / 65536 * 65536 + 0x1B) / 256 ^ i)) ∧
            ∀ i, (i < pa ∨ pa + 65536 ≤ i) → (i < a ∨ a + 8 ≤ i) → Sparse.get (w := 8) t.mem i = Sparse.get (w := 8) s.mem i)
/-- One lane has died (25 R470, R471): its D bit is set, one LANEDEATH entry and its context's counter count it, and a launch whose lanes
must not die is to be replayed. -/
def LaneDies (b n l : Nat) (s t : State) : Prop :=
  ∀ k m r, Tbl.get s.blocks b = some k → Tbl.get k.teams n = some m → Tbl.get s.launches k.launch = some r → n < 16 →
    (m.st = .ended ∨ (liveLanes m).getLsbD l = false → t = s) ∧
    (m.st ≠ .ended → (liveLanes m).getLsbD l = true →
      classCount t 0x02 = classCount s 0x02 + 1 ∧ (Tbl.get s.ctxs r.ctx ≠ none → (ctxOf s r.ctx).counters.length = 11 → ctxCount t r.ctx 6 = ctxCount s r.ctx 6 + 1) ∧
      t.due = (if r.lr.ldesc then s.due ++ [.replay k.launch 2 k.lin] else s.due) ∧
      ∀ m', teamOf t b n = some m' → m'.dead = m.dead ||| (1 <<< l) ∧ m'.ex = m.ex ∧ m'.regs = m.regs)
/-- A block's gang rerun (25 R476): under COMMIT 0 and 1 its launch is replayed, under 2 and 3 its blocks go, it is to be placed again, and one
RERUN entry is counted; a launch that may not be replayed kills its context. -/
def Rerun (b : Nat) (s t : State) : Prop :=
  ∀ k l, Tbl.get s.blocks b = some k → Tbl.get s.launches k.launch = some l → l.st = .placed → (ctxOf s l.ctx).st = .live →
    ((l.lr.nreplay = true ∨ l.nonReplay = true) → Dying t l.ctx 2 k.lin) ∧
    (l.lr.nreplay = false → l.nonReplay = false → l.lr.commit ≤ 1 → Replayed k.launch k.lin true s t) ∧
    (l.lr.nreplay = false → l.nonReplay = false → 2 ≤ l.lr.commit → classCount t 0x03 = classCount s 0x03 + 1 ∧
      (∀ i q, Tbl.get t.blocks i = some q → ¬ (q.launch = k.launch ∧ q.gang = k.gang ∧ q.copy = k.copy)) ∧
      ∃ l' c, Tbl.get t.launches k.launch = some l' ∧ l'.st = .placed ∧ l'.rerun = l.rerun ++ [(k.gang, c)] ∧ (l.lr.commit = 2 → c = k.copy) ∧
        (l.lr.commit = 3 → ∀ g ∈ l.gangs, g.idx = k.gang → g.copy < c) ∧
        (∀ g, g ∈ l'.gangs ↔ g ∈ l.gangs ∧ ¬ (g.idx = k.gang ∧ g.copy = k.copy)) ∧
        (l.lr.commit = 2 → ∀ i, i ∈ l'.blocksDone ↔ i ∈ l.blocksDone ∧ i / l.lr.gang ≠ k.gang))
/-- An error of a stack engine or a port during the churn of a block (25 R470, R526; 07 R175): the block is poisoned and done like any other, its
values canonical NaNs, its curd and whey those of a poisoned block; one DECODE entry counts it, with the address, the round, the block and the
context, and, but for a gather receipt, the context's counter 10. No other context and no block of a launch changes; an error of a block that is
done, or of none, changes nothing. -/
def ChurnPoisoned : Prop :=
  ∀ n x j s,
    let c := ccOf s n
    ((c.ch / 256 ≤ j ∨ ∀ f ∈ (entryOf c x).firings, j ∈ f.blocksDone) → exec (.uncorrectableError (.churn n x j)) s = .next s) ∧
    (∃ t, exec (.uncorrectableError (.churn n x j)) s = .next t ∧ t.blocks = s.blocks ∧ t.launches = s.launches ∧
      ∀ k, k ≠ n → Tbl.get t.ccs k = Tbl.get s.ccs k) ∧
    ∀ f s1 s2 s3 sm, (entryOf c x).firings.find? (fun g => !g.blocksDone.contains j) = some f →
      (∀ g ∈ (entryOf c x).firings, g.version = f.version → g = f) → c.st ≠ .unbound → j < c.ch / 256 → mustWait c f = false →
      let w := if f.image.role = 3 then none else Tbl.get c.whey f.image.whey
      s1 = (if w.isSome then putCc s n { c with touched := insertNat c.touched f.image.whey } else s) →
      let ask := if (Tbl.get f.data j).isSome then [] else [f.image.laddr + 1024 * j]
      CcAsksGo n (if f.image.role = 2 then needRW else if f.image.role = 3 then needW else needR) false (f.image.role ≠ 2 && f.image.role ≠ 3) s1 ask sm →
      CcAsksGo n needRW false false sm (blockWhey c f w j) s2 → wheyAbsent s2 n (blockWhey c f w j) = [] →
      let nans := List.replicate 256 (0x7FC00000 : Word)
      let o := blockChurn c f ((w.map WheyObj.bf).getD false) j nans
        ((w.map (fun w => wheyIn s2 n f w 0 j)).getD []) ((w.map (fun w => wheyIn s2 n f w f.image.role j)).getD [])
      CcLands n s2 (churnPieces c f w j (if f.image.role = 3 then { o with result := some nans } else o)) s3 →
      ∃ t, exec (.uncorrectableError (.churn n x j)) s = .next t ∧ t.mem = s3.mem ∧ t.spad = s3.spad ∧ t.chip = s3.chip ∧
        classCount t 0x0E = classCount s 0x0E + 1 ∧
        (s.log.tail - s.log.head ≠ 4096 → ∃ e, Tbl.get t.log.entries (s.log.tail.toNat % 4096) = some e ∧
          e.2.2.1 = BitVec.ofNat 64 (f.image.laddr + 1024 * j) ∧ e.2.2.2 = BitVec.ofNat 64 (f.round * 2 ^ 32 + j * 1024 + n)) ∧
        (f.image.role ≠ 3 → Tbl.get s.ctxs c.ctx ≠ none → (ctxOf s c.ctx).counters.length = 11 → ctxCount t c.ctx 10 = ctxCount s c.ctx 10 + 1) ∧
        ∀ f', (entryOf (ccOf t n) x).firings.find? (fun g => g.version = f.version) = some f' → f'.blocksDone = f.blocksDone ++ [j]
/-- The events of words of a core's own stores that are written back with poison, which their next consumer answers for (25 R470, R526): a
scratchpad word of 8 bytes, an accumulator word, a register of a lane; one POISON entry is counted. That a word of the scratchpad, as of
memory, is 8 aligned bytes is the model's choice (log 24). -/
def StoresPoisoned : Prop :=
  (∀ core off s, core < 192 → off < 2 ^ 19 → ∃ t, exec (.uncorrectableError (.spadWord core off)) s = .next t ∧ t.spad = s.spad ∧ t.blocks = s.blocks ∧
    (∀ i, i < 8 → core * 2 ^ 19 + off / 8 * 8 + i ∈ t.spadPoison) ∧ classCount t 0x04 = classCount s 0x04 + 1) ∧
  (∀ core w s, core < 192 → w < 65536 → ∃ t, exec (.uncorrectableError (.accWord core w)) s = .next t ∧ t.acc = s.acc ∧ t.blocks = s.blocks ∧
    core * 65536 + w ∈ t.accPoison ∧ classCount t 0x04 = classCount s 0x04 + 1) ∧
  ∀ b n r l s k m, Tbl.get s.blocks b = some k → Tbl.get k.teams n = some m → m.st ≠ .ended → r < m.nregs → l < m.width →
    ∃ t m', exec (.uncorrectableError (.registerWord b n r l)) s = .next t ∧ OnlyTeam b n { s with log := t.log, chan := t.chan, host := t.host } t ∧ teamOf t b n = some m' ∧
      m' = { m with poison := m'.poison } ∧ r * 1024 + l ∈ m'.poison ∧ classCount t 0x04 = classCount s 0x04 + 1
/-- The event of an uncorrectable error, by where it is consumed (25 R470). That a word of memory is 8 aligned bytes is the model's choice (log
24). -/
def ErrorsContained : Prop :=
  (∀ b n l s, n < 16 → (∃ k m r, Tbl.get s.blocks b = some k ∧ Tbl.get k.teams n = some m ∧ Tbl.get s.launches k.launch = some r) →
    ∃ t, exec (.uncorrectableError (.lane b n l)) s = .next t ∧ LaneDies b n l s t) ∧
  (∀ core dp i s, ∃ t, exec (.uncorrectableError (.datapathLane core dp i)) s = .next t ∧
    ∀ b k n m l, Tbl.get s.blocks b = some k → k.core = core → k.st ≠ .saved → k.st ≠ .complete → (∃ r, Tbl.get s.launches k.launch = some r) →
      Tbl.get k.teams n = some m → n < 16 → m.st ≠ .ended → m.dp = dp → l < m.width → l % 32 = i % 32 → (liveLanes m).getLsbD l = true →
      ∀ m', teamOf t b n = some m' → m'.st = .ended ∨ m'.dead.getLsbD l = true) ∧
  (∀ b n s, ∃ t, exec (.uncorrectableError (.teamControl b n)) s = .next t ∧ Rerun b s t) ∧
  (∀ b s, ∃ t, exec (.uncorrectableError (.block b)) s = .next t ∧ Rerun b s t) ∧
  (∀ b s, ∃ t, exec (.uncorrectableError (.clusterMemory b)) s = .next t ∧ Rerun b s t) ∧
  ChurnPoisoned ∧
  (∀ die s, ∃ t, exec (.uncorrectableError (.unpinned die)) s = .next t ∧
    ∀ b k l, Tbl.get s.blocks b = some k → (die = 2 ∨ dieOf k.core = die) → Tbl.get s.launches k.launch = some l → l.st = .placed →
      (ctxOf s l.ctx).st = .live → (ctxOf t l.ctx).st = .live → ∀ i q, Tbl.get t.blocks i = some q → q.launch ≠ k.launch) ∧
  ∀ pa s, ∃ t, exec (.uncorrectableError (.memoryWord pa)) s = .next t ∧ t.mem = s.mem ∧ t.blocks = s.blocks ∧
    (pa < Config.capacityBytes → (∀ i, i < 8 → pa / 8 * 8 + i ∈ t.poison) ∧ classCount t 0x04 = classCount s 0x04 + 1) ∧
    (Config.capacityBytes ≤ pa → t = s)
/-- One counter of the log counts, and nothing else changes (25 R482). -/
def OnlyCounts (cls : Nat) (s t : State) : Prop :=
  t = { s with log := t.log } ∧ t.log = { s.log with esn := s.log.esn + 1, counters := t.log.counters } ∧
  classCount t cls = classCount s cls + 1 ∧ ∀ c, c ≠ cls → classCount t c = classCount s c
/-- The event of firmware's harvest (25 R481, R483): the oldest entry's 32 bytes in the host's buffer, LOGHEAD one on; none under host
harvest, with no buffer, or with nothing to copy. -/
def LogHarvested : Prop :=
  ∀ s, ((s.chan.duty.getLsbD 1 = true ∨ s.log.hsize = 0 ∨ s.log.head = s.log.tail) → exec .logHarvest s = .next s) ∧
    (s.chan.duty.getLsbD 1 = false → s.log.hsize ≠ 0 → s.log.head ≠ s.log.tail →
      let e := Tbl.getD s.log.entries (s.log.head.toNat % 4096) (0, 0, 0, 0)
      let a := s.log.hbase.toNat + 32 * (s.log.head.toNat % s.log.hsize.toNat)
      ∃ t, exec .logHarvest s = .next t ∧ t = { s with host := t.host, log := { s.log with head := s.log.head + 1 } } ∧
        (∀ i, i < 8 → Sparse.get (w := 8) t.host (a + i) = BitVec.ofNat 8 (e.1.toNat / 256 ^ i) ∧
          Sparse.get (w := 8) t.host (a + 8 + i) = BitVec.ofNat 8 (e.2.1.toNat / 256 ^ i) ∧
          Sparse.get (w := 8) t.host (a + 16 + i) = BitVec.ofNat 8 (e.2.2.1.toNat / 256 ^ i) ∧
          Sparse.get (w := 8) t.host (a + 24 + i) = BitVec.ofNat 8 (e.2.2.2.toNat / 256 ^ i)) ∧
        ∀ i, (i < a ∨ a + 32 ≤ i) → Sparse.get (w := 8) t.host i = Sparse.get (w := 8) s.host i)
/-- A power loss (25 R478, 29 R525): nothing of the module survives but flash; the model's own counters run on. -/
def PowerLost (s t : State) : Prop :=
  t = { State.reset with power := false, flash := s.flash, host := s.host, tick := s.tick, agenda := s.agenda, cur := s.cur,
                         mgmt := { Mgmt.reset with boots := s.mgmt.boots } }
/-- The event of a brown-out (25 R478): placement is held off, one BROWNOUT entry is counted, contexts of launches that may not be replayed
are killed, every other placed launch is queued again, and no round stays ACTIVE. -/
def BrownsOut : Prop :=
  ∀ s, (s.mgmt.ready = false ∨ s.mgmt.brown = true → exec .brownout s = .next s) ∧
    (s.mgmt.ready = true → s.mgmt.brown = false → ∃ t, exec .brownout s = .next t ∧ t.mgmt.brown = true ∧
      classCount t 0x0B = classCount s 0x0B + 1 ∧ (∀ n c, Tbl.get t.ccs n = some c → c.round.st ≠ .active) ∧
      ∀ n l, Tbl.get s.launches n = some l → l.st = .placed → (ctxOf s l.ctx).st = .live →
        ((l.lr.nreplay = true ∨ l.nonReplay = true) → (ctxOf t l.ctx).st = .dying) ∧
        ((ctxOf t l.ctx).st = .live → (∀ b k, Tbl.get t.blocks b = some k → k.launch ≠ n) ∧ ∃ l', Tbl.get t.launches n = some l' ∧
          l'.st = .queued ∧ l'.replays = l.replays ∧ l'.blocksDone = []))

end Sys2Proof.Spec

/-- 24 R456, R457, 25 R470, R471, R476 to R478, R482, R483, 29 R525: fault records resolved, errors contained where they are consumed,
counters, the harvest of the log, and what supply and heat do. That thermal throttle and input undervoltage keep the whole state, log and
counters too, is the model's choice (log 91), as is the 8-byte word of an error (log 24). -/
def Obligations.ErrorEvents : Prop :=
  RecordsResolve ∧ ErrorsContained ∧ StoresPoisoned ∧ LogHarvested ∧ BrownsOut ∧
  (∀ s, ∃ t, exec .correctableError s = .next t ∧ OnlyCounts 0x01 s t) ∧ (∀ region s, ∃ t, exec (.droopTrip region) s = .next t ∧ OnlyCounts 0x0A s t) ∧
  (∀ s, exec .inputUndervoltage s = .next s) ∧ (∀ s, exec .thermalThrottle s = .next s) ∧
  (∀ s, exec .brownoutRecovery s = .next { s with mgmt := { s.mgmt with brown := false } }) ∧
  (∀ s, ∃ t, exec .powerLoss s = .next t ∧ PowerLost s t) ∧ ∀ s, ∃ t, exec .thermalShutdown s = .next t ∧ PowerLost s t


namespace Sys2Proof.Spec

/-! ### The fabric and boot -/

/-- Port `p` has become another, and no other port, message or packet's contents has changed (27 R501). -/
def PortBecomes (p : Nat) (q : Port) (s t : State) : Prop :=
  portOf t p = q ∧ (∀ i, i ≠ p → portOf t i = portOf s i) ∧ t.fab.inbox = s.fab.inbox ∧ t.fab.seen = s.fab.seen ∧
  t.fab.tx.map (fun c => (c.psn, c.body)) = s.fab.tx.map (fun c => (c.psn, c.body)) ∧ t.mem = s.mem ∧ t.blocks = s.blocks ∧ t.ccs = s.ccs
/-- What a port had sent and not had acknowledged is lost, from now (27 R504); the rest of what is held stays. -/
def SentLost (p : Nat) (s t : State) : Prop :=
  t.fab.tx = s.fab.tx.map (fun c => if c.port = some p then { c with lost := some s.now } else c)
/-- Cycles of one millisecond. -/
def milli : Nat := 1000 * Config.cyclesPerMicro
/-- A port's window of 60 s at a time: WINFAIL is 0 at the start of each (27 R502). -/
def windowNow (q : Port) (now : Nat) : Port :=
  if now < q.window + 60000 * milli then q else { q with winfail := 0, window := now - (now - q.window) % (60000 * milli) }
/-- A LIVE port has lost lock, `fec` uncorrectable codewords having just been met, and `corr` corrected (27 R501, R502): TRAINING from now, out of the spray set, counted by
itself and by PORTLOCK. -/
def LockLost (p fec corr : Nat) (s t : State) : Prop :=
  let q := portOf s p
  PortBecomes p { q with st := .training, inset := false, lockloss := q.lockloss + 1, fecunc := q.fecunc + BitVec.ofNat 64 fec,
                         feccorr := q.feccorr + BitVec.ofNat 64 corr,
                         start := s.now, since := s.now, errs := (portOf t p).errs } s t ∧
  classCount t 0x0F = classCount s 0x0F + 1 ∧ (q.inset = true → SentLost p s t)
/-- The events of a port (27 R501, R502, 29 R523): lock that has held for 1 ms, a training attempt of 100 ms that fails, lock lost,
codewords met, and the end of a window of 60 s. -/
def PortsMove : Prop :=
  ∀ p s,
    let q := portOf s p
    (∃ t, exec (.portLockHeld p) s = .next t ∧
      (p < 48 → q.st = .training → q.since + milli ≤ s.now →
        PortBecomes p { q with st := .live, inset := decide (.port p ∉ s.mgmt.out), errs := [] } s t ∧ t.fab.tx = s.fab.tx) ∧
      (48 ≤ p ∨ q.st ≠ .training ∨ s.now < q.since + milli → t = s)) ∧
    (∃ t, exec (.trainingTimeout p) s = .next t ∧
      let r := windowNow q s.now
      (p < 48 → q.st = .training → q.start + 100 * milli ≤ s.now → r.winfail < 7 →
        PortBecomes p { r with winfail := r.winfail + 1, start := s.now, since := s.now } s t ∧ t.mgmt = s.mgmt) ∧
      (p < 48 → q.st = .training → q.start + 100 * milli ≤ s.now → 7 ≤ r.winfail →
        PortBecomes p { r with winfail := r.winfail + 1, st := .failed, inset := false } s t ∧
        .port p ∈ t.mgmt.out ∧ (.port p ∉ s.mgmt.out → classCount t 0x10 = classCount s 0x10 + 1)) ∧
      (48 ≤ p ∨ q.st ≠ .training ∨ s.now < q.start + 100 * milli → t = s)) ∧
    (∃ t, exec (.lockLoss p) s = .next t ∧ (p < 48 → q.st = .live → LockLost p 0 0 s t) ∧ (48 ≤ p ∨ q.st ≠ .live → t = s)) ∧
    (∀ n corr, ∃ t, exec (.fecUncorrectableBurst { port := p, count := n, corr := corr }) s = .next t ∧
      (p < 48 → q.st = .training → PortBecomes p { q with fecunc := q.fecunc + BitVec.ofNat 64 n, feccorr := q.feccorr + BitVec.ofNat 64 corr,
                                                          since := if n = 0 then q.since else s.now } s t) ∧
      (let recent := q.errs.filter (fun e => s.now < e + milli)
       (p < 48 → q.st = .live → recent.length + n < 4 →
          PortBecomes p { q with fecunc := q.fecunc + BitVec.ofNat 64 n, feccorr := q.feccorr + BitVec.ofNat 64 corr,
                                 errs := List.replicate n s.now ++ recent } s t) ∧
       (p < 48 → q.st = .live → 4 ≤ recent.length + n → LockLost p n corr s t)) ∧
      (48 ≤ p ∨ (q.st ≠ .live ∧ q.st ≠ .training) → t = s)) ∧
    (∃ t, exec (.winfailWindow p) s = .next t ∧ (48 ≤ p ∨ s.now < q.window + 60000 * milli → t = s) ∧
      (p < 48 → q.window + 60000 * milli ≤ s.now →
        PortBecomes p (windowNow q s.now) s t ∧ (windowNow q s.now).winfail = 0 ∧ t.fab.tx = s.fab.tx))
/-- A module takes a packet by its key (27 R506): for a protected context an authentic one under the secure domain's current key, or for 10 s
after a change under the one before; for any other context one without a key. -/
def TakesKey (s : State) (k : Packet) : Prop :=
  let c := ccOf s (msgHdr k.body).cc
  let x := ctxOf s c.ctx
  (c.prot = true → k.auth = true ∧ k.key ≠ none ∧
    (k.key = x.keyCur ∨ (k.key = x.keyPrev ∧ s.now < x.keyTime + 10000000 * Config.cyclesPerMicro))) ∧
  (c.prot = false → k.key = none)
/-- The round of a held packet has ended (27 R500, 28 R507; log 57): that of an abort notice once its context has left the round or the ring; that of
a curd or a posted notice once it is not ACTIVE here; that of an answer, which another member's round waits for, once it has aborted here or a
later one has ended here; any of these but a notice once its deadline has passed. Firmware's messages belong to no round. Which member's round an
answer belongs to is the model's choice. -/
def PacketOver (s : State) (q : TxPacket) : Prop :=
  let h := msgHdr q.body
  let c := ccOf s h.cc
  let bound := ∃ r, c.ring = some r ∧ r.gen = h.gen
  let late := ∃ t, q.deadline = some t ∧ t ≤ s.now
  match q.body with
  | .report _ _ _ => False
  | .results _ _ _ _ _ => False
  | .abort _ => ¬ (bound ∧ c.round.num = h.round)
  | .reply _ _ _ _ => late ∨ ¬ bound ∨ (c.round.st ≠ .active ∧ ¬ (c.round.num = h.round ∧ c.round.st = .complete))
  | _ => late ∨ ¬ bound ∨ c.round.num ≠ h.round ∨ c.round.st ≠ .active
/-- A packet received by a LIVE port, which counts it, and its codewords that were corrected (27 R498, R501, R504 to R506): discarded and counted
when its key does not fit; else acknowledged by that port (log 58) and taken once; an ordered message waits for those before it. -/
def PacketArrives : Prop :=
  ∀ k s, ∃ t, exec (.packetReceive k) s = .next t ∧
    ((portOf s k.port).st ≠ .live ∨ 48 ≤ k.port → t = s) ∧
    ((portOf s k.port).st = .live → k.port < 48 →
      (∃ tx, portOf t k.port = { portOf s k.port with rx := (portOf s k.port).rx + BitVec.ofNat 64 k.len, tx := tx,
                                                      feccorr := (portOf s k.port).feccorr + BitVec.ofNat 64 k.corr } ∧
        (¬ TakesKey s k → tx = (portOf s k.port).tx) ∧ (TakesKey s k → tx = (portOf s k.port).tx + BitVec.ofNat 64 (Config.ackBytes k.psn))) ∧
      t.fab.tx = s.fab.tx ∧ t.ccs = s.ccs ∧
      (¬ TakesKey s k → t.fab.inbox = s.fab.inbox ∧ t.fab.seen = s.fab.seen ∧ t.fab.ahead = s.fab.ahead ∧ classCount t 0x0D = classCount s 0x0D + 1) ∧
      (TakesKey s k → (k.src, k.psn) ∈ s.fab.seen → t.fab.inbox = s.fab.inbox ∧ t.fab.ahead = s.fab.ahead) ∧
      (TakesKey s k → (k.src, k.psn) ∉ s.fab.seen → (k.src, k.psn) ∈ t.fab.seen ∧
        (k.rod = none → t.fab.inbox = s.fab.inbox ++ [k.body]) ∧
        ∀ n, k.rod = some n →
          let next := Tbl.getD s.fab.rodIn k.src 0
          (n < next → t.fab.inbox = s.fab.inbox) ∧
          ((∀ q ∈ s.fab.ahead, q.1 ≠ k.src) → k.clear ≤ next →
            (n = next → t.fab.inbox = s.fab.inbox ++ [k.body] ∧ Tbl.getD t.fab.rodIn k.src 0 = n + 1) ∧
            (next < n → t.fab.inbox = s.fab.inbox ∧ (k.src, n, k.body) ∈ t.fab.ahead))))
/-- The events of packets sent (27 R500, R501, R504, R505): one acknowledged at a LIVE port, which counts the acknowledgement, is held no more; one that has gone unacknowledged for 20 µs is
sent again, with the same contents, until its round ends; those that wait go out when a port joins the spray set. -/
def PacketsMove : Prop :=
  (∀ p psn len corr s, ∃ t, exec (.packetAck { port := p, psn := psn, len := len, corr := corr }) s = .next t ∧
    ((portOf s p).st ≠ .live ∨ 48 ≤ p → t = s) ∧
    ((portOf s p).st = .live → p < 48 → t = { s with fab := { s.fab with tx := t.fab.tx, ports := t.fab.ports } } ∧
      portOf t p = { portOf s p with rx := (portOf s p).rx + BitVec.ofNat 64 len, feccorr := (portOf s p).feccorr + BitVec.ofNat 64 corr } ∧
      (∀ i, i ≠ p → portOf t i = portOf s i) ∧ ∀ c, c ∈ t.fab.tx ↔ c ∈ s.fab.tx ∧ c.psn ≠ psn)) ∧
  (∀ psn s, ∃ t, exec (.retransmitTimeout psn) s = .next t ∧
    (∀ q l, s.fab.tx.find? (fun q => q.psn = psn) = some q → q.lost = some l → l + 20 * Config.cyclesPerMicro ≤ s.now →
      t.fab.inbox = s.fab.inbox ∧ t.mem = s.mem ∧ (∀ c, c.psn ≠ psn → (c ∈ t.fab.tx ↔ c ∈ s.fab.tx)) ∧
      (PacketOver s q → ∀ c ∈ t.fab.tx, c.psn ≠ psn) ∧
      (¬ PacketOver s q → ∃ c ∈ t.fab.tx, c = { q with port := c.port, lost := c.lost } ∧
        ((∃ i, i < 48 ∧ (portOf s i).inset = true) → c.lost = some s.now ∧ ∃ i, i < 48 ∧ c.port = some i ∧ (portOf s i).inset = true) ∧
        ((∀ i, i < 48 → (portOf s i).inset = false) → c.port = none ∧ c.lost = none))) ∧
    ((∀ q ∈ s.fab.tx, q.psn = psn → q.lost = none ∨ ∃ l, q.lost = some l ∧ s.now < l + 20 * Config.cyclesPerMicro) → t = s)) ∧
  (∀ p s, ∃ t, exec (.sprayRejoin p) s = .next t ∧ ((portOf s p).inset = false ∨ 48 ≤ p → t = s) ∧
    ((portOf s p).inset = true → p < 48 → (∀ psn m, (∃ c ∈ t.fab.tx, c.psn = psn ∧ c.body = m) ↔
        ∃ c ∈ s.fab.tx, c.psn = psn ∧ c.body = m ∧ (c.port ≠ none ∨ ¬ PacketOver s c)) ∧
      (∀ c ∈ t.fab.tx, c.port ≠ none) ∧ (∀ c ∈ s.fab.tx, c.port ≠ none → c ∈ t.fab.tx) ∧ t.fab.inbox = s.fab.inbox ∧ t.mem = s.mem))
/-- The event that ends a key's grace, 10 s after its successor came (27 R506). -/
def GraceEnds : Prop :=
  ∀ x s, ∃ t, exec (.keyGraceExpiry x) s = .next t ∧
    (((ctxOf s x).keyPrev = none ∨ s.now < (ctxOf s x).keyTime + 10000000 * Config.cyclesPerMicro) → t = s) ∧
    ((ctxOf s x).keyPrev ≠ none → (ctxOf s x).keyTime + 10000000 * Config.cyclesPerMicro ≤ s.now →
      t = { s with ctxs := t.ctxs } ∧ ctxOf t x = { ctxOf s x with keyPrev := none } ∧ ∀ y, y ≠ x → ctxOf t y = ctxOf s y)

/-- A machine with nothing placed, bound or queued and its memories cleared; flash, and the memory of the host, as before (26 R489, log 3). -/
def NothingRuns (s t : State) : Prop :=
  t.power = true ∧ t.mem = [] ∧ t.host = s.host ∧ t.spad = [] ∧ t.chip = [] ∧ t.acc = [] ∧ t.blocks = [] ∧ t.launches = [] ∧ t.ctxs = [] ∧ t.ccs = [] ∧
  t.faults = [] ∧ t.chan = Channel.reset ∧ t.log = ErrorLog.reset ∧ t.flash = s.flash ∧ t.mgmt.ready = true
/-- A bank that can boot (26 R485, R487, R489): marked valid, its header in order, its signature verified under the root key whose digest the ROM
holds, its body's digest right, not older than MINSVN. -/
def Boots (s : State) (b : ImageBank) : Prop :=
  b.valid = true ∧ b.header.length = 64 ∧ word64 b.header 0 = 0x45484B37 * 2 ^ 32 + 1 ∧ bitField (word64 b.header 8) 0 32 = b.body.length ∧
  b.body.length % 64 = 0 ∧ bitField (word64 b.header 16) 1 63 = 0 ∧ word64 b.header 24 = 0 ∧
  sha256 Config.rootKey = Config.romAnchor ∧ hssVerify Config.rootKey (b.header ++ b.body) b.sig = true ∧
  (b.header.drop 32).take 32 = sha256 b.body ∧ s.flash.minsvn ≤ bitField (word64 b.header 8) 32 32
/-- A bank of the flash: B or A. -/
def bankOf (s : State) (isB : Bool) : ImageBank := if isB then s.flash.bankB else s.flash.bankA
/-- The event of boot (26 R489 to R493, 27 R501, R502): the active bank, else the other, runs; with neither, the module is in RECOVERY. The first
leaf not reserved is the next; FAIL names the stage of the last failure (log 83, the model's choice where several stages fail). That a module in
RECOVERY is READY, with IDFAIL set and FAIL 2, is the model's choice (log 82). Ports train, and those of units out of service are FAILED. -/
def BootRuns : Prop :=
  ∀ s, (s.mgmt.ready = true → exec .boot s = .next s) ∧
    (s.mgmt.ready = false → ∃ t, exec .boot s = .next t ∧ NothingRuns s t ∧
      (¬ Boots s s.flash.bankA → ¬ Boots s s.flash.bankB →
        t.mgmt.recovery = true ∧ t.mgmt.fail = 2 ∧ t.mgmt.idfail = true ∧ t.mgmt.nextLeaf = resv s.flash) ∧
      ∀ isB, Boots s (bankOf s isB) → (isB = s.flash.activeB ∨ ¬ Boots s (bankOf s s.flash.activeB)) →
        t.mgmt.recovery = false ∧ t.mgmt.bankB = isB ∧ t.mgmt.svn = bitField (word64 (bankOf s isB).header 8) 32 32 ∧
        (∀ i, i < 4 → t.mgmt.meas[i]? = some (sha256 (List.replicate 32 0 ++ Config.bodyDigest (bankOf s isB).body i))) ∧
        (∀ i, 4 ≤ i → i < 8 → t.mgmt.meas[i]? = some (List.replicate 32 0)) ∧ 
        t.mgmt.ident = Config.pufCorrect (Config.sramPattern s.mgmt.boots) s.flash.helper ∧ t.mgmt.idfail = t.mgmt.ident.isNone ∧
        t.mgmt.nextLeaf = resv s.flash ∧
        (bootFailures s ≠ [] → t.mgmt.fail = 6 ∧ t.mgmt.unusable = true) ∧ (bootFailures s = [] → t.mgmt.idfail = true → t.mgmt.fail = 5) ∧
        (bootFailures s = [] → t.mgmt.idfail = false → s.flash.removed ≠ [] → t.mgmt.fail = 4) ∧
        (bootFailures s = [] → t.mgmt.idfail = false → s.flash.removed = [] → t.mgmt.fail = 0) ∧
        (∀ u, u ∈ s.flash.removed ∨ u ∈ bootFailures s → u ∈ t.mgmt.out) ∧
        ∀ p, p < 48 → (portOf t p).st = (if .port p ∈ t.mgmt.out then .failed else .training) ∧ (portOf t p).inset = false)
/-- The seconds of a phase of a self-test (29 R520). -/
def secondsOf (phase : Nat) : Nat := if phase = 1 then 180 else if phase = 2 then 240 else if phase = 4 then 120 else 60
/-- The event that ends a phase of a self-test once it has taken its time (29 R519, R520, R523): the units that failed leave service and the next
phase begins; after the fifth the report is work for management firmware. -/
def PhaseEnds : Prop :=
  ∀ failed s, ∃ t, exec (.selftestPhaseEnd failed) s = .next t ∧
    ((s.mgmt.test = none ∨ ∃ q, s.mgmt.test = some q ∧ (5 < q.phase ∨ s.now < q.began + secondsOf q.phase * 1000000 * Config.cyclesPerMicro)) → t = s) ∧
    ∀ q, s.mgmt.test = some q → q.phase ≤ 5 → q.began + secondsOf q.phase * 1000000 * Config.cyclesPerMicro ≤ s.now →
      t.mgmt.test = some { q with phase := q.phase + 1, began := s.now } ∧ (s.chan.en = false → t.host = s.host) ∧
      t.mgmt.jobs = s.mgmt.jobs ++ (if q.phase = 5 then [.report { q with phase := 6, began := s.now }] else []) ∧
      (q.phase = 2 ∨ q.phase = 5 → t.mem = []) ∧ (q.phase = 4 → t.spad = [] ∧ t.acc = [] ∧ t.chip = []) ∧
      (∀ u ∈ failed, u ∈ phaseUnits q.phase → u ∈ t.mgmt.out) ∧ ∀ u, u ∈ t.mgmt.out → u ∈ s.mgmt.out ∨ (u ∈ failed ∧ u ∈ phaseUnits q.phase)
/-- The report of a self-test, as management firmware's next work (29 R521): its verdict 2 where it cannot be signed or memory or the link is
out, 1 for any other unit out, else 0; the nonce of the command in it; signed with a leaf reserved, where the identity key can sign. -/
def ReportWritten : Prop :=
  ∀ s q r, s.mgmt.slotWrite = none → s.mgmt.jobs = .report q :: r → (s.mgmt.idfail = true ∨ s.mgmt.keyend = true ∨ s.mgmt.nextLeaf < resv s.flash) →
    let t := firmwareWork s
    t.mgmt.test = none ∧ t.mgmt.jobs = r ∧
    t.mgmt.nextLeaf = (if s.mgmt.idfail = true ∨ s.mgmt.keyend = true then s.mgmt.nextLeaf else s.mgmt.nextLeaf + 1) ∧
    (q.ack = false →
      (∀ i, i < 8 → Sparse.get (w := 8) t.host (q.buf + i) = BitVec.ofNat 8 ((0x45485354 * 2 ^ 32 + 1) / 256 ^ i) ∧
        Sparse.get (w := 8) t.host (q.buf + 16 + i) = BitVec.ofNat 8 (q.nonce.toNat / 256 ^ i)) ∧
      let verdict := if s.mgmt.idfail = true ∨ s.mgmt.keyend = true ∨ (∃ u ∈ s.mgmt.out, memoryUnit u = true) then 2
        else if s.mgmt.out = [] then 0 else 1
      Sparse.get (w := 8) t.host (q.buf + 24) = BitVec.ofNat 8 verdict ∧ Sparse.get (w := 8) t.host (q.buf + 25) = 0)
/-- The reservation of leaves ahead of a signature, as management firmware's work (26 R493), in the pieces that are the model's choice (log 97): with no leaf reserved, the write of the older key-state
slot begins, 64 leaves on, and the slot is not valid until it has ended; then it is. -/
def LeavesReserved : Prop :=
  (∀ s k, s.mgmt.slotWrite = some k → firmwareWork s = { s with flash := putSlot s.flash k, mgmt := { s.mgmt with slotWrite := none } }) ∧
  ∀ s j r, s.mgmt.slotWrite = none → s.mgmt.jobs = j :: r → jobSigns s.mgmt j = true → resv s.flash ≤ s.mgmt.nextLeaf →
    ∃ k, firmwareWork s = { s with flash := putSlot s.flash { k with valid := false }, mgmt := { s.mgmt with slotWrite := some k } } ∧
      k.valid = true ∧ k.resv = resv s.flash + 64 ∧ (s.flash.slotX.valid = true → s.flash.slotX.seq < k.seq ∨ s.flash.slotX.seq < s.flash.slotY.seq) ∧
      (s.flash.slotY.valid = true → s.flash.slotY.seq < k.seq ∨ s.flash.slotY.seq < s.flash.slotX.seq)
/-- The event of an attestation request (26 R494) with no other work for management firmware: answered once READY, with a leaf of the identity
key where it is signed, or as an error where there is none; measurement index 0xFF asks for all four slots, 1 to 4 for one, 0 for their number
(log 122). -/
def Attests : Prop :=
  ∀ s, (s.mgmt.ready = false → ∀ r, exec (.spdmRequest r) s = .next s) ∧
    (s.mgmt.ready = true → s.mgmt.jobs ≠ [] → ∀ r, exec (.spdmRequest r) s =
      .next { s with mgmt := { s.mgmt with jobs := s.mgmt.jobs ++ [.spdm r] } }) ∧
    (s.mgmt.ready = true → s.mgmt.jobs = [] → s.mgmt.slotWrite = none →
      let all := (List.range 4).map (fun i => (i + 1, s.mgmt.meas.getD i []))
      let tells := fun (r : SpdmReq) (body : SpdmBody) => exec (.spdmRequest r) s =
        .next { s with mgmt := { s.mgmt with spdm := some { body := body, leaf := none, sig := [] } } }
      let signed := fun (r : SpdmReq) (body : SpdmBody) =>
        ((s.mgmt.idfail = true ∨ s.mgmt.keyend = true) → tells r (.error .unspecified)) ∧
        (s.mgmt.idfail = false → s.mgmt.keyend = false → ∃ t, exec (.spdmRequest r) s = .next t ∧
          (s.mgmt.nextLeaf < resv s.flash → t.flash = s.flash ∧ t.mgmt.nextLeaf = s.mgmt.nextLeaf + 1 ∧ ∃ m, t.mgmt.spdm =
            some { body := body, leaf := some s.mgmt.nextLeaf, sig := signWith s.mgmt s.mgmt.nextLeaf m }) ∧
          (resv s.flash ≤ s.mgmt.nextLeaf → t.mgmt.spdm = s.mgmt.spdm ∧ t.mgmt.jobs = [.spdm r] ∧ t.mgmt.slotWrite ≠ none))
      (∀ index nonce, s.mgmt.idfail = true ∨ s.mgmt.keyend = true → tells (.getMeasurements true index nonce) (.error .unspecified)) ∧
      (∀ nonce, signed (.challenge nonce) (.challengeAuth (sha256 s.flash.cert)) ∧ signed (.getMeasurements true 0xFF nonce) (.measurements 4 all) ∧
        tells (.getMeasurements false 0xFF nonce) (.measurements 4 all) ∧ tells (.getMeasurements false 0 nonce) (.measurements 4 []) ∧
        ∀ i, i < 4 → tells (.getMeasurements false (i + 1) nonce) (.measurements 4 [(i + 1, s.mgmt.meas.getD i [])])) ∧
      tells .getDigests (.digests (sha256 s.flash.cert)) ∧ tells .getCertificate (.certificate s.flash.cert))

end Sys2Proof.Spec

/-- 27 R498, R501 to R506, 26 R487 to R494, 29 R519 to R523: ports train, fail, lose lock and rejoin; packets arrive once, are acknowledged and
are sent again; keys lose their grace; boot, the phases of a self-test, and attestation. Clauses that are the model's choice: BootRuns, where no
bank boots: READY with IDFAIL set and FAIL 2 (log 82), and FAIL after several failures (log 83); LeavesReserved: the pieces in which a key-state
slot is written (log 97); PacketsMove: whose round an answer belongs to (log 57); PacketArrives: the port and the length of an acknowledgement
(log 58); Attests: the measurement index (log 122). -/
def Obligations.FabricAndBootEvents : Prop := PortsMove ∧ PacketArrives ∧ PacketsMove ∧ GraceEnds ∧
  BootRuns ∧ PhaseEnds ∧ ReportWritten ∧ LeavesReserved ∧ Attests


namespace Sys2Proof.Spec

/-! ### Commands of the channel -/

/-- The context that an entry names (23 R432). -/
def ctxOfCmd (c : Cmd) : Nat := bitField c.head.toNat 0 6
/-- Operand `i` of an entry (23 R432). -/
def arg (c : Cmd) (i : Nat) : DWord := [c.a0, c.a1, c.a2, c.a3, c.a4, c.a5].getD i 0
/-- No reserved field of an entry is set, PRIVQ in a SUBMIT alone, and no operand that its opcode does not use (23 R432, R433). -/
def Fits (used : Nat) (privq : Bool) (c : Cmd) : Prop :=
  bitField c.head.toNat 24 40 = 0 ∧ bitField c.head.toNat 6 2 = 0 ∧ bitField c.head.toNat 18 6 = 0 ∧ (privq = false → c.head.getLsbD 17 = false) ∧
  ∀ i, used ≤ i → i < 6 → arg c i = 0
/-- An entry taken: CMDACC one on (23 R435). -/
def tookEntry (s : State) : State := { s with chan := { s.chan with cmdacc := s.chan.cmdacc + 1 } }
/-- A command done: with ACK, its DONE (23 R433, R436). -/
def DoneWith (c : Cmd) (s2 t : State) : Prop :=
  t = if c.head.getLsbD 16 then emit (event 0x01 (ctxOfCmd c) 0 c.seq.toNat 0 0) s2 else s2
/-- A command refused: CMDREJ with its reason, and no other effect (23 R434, R436). -/
def RefusedWith (c : Cmd) (reason : Nat) (s t : State) : Prop := t = emit (event 0x02 (ctxOfCmd c) reason c.seq.toNat 0 0) (tookEntry s)
/-- A command that acts on a live context is ignored before READY, and refused, in this order, for a field that does not fit or in RECOVERY (1),
and for a context that is not LIVE (2) (23 R434; 26 R489, R495). -/
def ContextCommand (ex : Cmd → State → Out) (fits : Cmd → Prop) : Prop :=
  ∀ c s, ∃ t, ex c s = .next t ∧ (s.mgmt.ready = false → t = s) ∧
    (s.mgmt.ready = true → (¬ fits c ∨ s.mgmt.recovery = true) → RefusedWith c 1 s t) ∧
    (s.mgmt.ready = true → fits c → s.mgmt.recovery = false → (ctxOf s (ctxOfCmd c)).st ≠ .live → RefusedWith c 2 s t)
/-- The module serves commands on a live context. -/
def Serves (c : Cmd) (s : State) : Prop :=
  s.mgmt.ready = true ∧ s.mgmt.recovery = false ∧ (ctxOf s (ctxOfCmd c)).st = .live
/-- A command that is served ends in a refusal, for the first of its own reasons that holds, and with none for reason 9 on an unusable module
(29 R522; 23 R434: the first that applies), or else in `effect`. That a command's own reasons come in the order of their numbers, but DEBUG (8)
ahead of 7 for debug commands, is the model's choice (log 75). -/
def Serving (ex : Cmd → State → Out) (fits : Cmd → Prop) (refusals : Cmd → State → List (Nat × Prop)) (effect : Cmd → State → State → Prop) : Prop :=
  ContextCommand ex fits ∧ ∀ c s, fits c → Serves c s → ∃ t, ex c s = .next t ∧
    (∀ (i : Nat) r p, (refusals c s)[i]? = some (r, p) → p → (∀ (j : Nat) r' p', j < i → (refusals c s)[j]? = some (r', p') → ¬ p') → RefusedWith c r s t) ∧
    ((∀ r p, (r, p) ∈ refusals c s → ¬ p) → s.mgmt.unusable = true → RefusedWith c 9 s t) ∧
    ((∀ r p, (r, p) ∈ refusals c s → ¬ p) → s.mgmt.unusable = false → effect c s t)
/-- NOP: accepted in every state of a module that is READY (23 R433, 26 R495, 29 R522). -/
def NopServed : Prop :=
  ∀ c s, ∃ t, exec (.commandNop c) s = .next t ∧ (s.mgmt.ready = false → t = s) ∧
    (s.mgmt.ready = true → (Fits 0 false c → DoneWith c (tookEntry s) t) ∧ (¬ Fits 0 false c → RefusedWith c 1 s t))
/-- SIGNAL raises a timeline that software owns (23 R433, 04 R105). -/
def SignalServed : Prop :=
  Serving (fun c => exec (.signal c)) (Fits 2 false)
    (fun c s => [(6, 4096 ≤ (arg c 0).toNat ∨ tlOwner (ctxOf s (ctxOfCmd c)) (arg c 0).toNat ≠ .software)])
    (fun c s t => ∃ s2, Raised (ctxOfCmd c) (arg c 0).toNat (arg c 1).toNat (tookEntry s) s2 ∧ DoneWith c s2 t)
/-- NOTIFY answers TLREACHED once a timeline has reached a value: at once where it has (23 R433, R436). -/
def NotifyServed : Prop :=
  Serving (fun c => exec (.notify c)) (Fits 2 false) (fun c _ => [(6, 4096 ≤ (arg c 0).toNat)]) (fun c s t =>
    let x := ctxOfCmd c
    let v : Nat := tlValue s x (arg c 0).toNat
    ((arg c 1).toNat ≤ v → DoneWith c (emit (event 0x04 x 0 c.seq.toNat v (arg c 0).toNat) (tookEntry s)) t) ∧
    (v < (arg c 1).toNat → t = { tookEntry s with ctxs := t.ctxs } ∧ (∀ y, y ≠ x → ctxOf t y = ctxOf s y) ∧
      ctxOf t x = { ctxOf s x with notifies := (ctxOf s x).notifies ++ [(c.seq.toNat, (arg c 0).toNat, (arg c 1).toNat, c.head.getLsbD 16)] }))
/-- The fields of a launch record (01 R38). -/
def recordOf (bs : List Byte) : LaunchRec :=
  let f := fun off lo len => bitField (word64 bs off) lo len
  { tentry := BitVec.ofNat 56 (f 0x00 0 56), fentry := BitVec.ofNat 56 (f 0x08 0 56), jentry := BitVec.ofNat 56 (f 0x10 0 56),
    handler := BitVec.ofNat 56 (f 0x18 0 56), param := BitVec.ofNat 56 (f 0x20 0 56), gang := f 0x28 56 4, gridx := f 0x28 0 24,
    gridy := f 0x28 24 16, gridz := f 0x28 40 16, kregs := f 0x30 40 8, regs := f 0x30 32 8, maxt := f 0x30 21 5, initt := f 0x30 16 5,
    width := f 0x30 0 11, accmax := f 0x38 28 8, span := f 0x38 25 3, scratch := f 0x38 0 20, strict := f 0x40 15 1 = 1, ldesc := f 0x40 14 1 = 1,
    nreplay := f 0x40 13 1 = 1, shrinkok := f 0x40 12 1 = 1, det := f 0x40 8 1 = 1, commit := f 0x40 4 2, prio := f 0x40 0 4, tlid := f 0x48 0 12,
    tlval := word64 bs 0x50 }
/-- The checks of a record, by reason (01 R41). -/
def RecordCheck (s : State) (x : Nat) (bs : List Byte) (reason : Nat) : Prop :=
  let r := recordOf bs
  let grid := r.gridx * r.gridy * r.gridz
  match reason with
  | 1 => (∀ q ∈ [(0x00, 56, 8), (0x08, 56, 8), (0x10, 56, 8), (0x18, 56, 8), (0x20, 56, 8), (0x28, 60, 4), (0x30, 48, 16), (0x30, 26, 6), (0x30, 11, 5),
      (0x38, 36, 28), (0x38, 20, 5), (0x40, 16, 48), (0x40, 9, 3), (0x40, 6, 2), (0x48, 12, 52), (0x58, 0, 64), (0x60, 0, 64), (0x68, 0, 64),
      (0x70, 0, 64), (0x78, 0, 64)], bitField (word64 bs q.1) q.2.1 q.2.2 = 0)
  | 2 => r.tentry ≠ 0 ∧ (∀ a ∈ [r.tentry, r.fentry, r.jentry, r.handler], a.toNat % 2 = 0) ∧ r.param.toNat % 64 = 0
  | 3 => 32 ≤ r.width ∧ r.width ≤ 1024 ∧ r.width % 32 = 0
  | 4 => 8 ≤ r.regs ∧ r.regs ≤ 240 ∧ r.regs % 8 = 0 ∧ r.width * r.regs ≤ 65536
  | 5 => 1 ≤ r.initt ∧ r.initt ≤ r.maxt ∧ r.maxt ≤ 16 ∧ (r.initt < r.maxt → r.jentry ≠ 0)
  | 6 => 1 ≤ r.gang ∧ r.gang ≤ 8 ∧ 1 ≤ r.gridx ∧ 1 ≤ r.gridy ∧ 1 ≤ r.gridz ∧ grid % r.gang = 0
  | 7 => (r.fentry = 0 → r.kregs = 0) ∧ (r.fentry ≠ 0 → 8 ≤ r.kregs) ∧ r.kregs ≤ 192 ∧ r.kregs % 8 = 0
  | 8 => r.scratch ≤ 524288 ∧ r.scratch % 128 = 0 ∧ r.accmax ≤ 128
  | 9 => r.initt ≤ mostDatapaths s * min 8 (65536 / (r.width * r.regs))
  | _ => tlOwner (ctxOf s x) r.tlid = .software
/-- A SUBMIT whose fields fit: reserved bits of its wait word, and the values of waits it does not use (23 R433). -/
def SubmitFits (c : Cmd) : Prop :=
  Fits 6 true c ∧ bitField c.a1.toNat 50 14 = 0 ∧ ∀ i, 3 + bitField c.a1.toNat 48 2 ≤ i → i < 6 → arg c i = 0
/-- The record that a SUBMIT names can be read: 128 bytes, aligned, in reach of the context (23 R434). -/
def RecordThere (c : Cmd) (s : State) (bs : List Byte) : Prop :=
  c.a0.toNat % 128 = 0 ∧ ∃ p, reachTarget s (ctxOfCmd c) [] needR (globalTarget s (ctxOfCmd c) c.a0.toNat false) = .go p ∧
    bs = (List.range 128).map (readByte s Shadow.empty p)
/-- SUBMIT queues a launch under the entry's number; a record that fails a check of R41 is rejected by LREJ with the first reason (23 R433, R434,
R439; 01 R41). -/
def SubmitServed : Prop :=
  Serving (fun c => exec (.submit c)) SubmitFits
    (fun c s => [(3, ¬ ∃ bs, RecordThere c s bs), (4, 4096 ≤ queuedCount s (ctxOfCmd c)),
      (5, c.head.getLsbD 17 = true ∧ (ctxOf s (ctxOfCmd c)).privok = false)])
    (fun c s t => ∀ bs, RecordThere c s bs →
      (∀ k, 1 ≤ k → k ≤ 10 → ¬ RecordCheck s (ctxOfCmd c) bs k → (∀ i, 1 ≤ i → i < k → RecordCheck s (ctxOfCmd c) bs i) →
        t = emit (event 0x03 (ctxOfCmd c) k c.seq.toNat 0 0) (tookEntry s)) ∧
      ((∀ i, 1 ≤ i → i ≤ 10 → RecordCheck s (ctxOfCmd c) bs i) → t = { tookEntry s with launches := t.launches } ∧
        (∀ n, n ≠ c.seq.toNat → Tbl.get t.launches n = Tbl.get s.launches n) ∧ ∃ l, Tbl.get t.launches c.seq.toNat = some l ∧
          l.ctx = ctxOfCmd c ∧ l.lr = recordOf bs ∧ l.priv = c.head.getLsbD 17 ∧ l.ack = c.head.getLsbD 16 ∧ l.st = .queued ∧ l.ready = false ∧
          l.nextGang = 0 ∧ l.blocksDone = [] ∧ l.param = none ∧ l.replays = 0 ∧ l.waits.length = bitField c.a1.toNat 48 2 + 1 ∧
          ∀ i, i ≤ bitField c.a1.toNat 48 2 → l.waits[i]? = some (bitField c.a1.toNat (12 * i) 12, (arg c (2 + i)).toNat)))
/-- A stopped team has gone on (01 R42, R43): TRAPPED while it handles a trap, else RUNNING, its splits as they were, their counts going on and the
time that they have been READY beginning (17 R370). -/
def TeamResumed (now : Nat) (m m' : Team) : Prop :=
  (m.st ≠ .stopped → m' = m) ∧
  (m.st = .stopped → m' = { m with st := if m.trap = none then .running else .trapped, cause := none, splits := m'.splits, defer := m'.defer } ∧
    ∀ e p, Tbl.get m.splits e = some p → ∃ p', Tbl.get m'.splits e = some p' ∧ (p.stopped = false → p' = p) ∧
      (p.stopped = true → p' = { p with stopped := false, wd := now - p.wdKept.getD 0, wdKept := none, since := now, avail := p.avail.map (fun _ => now) }))
/-- A block is halted: HALTED, or, while one of its commands stands stalled, SAVING from that state (the model's choice, log 115). -/
def Halted (k : Block) : Prop := k.st = .halted ∨ (k.st = .saving ∧ k.priorSave = .halted ∧ ∃ c ∈ k.cmds, c.stalled = true)
/-- A halted block with the state it had, its teams aside. -/
def unhalted (k : Block) : Block := if k.st = .saving then { k with priorSave := k.prior } else { k with st := k.prior }
/-- No barrier of a team holds an arrival flag of every live lane: it has no arrival to make (13 R292). -/
def NoneHeld (m : Team) : Prop := liveLanes m = 0 ∨ ∀ i q, (i, q) ∈ m.bars → liveLanes m &&& ~~~q.al ≠ 0
/-- A team that runs on makes the arrivals that were held back while it could make none (13 R298; log 107): none where no barrier of it has an
arrival flag of every live lane; for the one barrier that has, its arrival, which is the last or not. -/
def LateArrivals : Prop :=
  (∀ s b n m, teamOf s b n = some m → NoneHeld m → arriveLate s b n = s) ∧
  ∀ s b n m i q k, Tbl.get s.blocks b = some k → Tbl.get k.teams n = some m → m.st = .running → m.bars = [(i, q)] → liveLanes m ≠ 0 →
    liveLanes m &&& ~~~q.al = 0 → i < 16 → i < k.bars.length →
    ∃ m', teamOf (arriveLate s b n) b n = some m' ∧ Tbl.get m'.bars i = some { al := 0, lp := some (barOf s b i).phase } ∧
      ((barOf s b i).a + 1 < (barOf s b i).m → barOf (arriveLate s b n) b i = { barOf s b i with a := (barOf s b i).a + 1 }) ∧
      ((barOf s b i).a + 1 = (barOf s b i).m → barOf (arriveLate s b n) b i = { barOf s b i with a := 0, phase := (barOf s b i).phase + 1 } ∧
        ∀ e p, Tbl.get m.splits e = some p → p.st = .waitBar i (barOf s b i).phase → ∃ p', Tbl.get m'.splits e = some p' ∧ p'.st = .ready)
/-- The blocks of its context that an entry names by launch and linear index (23 R433). -/
def NamedBy (c : Cmd) (s : State) (b : Nat) (k : Block) : Prop :=
  (b, k) ∈ s.blocks ∧ k.launch = c.a0.toNat ∧ k.lin = c.a1.toNat ∧ ctxNum s b = ctxOfCmd c
/-- RESUME brings every HALTED copy of a block back to the state it had (23 R433, 01 R44), where its teams have no arrival to make and no block has
ended; and one whose last team ended while it was halted completes (01 R36). -/
def ResumeServed : Prop :=
  Serving (fun c => exec (.resume c)) (Fits 2 false) (fun c s => [(7, ∀ b k, NamedBy c s b k → ¬ Halted k)]) (fun c s t =>
    (s.blocks.map (fun q => q.1)).Nodup → (∀ b k n m, NamedBy c s b k → (n, m) ∈ k.teams → NoneHeld m) →
    ((∀ b k, (b, k) ∈ s.blocks → k.ended = false) → ∃ s2, DoneWith c s2 t ∧ s2 = { tookEntry s with blocks := s2.blocks } ∧
      (∀ b k, NamedBy c s b k → Halted k → ∃ k', Tbl.get s2.blocks b = some k' ∧ k' = { unhalted k with teams := k'.teams } ∧
        ∀ n m, Tbl.get k.teams n = some m → ∃ m', Tbl.get k'.teams n = some m' ∧ TeamResumed s.now m m') ∧
      ∀ b k, (b, k) ∈ s.blocks → ¬ (NamedBy c s b k ∧ Halted k) → Tbl.get s2.blocks b = some k) ∧
    (∀ b k l, NamedBy c s b k → k.st = .halted → (k.prior = .running ∨ k.prior = .shrinking) → k.ended = true → blockDrained k = true →
      Tbl.get s.launches k.launch = some l → l.lr.det = false → Tbl.get t.blocks b = none))
/-- CANCEL discards a launch of its context no block of which has been placed (23 R433). That a launch whose PARAM has been copied counts as placed
is the model's choice (log 77). -/
def CancelServed : Prop :=
  Serving (fun c => exec (.cancel c)) (Fits 1 false)
    (fun c s => [(7, ¬ ∃ l, Tbl.get s.launches c.a0.toNat = some l ∧ l.ctx = ctxOfCmd c ∧ l.st = .queued ∧ l.param = none)])
    (fun c s t => ∃ s2 l', DoneWith c s2 t ∧ Tbl.get s2.launches c.a0.toNat = some l' ∧ l'.st = .discarded ∧
      (∀ n, n ≠ c.a0.toNat → Tbl.get s2.launches n = Tbl.get s.launches n) ∧ s2.ctxs = s.ctxs ∧ s2.mem = s.mem)
/-- DISPATCH releases a queued launch of its context whose waits hold (23 R433, R444). That reason 7 refuses every other launch is the model's
choice (log 77). -/
def DispatchServed : Prop :=
  Serving (fun c => exec (.dispatch c)) (Fits 1 false)
    (fun c s => [(7, ¬ ∃ l, Tbl.get s.launches c.a0.toNat = some l ∧ l.ctx = ctxOfCmd c ∧ l.st = .queued ∧ (l.ready = true ∨ waitsHold s l = true))])
    (fun c s t => ∃ s2 l', DoneWith c s2 t ∧ Tbl.get s2.launches c.a0.toNat = some l' ∧ l'.dispatched = true ∧ l'.st = .queued ∧ l'.ready = true ∧
      (∀ n, n ≠ c.a0.toNat → Tbl.get s2.launches n = Tbl.get s.launches n) ∧ s2.ctxs = s.ctxs ∧ s2.blocks = s.blocks)

end Sys2Proof.Spec

/-- 23 R432 to R436, R439, R444, 01 R38, R41, R44: how a command is taken or refused, and NOP, SIGNAL, NOTIFY, SUBMIT, RESUME, CANCEL, DISPATCH and
the opcodes that are none. What the clauses take beyond the rules is the model's own: logs 75, 77, 107 and 115. -/
def Obligations.LaunchCommands : Prop :=
  NopServed ∧ SignalServed ∧ NotifyServed ∧ SubmitServed ∧ LateArrivals ∧ ResumeServed ∧ CancelServed ∧ DispatchServed ∧
  (∀ c s, s.mgmt.ready = true → ∃ t, exec (.unassignedCommand c) s = .next t ∧ RefusedWith c 1 s t)

namespace Sys2Proof.Spec

/-- The context descriptor's checks (24 R447, R448; 04 R107). -/
def DescFits (bs : List Byte) : Prop :=
  let f := fun off lo len => bitField (word64 bs off) lo len
  (∀ q ∈ [(0x00, 52, 12), (0x00, 0, 16), (0x08, 56, 8), (0x10, 56, 8), (0x18, 56, 8), (0x28, 32, 8), (0x28, 0, 16), (0x30, 40, 24), (0x30, 2, 30),
      (0x38, 52, 12), (0x40, 56, 8), (0x48, 16, 48), (0x50, 0, 64), (0x58, 0, 64), (0x60, 0, 64), (0x68, 0, 64), (0x70, 0, 64), (0x78, 0, 64)],
    f q.1 q.2.1 q.2.2 = 0) ∧
  word64 bs 0x08 % 32768 = 0 ∧ word64 bs 0x10 % 512 = 0 ∧ word64 bs 0x18 % 65536 = 0 ∧ word64 bs 0x40 % 0x200000 = 0 ∧
  1 ≤ f 0x20 48 16 ∧ f 0x20 48 16 ≤ 6144 ∧ 2 ≤ f 0x20 32 16 ∧ f 0x20 0 32 % 16 = 0 ∧ f 0x20 0 32 + 64 ≤ 64 * f 0x20 32 16 ∧
  (f 0x28 40 8 = 0 ∨ (16 ≤ f 0x28 40 8 ∧ f 0x28 40 8 ≤ 40)) ∧ f 0x30 32 8 ≤ 64 ∧ f 0x00 16 36 * 65536 < Config.capacityBytes ∧
  f 0x38 16 36 * 65536 < Config.capacityBytes ∧ (word64 bs 0x08 + 32768 ≤ word64 bs 0x10 ∨ word64 bs 0x10 + 524288 ≤ word64 bs 0x08)
/-- CTXNEW makes a FREE context LIVE from its descriptor, with as many MiB of each die's chip scratchpad as CHIPMB says, zeroed, where so many are not
granted (24 R446 to R448; which of them is the model's choice, log 81). -/
def CtxnewServed : Prop :=
  (∀ c s, ∃ t, exec (.ctxnew c) s = .next t ∧ (s.mgmt.ready = false → t = s) ∧
    (s.mgmt.ready = true → (¬ Fits 1 false c ∨ s.mgmt.recovery = true) → RefusedWith c 1 s t)) ∧
  ∀ c s, s.mgmt.ready = true → Fits 1 false c → s.mgmt.recovery = false →
    let held := s.mgmt.unusable = true ∨ s.mgmt.test ≠ none
    let x := ctxOfCmd c
    let bs := (List.range 128).map (fun i => Sparse.get (w := 8) s.host (c.a0.toNat + i))
    let f := fun off lo len => bitField (word64 bs off) lo len
    ∃ t, exec (.ctxnew c) s = .next t ∧
      ((ctxOf s x).st ≠ .free → RefusedWith c 7 s t) ∧
      ((ctxOf s x).st = .free → (c.a0.toNat % 128 ≠ 0 ∨ ¬ DescFits bs) → RefusedWith c 8 s t) ∧
      ((ctxOf s x).st = .free → c.a0.toNat % 128 = 0 → DescFits bs → (held ∨ (chipFree s).length < f 0x30 32 8) → RefusedWith c 9 s t) ∧
      ((ctxOf s x).st = .free → c.a0.toNat % 128 = 0 → DescFits bs → ¬ held → f 0x30 32 8 ≤ (chipFree s).length → ∃ s2, DoneWith c s2 t ∧
        s2 = { tookEntry s with ctxs := s2.ctxs, chip := s2.chip } ∧ (∀ y, y ≠ x → ctxOf s2 y = ctxOf s y) ∧
        (let k := ctxOf s2 x
         k.st = .live ∧ k.root = f 0x00 16 36 * 65536 ∧ k.tlmap = word64 bs 0x08 ∧ k.sbmap = word64 bs 0x10 ∧ k.lpbase = word64 bs 0x18 ∧
         k.nframes = f 0x20 48 16 ∧ k.lpstride = f 0x20 32 16 ∧ k.lpuser = f 0x20 0 32 ∧ k.shrlim = f 0x28 48 16 ∧ k.wdlog = f 0x28 40 8 ∧
         k.pinmax = f 0x28 16 16 ∧ k.chipmb = f 0x30 32 8 ∧ (k.debug = true ↔ f 0x30 1 1 = 1) ∧ (k.privok = true ↔ f 0x30 0 1 = 1) ∧
         k.pool = f 0x38 16 36 * 65536 ∧ k.pooln = f 0x38 0 16 ∧ k.savebase = word64 bs 0x40 ∧ k.slots = f 0x48 0 16 ∧
         (∀ n, tlValue s2 x n = 0 ∧ tlOwner k n = .software) ∧ (∀ q ∈ k.counters, q.count = 0)) ∧
        (ctxOf s2 x).chipAt.length = f 0x30 32 8 ∧ (∀ n ∈ (ctxOf s2 x).chipAt, n ∈ chipFree s) ∧
        ∀ n i, n ∈ (ctxOf s2 x).chipAt → i < 2 ^ 20 →
          Sparse.get (w := 8) s2.chip (n * 2 ^ 20 + i) = 0 ∧ Sparse.get (w := 8) s2.chip (Config.chipBytes + n * 2 ^ 20 + i) = 0)
/-- CTXKILL makes its context DYING: its launches discarded, its collective contexts halted, its pins gone; the DONE comes when it is
KILLED, and its CTXKILLED event names the command (24 R449, 23 R436). -/
def CtxkillServed : Prop :=
  Serving (fun c => exec (.ctxkill c)) (Fits 0 false) (fun _ _ => []) (fun c s t =>
    let x := ctxOfCmd c
    Dying t x 1 0 ∧ (ctxOf t x).killSeq = c.seq.toNat ∧ (ctxOf t x).killAck = (if c.head.getLsbD 16 then some c.seq.toNat else none) ∧ (ctxOf t x).pins = 0 ∧
    (∀ n l, Tbl.get s.launches n = some l → l.ctx = x → (l.st = .queued ∨ l.st = .placed) → ∃ l', Tbl.get t.launches n = some l' ∧ l'.st = .discarded) ∧
    (∀ n q, Tbl.get s.ccs n = some q → q.st ≠ .unbound → q.ctx = x → (ccOf t n).st = .halted ∧ (ccOf t n).round.st ≠ .active) ∧
    ∀ n l, Tbl.get s.launches n = some l → l.ctx ≠ x → Tbl.get t.launches n = some l)
/-- CTXDEL frees a context that is KILLED, or LIVE with nothing queued, placed or bound (24 R446): what is kept in its name goes with it (the
model's choice, log 80). Where fault records go, the splits of other contexts, whose misses may have found none free, look again at the pages they
wait for (24 R456). -/
def CtxdelServed : Prop :=
  ∀ c s, s.mgmt.ready = true → s.mgmt.recovery = false → s.mgmt.unusable = false →
    let x := ctxOfCmd c
    let free := (ctxOf s x).st = .killed ∨ ((ctxOf s x).st = .live ∧ (∀ n l, (n, l) ∈ s.launches → l.ctx = x → l.st ≠ .queued ∧ l.st ≠ .placed) ∧
      ∀ n q, (n, q) ∈ s.ccs → q.ctx = x → q.st = .unbound)
    ∃ t, exec (.ctxdel c) s = .next t ∧ (¬ Fits 0 false c → RefusedWith c 1 s t) ∧ (Fits 0 false c → ¬ free → RefusedWith c 7 s t) ∧
      (Fits 0 false c → free → ((∃ r ∈ s.faults, r.ctx = x) → OnlySplitsWait s) → ∃ s2, DoneWith c s2 t ∧ (ctxOf s2 x).st = .free ∧
        (∀ y, y ≠ x → ctxOf s2 y = ctxOf s y) ∧ (∀ n l, (n, l) ∈ s2.launches → l.ctx ≠ x) ∧ (∀ n o, (n, o) ∈ s2.hbm → o.pin ≠ some x) ∧
        s2.mem = s.mem ∧ (∀ r, r ∈ s2.faults ↔ r ∈ s.faults ∧ r.ctx ≠ x) ∧ ((∀ r ∈ s.faults, r.ctx ≠ x) → s2.blocks = s.blocks) ∧
        ((∃ r ∈ s.faults, r.ctx = x) → (∀ b k, (b, k) ∈ s.blocks → ctxNum s b ≠ x) → WaitsAgain none s s2))
/-- TLOWN gives a timeline an owner: software, a collective context or a stack queue (24 R446, R450). -/
def TlownServed : Prop :=
  let own := fun (c : Cmd) (o : TlOwner) => (c.a1.toNat = 0 ∧ c.a2.toNat = 0 ∧ o = .software) ∨ (c.a1.toNat = 1 ∧ c.a2.toNat < 1024 ∧ o = .collective c.a2.toNat) ∨
    (c.a1.toNat = 2 ∧ c.a2.toNat < 8 ∧ o = .stackQueue c.a2.toNat)
  Serving (fun c => exec (.tlown c)) (Fits 3 false)
    (fun c s => [(6, 4096 ≤ c.a0.toNat), (7, ∃ n q, (n, q) ∈ s.ccs ∧ q.st ≠ .unbound ∧ q.ctx = ctxOfCmd c ∧ (ccOf s n).tlc = c.a0.toNat),
      (8, ¬ ∃ o, own c o)])
    (fun c s t => ∀ o, own c o → ∃ s2, DoneWith c s2 t ∧ s2 = { tookEntry s with ctxs := s2.ctxs } ∧ tlOwner (ctxOf s2 (ctxOfCmd c)) c.a0.toNat = o ∧
      (∀ n, n ≠ c.a0.toNat → tlOwner (ctxOf s2 (ctxOfCmd c)) n = tlOwner (ctxOf s (ctxOfCmd c)) n) ∧
      (∀ n, tlValue s2 (ctxOfCmd c) n = tlValue s (ctxOfCmd c) n) ∧ ∀ y, y ≠ ctxOfCmd c → ctxOf s2 y = ctxOf s y)
/-- FAULTRES answers a record: outcome 1 fails it, outcome 0 lets it be walked again (24 R457). -/
def FaultresServed : Prop :=
  Serving (fun c => exec (.faultres c)) (Fits 2 false)
    (fun c s => [(7, ∀ r ∈ s.faults, ¬ (r.num = c.a0.toNat ∧ r.ctx = ctxOfCmd c)), (8, 2 ≤ c.a1.toNat)])
    (fun c s t => ∀ r, s.faults.find? (fun r => r.num = c.a0.toNat && r.ctx = ctxOfCmd c) = some r → OnlySplitsWait s →
      ∃ s2, DoneWith c s2 t ∧ s2.mem = s.mem ∧ (c.a1.toNat = 1 → RecordGone r true (tookEntry s) s2) ∧
        (c.a1.toNat = 0 → ∀ pa size sys rd wr ex, walk s r.ctx (r.page * 65536) = .leaf pa size sys rd wr ex → RecordGone r false (tookEntry s) s2) ∧
        (c.a1.toNat = 0 → ∀ level cls, walk s r.ctx (r.page * 65536) = .stop level cls → s2.blocks = s.blocks ∧
          ((∀ q ∈ s.faults, q ≠ r → q.num ≠ r.num ∧ ¬ (q.ctx = r.ctx ∧ q.page = r.page)) → s.faults.length ≤ 256 →
            ∃ q ∈ s2.faults, q.ctx = r.ctx ∧ q.page = r.page ∧ q.level = level ∧ q.cls = cls)))
/-- INVAL drops the cached translations that its descriptor names (24 R458, 15 R342). -/
def InvalServed : Prop :=
  let kind := fun (c : Cmd) => c.a0.toNat % 4
  let va := fun (c : Cmd) => c.a0.toNat / 2 ^ 16 % 2 ^ 40 * 65536
  Serving (fun c => exec (.inval c)) (Fits 1 false)
    (fun c _ => [(8, ¬ (c.a0.toNat / 2 ^ 56 = 0 ∧ c.a0.toNat / 4 % 2 ^ 14 = 0 ∧ kind c ≤ 1))])
    (fun c s t => ∃ s2, DoneWith c s2 t ∧ s2 = { tookEntry s with tlb := s2.tlb } ∧
      ∀ q, q ∈ s2.tlb ↔ q ∈ s.tlb ∧ ¬ (q.ctx = ctxOfCmd c ∧ (kind c = 1 ∨ (q.va ≤ va c ∧ va c < q.va + q.size))))
/-- PREEMPT begins the save of every placed copy of a gang (24 R464). That it takes every copy, and is refused with 9 for want of save slots, is the
model's choice (log 78). -/
def PreemptServed : Prop :=
  Serving (fun c => exec (.preempt c)) (Fits 2 false)
    (fun c s => [(7, namedLaunch c s = none ∨ placedCopies s c.a0.toNat c.a1.toNat = []),
      (9, (freeSlots (ctxOf s (ctxOfCmd c))).length < ((placedCopies s c.a0.toNat c.a1.toNat).map (fun k => (gangBlocks s c.a0.toNat c.a1.toNat k).length)).sum)])
    (fun c s t => (s.blocks.map (fun q => q.1)).Nodup → ∃ s2, DoneWith c s2 t ∧ s2.mem = s.mem ∧ s2.spad = s.spad ∧
      ∀ k ∈ placedCopies s c.a0.toNat c.a1.toNat, GangSaving s2 c.a0.toNat c.a1.toNat k)
/-- The operands of CCBIND are in range, and its timeline is software's (24 R451). That reason 8 refuses operands out of these ranges is the model's
choice (log 79). -/
def BindFits (c : Cmd) (s : State) : Prop :=
  let f := fun lo len => bitField c.a1.toNat lo len
  c.a0.toNat < 1024 ∧ f 25 39 = 0 ∧ f 23 1 = 0 ∧ f 13 3 = 0 ∧ 1 ≤ f 16 7 ∧ f 16 7 ≤ 64 ∧ f 0 13 % 32 = 0 ∧ 32 ≤ f 0 13 ∧ f 0 13 ≤ 4096 ∧
  c.a2.toNat % 8 = 0 ∧ c.a2.toNat < 2 ^ 56 ∧ tlOwner (ctxOf s (ctxOfCmd c)) c.a3.toNat = .software
/-- CCBIND binds a collective context to its device context: READY at its entry, its timeline its own (24 R451, 16 R344). -/
def CcbindServed : Prop :=
  Serving (fun c => exec (.ccbind c)) (Fits 4 false)
    (fun c s => [(6, 4096 ≤ c.a3.toNat), (7, s.fab.valid = false ∨ (ccOf s c.a0.toNat).st ≠ .unbound), (8, ¬ BindFits c s)])
    (fun c s t => ∃ s2, DoneWith c s2 t ∧ s2 = { tookEntry s with ctxs := s2.ctxs, ccs := s2.ccs } ∧
      (∀ n, n ≠ c.a0.toNat → Tbl.get s2.ccs n = Tbl.get s.ccs n) ∧ tlOwner (ctxOf s2 (ctxOfCmd c)) c.a3.toNat = .collective c.a0.toNat ∧
      (let q := ccOf s2 c.a0.toNat
       q.st = .ready ∧ q.ctx = ctxOfCmd c ∧ q.ch = 256 * bitField c.a1.toNat 16 7 ∧ q.sbbits = bitField c.a1.toNat 0 13 ∧ q.tlc = c.a3.toNat ∧
       (q.prot = true ↔ bitField c.a1.toNat 24 1 = 1) ∧ q.pc = c.a2 ∧ q.ring = none ∧ q.round.st = .none ∧ q.round.num = 0 ∧
       (∀ x, (entryOf q x).st = .disarmed) ∧ (∀ r, ccReg q r = 0) ∧ ∀ w, Sparse.get q.board w = 0))
/-- The collective context is bound to the entry's context. -/
def OwnCc (c : Cmd) (s : State) : Prop := (ccOf s c.a0.toNat).st ≠ .unbound ∧ (ccOf s c.a0.toNat).ctx = ctxOfCmd c
/-- CCSTART runs a collective context: from READY at its entry, else where it stood, its fault word cleared (16 R344, R368; 27 R506). -/
def CcstartServed : Prop :=
  Serving (fun c => exec (.ccstart c)) (Fits 1 false)
    (fun c s => [(7, ¬ OwnCc c s ∨ (ccOf s c.a0.toNat).st = .running ∨ (ccOf s c.a0.toNat).st = .waiting),
      (8, (ccOf s c.a0.toNat).prot = true ∧ (ctxOf s (ctxOfCmd c)).keyCur = none)])
    (fun c s t => ∃ s2, DoneWith c s2 t ∧ OnlyCc c.a0.toNat (tookEntry s) s2 ∧
      (let o := ccOf s c.a0.toNat
       let q := ccOf s2 c.a0.toNat
       q.st = .running ∧ q.pc = (if o.st = .ready then BitVec.ofNat 64 o.entry else o.pc) ∧ q.faultCode = 0 ∧ q.faultReason = 0 ∧
       (∀ r, ccReg q r = ccReg o r) ∧ q.round = o.round ∧ q.entries = o.entries ∧ q.ring = o.ring))
/-- CCSTOP halts a collective context; an ACTIVE round ends with outcome 4 (24 R451). -/
def CcstopServed : Prop :=
  Serving (fun c => exec (.ccstop c)) (Fits 1 false) (fun c s => [(7, ¬ OwnCc c s)])
    (fun c s t => ∃ s2, DoneWith c s2 t ∧ s2.mem = s.mem ∧ s2.blocks = s.blocks ∧ (ccOf s2 c.a0.toNat).st = .halted ∧
      (∀ r, ccReg (ccOf s2 c.a0.toNat) r = ccReg (ccOf s c.a0.toNat) r) ∧
      ((ccOf s c.a0.toNat).round.st = .active → RoundAborted 4 (ccOf s c.a0.toNat) (ccOf s2 c.a0.toNat)) ∧
      ((ccOf s c.a0.toNat).round.st ≠ .active → (ccOf s2 c.a0.toNat).round = (ccOf s c.a0.toNat).round) ∧
      ∀ n, n ≠ c.a0.toNat → Tbl.get s2.ccs n = Tbl.get s.ccs n)
/-- SECKEY gives a context a key of 32 bytes; the one before it stays good for its grace (27 R506). That reason 8 refuses operands out of range is
the model's choice (log 79). -/
def SeckeyServed : Prop :=
  Serving (fun c => exec (.seckey c)) (Fits 6 false) (fun c _ => [(8, c.a0.toNat % 32 ≠ 0 ∨ ∃ i, 1 ≤ i ∧ i < 6 ∧ arg c i ≠ 0)])
    (fun c s t => ∃ s2, DoneWith c s2 t ∧ s2 = { tookEntry s with ctxs := s2.ctxs } ∧ (∀ y, y ≠ ctxOfCmd c → ctxOf s2 y = ctxOf s y) ∧
      ctxOf s2 (ctxOfCmd c) = { ctxOf s (ctxOfCmd c) with keyPrev := (ctxOf s (ctxOfCmd c)).keyCur, keyTime := s.now,
                                                          keyCur := some ((List.range 32).map (fun i => Sparse.get (w := 8) s.host (c.a0.toNat + i))) })

end Sys2Proof.Spec

/-- 24 R446 to R451, R457, R458, R464, 16 R344, R368, 27 R506: the commands of contexts: CTXNEW, CTXKILL, CTXDEL, TLOWN, FAULTRES, INVAL, PREEMPT,
CCBIND, CCSTART, CCSTOP, SECKEY. What the clauses take beyond the rules is the model's own: logs 75, 78, 79, 80 and 81. -/
def Obligations.ContextCommands : Prop :=
  CtxnewServed ∧ CtxkillServed ∧ CtxdelServed ∧ TlownServed ∧ FaultresServed ∧ InvalServed ∧ PreemptServed ∧ CcbindServed ∧ CcstartServed ∧
  CcstopServed ∧ SeckeyServed


namespace Sys2Proof.Spec

/-! ### Debug and firmware commands -/

/-- A team has been stopped by a command (01 R42, R43; 25 R468, R469): STOPPED where it ran or handled a trap, its splits' states kept, their
counts held. -/
def TeamStopped (now : Nat) (m m' : Team) : Prop :=
  (m.st ≠ .running → m.st ≠ .trapped → m' = m) ∧
  ((m.st = .running ∨ m.st = .trapped) → m' = { m with st := .stopped, cause := some .command, splits := m'.splits, defer := m'.defer } ∧
    ∀ e p, Tbl.get m.splits e = some p → ∃ p', Tbl.get m'.splits e = some p' ∧
      p' = if p.stopped then p else { p with stopped := true, wdKept := some (now - p.wd) })
/-- The block that a debug command names by launch and linear index (25 R468): of its copies the lowest, which is the model's choice (log 85). -/
def Debugged (c : Cmd) (s : State) (b : Nat) (k : Block) : Prop :=
  (s.blocks.filter (fun q => q.2.launch = c.a0.toNat && q.2.lin = c.a1.toNat && ctxNum s q.1 = ctxOfCmd c)).head? = some (b, k)
/-- The refusals that every debug command of a block shares (25 R468): a context without DEBUG (8), no such block (7); that 8 comes ahead of 7 is
the model's choice (log 75). -/
def debugRefusals (c : Cmd) (s : State) (more : Prop) : List (Nat × Prop) :=
  [(8, (ctxOf s (ctxOfCmd c)).debug = false), (7, (∀ b k, ¬ NamedBy c s b k) ∨ more)]
/-- Only the teams of block `b` have changed, those of `which` by `how` and no other. -/
def TeamsMove (b : Nat) (which : Nat → Prop) (how : Team → Team → Prop) (s t : State) : Prop :=
  OnlyBlock b s t ∧ ∃ k k', Tbl.get s.blocks b = some k ∧ Tbl.get t.blocks b = some k' ∧ k' = { k with teams := k'.teams } ∧
    ∀ n m, Tbl.get k.teams n = some m → ∃ m', Tbl.get k'.teams n = some m' ∧ (which n → how m m') ∧ (¬ which n → m' = m)
/-- A block on its core and not halted. -/
def Active (k : Block) : Prop := k.st = .running ∨ k.st = .shrinking
/-- A team that runs or handles a trap. -/
def Going' (m : Team) : Prop := m.st = .running ∨ m.st = .trapped
/-- DBGSTOP stops a team, or with 31 all of a block, and reports it with a HALTED event (25 R468, R469); that it is one event, whatever the number of
teams, is the model's choice (log 85). -/
def DbgstopServed : Prop :=
  Serving (fun c => exec (.dbgstop c)) (Fits 3 false)
    (fun c s => debugRefusals c s (∀ b k, Debugged c s b k → ¬ Active k ∨
      (c.a2.toNat = 31 ∧ ∀ n m, (n, m) ∈ k.teams → ¬ Going' m) ∨
      (c.a2.toNat ≠ 31 ∧ ∀ m, c.a2.toNat < 16 → Tbl.get k.teams c.a2.toNat = some m → ¬ Going' m)))
    (fun c s t => ∀ b k, Debugged c s b k → Tbl.get s.blocks b = some k → Tbl.get s.launches k.launch ≠ none → ∃ pc s2, TeamsMove b (fun n => c.a2.toNat = 31 ∨ n = c.a2.toNat) (TeamStopped s.now) (tookEntry s) s2 ∧
      DoneWith c (emit (event 0x05 (ctxOfCmd c) 0 c.a0.toNat pc c.a1.toNat) s2) t)
/-- A stopped team may go on: its block runs; or it is SAVING and a command of the team stands stalled (the model's choice, log 115). -/
def MayResume (k : Block) (n : Nat) (m : Team) : Prop := m.st = .stopped ∧ (Active k ∨ (k.st = .saving ∧ ∃ c ∈ k.cmds, c.team = n ∧ c.stalled = true))
/-- DBGRESUME lets a stopped team, or with 31 all of a block, go on; a HALTED block returns to the state it had (25 R468, 01 R44), and one whose last
team has ended completes (01 R36). Arrivals that were held back are made then (13 R298). -/
def DbgresumeServed : Prop :=
  Serving (fun c => exec (.dbgresume c)) (Fits 3 false)
    (fun c s => debugRefusals c s (∀ b k, Debugged c s b k →
      (c.a2.toNat = 31 ∧ ¬ Halted k ∧ ∀ n m, (n, m) ∈ k.teams → ¬ MayResume k n m) ∨
      (c.a2.toNat ≠ 31 ∧ ∀ m, c.a2.toNat < 16 → Tbl.get k.teams c.a2.toNat = some m → ¬ MayResume k c.a2.toNat m)))
    (fun c s t => ∀ b k, Debugged c s b k → Tbl.get s.blocks b = some k → ∃ s2,
      let late := arriveAll b (if c.a2.toNat = 31 then k.teams.map (fun q => q.1) else [c.a2.toNat]) s2
      (¬ Halted k ∨ c.a2.toNat ≠ 31 → DoneWith c late t ∧
        TeamsMove b (fun n => c.a2.toNat = 31 ∨ n = c.a2.toNat) (TeamResumed s.now) (tookEntry s) s2) ∧
      (Halted k → c.a2.toNat = 31 → DoneWith c (retireEnded late) t ∧ OnlyBlock b (tookEntry s) s2 ∧ ∃ k', Tbl.get s2.blocks b = some k' ∧
        k' = { unhalted k with teams := k'.teams } ∧
        ∀ n m, Tbl.get k.teams n = some m → ∃ m', Tbl.get k'.teams n = some m' ∧ TeamResumed s.now m m'))
/-- DBGSTEP lets one split of a stopped team issue one instruction: the split named, or with 16 the READY one that issued longest ago (25 R468). -/
def DbgstepServed : Prop :=
  let entry := fun (c : Cmd) (m : Team) (e : Nat) => (c.a3.toNat < 16 ∧ e = c.a3.toNat ∧ Tbl.get m.splits e ≠ none) ∨
    (c.a3.toNat = 16 ∧ ∃ p, oldestReady m = some (e, p))
  Serving (fun c => exec (.dbgstep c)) (Fits 4 false)
    (fun c s => debugRefusals c s (∀ b k, Debugged c s b k → ¬ Active k ∨ 16 ≤ c.a2.toNat ∨
      ∀ m, Tbl.get k.teams c.a2.toNat = some m → m.st ≠ .stopped ∨ ∀ e, ¬ entry c m e))
    (fun c s t => ∀ b k, Debugged c s b k → Tbl.get s.blocks b = some k → ∃ s2, DoneWith c (arriveLate s2 b c.a2.toNat) t ∧ TeamsMove b (fun n => n = c.a2.toNat) (fun m m' =>
      m'.st = (if m.trap = none then .running else .trapped) ∧ m'.regs = m.regs ∧ ∀ e, entry c m e → OnlySplit e m.splits m'.splits ∧
        ∀ p, Tbl.get m.splits e = some p → ∃ p', Tbl.get m'.splits e = some p' ∧ p'.step = true ∧ p'.stopped = false ∧ p'.pc = p.pc ∧ p'.st = p.st)
      (tookEntry s) s2)
/-- DBGSNAP writes a stopped team to host memory: 8 KiB of its record, which is a function of the state that R462 lists and of what stopped the
team, then its registers and their uniform flags (25 R468, 24 R462); how the record and the flags are encoded is left free (log 90). -/
def DbgsnapServed : Prop :=
  Serving (fun c => exec (.dbgsnap c)) (Fits 4 false)
    (fun c s => debugRefusals c s (∀ b k, Debugged c s b k → 16 ≤ c.a2.toNat ∨ k.st = .saved ∨
      ∀ m, Tbl.get k.teams c.a2.toNat = some m → m.st ≠ .stopped) ++ [(8, c.a3.toNat % 4096 ≠ 0)])
    (fun c s t => ∀ b k m, Debugged c s b k → Tbl.get k.teams c.a2.toNat = some m → ∃ s2, DoneWith c s2 t ∧
      s2 = { tookEntry s with host := s2.host } ∧
      (∀ i, i < 8192 → Sparse.get (w := 8) s2.host (c.a3.toNat + i) = Config.imageByte 2 (teamImage s.now m) i) ∧ (∀ r l i, r < m.nregs → l < m.width → i < 4 →
        Sparse.get (w := 8) s2.host (c.a3.toNat + 8192 + 4 * (r * m.width + l) + i) = BitVec.ofNat 8 ((m.reg r l).toNat / 256 ^ i)) ∧
      (∀ i, i < m.nregs → Sparse.get (w := 8) s2.host (c.a3.toNat + 8192 + 4 * (m.nregs * m.width) + i) =
        Config.imageByte 5 ((List.range m.nregs).map (fun n => boolNum (isUniform m n))) i) ∧
      ∀ a, (a < c.a3.toNat ∨ c.a3.toNat + 8192 + 4 * (m.nregs * m.width) + m.nregs ≤ a) → Sparse.get (w := 8) s2.host a = Sparse.get (w := 8) s.host a)
/-- DBGBP sets or clears one of a context's four address breakpoints (25 R468). -/
def DbgbpServed : Prop :=
  Serving (fun c => exec (.dbgbp c)) (fun c => Fits 2 false c ∧ bitField c.a1.toNat 9 55 = 0 ∧ bitField c.a1.toNat 2 6 = 0)
    (fun c s => [(8, (ctxOf s (ctxOfCmd c)).debug = false ∨ c.a0.getLsbD 0 = true ∨ 2 ^ 56 ≤ c.a0.toNat)])
    (fun c s t => ∃ s2, DoneWith c s2 t ∧ s2 = { tookEntry s with ctxs := s2.ctxs } ∧
      (let bps := (ctxOf s2 (ctxOfCmd c)).bps
       let slot := bitField c.a1.toNat 0 2
       Tbl.get bps slot = (if c.a1.getLsbD 8 then some (c.a0.extractLsb' 0 56) else none) ∧
       ∀ i, i ≠ slot → Tbl.get bps i = Tbl.get (ctxOf s (ctxOfCmd c)).bps i) ∧ ∀ y, y ≠ ctxOfCmd c → ctxOf s2 y = ctxOf s y)
/-- DBGMODE sets a context's stop-block mode (25 R468). -/
def DbgmodeServed : Prop :=
  Serving (fun c => exec (.dbgmode c)) (fun c => Fits 2 false c ∧ c.a0 = 0 ∧ bitField c.a1.toNat 1 63 = 0)
    (fun c s => [(8, (ctxOf s (ctxOfCmd c)).debug = false)])
    (fun c s t => ∃ s2, DoneWith c s2 t ∧ s2 = { tookEntry s with ctxs := s2.ctxs } ∧ (∀ y, y ≠ ctxOfCmd c → ctxOf s2 y = ctxOf s y) ∧
      ctxOf s2 (ctxOfCmd c) = { ctxOf s (ctxOfCmd c) with stopBlock := c.a1.getLsbD 0 })

/-- A command of firmware or a self-test is ignored before READY and refused for a field that does not fit or a context other than 0 (1) (26 R495;
29 R519). -/
def DeviceCommand (ex : Cmd → State → Out) (used : Nat) (recovery : Bool) : Prop :=
  ∀ c s, ∃ t, ex c s = .next t ∧ (s.mgmt.ready = false → t = s) ∧
    (s.mgmt.ready = true → (¬ Fits used false c ∨ ctxOfCmd c ≠ 0 ∨ (recovery = false ∧ s.mgmt.recovery = true)) → RefusedWith c 1 s t)
/-- Such a command is taken up. -/
def TakesUp (c : Cmd) (s : State) (used : Nat) (recovery : Bool) : Prop :=
  s.mgmt.ready = true ∧ Fits used false c ∧ ctxOfCmd c = 0 ∧ (recovery = true ∨ s.mgmt.recovery = false)
/-- A command that is taken up ends in a refusal, for the first of its own reasons that holds, and with none for reason 9 while a test runs
(23 R434; 29 R519), or else in `effect`. -/
def DeviceServing (ex : Cmd → State → Out) (used : Nat) (recovery : Bool) (refusals : Cmd → State → List (Nat × Prop))
    (effect : Cmd → State → State → Prop) : Prop :=
  DeviceCommand ex used recovery ∧ ∀ c s, TakesUp c s used recovery → ∃ t, ex c s = .next t ∧
    (∀ (i : Nat) r p, (refusals c s)[i]? = some (r, p) → p → (∀ (j : Nat) r' p', j < i → (refusals c s)[j]? = some (r', p') → ¬ p') → RefusedWith c r s t) ∧
    ((∀ r p, (r, p) ∈ refusals c s → ¬ p) → s.mgmt.test ≠ none → RefusedWith c 9 s t) ∧
    ((∀ r p, (r, p) ∈ refusals c s → ¬ p) → s.mgmt.test = none → effect c s t)
/-- The image of `n` bytes at a host address, by its header's body length (26 R487, R495). -/
def imageAt (s : State) (a n : Nat) : ImageBank :=
  let bs := (List.range n).map (fun i => Sparse.get (w := 8) s.host (a + i))
  let len := bitField (word64 bs 8) 0 32
  { header := bs.take 64, body := (bs.drop 64).take len, sig := bs.drop (64 + len), valid := true }
/-- FWSTAGE writes an image to the bank that is not active and stages it if it can boot, and with one that fails leaves that bank not valid;
FWCOMMIT makes the staged bank active for the next boot and, where its image says so, raises MINSVN; FWROLLBACK makes the other bank active where
it can boot (26 R495, R496; that a staged image then stays staged is the model's choice, log 76). -/
def FirmwareServed : Prop :=
  DeviceServing (fun c => exec (.fwstage c)) 2 true
    (fun c s => [(8, c.a0.toNat % 4096 ≠ 0), (8, ¬ Boots s (imageAt s c.a0.toNat c.a1.toNat) ∧ s.mgmt.test ≠ none)])
    (fun c s t =>
      let isB := !s.flash.activeB
      let b := imageAt s c.a0.toNat c.a1.toNat
      ∃ s2, s2 = { tookEntry s with flash := s2.flash, mgmt := s2.mgmt } ∧ bankOf s2 s.flash.activeB = bankOf s s.flash.activeB ∧
        s2.flash = { s.flash with bankA := s2.flash.bankA, bankB := s2.flash.bankB } ∧
        (Boots s b → DoneWith c s2 t ∧ s2.mgmt = { s.mgmt with staged := some isB } ∧ bankOf s2 isB = b) ∧
        (¬ Boots s b → t = emit (event 0x02 (ctxOfCmd c) 8 c.seq.toNat 0 0) s2 ∧ s2.mgmt = { s.mgmt with staged := none } ∧
          bankOf s2 isB = { b with valid := false })) ∧
  DeviceServing (fun c => exec (.fwcommit c)) 0 true (fun _ s => [(8, s.mgmt.staged = none)])
    (fun c s t => ∀ isB, s.mgmt.staged = some isB → ∃ s2, DoneWith c s2 t ∧ s2 = { tookEntry s with flash := s2.flash, mgmt := { s.mgmt with staged := none } } ∧
      (let h := (bankOf s isB).header
       s2.flash = { s.flash with activeB := isB,
                                 minsvn := if bitField (word64 h 16) 0 1 = 1 then max s.flash.minsvn (bitField (word64 h 8) 32 32) else s.flash.minsvn })) ∧
  DeviceServing (fun c => exec (.fwrollback c)) 0 true (fun _ s => [(8, ¬ Boots s (bankOf s (!s.flash.activeB)))])
    (fun c s t => DoneWith c { tookEntry s with flash := { s.flash with activeB := !s.flash.activeB } } t)
/-- SELFTEST begins the first phase of a test, with its buffer, nonce and number, where no context is in use (29 R519, R522: on an unusable module
too). -/
def SelftestServed : Prop :=
  DeviceServing (fun c => exec (.selftest c)) 3 false
    (fun c s => [(8, c.a0.toNat % 4096 ≠ 0 ∨ c.a1.toNat < 3540), (9, ∃ x q, (x, q) ∈ s.ctxs ∧ q.st ≠ .free)])
    (fun c s t => ∃ q : SelfTest, t = { tookEntry s with mgmt := { s.mgmt with test := some q } } ∧ q.phase = 1 ∧ q.buf = c.a0.toNat ∧ q.nonce = c.a2 ∧
      q.seq = c.seq.toNat ∧ q.ack = c.head.getLsbD 16 ∧ q.start = s.now ∧ q.began = s.now)

end Sys2Proof.Spec

/-- 25 R468, R469, 26 R495, R496, 29 R519: the commands of debuggers, of firmware updates, and of the self-test. What the clauses take beyond the rules is the model's own: DEBUG (8)
ahead of 7 (log 75); the lowest copy and one HALTED event (log 85); logs 76, 90 and 115. -/
def Obligations.DeviceCommands : Prop :=
  DbgstopServed ∧ DbgresumeServed ∧ DbgstepServed ∧ DbgsnapServed ∧ DbgbpServed ∧ DbgmodeServed ∧ FirmwareServed ∧ SelftestServed

namespace Sys2Proof.Spec

/-! ### Writes of the host -/

/-- A register write that the module does not take: CFGERR is set and nothing else changes (23 R430). -/
def Cfgerr (s t : State) : Prop := t = { s with chan := { s.chan with cfgerr := true } }
/-- A size of a ring: a power of two from 64 to 65,536 (23 R430). -/
def RingSize (v : DWord) : Prop := ∃ k, 6 ≤ k ∧ k ≤ 16 ∧ v.toNat = 2 ^ k
/-- A write that does something only once READY (26 R489). -/
def WhenReady (ex : State → Out) (does : State → State → Prop) : Prop :=
  ∀ s, ∃ t, ex s = .next t ∧ (s.mgmt.ready = false → t = s) ∧ (s.mgmt.ready = true → does s t)
/-- A channel register that takes values that fit while EN is 0 (23 R430). -/
def ConfigRegister (off : Nat) (fits : DWord → Prop) (put : Channel → DWord → Channel) : Prop :=
  ∀ v, WhenReady (exec (.registerWrite { off := off, width := 8 } v)) (fun s t =>
    (s.chan.en = false → fits v → t = { s with chan := put s.chan v }) ∧ ((s.chan.en = true ∨ ¬ fits v) → Cfgerr s t))
/-- A fabric register that takes values that fit while no collective context is bound (27 R499). -/
def FabricRegister (off : Nat) (fits : DWord → Prop) (put : Fabric → DWord → Fabric) : Prop :=
  ∀ v, WhenReady (exec (.registerWrite { off := off, width := 8 } v)) (fun s t =>
    ((∀ n c, (n, c) ∈ s.ccs → c.st = .unbound) → fits v → t = { s with fab := put s.fab v }) ∧
    (((∃ n c, (n, c) ∈ s.ccs ∧ c.st ≠ .unbound) ∨ ¬ fits v) → Cfgerr s t))
/-- CHCTL: EN and the snoop mode; held events go out (23 R431). -/
def ControlWritten (v : DWord) (s t : State) : Prop :=
  t = drainEvents { s with chan := { s.chan with en := v.getLsbD 0, snoop := v.getLsbD 1 } }
/-- DUTY (23 R444, R445): a launch whose waits hold already is ready in the mode it began in; one that became ready under arbitration by the host
and was not dispatched goes back to the device's when bit 3 is cleared. -/
def DutyWritten (v : DWord) (s t : State) : Prop :=
  let u := readyAll (openLaunches s) s
  t = { u with chan := { u.chan with duty := v &&& 0x1F }, launches := t.launches } ∧
  ∀ n, Tbl.get t.launches n = (Tbl.get u.launches n).map (fun l => if v.getLsbD 3 || l.dispatched then l else { l with lready := false })
/-- PCTL of a port (27 R501, R502): a port disabled in the service map ignores it; EN 1 takes a DOWN port to TRAINING, from now, EN 0 a live or
training one to DOWN and out of the spray set, RETRAIN a LIVE one to TRAINING. -/
def PortWritten (p : Nat) (v : DWord) (s t : State) : Prop :=
  let q := { portOf s p with en := v.getLsbD 0 }
  let out := ((portOf s p).inset = true → SentLost p s t) ∧ ((portOf s p).inset = false → t.fab.tx = s.fab.tx)
  let only := fun (q' : Port) => PortBecomes p q' s t ∧ t.fab.tx = s.fab.tx
  (q.disabled = true → t = s) ∧
  (q.disabled = false →
    (q.st = .down → q.en = true → only { q with st := .training, start := s.now, since := s.now }) ∧
    (q.st = .down → q.en = false → only q) ∧ (q.st = .failed → only q) ∧
    ((q.st = .training ∨ q.st = .live) → q.en = false → PortBecomes p { q with st := .down, inset := false } s t ∧ out) ∧
    (q.st = .training → q.en = true → only q) ∧
    (q.st = .live → q.en = true → v.getLsbD 1 = false → only q) ∧
    (q.st = .live → q.en = true → v.getLsbD 1 = true →
      PortBecomes p { q with st := .training, inset := false, start := s.now, since := s.now } s t ∧ out))
/-- The offsets of the registers that a write reaches, but for those of ports (23 R430; 25 R480; 27 R499). -/
def writable : List Nat :=
  [0x008, 0x010, 0x018, 0x020, 0x028, 0x038, 0x040, 0x048, 0x058, 0x060, 0x068, 0x100, 0x110, 0x128, 0x130, 0x40000, 0x40008, 0x40010]

/-- CHSTAT read (23 R431, R435, R437): RUN while the channel accepts entries. That one with CMDSIZE 0 accepts none (log 121) and that CPLFULL is 0
with EN 0 and CPLSIZE 0 (log 19) are the model's choices. -/
def StatusRead (s : State) : Prop :=
  let c := s.chan
  let v := barRead s 0x010 8
  let full := c.cplemit - c.cplhead = c.cplsize ∧ (c.en = true ∨ c.cplsize ≠ 0)
  (∀ i, 5 ≤ i → i < 64 → v.getLsbD i = false) ∧ v.getLsbD 4 = c.evovf ∧ (v.getLsbD 3 = true ↔ full) ∧ v.getLsbD 2 = c.seqerr ∧ v.getLsbD 1 = c.cfgerr ∧
  (v.getLsbD 0 = true ↔ c.en = true ∧ c.seqerr = false ∧ ¬ full ∧ c.cmdsize ≠ 0)
/-- BOOTSTAT read (26 R490). -/
def BootstatRead (s : State) : Prop :=
  let m := s.mgmt
  let v := barRead s 0x200 8
  v.getLsbD 0 = m.ready ∧ v.getLsbD 1 = m.recovery ∧ v.getLsbD 2 = m.idfail ∧ (∀ i, 3 ≤ i → i < 8 → v.getLsbD i = false) ∧
  v.getLsbD 8 = m.bankB ∧ v.getLsbD 9 = m.keyend ∧ (∀ i, 10 ≤ i → i < 24 → v.getLsbD i = false) ∧
  bitField v.toNat 24 8 = m.fail % 256 ∧ bitField v.toNat 32 32 = m.svn % 2 ^ 32
/-- PSTAT and the counters of a port read (27 R501, R502): WINFAIL is 0 from the start of each window of 60 s. -/
def PortRead (s : State) (p : Nat) : Prop :=
  let q := portOf s p
  let at' := fun o => barRead s (0x41000 + 0x40 * p + o) 8
  let st := bitField (at' 0x08).toNat 0 2
  at' 0x00 = (if q.en then 1 else 0) ∧ (q.st = .down → st = 0) ∧ (q.st = .training → st = 1) ∧ (q.st = .live → st = 2) ∧ (q.st = .failed → st = 3) ∧
  (at' 0x08).getLsbD 8 = q.inset ∧ bitField (at' 0x08).toNat 16 16 = (if s.now < q.window + 60000000 * Config.cyclesPerMicro then q.winfail % 65536 else 0) ∧ bitField (at' 0x08).toNat 32 32 = q.lockloss.toNat ∧
  at' 0x10 = q.tx ∧ at' 0x18 = q.rx ∧ at' 0x20 = q.feccorr ∧ at' 0x28 = q.fecunc

/-- What a read of the module's registers gives (23 R428, R430; 25 R480; 26 R489 to R491; 27 R499, R501): 0 at any other width or alignment, and
before READY for every register but BOOTSTAT. -/
def RegistersRead : Prop :=
  (∀ s off width, (width ≠ 8 ∨ off % 8 ≠ 0) → barRead s off width = 0) ∧
  (∀ s off, s.mgmt.ready = false → off ≠ 0x200 → barRead s off 8 = 0) ∧ (∀ s, BootstatRead s) ∧
  ∀ s, s.mgmt.ready = true → StatusRead s ∧ (∀ p, p < 48 → PortRead s p) ∧
    (∀ q ∈ [(0x000, 0x10000#64), (0x008, BitVec.ofBool s.chan.snoop ++ BitVec.ofBool s.chan.en |>.zeroExtend 64), (0x018, s.chan.cmdbase),
        (0x020, s.chan.cmdsize), (0x028, s.chan.cmdtail), (0x030, s.chan.cmdacc), (0x038, s.chan.cplbase), (0x040, s.chan.cplsize),
        (0x048, s.chan.cplhead), (0x050, s.chan.cplemit), (0x058, s.chan.duty), (0x060, s.chan.winbase), (0x068, s.chan.winsize),
        (0x070, s.chan.evdrop), (0x100, s.log.head), (0x108, s.log.tail), (0x110, (BitVec.ofBool s.log.ovf).zeroExtend 64), (0x118, s.log.drop),
        (0x120, s.log.esn.zeroExtend 64), (0x128, s.log.hbase), (0x130, s.log.hsize), (0x40008, s.fab.pfxlo), (0x40010, s.fab.pfxhi)],
      barRead s q.1 8 = q.2) ∧
    ∀ i j, i < 8 → j < 4 → barRead s (0x300 + 32 * i + 8 * j) 8 =
      BitVec.ofNat 64 (((List.range 8).map (fun b => (((s.mgmt.meas.getD i []).getD (8 * j + b) 0).toNat) * 256 ^ b)).sum)

end Sys2Proof.Spec

/-- 23 R428 to R431, R435, R437, R445, 25 R480, 27 R499, R501, R502, 26 R489: the host's writes of registers, which do nothing before READY; and its
accesses through the window to device memory, and to its own. A write of a width other than 8 bytes does
nothing. What reads of the registers give. What the clauses take beyond the rules is the model's own: CPLFULL with no ring and EN 0 (log 19), a
FABPFXHI of any value (log 95), no entry accepted with CMDSIZE 0 (log 121), a window beyond the capacity tier (log 134). -/
def Obligations.RegisterWrites : Prop :=
  (∀ v, WhenReady (exec (.cmdtailWrite v)) (fun s t =>
    (s.chan.cmdacc.toNat ≤ v.toNat → v.toNat ≤ s.chan.cmdacc.toNat + s.chan.cmdsize.toNat → t = { s with chan := { s.chan with cmdtail := v, seqerr := false } }) ∧
    ((v.toNat < s.chan.cmdacc.toNat ∨ s.chan.cmdacc.toNat + s.chan.cmdsize.toNat < v.toNat) → t = s))) ∧
  (∀ v, WhenReady (exec (.cplheadWrite v)) (fun s t =>
    (s.chan.cplhead.toNat ≤ v.toNat → v.toNat ≤ s.chan.cplemit.toNat → t = drainEvents { s with chan := { s.chan with cplhead := v } }) ∧
    ((v.toNat < s.chan.cplhead.toNat ∨ s.chan.cplemit.toNat < v.toNat) → Cfgerr s t))) ∧
  (∀ v, WhenReady (exec (.channelEnable v)) (ControlWritten v)) ∧ (∀ v, WhenReady (exec (.snoopMode v)) (ControlWritten v)) ∧
  (∀ v, WhenReady (exec (.chstatClear v)) (fun s t => t = { s with chan :=
    { s.chan with evovf := s.chan.evovf && !v.getLsbD 4, cfgerr := s.chan.cfgerr && !v.getLsbD 1 } })) ∧
  (∀ v, WhenReady (exec (.dutyWrite v)) (DutyWritten v)) ∧
  (∀ v, WhenReady (exec (.logheadWrite v)) (fun s t =>
    (s.log.head.toNat ≤ v.toNat → v.toNat ≤ s.log.tail.toNat → t = { s with log := { s.log with head := v } }) ∧
    ((v.toNat < s.log.head.toNat ∨ s.log.tail.toNat < v.toNat) → Cfgerr s t))) ∧
  (∀ v, WhenReady (exec (.logstatClear v)) (fun s t => t = { s with log := { s.log with ovf := s.log.ovf && !v.getLsbD 0 } })) ∧
  (∀ p v, p < 48 → WhenReady (exec (.portEnable p v)) (PortWritten p v) ∧ WhenReady (exec (.portRetrain p v)) (PortWritten p v)) ∧
  (∀ p v s, 48 ≤ p → exec (.portEnable p v) s = .next s ∧ exec (.portRetrain p v) s = .next s) ∧
  ConfigRegister 0x018 (fun v => v.toNat % 4096 = 0) (fun c v => { c with cmdbase := v }) ∧ ConfigRegister 0x020 RingSize (fun c v => { c with cmdsize := v }) ∧
  ConfigRegister 0x038 (fun v => v.toNat % 4096 = 0) (fun c v => { c with cplbase := v }) ∧ ConfigRegister 0x040 RingSize (fun c v => { c with cplsize := v }) ∧
  ConfigRegister 0x060 (fun v => v.toNat % 2 ^ 30 = 0) (fun c v => { c with winbase := v }) ∧
  ConfigRegister 0x068 (fun v => v.toNat % 2 ^ 30 = 0) (fun c v => { c with winsize := v }) ∧
  (∀ v, WhenReady (exec (.registerWrite { off := 0x128, width := 8 } v)) (fun s t =>
    (v.toNat % 4096 = 0 → s.log.hsize = 0 → t = { s with log := { s.log with hbase := v } }) ∧ ((v.toNat % 4096 ≠ 0 ∨ s.log.hsize ≠ 0) → Cfgerr s t))) ∧
  (∀ v, WhenReady (exec (.registerWrite { off := 0x130, width := 8 } v)) (fun s t =>
    let fits := (v = 0 ∨ RingSize v) ∧ (s.chan.duty.getLsbD 1 = true ∨ s.log.hsize = 0)
    (fits → t = { s with log := { s.log with hsize := v } }) ∧ (¬ fits → Cfgerr s t))) ∧
  FabricRegister 0x40000 (fun _ => True) (fun f v => { f with valid := v.getLsbD 22, rank := v.toNat % 2 ^ 22 }) ∧
  FabricRegister 0x40008 (fun v => v.toNat % 2 ^ 22 = 0) (fun f v => { f with pfxlo := v }) ∧
  FabricRegister 0x40010 (fun _ => True) (fun f v => { f with pfxhi := v }) ∧
  (∀ off width v s, (off % 8 ≠ 0 ∨ width ≠ 8 ∨ (off ∉ writable ∧ ∀ p, p < 48 → off ≠ 0x41000 + 0x40 * p)) →
    exec (.registerWrite { off := off, width := width } v) s = .next s) ∧
  (∀ v s, exec (.registerWrite { off := 0x028, width := 8 } v) s = exec (.cmdtailWrite v) s ∧ exec (.registerWrite { off := 0x048, width := 8 } v) s = exec (.cplheadWrite v) s ∧
    exec (.registerWrite { off := 0x008, width := 8 } v) s = exec (.channelEnable v) s ∧ exec (.registerWrite { off := 0x010, width := 8 } v) s = exec (.chstatClear v) s ∧
    exec (.registerWrite { off := 0x058, width := 8 } v) s = exec (.dutyWrite v) s ∧ exec (.registerWrite { off := 0x100, width := 8 } v) s = exec (.logheadWrite v) s ∧
    exec (.registerWrite { off := 0x110, width := 8 } v) s = exec (.logstatClear v) s ∧
    ∀ p, p < 48 → exec (.registerWrite { off := 0x41000 + 0x40 * p, width := 8 } v) s = exec (.portEnable p v) s) ∧
  (∀ off bs s,
    let a := s.chan.winbase.toNat + off
    let inside := s.mgmt.ready = true ∧ off + bs.length ≤ s.chan.winsize.toNat ∧ a + bs.length ≤ Config.capacityBytes
    ∃ t, exec (.hostMemoryAccess (.write off bs)) s = .next t ∧ (¬ inside → t = s) ∧
      (inside → t.blocks = s.blocks ∧ t.spad = s.spad ∧ t.host = s.host ∧ t.chip = s.chip ∧
        (∀ i, (hi : i < bs.length) → Sparse.get (w := 8) t.mem (a + i) = bs[i]) ∧
        ∀ i, (i < a ∨ a + bs.length ≤ i) → Sparse.get (w := 8) t.mem i = Sparse.get (w := 8) s.mem i)) ∧
  (∀ off n s,
    let a := s.chan.winbase.toNat + off
    let inside := s.mgmt.ready = true ∧ off + n ≤ s.chan.winsize.toNat ∧ a + n ≤ Config.capacityBytes
    (∃ t, exec (.hostMemoryAccess (.read off n)) s = .next t ∧ OnlyCaches s t ∧ (¬ inside → t = s)) ∧
    windowBytes s off n = (List.range n).map (fun i => Sparse.get (w := 8) s.mem (a + i))) ∧
  RegistersRead ∧ ∀ a bs s, ∃ t, exec (.hostMemoryAccess (.ownWrite a bs)) s = .next t ∧ t = { s with host := t.host } ∧
    (∀ i, (hi : i < bs.length) → Sparse.get (w := 8) t.host (a + i) = bs[i]) ∧
    ∀ i, (i < a ∨ a + bs.length ≤ i) → Sparse.get (w := 8) t.host i = Sparse.get (w := 8) s.host i

namespace Sys2Proof.Spec

/-! Encodings. -/

/-- The bits of a word that its instruction occupies (R210, R211). -/
def ownBits (w : BitVec 96) : BitVec 96 := w &&& BitVec.ofNat 96 (2 ^ (16 * parcelCount (firstParcel w)) - 1)

/-! Steps. -/

/-- The end of a step: time passes, and splits in WAIT-OP whose operands have become available turn READY. -/
noncomputable def stepEnd (u : State) : State := wakeOps exec (passTime u)
/-- What the end of a step does besides letting time pass (01 R42): of the splits that wait in WAIT-OP, each whose instruction, run now, would not
leave it waiting as it waits is marked READY since this cycle, and nothing else changes. -/
def StepEndWakes : Prop :=
  ∀ u v, stepEnd u = v → v = { passTime u with blocks := v.blocks } ∧ ∀ b k, Tbl.get u.blocks b = some k →
    ∃ k', Tbl.get v.blocks b = some k' ∧ k' = { k with teams := k'.teams } ∧ ∀ n m, Tbl.get k.teams n = some m →
      ∃ m', Tbl.get k'.teams n = some m' ∧ m' = { m with splits := m'.splits } ∧ ∀ e p, Tbl.get m.splits e = some p →
        ∃ p', Tbl.get m'.splits e = some p' ∧ (p' = p ∨ p' = { p with avail := some v.now }) ∧
          (p.st ≠ .waitOp ∨ p.avail ≠ none ∨ p.pend ≠ none ∨ p.stopped = true → p' = p) ∧
          (awaits p = true → blockIssues k n = true → ∀ i w x y, splitTurn (passTime u) b n e p = .run i w x → exec i x = .next y →
            (p' = p ↔ stillWaits b n e p y = true))
/-- A step that runs `i` in `u`: what the instruction answers is the step's answer, with `after` applied to a next state and the step's end. -/
def StepRuns (i : Instr) (u : State) (after : State → State) (s : State) : Prop :=
  (∀ v, exec i u = .next v → step s = .next (stepEnd (after v))) ∧ (∀ f, exec i u = .fault f → step s = .fault f) ∧
  ∀ r, exec i u = .refused r → step s = .refused r
/-- A split's turn comes, and nothing keeps it from its next instruction: no split of its datapath has been READY longer, its block, its team and
itself may issue, no trap is due and no breakpoint stands there (01 R37; 15 R340; 17 R370; 25 R468). -/
def AtTurn (b t e : Nat) (p : Split) (s s0 : State) : Prop :=
  s.due = [] ∧ ∃ r, s.agenda = .run (.split b t e) :: r ∧ s0 = { s with agenda := r } ∧ oldestFirst s (.split b t e) = .split b t e ∧
    ∃ k m, issuing s0 b t e = some (k, m, p) ∧ dueTrap s0 (ctxNum s0 b) t m = false ∧ breakDue s0 b p = false
/-- Its instruction is to be fetched, and the fetch comes to this. -/
def FetchesAt (b t e : Nat) (p : Split) (s s0 : State) (f : Fetched) : Prop :=
  AtTurn b t e p s s0 ∧ p.held.bind (fun h => h.code) = none ∧ fetchCode s0 (shadowOf s0 b) (ctxNum s0 b) (fetchFailed p) p.pc = f
/-- The place of bytes at an address of a context from which instructions may be fetched: the page translates, none of its records has failed for
the fetcher, it may be executed, and the `n` bytes hold no poison, as the unit with stores `h` sees them (24 R454; 25 R470, R472). -/
def FetchPlace (s : State) (h : Shadow) (x : Nat) (failed : List Nat) (a n : Nat) (p : Phys) : Prop :=
  a / 65536 ∉ failed ∧ (∃ pa size sys r w, xlate s x a = .leaf pa size sys r w true ∧ p = if sys then .sys pa else .cap pa) ∧ poisoned s h p n = false
/-- The `n` parcels from the `i`-th of the instruction at `pc` may be fetched and are the number `v`, low parcel first (09 R210, R212). -/
inductive ParcelsAt (h : Shadow) (x : Nat) (failed : List Nat) (pc : BitVec 56) : State → Nat → Nat → Nat → State → Prop where
  | none (s : State) (i : Nat) : ParcelsAt h x failed pc s i 0 0 s
  | more (s t : State) (i n w : Nat) (p : Phys) : FetchPlace s h x failed (parcelAddr pc i) 2 p →
    ParcelsAt h x failed pc (noteXlate s x (parcelAddr pc i)) (i + 1) n w t → ParcelsAt h x failed pc s i (n + 1) (readPhys s h p 2 + 65536 * w) t

end Sys2Proof.Spec

/-- 09 R210 to R218; 16 R347, R350; 23 R432, R433: for every well-formed instruction, decoding its encoding gives it back, with every
operand, in each of the three instruction sets; each has an encoding in one of them, but for the rows that happen to the machine; and whatever a
decoder accepts is well formed and is the encoding of its own bits. -/
def Obligations.EncodingRoundTrip : Prop :=
  (∀ i : Instr, i.wf = true → (∀ w, encode i = some w → decode w = .ok i) ∧ (∀ w, encodeFuset i = some w → decodeFuset w = .ok i) ∧
    (∀ c, encodeCommand i = some c → decodeCommand c = i) ∧
    (isHappening i = false → (∃ w, encode i = some w) ∨ (∃ w, encodeFuset i = some w) ∨ ∃ c, encodeCommand i = some c)) ∧
  (∀ w i, decode w = .ok i → i.wf = true ∧ encode i = some (ownBits w)) ∧
  (∀ w i, decodeFuset w = .ok i → i.wf = true ∧ encodeFuset i = some w) ∧
  ∀ c, (decodeCommand c).wf = true ∧ encodeCommand (decodeCommand c) = some c

/-- 09 R210 to R219, R231 and 16 R347, R350: words written out from the encoding tables decode to the instructions they stand for. -/
def Obligations.DecodedWords : Prop :=
  decode 0x2862#96 = .ok (.iaddC16 ⟨3, 5⟩) ∧
  decode 0x01440C09#96 = .ok (.iaddW32 ⟨0, 3, 4, 5⟩) ∧
  decode 0x10000205#96 = .ok (.joinW32 ⟨1, 0, 0, 0⟩) ∧
  decode 0x0207F80028181903#96 = .ok (.faddL64 ⟨0, 3, 3, 5, 0, 255, false, false, 1, 0, none⟩) ∧
  decode 0xE127F84000103313#96 = .ok (.atom ⟨9, 6, 2, 0, 8, 255, false, false, 0, 14, none⟩) ∧
  decode 0x001E#96 = .ok (.nopC16 ⟨0, 0⟩) ∧ decode 0x003E#96 = .error .reservedField ∧ decode 0x00000007#96 = .ok (.reservedEncoding 7) ∧
  decodeFuset 0x000000001000E702#64 = .ok (.fusetAdd ⟨7, 7, 0, 32⟩) ∧
  decodeFuset 0xFFFFFFFFF501400D#64 = .ok (.fusetBnz ⟨0, 10, 0, 0x1FFFFFFFFEA⟩)

/-- 09 R210, R212, R223; 16 R346; 23 R432, R435; 24 R456; 25 R470 with log 1: a step runs, on the machine, the instruction that the parcels at a
split's program counter decode to, or the open instruction that the split waits at; the word at a collective context's; the next entry of the
channel; or an event. A word that stands for no instruction is ILLOP; a page that misses is waited on; one that failed or forbids execution traps;
poison starts what an error starts. Work that errors have started comes first. Each step ends with time passing and with the splits whose operands
have become available (01 R42). -/
def Obligations.StepRunsDecoded : Prop :=
  (∀ s s0 b t e p v s1 i, FetchesAt b t e p s s0 (.bytes v s1) → decode (BitVec.ofNat 96 v) = .ok i →
    StepRuns i { onSplit s1 b t e (fun q => { q with held := fetchedHeld q.held }) with cur := .split b t e }
      (afterSplit b t e (BitVec.ofNat 96 v) p) s) ∧
  (∀ s s0 b t e p v s1 d, FetchesAt b t e p s s0 (.bytes v s1) → decode (BitVec.ofNat 96 v) = .error d →
    step s = .next (stepEnd (badWord (onSplit s1 b t e (fun q => { q with held := fetchedHeld q.held })) b t e (BitVec.ofNat 96 v)))) ∧
  (∀ s s0 b t e p page s1, FetchesAt b t e p s s0 (.miss page s1) → ∃ u, step s = .next (stepEnd u) ∧ OnlyTeam b t s1 u ∧
    ∀ m, teamOf s1 b t = some m → Tbl.get m.splits e = some p → ∃ m' p', teamOf u b t = some m' ∧ m' = { m with splits := m'.splits } ∧
      Tbl.get m'.splits e = some p' ∧ OnlySplit e m.splits m'.splits ∧ p'.st = .waitOp ∧ p'.pc = p.pc ∧ ∃ h, p'.held = some h ∧ h.waits = [page]) ∧
  (∀ s s0 b t e p code a, FetchesAt b t e p s s0 (.barred code a) →
    step s = .next (stepEnd (takeTrap s0 b t e { code := code, pc := p.pc, res := p.pc, val := BitVec.ofNat 64 a } false []))) ∧
  (∀ s s0 b t e p, FetchesAt b t e p s s0 .poison → step s = .next (stepEnd (consumePoison s0 b))) ∧
  (∀ s s0 b t e p w i, AtTurn b t e p s s0 → p.held.bind (fun h => h.code) = some w → decode w = .ok i →
    StepRuns i { s0 with cur := .split b t e } (afterSplit b t e w p) s) ∧
  (∀ s h x failed (pc : BitVec 56) v s1 p, FetchPlace s h x failed pc.toNat 2 p →
    ParcelsAt h x failed pc (noteXlate s x pc.toNat) 0 (parcelCount (BitVec.ofNat 16 (readPhys s h p 2))) v s1 →
    fetchCode s h x failed pc = .bytes v s1) ∧
  (∀ s n r v s1, s.due = [] → s.agenda = .run (.cc n) :: r → ccIssues (ccOf s n) = true → (ccOf s n).pc.toNat < 2 ^ 56 →
    fetchBytes { s with agenda := r } Shadow.empty (ccOf s n).ctx (ccOf s n).failed (ccOf s n).pc.toNat 8 = .bytes v s1 →
    (∀ i, decodeFuset (BitVec.ofNat 64 v) = .ok i → StepRuns i { s1 with cur := .cc n } id s) ∧
    ∀ d, decodeFuset (BitVec.ofNat 64 v) = .error d → step s = .next (stepEnd (ccFault s1 n 0x01 2))) ∧
  (∀ s r, s.due = [] → s.agenda = .channel :: r → entryDue s = true →
    (entryAt s.host (entryPlace s.chan (s.chan.cmdacc + 1))).seq = s.chan.cmdacc + 1 →
    StepRuns (decodeCommand (entryAt s.host (entryPlace s.chan (s.chan.cmdacc + 1)))) { s with agenda := r, cur := .none } id s) ∧
  (∀ s i r, s.due = [] → s.agenda = .event i :: r → isHappening i = true → StepRuns i { s with agenda := r, cur := .none } id s) ∧
  (∀ s, s.due = [] → s.agenda = [] → step s = step { s with agenda := [defaultMove s] }) ∧
  (∀ s, s.due ≠ [] → step s = .next (stepEnd (doDue s))) ∧
  (∀ s u, step s = .next u → ∃ v, u = stepEnd v) ∧ StepEndWakes

/-- 00 R7, 03 R77, R81, 05 R127 with log 3: from every state whose memories are in their canonical form (the capacity tier, the host's, the chip
scratchpads, the core scratchpads and the accumulators: addresses strictly rising, no entry equal to what an unlisted address reads as), a
step that answers a next state answers one whose memories are. The form is the model's own, so equal memories are equal data. -/
def Obligations.MemoriesStayCanonical : Prop := ∀ s t, Canonical s → step s = .next t → Canonical t

/-- 23 R430, R431, R437; 25 R480; 26 R489, R490; 27 R499, R501, with log 5: the machine right after reset. The registers hold their Reset column;
no context, launch, block, fault record or binding exists; every memory reads zero (log 3) and is canonical; ports are enabled and DOWN. -/
def Obligations.ResetState : Prop :=
  Canonical State.reset ∧ State.reset.mgmt.ready = false ∧ State.reset.mgmt.recovery = false ∧ State.reset.chan.en = false ∧
  State.reset.chan.cmdtail = 0 ∧ State.reset.chan.cmdacc = 0 ∧ State.reset.chan.cplhead = 0 ∧ State.reset.chan.cplemit = 0 ∧
  State.reset.chan.duty = 0 ∧ State.reset.log.head = 0 ∧ State.reset.log.tail = 0 ∧ State.reset.log.ovf = false ∧ State.reset.fab.valid = false ∧
  (∀ p, p < 48 → (portOf State.reset p).en = true ∧ (portOf State.reset p).st = .down ∧ (portOf State.reset p).inset = false) ∧
  State.reset.blocks = [] ∧ State.reset.launches = [] ∧ State.reset.ctxs = [] ∧ State.reset.faults = [] ∧
  (∀ a, Sparse.get (w := 8) State.reset.mem a = 0 ∧ Sparse.get (w := 8) State.reset.host a = 0) ∧ ∃ t, step State.reset = .next t
end

