-- ==== Sys2Proof/Laws/Sparse.lean ====
section
/-! SUPPORT. Laws of sparse arrays and tables: what a read finds after a write, and that every write keeps the canonical form. -/

namespace Sys2Proof.Machine

/-! ## Reads after writes -/

theorem Sparse.get_cons {w : Nat} (a : Nat) (v : BitVec w) (r : Sparse w) (k : Nat) :
    Sparse.get ((a, v) :: r) k = if a = k then v else Sparse.get r k := rfl

theorem Sparse.get_erase_same {w : Nat} (m : Sparse w) (k : Nat) : Sparse.get (Sparse.erase m k) k = 0 := by
  induction m with
  | nil => rfl
  | cons c r ih =>
    obtain ⟨a, v⟩ := c
    by_cases h : a = k
    · simpa [Sparse.erase, h] using ih
    · simpa [Sparse.erase, h, Sparse.get] using ih

theorem Sparse.get_erase_other {w : Nat} (m : Sparse w) {k j : Nat} (h : j ≠ k) :
    Sparse.get (Sparse.erase m k) j = Sparse.get m j := by
  induction m with
  | nil => rfl
  | cons c r ih =>
    obtain ⟨a, v⟩ := c
    by_cases ha : a = k
    · subst ha
      have : a ≠ j := fun e => h e.symm
      simpa [Sparse.erase, Sparse.get, this] using ih
    · simp only [Sparse.erase, List.filter_cons, ha, ne_eq, not_false_eq_true, decide_true, if_true, Sparse.get]
      split
      · rfl
      · exact ih

theorem Sparse.get_insert_same {w : Nat} (m : Sparse w) (k : Nat) (v : BitVec w) : Sparse.get (Sparse.insert m k v) k = v := by
  induction m with
  | nil => simp [Sparse.insert, Sparse.get]
  | cons c r ih =>
    obtain ⟨a, x⟩ := c
    by_cases h : a < k
    · have : a ≠ k := by omega
      simpa [Sparse.insert, h, Sparse.get, this] using ih
    · simp [Sparse.insert, h, Sparse.get]

theorem Sparse.get_insert_other {w : Nat} (m : Sparse w) {k j : Nat} (v : BitVec w) (h : j ≠ k) :
    Sparse.get (Sparse.insert m k v) j = Sparse.get m j := by
  induction m with
  | nil => simp [Sparse.insert, Sparse.get, Ne.symm h]
  | cons c r ih =>
    obtain ⟨a, x⟩ := c
    by_cases ha : a < k
    · simp [Sparse.insert, ha, Sparse.get, ih]
    · simp [Sparse.insert, ha, Sparse.get, Ne.symm h]

@[simp] theorem Sparse.get_set_same {w : Nat} (m : Sparse w) (k : Nat) (v : BitVec w) : Sparse.get (Sparse.set m k v) k = v := by
  unfold Sparse.set
  split
  · rename_i h; rw [h]; exact Sparse.get_erase_same m k
  · exact Sparse.get_insert_same _ k v

theorem Sparse.get_set_other {w : Nat} (m : Sparse w) {k j : Nat} (v : BitVec w) (h : j ≠ k) :
    Sparse.get (Sparse.set m k v) j = Sparse.get m j := by
  unfold Sparse.set
  split
  · exact Sparse.get_erase_other m h
  · rw [Sparse.get_insert_other _ v h]; exact Sparse.get_erase_other m h

theorem Sparse.get_set {w : Nat} (m : Sparse w) (k j : Nat) (v : BitVec w) :
    Sparse.get (Sparse.set m k v) j = if j = k then v else Sparse.get m j := by
  split
  · rename_i h; rw [h]; exact Sparse.get_set_same m k v
  · rename_i h; exact Sparse.get_set_other m v h

theorem Tbl.get_del_other {α : Type} (t : Tbl α) {k j : Nat} (h : j ≠ k) : Tbl.get (Tbl.del t k) j = Tbl.get t j := by
  induction t with
  | nil => rfl
  | cons c r ih =>
    obtain ⟨a, v⟩ := c
    by_cases ha : a = k
    · subst ha
      have : a ≠ j := fun e => h e.symm
      simpa [Tbl.del, Tbl.get, this] using ih
    · simp only [Tbl.del, List.filter_cons, ha, ne_eq, not_false_eq_true, decide_true, if_true, Tbl.get]
      split
      · rfl
      · exact ih

theorem Tbl.get_del_same {α : Type} (t : Tbl α) (k : Nat) : Tbl.get (Tbl.del t k) k = none := by
  induction t with
  | nil => rfl
  | cons c r ih =>
    obtain ⟨a, v⟩ := c
    by_cases h : a = k
    · simpa [Tbl.del, h] using ih
    · simpa [Tbl.del, h, Tbl.get] using ih

theorem Tbl.get_insert_same {α : Type} (t : Tbl α) (k : Nat) (v : α) : Tbl.get (Tbl.insert t k v) k = some v := by
  induction t with
  | nil => simp [Tbl.insert, Tbl.get]
  | cons c r ih =>
    obtain ⟨a, x⟩ := c
    by_cases h : a < k
    · have : a ≠ k := by omega
      simpa [Tbl.insert, h, Tbl.get, this] using ih
    · simp [Tbl.insert, h, Tbl.get]

theorem Tbl.get_insert_other {α : Type} (t : Tbl α) {k j : Nat} (v : α) (h : j ≠ k) :
    Tbl.get (Tbl.insert t k v) j = Tbl.get t j := by
  induction t with
  | nil => simp [Tbl.insert, Tbl.get, Ne.symm h]
  | cons c r ih =>
    obtain ⟨a, x⟩ := c
    by_cases ha : a < k
    · simp [Tbl.insert, ha, Tbl.get, ih]
    · simp [Tbl.insert, ha, Tbl.get, Ne.symm h]

@[simp] theorem Tbl.get_put_same {α : Type} (t : Tbl α) (k : Nat) (v : α) : Tbl.get (Tbl.put t k v) k = some v :=
  Tbl.get_insert_same _ k v

theorem Tbl.get_put_other {α : Type} (t : Tbl α) {k j : Nat} (v : α) (h : j ≠ k) : Tbl.get (Tbl.put t k v) j = Tbl.get t j := by
  unfold Tbl.put
  rw [Tbl.get_insert_other _ v h]
  exact Tbl.get_del_other t h

/-- A byte after a store: the stored one inside its range, the old one outside. -/
theorem get_writeBytes (bs : List Byte) : ∀ (m : List Host.Cell) (a j : Nat),
    Sparse.get (w := 8) (writeBytes m a bs) j = if a ≤ j ∧ j < a + bs.length then bs.getD (j - a) 0 else Sparse.get (w := 8) m j := by
  induction bs with
  | nil => intro m a j; simp only [writeBytes, List.length_nil]; split
           · omega
           · rfl
  | cons b r ih =>
    intro m a j
    rw [writeBytes, ih, Sparse.get_set]
    simp only [List.length_cons]
    by_cases h1 : a + 1 ≤ j ∧ j < a + 1 + r.length
    · have h2 : a ≤ j ∧ j < a + (r.length + 1) := by omega
      have h3 : j - a = (j - (a + 1)) + 1 := by omega
      rw [if_pos h1, if_pos h2, h3, List.getD_cons_succ]
    · rw [if_neg h1]
      by_cases h4 : j = a
      · subst h4; simp
      · have h2 : ¬ (a ≤ j ∧ j < a + (r.length + 1)) := by omega
        rw [if_neg h4, if_neg h2]

/-- Bytes outside a store's range read as before. -/
theorem get_writeBytes_outside (m : List Host.Cell) (a j : Nat) (bs : List Byte) (h : j < a ∨ a + bs.length ≤ j) :
    Sparse.get (w := 8) (writeBytes m a bs) j = Sparse.get (w := 8) m j := by
  rw [get_writeBytes, if_neg]; omega

/-! ## The canonical form -/

/-- Every key of an array lies above a bound. -/
def Sparse.above {w : Nat} (m : Sparse w) (lo : Option Nat) : Prop := ∀ c ∈ m, ∀ l, lo = some l → l < c.1

/-- The canonical form from a bound, as a proposition over its head. -/
theorem Sparse.wfFrom_cons {w : Nat} (a : Nat) (v : BitVec w) (r : Sparse w) (lo : Option Nat) :
    Sparse.wfFrom ((a, v) :: r) lo = true ↔ (∀ l, lo = some l → l < a) ∧ v ≠ 0 ∧ Sparse.wfFrom r (some a) = true := by
  cases lo <;> simp [Sparse.wfFrom, and_assoc]

theorem Sparse.wfFrom_weaken {w : Nat} (m : Sparse w) (lo : Option Nat) (l : Nat) (h : Sparse.wfFrom m (some l) = true)
    (hl : ∀ k, lo = some k → k ≤ l) : Sparse.wfFrom m lo = true := by
  cases m with
  | nil => rfl
  | cons c r =>
    obtain ⟨a, v⟩ := c
    rw [Sparse.wfFrom_cons] at h ⊢
    refine ⟨fun k hk => ?_, h.2⟩
    have := hl k hk
    have := h.1 l rfl
    omega

/-- Entries dropped from an array in canonical form leave one. -/
theorem Sparse.wfFrom_filter {w : Nat} (p : Nat × BitVec w → Bool) : ∀ (m : Sparse w) (lo : Option Nat),
    Sparse.wfFrom m lo = true → Sparse.wfFrom (m.filter p) lo = true := by
  intro m
  induction m with
  | nil => intro lo _; rfl
  | cons c r ih =>
    obtain ⟨a, v⟩ := c
    intro lo h
    rw [Sparse.wfFrom_cons] at h
    by_cases hp : p (a, v) = true
    · rw [List.filter_cons_of_pos hp, Sparse.wfFrom_cons]
      exact ⟨h.1, h.2.1, ih _ h.2.2⟩
    · rw [List.filter_cons_of_neg hp]
      apply Sparse.wfFrom_weaken _ lo a (ih _ h.2.2)
      intro k hk; exact Nat.le_of_lt (h.1 k hk)

theorem Sparse.wfFrom_insert {w : Nat} (k : Nat) (v : BitVec w) (hv : v ≠ 0) : ∀ (m : Sparse w) (lo : Option Nat),
    Sparse.wfFrom m lo = true → (∀ c ∈ m, c.1 ≠ k) → (∀ l, lo = some l → l < k) →
    Sparse.wfFrom (Sparse.insert m k v) lo = true := by
  intro m
  induction m with
  | nil => intro lo _ _ hk; rw [Sparse.insert, Sparse.wfFrom_cons]; exact ⟨hk, hv, rfl⟩
  | cons c r ih =>
    obtain ⟨a, x⟩ := c
    intro lo h hne hk
    rw [Sparse.wfFrom_cons] at h
    have hak : a ≠ k := hne (a, x) (List.mem_cons_self ..)
    by_cases ha : a < k
    · rw [Sparse.insert, if_pos ha, Sparse.wfFrom_cons]
      refine ⟨h.1, h.2.1, ih _ h.2.2 (fun c hc => hne c (List.mem_cons_of_mem _ hc)) ?_⟩
      intro l hl; cases hl; exact ha
    · rw [Sparse.insert, if_neg ha, Sparse.wfFrom_cons, Sparse.wfFrom_cons]
      refine ⟨hk, hv, ?_, h.2⟩
      intro l hl; cases hl; omega

/-- A write keeps the canonical form. -/
theorem Sparse.wf_set {w : Nat} (m : Sparse w) (k : Nat) (v : BitVec w) (h : Sparse.wf m = true) : Sparse.wf (Sparse.set m k v) = true := by
  unfold Sparse.set
  split
  · exact Sparse.wfFrom_filter _ m none h
  · rename_i hv
    apply Sparse.wfFrom_insert k v hv
    · exact Sparse.wfFrom_filter _ m none h
    · intro c hc
      have := (List.mem_filter.mp hc).2
      simpa using this
    · intro l hl; cases hl

/-- Entries dropped keep the canonical form. -/
theorem Sparse.wf_filter {w : Nat} (p : Nat × BitVec w → Bool) (m : Sparse w) (h : Sparse.wf m = true) : Sparse.wf (m.filter p) = true :=
  Sparse.wfFrom_filter p m none h

/-- A store of bytes keeps the canonical form. -/
theorem Memory.wf_writeBytes (bs : List Byte) : ∀ (m : List Host.Cell) (a : Nat), Memory.wf m = true → Memory.wf (writeBytes m a bs) = true := by
  induction bs with
  | nil => intro m a h; exact h
  | cons b r ih => intro m a h; exact ih _ _ (Sparse.wf_set m a b h)

end Sys2Proof.Machine
end

