-- ==== Sys2Proof/Laws/Canonical.lean ====
section
/-! SUPPORT. Canonical: the operations that write memories keep their canonical form (log 3). -/

namespace Sys2Proof

open Sys2Proof.Machine

/-! ## Arrays -/

theorem Sparse.wf_nil {w : Nat} : Sparse.wf ([] : Sparse w) = true := rfl

theorem wf_applyWrites : ∀ (ws : List (Nat × Word)) (r : Sparse 32), Sparse.wf r = true → Sparse.wf (applyWrites r ws) = true
  | [], _, h => h
  | w :: t, r, h => wf_applyWrites t _ (Sparse.wf_set r w.1 w.2 h)

theorem wf_foldl_set {α : Type} (k : α → Nat) (v : α → BitVec 32) : ∀ (l : List α) (m : Sparse 32), Sparse.wf m = true →
    Sparse.wf (l.foldl (fun m c => Sparse.set m (k c) (v c)) m) = true
  | [], _, h => h
  | c :: r, m, h => wf_foldl_set k v r _ (Sparse.wf_set m (k c) (v c) h)

theorem wf_installBytes : ∀ (bs : List (Nat × Byte)) (m : List Host.Cell), Memory.wf m = true → Memory.wf (installBytes m bs) = true
  | [], _, h => h
  | (a, v) :: r, m, h => wf_installBytes r _ (Sparse.wf_set (w := 8) m a v h)

theorem wf_slotTables (m : List Host.Cell) (h : Memory.wf m = true) : Memory.wf (slotTables m) = true :=
  Memory.wf_writeBytes _ _ _ (Memory.wf_writeBytes _ _ _ (Memory.wf_writeBytes _ _ _ h))

/-- An array in canonical form is one whose keys rise and none of whose entries is zero. -/
theorem Sparse.wfFrom_iff {w : Nat} : ∀ (m : Sparse w) (lo : Option Nat), Sparse.wfFrom m lo = true ↔
    (m.map (fun c => c.1)).Pairwise (· < ·) ∧ (∀ c ∈ m, c.2 ≠ 0 ∧ ∀ l, lo = some l → l < c.1)
  | [], lo => by simp [Sparse.wfFrom]
  | (a, v) :: r, lo => by
    rw [Sparse.wfFrom_cons, Sparse.wfFrom_iff r (some a)]
    constructor
    · rintro ⟨h1, h2, h3, h4⟩
      refine ⟨?_, ?_⟩
      · simp only [List.map_cons, List.pairwise_cons, List.mem_map]
        exact ⟨fun x ⟨c, hc, e⟩ => e ▸ (h4 c hc).2 a rfl, h3⟩
      · intro c hc
        rcases List.mem_cons.1 hc with rfl | hc
        · exact ⟨h2, h1⟩
        · exact ⟨(h4 c hc).1, fun l e => lt_trans (h1 l e) ((h4 c hc).2 a rfl)⟩
    · rintro ⟨h1, h2⟩
      simp only [List.map_cons, List.pairwise_cons, List.mem_map] at h1
      refine ⟨(h2 (a, v) (by simp)).2, (h2 (a, v) (by simp)).1, h1.2, fun c hc => ⟨(h2 c (by simp [hc])).1, ?_⟩⟩
      intro l e
      cases e
      exact h1.1 _ ⟨c, hc, rfl⟩

theorem Sparse.wf_iff {w : Nat} (m : Sparse w) : Sparse.wf m = true ↔ (m.map (fun c => c.1)).Pairwise (· < ·) ∧ ∀ c ∈ m, c.2 ≠ 0 := by
  rw [Sparse.wf, Sparse.wfFrom_iff]; simp

theorem Sparse.wf_setRun {w : Nat} (m : Sparse w) (a : Nat) (vs : List (BitVec w)) (h : Sparse.wf m = true) :
    Sparse.wf (Sparse.setRun m a vs) = true := by
  rw [Sparse.wf_iff] at h ⊢
  obtain ⟨h1, h2⟩ := h
  rw [List.pairwise_map] at h1 ⊢
  have run : ∀ c ∈ (vs.zipIdx.filter (fun c => c.1 ≠ 0)).map (fun c => (a + c.2, c.1)), a ≤ c.1 ∧ c.1 < a + vs.length ∧ c.2 ≠ 0 := by
    intro c hc
    simp only [List.mem_map, List.mem_filter, decide_eq_true_eq, Prod.exists] at hc
    obtain ⟨v, i, ⟨hm, hv⟩, rfl⟩ := hc
    have := List.snd_lt_of_mem_zipIdx hm
    exact ⟨by omega, by simp only; omega, hv⟩
  have rise : ((vs.zipIdx.filter (fun c => c.1 ≠ 0)).map (fun c => (a + c.2, c.1))).Pairwise (fun x y => x.1 < y.1) := by
    rw [List.pairwise_map]
    refine List.Pairwise.imp (R := fun x y => x.2 < y.2) (fun hxy => by simp only; omega) (List.Pairwise.filter _ ?_)
    rw [List.pairwise_iff_getElem]
    intro i j hi hj hij
    simpa using hij
  unfold Sparse.setRun
  simp only [List.pairwise_append, List.mem_append]
  refine ⟨⟨⟨h1.filter _, rise, ?_⟩, h1.filter _, ?_⟩, ?_⟩
  · intro x hx y hy
    have := (run y hy).1
    simp at hx
    omega
  · rintro x (hx | hx) y hy
    · simp at hx hy; omega
    · have := (run x hx).2.1
      simp at hy; omega
  · rintro c ((hc | hc) | hc)
    · exact h2 c (List.mem_of_mem_filter hc)
    · exact (run c hc).2.2
    · exact h2 c (List.mem_of_mem_filter hc)

/-! ## States -/

/-- Two states hold the same memories. -/
def SameMemories (s t : State) : Prop := t.mem = s.mem ∧ t.host = s.host ∧ t.chip = s.chip ∧ t.spad = s.spad ∧ t.acc = s.acc

theorem SameMemories.refl (s : State) : SameMemories s s := ⟨rfl, rfl, rfl, rfl, rfl⟩

theorem SameMemories.trans {s t u : State} (h : SameMemories s t) (g : SameMemories t u) : SameMemories s u :=
  ⟨g.1.trans h.1, g.2.1.trans h.2.1, g.2.2.1.trans h.2.2.1, g.2.2.2.1.trans h.2.2.2.1, g.2.2.2.2.trans h.2.2.2.2⟩

theorem Canonical.same {s t : State} (h : Canonical s) (g : SameMemories s t) : Canonical t := by
  obtain ⟨g1, g2, g3, g4, g5⟩ := g
  unfold Canonical
  rw [g1, g2, g3, g4, g5]
  exact h

theorem OnlyBlocks.sameMemories {s t : State} (h : OnlyBlocks s t) : SameMemories s t := by
  rw [show t = _ from h]; exact .refl _

theorem OnlyCaches.sameMemories {s t : State} (h : OnlyCaches s t) : SameMemories s t := by
  rw [show t = _ from h]; exact ⟨rfl, rfl, rfl, rfl, rfl⟩

theorem hbmFill_caches (s : State) (pa : Nat) (d : Bool) : OnlyCaches s (hbmFill s pa d) := by
  unfold hbmFill
  repeat' split
  all_goals rfl

theorem OnlyCaches.trans {s t u : State} (h : OnlyCaches s t) (g : OnlyCaches t u) : OnlyCaches s u := by
  rw [show t = _ from h] at g
  exact g

theorem l2Evict_caches (s : State) (line : Nat) : OnlyCaches s (l2Evict s line) := by
  unfold l2Evict
  dsimp only
  split
  · exact (hbmFill_caches s _ _).trans rfl
  · rfl

theorem l2Room_caches (s : State) (line : Nat) : OnlyCaches s (l2Room s line) := by
  unfold l2Room
  dsimp only
  split
  · rfl
  · exact l2Evict_caches _ _

theorem l2Touch_caches (s : State) (line : Nat) (d : Bool) : OnlyCaches s (l2Touch s line d) := (l2Room_caches s line).trans rfl

/-- An access changes what the caches hold and nothing else. -/
theorem touch_caches (s : State) (p : Phys) (w : Bool) : OnlyCaches s (touch s p w) := by
  unfold touch
  dsimp only
  split
  · rfl
  · have h : ∀ (c : Prop) [Decidable c] (pa : Nat), OnlyCaches s (if c then s else hbmFill s pa false) := by
      intro c _ pa
      split
      · rfl
      · exact hbmFill_caches s _ _
    split
    · exact h _ _
    · exact (h _ _).trans (l2Touch_caches _ _ _)
  · split
    · rfl
    · exact l2Touch_caches _ _ _

theorem touch_same (s : State) (p : Phys) (w : Bool) : SameMemories s (touch s p w) := (touch_caches s p w).sameMemories

theorem noteXlate_same (s : State) (x va : Nat) : SameMemories s (noteXlate s x va) := by
  unfold noteXlate
  repeat' split
  all_goals exact ⟨rfl, rfl, rfl, rfl, rfl⟩

theorem clearSeals_same (s : State) (host : Bool) (into : Option (Nat × Nat × Nat) → Bool) (pa n : Nat) :
    SameMemories s (clearSeals s host into pa n) := ⟨rfl, rfl, rfl, rfl, rfl⟩

theorem shadowTake_same (s : State) (b pa : Nat) : SameMemories s (shadowTake s b pa) := by
  unfold shadowTake
  repeat' split
  all_goals exact ⟨rfl, rfl, rfl, rfl, rfl⟩

theorem markUnreplayable_same (s : State) (b : Option Nat) : SameMemories s (markUnreplayable s b) := by
  unfold markUnreplayable
  repeat' split
  all_goals exact ⟨rfl, rfl, rfl, rfl, rfl⟩

theorem bumpCtx_same (x k : Nat) (s : State) : SameMemories s (bumpCtx x k s) := by
  unfold bumpCtx
  split
  all_goals exact ⟨rfl, rfl, rfl, rfl, rfl⟩

theorem wf_drainList : ∀ (es : List Event) (c : Channel) (h : List Host.Cell), Memory.wf h = true → Memory.wf (drainList es c h).2 = true
  | [], _, _, hh => hh
  | e :: r, c, h, hh => by
    unfold drainList
    split
    · exact wf_drainList r _ _ (Memory.wf_writeBytes _ _ _ hh)
    · exact hh

/-- Events written to their ring keep every memory's form, and change no memory but the host's. -/
theorem emit_canonical (e : Event) {s : State} (h : Canonical s) : Canonical (emit e s) :=
  ⟨h.1, wf_drainList _ _ _ h.2.1, h.2.2.1, h.2.2.2.1, h.2.2.2.2⟩

theorem logEntry_canonical (i : LogItem) {s : State} (h : Canonical s) : Canonical (logEntry i s) := by
  unfold logEntry
  dsimp only
  split
  · exact h
  · split
    · exact emit_canonical _ (emit_canonical _ h)
    · exact emit_canonical _ h

theorem putLaunch_canonical (n : Nat) (l : Launch) {s : State} (h : Canonical s) : Canonical (putLaunch s n l) := h

theorem putBlock_canonical (b : Nat) (k : Block) {s : State} (h : Canonical s) : Canonical (putBlock s b k) := h

theorem putCtx_canonical (x : Nat) (c : Ctx) {s : State} (h : Canonical s) : Canonical (putCtx s x c) := h

theorem putCc_canonical (n : Nat) (c : Cc) {s : State} (h : Canonical s) : Canonical (putCc s n c) := h

theorem bumpCtx_canonical (x k : Nat) {s : State} (h : Canonical s) : Canonical (bumpCtx x k s) := h.same (bumpCtx_same x k s)

theorem detWrite_canonical (b t line pa : Nat) {s : State} (h : Canonical s) : Canonical (detWrite s b t line pa) := by
  unfold detWrite
  split
  · exact h
  · split
    · exact h
    · split
      · exact h
      · dsimp only
        split
        · exact putLaunch_canonical _ _ h
        · split
          · exact putBlock_canonical _ _ (bumpCtx_canonical _ _ (logEntry_canonical _ (putLaunch_canonical _ _ h)))
          · exact bumpCtx_canonical _ _ (logEntry_canonical _ (putLaunch_canonical _ _ h))

theorem writeCap_canonical (b : Option Nat) (pa : Nat) (bs : List Byte) {s : State} (h : Canonical s) : Canonical (writeCap s b pa bs) := by
  have hm : Canonical { s with mem := writeBytes s.mem pa bs } := ⟨Memory.wf_writeBytes _ _ _ h.1, h.2⟩
  unfold writeCap
  split
  · exact hm
  · split
    · exact hm
    · split
      · exact hm
      · split
        · exact hm
        · split
          · exact h
          · dsimp only
            split
            · exact h.same (shadowTake_same _ _ _)
            · exact putLaunch_canonical _ _ (h.same (shadowTake_same s _ pa))

/-- Every store keeps the memories' form. -/
theorem writePhys_canonical (w : Writer) (p : Phys) (bs : List Byte) {s : State} (h : Canonical s) : Canonical (writePhys s w p bs) := by
  unfold writePhys
  split
  · rename_i pa
    have h1 := (h.same (touch_same s (.cap pa) true)).same (clearSeals_same _ false (holdsTile s w.b) pa bs.length)
    have h2 := writeCap_canonical w.b pa bs (s := { clearSeals (touch s (.cap pa) true) false (holdsTile s w.b) pa bs.length with
      poison := healBytes (clearSeals (touch s (.cap pa) true) false (holdsTile s w.b) pa bs.length).poison
        (fun a => pa ≤ a && a < pa + bs.length && viewIsMemory s w.b) }) h1
    dsimp only
    split
    · split
      · exact detWrite_canonical _ _ _ _ h2
      · exact h2
    · exact h2
  · rename_i pa
    have h1 := ((h.same (touch_same s (.sys pa) true)).same (clearSeals_same _ true (fun _ => true) pa bs.length)).same
      (markUnreplayable_same (clearSeals (touch s (.sys pa) true) true (fun _ => true) pa bs.length) w.b)
    have h2 : Canonical { markUnreplayable (clearSeals (touch s (.sys pa) true) true (fun _ => true) pa bs.length) w.b with
        host := writeBytes (markUnreplayable (clearSeals (touch s (.sys pa) true) true (fun _ => true) pa bs.length) w.b).host pa bs } :=
      ⟨h1.1, Memory.wf_writeBytes _ _ _ h1.2.1, h1.2.2⟩
    dsimp only
    split
    · split
      · exact detWrite_canonical _ _ _ _ h2
      · exact h2
    · exact h2
  · exact ⟨h.1, h.2.1, h.2.2.1, Memory.wf_writeBytes _ _ _ h.2.2.2.1, h.2.2.2.2⟩
  · have h1 := h.same (markUnreplayable_same s w.b)
    exact ⟨h1.1, h1.2.1, Memory.wf_writeBytes _ _ _ h1.2.2.1, h1.2.2.2⟩
  · exact h
  · exact h

end Sys2Proof
end

