-- ==== Sys2Proof/Laws/State.lean ====
section
/-! SUPPORT. Laws of the updates of State: each field after each of them. -/

namespace Sys2Proof.Machine

/-! ## putBlock -/

@[simp] theorem putBlock_power (s : State) (b : Nat) (k : Block) : (putBlock s b k).power = s.power := rfl
@[simp] theorem putBlock_now (s : State) (b : Nat) (k : Block) : (putBlock s b k).now = s.now := rfl
@[simp] theorem putBlock_tick (s : State) (b : Nat) (k : Block) : (putBlock s b k).tick = s.tick := rfl
@[simp] theorem putBlock_agenda (s : State) (b : Nat) (k : Block) : (putBlock s b k).agenda = s.agenda := rfl
@[simp] theorem putBlock_cur (s : State) (b : Nat) (k : Block) : (putBlock s b k).cur = s.cur := rfl
@[simp] theorem putBlock_mem (s : State) (b : Nat) (k : Block) : (putBlock s b k).mem = s.mem := rfl
@[simp] theorem putBlock_poison (s : State) (b : Nat) (k : Block) : (putBlock s b k).poison = s.poison := rfl
@[simp] theorem putBlock_spadPoison (s : State) (b : Nat) (k : Block) : (putBlock s b k).spadPoison = s.spadPoison := rfl
@[simp] theorem putBlock_accPoison (s : State) (b : Nat) (k : Block) : (putBlock s b k).accPoison = s.accPoison := rfl
@[simp] theorem putBlock_spadRaces (s : State) (b : Nat) (k : Block) : (putBlock s b k).spadRaces = s.spadRaces := rfl
@[simp] theorem putBlock_host (s : State) (b : Nat) (k : Block) : (putBlock s b k).host = s.host := rfl
@[simp] theorem putBlock_chip (s : State) (b : Nat) (k : Block) : (putBlock s b k).chip = s.chip := rfl
@[simp] theorem putBlock_spad (s : State) (b : Nat) (k : Block) : (putBlock s b k).spad = s.spad := rfl
@[simp] theorem putBlock_full (s : State) (b : Nat) (k : Block) : (putBlock s b k).full = s.full := rfl
@[simp] theorem putBlock_acc (s : State) (b : Nat) (k : Block) : (putBlock s b k).acc = s.acc := rfl
@[simp] theorem putBlock_hbm (s : State) (b : Nat) (k : Block) : (putBlock s b k).hbm = s.hbm := rfl
@[simp] theorem putBlock_l2 (s : State) (b : Nat) (k : Block) : (putBlock s b k).l2 = s.l2 := rfl
@[simp] theorem putBlock_tlb (s : State) (b : Nat) (k : Block) : (putBlock s b k).tlb = s.tlb := rfl
@[simp] theorem putBlock_faults (s : State) (b : Nat) (k : Block) : (putBlock s b k).faults = s.faults := rfl
@[simp] theorem putBlock_nextFault (s : State) (b : Nat) (k : Block) : (putBlock s b k).nextFault = s.nextFault := rfl
@[simp] theorem putBlock_cores (s : State) (b : Nat) (k : Block) : (putBlock s b k).cores = s.cores := rfl
@[simp] theorem putBlock_launches (s : State) (b : Nat) (k : Block) : (putBlock s b k).launches = s.launches := rfl
@[simp] theorem putBlock_nextBlock (s : State) (b : Nat) (k : Block) : (putBlock s b k).nextBlock = s.nextBlock := rfl
@[simp] theorem putBlock_turns (s : State) (b : Nat) (k : Block) : (putBlock s b k).turns = s.turns := rfl
@[simp] theorem putBlock_ctxs (s : State) (b : Nat) (k : Block) : (putBlock s b k).ctxs = s.ctxs := rfl
@[simp] theorem putBlock_ccs (s : State) (b : Nat) (k : Block) : (putBlock s b k).ccs = s.ccs := rfl
@[simp] theorem putBlock_reforms (s : State) (b : Nat) (k : Block) : (putBlock s b k).reforms = s.reforms := rfl
@[simp] theorem putBlock_duties (s : State) (b : Nat) (k : Block) : (putBlock s b k).duties = s.duties := rfl
@[simp] theorem putBlock_due (s : State) (b : Nat) (k : Block) : (putBlock s b k).due = s.due := rfl
@[simp] theorem putBlock_chan (s : State) (b : Nat) (k : Block) : (putBlock s b k).chan = s.chan := rfl
@[simp] theorem putBlock_log (s : State) (b : Nat) (k : Block) : (putBlock s b k).log = s.log := rfl
@[simp] theorem putBlock_mgmt (s : State) (b : Nat) (k : Block) : (putBlock s b k).mgmt = s.mgmt := rfl
@[simp] theorem putBlock_flash (s : State) (b : Nat) (k : Block) : (putBlock s b k).flash = s.flash := rfl
@[simp] theorem putBlock_fab (s : State) (b : Nat) (k : Block) : (putBlock s b k).fab = s.fab := rfl

/-! ## putCtx -/

@[simp] theorem putCtx_power (s : State) (x : Nat) (c : Ctx) : (putCtx s x c).power = s.power := rfl
@[simp] theorem putCtx_now (s : State) (x : Nat) (c : Ctx) : (putCtx s x c).now = s.now := rfl
@[simp] theorem putCtx_tick (s : State) (x : Nat) (c : Ctx) : (putCtx s x c).tick = s.tick := rfl
@[simp] theorem putCtx_agenda (s : State) (x : Nat) (c : Ctx) : (putCtx s x c).agenda = s.agenda := rfl
@[simp] theorem putCtx_cur (s : State) (x : Nat) (c : Ctx) : (putCtx s x c).cur = s.cur := rfl
@[simp] theorem putCtx_mem (s : State) (x : Nat) (c : Ctx) : (putCtx s x c).mem = s.mem := rfl
@[simp] theorem putCtx_poison (s : State) (x : Nat) (c : Ctx) : (putCtx s x c).poison = s.poison := rfl
@[simp] theorem putCtx_spadPoison (s : State) (x : Nat) (c : Ctx) : (putCtx s x c).spadPoison = s.spadPoison := rfl
@[simp] theorem putCtx_accPoison (s : State) (x : Nat) (c : Ctx) : (putCtx s x c).accPoison = s.accPoison := rfl
@[simp] theorem putCtx_spadRaces (s : State) (x : Nat) (c : Ctx) : (putCtx s x c).spadRaces = s.spadRaces := rfl
@[simp] theorem putCtx_host (s : State) (x : Nat) (c : Ctx) : (putCtx s x c).host = s.host := rfl
@[simp] theorem putCtx_chip (s : State) (x : Nat) (c : Ctx) : (putCtx s x c).chip = s.chip := rfl
@[simp] theorem putCtx_spad (s : State) (x : Nat) (c : Ctx) : (putCtx s x c).spad = s.spad := rfl
@[simp] theorem putCtx_full (s : State) (x : Nat) (c : Ctx) : (putCtx s x c).full = s.full := rfl
@[simp] theorem putCtx_acc (s : State) (x : Nat) (c : Ctx) : (putCtx s x c).acc = s.acc := rfl
@[simp] theorem putCtx_hbm (s : State) (x : Nat) (c : Ctx) : (putCtx s x c).hbm = s.hbm := rfl
@[simp] theorem putCtx_l2 (s : State) (x : Nat) (c : Ctx) : (putCtx s x c).l2 = s.l2 := rfl
@[simp] theorem putCtx_tlb (s : State) (x : Nat) (c : Ctx) : (putCtx s x c).tlb = s.tlb := rfl
@[simp] theorem putCtx_faults (s : State) (x : Nat) (c : Ctx) : (putCtx s x c).faults = s.faults := rfl
@[simp] theorem putCtx_nextFault (s : State) (x : Nat) (c : Ctx) : (putCtx s x c).nextFault = s.nextFault := rfl
@[simp] theorem putCtx_cores (s : State) (x : Nat) (c : Ctx) : (putCtx s x c).cores = s.cores := rfl
@[simp] theorem putCtx_launches (s : State) (x : Nat) (c : Ctx) : (putCtx s x c).launches = s.launches := rfl
@[simp] theorem putCtx_blocks (s : State) (x : Nat) (c : Ctx) : (putCtx s x c).blocks = s.blocks := rfl
@[simp] theorem putCtx_nextBlock (s : State) (x : Nat) (c : Ctx) : (putCtx s x c).nextBlock = s.nextBlock := rfl
@[simp] theorem putCtx_turns (s : State) (x : Nat) (c : Ctx) : (putCtx s x c).turns = s.turns := rfl
@[simp] theorem putCtx_ccs (s : State) (x : Nat) (c : Ctx) : (putCtx s x c).ccs = s.ccs := rfl
@[simp] theorem putCtx_reforms (s : State) (x : Nat) (c : Ctx) : (putCtx s x c).reforms = s.reforms := rfl
@[simp] theorem putCtx_duties (s : State) (x : Nat) (c : Ctx) : (putCtx s x c).duties = s.duties := rfl
@[simp] theorem putCtx_due (s : State) (x : Nat) (c : Ctx) : (putCtx s x c).due = s.due := rfl
@[simp] theorem putCtx_chan (s : State) (x : Nat) (c : Ctx) : (putCtx s x c).chan = s.chan := rfl
@[simp] theorem putCtx_log (s : State) (x : Nat) (c : Ctx) : (putCtx s x c).log = s.log := rfl
@[simp] theorem putCtx_mgmt (s : State) (x : Nat) (c : Ctx) : (putCtx s x c).mgmt = s.mgmt := rfl
@[simp] theorem putCtx_flash (s : State) (x : Nat) (c : Ctx) : (putCtx s x c).flash = s.flash := rfl
@[simp] theorem putCtx_fab (s : State) (x : Nat) (c : Ctx) : (putCtx s x c).fab = s.fab := rfl

/-! ## putLaunch -/

@[simp] theorem putLaunch_power (s : State) (n : Nat) (l : Launch) : (putLaunch s n l).power = s.power := rfl
@[simp] theorem putLaunch_now (s : State) (n : Nat) (l : Launch) : (putLaunch s n l).now = s.now := rfl
@[simp] theorem putLaunch_tick (s : State) (n : Nat) (l : Launch) : (putLaunch s n l).tick = s.tick := rfl
@[simp] theorem putLaunch_agenda (s : State) (n : Nat) (l : Launch) : (putLaunch s n l).agenda = s.agenda := rfl
@[simp] theorem putLaunch_cur (s : State) (n : Nat) (l : Launch) : (putLaunch s n l).cur = s.cur := rfl
@[simp] theorem putLaunch_mem (s : State) (n : Nat) (l : Launch) : (putLaunch s n l).mem = s.mem := rfl
@[simp] theorem putLaunch_poison (s : State) (n : Nat) (l : Launch) : (putLaunch s n l).poison = s.poison := rfl
@[simp] theorem putLaunch_spadPoison (s : State) (n : Nat) (l : Launch) : (putLaunch s n l).spadPoison = s.spadPoison := rfl
@[simp] theorem putLaunch_accPoison (s : State) (n : Nat) (l : Launch) : (putLaunch s n l).accPoison = s.accPoison := rfl
@[simp] theorem putLaunch_spadRaces (s : State) (n : Nat) (l : Launch) : (putLaunch s n l).spadRaces = s.spadRaces := rfl
@[simp] theorem putLaunch_host (s : State) (n : Nat) (l : Launch) : (putLaunch s n l).host = s.host := rfl
@[simp] theorem putLaunch_chip (s : State) (n : Nat) (l : Launch) : (putLaunch s n l).chip = s.chip := rfl
@[simp] theorem putLaunch_spad (s : State) (n : Nat) (l : Launch) : (putLaunch s n l).spad = s.spad := rfl
@[simp] theorem putLaunch_full (s : State) (n : Nat) (l : Launch) : (putLaunch s n l).full = s.full := rfl
@[simp] theorem putLaunch_acc (s : State) (n : Nat) (l : Launch) : (putLaunch s n l).acc = s.acc := rfl
@[simp] theorem putLaunch_hbm (s : State) (n : Nat) (l : Launch) : (putLaunch s n l).hbm = s.hbm := rfl
@[simp] theorem putLaunch_l2 (s : State) (n : Nat) (l : Launch) : (putLaunch s n l).l2 = s.l2 := rfl
@[simp] theorem putLaunch_tlb (s : State) (n : Nat) (l : Launch) : (putLaunch s n l).tlb = s.tlb := rfl
@[simp] theorem putLaunch_faults (s : State) (n : Nat) (l : Launch) : (putLaunch s n l).faults = s.faults := rfl
@[simp] theorem putLaunch_nextFault (s : State) (n : Nat) (l : Launch) : (putLaunch s n l).nextFault = s.nextFault := rfl
@[simp] theorem putLaunch_cores (s : State) (n : Nat) (l : Launch) : (putLaunch s n l).cores = s.cores := rfl
@[simp] theorem putLaunch_blocks (s : State) (n : Nat) (l : Launch) : (putLaunch s n l).blocks = s.blocks := rfl
@[simp] theorem putLaunch_nextBlock (s : State) (n : Nat) (l : Launch) : (putLaunch s n l).nextBlock = s.nextBlock := rfl
@[simp] theorem putLaunch_turns (s : State) (n : Nat) (l : Launch) : (putLaunch s n l).turns = s.turns := rfl
@[simp] theorem putLaunch_ctxs (s : State) (n : Nat) (l : Launch) : (putLaunch s n l).ctxs = s.ctxs := rfl
@[simp] theorem putLaunch_ccs (s : State) (n : Nat) (l : Launch) : (putLaunch s n l).ccs = s.ccs := rfl
@[simp] theorem putLaunch_reforms (s : State) (n : Nat) (l : Launch) : (putLaunch s n l).reforms = s.reforms := rfl
@[simp] theorem putLaunch_duties (s : State) (n : Nat) (l : Launch) : (putLaunch s n l).duties = s.duties := rfl
@[simp] theorem putLaunch_due (s : State) (n : Nat) (l : Launch) : (putLaunch s n l).due = s.due := rfl
@[simp] theorem putLaunch_chan (s : State) (n : Nat) (l : Launch) : (putLaunch s n l).chan = s.chan := rfl
@[simp] theorem putLaunch_log (s : State) (n : Nat) (l : Launch) : (putLaunch s n l).log = s.log := rfl
@[simp] theorem putLaunch_mgmt (s : State) (n : Nat) (l : Launch) : (putLaunch s n l).mgmt = s.mgmt := rfl
@[simp] theorem putLaunch_flash (s : State) (n : Nat) (l : Launch) : (putLaunch s n l).flash = s.flash := rfl
@[simp] theorem putLaunch_fab (s : State) (n : Nat) (l : Launch) : (putLaunch s n l).fab = s.fab := rfl

/-! ## putCc -/

@[simp] theorem putCc_power (s : State) (n : Nat) (c : Cc) : (putCc s n c).power = s.power := rfl
@[simp] theorem putCc_now (s : State) (n : Nat) (c : Cc) : (putCc s n c).now = s.now := rfl
@[simp] theorem putCc_tick (s : State) (n : Nat) (c : Cc) : (putCc s n c).tick = s.tick := rfl
@[simp] theorem putCc_agenda (s : State) (n : Nat) (c : Cc) : (putCc s n c).agenda = s.agenda := rfl
@[simp] theorem putCc_cur (s : State) (n : Nat) (c : Cc) : (putCc s n c).cur = s.cur := rfl
@[simp] theorem putCc_mem (s : State) (n : Nat) (c : Cc) : (putCc s n c).mem = s.mem := rfl
@[simp] theorem putCc_poison (s : State) (n : Nat) (c : Cc) : (putCc s n c).poison = s.poison := rfl
@[simp] theorem putCc_spadPoison (s : State) (n : Nat) (c : Cc) : (putCc s n c).spadPoison = s.spadPoison := rfl
@[simp] theorem putCc_accPoison (s : State) (n : Nat) (c : Cc) : (putCc s n c).accPoison = s.accPoison := rfl
@[simp] theorem putCc_spadRaces (s : State) (n : Nat) (c : Cc) : (putCc s n c).spadRaces = s.spadRaces := rfl
@[simp] theorem putCc_host (s : State) (n : Nat) (c : Cc) : (putCc s n c).host = s.host := rfl
@[simp] theorem putCc_chip (s : State) (n : Nat) (c : Cc) : (putCc s n c).chip = s.chip := rfl
@[simp] theorem putCc_spad (s : State) (n : Nat) (c : Cc) : (putCc s n c).spad = s.spad := rfl
@[simp] theorem putCc_full (s : State) (n : Nat) (c : Cc) : (putCc s n c).full = s.full := rfl
@[simp] theorem putCc_acc (s : State) (n : Nat) (c : Cc) : (putCc s n c).acc = s.acc := rfl
@[simp] theorem putCc_hbm (s : State) (n : Nat) (c : Cc) : (putCc s n c).hbm = s.hbm := rfl
@[simp] theorem putCc_l2 (s : State) (n : Nat) (c : Cc) : (putCc s n c).l2 = s.l2 := rfl
@[simp] theorem putCc_tlb (s : State) (n : Nat) (c : Cc) : (putCc s n c).tlb = s.tlb := rfl
@[simp] theorem putCc_faults (s : State) (n : Nat) (c : Cc) : (putCc s n c).faults = s.faults := rfl
@[simp] theorem putCc_nextFault (s : State) (n : Nat) (c : Cc) : (putCc s n c).nextFault = s.nextFault := rfl
@[simp] theorem putCc_cores (s : State) (n : Nat) (c : Cc) : (putCc s n c).cores = s.cores := rfl
@[simp] theorem putCc_launches (s : State) (n : Nat) (c : Cc) : (putCc s n c).launches = s.launches := rfl
@[simp] theorem putCc_blocks (s : State) (n : Nat) (c : Cc) : (putCc s n c).blocks = s.blocks := rfl
@[simp] theorem putCc_nextBlock (s : State) (n : Nat) (c : Cc) : (putCc s n c).nextBlock = s.nextBlock := rfl
@[simp] theorem putCc_turns (s : State) (n : Nat) (c : Cc) : (putCc s n c).turns = s.turns := rfl
@[simp] theorem putCc_ctxs (s : State) (n : Nat) (c : Cc) : (putCc s n c).ctxs = s.ctxs := rfl
@[simp] theorem putCc_reforms (s : State) (n : Nat) (c : Cc) : (putCc s n c).reforms = s.reforms := rfl
@[simp] theorem putCc_duties (s : State) (n : Nat) (c : Cc) : (putCc s n c).duties = s.duties := rfl
@[simp] theorem putCc_due (s : State) (n : Nat) (c : Cc) : (putCc s n c).due = s.due := rfl
@[simp] theorem putCc_chan (s : State) (n : Nat) (c : Cc) : (putCc s n c).chan = s.chan := rfl
@[simp] theorem putCc_log (s : State) (n : Nat) (c : Cc) : (putCc s n c).log = s.log := rfl
@[simp] theorem putCc_mgmt (s : State) (n : Nat) (c : Cc) : (putCc s n c).mgmt = s.mgmt := rfl
@[simp] theorem putCc_flash (s : State) (n : Nat) (c : Cc) : (putCc s n c).flash = s.flash := rfl
@[simp] theorem putCc_fab (s : State) (n : Nat) (c : Cc) : (putCc s n c).fab = s.fab := rfl

/-! ## onCc -/

@[simp] theorem onCc_power (s : State) (n : Nat) (f : Cc → Cc) : (onCc s n f).power = s.power := rfl
@[simp] theorem onCc_now (s : State) (n : Nat) (f : Cc → Cc) : (onCc s n f).now = s.now := rfl
@[simp] theorem onCc_tick (s : State) (n : Nat) (f : Cc → Cc) : (onCc s n f).tick = s.tick := rfl
@[simp] theorem onCc_agenda (s : State) (n : Nat) (f : Cc → Cc) : (onCc s n f).agenda = s.agenda := rfl
@[simp] theorem onCc_cur (s : State) (n : Nat) (f : Cc → Cc) : (onCc s n f).cur = s.cur := rfl
@[simp] theorem onCc_mem (s : State) (n : Nat) (f : Cc → Cc) : (onCc s n f).mem = s.mem := rfl
@[simp] theorem onCc_poison (s : State) (n : Nat) (f : Cc → Cc) : (onCc s n f).poison = s.poison := rfl
@[simp] theorem onCc_spadPoison (s : State) (n : Nat) (f : Cc → Cc) : (onCc s n f).spadPoison = s.spadPoison := rfl
@[simp] theorem onCc_accPoison (s : State) (n : Nat) (f : Cc → Cc) : (onCc s n f).accPoison = s.accPoison := rfl
@[simp] theorem onCc_spadRaces (s : State) (n : Nat) (f : Cc → Cc) : (onCc s n f).spadRaces = s.spadRaces := rfl
@[simp] theorem onCc_host (s : State) (n : Nat) (f : Cc → Cc) : (onCc s n f).host = s.host := rfl
@[simp] theorem onCc_chip (s : State) (n : Nat) (f : Cc → Cc) : (onCc s n f).chip = s.chip := rfl
@[simp] theorem onCc_spad (s : State) (n : Nat) (f : Cc → Cc) : (onCc s n f).spad = s.spad := rfl
@[simp] theorem onCc_full (s : State) (n : Nat) (f : Cc → Cc) : (onCc s n f).full = s.full := rfl
@[simp] theorem onCc_acc (s : State) (n : Nat) (f : Cc → Cc) : (onCc s n f).acc = s.acc := rfl
@[simp] theorem onCc_hbm (s : State) (n : Nat) (f : Cc → Cc) : (onCc s n f).hbm = s.hbm := rfl
@[simp] theorem onCc_l2 (s : State) (n : Nat) (f : Cc → Cc) : (onCc s n f).l2 = s.l2 := rfl
@[simp] theorem onCc_tlb (s : State) (n : Nat) (f : Cc → Cc) : (onCc s n f).tlb = s.tlb := rfl
@[simp] theorem onCc_faults (s : State) (n : Nat) (f : Cc → Cc) : (onCc s n f).faults = s.faults := rfl
@[simp] theorem onCc_nextFault (s : State) (n : Nat) (f : Cc → Cc) : (onCc s n f).nextFault = s.nextFault := rfl
@[simp] theorem onCc_cores (s : State) (n : Nat) (f : Cc → Cc) : (onCc s n f).cores = s.cores := rfl
@[simp] theorem onCc_launches (s : State) (n : Nat) (f : Cc → Cc) : (onCc s n f).launches = s.launches := rfl
@[simp] theorem onCc_blocks (s : State) (n : Nat) (f : Cc → Cc) : (onCc s n f).blocks = s.blocks := rfl
@[simp] theorem onCc_nextBlock (s : State) (n : Nat) (f : Cc → Cc) : (onCc s n f).nextBlock = s.nextBlock := rfl
@[simp] theorem onCc_turns (s : State) (n : Nat) (f : Cc → Cc) : (onCc s n f).turns = s.turns := rfl
@[simp] theorem onCc_ctxs (s : State) (n : Nat) (f : Cc → Cc) : (onCc s n f).ctxs = s.ctxs := rfl
@[simp] theorem onCc_reforms (s : State) (n : Nat) (f : Cc → Cc) : (onCc s n f).reforms = s.reforms := rfl
@[simp] theorem onCc_duties (s : State) (n : Nat) (f : Cc → Cc) : (onCc s n f).duties = s.duties := rfl
@[simp] theorem onCc_due (s : State) (n : Nat) (f : Cc → Cc) : (onCc s n f).due = s.due := rfl
@[simp] theorem onCc_chan (s : State) (n : Nat) (f : Cc → Cc) : (onCc s n f).chan = s.chan := rfl
@[simp] theorem onCc_log (s : State) (n : Nat) (f : Cc → Cc) : (onCc s n f).log = s.log := rfl
@[simp] theorem onCc_mgmt (s : State) (n : Nat) (f : Cc → Cc) : (onCc s n f).mgmt = s.mgmt := rfl
@[simp] theorem onCc_flash (s : State) (n : Nat) (f : Cc → Cc) : (onCc s n f).flash = s.flash := rfl
@[simp] theorem onCc_fab (s : State) (n : Nat) (f : Cc → Cc) : (onCc s n f).fab = s.fab := rfl

/-! ## onBlock -/

/-- onBlock changes the blocks alone. -/
theorem onBlock_eq (s : State) (b : Nat) (f : Block → Block) : onBlock s b f = { s with blocks := (onBlock s b f).blocks } := by
  unfold onBlock; split <;> rfl

@[simp] theorem onBlock_power (s : State) (b : Nat) (f : Block → Block) : (onBlock s b f).power = s.power := by unfold onBlock; split <;> rfl
@[simp] theorem onBlock_now (s : State) (b : Nat) (f : Block → Block) : (onBlock s b f).now = s.now := by unfold onBlock; split <;> rfl
@[simp] theorem onBlock_tick (s : State) (b : Nat) (f : Block → Block) : (onBlock s b f).tick = s.tick := by unfold onBlock; split <;> rfl
@[simp] theorem onBlock_agenda (s : State) (b : Nat) (f : Block → Block) : (onBlock s b f).agenda = s.agenda := by unfold onBlock; split <;> rfl
@[simp] theorem onBlock_cur (s : State) (b : Nat) (f : Block → Block) : (onBlock s b f).cur = s.cur := by unfold onBlock; split <;> rfl
@[simp] theorem onBlock_mem (s : State) (b : Nat) (f : Block → Block) : (onBlock s b f).mem = s.mem := by unfold onBlock; split <;> rfl
@[simp] theorem onBlock_poison (s : State) (b : Nat) (f : Block → Block) : (onBlock s b f).poison = s.poison := by unfold onBlock; split <;> rfl
@[simp] theorem onBlock_spadPoison (s : State) (b : Nat) (f : Block → Block) : (onBlock s b f).spadPoison = s.spadPoison := by unfold onBlock; split <;> rfl
@[simp] theorem onBlock_accPoison (s : State) (b : Nat) (f : Block → Block) : (onBlock s b f).accPoison = s.accPoison := by unfold onBlock; split <;> rfl
@[simp] theorem onBlock_spadRaces (s : State) (b : Nat) (f : Block → Block) : (onBlock s b f).spadRaces = s.spadRaces := by unfold onBlock; split <;> rfl
@[simp] theorem onBlock_host (s : State) (b : Nat) (f : Block → Block) : (onBlock s b f).host = s.host := by unfold onBlock; split <;> rfl
@[simp] theorem onBlock_chip (s : State) (b : Nat) (f : Block → Block) : (onBlock s b f).chip = s.chip := by unfold onBlock; split <;> rfl
@[simp] theorem onBlock_spad (s : State) (b : Nat) (f : Block → Block) : (onBlock s b f).spad = s.spad := by unfold onBlock; split <;> rfl
@[simp] theorem onBlock_full (s : State) (b : Nat) (f : Block → Block) : (onBlock s b f).full = s.full := by unfold onBlock; split <;> rfl
@[simp] theorem onBlock_acc (s : State) (b : Nat) (f : Block → Block) : (onBlock s b f).acc = s.acc := by unfold onBlock; split <;> rfl
@[simp] theorem onBlock_hbm (s : State) (b : Nat) (f : Block → Block) : (onBlock s b f).hbm = s.hbm := by unfold onBlock; split <;> rfl
@[simp] theorem onBlock_l2 (s : State) (b : Nat) (f : Block → Block) : (onBlock s b f).l2 = s.l2 := by unfold onBlock; split <;> rfl
@[simp] theorem onBlock_tlb (s : State) (b : Nat) (f : Block → Block) : (onBlock s b f).tlb = s.tlb := by unfold onBlock; split <;> rfl
@[simp] theorem onBlock_faults (s : State) (b : Nat) (f : Block → Block) : (onBlock s b f).faults = s.faults := by unfold onBlock; split <;> rfl
@[simp] theorem onBlock_nextFault (s : State) (b : Nat) (f : Block → Block) : (onBlock s b f).nextFault = s.nextFault := by unfold onBlock; split <;> rfl
@[simp] theorem onBlock_cores (s : State) (b : Nat) (f : Block → Block) : (onBlock s b f).cores = s.cores := by unfold onBlock; split <;> rfl
@[simp] theorem onBlock_launches (s : State) (b : Nat) (f : Block → Block) : (onBlock s b f).launches = s.launches := by unfold onBlock; split <;> rfl
@[simp] theorem onBlock_nextBlock (s : State) (b : Nat) (f : Block → Block) : (onBlock s b f).nextBlock = s.nextBlock := by unfold onBlock; split <;> rfl
@[simp] theorem onBlock_turns (s : State) (b : Nat) (f : Block → Block) : (onBlock s b f).turns = s.turns := by unfold onBlock; split <;> rfl
@[simp] theorem onBlock_ctxs (s : State) (b : Nat) (f : Block → Block) : (onBlock s b f).ctxs = s.ctxs := by unfold onBlock; split <;> rfl
@[simp] theorem onBlock_ccs (s : State) (b : Nat) (f : Block → Block) : (onBlock s b f).ccs = s.ccs := by unfold onBlock; split <;> rfl
@[simp] theorem onBlock_reforms (s : State) (b : Nat) (f : Block → Block) : (onBlock s b f).reforms = s.reforms := by unfold onBlock; split <;> rfl
@[simp] theorem onBlock_duties (s : State) (b : Nat) (f : Block → Block) : (onBlock s b f).duties = s.duties := by unfold onBlock; split <;> rfl
@[simp] theorem onBlock_due (s : State) (b : Nat) (f : Block → Block) : (onBlock s b f).due = s.due := by unfold onBlock; split <;> rfl
@[simp] theorem onBlock_chan (s : State) (b : Nat) (f : Block → Block) : (onBlock s b f).chan = s.chan := by unfold onBlock; split <;> rfl
@[simp] theorem onBlock_log (s : State) (b : Nat) (f : Block → Block) : (onBlock s b f).log = s.log := by unfold onBlock; split <;> rfl
@[simp] theorem onBlock_mgmt (s : State) (b : Nat) (f : Block → Block) : (onBlock s b f).mgmt = s.mgmt := by unfold onBlock; split <;> rfl
@[simp] theorem onBlock_flash (s : State) (b : Nat) (f : Block → Block) : (onBlock s b f).flash = s.flash := by unfold onBlock; split <;> rfl
@[simp] theorem onBlock_fab (s : State) (b : Nat) (f : Block → Block) : (onBlock s b f).fab = s.fab := by unfold onBlock; split <;> rfl

/-! ## onTeam -/

/-- onTeam changes the blocks alone. -/
theorem onTeam_eq (s : State) (b t : Nat) (f : Team → Team) : onTeam s b t f = { s with blocks := (onTeam s b t f).blocks } := by
  unfold onTeam; split <;> rfl

@[simp] theorem onTeam_power (s : State) (b t : Nat) (f : Team → Team) : (onTeam s b t f).power = s.power := by unfold onTeam; split <;> rfl
@[simp] theorem onTeam_now (s : State) (b t : Nat) (f : Team → Team) : (onTeam s b t f).now = s.now := by unfold onTeam; split <;> rfl
@[simp] theorem onTeam_tick (s : State) (b t : Nat) (f : Team → Team) : (onTeam s b t f).tick = s.tick := by unfold onTeam; split <;> rfl
@[simp] theorem onTeam_agenda (s : State) (b t : Nat) (f : Team → Team) : (onTeam s b t f).agenda = s.agenda := by unfold onTeam; split <;> rfl
@[simp] theorem onTeam_cur (s : State) (b t : Nat) (f : Team → Team) : (onTeam s b t f).cur = s.cur := by unfold onTeam; split <;> rfl
@[simp] theorem onTeam_mem (s : State) (b t : Nat) (f : Team → Team) : (onTeam s b t f).mem = s.mem := by unfold onTeam; split <;> rfl
@[simp] theorem onTeam_poison (s : State) (b t : Nat) (f : Team → Team) : (onTeam s b t f).poison = s.poison := by unfold onTeam; split <;> rfl
@[simp] theorem onTeam_spadPoison (s : State) (b t : Nat) (f : Team → Team) : (onTeam s b t f).spadPoison = s.spadPoison := by unfold onTeam; split <;> rfl
@[simp] theorem onTeam_accPoison (s : State) (b t : Nat) (f : Team → Team) : (onTeam s b t f).accPoison = s.accPoison := by unfold onTeam; split <;> rfl
@[simp] theorem onTeam_spadRaces (s : State) (b t : Nat) (f : Team → Team) : (onTeam s b t f).spadRaces = s.spadRaces := by unfold onTeam; split <;> rfl
@[simp] theorem onTeam_host (s : State) (b t : Nat) (f : Team → Team) : (onTeam s b t f).host = s.host := by unfold onTeam; split <;> rfl
@[simp] theorem onTeam_chip (s : State) (b t : Nat) (f : Team → Team) : (onTeam s b t f).chip = s.chip := by unfold onTeam; split <;> rfl
@[simp] theorem onTeam_spad (s : State) (b t : Nat) (f : Team → Team) : (onTeam s b t f).spad = s.spad := by unfold onTeam; split <;> rfl
@[simp] theorem onTeam_full (s : State) (b t : Nat) (f : Team → Team) : (onTeam s b t f).full = s.full := by unfold onTeam; split <;> rfl
@[simp] theorem onTeam_acc (s : State) (b t : Nat) (f : Team → Team) : (onTeam s b t f).acc = s.acc := by unfold onTeam; split <;> rfl
@[simp] theorem onTeam_hbm (s : State) (b t : Nat) (f : Team → Team) : (onTeam s b t f).hbm = s.hbm := by unfold onTeam; split <;> rfl
@[simp] theorem onTeam_l2 (s : State) (b t : Nat) (f : Team → Team) : (onTeam s b t f).l2 = s.l2 := by unfold onTeam; split <;> rfl
@[simp] theorem onTeam_tlb (s : State) (b t : Nat) (f : Team → Team) : (onTeam s b t f).tlb = s.tlb := by unfold onTeam; split <;> rfl
@[simp] theorem onTeam_faults (s : State) (b t : Nat) (f : Team → Team) : (onTeam s b t f).faults = s.faults := by unfold onTeam; split <;> rfl
@[simp] theorem onTeam_nextFault (s : State) (b t : Nat) (f : Team → Team) : (onTeam s b t f).nextFault = s.nextFault := by unfold onTeam; split <;> rfl
@[simp] theorem onTeam_cores (s : State) (b t : Nat) (f : Team → Team) : (onTeam s b t f).cores = s.cores := by unfold onTeam; split <;> rfl
@[simp] theorem onTeam_launches (s : State) (b t : Nat) (f : Team → Team) : (onTeam s b t f).launches = s.launches := by unfold onTeam; split <;> rfl
@[simp] theorem onTeam_nextBlock (s : State) (b t : Nat) (f : Team → Team) : (onTeam s b t f).nextBlock = s.nextBlock := by unfold onTeam; split <;> rfl
@[simp] theorem onTeam_turns (s : State) (b t : Nat) (f : Team → Team) : (onTeam s b t f).turns = s.turns := by unfold onTeam; split <;> rfl
@[simp] theorem onTeam_ctxs (s : State) (b t : Nat) (f : Team → Team) : (onTeam s b t f).ctxs = s.ctxs := by unfold onTeam; split <;> rfl
@[simp] theorem onTeam_ccs (s : State) (b t : Nat) (f : Team → Team) : (onTeam s b t f).ccs = s.ccs := by unfold onTeam; split <;> rfl
@[simp] theorem onTeam_reforms (s : State) (b t : Nat) (f : Team → Team) : (onTeam s b t f).reforms = s.reforms := by unfold onTeam; split <;> rfl
@[simp] theorem onTeam_duties (s : State) (b t : Nat) (f : Team → Team) : (onTeam s b t f).duties = s.duties := by unfold onTeam; split <;> rfl
@[simp] theorem onTeam_due (s : State) (b t : Nat) (f : Team → Team) : (onTeam s b t f).due = s.due := by unfold onTeam; split <;> rfl
@[simp] theorem onTeam_chan (s : State) (b t : Nat) (f : Team → Team) : (onTeam s b t f).chan = s.chan := by unfold onTeam; split <;> rfl
@[simp] theorem onTeam_log (s : State) (b t : Nat) (f : Team → Team) : (onTeam s b t f).log = s.log := by unfold onTeam; split <;> rfl
@[simp] theorem onTeam_mgmt (s : State) (b t : Nat) (f : Team → Team) : (onTeam s b t f).mgmt = s.mgmt := by unfold onTeam; split <;> rfl
@[simp] theorem onTeam_flash (s : State) (b t : Nat) (f : Team → Team) : (onTeam s b t f).flash = s.flash := by unfold onTeam; split <;> rfl
@[simp] theorem onTeam_fab (s : State) (b t : Nat) (f : Team → Team) : (onTeam s b t f).fab = s.fab := by unfold onTeam; split <;> rfl

/-! ## onSplit -/

@[simp] theorem onSplit_power (s : State) (b t e : Nat) (f : Split → Split) : (onSplit s b t e f).power = s.power := onTeam_power ..
@[simp] theorem onSplit_now (s : State) (b t e : Nat) (f : Split → Split) : (onSplit s b t e f).now = s.now := onTeam_now ..
@[simp] theorem onSplit_tick (s : State) (b t e : Nat) (f : Split → Split) : (onSplit s b t e f).tick = s.tick := onTeam_tick ..
@[simp] theorem onSplit_agenda (s : State) (b t e : Nat) (f : Split → Split) : (onSplit s b t e f).agenda = s.agenda := onTeam_agenda ..
@[simp] theorem onSplit_cur (s : State) (b t e : Nat) (f : Split → Split) : (onSplit s b t e f).cur = s.cur := onTeam_cur ..
@[simp] theorem onSplit_mem (s : State) (b t e : Nat) (f : Split → Split) : (onSplit s b t e f).mem = s.mem := onTeam_mem ..
@[simp] theorem onSplit_poison (s : State) (b t e : Nat) (f : Split → Split) : (onSplit s b t e f).poison = s.poison := onTeam_poison ..
@[simp] theorem onSplit_spadPoison (s : State) (b t e : Nat) (f : Split → Split) : (onSplit s b t e f).spadPoison = s.spadPoison := onTeam_spadPoison ..
@[simp] theorem onSplit_accPoison (s : State) (b t e : Nat) (f : Split → Split) : (onSplit s b t e f).accPoison = s.accPoison := onTeam_accPoison ..
@[simp] theorem onSplit_spadRaces (s : State) (b t e : Nat) (f : Split → Split) : (onSplit s b t e f).spadRaces = s.spadRaces := onTeam_spadRaces ..
@[simp] theorem onSplit_host (s : State) (b t e : Nat) (f : Split → Split) : (onSplit s b t e f).host = s.host := onTeam_host ..
@[simp] theorem onSplit_chip (s : State) (b t e : Nat) (f : Split → Split) : (onSplit s b t e f).chip = s.chip := onTeam_chip ..
@[simp] theorem onSplit_spad (s : State) (b t e : Nat) (f : Split → Split) : (onSplit s b t e f).spad = s.spad := onTeam_spad ..
@[simp] theorem onSplit_full (s : State) (b t e : Nat) (f : Split → Split) : (onSplit s b t e f).full = s.full := onTeam_full ..
@[simp] theorem onSplit_acc (s : State) (b t e : Nat) (f : Split → Split) : (onSplit s b t e f).acc = s.acc := onTeam_acc ..
@[simp] theorem onSplit_hbm (s : State) (b t e : Nat) (f : Split → Split) : (onSplit s b t e f).hbm = s.hbm := onTeam_hbm ..
@[simp] theorem onSplit_l2 (s : State) (b t e : Nat) (f : Split → Split) : (onSplit s b t e f).l2 = s.l2 := onTeam_l2 ..
@[simp] theorem onSplit_tlb (s : State) (b t e : Nat) (f : Split → Split) : (onSplit s b t e f).tlb = s.tlb := onTeam_tlb ..
@[simp] theorem onSplit_faults (s : State) (b t e : Nat) (f : Split → Split) : (onSplit s b t e f).faults = s.faults := onTeam_faults ..
@[simp] theorem onSplit_nextFault (s : State) (b t e : Nat) (f : Split → Split) : (onSplit s b t e f).nextFault = s.nextFault := onTeam_nextFault ..
@[simp] theorem onSplit_cores (s : State) (b t e : Nat) (f : Split → Split) : (onSplit s b t e f).cores = s.cores := onTeam_cores ..
@[simp] theorem onSplit_launches (s : State) (b t e : Nat) (f : Split → Split) : (onSplit s b t e f).launches = s.launches := onTeam_launches ..
@[simp] theorem onSplit_nextBlock (s : State) (b t e : Nat) (f : Split → Split) : (onSplit s b t e f).nextBlock = s.nextBlock := onTeam_nextBlock ..
@[simp] theorem onSplit_turns (s : State) (b t e : Nat) (f : Split → Split) : (onSplit s b t e f).turns = s.turns := onTeam_turns ..
@[simp] theorem onSplit_ctxs (s : State) (b t e : Nat) (f : Split → Split) : (onSplit s b t e f).ctxs = s.ctxs := onTeam_ctxs ..
@[simp] theorem onSplit_ccs (s : State) (b t e : Nat) (f : Split → Split) : (onSplit s b t e f).ccs = s.ccs := onTeam_ccs ..
@[simp] theorem onSplit_reforms (s : State) (b t e : Nat) (f : Split → Split) : (onSplit s b t e f).reforms = s.reforms := onTeam_reforms ..
@[simp] theorem onSplit_duties (s : State) (b t e : Nat) (f : Split → Split) : (onSplit s b t e f).duties = s.duties := onTeam_duties ..
@[simp] theorem onSplit_due (s : State) (b t e : Nat) (f : Split → Split) : (onSplit s b t e f).due = s.due := onTeam_due ..
@[simp] theorem onSplit_chan (s : State) (b t e : Nat) (f : Split → Split) : (onSplit s b t e f).chan = s.chan := onTeam_chan ..
@[simp] theorem onSplit_log (s : State) (b t e : Nat) (f : Split → Split) : (onSplit s b t e f).log = s.log := onTeam_log ..
@[simp] theorem onSplit_mgmt (s : State) (b t e : Nat) (f : Split → Split) : (onSplit s b t e f).mgmt = s.mgmt := onTeam_mgmt ..
@[simp] theorem onSplit_flash (s : State) (b t e : Nat) (f : Split → Split) : (onSplit s b t e f).flash = s.flash := onTeam_flash ..
@[simp] theorem onSplit_fab (s : State) (b t e : Nat) (f : Split → Split) : (onSplit s b t e f).fab = s.fab := onTeam_fab ..

/-! ## What stands after them -/

@[simp] theorem ccOf_putCc (s : State) (n : Nat) (c : Cc) : ccOf (putCc s n c) n = c := by simp [ccOf, putCc, Tbl.getD]

theorem ccOf_putCc_other (s : State) {n j : Nat} (c : Cc) (h : j ≠ n) : ccOf (putCc s n c) j = ccOf s j := by
  simp [ccOf, putCc, Tbl.getD, Tbl.get_put_other _ c h]

@[simp] theorem ccOf_onCc (s : State) (n : Nat) (f : Cc → Cc) : ccOf (onCc s n f) n = f (ccOf s n) := ccOf_putCc ..

theorem ccOf_onCc_other (s : State) {n j : Nat} (f : Cc → Cc) (h : j ≠ n) : ccOf (onCc s n f) j = ccOf s j := ccOf_putCc_other s _ h

@[simp] theorem ctxOf_putCtx (s : State) (x : Nat) (c : Ctx) : ctxOf (putCtx s x c) x = c := by simp [ctxOf, putCtx, Tbl.getD]

theorem ctxOf_putCtx_other (s : State) {x j : Nat} (c : Ctx) (h : j ≠ x) : ctxOf (putCtx s x c) j = ctxOf s j := by
  simp [ctxOf, putCtx, Tbl.getD, Tbl.get_put_other _ c h]

theorem blocks_onBlock (s : State) (b j : Nat) (f : Block → Block) :
    Tbl.get (onBlock s b f).blocks j = if j = b then (Tbl.get s.blocks b).map f else Tbl.get s.blocks j := by
  unfold onBlock
  split
  · rename_i h; split
    · rename_i e; subst e; simp [h]
    · rfl
  · rename_i k h
    by_cases e : j = b
    · subst e; simp [putBlock, h]
    · simp [putBlock, e, Tbl.get_put_other _ _ e]

theorem onTeam_as_onBlock (s : State) (b t : Nat) (f : Team → Team) : onTeam s b t f = onBlock s b (fun k => mapTeam k t f) := rfl

theorem teams_mapTeam (k : Block) (t j : Nat) (f : Team → Team) :
    Tbl.get (mapTeam k t f).teams j = if j = t then (Tbl.get k.teams t).map f else Tbl.get k.teams j := by
  unfold mapTeam
  split
  · rename_i h; split
    · rename_i e; subst e; simp [h]
    · rfl
  · rename_i m h
    by_cases e : j = t
    · subst e; simp [h]
    · simp [e, Tbl.get_put_other _ _ e]

theorem mapTeam_eq (k : Block) (t : Nat) (f : Team → Team) : mapTeam k t f = { k with teams := (mapTeam k t f).teams } := by
  unfold mapTeam; split <;> rfl

theorem teamOf_onTeam (s : State) (b t : Nat) (f : Team → Team) : teamOf (onTeam s b t f) b t = (teamOf s b t).map f := by
  unfold teamOf
  rw [onTeam_as_onBlock, blocks_onBlock]
  cases h : Tbl.get s.blocks b with
  | none => simp
  | some k => simp [teams_mapTeam]

theorem teamOf_onTeam_other (s : State) {b t c u : Nat} (f : Team → Team) (h : ¬ (c = b ∧ u = t)) :
    teamOf (onTeam s b t f) c u = teamOf s c u := by
  unfold teamOf
  rw [onTeam_as_onBlock, blocks_onBlock]
  by_cases hc : c = b
  · subst hc
    have hu : u ≠ t := fun e => h ⟨rfl, e⟩
    cases Tbl.get s.blocks c with
    | none => simp
    | some k => simp [teams_mapTeam, hu]
  · simp [hc]

end Sys2Proof.Machine
end

