-- ==== Sys2Proof/Laws/Issue.lean ====
section
/-! SUPPORT. Laws of issue and completion: what an instruction that issues comes to, once for every instruction. -/

namespace Sys2Proof

open Sys2Proof.Machine

/-- An instruction that issues runs its own effect. -/
theorem Issues.run {op : Op} {leaders : List Nat} {s s1 : State} {j : Iss} (h : Issues op leaders s j s1)
    (body : Iss → State → State) : issue op leaders s body = .next (body j s1) := by
  obtain ⟨i, hi, hm, hb, hl, hp, hd, hx, hq, rfl, rfl, hf⟩ := h
  have hd' : Iss.poisonLanes { i with ex := i.execLanes op } op leaders = [] := hd
  have hq' : queueCheck { i with ex := i.execLanes op } op = (.ok, none) := hq
  have hf' : idxFault (Iss.popped { i with ex := i.execLanes op } op) leaders op (Iss.popped { i with ex := i.execLanes op } op).lanes = none := hf
  simp only [issue, hi, issueAs, hm, hb, hl, hp, hd', hx, issueLanes, hq', hf', if_false, Bool.or_self, Bool.false_eq_true, ne_eq,
    not_true_eq_false]
  rfl

/-- An issuer stands where `cur` says. -/
theorem issuer_stands {s : State} {i : Iss} (h : issuer s = some i) :
    Tbl.get s.blocks i.b = some i.k ∧ Tbl.get i.k.teams i.t = some i.m ∧ Tbl.get i.m.splits i.e = some i.p ∧
    Tbl.get s.launches i.k.launch = some i.l := by
  unfold issuer at h
  split at h
  · split at h
    · cases h
    · rename_i k hk
      split at h
      · rename_i l m hl hm
        split at h
        · cases h
        · rename_i p hp
          cases h
          exact ⟨hk, hm, hp, hl⟩
      · cases h
  · cases h

@[simp] theorem popTeam_regs (i : Iss) (op : Op) (m : Team) : (popTeam i op m).regs = m.regs := by
  unfold popTeam; dsimp only; split <;> split <;> rfl
@[simp] theorem popTeam_splits (i : Iss) (op : Op) (m : Team) : (popTeam i op m).splits = m.splits := by
  unfold popTeam; dsimp only; split <;> split <;> rfl
@[simp] theorem popTeam_flags (i : Iss) (op : Op) (m : Team) : (popTeam i op m).flags = m.flags := by
  unfold popTeam; dsimp only; split <;> split <;> rfl
@[simp] theorem popped_b (i : Iss) (op : Op) : (i.popped op).b = i.b := by unfold Iss.popped; dsimp only; split <;> split <;> rfl
@[simp] theorem popped_t (i : Iss) (op : Op) : (i.popped op).t = i.t := by unfold Iss.popped; dsimp only; split <;> split <;> rfl
@[simp] theorem popped_e (i : Iss) (op : Op) : (i.popped op).e = i.e := by unfold Iss.popped; dsimp only; split <;> split <;> rfl
@[simp] theorem popped_m (i : Iss) (op : Op) : (i.popped op).m = i.m := by unfold Iss.popped; dsimp only; split <;> split <;> rfl
@[simp] theorem popped_p (i : Iss) (op : Op) : (i.popped op).p = i.p := by unfold Iss.popped; dsimp only; split <;> split <;> rfl
@[simp] theorem popped_k (i : Iss) (op : Op) : (i.popped op).k = i.k := by unfold Iss.popped; dsimp only; split <;> split <;> rfl
@[simp] theorem popped_l (i : Iss) (op : Op) : (i.popped op).l = i.l := by unfold Iss.popped; dsimp only; split <;> split <;> rfl

/-- Where an issuing instruction's team and split stand when its effect begins. -/
theorem Issues.team {op : Op} {leaders : List Nat} {s s1 : State} {j : Iss} (h : Issues op leaders s j s1) :
    ∃ m k, Tbl.get s1.blocks j.b = some k ∧ Tbl.get k.teams j.t = some m ∧ teamOf s1 j.b j.t = some m ∧ m.regs = j.m.regs ∧
      m.flags = j.m.flags ∧ Tbl.get m.splits j.e = some j.p := by
  obtain ⟨i, hi, -, -, -, -, -, -, -, rfl, rfl, -⟩ := h
  obtain ⟨hk, hm, hp, -⟩ := issuer_stands hi
  refine ⟨popTeam (withLanes i op) op i.m, mapTeam i.k i.t (popTeam (withLanes i op) op), ?_, ?_, ?_, ?_, ?_, ?_⟩
  · simp [withLanes, onTeam_as_onBlock, blocks_onBlock, hk]
  · simp [withLanes, teams_mapTeam, hm]
  · simp [withLanes, teamOf_onTeam]; simp [teamOf, hk, hm]
  · simp [withLanes]
  · simp [withLanes]
  · simp [withLanes, hp]

/-! ## Registers after writes -/

theorem get_applyWrites_other : ∀ (ws : List (Nat × Word)) (r : Sparse 32) (k : Nat), (∀ w ∈ ws, w.1 ≠ k) →
    Sparse.get (applyWrites r ws) k = Sparse.get r k := by
  intro ws
  induction ws with
  | nil => intro r k _; rfl
  | cons w t ih =>
    intro r k h
    rw [applyWrites, ih _ _ (fun x hx => h x (List.mem_cons_of_mem _ hx))]
    exact Sparse.get_set_other _ _ (Ne.symm (h w (List.mem_cons_self ..)))

theorem get_applyWrites_mem : ∀ (ws : List (Nat × Word)) (r : Sparse 32) (k : Nat) (v : Word), (k, v) ∈ ws →
    (∀ w ∈ ws, w.1 = k → w.2 = v) → Sparse.get (applyWrites r ws) k = v := by
  intro ws
  induction ws with
  | nil => intro r k v h; cases h
  | cons w t ih =>
    intro r k v h hu
    rw [applyWrites]
    by_cases ht : (k, v) ∈ t
    · exact ih _ k v ht (fun x hx => hu x (List.mem_cons_of_mem _ hx))
    · have hw : w = (k, v) := by
        rcases List.mem_cons.mp h with e | e
        · exact e.symm
        · exact absurd e ht
      subst hw
      rw [get_applyWrites_other]
      · simp
      · intro x hx e
        have : x.2 = v := hu x (List.mem_cons_of_mem _ hx) e
        exact ht (by rw [← e, ← this]; exact hx)

theorem get_stepLane : ∀ (ds : List Word) (l : Nat) (r : Sparse 32) (q k : Nat), l < 1024 → k < 1024 →
    Sparse.get (stepLane ds l r) (q * 1024 + k) =
      if k = l then (ds.filter (fun d => xHome d = q)).foldl (fun v d => v + xStep d) (Sparse.get r (q * 1024 + k))
      else Sparse.get r (q * 1024 + k) := by
  intro ds
  induction ds with
  | nil => intro l r q k _ _; simp [stepLane]
  | cons d t ih =>
    intro l r q k hl hk
    rw [stepLane, ih _ _ _ _ hl hk]
    by_cases hkl : k = l
    · subst hkl
      simp only [if_true]
      by_cases hq : xHome d = q
      · subst hq; simp
      · have : q * 1024 + k ≠ xHome d * 1024 + k := by omega
        rw [Sparse.get_set_other _ _ this]; simp [hq]
    · have : q * 1024 + k ≠ xHome d * 1024 + l := by omega
      simp [hkl, Sparse.get_set_other _ _ this]

theorem get_stepLanes : ∀ (ls : List Nat) (ds : List Word) (r : Sparse 32) (q k : Nat), (∀ l ∈ ls, l < 1024) → ls.Nodup → k < 1024 →
    Sparse.get (stepLanes ds ls r) (q * 1024 + k) =
      if k ∈ ls then (ds.filter (fun d => xHome d = q)).foldl (fun v d => v + xStep d) (Sparse.get r (q * 1024 + k))
      else Sparse.get r (q * 1024 + k) := by
  intro ls
  induction ls with
  | nil => intro ds r q k _ _ _; simp [stepLanes]
  | cons l t ih =>
    intro ds r q k hl hn hk
    rw [stepLanes, ih _ _ _ _ (fun x hx => hl x (List.mem_cons_of_mem _ hx)) (List.nodup_cons.mp hn).2 hk,
      get_stepLane _ _ _ _ _ (hl l (List.mem_cons_self ..)) hk]
    by_cases h : k = l
    · subst h
      have := (List.nodup_cons.mp hn).1
      simp [this]
    · simp [h]

theorem mem_lanesOf {m : Mask} {w l : Nat} (h : l ∈ lanesOf m w) : l < w ∧ l < 1024 := by
  have h' := List.mem_filter.mp h
  refine ⟨List.mem_range.mp h'.1, ?_⟩
  by_contra hn
  have : m.getLsbD l = false := BitVec.getLsbD_of_ge m l (by omega)
  simp [hasLane, this] at h'

theorem nodup_lanesOf (m : Mask) (w : Nat) : (lanesOf m w).Nodup := List.Nodup.filter _ List.nodup_range

theorem Iss.lane_lt {j : Iss} {l : Nat} (h : l ∈ j.lanes) : l < 1024 := (mem_lanesOf h).2

/-- The steps of an instruction's index registers over its lanes. -/
theorem get_steps (op : Op) (j : Iss) (r l : Nat) (hl : l < 1024) :
    Sparse.get (stepLanes (op.xNamed.map j.xreg) j.lanes j.m.regs) (r * 1024 + l) = steppedReg op j r l := by
  rw [get_stepLanes _ _ _ _ _ (fun x hx => Iss.lane_lt hx) (nodup_lanesOf ..) hl]
  unfold steppedReg Team.reg
  split
  · rw [List.filter_map, List.foldl_map]
    rfl
  · rfl

/-- Writes that put what `dest` gives into registers and touch no other register. -/
structure Writes (ws : List (Nat × Word)) (dest : Nat → Nat → Option Word) : Prop where
  get : ∀ (rs : Sparse 32) (r l : Nat), l < 1024 →
    Sparse.get (applyWrites rs ws) (r * 1024 + l) = (dest r l).getD (Sparse.get rs (r * 1024 + l))
  mem : ∀ r l : Nat, l < 1024 → ((∃ w ∈ ws, w.1 = r * 1024 + l) ↔ dest r l ≠ none)

theorem writes_none : Writes [] noDest := ⟨fun _ _ _ _ => rfl, fun _ _ _ => by simp [noDest]⟩

theorem mem_dstWrites {i : Iss} {v : BitVec 8} {l : Nat} {ws : List Word} {w : Nat × Word} :
    w ∈ i.dstWrites v l ws ↔ ∃ n, ∃ h : n < ws.length, w = ((i.regNo v.toNat l + n) * 1024 + l, ws[n]) := by
  simp only [Iss.dstWrites, List.mem_mapIdx, eq_comm]

theorem mem_dstWords {j : Iss} {v : BitVec 8} {l n : Nat} {val : BitVec 128} {w : Nat × Word} :
    w ∈ j.dstWrites v l (wordsOf n val) ↔ ∃ q, q < n ∧ w = ((j.regNo v.toNat l + q) * 1024 + l, val.extractLsb' (32 * q) 32) := by
  rw [mem_dstWrites]
  constructor
  · rintro ⟨q, hq, rfl⟩
    simp only [wordsOf, List.length_map, List.length_range] at hq
    exact ⟨q, hq, by simp [wordsOf]⟩
  · rintro ⟨q, hq, rfl⟩
    exact ⟨q, by simpa [wordsOf] using hq, by simp [wordsOf]⟩

/-- The writes of one lane's value. -/
theorem writes_lane (j : Iss) (v : BitVec 8) (n : Nat) (val : BitVec 128) {l : Nat} (hl : l < 1024) :
    Writes (j.dstWrites v l (wordsOf n val)) (fun r k => if k = l then destOf j v n val r k else none) := by
  refine ⟨?_, fun r k hk => ?_⟩
  case refine_2 =>
    simp only [mem_dstWords, destOf, ne_eq, ite_eq_right_iff, reduceCtorEq, imp_false, not_not, Classical.not_imp]
    constructor
    · rintro ⟨w, ⟨q, hq, rfl⟩, e⟩
      simp only at e
      obtain rfl : k = l := by omega
      exact ⟨rfl, by omega, by omega⟩
    · rintro ⟨rfl, h⟩
      exact ⟨_, ⟨r - j.regNo v.toNat k, by omega, rfl⟩, by simp only; omega⟩
  intro rs r k hk
  unfold destOf
  by_cases h : k = l ∧ j.regNo v.toNat l ≤ r ∧ r < j.regNo v.toNat l + n
  · obtain ⟨rfl, h⟩ := h
    simp only [if_true, if_pos h, Option.getD_some]
    apply get_applyWrites_mem
    · exact mem_dstWords.mpr ⟨r - j.regNo v.toNat k, by omega, by rw [show j.regNo v.toNat k + (r - j.regNo v.toNat k) = r by omega]⟩
    · intro w hw e
      obtain ⟨q, hq, rfl⟩ := mem_dstWords.mp hw
      simp only at e
      rw [show q = r - j.regNo v.toNat k by omega]
  · have hd : (if k = l then (if j.regNo v.toNat k ≤ r ∧ r < j.regNo v.toNat k + n then
        some (val.extractLsb' (32 * (r - j.regNo v.toNat k)) 32) else none) else none : Option Word) = none := by
      split
      · rename_i e; subst e
        rw [if_neg (fun h' => h ⟨rfl, h'⟩)]
      · rfl
    rw [hd]
    apply get_applyWrites_other
    intro w hw e
    obtain ⟨q, hq, rfl⟩ := mem_dstWords.mp hw
    simp only at e
    have : k = l := by omega
    subst this
    exact h ⟨rfl, by omega, by omega⟩

theorem applyWrites_append : ∀ (a b : List (Nat × Word)) (rs : Sparse 32), applyWrites rs (a ++ b) = applyWrites (applyWrites rs a) b := by
  intro a
  induction a with
  | nil => intro b rs; rfl
  | cons w t ih => intro b rs; exact ih b _

/-- The writes of lanes' values, each in its own lane. -/
theorem writes_lanes (j : Iss) (v : BitVec 8) (n : Nat) (f : Nat → BitVec 128) : ∀ ls : List Nat, (∀ l ∈ ls, l < 1024) → ls.Nodup →
    Writes (ls.flatMap (fun l => j.dstWrites v l (wordsOf n (f l)))) (fun r k => if k ∈ ls then destOf j v n (f k) r k else none) := by
  intro ls
  induction ls with
  | nil => intro _ _; exact ⟨fun rs r k _ => by simp [applyWrites], fun r k _ => by simp⟩
  | cons l t ih =>
    intro hl hn
    have hi := ih (fun x hx => hl x (List.mem_cons_of_mem _ hx)) (List.nodup_cons.mp hn).2
    have h1 := writes_lane j v n (f l) (hl l (List.mem_cons_self ..))
    have hnot := (List.nodup_cons.mp hn).1
    constructor
    · intro rs r k hk
      rw [List.flatMap_cons, applyWrites_append, hi.get _ _ _ hk, h1.get _ _ _ hk]
      by_cases h : k = l
      · subst h; simp [hnot]
      · simp [h]
    · intro r k hk
      have e : (∃ w ∈ (l :: t).flatMap (fun l => j.dstWrites v l (wordsOf n (f l))), w.1 = r * 1024 + k) ↔
          (∃ w ∈ j.dstWrites v l (wordsOf n (f l)), w.1 = r * 1024 + k) ∨
            ∃ w ∈ t.flatMap (fun l => j.dstWrites v l (wordsOf n (f l))), w.1 = r * 1024 + k := by
        simp only [List.flatMap_cons, List.mem_append, or_and_right, exists_or]
      rw [e, h1.mem _ _ hk, hi.mem _ _ hk]
      by_cases h : k = l
      · subst h; simp [hnot]
      · simp [h]

/-- The writes of an instruction with one result per lane. -/
theorem writes_outs (op : Op) (j : Iss) (f : Nat → LaneOut) : Writes (j.outWrites op (j.outs f)) (laneDest op j f) := by
  have e : j.outWrites op (j.outs f) = j.lanes.flatMap (fun l => j.dstWrites op.o.d l (wordsOf op.dstExtent (f l).val)) := by
    simp [Iss.outWrites, Iss.outs, List.flatMap_map]
  rw [e]
  exact writes_lanes j op.o.d op.dstExtent (fun l => (f l).val) j.lanes (fun l hl => Iss.lane_lt hl) (nodup_lanesOf ..)

theorem OnlyBlocks.trans {s t u : State} (h1 : OnlyBlocks s t) (h2 : OnlyBlocks t u) : OnlyBlocks s u := by
  unfold OnlyBlocks at *
  generalize t.blocks = B at h1
  subst h1
  exact h2

theorem OnlyBlocks.refl (s : State) : OnlyBlocks s s := rfl

theorem OnlyBlock.trans {b : Nat} {s t u : State} (h1 : OnlyBlock b s t) (h2 : OnlyBlock b t u) : OnlyBlock b s u :=
  ⟨h1.1.trans h2.1, fun c hc => (h2.2 c hc).trans (h1.2 c hc)⟩

theorem OnlyTeam.trans {b n : Nat} {s t u : State} (h1 : OnlyTeam b n s t) (h2 : OnlyTeam b n t u) : OnlyTeam b n s u := by
  obtain ⟨h1, k, hk, k', hk', e, ho⟩ := h1
  obtain ⟨h2, q, hq, q', hq', e', ho'⟩ := h2
  rw [hk'] at hq
  cases hq
  refine ⟨h1.trans h2, k, hk, q', hq', ?_, fun u hu => (ho' u hu).trans (ho u hu)⟩
  generalize k'.teams = T at e
  subst e
  exact e'

/-- A block changed is the only thing that changes. -/
theorem onBlock_only (s : State) (b : Nat) (f : Block → Block) : OnlyBlock b s (onBlock s b f) := by
  refine ⟨onBlock_eq s b f, fun c hc => ?_⟩
  rw [blocks_onBlock, if_neg hc]

/-- A team changed is the only thing that changes. -/
theorem onTeam_only {s : State} {b n : Nat} {k : Block} (hk : Tbl.get s.blocks b = some k) (f : Team → Team) :
    OnlyTeam b n s (onTeam s b n f) := by
  refine ⟨onBlock_only s b _, k, hk, mapTeam k n f, ?_, mapTeam_eq k n f, fun u hu => ?_⟩
  · rw [onTeam_as_onBlock, blocks_onBlock, if_pos rfl, hk]; rfl
  · rw [teams_mapTeam, if_neg hu]

/-- A split that goes on past an instruction, as `advance` leaves it. -/
def advanced (j : Iss) (op : Op) (s : State) (p : Split) : Split :=
  { p.stepTo (j.next op) s with wd := if j.front then s.now else p.wd, wdTaken := !j.front && p.wdTaken }

/-- An issuer as it stands in a state: its block, its team with the registers it issued with, its split. -/
def Stands (j : Iss) (s : State) : Prop :=
  ∃ m k p, Tbl.get s.blocks j.b = some k ∧ Tbl.get k.teams j.t = some m ∧ teamOf s j.b j.t = some m ∧ m.regs = j.m.regs ∧
    Tbl.get m.splits j.e = some p

theorem Issues.stands {op : Op} {leaders : List Nat} {s s1 : State} {j : Iss} (h : Issues op leaders s j s1) : Stands j s1 := by
  obtain ⟨m, k, hk, hm, ht, hr, -, hp⟩ := h.team
  exact ⟨m, k, _, hk, hm, ht, hr, hp⟩

/-- The end of an instruction, whatever it writes. -/
theorem done_completes {op : Op} {s : State} {j : Iss} (h : Stands j s) {ws : List (Nat × Word)} {dest : Nat → Nat → Option Word}
    (hws : Writes ws dest) (fl : BitVec 8) : Completed op j dest fl s (j.done op s j.lanes ws fl) := by
  obtain ⟨m, k, p, hk, hm, ht, hr, hp⟩ := h
  have h1 : OnlyTeam j.b j.t s (onTeam s j.b j.t (j.finish op j.lanes ws fl)) := onTeam_only hk _
  obtain ⟨-, -, -, k', hk', -⟩ := id h1
  refine ⟨h1.trans (onTeam_only hk' _), m, p, ht, hp, { j.finish op j.lanes ws fl m with
    splits := Tbl.put m.splits j.e (advanced j op s p) }, advanced j op s p, ?_, rfl, ?_, ?_, ?_, ?_, ?_⟩
  · rw [Iss.done, Iss.advance, onSplit, teamOf_onTeam, teamOf_onTeam, ht]
    simp only [Option.map_some, Iss.finish, hp, onTeam_tick, onTeam_now, advanced, Split.stepTo]
  · intro r l hl
    have := hws.mem r l hl
    simp only [Iss.finish, List.mem_filter, Bool.not_eq_true', List.any_eq_false, decide_eq_true_eq]
    refine and_congr_right (fun _ => ?_)
    rw [← not_iff_not, ← ne_eq, ← this]
    simp
  · intro r l hl
    show Sparse.get (applyWrites (stepLanes (op.xNamed.map j.xreg) j.lanes m.regs) ws) _ = _
    rw [hws.get _ _ _ hl, hr, get_steps _ _ _ _ hl]
  · exact Tbl.get_put_same ..
  · intro e he
    exact Tbl.get_put_other _ _ he
  · exact ⟨rfl, rfl, rfl, rfl, rfl, rfl, rfl, by simp [advanced, Split.stepTo]⟩

/-- An instruction that writes no register completes. -/
theorem plain_completes {op : Op} {s : State} {j : Iss} (h : Stands j s) : PlainDone op j s (j.plain op s) :=
  done_completes h writes_none 0

/-- No lane traps where none raises an enabled flag. -/
theorem fpTrap_none {en : BitVec 8} : ∀ {outs : List (Nat × LaneOut)}, (∀ c ∈ outs, c.2.fl &&& en = 0) → fpTrap en outs = none := by
  intro outs
  induction outs with
  | nil => intro _; rfl
  | cons c r ih =>
    obtain ⟨l, o⟩ := c
    intro h
    have h0 : o.fl &&& en = 0 := h (l, o) (List.mem_cons_self ..)
    simp only [fpTrap, h0, ne_eq, not_true_eq_false, if_false]
    exact ih (fun c hc => h c (List.mem_cons_of_mem _ hc))

theorem NoFpTrap.none {j : Iss} {f : Nat → LaneOut} (h : NoFpTrap j f) : fpTrap (fpenMask j.m) (j.outs f) = none := by
  apply fpTrap_none
  intro c hc
  obtain ⟨l, hl, rfl⟩ := List.mem_map.mp hc
  exact h l hl

/-- The shared completion of an instruction with one result per lane (R157). -/
theorem complete_completes {op : Op} {s : State} {j : Iss} (h : Stands j s) (f : Nat → LaneOut) (hf : NoFpTrap j f) :
    LanesDone op j f s (j.complete op s f) := by
  unfold Iss.complete
  rw [hf.none]
  exact done_completes h (writes_outs op j f) _

/-- Every instruction that computes one value per lane completes. -/
theorem laneOp_computes (op : Op) (f : Iss → Op → Nat → LaneOut) : Computes (fun s => laneOp op s f) op f := by
  intro s j s1 h hf
  exact ⟨_, h.run _, complete_completes h.stands _ hf⟩

end Sys2Proof
end

