-- ==== Sys2Proof/Laws/PerInstr.lean ====
section
/-! SUPPORT. PerInstr: for each instruction, that the tables which decode give back its constructor from how it is coded (09 R226, 16 R350, 23
R433). -/

namespace Sys2Proof.Laws.Coding

open Sys2Proof Sys2Proof.Machine

/-- Every minor of a row is below 16 and has the given form. -/
def Forms (form : Nat → Option Instr) (i : Instr) : List Nat → Prop
  | [] => True
  | f :: r => (f < 16 ∧ form f = some i) ∧ Forms form i r

/-- The forms of a row, one minor at a time. -/
theorem Forms.of_mem {form : Nat → Option Instr} {i : Instr} : ∀ {l : List Nat}, Forms form i l → ∀ f ∈ l, f < 16 ∧ form f = some i
  | _ :: _, h, f, hf => (List.mem_cons.1 hf).elim (fun e => e ▸ h.1) (fun m => Forms.of_mem h.2 f m)

/-- The tables of the decoder give the instruction back from its coding. -/
def Statement (i : Instr) : Prop :=
  match codedOf i with
  | .c16 op o => op < 16 ∧ formC op o = i
  | .w32 major minors o => major < 256 ∧ Forms (fun f => (formW major f).map (fun k => k o)) i minors
  | .l64 major minors o => major < 256 ∧ Forms (fun f => (formL major f).map (fun k => k o)) i minors
  | .fuset op o => op < 256 ∧ (formFuset op).map (fun k => k o) = some i
  | .command op c => op < 256 ∧ formCommand op c = i
  | .event => True

theorem nopC16 (o : COps) : Statement (.nopC16 o) := ⟨by decide, rfl⟩
theorem nopW32 (o : WOps) : Statement (.nopW32 o) := ⟨by decide, ⟨⟨by decide, rfl⟩, trivial⟩⟩
theorem nopL64 (o : LOps) : Statement (.nopL64 o) := ⟨by decide, ⟨⟨by decide, rfl⟩, trivial⟩⟩
theorem movC16 (o : COps) : Statement (.movC16 o) := ⟨by decide, rfl⟩
theorem movW32 (o : WOps) : Statement (.movW32 o) := ⟨by decide, ⟨⟨by decide, rfl⟩, trivial⟩⟩
theorem movL64 (o : LOps) : Statement (.movL64 o) := ⟨by decide, ⟨⟨by decide, rfl⟩, trivial⟩⟩
theorem iaddC16 (o : COps) : Statement (.iaddC16 o) := ⟨by decide, rfl⟩
theorem iaddW32 (o : WOps) : Statement (.iaddW32 o) := ⟨by decide, ⟨⟨by decide, rfl⟩, ⟨⟨by decide, rfl⟩, ⟨⟨by decide, rfl⟩, trivial⟩⟩⟩⟩
theorem iaddL64 (o : LOps) : Statement (.iaddL64 o) := ⟨by decide, ⟨⟨by decide, rfl⟩, ⟨⟨by decide, rfl⟩, ⟨⟨by decide, rfl⟩, trivial⟩⟩⟩⟩
theorem isubC16 (o : COps) : Statement (.isubC16 o) := ⟨by decide, rfl⟩
theorem isubW32 (o : WOps) : Statement (.isubW32 o) := ⟨by decide, ⟨⟨by decide, rfl⟩, ⟨⟨by decide, rfl⟩, ⟨⟨by decide, rfl⟩, trivial⟩⟩⟩⟩
theorem isubL64 (o : LOps) : Statement (.isubL64 o) := ⟨by decide, ⟨⟨by decide, rfl⟩, ⟨⟨by decide, rfl⟩, ⟨⟨by decide, rfl⟩, trivial⟩⟩⟩⟩
theorem imulC16 (o : COps) : Statement (.imulC16 o) := ⟨by decide, rfl⟩
theorem imulW32 (o : WOps) : Statement (.imulW32 o) := ⟨by decide, ⟨⟨by decide, rfl⟩, ⟨⟨by decide, rfl⟩, ⟨⟨by decide, rfl⟩, trivial⟩⟩⟩⟩
theorem imulL64 (o : LOps) : Statement (.imulL64 o) := ⟨by decide, ⟨⟨by decide, rfl⟩, ⟨⟨by decide, rfl⟩, ⟨⟨by decide, rfl⟩, trivial⟩⟩⟩⟩
theorem imad (o : LOps) : Statement (.imad o) := ⟨by decide, ⟨⟨by decide, rfl⟩, ⟨⟨by decide, rfl⟩, ⟨⟨by decide, rfl⟩, trivial⟩⟩⟩⟩
theorem idivW32 (o : WOps) : Statement (.idivW32 o) := ⟨by decide, ⟨⟨by decide, rfl⟩, ⟨⟨by decide, rfl⟩, trivial⟩⟩⟩
theorem idivL64 (o : LOps) : Statement (.idivL64 o) := ⟨by decide, ⟨⟨by decide, rfl⟩, ⟨⟨by decide, rfl⟩, trivial⟩⟩⟩
theorem iremW32 (o : WOps) : Statement (.iremW32 o) := ⟨by decide, ⟨⟨by decide, rfl⟩, ⟨⟨by decide, rfl⟩, trivial⟩⟩⟩
theorem iremL64 (o : LOps) : Statement (.iremL64 o) := ⟨by decide, ⟨⟨by decide, rfl⟩, ⟨⟨by decide, rfl⟩, trivial⟩⟩⟩
theorem iminW32 (o : WOps) : Statement (.iminW32 o) := ⟨by decide, ⟨⟨by decide, rfl⟩, ⟨⟨by decide, rfl⟩, trivial⟩⟩⟩
theorem iminL64 (o : LOps) : Statement (.iminL64 o) := ⟨by decide, ⟨⟨by decide, rfl⟩, ⟨⟨by decide, rfl⟩, trivial⟩⟩⟩
theorem imaxW32 (o : WOps) : Statement (.imaxW32 o) := ⟨by decide, ⟨⟨by decide, rfl⟩, ⟨⟨by decide, rfl⟩, trivial⟩⟩⟩
theorem imaxL64 (o : LOps) : Statement (.imaxL64 o) := ⟨by decide, ⟨⟨by decide, rfl⟩, ⟨⟨by decide, rfl⟩, trivial⟩⟩⟩
theorem icmpW32 (o : WOps) : Statement (.icmpW32 o) := ⟨by decide, ⟨⟨by decide, rfl⟩, ⟨⟨by decide, rfl⟩, ⟨⟨by decide, rfl⟩, ⟨⟨by decide, rfl⟩, ⟨⟨by decide, rfl⟩, ⟨⟨by decide, rfl⟩, ⟨⟨by decide, rfl⟩, ⟨⟨by decide, rfl⟩, ⟨⟨by decide, rfl⟩, ⟨⟨by decide, rfl⟩, trivial⟩⟩⟩⟩⟩⟩⟩⟩⟩⟩⟩
theorem icmpL64 (o : LOps) : Statement (.icmpL64 o) := ⟨by decide, ⟨⟨by decide, rfl⟩, ⟨⟨by decide, rfl⟩, ⟨⟨by decide, rfl⟩, ⟨⟨by decide, rfl⟩, ⟨⟨by decide, rfl⟩, ⟨⟨by decide, rfl⟩, ⟨⟨by decide, rfl⟩, ⟨⟨by decide, rfl⟩, ⟨⟨by decide, rfl⟩, ⟨⟨by decide, rfl⟩, trivial⟩⟩⟩⟩⟩⟩⟩⟩⟩⟩⟩
theorem sel (o : LOps) : Statement (.sel o) := ⟨by decide, ⟨⟨by decide, rfl⟩, trivial⟩⟩
theorem andC16 (o : COps) : Statement (.andC16 o) := ⟨by decide, rfl⟩
theorem andW32 (o : WOps) : Statement (.andW32 o) := ⟨by decide, ⟨⟨by decide, rfl⟩, trivial⟩⟩
theorem andL64 (o : LOps) : Statement (.andL64 o) := ⟨by decide, ⟨⟨by decide, rfl⟩, trivial⟩⟩
theorem orC16 (o : COps) : Statement (.orC16 o) := ⟨by decide, rfl⟩
theorem orW32 (o : WOps) : Statement (.orW32 o) := ⟨by decide, ⟨⟨by decide, rfl⟩, trivial⟩⟩
theorem orL64 (o : LOps) : Statement (.orL64 o) := ⟨by decide, ⟨⟨by decide, rfl⟩, trivial⟩⟩
theorem xorC16 (o : COps) : Statement (.xorC16 o) := ⟨by decide, rfl⟩
theorem xorW32 (o : WOps) : Statement (.xorW32 o) := ⟨by decide, ⟨⟨by decide, rfl⟩, trivial⟩⟩
theorem xorL64 (o : LOps) : Statement (.xorL64 o) := ⟨by decide, ⟨⟨by decide, rfl⟩, trivial⟩⟩
theorem andnW32 (o : WOps) : Statement (.andnW32 o) := ⟨by decide, ⟨⟨by decide, rfl⟩, trivial⟩⟩
theorem andnL64 (o : LOps) : Statement (.andnL64 o) := ⟨by decide, ⟨⟨by decide, rfl⟩, trivial⟩⟩
theorem ornW32 (o : WOps) : Statement (.ornW32 o) := ⟨by decide, ⟨⟨by decide, rfl⟩, trivial⟩⟩
theorem ornL64 (o : LOps) : Statement (.ornL64 o) := ⟨by decide, ⟨⟨by decide, rfl⟩, trivial⟩⟩
theorem xnorW32 (o : WOps) : Statement (.xnorW32 o) := ⟨by decide, ⟨⟨by decide, rfl⟩, trivial⟩⟩
theorem xnorL64 (o : LOps) : Statement (.xnorL64 o) := ⟨by decide, ⟨⟨by decide, rfl⟩, trivial⟩⟩
theorem notW32 (o : WOps) : Statement (.notW32 o) := ⟨by decide, ⟨⟨by decide, rfl⟩, trivial⟩⟩
theorem notL64 (o : LOps) : Statement (.notL64 o) := ⟨by decide, ⟨⟨by decide, rfl⟩, trivial⟩⟩
theorem shlC16 (o : COps) : Statement (.shlC16 o) := ⟨by decide, rfl⟩
theorem shlW32 (o : WOps) : Statement (.shlW32 o) := ⟨by decide, ⟨⟨by decide, rfl⟩, trivial⟩⟩
theorem shlL64 (o : LOps) : Statement (.shlL64 o) := ⟨by decide, ⟨⟨by decide, rfl⟩, trivial⟩⟩
theorem shrlC16 (o : COps) : Statement (.shrlC16 o) := ⟨by decide, rfl⟩
theorem shrlW32 (o : WOps) : Statement (.shrlW32 o) := ⟨by decide, ⟨⟨by decide, rfl⟩, trivial⟩⟩
theorem shrlL64 (o : LOps) : Statement (.shrlL64 o) := ⟨by decide, ⟨⟨by decide, rfl⟩, trivial⟩⟩
theorem shraC16 (o : COps) : Statement (.shraC16 o) := ⟨by decide, rfl⟩
theorem shraW32 (o : WOps) : Statement (.shraW32 o) := ⟨by decide, ⟨⟨by decide, rfl⟩, trivial⟩⟩
theorem shraL64 (o : LOps) : Statement (.shraL64 o) := ⟨by decide, ⟨⟨by decide, rfl⟩, trivial⟩⟩
theorem rotlW32 (o : WOps) : Statement (.rotlW32 o) := ⟨by decide, ⟨⟨by decide, rfl⟩, trivial⟩⟩
theorem rotlL64 (o : LOps) : Statement (.rotlL64 o) := ⟨by decide, ⟨⟨by decide, rfl⟩, trivial⟩⟩
theorem rotrW32 (o : WOps) : Statement (.rotrW32 o) := ⟨by decide, ⟨⟨by decide, rfl⟩, trivial⟩⟩
theorem rotrL64 (o : LOps) : Statement (.rotrL64 o) := ⟨by decide, ⟨⟨by decide, rfl⟩, trivial⟩⟩
theorem shf (o : LOps) : Statement (.shf o) := ⟨by decide, ⟨⟨by decide, rfl⟩, ⟨⟨by decide, rfl⟩, trivial⟩⟩⟩
theorem bfeW32 (o : WOps) : Statement (.bfeW32 o) := ⟨by decide, ⟨⟨by decide, rfl⟩, ⟨⟨by decide, rfl⟩, trivial⟩⟩⟩
theorem bfeL64 (o : LOps) : Statement (.bfeL64 o) := ⟨by decide, ⟨⟨by decide, rfl⟩, ⟨⟨by decide, rfl⟩, trivial⟩⟩⟩
theorem bfi (o : LOps) : Statement (.bfi o) := ⟨by decide, ⟨⟨by decide, rfl⟩, trivial⟩⟩
theorem popcW32 (o : WOps) : Statement (.popcW32 o) := ⟨by decide, ⟨⟨by decide, rfl⟩, trivial⟩⟩
theorem popcL64 (o : LOps) : Statement (.popcL64 o) := ⟨by decide, ⟨⟨by decide, rfl⟩, trivial⟩⟩
theorem clzW32 (o : WOps) : Statement (.clzW32 o) := ⟨by decide, ⟨⟨by decide, rfl⟩, trivial⟩⟩
theorem clzL64 (o : LOps) : Statement (.clzL64 o) := ⟨by decide, ⟨⟨by decide, rfl⟩, trivial⟩⟩
theorem ctzW32 (o : WOps) : Statement (.ctzW32 o) := ⟨by decide, ⟨⟨by decide, rfl⟩, trivial⟩⟩
theorem ctzL64 (o : LOps) : Statement (.ctzL64 o) := ⟨by decide, ⟨⟨by decide, rfl⟩, trivial⟩⟩
theorem brevW32 (o : WOps) : Statement (.brevW32 o) := ⟨by decide, ⟨⟨by decide, rfl⟩, trivial⟩⟩
theorem brevL64 (o : LOps) : Statement (.brevL64 o) := ⟨by decide, ⟨⟨by decide, rfl⟩, trivial⟩⟩
theorem iabsW32 (o : WOps) : Statement (.iabsW32 o) := ⟨by decide, ⟨⟨by decide, rfl⟩, trivial⟩⟩
theorem iabsL64 (o : LOps) : Statement (.iabsL64 o) := ⟨by decide, ⟨⟨by decide, rfl⟩, trivial⟩⟩
theorem inegW32 (o : WOps) : Statement (.inegW32 o) := ⟨by decide, ⟨⟨by decide, rfl⟩, trivial⟩⟩
theorem inegL64 (o : LOps) : Statement (.inegL64 o) := ⟨by decide, ⟨⟨by decide, rfl⟩, trivial⟩⟩
theorem add64W32 (o : WOps) : Statement (.add64W32 o) := ⟨by decide, ⟨⟨by decide, rfl⟩, trivial⟩⟩
theorem add64L64 (o : LOps) : Statement (.add64L64 o) := ⟨by decide, ⟨⟨by decide, rfl⟩, trivial⟩⟩
theorem sub64W32 (o : WOps) : Statement (.sub64W32 o) := ⟨by decide, ⟨⟨by decide, rfl⟩, trivial⟩⟩
theorem sub64L64 (o : LOps) : Statement (.sub64L64 o) := ⟨by decide, ⟨⟨by decide, rfl⟩, trivial⟩⟩
theorem leaW32 (o : WOps) : Statement (.leaW32 o) := ⟨by decide, ⟨⟨by decide, rfl⟩, ⟨⟨by decide, rfl⟩, ⟨⟨by decide, rfl⟩, ⟨⟨by decide, rfl⟩, ⟨⟨by decide, rfl⟩, trivial⟩⟩⟩⟩⟩⟩
theorem leaL64 (o : LOps) : Statement (.leaL64 o) := ⟨by decide, ⟨⟨by decide, rfl⟩, ⟨⟨by decide, rfl⟩, ⟨⟨by decide, rfl⟩, ⟨⟨by decide, rfl⟩, ⟨⟨by decide, rfl⟩, trivial⟩⟩⟩⟩⟩⟩
theorem shl64W32 (o : WOps) : Statement (.shl64W32 o) := ⟨by decide, ⟨⟨by decide, rfl⟩, trivial⟩⟩
theorem shl64L64 (o : LOps) : Statement (.shl64L64 o) := ⟨by decide, ⟨⟨by decide, rfl⟩, trivial⟩⟩
theorem shr64W32 (o : WOps) : Statement (.shr64W32 o) := ⟨by decide, ⟨⟨by decide, rfl⟩, trivial⟩⟩
theorem shr64L64 (o : LOps) : Statement (.shr64L64 o) := ⟨by decide, ⟨⟨by decide, rfl⟩, trivial⟩⟩
theorem cmp64W32 (o : WOps) : Statement (.cmp64W32 o) := ⟨by decide, ⟨⟨by decide, rfl⟩, ⟨⟨by decide, rfl⟩, ⟨⟨by decide, rfl⟩, ⟨⟨by decide, rfl⟩, ⟨⟨by decide, rfl⟩, ⟨⟨by decide, rfl⟩, trivial⟩⟩⟩⟩⟩⟩⟩
theorem cmp64L64 (o : LOps) : Statement (.cmp64L64 o) := ⟨by decide, ⟨⟨by decide, rfl⟩, ⟨⟨by decide, rfl⟩, ⟨⟨by decide, rfl⟩, ⟨⟨by decide, rfl⟩, ⟨⟨by decide, rfl⟩, ⟨⟨by decide, rfl⟩, trivial⟩⟩⟩⟩⟩⟩⟩
theorem bysel (o : LOps) : Statement (.bysel o) := ⟨by decide, ⟨⟨by decide, rfl⟩, trivial⟩⟩
theorem idot4 (o : LOps) : Statement (.idot4 o) := ⟨by decide, ⟨⟨by decide, rfl⟩, ⟨⟨by decide, rfl⟩, trivial⟩⟩⟩
theorem faddC16 (o : COps) : Statement (.faddC16 o) := ⟨by decide, rfl⟩
theorem faddW32 (o : WOps) : Statement (.faddW32 o) := ⟨by decide, ⟨⟨by decide, rfl⟩, ⟨⟨by decide, rfl⟩, ⟨⟨by decide, rfl⟩, trivial⟩⟩⟩⟩
theorem faddL64 (o : LOps) : Statement (.faddL64 o) := ⟨by decide, ⟨⟨by decide, rfl⟩, ⟨⟨by decide, rfl⟩, ⟨⟨by decide, rfl⟩, trivial⟩⟩⟩⟩
theorem fsubC16 (o : COps) : Statement (.fsubC16 o) := ⟨by decide, rfl⟩
theorem fsubW32 (o : WOps) : Statement (.fsubW32 o) := ⟨by decide, ⟨⟨by decide, rfl⟩, ⟨⟨by decide, rfl⟩, ⟨⟨by decide, rfl⟩, trivial⟩⟩⟩⟩
theorem fsubL64 (o : LOps) : Statement (.fsubL64 o) := ⟨by decide, ⟨⟨by decide, rfl⟩, ⟨⟨by decide, rfl⟩, ⟨⟨by decide, rfl⟩, trivial⟩⟩⟩⟩
theorem fmulC16 (o : COps) : Statement (.fmulC16 o) := ⟨by decide, rfl⟩
theorem fmulW32 (o : WOps) : Statement (.fmulW32 o) := ⟨by decide, ⟨⟨by decide, rfl⟩, ⟨⟨by decide, rfl⟩, ⟨⟨by decide, rfl⟩, trivial⟩⟩⟩⟩
theorem fmulL64 (o : LOps) : Statement (.fmulL64 o) := ⟨by decide, ⟨⟨by decide, rfl⟩, ⟨⟨by decide, rfl⟩, ⟨⟨by decide, rfl⟩, trivial⟩⟩⟩⟩
theorem ffma (o : LOps) : Statement (.ffma o) := ⟨by decide, ⟨⟨by decide, rfl⟩, ⟨⟨by decide, rfl⟩, ⟨⟨by decide, rfl⟩, trivial⟩⟩⟩⟩
theorem fminC16 (o : COps) : Statement (.fminC16 o) := ⟨by decide, rfl⟩
theorem fminW32 (o : WOps) : Statement (.fminW32 o) := ⟨by decide, ⟨⟨by decide, rfl⟩, trivial⟩⟩
theorem fminL64 (o : LOps) : Statement (.fminL64 o) := ⟨by decide, ⟨⟨by decide, rfl⟩, trivial⟩⟩
theorem fmaxC16 (o : COps) : Statement (.fmaxC16 o) := ⟨by decide, rfl⟩
theorem fmaxW32 (o : WOps) : Statement (.fmaxW32 o) := ⟨by decide, ⟨⟨by decide, rfl⟩, trivial⟩⟩
theorem fmaxL64 (o : LOps) : Statement (.fmaxL64 o) := ⟨by decide, ⟨⟨by decide, rfl⟩, trivial⟩⟩
theorem fminpW32 (o : WOps) : Statement (.fminpW32 o) := ⟨by decide, ⟨⟨by decide, rfl⟩, trivial⟩⟩
theorem fminpL64 (o : LOps) : Statement (.fminpL64 o) := ⟨by decide, ⟨⟨by decide, rfl⟩, trivial⟩⟩
theorem fmaxpW32 (o : WOps) : Statement (.fmaxpW32 o) := ⟨by decide, ⟨⟨by decide, rfl⟩, trivial⟩⟩
theorem fmaxpL64 (o : LOps) : Statement (.fmaxpL64 o) := ⟨by decide, ⟨⟨by decide, rfl⟩, trivial⟩⟩
theorem fcmpW32 (o : WOps) : Statement (.fcmpW32 o) := ⟨by decide, ⟨⟨by decide, rfl⟩, ⟨⟨by decide, rfl⟩, ⟨⟨by decide, rfl⟩, ⟨⟨by decide, rfl⟩, ⟨⟨by decide, rfl⟩, ⟨⟨by decide, rfl⟩, ⟨⟨by decide, rfl⟩, ⟨⟨by decide, rfl⟩, trivial⟩⟩⟩⟩⟩⟩⟩⟩⟩
theorem fcmpL64 (o : LOps) : Statement (.fcmpL64 o) := ⟨by decide, ⟨⟨by decide, rfl⟩, ⟨⟨by decide, rfl⟩, ⟨⟨by decide, rfl⟩, ⟨⟨by decide, rfl⟩, ⟨⟨by decide, rfl⟩, ⟨⟨by decide, rfl⟩, ⟨⟨by decide, rfl⟩, ⟨⟨by decide, rfl⟩, trivial⟩⟩⟩⟩⟩⟩⟩⟩⟩
theorem fabsW32 (o : WOps) : Statement (.fabsW32 o) := ⟨by decide, ⟨⟨by decide, rfl⟩, trivial⟩⟩
theorem fabsL64 (o : LOps) : Statement (.fabsL64 o) := ⟨by decide, ⟨⟨by decide, rfl⟩, trivial⟩⟩
theorem fnegW32 (o : WOps) : Statement (.fnegW32 o) := ⟨by decide, ⟨⟨by decide, rfl⟩, trivial⟩⟩
theorem fnegL64 (o : LOps) : Statement (.fnegL64 o) := ⟨by decide, ⟨⟨by decide, rfl⟩, trivial⟩⟩
theorem fcpysW32 (o : WOps) : Statement (.fcpysW32 o) := ⟨by decide, ⟨⟨by decide, rfl⟩, trivial⟩⟩
theorem fcpysL64 (o : LOps) : Statement (.fcpysL64 o) := ⟨by decide, ⟨⟨by decide, rfl⟩, trivial⟩⟩
theorem fdivW32 (o : WOps) : Statement (.fdivW32 o) := ⟨by decide, ⟨⟨by decide, rfl⟩, trivial⟩⟩
theorem fdivL64 (o : LOps) : Statement (.fdivL64 o) := ⟨by decide, ⟨⟨by decide, rfl⟩, trivial⟩⟩
theorem fsqrtW32 (o : WOps) : Statement (.fsqrtW32 o) := ⟨by decide, ⟨⟨by decide, rfl⟩, trivial⟩⟩
theorem fsqrtL64 (o : LOps) : Statement (.fsqrtL64 o) := ⟨by decide, ⟨⟨by decide, rfl⟩, trivial⟩⟩
theorem fclassW32 (o : WOps) : Statement (.fclassW32 o) := ⟨by decide, ⟨⟨by decide, rfl⟩, trivial⟩⟩
theorem fclassL64 (o : LOps) : Statement (.fclassL64 o) := ⟨by decide, ⟨⟨by decide, rfl⟩, trivial⟩⟩
theorem frndW32 (o : WOps) : Statement (.frndW32 o) := ⟨by decide, ⟨⟨by decide, rfl⟩, trivial⟩⟩
theorem frndL64 (o : LOps) : Statement (.frndL64 o) := ⟨by decide, ⟨⟨by decide, rfl⟩, trivial⟩⟩
theorem fscaleW32 (o : WOps) : Statement (.fscaleW32 o) := ⟨by decide, ⟨⟨by decide, rfl⟩, trivial⟩⟩
theorem fscaleL64 (o : LOps) : Statement (.fscaleL64 o) := ⟨by decide, ⟨⟨by decide, rfl⟩, trivial⟩⟩
theorem fdot2 (o : LOps) : Statement (.fdot2 o) := ⟨by decide, ⟨⟨by decide, rfl⟩, ⟨⟨by decide, rfl⟩, trivial⟩⟩⟩
theorem cvtW32 (o : WOps) : Statement (.cvtW32 o) := ⟨by decide, ⟨⟨by decide, rfl⟩, ⟨⟨by decide, rfl⟩, ⟨⟨by decide, rfl⟩, ⟨⟨by decide, rfl⟩, ⟨⟨by decide, rfl⟩, ⟨⟨by decide, rfl⟩, ⟨⟨by decide, rfl⟩, ⟨⟨by decide, rfl⟩, ⟨⟨by decide, rfl⟩, ⟨⟨by decide, rfl⟩, ⟨⟨by decide, rfl⟩, ⟨⟨by decide, rfl⟩, ⟨⟨by decide, rfl⟩, ⟨⟨by decide, rfl⟩, trivial⟩⟩⟩⟩⟩⟩⟩⟩⟩⟩⟩⟩⟩⟩⟩
theorem cvtL64 (o : LOps) : Statement (.cvtL64 o) := ⟨by decide, ⟨⟨by decide, rfl⟩, ⟨⟨by decide, rfl⟩, ⟨⟨by decide, rfl⟩, ⟨⟨by decide, rfl⟩, ⟨⟨by decide, rfl⟩, ⟨⟨by decide, rfl⟩, ⟨⟨by decide, rfl⟩, ⟨⟨by decide, rfl⟩, ⟨⟨by decide, rfl⟩, ⟨⟨by decide, rfl⟩, ⟨⟨by decide, rfl⟩, ⟨⟨by decide, rfl⟩, ⟨⟨by decide, rfl⟩, ⟨⟨by decide, rfl⟩, trivial⟩⟩⟩⟩⟩⟩⟩⟩⟩⟩⟩⟩⟩⟩⟩
theorem pack8W32 (o : WOps) : Statement (.pack8W32 o) := ⟨by decide, ⟨⟨by decide, rfl⟩, ⟨⟨by decide, rfl⟩, trivial⟩⟩⟩
theorem pack8L64 (o : LOps) : Statement (.pack8L64 o) := ⟨by decide, ⟨⟨by decide, rfl⟩, ⟨⟨by decide, rfl⟩, trivial⟩⟩⟩
theorem unpk8W32 (o : WOps) : Statement (.unpk8W32 o) := ⟨by decide, ⟨⟨by decide, rfl⟩, ⟨⟨by decide, rfl⟩, trivial⟩⟩⟩
theorem unpk8L64 (o : LOps) : Statement (.unpk8L64 o) := ⟨by decide, ⟨⟨by decide, rfl⟩, ⟨⟨by decide, rfl⟩, trivial⟩⟩⟩
theorem pack4W32 (o : WOps) : Statement (.pack4W32 o) := ⟨by decide, ⟨⟨by decide, rfl⟩, trivial⟩⟩
theorem pack4L64 (o : LOps) : Statement (.pack4L64 o) := ⟨by decide, ⟨⟨by decide, rfl⟩, trivial⟩⟩
theorem unpk4W32 (o : WOps) : Statement (.unpk4W32 o) := ⟨by decide, ⟨⟨by decide, rfl⟩, trivial⟩⟩
theorem unpk4L64 (o : LOps) : Statement (.unpk4L64 o) := ⟨by decide, ⟨⟨by decide, rfl⟩, trivial⟩⟩
theorem bqscalW32 (o : WOps) : Statement (.bqscalW32 o) := ⟨by decide, ⟨⟨by decide, rfl⟩, ⟨⟨by decide, rfl⟩, trivial⟩⟩⟩
theorem bqscalL64 (o : LOps) : Statement (.bqscalL64 o) := ⟨by decide, ⟨⟨by decide, rfl⟩, ⟨⟨by decide, rfl⟩, trivial⟩⟩⟩
theorem bqencW32 (o : WOps) : Statement (.bqencW32 o) := ⟨by decide, ⟨⟨by decide, rfl⟩, ⟨⟨by decide, rfl⟩, trivial⟩⟩⟩
theorem bqencL64 (o : LOps) : Statement (.bqencL64 o) := ⟨by decide, ⟨⟨by decide, rfl⟩, ⟨⟨by decide, rfl⟩, trivial⟩⟩⟩
theorem bqdecW32 (o : WOps) : Statement (.bqdecW32 o) := ⟨by decide, ⟨⟨by decide, rfl⟩, ⟨⟨by decide, rfl⟩, trivial⟩⟩⟩
theorem bqdecL64 (o : LOps) : Statement (.bqdecL64 o) := ⟨by decide, ⟨⟨by decide, rfl⟩, ⟨⟨by decide, rfl⟩, trivial⟩⟩⟩
theorem mxscalW32 (o : WOps) : Statement (.mxscalW32 o) := ⟨by decide, ⟨⟨by decide, rfl⟩, trivial⟩⟩
theorem mxscalL64 (o : LOps) : Statement (.mxscalL64 o) := ⟨by decide, ⟨⟨by decide, rfl⟩, trivial⟩⟩
theorem shflW32 (o : WOps) : Statement (.shflW32 o) := ⟨by decide, ⟨⟨by decide, rfl⟩, ⟨⟨by decide, rfl⟩, ⟨⟨by decide, rfl⟩, ⟨⟨by decide, rfl⟩, trivial⟩⟩⟩⟩⟩
theorem shflL64 (o : LOps) : Statement (.shflL64 o) := ⟨by decide, ⟨⟨by decide, rfl⟩, ⟨⟨by decide, rfl⟩, ⟨⟨by decide, rfl⟩, ⟨⟨by decide, rfl⟩, trivial⟩⟩⟩⟩⟩
theorem voteW32 (o : WOps) : Statement (.voteW32 o) := ⟨by decide, ⟨⟨by decide, rfl⟩, ⟨⟨by decide, rfl⟩, ⟨⟨by decide, rfl⟩, ⟨⟨by decide, rfl⟩, ⟨⟨by decide, rfl⟩, trivial⟩⟩⟩⟩⟩⟩
theorem voteL64 (o : LOps) : Statement (.voteL64 o) := ⟨by decide, ⟨⟨by decide, rfl⟩, ⟨⟨by decide, rfl⟩, ⟨⟨by decide, rfl⟩, ⟨⟨by decide, rfl⟩, ⟨⟨by decide, rfl⟩, trivial⟩⟩⟩⟩⟩⟩
theorem reduxW32 (o : WOps) : Statement (.reduxW32 o) := ⟨by decide, ⟨⟨by decide, rfl⟩, ⟨⟨by decide, rfl⟩, ⟨⟨by decide, rfl⟩, ⟨⟨by decide, rfl⟩, ⟨⟨by decide, rfl⟩, ⟨⟨by decide, rfl⟩, ⟨⟨by decide, rfl⟩, ⟨⟨by decide, rfl⟩, trivial⟩⟩⟩⟩⟩⟩⟩⟩⟩
theorem reduxL64 (o : LOps) : Statement (.reduxL64 o) := ⟨by decide, ⟨⟨by decide, rfl⟩, ⟨⟨by decide, rfl⟩, ⟨⟨by decide, rfl⟩, ⟨⟨by decide, rfl⟩, ⟨⟨by decide, rfl⟩, ⟨⟨by decide, rfl⟩, ⟨⟨by decide, rfl⟩, ⟨⟨by decide, rfl⟩, trivial⟩⟩⟩⟩⟩⟩⟩⟩⟩
theorem scanW32 (o : WOps) : Statement (.scanW32 o) := ⟨by decide, ⟨⟨by decide, rfl⟩, ⟨⟨by decide, rfl⟩, ⟨⟨by decide, rfl⟩, ⟨⟨by decide, rfl⟩, trivial⟩⟩⟩⟩⟩
theorem scanL64 (o : LOps) : Statement (.scanL64 o) := ⟨by decide, ⟨⟨by decide, rfl⟩, ⟨⟨by decide, rfl⟩, ⟨⟨by decide, rfl⟩, ⟨⟨by decide, rfl⟩, trivial⟩⟩⟩⟩⟩
theorem getsW32 (o : WOps) : Statement (.getsW32 o) := ⟨by decide, ⟨⟨by decide, rfl⟩, trivial⟩⟩
theorem getsL64 (o : LOps) : Statement (.getsL64 o) := ⟨by decide, ⟨⟨by decide, rfl⟩, trivial⟩⟩
theorem actW32 (o : WOps) : Statement (.actW32 o) := ⟨by decide, ⟨⟨by decide, rfl⟩, trivial⟩⟩
theorem actL64 (o : LOps) : Statement (.actL64 o) := ⟨by decide, ⟨⟨by decide, rfl⟩, trivial⟩⟩
theorem maskwW32 (o : WOps) : Statement (.maskwW32 o) := ⟨by decide, ⟨⟨by decide, rfl⟩, trivial⟩⟩
theorem maskwL64 (o : LOps) : Statement (.maskwL64 o) := ⟨by decide, ⟨⟨by decide, rfl⟩, trivial⟩⟩
theorem bcastW32 (o : WOps) : Statement (.bcastW32 o) := ⟨by decide, ⟨⟨by decide, rfl⟩, trivial⟩⟩
theorem bcastL64 (o : LOps) : Statement (.bcastL64 o) := ⟨by decide, ⟨⟨by decide, rfl⟩, trivial⟩⟩
theorem ldW32 (o : WOps) : Statement (.ldW32 o) := ⟨by decide, ⟨⟨by decide, rfl⟩, ⟨⟨by decide, rfl⟩, ⟨⟨by decide, rfl⟩, ⟨⟨by decide, rfl⟩, ⟨⟨by decide, rfl⟩, ⟨⟨by decide, rfl⟩, ⟨⟨by decide, rfl⟩, trivial⟩⟩⟩⟩⟩⟩⟩⟩
theorem ldL64 (o : LOps) : Statement (.ldL64 o) := ⟨by decide, ⟨⟨by decide, rfl⟩, ⟨⟨by decide, rfl⟩, ⟨⟨by decide, rfl⟩, ⟨⟨by decide, rfl⟩, ⟨⟨by decide, rfl⟩, ⟨⟨by decide, rfl⟩, ⟨⟨by decide, rfl⟩, trivial⟩⟩⟩⟩⟩⟩⟩⟩
theorem st (o : LOps) : Statement (.st o) := ⟨by decide, ⟨⟨by decide, rfl⟩, ⟨⟨by decide, rfl⟩, ⟨⟨by decide, rfl⟩, ⟨⟨by decide, rfl⟩, ⟨⟨by decide, rfl⟩, trivial⟩⟩⟩⟩⟩⟩
theorem atom (o : LOps) : Statement (.atom o) := ⟨by decide, ⟨⟨by decide, rfl⟩, ⟨⟨by decide, rfl⟩, ⟨⟨by decide, rfl⟩, ⟨⟨by decide, rfl⟩, ⟨⟨by decide, rfl⟩, ⟨⟨by decide, rfl⟩, ⟨⟨by decide, rfl⟩, ⟨⟨by decide, rfl⟩, ⟨⟨by decide, rfl⟩, ⟨⟨by decide, rfl⟩, ⟨⟨by decide, rfl⟩, ⟨⟨by decide, rfl⟩, ⟨⟨by decide, rfl⟩, ⟨⟨by decide, rfl⟩, trivial⟩⟩⟩⟩⟩⟩⟩⟩⟩⟩⟩⟩⟩⟩⟩
theorem atom64 (o : LOps) : Statement (.atom64 o) := ⟨by decide, ⟨⟨by decide, rfl⟩, ⟨⟨by decide, rfl⟩, ⟨⟨by decide, rfl⟩, ⟨⟨by decide, rfl⟩, ⟨⟨by decide, rfl⟩, trivial⟩⟩⟩⟩⟩⟩
theorem fence (o : LOps) : Statement (.fence o) := ⟨by decide, ⟨⟨by decide, rfl⟩, trivial⟩⟩
theorem cpy32 (o : LOps) : Statement (.cpy32 o) := ⟨by decide, ⟨⟨by decide, rfl⟩, ⟨⟨by decide, rfl⟩, ⟨⟨by decide, rfl⟩, ⟨⟨by decide, rfl⟩, trivial⟩⟩⟩⟩⟩
theorem waittagW32 (o : WOps) : Statement (.waittagW32 o) := ⟨by decide, ⟨⟨by decide, rfl⟩, trivial⟩⟩
theorem waittagL64 (o : LOps) : Statement (.waittagL64 o) := ⟨by decide, ⟨⟨by decide, rfl⟩, trivial⟩⟩
theorem tcopy (o : LOps) : Statement (.tcopy o) := ⟨by decide, ⟨⟨by decide, rfl⟩, ⟨⟨by decide, rfl⟩, ⟨⟨by decide, rfl⟩, trivial⟩⟩⟩⟩
theorem mcast (o : LOps) : Statement (.mcast o) := ⟨by decide, ⟨⟨by decide, rfl⟩, trivial⟩⟩
theorem spallocW32 (o : WOps) : Statement (.spallocW32 o) := ⟨by decide, ⟨⟨by decide, rfl⟩, trivial⟩⟩
theorem spallocL64 (o : LOps) : Statement (.spallocL64 o) := ⟨by decide, ⟨⟨by decide, rfl⟩, trivial⟩⟩
theorem spfreeW32 (o : WOps) : Statement (.spfreeW32 o) := ⟨by decide, ⟨⟨by decide, rfl⟩, trivial⟩⟩
theorem spfreeL64 (o : LOps) : Statement (.spfreeL64 o) := ⟨by decide, ⟨⟨by decide, rfl⟩, trivial⟩⟩
theorem femarkW32 (o : WOps) : Statement (.femarkW32 o) := ⟨by decide, ⟨⟨by decide, rfl⟩, ⟨⟨by decide, rfl⟩, trivial⟩⟩⟩
theorem femarkL64 (o : LOps) : Statement (.femarkL64 o) := ⟨by decide, ⟨⟨by decide, rfl⟩, ⟨⟨by decide, rfl⟩, trivial⟩⟩⟩
theorem ldhintW32 (o : WOps) : Statement (.ldhintW32 o) := ⟨by decide, ⟨⟨by decide, rfl⟩, ⟨⟨by decide, rfl⟩, ⟨⟨by decide, rfl⟩, ⟨⟨by decide, rfl⟩, trivial⟩⟩⟩⟩⟩
theorem ldhintL64 (o : LOps) : Statement (.ldhintL64 o) := ⟨by decide, ⟨⟨by decide, rfl⟩, ⟨⟨by decide, rfl⟩, ⟨⟨by decide, rfl⟩, ⟨⟨by decide, rfl⟩, trivial⟩⟩⟩⟩⟩
theorem cflushW32 (o : WOps) : Statement (.cflushW32 o) := ⟨by decide, ⟨⟨by decide, rfl⟩, ⟨⟨by decide, rfl⟩, trivial⟩⟩⟩
theorem cflushL64 (o : LOps) : Statement (.cflushL64 o) := ⟨by decide, ⟨⟨by decide, rfl⟩, ⟨⟨by decide, rfl⟩, trivial⟩⟩⟩
theorem ldvW32 (o : WOps) : Statement (.ldvW32 o) := ⟨by decide, ⟨⟨by decide, rfl⟩, ⟨⟨by decide, rfl⟩, ⟨⟨by decide, rfl⟩, trivial⟩⟩⟩⟩
theorem ldvL64 (o : LOps) : Statement (.ldvL64 o) := ⟨by decide, ⟨⟨by decide, rfl⟩, ⟨⟨by decide, rfl⟩, ⟨⟨by decide, rfl⟩, trivial⟩⟩⟩⟩
theorem bra (o : LOps) : Statement (.bra o) := ⟨by decide, ⟨⟨by decide, rfl⟩, ⟨⟨by decide, rfl⟩, ⟨⟨by decide, rfl⟩, ⟨⟨by decide, rfl⟩, ⟨⟨by decide, rfl⟩, ⟨⟨by decide, rfl⟩, ⟨⟨by decide, rfl⟩, ⟨⟨by decide, rfl⟩, ⟨⟨by decide, rfl⟩, ⟨⟨by decide, rfl⟩, ⟨⟨by decide, rfl⟩, ⟨⟨by decide, rfl⟩, ⟨⟨by decide, rfl⟩, ⟨⟨by decide, rfl⟩, ⟨⟨by decide, rfl⟩, ⟨⟨by decide, rfl⟩, trivial⟩⟩⟩⟩⟩⟩⟩⟩⟩⟩⟩⟩⟩⟩⟩⟩⟩
theorem joinW32 (o : WOps) : Statement (.joinW32 o) := ⟨by decide, ⟨⟨by decide, rfl⟩, ⟨⟨by decide, rfl⟩, ⟨⟨by decide, rfl⟩, ⟨⟨by decide, rfl⟩, ⟨⟨by decide, rfl⟩, ⟨⟨by decide, rfl⟩, ⟨⟨by decide, rfl⟩, ⟨⟨by decide, rfl⟩, ⟨⟨by decide, rfl⟩, ⟨⟨by decide, rfl⟩, ⟨⟨by decide, rfl⟩, ⟨⟨by decide, rfl⟩, ⟨⟨by decide, rfl⟩, ⟨⟨by decide, rfl⟩, ⟨⟨by decide, rfl⟩, ⟨⟨by decide, rfl⟩, trivial⟩⟩⟩⟩⟩⟩⟩⟩⟩⟩⟩⟩⟩⟩⟩⟩⟩
theorem joinL64 (o : LOps) : Statement (.joinL64 o) := ⟨by decide, ⟨⟨by decide, rfl⟩, ⟨⟨by decide, rfl⟩, ⟨⟨by decide, rfl⟩, ⟨⟨by decide, rfl⟩, ⟨⟨by decide, rfl⟩, ⟨⟨by decide, rfl⟩, ⟨⟨by decide, rfl⟩, ⟨⟨by decide, rfl⟩, ⟨⟨by decide, rfl⟩, ⟨⟨by decide, rfl⟩, ⟨⟨by decide, rfl⟩, ⟨⟨by decide, rfl⟩, ⟨⟨by decide, rfl⟩, ⟨⟨by decide, rfl⟩, ⟨⟨by decide, rfl⟩, ⟨⟨by decide, rfl⟩, trivial⟩⟩⟩⟩⟩⟩⟩⟩⟩⟩⟩⟩⟩⟩⟩⟩⟩
theorem call (o : LOps) : Statement (.call o) := ⟨by decide, ⟨⟨by decide, rfl⟩, trivial⟩⟩
theorem callIndirectW32 (o : WOps) : Statement (.callIndirectW32 o) := ⟨by decide, ⟨⟨by decide, rfl⟩, trivial⟩⟩
theorem callIndirectL64 (o : LOps) : Statement (.callIndirectL64 o) := ⟨by decide, ⟨⟨by decide, rfl⟩, trivial⟩⟩
theorem retW32 (o : WOps) : Statement (.retW32 o) := ⟨by decide, ⟨⟨by decide, rfl⟩, trivial⟩⟩
theorem retL64 (o : LOps) : Statement (.retL64 o) := ⟨by decide, ⟨⟨by decide, rfl⟩, trivial⟩⟩
theorem exitW32 (o : WOps) : Statement (.exitW32 o) := ⟨by decide, ⟨⟨by decide, rfl⟩, trivial⟩⟩
theorem exitL64 (o : LOps) : Statement (.exitL64 o) := ⟨by decide, ⟨⟨by decide, rfl⟩, trivial⟩⟩
theorem brdq (o : LOps) : Statement (.brdq o) := ⟨by decide, ⟨⟨by decide, rfl⟩, ⟨⟨by decide, rfl⟩, ⟨⟨by decide, rfl⟩, ⟨⟨by decide, rfl⟩, ⟨⟨by decide, rfl⟩, ⟨⟨by decide, rfl⟩, ⟨⟨by decide, rfl⟩, ⟨⟨by decide, rfl⟩, ⟨⟨by decide, rfl⟩, ⟨⟨by decide, rfl⟩, ⟨⟨by decide, rfl⟩, ⟨⟨by decide, rfl⟩, ⟨⟨by decide, rfl⟩, ⟨⟨by decide, rfl⟩, ⟨⟨by decide, rfl⟩, ⟨⟨by decide, rfl⟩, trivial⟩⟩⟩⟩⟩⟩⟩⟩⟩⟩⟩⟩⟩⟩⟩⟩⟩
theorem trapW32 (o : WOps) : Statement (.trapW32 o) := ⟨by decide, ⟨⟨by decide, rfl⟩, trivial⟩⟩
theorem trapL64 (o : LOps) : Statement (.trapL64 o) := ⟨by decide, ⟨⟨by decide, rfl⟩, trivial⟩⟩
theorem bkptW32 (o : WOps) : Statement (.bkptW32 o) := ⟨by decide, ⟨⟨by decide, rfl⟩, trivial⟩⟩
theorem bkptL64 (o : LOps) : Statement (.bkptL64 o) := ⟨by decide, ⟨⟨by decide, rfl⟩, trivial⟩⟩
theorem yieldW32 (o : WOps) : Statement (.yieldW32 o) := ⟨by decide, ⟨⟨by decide, rfl⟩, trivial⟩⟩
theorem yieldL64 (o : LOps) : Statement (.yieldL64 o) := ⟨by decide, ⟨⟨by decide, rfl⟩, trivial⟩⟩
theorem barW32 (o : WOps) : Statement (.barW32 o) := ⟨by decide, ⟨⟨by decide, rfl⟩, ⟨⟨by decide, rfl⟩, ⟨⟨by decide, rfl⟩, trivial⟩⟩⟩⟩
theorem barL64 (o : LOps) : Statement (.barL64 o) := ⟨by decide, ⟨⟨by decide, rfl⟩, ⟨⟨by decide, rfl⟩, ⟨⟨by decide, rfl⟩, trivial⟩⟩⟩⟩
theorem attachW32 (o : WOps) : Statement (.attachW32 o) := ⟨by decide, ⟨⟨by decide, rfl⟩, trivial⟩⟩
theorem attachL64 (o : LOps) : Statement (.attachL64 o) := ⟨by decide, ⟨⟨by decide, rfl⟩, trivial⟩⟩
theorem detachW32 (o : WOps) : Statement (.detachW32 o) := ⟨by decide, ⟨⟨by decide, rfl⟩, trivial⟩⟩
theorem detachL64 (o : LOps) : Statement (.detachL64 o) := ⟨by decide, ⟨⟨by decide, rfl⟩, trivial⟩⟩
theorem growW32 (o : WOps) : Statement (.growW32 o) := ⟨by decide, ⟨⟨by decide, rfl⟩, trivial⟩⟩
theorem growL64 (o : LOps) : Statement (.growL64 o) := ⟨by decide, ⟨⟨by decide, rfl⟩, trivial⟩⟩
theorem shrqW32 (o : WOps) : Statement (.shrqW32 o) := ⟨by decide, ⟨⟨by decide, rfl⟩, trivial⟩⟩
theorem shrqL64 (o : LOps) : Statement (.shrqL64 o) := ⟨by decide, ⟨⟨by decide, rfl⟩, trivial⟩⟩
theorem tlwaitW32 (o : WOps) : Statement (.tlwaitW32 o) := ⟨by decide, ⟨⟨by decide, rfl⟩, ⟨⟨by decide, rfl⟩, trivial⟩⟩⟩
theorem tlwaitL64 (o : LOps) : Statement (.tlwaitL64 o) := ⟨by decide, ⟨⟨by decide, rfl⟩, ⟨⟨by decide, rfl⟩, trivial⟩⟩⟩
theorem tlreadW32 (o : WOps) : Statement (.tlreadW32 o) := ⟨by decide, ⟨⟨by decide, rfl⟩, trivial⟩⟩
theorem tlreadL64 (o : LOps) : Statement (.tlreadL64 o) := ⟨by decide, ⟨⟨by decide, rfl⟩, trivial⟩⟩
theorem tlsigW32 (o : WOps) : Statement (.tlsigW32 o) := ⟨by decide, ⟨⟨by decide, rfl⟩, trivial⟩⟩
theorem tlsigL64 (o : LOps) : Statement (.tlsigL64 o) := ⟨by decide, ⟨⟨by decide, rfl⟩, trivial⟩⟩
theorem xset (o : LOps) : Statement (.xset o) := ⟨by decide, ⟨⟨by decide, rfl⟩, trivial⟩⟩
theorem xget (o : LOps) : Statement (.xget o) := ⟨by decide, ⟨⟨by decide, rfl⟩, trivial⟩⟩
theorem pushdW32 (o : WOps) : Statement (.pushdW32 o) := ⟨by decide, ⟨⟨by decide, rfl⟩, trivial⟩⟩
theorem pushdL64 (o : LOps) : Statement (.pushdL64 o) := ⟨by decide, ⟨⟨by decide, rfl⟩, trivial⟩⟩
theorem accallocW32 (o : WOps) : Statement (.accallocW32 o) := ⟨by decide, ⟨⟨by decide, rfl⟩, trivial⟩⟩
theorem accallocL64 (o : LOps) : Statement (.accallocL64 o) := ⟨by decide, ⟨⟨by decide, rfl⟩, trivial⟩⟩
theorem accfreeW32 (o : WOps) : Statement (.accfreeW32 o) := ⟨by decide, ⟨⟨by decide, rfl⟩, trivial⟩⟩
theorem accfreeL64 (o : LOps) : Statement (.accfreeL64 o) := ⟨by decide, ⟨⟨by decide, rfl⟩, trivial⟩⟩
theorem accacqW32 (o : WOps) : Statement (.accacqW32 o) := ⟨by decide, ⟨⟨by decide, rfl⟩, trivial⟩⟩
theorem accacqL64 (o : LOps) : Statement (.accacqL64 o) := ⟨by decide, ⟨⟨by decide, rfl⟩, trivial⟩⟩
theorem accrelW32 (o : WOps) : Statement (.accrelW32 o) := ⟨by decide, ⟨⟨by decide, rfl⟩, trivial⟩⟩
theorem accrelL64 (o : LOps) : Statement (.accrelL64 o) := ⟨by decide, ⟨⟨by decide, rfl⟩, trivial⟩⟩
theorem mma (o : LOps) : Statement (.mma o) := ⟨by decide, ⟨⟨by decide, rfl⟩, ⟨⟨by decide, rfl⟩, ⟨⟨by decide, rfl⟩, ⟨⟨by decide, rfl⟩, ⟨⟨by decide, rfl⟩, ⟨⟨by decide, rfl⟩, ⟨⟨by decide, rfl⟩, trivial⟩⟩⟩⟩⟩⟩⟩⟩
theorem accldW32 (o : WOps) : Statement (.accldW32 o) := ⟨by decide, ⟨⟨by decide, rfl⟩, trivial⟩⟩
theorem accldL64 (o : LOps) : Statement (.accldL64 o) := ⟨by decide, ⟨⟨by decide, rfl⟩, trivial⟩⟩
theorem accst (o : LOps) : Statement (.accst o) := ⟨by decide, ⟨⟨by decide, rfl⟩, trivial⟩⟩
theorem acczeroW32 (o : WOps) : Statement (.acczeroW32 o) := ⟨by decide, ⟨⟨by decide, rfl⟩, trivial⟩⟩
theorem acczeroL64 (o : LOps) : Statement (.acczeroL64 o) := ⟨by decide, ⟨⟨by decide, rfl⟩, trivial⟩⟩
theorem mvx (o : LOps) : Statement (.mvx o) := ⟨by decide, ⟨⟨by decide, rfl⟩, ⟨⟨by decide, rfl⟩, ⟨⟨by decide, rfl⟩, ⟨⟨by decide, rfl⟩, ⟨⟨by decide, rfl⟩, ⟨⟨by decide, rfl⟩, ⟨⟨by decide, rfl⟩, trivial⟩⟩⟩⟩⟩⟩⟩⟩
theorem cenc (o : LOps) : Statement (.cenc o) := ⟨by decide, ⟨⟨by decide, rfl⟩, ⟨⟨by decide, rfl⟩, trivial⟩⟩⟩
theorem cdec (o : LOps) : Statement (.cdec o) := ⟨by decide, ⟨⟨by decide, rfl⟩, ⟨⟨by decide, rfl⟩, trivial⟩⟩⟩
theorem tsetW32 (o : WOps) : Statement (.tsetW32 o) := ⟨by decide, ⟨⟨by decide, rfl⟩, trivial⟩⟩
theorem tsetL64 (o : LOps) : Statement (.tsetL64 o) := ⟨by decide, ⟨⟨by decide, rfl⟩, trivial⟩⟩
theorem rcpW32 (o : WOps) : Statement (.rcpW32 o) := ⟨by decide, ⟨⟨by decide, rfl⟩, trivial⟩⟩
theorem rcpL64 (o : LOps) : Statement (.rcpL64 o) := ⟨by decide, ⟨⟨by decide, rfl⟩, trivial⟩⟩
theorem rsqW32 (o : WOps) : Statement (.rsqW32 o) := ⟨by decide, ⟨⟨by decide, rfl⟩, trivial⟩⟩
theorem rsqL64 (o : LOps) : Statement (.rsqL64 o) := ⟨by decide, ⟨⟨by decide, rfl⟩, trivial⟩⟩
theorem ex2W32 (o : WOps) : Statement (.ex2W32 o) := ⟨by decide, ⟨⟨by decide, rfl⟩, trivial⟩⟩
theorem ex2L64 (o : LOps) : Statement (.ex2L64 o) := ⟨by decide, ⟨⟨by decide, rfl⟩, trivial⟩⟩
theorem lg2W32 (o : WOps) : Statement (.lg2W32 o) := ⟨by decide, ⟨⟨by decide, rfl⟩, trivial⟩⟩
theorem lg2L64 (o : LOps) : Statement (.lg2L64 o) := ⟨by decide, ⟨⟨by decide, rfl⟩, trivial⟩⟩
theorem sinW32 (o : WOps) : Statement (.sinW32 o) := ⟨by decide, ⟨⟨by decide, rfl⟩, trivial⟩⟩
theorem sinL64 (o : LOps) : Statement (.sinL64 o) := ⟨by decide, ⟨⟨by decide, rfl⟩, trivial⟩⟩
theorem cosW32 (o : WOps) : Statement (.cosW32 o) := ⟨by decide, ⟨⟨by decide, rfl⟩, trivial⟩⟩
theorem cosL64 (o : LOps) : Statement (.cosL64 o) := ⟨by decide, ⟨⟨by decide, rfl⟩, trivial⟩⟩
theorem tanhW32 (o : WOps) : Statement (.tanhW32 o) := ⟨by decide, ⟨⟨by decide, rfl⟩, trivial⟩⟩
theorem tanhL64 (o : LOps) : Statement (.tanhL64 o) := ⟨by decide, ⟨⟨by decide, rfl⟩, trivial⟩⟩
theorem sgmdW32 (o : WOps) : Statement (.sgmdW32 o) := ⟨by decide, ⟨⟨by decide, rfl⟩, trivial⟩⟩
theorem sgmdL64 (o : LOps) : Statement (.sgmdL64 o) := ⟨by decide, ⟨⟨by decide, rfl⟩, trivial⟩⟩
theorem rngW32 (o : WOps) : Statement (.rngW32 o) := ⟨by decide, ⟨⟨by decide, rfl⟩, trivial⟩⟩
theorem rngL64 (o : LOps) : Statement (.rngL64 o) := ⟨by decide, ⟨⟨by decide, rfl⟩, trivial⟩⟩
theorem clmulW32 (o : WOps) : Statement (.clmulW32 o) := ⟨by decide, ⟨⟨by decide, rfl⟩, ⟨⟨by decide, rfl⟩, trivial⟩⟩⟩
theorem clmulL64 (o : LOps) : Statement (.clmulL64 o) := ⟨by decide, ⟨⟨by decide, rfl⟩, ⟨⟨by decide, rfl⟩, trivial⟩⟩⟩
theorem rdsr (o : LOps) : Statement (.rdsr o) := ⟨by decide, ⟨⟨by decide, rfl⟩, trivial⟩⟩
theorem wrsr (o : LOps) : Statement (.wrsr o) := ⟨by decide, ⟨⟨by decide, rfl⟩, trivial⟩⟩
theorem rettW32 (o : WOps) : Statement (.rettW32 o) := ⟨by decide, ⟨⟨by decide, rfl⟩, trivial⟩⟩
theorem rettL64 (o : LOps) : Statement (.rettL64 o) := ⟨by decide, ⟨⟨by decide, rfl⟩, trivial⟩⟩
theorem tlbinvW32 (o : WOps) : Statement (.tlbinvW32 o) := ⟨by decide, ⟨⟨by decide, rfl⟩, trivial⟩⟩
theorem tlbinvL64 (o : LOps) : Statement (.tlbinvL64 o) := ⟨by decide, ⟨⟨by decide, rfl⟩, trivial⟩⟩
theorem haltW32 (o : WOps) : Statement (.haltW32 o) := ⟨by decide, ⟨⟨by decide, rfl⟩, trivial⟩⟩
theorem haltL64 (o : LOps) : Statement (.haltL64 o) := ⟨by decide, ⟨⟨by decide, rfl⟩, trivial⟩⟩
theorem fusetLi (o : FOps) : Statement (.fusetLi o) := ⟨by decide, rfl⟩
theorem fusetAdd (o : FOps) : Statement (.fusetAdd o) := ⟨by decide, rfl⟩
theorem fusetSub (o : FOps) : Statement (.fusetSub o) := ⟨by decide, rfl⟩
theorem fusetAnd (o : FOps) : Statement (.fusetAnd o) := ⟨by decide, rfl⟩
theorem fusetOr (o : FOps) : Statement (.fusetOr o) := ⟨by decide, rfl⟩
theorem fusetShl (o : FOps) : Statement (.fusetShl o) := ⟨by decide, rfl⟩
theorem fusetShr (o : FOps) : Statement (.fusetShr o) := ⟨by decide, rfl⟩
theorem fusetCmp (o : FOps) : Statement (.fusetCmp o) := ⟨by decide, rfl⟩
theorem fusetLd (o : FOps) : Statement (.fusetLd o) := ⟨by decide, rfl⟩
theorem fusetSt (o : FOps) : Statement (.fusetSt o) := ⟨by decide, rfl⟩
theorem fusetBr (o : FOps) : Statement (.fusetBr o) := ⟨by decide, rfl⟩
theorem fusetBz (o : FOps) : Statement (.fusetBz o) := ⟨by decide, rfl⟩
theorem fusetBnz (o : FOps) : Statement (.fusetBnz o) := ⟨by decide, rfl⟩
theorem fusetCall (o : FOps) : Statement (.fusetCall o) := ⟨by decide, rfl⟩
theorem fusetRet (o : FOps) : Statement (.fusetRet o) := ⟨by decide, rfl⟩
theorem fusetRing (o : FOps) : Statement (.fusetRing o) := ⟨by decide, rfl⟩
theorem fusetTtw (o : FOps) : Statement (.fusetTtw o) := ⟨by decide, rfl⟩
theorem fusetArm (o : FOps) : Statement (.fusetArm o) := ⟨by decide, rfl⟩
theorem fusetDisarm (o : FOps) : Statement (.fusetDisarm o) := ⟨by decide, rfl⟩
theorem fusetPost (o : FOps) : Statement (.fusetPost o) := ⟨by decide, rfl⟩
theorem fusetWaitpost (o : FOps) : Statement (.fusetWaitpost o) := ⟨by decide, rfl⟩
theorem fusetSend (o : FOps) : Statement (.fusetSend o) := ⟨by decide, rfl⟩
theorem fusetWaitsb (o : FOps) : Statement (.fusetWaitsb o) := ⟨by decide, rfl⟩
theorem fusetWaittl (o : FOps) : Statement (.fusetWaittl o) := ⟨by decide, rfl⟩
theorem fusetSigtl (o : FOps) : Statement (.fusetSigtl o) := ⟨by decide, rfl⟩
theorem fusetTmo (o : FOps) : Statement (.fusetTmo o) := ⟨by decide, rfl⟩
theorem fusetRound (o : FOps) : Statement (.fusetRound o) := ⟨by decide, rfl⟩
theorem fusetWaitrd (o : FOps) : Statement (.fusetWaitrd o) := ⟨by decide, rfl⟩
theorem fusetAbort (o : FOps) : Statement (.fusetAbort o) := ⟨by decide, rfl⟩
theorem fusetStatus (o : FOps) : Statement (.fusetStatus o) := ⟨by decide, rfl⟩
theorem fusetWalloc (o : FOps) : Statement (.fusetWalloc o) := ⟨by decide, rfl⟩
theorem fusetWfree (o : FOps) : Statement (.fusetWfree o) := ⟨by decide, rfl⟩
theorem fusetWckpt (o : FOps) : Statement (.fusetWckpt o) := ⟨by decide, rfl⟩
theorem fusetWrest (o : FOps) : Statement (.fusetWrest o) := ⟨by decide, rfl⟩
theorem fusetWfold (o : FOps) : Statement (.fusetWfold o) := ⟨by decide, rfl⟩
theorem fusetReform (o : FOps) : Statement (.fusetReform o) := ⟨by decide, rfl⟩
theorem fusetEvent (o : FOps) : Statement (.fusetEvent o) := ⟨by decide, rfl⟩
theorem fusetHalt (o : FOps) : Statement (.fusetHalt o) := ⟨by decide, rfl⟩
theorem resultWriteback : ∀ a0 a1 a2, Statement (.resultWriteback a0 a1 a2) := fun _ _ _ => trivial
theorem splitAged : ∀ a0 a1 a2, Statement (.splitAged a0 a1 a2) := fun _ _ _ => trivial
theorem watchdogExpiry : ∀ a0 a1 a2, Statement (.watchdogExpiry a0 a1 a2) := fun _ _ _ => trivial
theorem asyncTrapDelivery : ∀ a0 a1, Statement (.asyncTrapDelivery a0 a1) := fun _ _ => trivial
theorem placeGang : ∀ a0 a1 a2 a3, Statement (.placeGang a0 a1 a2 a3) := fun _ _ _ _ => trivial
theorem shrinkBlockedTimeout : ∀ a0 a1 a2, Statement (.shrinkBlockedTimeout a0 a1 a2) := fun _ _ _ => trivial
theorem shrinkLimitExpiry : ∀ a0, Statement (.shrinkLimitExpiry a0) := fun _ => trivial
theorem saveComplete : ∀ a0, Statement (.saveComplete a0) := fun _ => trivial
theorem gangRestore : ∀ a0 a1 a2 a3, Statement (.gangRestore a0 a1 a2 a3) := fun _ _ _ _ => trivial
theorem spfreeTakesEffect : ∀ a0 a1, Statement (.spfreeTakesEffect a0 a1) := fun _ _ => trivial
theorem copyCommandComplete : ∀ a0 a1, Statement (.copyCommandComplete a0 a1) := fun _ _ => trivial
theorem engineTranslationFault : ∀ a0 a1 a2, Statement (.engineTranslationFault a0 a1 a2) := fun _ _ _ => trivial
theorem cpy32Complete : ∀ a0 a1 a2, Statement (.cpy32Complete a0 a1 a2) := fun _ _ _ => trivial
theorem mcastArrival : ∀ a0 a1 a2, Statement (.mcastArrival a0 a1 a2) := fun _ _ _ => trivial
theorem mcastComplete : ∀ a0 a1, Statement (.mcastComplete a0 a1) := fun _ _ => trivial
theorem mmaComplete : ∀ a0 a1, Statement (.mmaComplete a0 a1) := fun _ _ => trivial
theorem mvxResult : ∀ a0 a1, Statement (.mvxResult a0 a1) := fun _ _ => trivial
theorem faultRecordResolution : ∀ a0, Statement (.faultRecordResolution a0) := fun _ => trivial
theorem uncorrectableError : ∀ a0, Statement (.uncorrectableError a0) := fun _ => trivial
theorem correctableError : Statement .correctableError := trivial
theorem blockCommit : ∀ a0 a1, Statement (.blockCommit a0 a1) := fun _ _ => trivial
theorem pairCompare : ∀ a0 a1, Statement (.pairCompare a0 a1) := fun _ _ => trivial
theorem logHarvest : Statement .logHarvest := trivial
theorem entryFire : ∀ a0 a1, Statement (.entryFire a0 a1) := fun _ _ => trivial
theorem firingComplete : ∀ a0 a1, Statement (.firingComplete a0 a1) := fun _ _ => trivial
theorem curdArrival : ∀ a0, Statement (.curdArrival a0) := fun _ => trivial
theorem curdReply : ∀ a0, Statement (.curdReply a0) := fun _ => trivial
theorem postedNotice : ∀ a0, Statement (.postedNotice a0) := fun _ => trivial
theorem abortNotice : ∀ a0, Statement (.abortNotice a0) := fun _ => trivial
theorem roundDeadline : ∀ a0, Statement (.roundDeadline a0) := fun _ => trivial
theorem wheyPageIn : ∀ a0 a1, Statement (.wheyPageIn a0 a1) := fun _ _ => trivial
theorem reformReport : ∀ a0, Statement (.reformReport a0) := fun _ => trivial
theorem reformCollectionEnd : ∀ a0, Statement (.reformCollectionEnd a0) := fun _ => trivial
theorem reformResults : ∀ a0, Statement (.reformResults a0) := fun _ => trivial
theorem commandNop (o : Cmd) : Statement (.commandNop o) := ⟨by decide, rfl⟩
theorem submit (o : Cmd) : Statement (.submit o) := ⟨by decide, rfl⟩
theorem signal (o : Cmd) : Statement (.signal o) := ⟨by decide, rfl⟩
theorem notify (o : Cmd) : Statement (.notify o) := ⟨by decide, rfl⟩
theorem resume (o : Cmd) : Statement (.resume o) := ⟨by decide, rfl⟩
theorem cancel (o : Cmd) : Statement (.cancel o) := ⟨by decide, rfl⟩
theorem dispatch (o : Cmd) : Statement (.dispatch o) := ⟨by decide, rfl⟩
theorem ctxnew (o : Cmd) : Statement (.ctxnew o) := ⟨by decide, rfl⟩
theorem ctxkill (o : Cmd) : Statement (.ctxkill o) := ⟨by decide, rfl⟩
theorem contextKillComplete : ∀ a0, Statement (.contextKillComplete a0) := fun _ => trivial
theorem ctxdel (o : Cmd) : Statement (.ctxdel o) := ⟨by decide, rfl⟩
theorem tlown (o : Cmd) : Statement (.tlown o) := ⟨by decide, rfl⟩
theorem faultres (o : Cmd) : Statement (.faultres o) := ⟨by decide, rfl⟩
theorem inval (o : Cmd) : Statement (.inval o) := ⟨by decide, rfl⟩
theorem preempt (o : Cmd) : Statement (.preempt o) := ⟨by decide, rfl⟩
theorem ccbind (o : Cmd) : Statement (.ccbind o) := ⟨by decide, rfl⟩
theorem ccstart (o : Cmd) : Statement (.ccstart o) := ⟨by decide, rfl⟩
theorem ccstop (o : Cmd) : Statement (.ccstop o) := ⟨by decide, rfl⟩
theorem dbgstop (o : Cmd) : Statement (.dbgstop o) := ⟨by decide, rfl⟩
theorem dbgresume (o : Cmd) : Statement (.dbgresume o) := ⟨by decide, rfl⟩
theorem dbgstep (o : Cmd) : Statement (.dbgstep o) := ⟨by decide, rfl⟩
theorem dbgsnap (o : Cmd) : Statement (.dbgsnap o) := ⟨by decide, rfl⟩
theorem dbgbp (o : Cmd) : Statement (.dbgbp o) := ⟨by decide, rfl⟩
theorem dbgmode (o : Cmd) : Statement (.dbgmode o) := ⟨by decide, rfl⟩
theorem fwstage (o : Cmd) : Statement (.fwstage o) := ⟨by decide, rfl⟩
theorem fwcommit (o : Cmd) : Statement (.fwcommit o) := ⟨by decide, rfl⟩
theorem fwrollback (o : Cmd) : Statement (.fwrollback o) := ⟨by decide, rfl⟩
theorem selftest (o : Cmd) : Statement (.selftest o) := ⟨by decide, rfl⟩
theorem selftestPhaseEnd : ∀ a0, Statement (.selftestPhaseEnd a0) := fun _ => trivial
theorem seckey (o : Cmd) : Statement (.seckey o) := ⟨by decide, rfl⟩
theorem cmdtailWrite : ∀ a0, Statement (.cmdtailWrite a0) := fun _ => trivial
theorem cplheadWrite : ∀ a0, Statement (.cplheadWrite a0) := fun _ => trivial
theorem channelEnable : ∀ a0, Statement (.channelEnable a0) := fun _ => trivial
theorem snoopMode : ∀ a0, Statement (.snoopMode a0) := fun _ => trivial
theorem chstatClear : ∀ a0, Statement (.chstatClear a0) := fun _ => trivial
theorem dutyWrite : ∀ a0, Statement (.dutyWrite a0) := fun _ => trivial
theorem logheadWrite : ∀ a0, Statement (.logheadWrite a0) := fun _ => trivial
theorem logstatClear : ∀ a0, Statement (.logstatClear a0) := fun _ => trivial
theorem portEnable : ∀ a0 a1, Statement (.portEnable a0 a1) := fun _ _ => trivial
theorem portRetrain : ∀ a0 a1, Statement (.portRetrain a0 a1) := fun _ _ => trivial
theorem registerWrite : ∀ a0 a1, Statement (.registerWrite a0 a1) := fun _ _ => trivial
theorem hostMemoryAccess : ∀ a0, Statement (.hostMemoryAccess a0) := fun _ => trivial
theorem spdmRequest : ∀ a0, Statement (.spdmRequest a0) := fun _ => trivial
theorem boot : Statement .boot := trivial
theorem portLockHeld : ∀ a0, Statement (.portLockHeld a0) := fun _ => trivial
theorem trainingTimeout : ∀ a0, Statement (.trainingTimeout a0) := fun _ => trivial
theorem lockLoss : ∀ a0, Statement (.lockLoss a0) := fun _ => trivial
theorem fecUncorrectableBurst : ∀ a0, Statement (.fecUncorrectableBurst a0) := fun _ => trivial
theorem winfailWindow : ∀ a0, Statement (.winfailWindow a0) := fun _ => trivial
theorem sprayRejoin : ∀ a0, Statement (.sprayRejoin a0) := fun _ => trivial
theorem packetReceive : ∀ a0, Statement (.packetReceive a0) := fun _ => trivial
theorem packetAck : ∀ a0, Statement (.packetAck a0) := fun _ => trivial
theorem retransmitTimeout : ∀ a0, Statement (.retransmitTimeout a0) := fun _ => trivial
theorem keyGraceExpiry : ∀ a0, Statement (.keyGraceExpiry a0) := fun _ => trivial
theorem droopTrip : ∀ a0, Statement (.droopTrip a0) := fun _ => trivial
theorem inputUndervoltage : Statement .inputUndervoltage := trivial
theorem brownout : Statement .brownout := trivial
theorem brownoutRecovery : Statement .brownoutRecovery := trivial
theorem powerLoss : Statement .powerLoss := trivial
theorem thermalThrottle : Statement .thermalThrottle := trivial
theorem thermalShutdown : Statement .thermalShutdown := trivial
theorem lineSetFull : ∀ a0 a1 a2 a3, Statement (.lineSetFull a0 a1 a2 a3) := fun _ _ _ _ => trivial
theorem reservedEncoding : ∀ a0, Statement (.reservedEncoding a0) := fun _ => trivial
theorem fusetReservedOpcode : ∀ a0, Statement (.fusetReservedOpcode a0) := fun _ => trivial
theorem unassignedCommand : ∀ a0, Statement (.unassignedCommand a0) := fun _ => trivial

end Sys2Proof.Laws.Coding
end

