-- ==== Sys2Proof/Tests/Witness.lean ====
section
/-! SUPPORT. Witness: for the obligations that have hypotheses, concrete states and operands that meet them together. Each is a small
change of the state that `withFetchWord` builds: one block of one team of 32 lanes, placed in a privileged launch of context 0. -/

namespace Sys2Proof.Tests

open Sys2Proof Sys2Proof.Machine Sys2Proof.Spec

set_option maxRecDepth 100000
set_option exponentiation.threshold 2000

/-! ## Small states -/

/-- One team of 32 lanes, READY at 0x100000, issuing. -/
def base : State := { slotState State.reset with cur := .split 0 0 0 }
/-- Every launch changed. -/
def onLaunches (f : Launch → Launch) (s : State) : State := { s with launches := Tbl.mapVals s.launches (fun _ l => f l) }
/-- Every block changed. -/
def onBlocks (f : Block → Block) (s : State) : State := { s with blocks := Tbl.mapVals s.blocks (fun _ k => f k) }
/-- Every team changed. -/
def onTeams (f : Team → Team) : State → State := onBlocks (fun k => { k with teams := Tbl.mapVals k.teams (fun _ m => f m) })
/-- Every split changed. -/
def onSplits (f : Split → Split) : State → State := onTeams (fun m => { m with splits := Tbl.mapVals m.splits (fun _ p => f p) })
/-- Every context changed. -/
def onCtxs (f : Ctx → Ctx) (s : State) : State := { s with ctxs := Tbl.mapVals s.ctxs (fun _ c => f c) }
/-- The split holds lane 0 alone. -/
def one : State := onSplits (fun p => { p with mask := 1 }) base
/-- Registers of lane 0. -/
def withRegs (vs : List (Nat × Word)) : State → State :=
  onTeams (fun m => { m with regs := vs.foldl (fun r v => Sparse.set r (v.1 * 1024) v.2) m.regs })
/-- The launch has a handler, so that its teams take traps. -/
def handled : State → State := onLaunches (fun l => { l with lr := { l.lr with handler := 0x100800 } })

/-! ## Issue, as a check that evaluates -/

/-- The issuer past its queues with the machine as they leave it, where every check ahead of an instruction's own passes. -/
def tryIssue (op : Op) (leaders : List Nat) (s : State) : Option (Iss × State) :=
  match issuer s with
  | none => none
  | some i =>
    let k := withLanes i op
    if i.p.mask ≠ 0 ∧ op.bad = false ∧ illegalHere op i.front i.m.nregs i.m.width = false ∧ privBarred op i.mode = false ∧
      k.poisonLanes op leaders = [] ∧ k.ex ≠ 0 ∧ queueCheck k op = (.ok, none) ∧ idxFault (k.popped op) leaders op (k.popped op).lanes = none then
      some (k.popped op, onTeam s i.b i.t (popTeam k op))
    else none

theorem tryIssue_issues {op : Op} {ld : List Nat} {s : State} {j : Iss} {s1 : State} (h : tryIssue op ld s = some (j, s1)) : Issues op ld s j s1 := by
  unfold tryIssue at h
  split at h
  · cases h
  · rename_i i hi
    dsimp only at h
    split at h
    · rename_i hc
      cases h
      exact ⟨i, hi, hc.1, hc.2.1, hc.2.2.1, hc.2.2.2.1, hc.2.2.2.2.1, hc.2.2.2.2.2.1, hc.2.2.2.2.2.2.1, rfl, rfl, hc.2.2.2.2.2.2.2⟩
    · cases h

/-- The instruction issues, and a test of what it issues with passes. -/
def issueWith (op : Op) (ld : List Nat) (s : State) (p : Iss → State → Bool) : Bool :=
  match tryIssue op ld s with
  | none => false
  | some (j, s1) => p j s1

/-- What a passed check shows: the premises of the statements about an instruction that issues. -/
theorem issueWith_issues {op : Op} {ld : List Nat} {s : State} {p : Iss → State → Bool} (h : issueWith op ld s p = true) :
    ∃ j s1, Issues op ld s j s1 ∧ p j s1 = true := by
  unfold issueWith at h
  split at h
  · cases h
  · rename_i j s1 hj
    exact ⟨j, s1, tryIssue_issues hj, h⟩

/-- No enabled flag: whatever a lane raises, nothing traps. -/
def quiet (j : Iss) (_s : State) : Bool := decide (fpenMask j.m = 0)

theorem quiet_noFpTrap {j : Iss} {s : State} (h : quiet j s = true) (f : Nat → LaneOut) : NoFpTrap j f := by
  intro l _
  rw [of_decide_eq_true h]
  simp

/-- `CanTrap`, as a check. -/
abbrev CanTrap' (j : Iss) : Prop := j.front = false ∧ j.m.trap = none ∧ j.l.lr.handler ≠ 0

theorem canTrap_of {j : Iss} (h : CanTrap' j) : CanTrap j := h


/-! ## Lane by lane: every row of these issues, with nothing that traps -/

theorem witness_IntegerArithmetic : (
  [opC 15 ⟨0, 0⟩, opW 0 ⟨0, 0, 0, 0⟩, opL 0 ⟨0, 0, 0, 0, 0, 255, false, false, 0, 0, none⟩, opC 0 ⟨8, 12⟩, opW 1 ⟨0, 8, 0, 12⟩,
   opL 1 ⟨0, 8, 0, 12, 0, 255, false, false, 0, 0, none⟩, opC 1 ⟨8, 12⟩, opW 2 ⟨0, 8, 4, 12⟩,
   opL 2 ⟨0, 8, 4, 12, 0, 255, false, false, 0, 0, none⟩, opC 2 ⟨8, 12⟩, opW 3 ⟨0, 8, 4, 12⟩,
   opL 3 ⟨0, 8, 4, 12, 0, 255, false, false, 0, 0, none⟩, opC 3 ⟨8, 12⟩, opW 4 ⟨0, 8, 4, 12⟩,
   opL 4 ⟨0, 8, 4, 12, 0, 255, false, false, 0, 0, none⟩, opL 5 ⟨0, 8, 4, 12, 16, 255, false, false, 0, 0, none⟩, opW 6 ⟨0, 8, 4, 12⟩,
   opL 6 ⟨0, 8, 4, 12, 0, 255, false, false, 0, 0, none⟩, opW 7 ⟨0, 8, 4, 12⟩, opL 7 ⟨0, 8, 4, 12, 0, 255, false, false, 0, 0, none⟩,
   opW 8 ⟨0, 8, 4, 12⟩, opL 8 ⟨0, 8, 4, 12, 0, 255, false, false, 0, 0, none⟩, opW 8 ⟨1, 8, 4, 12⟩,
   opL 8 ⟨1, 8, 4, 12, 0, 255, false, false, 0, 0, none⟩, opW 17 ⟨0, 8, 4, 0⟩, opL 17 ⟨0, 8, 4, 0, 0, 255, false, false, 0, 0, none⟩,
   opW 17 ⟨1, 8, 4, 0⟩, opL 17 ⟨1, 8, 4, 0, 0, 255, false, false, 0, 0, none⟩, opL 23 ⟨0, 8, 4, 12, 16, 255, false, false, 0, 0, none⟩] :
  List Op).all (fun op => issueWith op [] base quiet) = true := by decide

theorem witness_ComparisonsBitFieldsAndPairs : (
  [opW 9 ⟨0, 8, 4, 12⟩, opL 9 ⟨0, 8, 4, 12, 0, 255, false, false, 0, 0, none⟩, opL 10 ⟨0, 8, 4, 12, 16, 255, false, false, 0, 0, none⟩,
   opW 21 ⟨0, 8, 4, 12⟩, opL 21 ⟨0, 8, 4, 12, 0, 255, false, false, 0, 0, none⟩,
   opW 14 ⟨0, 8, 4, 12⟩, opL 14 ⟨0, 8, 4, 12, 0, 255, false, false, 0, 0, none⟩, opL 15 ⟨0, 8, 4, 12, 16, 255, false, false, 0, 0, none⟩,
   opW 16 ⟨0, 8, 4, 0⟩, opL 16 ⟨0, 8, 4, 0, 0, 255, false, false, 0, 0, none⟩, opW 16 ⟨1, 8, 4, 0⟩,
   opL 16 ⟨1, 8, 4, 0, 0, 255, false, false, 0, 0, none⟩, opW 16 ⟨2, 8, 4, 0⟩, opL 16 ⟨2, 8, 4, 0, 0, 255, false, false, 0, 0, none⟩,
   opW 16 ⟨3, 8, 4, 0⟩, opL 16 ⟨3, 8, 4, 0, 0, 255, false, false, 0, 0, none⟩, opL 22 ⟨0, 8, 4, 12, 16, 255, false, false, 0, 0, none⟩,
   opW 18 ⟨0, 8, 4, 12⟩, opL 18 ⟨0, 8, 4, 12, 0, 255, false, false, 0, 0, none⟩, opW 18 ⟨1, 8, 4, 12⟩,
   opL 18 ⟨1, 8, 4, 12, 0, 255, false, false, 0, 0, none⟩, opW 19 ⟨0, 8, 4, 12⟩, opL 19 ⟨0, 8, 4, 12, 0, 255, false, false, 0, 0, none⟩] :
  List Op).all (fun op => issueWith op [] base quiet) = true := by decide

theorem witness_LogicAndShifts : (
  [opC 4 ⟨8, 12⟩, opW 11 ⟨0, 8, 4, 12⟩, opL 11 ⟨0, 8, 4, 12, 0, 255, false, false, 0, 0, none⟩, opC 5 ⟨8, 12⟩, opW 11 ⟨1, 8, 4, 12⟩,
   opL 11 ⟨1, 8, 4, 12, 0, 255, false, false, 0, 0, none⟩, opC 6 ⟨8, 12⟩, opW 11 ⟨2, 8, 4, 12⟩,
   opL 11 ⟨2, 8, 4, 12, 0, 255, false, false, 0, 0, none⟩, opW 11 ⟨3, 8, 4, 12⟩, opL 11 ⟨3, 8, 4, 12, 0, 255, false, false, 0, 0, none⟩,
   opW 11 ⟨4, 8, 4, 12⟩, opL 11 ⟨4, 8, 4, 12, 0, 255, false, false, 0, 0, none⟩, opW 11 ⟨5, 8, 4, 12⟩,
   opL 11 ⟨5, 8, 4, 12, 0, 255, false, false, 0, 0, none⟩, opW 11 ⟨6, 8, 4, 0⟩, opL 11 ⟨6, 8, 4, 0, 0, 255, false, false, 0, 0, none⟩,
   opC 7 ⟨8, 12⟩, opW 12 ⟨0, 8, 4, 12⟩, opL 12 ⟨0, 8, 4, 12, 0, 255, false, false, 0, 0, none⟩, opC 8 ⟨8, 12⟩, opW 12 ⟨1, 8, 4, 12⟩,
   opL 12 ⟨1, 8, 4, 12, 0, 255, false, false, 0, 0, none⟩, opC 9 ⟨8, 12⟩, opW 12 ⟨2, 8, 4, 12⟩,
   opL 12 ⟨2, 8, 4, 12, 0, 255, false, false, 0, 0, none⟩, opW 12 ⟨3, 8, 4, 12⟩, opL 12 ⟨3, 8, 4, 12, 0, 255, false, false, 0, 0, none⟩,
   opW 12 ⟨4, 8, 4, 12⟩, opL 12 ⟨4, 8, 4, 12, 0, 255, false, false, 0, 0, none⟩, opL 13 ⟨0, 8, 4, 12, 16, 255, false, false, 0, 0, none⟩,
   opW 20 ⟨0, 8, 4, 12⟩, opL 20 ⟨0, 8, 4, 12, 0, 255, false, false, 0, 0, none⟩, opW 20 ⟨1, 8, 4, 12⟩,
   opL 20 ⟨1, 8, 4, 12, 0, 255, false, false, 0, 0, none⟩] :
  List Op).all (fun op => issueWith op [] base quiet) = true := by decide

/-- Forms of the floating instructions, those that round among them. -/
def floatForms : List Op := [opC 10 ⟨8, 12⟩, opW 32 ⟨0, 8, 4, 12⟩, opL 32 ⟨0, 8, 4, 12, 0, 255, false, false, 0, 0, none⟩, opC 11 ⟨8, 12⟩, opW 33 ⟨0, 8, 4, 12⟩,
   opL 33 ⟨0, 8, 4, 12, 0, 255, false, false, 0, 0, none⟩, opC 12 ⟨8, 12⟩, opW 34 ⟨0, 8, 4, 12⟩,
   opL 34 ⟨0, 8, 4, 12, 0, 255, false, false, 0, 0, none⟩, opL 35 ⟨0, 8, 4, 12, 16, 255, false, false, 0, 0, none⟩, opC 14 ⟨8, 12⟩,
   opW 36 ⟨0, 8, 4, 12⟩, opL 36 ⟨0, 8, 4, 12, 0, 255, false, false, 0, 0, none⟩, opC 13 ⟨8, 12⟩, opW 36 ⟨1, 8, 4, 12⟩,
   opL 36 ⟨1, 8, 4, 12, 0, 255, false, false, 0, 0, none⟩, opW 36 ⟨2, 8, 4, 12⟩, opL 36 ⟨2, 8, 4, 12, 0, 255, false, false, 0, 0, none⟩,
   opW 36 ⟨3, 8, 4, 12⟩, opL 36 ⟨3, 8, 4, 12, 0, 255, false, false, 0, 0, none⟩, opW 37 ⟨0, 8, 4, 12⟩,
   opL 37 ⟨0, 8, 4, 12, 0, 255, false, false, 0, 0, none⟩, opW 38 ⟨0, 8, 4, 0⟩, opL 38 ⟨0, 8, 4, 0, 0, 255, false, false, 0, 0, none⟩,
   opW 38 ⟨1, 8, 4, 0⟩, opL 38 ⟨1, 8, 4, 0, 0, 255, false, false, 0, 0, none⟩, opW 38 ⟨2, 8, 4, 12⟩,
   opL 38 ⟨2, 8, 4, 12, 0, 255, false, false, 0, 0, none⟩, opW 39 ⟨0, 8, 4, 12⟩, opL 39 ⟨0, 8, 4, 12, 0, 255, false, false, 0, 0, none⟩,
   opW 40 ⟨0, 8, 4, 0⟩, opL 40 ⟨0, 8, 4, 0, 0, 255, false, false, 0, 0, none⟩, opW 41 ⟨0, 8, 4, 0⟩,
   opL 41 ⟨0, 8, 4, 0, 0, 255, false, false, 0, 0, none⟩, opW 42 ⟨0, 8, 4, 0⟩, opL 42 ⟨0, 8, 4, 0, 0, 255, false, false, 0, 0, none⟩,
   opW 43 ⟨0, 8, 4, 12⟩, opL 43 ⟨0, 8, 4, 12, 0, 255, false, false, 0, 0, none⟩, opL 44 ⟨0, 8, 4, 12, 16, 255, false, false, 0, 0, none⟩]

theorem witness_FloatArithmetic : floatForms.all (fun op => issueWith op [] base quiet) = true := by decide

/-- Each form issues, and whatever its lanes give, nothing traps. -/
theorem witness_RoundedArithmetic : ∀ op ∈ floatForms, ∃ j s1, Issues op [] base j s1 ∧ ∀ f, NoFpTrap j f := fun op h =>
  let ⟨j, s1, h1, h2⟩ := issueWith_issues (List.all_eq_true.mp witness_FloatArithmetic op h)
  ⟨j, s1, h1, quiet_noFpTrap h2⟩

/-- Forms of the conversions. -/
def conversionForms : List Op := [opW 64 ⟨0, 8, 4, 0⟩, opL 64 ⟨0, 8, 4, 0, 0, 255, false, false, 0, 0, none⟩, opW 65 ⟨0, 8, 4, 0⟩,
   opL 65 ⟨0, 8, 4, 0, 0, 255, false, false, 0, 0, none⟩, opW 65 ⟨2, 8, 4, 0⟩, opL 65 ⟨2, 8, 4, 0, 0, 255, false, false, 0, 0, none⟩,
   opW 66 ⟨0, 8, 4, 0⟩, opL 66 ⟨0, 8, 4, 0, 0, 255, false, false, 0, 0, none⟩, opW 66 ⟨1, 8, 4, 0⟩,
   opL 66 ⟨1, 8, 4, 0, 0, 255, false, false, 0, 0, none⟩, opW 67 ⟨0, 8, 4, 0⟩, opL 67 ⟨0, 8, 4, 0, 0, 255, false, false, 0, 0, none⟩,
   opW 67 ⟨2, 8, 4, 12⟩, opL 67 ⟨2, 8, 4, 12, 0, 255, false, false, 0, 0, none⟩, opW 67 ⟨4, 8, 4, 12⟩,
   opL 67 ⟨4, 8, 4, 12, 0, 255, false, false, 0, 0, none⟩, opW 68 ⟨0, 8, 4, 0⟩, opL 68 ⟨0, 8, 4, 0, 0, 255, false, false, 0, 0, none⟩]

theorem witness_Conversions : conversionForms.all (fun op => issueWith op [] base quiet) = true := by decide

/-- Each form issues, and whatever its lanes give, nothing traps. -/
theorem witness_RoundedConversions : ∀ op ∈ conversionForms, ∃ j s1, Issues op [] base j s1 ∧ ∀ f, NoFpTrap j f := fun op h =>
  let ⟨j, s1, h1, h2⟩ := issueWith_issues (List.all_eq_true.mp witness_Conversions op h)
  ⟨j, s1, h1, quiet_noFpTrap h2⟩

theorem witness_SpecialFunctions : (
  [opW 192 ⟨0, 8, 4, 0⟩, opL 192 ⟨0, 8, 4, 0, 0, 255, false, false, 0, 0, none⟩, opW 192 ⟨1, 8, 4, 0⟩,
   opL 192 ⟨1, 8, 4, 0, 0, 255, false, false, 0, 0, none⟩, opW 192 ⟨2, 8, 4, 0⟩, opL 192 ⟨2, 8, 4, 0, 0, 255, false, false, 0, 0, none⟩,
   opW 192 ⟨3, 8, 4, 0⟩, opL 192 ⟨3, 8, 4, 0, 0, 255, false, false, 0, 0, none⟩, opW 192 ⟨4, 8, 4, 0⟩,
   opL 192 ⟨4, 8, 4, 0, 0, 255, false, false, 0, 0, none⟩, opW 192 ⟨5, 8, 4, 0⟩, opL 192 ⟨5, 8, 4, 0, 0, 255, false, false, 0, 0, none⟩,
   opW 192 ⟨6, 8, 4, 0⟩, opL 192 ⟨6, 8, 4, 0, 0, 255, false, false, 0, 0, none⟩, opW 192 ⟨7, 8, 4, 0⟩,
   opL 192 ⟨7, 8, 4, 0, 0, 255, false, false, 0, 0, none⟩, opW 193 ⟨0, 8, 4, 12⟩, opL 193 ⟨0, 8, 4, 12, 0, 255, false, false, 0, 0, none⟩,
   opW 194 ⟨0, 8, 4, 12⟩, opL 194 ⟨0, 8, 4, 12, 0, 255, false, false, 0, 0, none⟩] :
  List Op).all (fun op => issueWith op [] base quiet) = true := by decide

theorem witness_CrossLane : (
  [opW 80 ⟨0, 8, 4, 12⟩, opL 80 ⟨0, 8, 4, 12, 0, 255, false, false, 0, 0, none⟩, opW 81 ⟨0, 8, 4, 0⟩,
   opL 81 ⟨0, 8, 4, 0, 0, 255, false, false, 0, 0, none⟩, opW 85 ⟨0, 8, 0, 0⟩, opL 85 ⟨0, 8, 0, 0, 0, 255, false, false, 0, 0, none⟩,
   opW 86 ⟨0, 8, 4, 0⟩, opL 86 ⟨0, 8, 4, 0, 0, 255, false, false, 0, 0, none⟩, opW 87 ⟨0, 8, 4, 12⟩,
   opL 87 ⟨0, 8, 4, 12, 0, 255, false, false, 0, 0, none⟩, opW 84 ⟨0, 8, 0, 12⟩, opL 84 ⟨0, 8, 0, 12, 0, 255, false, false, 0, 0, none⟩] :
  List Op).all (fun op => issueWith op [] base quiet) = true := by decide

theorem witness_Reductions : (
  [opW 82 ⟨0, 8, 4, 0⟩, opL 82 ⟨0, 8, 4, 0, 0, 255, false, false, 0, 0, none⟩, opW 83 ⟨0, 8, 4, 0⟩,
   opL 83 ⟨0, 8, 4, 0, 0, 255, false, false, 0, 0, none⟩] :
  List Op).all (fun op => issueWith op [] base quiet) = true := by decide

/-! ## Accesses -/

/-- `LanesReach`, as a check: the machine that the lanes leave. -/
def reachLanes (b n x : Nat) (failed : List Nat) (need : Need) (ready : State → LaneAcc → Phys → Bool) (act : State → LaneAcc → Phys → State)
    (place : Nat → Phys) : State → List LaneAcc → Option State
  | s, [] => some s
  | s, q :: qs =>
    if reachTarget s x failed need q.tgt = .go (place q.lane) ∧ laneDies s b n (place q.lane) = false ∧
        ready (noteTarget s x q.tgt) q (place q.lane) = true then
      reachLanes b n x failed need ready act place (act (noteTarget s x q.tgt) q (place q.lane)) qs
    else none

theorem reachLanes_reach {b n x : Nat} {failed : List Nat} {need : Need} {ready : State → LaneAcc → Phys → Bool}
    {Ready : State → LaneAcc → Phys → Prop} {act : State → LaneAcc → Phys → State} {place : Nat → Phys}
    (hr : ∀ s q p, ready s q p = true → Ready s q p) : ∀ {qs : List LaneAcc} {s t : State},
    reachLanes b n x failed need ready act place s qs = some t → LanesReach b n x failed need Ready act place s qs t
  | [], s, t, h => by cases h; exact .none _
  | q :: qs, s, t, h => by
    unfold reachLanes at h
    split at h
    · rename_i hc
      exact .more _ _ _ _ hc.1 hc.2.1 (hr _ _ _ hc.2.2) (reachLanes_reach hr h)
    · cases h

/-- `AsksGo`, as a check. -/
def asksGo (x : Nat) (failed : List Nat) : State → List Ask → Option State
  | s, [] => some s
  | s, q :: qs =>
    match reachTarget s x failed q.need q.tgt with
    | .go _ => asksGo x failed (noteTarget s x q.tgt) qs
    | _ => none

theorem asksGo_goes {x : Nat} {failed : List Nat} : ∀ {qs : List Ask} {s t : State}, asksGo x failed s qs = some t → AsksGo x failed s qs t
  | [], s, t, h => by cases h; exact .none _
  | q :: qs, s, t, h => by
    unfold asksGo at h
    split at h
    · rename_i p hp
      exact .more _ _ _ _ _ hp (asksGo_goes h)
    · cases h

/-- Every address is a multiple of the size and leads somewhere. -/
def passes (n : Nat) (qs : List LaneAcc) : Bool := qs.all (fun q => decide (q.ea % n = 0 ∧ q.tgt ≠ .barred))

/-- Lane 0 at 0x120000, a page that the context may read, write and execute. -/
def at12 : State := withRegs [(4, 0x120000), (16, 7)] one
/-- That place. -/
def place12 (_l : Nat) : Phys := .cap 0x120000

theorem witness_Loads :
    issueWith (opW 0x60 ⟨4, 8, 4, 0⟩) [] at12 (fun j s1 => let qs := accesses s1 j (opW 0x60 ⟨4, 8, 4, 0⟩) 4 true false
      passes 4 qs && (reachLanes j.b 4 j.l.ctx j.failedPages needR (fun _ _ _ => true) (fun s _ p => touch s p false) place12 s1 qs).isSome) = true ∧
    issueWith (opL 0x60 ⟨1, 8, 4, 1, 0, 255, false, false, 2, 0, none⟩) [] (withRegs [(4, 0x100)] { one with full := [2] })
      (fun j s1 => let qs := accesses s1 j (opL 0x60 ⟨1, 8, 4, 1, 0, 255, false, false, 2, 0, none⟩) 1 true false
        passes 1 qs && (reachLanes j.b 1 j.l.ctx j.failedPages needR (fun s _ p => lineFull s p) (fun s _ p => touch s p false)
          (fun _ => .spad 0x100) s1 qs).isSome) = true ∧
    issueWith (opW 0x6D ⟨4, 8, 4, 0⟩) [] at12 (fun j s1 =>
      let qs := j.accs (address j (opW 0x6D ⟨4, 8, 4, 0⟩)) (fun ea l => targetOf s1 j 0 ea 4 l false false)
      passes 4 qs && (match asksGo j.l.ctx j.failedPages s1 (qs.map (fun q => { lane := q.lane, tgt := q.tgt, need := needR })) with
        | some s2 => qs.all (fun q => decide (placeOf s2 j.l.ctx q.tgt = some (place12 q.lane)) &&
            !poisoned s2 (shadowOf s2 j.b) (place12 q.lane) 4)
        | none => false)) = true := by decide

/-- `HasUnit`, as a check. -/
abbrev HasUnit' (j : Iss) : Prop := (j.l.lr.commit = 0 ∨ j.l.st ≠ .discarded) ∧ (j.l.lr.commit ≤ 1 ∨ gangOf j.l j.k ≠ none)

theorem hasUnit_of {j : Iss} (h : HasUnit' j) : HasUnit j := h

theorem witness_Stores :
    issueWith (opL 0x61 ⟨2, 0, 4, 0, 16, 255, false, false, 0, 0, none⟩) [] at12 (fun j s1 =>
      let op := opL 0x61 ⟨2, 0, 4, 0, 16, 255, false, false, 0, 0, none⟩
      let data := fun l => some (storeData j op l)
      let qs := accesses s1 j op 4 false true
      decide (HasUnit' j) && passes 4 qs && (reachLanes j.b 4 j.l.ctx j.failedPages needW
        (fun s _ p => storeRoom s (j.writer op.o.rm.toNat false) p) (storeAct j op 4 true data) place12 s1 qs).isSome) = true := by decide

theorem witness_Atomics :
    issueWith (opL 0x62 ⟨0, 8, 4, 0, 16, 255, false, false, 0, 0, none⟩) [] at12 (fun j s1 =>
      let op := opL 0x62 ⟨0, 8, 4, 0, 16, 255, false, false, 0, 0, none⟩
      let data := atomData j op (fun _ => 0)
      let qs := accesses s1 j op 4 false true
      decide (HasUnit' j) && passes 4 qs && (reachLanes j.b 4 j.l.ctx j.failedPages needRW
        (fun s _ p => decide (0 = bytesAt s (shadowOf s j.b) p 4) && storeRoom s (j.writer op.o.rm.toNat false) p)
        (storeAct j op 4 false data) place12 s1 qs).isSome) = true ∧
    issueWith (opL 0x63 ⟨2, 8, 4, 0, 16, 255, false, false, 0, 0, none⟩) [] at12 (fun j s1 =>
      let op := opL 0x63 ⟨2, 8, 4, 0, 16, 255, false, false, 0, 0, none⟩
      let data := atom64Data j op (fun _ => 0)
      let qs := accesses s1 j op 8 false true
      decide (HasUnit' j) && passes 8 qs && (reachLanes j.b 8 j.l.ctx j.failedPages needRW
        (fun s q p => decide (0 = bytesAt s (shadowOf s j.b) p 8) && (decide (data q.lane = none) || storeRoom s (j.writer op.o.rm.toNat false) p))
        (storeAct j op 8 true data) place12 s1 qs).isSome) = true := by decide

/-- The launch has a handler, and the lanes' first check fails with that code. -/
def trapsWith (op : Op) (n : Nat) (load write : Bool) (code : Nat) (j : Iss) (s1 : State) : Bool :=
  decide (j.front = false ∧ j.m.trap = none ∧ j.l.lr.handler ≠ 0) &&
    decide ((firstAddressTrap n (accesses s1 j op n load write)).map (fun r => r.code) = some code)

theorem witness_AddressChecks :
    issueWith (opW 0x60 ⟨4, 8, 4, 0⟩) [] (handled (withRegs [(4, 2)] one)) (trapsWith (opW 0x60 ⟨4, 8, 4, 0⟩) 4 true false 0x06) = true ∧
    issueWith (opL 0x60 ⟨4, 8, 4, 0, 0, 255, false, false, 0, 0, none⟩) [] (handled (withRegs [(5, 0x1000000)] one))
      (trapsWith (opL 0x60 ⟨4, 8, 4, 0, 0, 255, false, false, 0, 0, none⟩) 4 true false 0x08) = true ∧
    issueWith (opL 0x61 ⟨1, 0, 4, 0, 16, 255, false, false, 0, 0, none⟩) [] (handled (withRegs [(4, 1)] one))
      (trapsWith (opL 0x61 ⟨1, 0, 4, 0, 16, 255, false, false, 0, 0, none⟩) 2 false true 0x06) = true ∧
    issueWith (opL 0x62 ⟨0, 8, 4, 0, 16, 255, false, false, 0, 0, none⟩) [] (handled (withRegs [(4, 2)] one))
      (trapsWith (opL 0x62 ⟨0, 8, 4, 0, 16, 255, false, false, 0, 0, none⟩) 4 false true 0x06) = true ∧
    issueWith (opL 0x63 ⟨0, 8, 4, 0, 16, 255, false, false, 0, 0, none⟩) [] (handled (withRegs [(4, 4)] one))
      (trapsWith (opL 0x63 ⟨0, 8, 4, 0, 16, 255, false, false, 0, 0, none⟩) 8 false true 0x06) = true ∧
    issueWith (opW 0x6C ⟨0, 0, 4, 0⟩) [] (handled (withRegs [(5, 0x1000000)] one)) (trapsWith (opW 0x6C ⟨0, 0, 4, 0⟩) 1 true false 0x08) = true := by
  decide

theorem witness_FencesHintsFlushes :
    issueWith (opL 0x64 ⟨0, 0, 0, 0, 0, 255, false, false, 0, 1, none⟩) [] one (fun _ _ => true) = true ∧
    issueWith (opW 0x6B ⟨0, 0, 4, 0⟩) [] at12 (fun j _ => j.lanes.all (fun l => decide (address j (opW 0x6B ⟨0, 0, 4, 0⟩) l < 2 ^ 56))) = true ∧
    issueWith (opW 0x6C ⟨1, 0, 4, 0⟩) [] at12 (fun j s1 => let qs := accesses s1 j (opW 0x6C ⟨1, 0, 4, 0⟩) 1 true false
      passes 1 qs && (reachLanes j.b 1 j.l.ctx j.failedPages needR (fun _ _ _ => true) (fun s _ p => flushLine s p true) place12 s1 qs).isSome) = true := by
  decide

/-! ## Control -/

/-- A call needs an empty place on each caller's stack: seven entries are taken. -/
def deep (n : Nat) : State → State := onTeams (fun m => { m with rets := [(0, List.replicate n 0x100040)] })
/-- The front program issues. -/
def front : State := { base with cur := .split 0 16 0 }
/-- The groups of lanes that go on, each at one address, find entries. -/
def finds (pc : Iss → Nat → BitVec 56) (j : Iss) : Bool :=
  decide ((goings [] ((activeLanes j).map (fun l => (l, pc j l)))).length ≤ freeEntries j.m + 1)
/-- The lanes taken by a branch, and those not. -/
def splitsInto (o : LOps) (t n : Nat) (j : Iss) (_s : State) : Bool :=
  decide (((activeLanes j).filter (takes j o)).length = t ∧ ((activeLanes j).filter (fun l => !takes j o l)).length = n)

/-- Every entry of the split table taken. -/
def fullTable : State → State := onTeams (fun m => { m with splits := (List.range 16).filterMap (fun e => (Tbl.get m.splits 0).map (fun p => (e, p))) })
/-- Slots that may be read and run but not written. -/
def unwritable (s : State) : State := { s with mem := tableEntry s.mem 0x40000 0x2B }
/-- A lane's branch divides the split, whose slots of the deferral stack translate, or are denied. -/
def defersWith (bad : List (Nat × Nat × Nat)) (j : Iss) (s1 : State) : Bool :=
  let r := askAll j.l.ctx j.failedPages { s := s1, bad := [], waits := [] } (deferAsks s1 j 2)
  decide (freeEntries j.m = 0 ∧ r.waits = [] ∧ r.bad.head? = bad.head?)

theorem witness_Branches :
    issueWith (opL 0x80 ⟨0, 4, 0, 0, 255, 255, false, false, 0, 0, none⟩) [] base (splitsInto ⟨0, 4, 0, 0, 255, 255, false, false, 0, 0, none⟩ 32 0) = true ∧
    issueWith (opL 0x80 ⟨0, 4, 0, 0, 16, 255, false, false, 0, 0, none⟩) [] base (splitsInto ⟨0, 4, 0, 0, 16, 255, false, false, 0, 0, none⟩ 0 32) = true ∧
    issueWith (opL 0x80 ⟨3, 4, 0, 0, 16, 255, false, false, 0, 0, none⟩) [] (withRegs [(16, 1)] base)
      (fun j s1 => splitsInto ⟨3, 4, 0, 0, 16, 255, false, false, 0, 0, none⟩ 1 31 j s1 && decide (freeEntries j.m ≠ 0)) = true ∧
    issueWith (opL 0x80 ⟨3, 4, 0, 0, 16, 255, false, false, 0, 0, none⟩) [] (fullTable (withRegs [(16, 1)] base))
      (fun j s1 => splitsInto ⟨3, 4, 0, 0, 16, 255, false, false, 0, 0, none⟩ 1 31 j s1 && defersWith [] j s1) = true ∧
    issueWith (opL 0x80 ⟨3, 4, 0, 0, 16, 255, false, false, 0, 0, none⟩) [] (unwritable (handled (fullTable (withRegs [(16, 1)] base))))
      (fun j s1 => decide (CanTrap' j) && splitsInto ⟨3, 4, 0, 0, 16, 255, false, false, 0, 0, none⟩ 1 31 j s1 && defersWith [(0, 0x08, 0x1A0000)] j s1) = true ∧
    issueWith (opL 0x85 ⟨0, 4, 0, 0, 255, 255, false, false, 0, 0, none⟩) [] (onTeams (fun m => { m with dq := [1] }) base)
      (fun j _ => decide (j.m.dq = [1])) = true := by decide

theorem witness_CallsReturnsExits :
    issueWith (opL 0x82 ⟨0, 4, 0, 0, 255, 255, false, false, 0, 0, none⟩) [] (deep 7 base)
      (fun j _ => decide (∀ l ∈ (activeLanes j).filter (takes j ⟨0, 4, 0, 0, 255, 255, false, false, 0, 0, none⟩), (stackOf j l).length < 8) &&
        finds (fun j _ => target j ⟨0, 4, 0, 0, 255, 255, false, false, 0, 0, none⟩) j) = true ∧
    issueWith (opW 0x82 ⟨1, 0, 4, 0⟩) [] (withRegs [(4, 0x100040)] (deep 7 one)) (fun j _ =>
      decide (∀ l ∈ j.lanes, (j.a64 (opW 0x82 ⟨1, 0, 4, 0⟩) l).toNat % 2 = 0 ∧ (j.a64 (opW 0x82 ⟨1, 0, 4, 0⟩) l).toNat < 2 ^ 56 ∧
        (stackOf j l).length < 8) && finds (fun j l => BitVec.ofNat 56 (j.a64 (opW 0x82 ⟨1, 0, 4, 0⟩) l).toNat) j) = true ∧
    issueWith (opW 0x82 ⟨1, 0, 4, 0⟩) [] (handled (withRegs [(4, 1)] one)) (fun j _ => decide (CanTrap' j) &&
      decide ((j.lanes.filter (fun l => (j.a64 (opW 0x82 ⟨1, 0, 4, 0⟩) l).toNat % 2 = 1)).head? = some 0)) = true ∧
    issueWith (opW 0x82 ⟨1, 0, 4, 0⟩) [] (handled (withRegs [(5, 0x1000000)] one)) (fun j _ => decide (CanTrap' j) &&
      decide ((∀ q ∈ j.lanes, (j.a64 (opW 0x82 ⟨1, 0, 4, 0⟩) q).toNat % 2 = 0) ∧
        (j.lanes.filter (fun l => 2 ^ 56 ≤ (j.a64 (opW 0x82 ⟨1, 0, 4, 0⟩) l).toNat)).head? = some 0)) = true ∧
    issueWith (opW 0x83 ⟨0, 0, 0, 0⟩) [] (deep 8 one) (fun j _ => decide (∀ l ∈ j.lanes, stackOf j l ≠ []) &&
      finds (fun j l => (stackOf j l).headD 0) j) = true ∧
    issueWith (opW 0x83 ⟨0, 0, 0, 0⟩) [] base (fun j _ => decide (j.front = false ∧ (∀ h ∈ j.k.handles, h.owner ≠ j.t) ∧
      ∀ l ∈ j.lanes, stackOf j l = [] ∧ Tbl.getD j.m.spilled l 0 = 0)) = true ∧
    issueWith (opW 0x83 ⟨0, 0, 0, 0⟩) [] (deep 8 base) (fun j _ => decide (j.front = false ∧ (∀ h ∈ j.k.handles, h.owner ≠ j.t) ∧
      (j.lanes.filter (fun l => stackOf j l = [] ∧ spillsOf j l = 0)).length = 31) && finds (fun j l => (stackOf j l).headD 0) j) = true ∧
    issueWith (opW 0x84 ⟨0, 0, 0, 0⟩) [] base (fun j _ => decide (j.front = false ∧ ∀ h ∈ j.k.handles, h.owner ≠ j.t)) = true ∧
    issueWith (opW 0x84 ⟨0, 0, 0, 0⟩) [] (onTeams (fun m => { m with bars := [] }) one) (fun j s1 => decide (j.front = false ∧
      (∀ h ∈ j.k.handles, h.owner ≠ j.t)) && (teamOf s1 j.b j.t).any (fun m => decide (m.defer = [] ∧ m.trap = none ∧ m.joins = [] ∧ m.bars = [] ∧
        allLanes m.width &&& ~~~(m.ex ||| j.ex) &&& ~~~m.dead ≠ 0 ∧ j.p.mask &&& ~~~liveLanes m = 0))) = true ∧
    issueWith (opL 0x84 ⟨0, 0, 0, 0, 0, 255, false, false, 0, 0, none⟩) [] front (fun j _ => decide (j.front = true)) = true := by decide

/-- The lanes of a join record that still live, and those of the splits that wait for it once this one does. -/
def joinLanes (op : Op) (j : Iss) (s1 : State) : Option (Mask × Mask) :=
  match Tbl.get j.m.joins op.o.f.toNat, teamOf s1 j.b j.t with
  | some e, some m =>
    let self : Split := { j.p with pc := j.next op, st := .waitJoin op.o.f.toNat }
    let waiting := ((Tbl.put m.splits j.e self).filter (fun c => c.2.st = .waitJoin op.o.f.toNat)).map (fun c => c.2) ++
      m.defer.filter (fun p => p.st = .waitJoin op.o.f.toNat)
    some (waiting.foldl (fun k p => k ||| p.mask) 0, e &&& ~~~m.ex &&& ~~~m.dead)
  | _, _ => none

theorem witness_Joins :
    issueWith (opW 0x81 ⟨3, 0, 0, 0⟩) [] one (fun j _ => decide (Tbl.get j.m.joins 3 = none)) = true ∧
    issueWith (opW 0x81 ⟨3, 0, 0, 0⟩) [] (onTeams (fun m => { m with joins := [(3, 3)] }) one)
      (fun j s1 => decide (joinLanes (opW 0x81 ⟨3, 0, 0, 0⟩) j s1 = some (1, 3))) = true ∧
    issueWith (opW 0x81 ⟨3, 0, 0, 0⟩) [] (onTeams (fun m => { m with joins := [(3, 1)] }) one)
      (fun j s1 => decide (joinLanes (opW 0x81 ⟨3, 0, 0, 0⟩) j s1 = some (1, 1))) = true := by decide

theorem witness_TrapsAndYield :
    issueWith (opW 0x86 ⟨0, 0, 4, 0⟩) [2] (handled base) (fun j _ => decide (CanTrap' j)) = true ∧
    issueWith (opW 0x87 ⟨0, 0, 0, 0⟩) [] (handled base) (fun j s1 => decide (CanTrap' j ∧ (ctxOf s1 j.l.ctx).debug = false)) = true ∧
    issueWith (opW 0x87 ⟨0, 0, 0, 0⟩) [] (onCtxs (fun c => { c with debug := true }) base)
      (fun j s1 => decide ((ctxOf s1 j.l.ctx).debug = true ∧ j.m.st = .running ∧ j.p.stopped = false)) = true ∧
    issueWith (opW 0x88 ⟨0, 0, 0, 0⟩) [] base (fun _ _ => true) = true := by decide

/-! ## The team, its barriers and timelines -/

/-- Membership of barrier 4. -/
def member (q : Option BarMember) : State → State := onTeams (fun m => { m with bars := match q with
  | some r => Tbl.put m.bars 4 r
  | none => Tbl.del m.bars 4 })
/-- A barrier with a phase. -/
def phase (n : Nat) : State → State := onBlocks (fun k => { k with bars := k.bars.map (fun b => { b with phase := n }) })
/-- The issuer's membership of barrier 4, as the clauses about BAR divide it: in AL, its last phase and the barrier's. -/
def barCase (q : Option (Bool × Option Nat)) (ph : Nat) (j : Iss) (s1 : State) : Bool :=
  decide (4 < j.k.bars.length ∧ (barOf s1 j.b 4).phase = ph ∧
    (Tbl.get j.m.bars 4).map (fun r => (decide (j.p.mask &&& ~~~r.al = 0), r.lp)) = q)

theorem witness_BarriersAndMembership :
    issueWith (opW 0x90 ⟨0, 0, 4, 0⟩) [] (handled (member none base)) (fun j s1 => decide (CanTrap' j) && barCase none 0 j s1) = true ∧
    issueWith (opW 0x90 ⟨0, 0, 4, 0⟩) [] (member (some { al := allLanes 32, lp := none }) base) (barCase (some (true, none)) 0) = true ∧
    issueWith (opW 0x90 ⟨0, 0, 4, 0⟩) [] (member (some { al := 0, lp := some 0 }) base) (barCase (some (false, some 0)) 0) = true ∧
    issueWith (opW 0x90 ⟨0, 0, 4, 0⟩) [] base (barCase (some (false, none)) 0) = true ∧
    issueWith (opW 0x90 ⟨2, 0, 4, 0⟩) [] one (barCase (some (false, none)) 0) = true ∧
    issueWith (opW 0x90 ⟨1, 0, 4, 0⟩) [] (member (some { al := allLanes 32, lp := none }) base) (barCase (some (true, none)) 0) = true ∧
    issueWith (opW 0x90 ⟨1, 0, 4, 0⟩) [] (phase 1 (member (some { al := 0, lp := some 0 }) base)) (barCase (some (false, some 0)) 1) = true ∧
    issueWith (opW 0x90 ⟨1, 0, 4, 0⟩) [] (member (some { al := 0, lp := some 0 }) base) (barCase (some (false, some 0)) 0) = true ∧
    issueWith (opW 0x90 ⟨1, 0, 4, 0⟩) [] (handled base) (fun j s1 => decide (CanTrap' j) && barCase (some (false, none)) 0 j s1) = true ∧
    issueWith (opL 0x90 ⟨0, 0, 3, 0, 0, 255, false, false, 0, 1, none⟩) [] base
      (fun j _ => decide ((gangOf j.l j.k).any (fun g => 3 < g.bars.length))) = true ∧
    issueWith (opW 0x91 ⟨0, 0, 4, 0⟩) [2] (handled (withRegs [(4, 0x100000)] one))
      (fun j _ => decide (CanTrap' j ∧ (barMask j (opW 0x91 ⟨0, 0, 4, 0⟩)).toNat / 2 ^ 20 ≠ 0)) = true ∧
    issueWith (opW 0x91 ⟨0, 0, 4, 0⟩) [2] (member none (withRegs [(4, 0xFFFFF)] one)) (fun j s1 =>
      decide ((barMask j (opW 0x91 ⟨0, 0, 4, 0⟩)).toNat / 2 ^ 20 = 0 ∧ 16 ≤ j.k.bars.length ∧
        (gangOf j.l j.k).any (fun g => decide (4 ≤ g.bars.length)) = true ∧ ∀ n ∈ List.range 20, (barOf s1 j.b n).a ≤ (barOf s1 j.b n).m)) = true ∧
    issueWith (opW 0x91 ⟨1, 0, 4, 0⟩) [2] (withRegs [(4, 0x10)] one) (fun j _ =>
      decide ((barMask j (opW 0x91 ⟨1, 0, 4, 0⟩)) = 0x10 ∧ Tbl.get j.m.bars 4 ≠ none)) = true ∧
    issueWith (opW 0x91 ⟨1, 0, 4, 0⟩) [2] (handled (member none (withRegs [(4, 0x10)] one))) (fun j _ =>
      decide (CanTrap' j ∧ ((List.range 20).filter (fun n => (barMask j (opW 0x91 ⟨1, 0, 4, 0⟩)).getLsbD n && (Tbl.get j.m.bars n).isNone)).head? = some 4)) = true ∧
    issueWith (opW 0x92 ⟨0, 8, 4, 0⟩) [2] (onLaunches (fun l => { l with lr := { l.lr with maxt := 3, jentry := 0x100000 } }) (withRegs [(4, 3)] one))
      (fun j s1 => decide (j.l.lr.maxt ≤ 16 ∧ (s1.blocks.map (fun c => c.1)).Pairwise (fun a c => a < c) ∧
        (j.k.teams.map (fun c => c.1)).Pairwise (fun a c => a < c) ∧ blockResident j.k = true ∧ grantOf s1 j 3 = 2)) = true ∧
    issueWith (opW 0x92 ⟨1, 8, 0, 0⟩) [] base (fun _ _ => true) = true := by decide

/-- The selector that an instruction names, the value of its timeline and the leader's a. -/
def timelineCase (op : Op) (sel v n : Nat) (j : Iss) (s1 : State) : Bool :=
  decide (selNamed j op = sel ∧ timelineValue s1 j sel = v ∧ (j.a64 op j.leader).toNat = n)

theorem witness_Timelines :
    issueWith (opW 0x93 ⟨0, 8, 4, 12⟩) [2, 3] (withRegs [(4, 1)] one) (timelineCase (opW 0x93 ⟨0, 8, 4, 12⟩) 0 0 1) = true ∧
    issueWith (opW 0x93 ⟨0, 8, 4, 12⟩) [2, 3] (withRegs [(12, 0x1002)] one) (timelineCase (opW 0x93 ⟨0, 8, 4, 12⟩) 0x1002 0 0) = true ∧
    issueWith (opW 0x93 ⟨1, 8, 4, 12⟩) [2, 3] (withRegs [(12, 0x1002)] one) (timelineCase (opW 0x93 ⟨1, 8, 4, 12⟩) 0x1002 0 0) = true ∧
    issueWith (opW 0x93 ⟨0, 8, 4, 12⟩) [2, 3] (handled (withRegs [(12, 0x1003)] one)) (fun j s1 =>
      decide (CanTrap' j) && timelineCase (opW 0x93 ⟨0, 8, 4, 12⟩) 0x1003 0 0 j s1) = true ∧
    issueWith (opW 0x94 ⟨0, 8, 0, 12⟩) [3] (withRegs [(12, 0xFFF)] one) (fun j _ => decide (selNamed j (opW 0x94 ⟨0, 8, 0, 12⟩) = 0xFFF)) = true ∧
    issueWith (opW 0x95 ⟨0, 0, 4, 12⟩) [2, 3] (withRegs [(12, 0xFFF), (4, 5)] one) (fun j s1 =>
      decide (selNamed j (opW 0x95 ⟨0, 0, 4, 12⟩) = 0xFFF ∧ tlOwner (ctxOf s1 j.l.ctx) 0xFFF = .software ∧ j.l.lr.commit = 0)) = true ∧
    issueWith (opW 0x95 ⟨0, 0, 4, 12⟩) [2, 3] (onLaunches (fun l => { l with lr := { l.lr with commit := 1 } }) one) (fun j s1 =>
      decide (selNamed j (opW 0x95 ⟨0, 0, 4, 12⟩) = 0 ∧ tlOwner (ctxOf s1 j.l.ctx) 0 = .software ∧ j.l.lr.commit = 1)) = true ∧
    issueWith (opW 0x95 ⟨0, 0, 4, 12⟩) [2, 3] (onLaunches (fun l => { l with lr := { l.lr with commit := 2 } }) one) (fun j s1 =>
      decide (selNamed j (opW 0x95 ⟨0, 0, 4, 12⟩) = 0 ∧ tlOwner (ctxOf s1 j.l.ctx) 0 = .software ∧ j.l.lr.commit = 2 ∧ gangOf j.l j.k ≠ none)) = true ∧
    issueWith (opW 0x95 ⟨0, 0, 4, 12⟩) [2, 3] (handled (withRegs [(12, 0x1000)] one)) (fun j _ =>
      decide (CanTrap' j ∧ selNamed j (opW 0x95 ⟨0, 0, 4, 12⟩) = 0x1000)) = true := by decide

/-- XSET of X0 with descriptor `d` in lane 0. -/
def setsX (d : Word) (s : State) (p : Iss → Bool) : Bool :=
  issueWith (opL 0x96 ⟨0, 0xF8, 4, 0, 0, 255, false, false, 0, 0, none⟩) [2] (withRegs [(4, d)] s)
    (fun j _ => decide (j.av (opL 0x96 ⟨0, 0xF8, 4, 0, 0, 255, false, false, 0, 0, none⟩) j.leader = d) && p j)

theorem witness_IndexRegisters :
    setsX 0x10000000 (handled one) (fun j => decide (CanTrap' j)) = true ∧ setsX 0x00F00000 (handled one) (fun j => decide (CanTrap' j)) = true ∧
    setsX 0x00040804 (handled one) (fun j => decide (CanTrap' j ∧ j.m.nregs = 240)) = true ∧
    setsX 0x00EF0000 one (fun j => decide (0xEF < j.m.nregs)) = true ∧
    issueWith (opL 0x96 ⟨1, 8, 0xF8, 0, 0, 255, false, false, 0, 0, none⟩) [] one (fun _ _ => true) = true := by decide

theorem witness_DecisionQueue :
    issueWith (opW 0x97 ⟨0, 0, 4, 12⟩) [] (withRegs [(12, 5)] front) (fun j _ => decide ((j.bv (opW 0x97 ⟨0, 0, 4, 12⟩) 0).toNat ∉ liveTeams j.k)) = true ∧
    issueWith (opW 0x97 ⟨0, 0, 4, 12⟩) [] (onTeams (fun m => { m with dq := List.replicate 16 1 }) front) (fun j _ =>
      decide (0 ∈ liveTeams j.k ∧ (Tbl.get j.k.teams 0).map (fun m => m.dq.length) = some 16)) = true ∧
    issueWith (opW 0x97 ⟨0, 0, 4, 12⟩) [] (onTeams (fun m => { m with dq := List.replicate 15 1 }) front) (fun j _ =>
      decide (0 ∈ liveTeams j.k ∧ j.t ≠ 0 ∧ (Tbl.get j.k.teams 0).map (fun m => m.dq.length) = some 15)) = true := by decide

/-! ## Engine instructions -/

/-- The L64 operands whose fields d, a, b, c are those of the register slots 8, 4, 12, 16. -/
def slots (f : BitVec 4) : LOps := ⟨f, 8, 4, 12, 16, 255, false, false, 0, 0, none⟩
/-- An allocation of the block. -/
def allocAt (off len gen span : Nat) : Alloc :=
  { off := off, len := len, gen := gen, span := span, busy := false, mcast := 0, waitCmds := [], waitCopies := [] }
/-- The block has those allocations. -/
def withAllocs (as : List Alloc) : State → State := onBlocks (fun k => { k with allocs := as })
/-- Memory holds a little-endian doubleword. -/
def withWord (a v : Nat) (s : State) : State := { s with mem := writeBytes s.mem a (leBytes 8 v) }
/-- An open instruction that keeps nothing but what is named. -/
def opened (spgen : Option Nat) (latched : Bool) : Held :=
  { xs := [], q0 := none, q1 := none, done := 0, waits := [], failed := [], spgen := spgen, latched := latched, code := none, fetching := false }
/-- A copy of a tag. -/
def copyOf (tag : Nat) : TagCopy := { id := 0, tag := tag, fe := false, space := 0, lanes := [], doneLines := [] }
/-- The bytes of a record whose pieces translate, as `RecordReads` gives them. -/
def recordOf (j : Iss) (a n : Nat) (s : State) : Option (State × List Byte) :=
  if a % 64 = 0 then
    match asksGo j.l.ctx j.failedPages s ((List.range (n / 64)).map (fun k =>
      { lane := j.leader, tgt := globalTarget s j.l.ctx (a + 64 * k) true, need := needR })) with
    | none => none
    | some s2 => some (s2, (List.range (n / 64)).flatMap (fun k => readRecord s2 j.b j.l.ctx (a + 64 * k) 64))
  else none

theorem recordOf_reads {j : Iss} {a n : Nat} {s s2 : State} {bs : List Byte} (h : recordOf j a n s = some (s2, bs)) :
    RecordReads j a n s s2 bs := by
  unfold recordOf at h
  split at h
  · rename_i ha
    split at h
    · cases h
    · rename_i t ht
      cases h
      exact ⟨ha, asksGo_goes ht, rfl⟩
  · cases h

/-- CPY32 of lane 0: 32 bytes of 0x120000 to the scratchpad's start. -/
def copyState (n : Nat) : State :=
  onTeams (fun m => { m with copies := List.replicate n (copyOf 0) }) (withAllocs [allocAt 0 1024 1 0] (withRegs [(12, 0x120000), (16, 32)] one))
/-- CPY32 reads, and its tag has so many copies outstanding. -/
def copyGoes (n : Nat) (j : Iss) (s1 : State) : Bool :=
  let op := opL 0x65 ⟨0, 0, 4, 12, 16, 255, false, false, 0, 0, none⟩
  decide (cpyTrap s1 j op = none) && decide (outstanding j.m 0 = n) &&
  (asksGo j.l.ctx j.failedPages s1 (j.lanes.flatMap (fun l => (List.range (min (j.c op l).toNat 32)).map (fun q =>
    { lane := l, tgt := targetOf s1 j op.o.rm.toNat ((j.b64 op l).toNat + q) 1 l false false, need := needR })))).isSome
/-- A tensor copy of a box of 8 words of a row of 8 words at 0x130000. -/
def tensorState : State :=
  withWord 0x120018 (8 * 2 ^ 32 + 8 * 2 ^ 48) (withWord 0x120008 8 (withWord 0x120000 (2 ^ 60 + 2 * 2 ^ 56 + 0x130000)
    (withAllocs [allocAt 0 1024 1 0] (withRegs [(4, 0x120000)] one))))
/-- TCOPY's record reads, and every check passes. -/
def tensorGoes (op : Op) (j : Iss) (s1 : State) : Bool :=
  match recordOf j (j.a64 op j.leader).toNat 64 s1 with
  | none => false
  | some (_, bs) => let y := parseLayout bs
    decide (coordsMissing j op y = false ∧ tcopyReason j op bs (coordinates j op y.rank) = none ∧ j.k.copyTl.n < 2 ^ 64 - 1)

theorem witness_CopyInstructions :
    issueWith (opL 0x65 ⟨0, 0, 4, 12, 16, 255, false, false, 0, 0, none⟩) [] (copyState 62) (copyGoes 62) = true ∧
    issueWith (opL 0x65 ⟨0, 0, 4, 12, 16, 255, false, false, 0, 0, none⟩) [] (copyState 63) (copyGoes 63) = true ∧
    issueWith (opW 0x66 ⟨0, 0, 0, 3⟩) [] (copyState 3) (fun j _ => decide (outstanding j.m 0 = 3)) = true ∧
    issueWith (opW 0x66 ⟨0, 0, 0, 3⟩) [] (copyState 4) (fun j _ => decide (outstanding j.m 0 = 4)) = true ∧
    issueWith (opL 0x67 (slots 0)) [2, 3, 4] tensorState (tensorGoes (opL 0x67 (slots 0))) = true ∧
    issueWith (opL 0x67 (slots 1)) [2, 3, 4] tensorState (tensorGoes (opL 0x67 (slots 1))) = true ∧
    issueWith (opL 0x68 (slots 0)) [2, 3, 4] (withAllocs [allocAt 0 1024 1 0] (withRegs [(6, 16), (7, 1), (12, 64)] one))
      (fun j _ => decide (mcastTrap j (opL 0x68 (slots 0)) = none ∧ j.k.copyTl.n < 2 ^ 64 - 1)) = true := by decide

/-- `freeRun` on a machine whose allocations are those of its one block. -/
def freeFrom (s : State) (core off n : Nat) : Bool :=
  decide (off + n ≤ 524288) && s.blocks.all (fun c => decide (c.2.core = core → c.2.st ≠ .saved → c.2.st ≠ .complete →
    ∀ a ∈ c.2.allocs, off + n ≤ a.off ∨ a.off + a.len ≤ off))

theorem freeFrom_free {s : State} {core off n : Nat} (h : freeFrom s core off n = true) : freeRun s core off n := by
  simp only [freeFrom, Bool.and_eq_true, decide_eq_true_eq, List.all_eq_true] at h
  exact ⟨h.1, fun b k hk => h.2 (b, k) hk⟩

/-- SPALLOC of `n` bytes with control word `w`: its operands, the block's allocations and whether offset `off` is free. -/
def allocCase (n w count off : Nat) (free : Bool) (j : Iss) (s1 : State) : Bool :=
  decide ((j.a (opW 0x69 ⟨0, 8, 4, 12⟩) j.leader).toNat = n ∧ (j.bv (opW 0x69 ⟨0, 8, 4, 12⟩) j.leader).toNat = w ∧ j.k.allocs.length = count) &&
    freeFrom s1 j.k.core off n == free
/-- SPALLOC's operands in lane 0. -/
def spallocState (n w : Word) (as : List Alloc) : State := withAllocs as (withRegs [(4, n), (12, w)] one)

theorem witness_ScratchpadInstructions :
    issueWith (opW 0x69 ⟨0, 8, 4, 12⟩) [2, 3] (handled (spallocState 127 0 [])) (fun j s1 => decide (CanTrap' j) && allocCase 127 0 0 0 true j s1) = true ∧
    issueWith (opW 0x69 ⟨0, 8, 4, 12⟩) [2, 3] (handled (spallocState 128 8 [])) (fun j s1 => decide (CanTrap' j) && allocCase 128 8 0 0 true j s1) = true ∧
    issueWith (opW 0x69 ⟨0, 8, 4, 12⟩) [2, 3] (spallocState 128 7 (List.replicate 16 (allocAt 0 128 1 0))) (allocCase 128 7 16 128 true) = true ∧
    issueWith (opW 0x69 ⟨0, 8, 4, 12⟩) [2, 3] (spallocState 524288 0 (List.replicate 15 (allocAt 0 128 1 0))) (allocCase 524288 0 15 0 false) = true ∧
    issueWith (opW 0x69 ⟨0, 8, 4, 12⟩) [2, 3] (spallocState 524160 7 (List.replicate 15 (allocAt 0 128 1 0))) (allocCase 524160 7 15 128 true) = true ∧
    issueWith (opW 0x69 ⟨1, 0, 4, 0⟩) [2] (onSplits (fun p => { p with held := some (opened (some 9) false) }) one)
      (fun j _ => decide (j.p.held.bind (fun h => h.spgen) = some 9 ∧ ∀ a ∈ j.k.allocs, a.gen ≠ 9)) = true ∧
    issueWith (opW 0x69 ⟨1, 0, 4, 0⟩) [2] (handled one) (fun j _ => decide (CanTrap' j ∧ j.p.held.bind (fun h => h.spgen) = none ∧
      ∀ a ∈ j.k.allocs, a.busy = true ∨ a.handle ≠ j.a (opW 0x69 ⟨1, 0, 4, 0⟩) j.leader)) = true ∧
    issueWith (opW 0x69 ⟨1, 0, 4, 0⟩) [2] (withAllocs [allocAt 0 128 1 0] (withRegs [(4, 0x10000)] one)) (fun j _ =>
      decide (j.p.held.bind (fun h => h.spgen) = none ∧
        (j.k.allocs.filter (fun a => !a.busy && a.handle = j.a (opW 0x69 ⟨1, 0, 4, 0⟩) j.leader)).head? = some (allocAt 0 128 1 0))) = true ∧
    ([(1, 0), (0, 1), (0, 128), (0, 0)] : List (Word × Word)).all (fun q => issueWith (opW 0x6A ⟨1, 0, 4, 12⟩) [2, 3] (handled (spallocState q.1 q.2 []))
      (fun j _ => decide (CanTrap' j ∧ j.k.allocs = [] ∧ j.a (opW 0x6A ⟨1, 0, 4, 12⟩) j.leader = q.1 ∧ j.bv (opW 0x6A ⟨1, 0, 4, 12⟩) j.leader = q.2))) = true ∧
    issueWith (opW 0x6A ⟨1, 0, 4, 12⟩) [2, 3] (spallocState 128 128 [allocAt 0 256 1 0]) (fun j _ => j.k.allocs.any (fun q => decide (q.off ≤ 128 ∧
      128 + 128 ≤ q.off + q.len)) && decide ((j.a (opW 0x6A ⟨1, 0, 4, 12⟩) j.leader).toNat = 128 ∧ (j.bv (opW 0x6A ⟨1, 0, 4, 12⟩) j.leader).toNat = 128)) = true := by
  decide

/-- A collective context that is RUNNING, of context 0, with 64 scoreboard bits. -/
def runningCc : Cc := { Cc.unbound with st := .running, ctx := 0, sbbits := 64 }
/-- TSET of lane 0 to word 1 of context 0's scoreboard. -/
def signalState (commit : Nat) : State :=
  { onLaunches (fun l => { l with lr := { l.lr with commit := commit } }) (withRegs [(4, 0x80004), (5, 0x800000), (12, 6)] one) with ccs := [(0, runningCc)] }
/-- TSET's checks pass under that COMMIT. -/
def signalGoes (commit : Nat) (j : Iss) (s1 : State) : Bool := decide (tsetTrap s1 j (opW 0xB2 ⟨0, 0, 4, 12⟩) = none ∧ j.l.lr.commit = commit)

theorem witness_CollectiveSignals :
    issueWith (opL 0xB0 (slots 0)) [] one (fun j _ => decide (∀ l ∈ j.lanes, cencFlags j (opL 0xB0 (slots 0)) l &&& fpenMask j.m = 0)) = true ∧
    issueWith (opL 0xB1 (slots 1)) [] one (fun j s => quiet j s &&
      decide (∀ g ∈ curdGroups j, badCurdByte true (cdecImage j (opL 0xB1 (slots 1)) g) = none)) = true ∧
    issueWith (opW 0xB2 ⟨0, 0, 4, 12⟩) [] (signalState 0) (signalGoes 0) = true ∧
    issueWith (opW 0xB2 ⟨0, 0, 4, 12⟩) [] (signalState 1) (signalGoes 1) = true ∧
    ([2, 3] : List Nat).all (fun n => issueWith (opW 0xB2 ⟨0, 0, 4, 12⟩) [] (signalState n) (fun j s1 => signalGoes n j s1 &&
      decide (gangOf j.l j.k ≠ none))) = true := by decide

/-- A handle of 2 banks, of value 0x10200. -/
def handle (owner : Nat) (token : Option Nat) : Handle := { serial := 1, count := 2, first := 0, owner := owner, token := token }
/-- The block has that handle, whose value stands in lane 0's register 4, beside an index in register 12. -/
def handleState (owner : Nat) (token : Option Nat) (index : Word) : State :=
  onBlocks (fun k => { k with handles := [handle owner token] }) (handled (withRegs [(4, 0x10200), (12, index)] one))
/-- The leader's a names the handle. -/
def names (op : Op) (owner : Nat) (token : Option Nat) (j : Iss) (_s : State) : Bool :=
  decide (CanTrap' j ∧ (j.k.handles.filter (fun h => h.word = j.a op j.leader)).head? = some (handle owner token) ∧ j.t = 0)
/-- No handle has the leader's a. -/
def namesNone (op : Op) (j : Iss) (_s : State) : Bool := decide (CanTrap' j ∧ ∀ h ∈ j.k.handles, h.word ≠ j.a op j.leader)
/-- `banksFree`, as a check. -/
def banksFrom (s : State) (core f n : Nat) : Bool :=
  decide (f + n ≤ 128) && s.blocks.all (fun c => decide (c.2.core = core → c.2.st ≠ .saved → c.2.st ≠ .complete →
    ∀ h ∈ c.2.handles, f + n ≤ h.first ∨ h.first + h.count ≤ f))
/-- ACCALLOC of `n` banks under an ACCMAX. -/
def bankState (n : Word) (most : Nat) : State :=
  onLaunches (fun l => { l with lr := { l.lr with accmax := most } }) (onBlocks (fun k => { k with handles := [handle 0 none] }) (handled (withRegs [(4, n)] one)))
/-- ACCALLOC's operand, and whether ACCMAX and the banks allow it. -/
def bankCase (n : Nat) (room free : Bool) (j : Iss) (s1 : State) : Bool :=
  decide (CanTrap' j ∧ (j.a (opW 0xA0 ⟨0, 8, 4, 0⟩) j.leader).toNat = n) &&
  decide ((j.k.handles.map (fun h => h.count)).sum + n ≤ j.l.lr.accmax) == room && banksFrom s1 j.k.core 2 n == free

theorem witness_Accumulators :
    issueWith (opW 0xA0 ⟨0, 8, 4, 0⟩) [2] (bankState 0 128) (bankCase 0 true true) = true ∧
    issueWith (opW 0xA0 ⟨0, 8, 4, 0⟩) [2] (bankState 129 255) (bankCase 129 true false) = true ∧
    issueWith (opW 0xA0 ⟨0, 8, 4, 0⟩) [2] (bankState 1 2) (bankCase 1 false true) = true ∧
    issueWith (opW 0xA0 ⟨0, 8, 4, 0⟩) [2] (bankState 128 255) (bankCase 128 true false) = true ∧
    issueWith (opW 0xA0 ⟨0, 8, 4, 0⟩) [2] (bankState 126 128) (bankCase 126 true true) = true ∧
    ([opW 0xA0 ⟨1, 0, 4, 0⟩, opW 0xA1 ⟨0, 0, 4, 0⟩, opW 0xA1 ⟨1, 0, 4, 0⟩] : List Op).all (fun op =>
      issueWith op [2] (handled one) (namesNone op)) = true ∧
    ([(1, some 1), (0, some 0), (0, none), (0, some 1)] : List (Nat × Option Nat)).all (fun q =>
      ([opW 0xA0 ⟨1, 0, 4, 0⟩, opW 0xA1 ⟨0, 0, 4, 0⟩, opW 0xA1 ⟨1, 0, 4, 0⟩, opW 0xA3 ⟨2, 0, 4, 0⟩] : List Op).all (fun op =>
        issueWith op [2] (handleState q.1 q.2 0) (names op q.1 q.2))) = true ∧
    issueWith (opW 0xA3 ⟨0, 8, 4, 12⟩) [2] (handleState 0 none 0) (names (opW 0xA3 ⟨0, 8, 4, 12⟩) 0 none) = true ∧
    issueWith (opW 0xA3 ⟨0, 8, 4, 12⟩) [2] (handleState 0 (some 0) 1024) (fun j s => names (opW 0xA3 ⟨0, 8, 4, 12⟩) 0 (some 0) j s &&
      decide (∃ l ∈ j.lanes, 2 * Config.bankWords ≤ (j.bv (opW 0xA3 ⟨0, 8, 4, 12⟩) l).toNat)) = true ∧
    ([opW 0xA3 ⟨0, 8, 4, 12⟩, opL 0xA3 ⟨1, 0, 4, 12, 16, 255, false, false, 0, 0, none⟩] : List Op).all (fun op =>
      issueWith op [2] (handleState 0 (some 0) 1023) (fun j s => names op 0 (some 0) j s &&
        decide (∀ l ∈ j.lanes, (j.bv op l).toNat < 2 * Config.bankWords))) = true := by decide

/-- Two live teams, and operands of an MMA of the gang of both. -/
def gangState (g : Word) : State :=
  onBlocks (fun k => { k with
      handles := [{ serial := 1, count := 32, first := 0, owner := 0, token := none }], allocs := [allocAt 0 8192 1 0],
      teams := match k.teams with
        | (_, m) :: _ => [(0, m), (1, m)]
        | [] => [] })
    (handled (withRegs [(8, 0x12000), (14, g)] base))
/-- The MMA of the gang's other team stands in the latch. -/
def latchedTeam (u : Nat) (s : State) : State :=
  onBlocks (fun k => { k with
      rdv := [{ team := u, split := 0, gang := 0x102, minor := 5, ru := false, handle := 0x12000, bOff := 0, sOff := 0, tile := 0, aReg := 4,
                cReg := 16, lanes := allLanes 32, parcel := 0 }],
      teams := Tbl.mapVals k.teams (fun t m => if t = u then { m with splits := Tbl.mapVals m.splits (fun _ p => { p with st := .waitOp, held := some (opened none true) }) } else m) }) s
/-- A rendezvous whose every team has come, with every check passed and a latch at hand. -/
def meets (op : Op) (j : Iss) (s1 : State) : Bool :=
  match Tbl.get (inLatch j op s1).blocks j.b with
  | none => false
  | some k2 => match rdvOf k2 0x102 with
    | [] => false
    | r :: q => decide ((∀ u ∈ gangTeams 0x102, ∃ x ∈ r :: q, x.team = u) ∧ ((r :: q).map (fun x => x.team)).Nodup ∧
        rdvCheck k2 j.l (r :: q) r = none ∧ tilePoison k2 j.l (r :: q) r = [] ∧ r.ru = false)
/-- An MVX of one vector on a 1 by 32 matrix at 0x130000, in one of the unscaled formats. -/
def productState : State :=
  withWord 0x120008 (32 + 2 ^ 32) (withWord 0x120000 (2 * 2 ^ 60 + 2 ^ 56 + 0x130000) (withRegs [(4, 0x120000), (16, 1)] base))
/-- MVX's records read, and its checks pass. -/
def productGoes (op : Op) (j : Iss) (s1 : State) : Bool :=
  decide (mvxMissing j op = false) &&
  match recordOf j (j.a64 op j.leader).toNat (if op.o.f.toNat ≤ 4 then 128 else 64) s1 with
  | none => false
  | some (s2, bs) => decide (mvxTrap j op bs = none) && !frontPoisoned j op s2 (parseLayout bs)

theorem witness_MatrixInstructions :
    issueWith (opL 0xA2 (slots 5)) [1, 3] (gangState 0x101) (fun j _ => decide (CanTrap' j ∧ gangNamed j (opL 0xA2 (slots 5)) = 0x101 ∧
      gangOk j.k j.t 0x101 = false ∧ j.p.held = none)) = true ∧
    issueWith (opL 0xA2 (slots 5)) [1, 3] (gangState 0x102) (fun j s1 => decide (gangNamed j (opL 0xA2 (slots 5)) = 0x102 ∧
      gangOk j.k j.t 0x102 = true ∧ (rdvOf j.k 0x102).any (fun r => r.team = j.t) = false) && !(meets (opL 0xA2 (slots 5)) j s1)) = true ∧
    issueWith (opL 0xA2 (slots 5)) [1, 3] (latchedTeam 1 (gangState 0x102)) (fun j s1 => decide (gangNamed j (opL 0xA2 (slots 5)) = 0x102 ∧
      gangOk j.k j.t 0x102 = true ∧ (rdvOf j.k 0x102).any (fun r => r.team = j.t) = false) && meets (opL 0xA2 (slots 5)) j s1) = true := by decide

theorem witness_MatrixVector : issueWith (opL 0xA4 (slots 5)) [2, 3, 4] productState (productGoes (opL 0xA4 (slots 5))) = true := by decide
/-! ## Traps and the system instructions -/

/-- RDSR of a system register. -/
def rdOps (n : BitVec 8) : LOps := ⟨0, 8, 0, n, 0, 255, false, false, 0, 0, none⟩
/-- WRSR of a system register. -/
def wrOps (n : BitVec 8) : LOps := ⟨0, 0, 4, n, 0, 255, false, false, 0, 0, none⟩
/-- No other split of the team has an instruction open, as a check. -/
def isAlone (j : Iss) : Bool :=
  j.m.splits.all (fun c => decide (c.1 ≠ j.e → ∀ h, c.2.held = some h → c.2.pend = none ∧ c.2.st = .waitOp → h.fetching = true)) &&
    j.m.defer.all (fun p => decide (∀ h, p.held = some h → p.pend = none ∧ p.st = .waitOp → h.fetching = true))

theorem isAlone_alone {j : Iss} (h : isAlone j = true) : Alone j := by
  simp only [isAlone, Bool.and_eq_true, List.all_eq_true, decide_eq_true_eq] at h
  exact ⟨fun e p hp he q ho => h.1 (e, p) hp he q ho.2.2 ⟨ho.1, ho.2.1⟩, fun p hp q ho => h.2 p hp q ho.2.2 ⟨ho.1, ho.2.1⟩⟩

theorem isAlone_notAlone {j : Iss} (h : isAlone j = false) : NotAlone j := fun ha => by
  have : isAlone j = true := by
    simp only [isAlone, Bool.and_eq_true, List.all_eq_true, decide_eq_true_eq]
    exact ⟨fun c hc he q hq ho => ha.1 c.1 c.2 hc he q ⟨ho.1, ho.2, hq⟩, fun p hp q hq ho => ha.2 p hp q ⟨ho.1, ho.2, hq⟩⟩
  simp [this] at h

/-- The team handles a trap of a code, of an engine command or none. -/
def handling (code : Nat) (sel : BitVec 16) (res : BitVec 56) (partly : Bool) : State → State :=
  onTeams (fun m => { m with st := .trapped, trap := some { trap := { code := code, pc := 0x100000, res := res, sel := sel, cmd := 1, done := 1 },
                                                            lanes := 1, partly := partly, xs := [] } })
/-- A second split of the team with an instruction open. -/
def besideOpen : State → State :=
  onTeams (fun m => { m with splits := m.splits ++ m.splits.map (fun c => (c.1 + 1, { c.2 with mask := 2, st := .waitOp, held := some (opened none false) })) })
/-- The launch is of user mode. -/
def unprivileged : State → State := onLaunches (fun l => { l with priv := false })

theorem witness_SystemRegisters :
    issueWith (opL 0xE0 (rdOps 0x00)) [] one (fun j _ => isAlone j && decide (j.m.trap = none)) = true ∧
    issueWith (opL 0xE0 (rdOps 0x14)) [] (handling 8 0 0x100008 true one)
      (fun j _ => j.m.trap.any (fun h => decide (h.trap.code < 256))) = true ∧
    issueWith (opL 0xE0 (rdOps 0x01)) [] (besideOpen one) (fun j _ => !isAlone j) = true ∧
    ([0x00, 0x01, 0x0B, 0x0C, 0x18] : List (BitVec 8)).all (fun n =>
      issueWith (opL 0xE1 (wrOps n)) (if perLane n.toNat then [] else [2]) (handling 8 0 0x100008 true one) (fun j _ => isAlone j)) = true ∧
    issueWith (opL 0xE1 (wrOps 0x20)) [2] (withRegs [(4, 0x82)] one)
      (fun j _ => decide (let v := (j.a (opL 0xE1 (wrOps 0x20)) j.leader).toNat; v < 256 ∧ v % 16 ≤ 2 ∧ v / 16 ≤ 8)) = true ∧
    issueWith (opL 0xE1 (wrOps 0x20)) [2] (handled (withRegs [(4, 0x93)] one))
      (fun j _ => decide (CanTrap' j ∧ (let v := (j.a (opL 0xE1 (wrOps 0x20)) j.leader).toNat; 2 < v % 16 ∧ 8 < v / 16))) = true ∧
    issueWith (opL 0xE1 (wrOps 0x01)) [2] (besideOpen one) (fun j _ => !isAlone j) = true := by decide

/-- No other split of the team has accesses under way, as a check. -/
def isIdle (j : Iss) : Bool :=
  j.m.splits.all (fun c => decide (c.1 ≠ j.e → ∀ h, c.2.held = some h → c.2.pend = none ∧ c.2.st = .waitOp → h.waits = [] ∧ h.passed = false)) &&
    j.m.defer.all (fun p => decide (∀ h, p.held = some h → p.pend = none ∧ p.st = .waitOp → h.waits = [] ∧ h.passed = false))
/-- A second split of the team whose load waits for a page. -/
def besideWaiting : State → State :=
  onTeams (fun m => { m with splits := m.splits ++ m.splits.map (fun c =>
    (c.1 + 1, { c.2 with mask := 2, st := .waitOp, held := some { opened none false with waits := [0x120000] } })) })
/-- TLBINV's descriptor passes, or not. -/
def invalidates (d : Nat) (j : Iss) (_s : State) : Bool := decide ((j.a64 (opW 0xE3 ⟨0, 0, 4, 0⟩) j.leader).toNat = d)

theorem witness_SystemInstructions :
    issueWith (opW 0xE2 ⟨0, 0, 0, 0⟩) [] (handled one) (fun j _ => decide (CanTrap' j)) = true ∧
    ([(8, 0, 0x100008, false), (8, 0, 0x100000, true), (8, 0x1000, 0x100000, false), (9, 0, 0x100000, false), (5, 0, 0x100000, false)] :
        List (Nat × BitVec 16 × BitVec 56 × Bool)).all (fun q =>
      issueWith (opW 0xE2 ⟨0, 0, 0, 0⟩) [] (handling q.1 q.2.1 q.2.2.1 q.2.2.2 one)
        (fun j _ => j.m.trap.any (fun h => decide (h.lanes &&& liveLanes j.m &&& ~~~j.p.mask = 0 ∧ h.trap.code = q.1 ∧ h.trap.sel = q.2.1)))) = true ∧
    issueWith (opW 0xE3 ⟨0, 0, 4, 0⟩) [2] (handled (withRegs [(4, 2)] one)) (fun j s => decide (CanTrap' j) && invalidates 2 j s) = true ∧
    issueWith (opW 0xE3 ⟨0, 0, 4, 0⟩) [2] (withRegs [(4, 0x120001)] one) (fun j s => isIdle j && invalidates 0x120001 j s) = true ∧
    issueWith (opW 0xE3 ⟨0, 0, 4, 0⟩) [2] (withRegs [(4, 0x120001)] (besideWaiting one)) (fun j s => !isIdle j && invalidates 0x120001 j s) = true ∧
    issueWith (opW 0xE5 ⟨0, 0, 0, 0⟩) [] base (fun j _ => decide (j.m.st = .running ∧ j.k.st ≠ .saving)) = true ∧
    issueWith (opW 0xE5 ⟨0, 0, 0, 0⟩) [] (onBlocks (fun k => { k with st := .saving }) (handling 9 0 0x100000 false one))
      (fun j _ => decide (j.m.st = .trapped ∧ j.k.st = .saving)) = true := by decide

/-- The issuer of a privileged instruction in user mode, with a trap to take. -/
def barredIn (op : Op) (s : State) : Bool :=
  (issuer s).any (fun i => decide (i.p.mask ≠ 0 ∧ op.bad = false ∧ illegalHere op i.front i.m.nregs i.m.width = false ∧ i.l.priv = false ∧ CanTrap' i))

theorem witness_Privilege :
    ([opW 0xE2 ⟨0, 0, 0, 0⟩, opL 0xE2 ⟨0, 0, 0, 0, 0, 255, false, false, 0, 0, none⟩, opW 0xE3 ⟨0, 0, 4, 0⟩,
      opL 0xE3 ⟨0, 0, 4, 0, 0, 255, false, false, 0, 0, none⟩, opW 0xE5 ⟨0, 0, 0, 0⟩,
      opL 0xE5 ⟨0, 0, 0, 0, 0, 255, false, false, 0, 0, none⟩, opL 0xE0 (rdOps 0x08), opL 0xE0 (rdOps 0x1B), opL 0xE1 (wrOps 0x0B),
      opL 0xE1 (wrOps 0x20)] : List Op).all (fun op => barredIn op (unprivileged (handled base))) = true := by decide

/-- Who takes the trap. -/
def taker (p : Iss → Bool) (s : State) : Bool := (issuer s).any p

theorem witness_TakingATrap :
    taker (fun i => decide (CanTrap' i)) (handled base) = true ∧
    taker (fun i => decide (i.front = false ∧ i.l.lr.handler = 0)) base = true ∧
    taker (fun i => decide (i.front = false ∧ i.m.trap ≠ none)) (handling 8 0 0x100000 false (handled base)) = true ∧
    taker (fun i => decide (i.front = true)) front = true := by decide

/-- IADD of a register that x0 indexes: the window is empty, so every index leaves it. -/
def indexed : LOps := ⟨0, 8, 0xF8, 12, 0, 255, false, false, 0, 0, none⟩
/-- `Outside`, as a check. -/
abbrev Outside' (op : Op) (j : Iss) (f : Field) (l : Nat) : Prop :=
  let d := (j.xs.getD (f.val - 0xF8) 0).toNat
  let idx := (j.m.reg (d / 2 ^ 16 % 2 ^ 8) l).toNat
  0xF8 ≤ f.val ∧ (f.code ∉ leaderFields op ∨ l = j.leader) ∧ ((d % 2 ^ 8 + idx) % f.spec.extent ≠ 0 ∨ d / 2 ^ 8 % 2 ^ 8 < idx + f.spec.extent)
/-- The instruction has come to its index operands, and field `k` of them is the first outside its window, in lane 0. -/
def leavesWindow (op : Op) (k : Nat) (s : State) : Option (Iss × State × Field) :=
  match issuer s, op.regFields[k]? with
  | some i, some f => let j := (withLanes i op).popped op
    if (i.p.mask ≠ 0 ∧ op.bad = false ∧ illegalHere op i.front i.m.nregs i.m.width = false ∧ privBarred op i.mode = false ∧ i.m.poison = [] ∧
        i.execLanes op ≠ 0 ∧ queueCheck (withLanes i op) op = (.ok, none)) ∧ 0 ∈ j.lanes ∧ Outside' op j f 0 ∧
        op.regFields = op.regFields.take k ++ f :: op.regFields.drop (k + 1) ∧ ∀ g ∈ op.regFields.take k, ¬ Outside' op j g 0 then
      some (j, onTeam s i.b i.t (popTeam (withLanes i op) op), f)
    else none
  | _, _ => none

theorem leavesWindow_faults {op : Op} {k : Nat} {s s1 : State} {j : Iss} {f : Field} (h : leavesWindow op k s = some (j, s1, f)) :
    IndexFaults op s j s1 f 0 := by
  unfold leavesWindow at h
  split at h
  · rename_i i g hi _
    dsimp only at h
    split at h
    · rename_i hc
      cases h
      obtain ⟨⟨h1, h2, h3, h4, h5, h6, h7⟩, h8, h9, h10, h11⟩ := hc
      exact ⟨⟨i, hi, h1, h2, h3, h4, h5, h6, h7, rfl, rfl⟩, h8, h9, fun q _ hq => absurd hq (Nat.not_lt_zero q), _, _, h10, h11⟩
    · cases h
  · cases h

theorem witness_IssueChecks :
    opOf (.iaddL64 indexed) = some (opL 0x02 indexed) ∧ (Instr.iaddL64 indexed).wf = true ∧ (leavesWindow (opL 0x02 indexed) 1 (handled base)).isSome = true ∧
    taker (fun i => decide (i.p.mask = 0)) (onSplits (fun p => { p with mask := 0 }) base) = true ∧
    taker (fun i => decide (i.p.mask ≠ 0 ∧ (opL 0x02 ⟨0, 200, 4, 12, 0, 255, false, false, 0, 0, none⟩).bad = false ∧ CanTrap' i ∧
      illegalHere (opL 0x02 ⟨0, 200, 4, 12, 0, 255, false, false, 0, 0, none⟩) i.front i.m.nregs i.m.width = true)) (onTeams (fun m => { m with nregs := 32 }) (handled base)) = true ∧
    taker (fun i => let op := opL 0x02 ⟨0, 200, 4, 12, 0, 255, false, false, 0, 0, none⟩
      decide (i.p.mask ≠ 0 ∧ CanTrap' i) && op.regFields.any (fun f => decide (f.val < 0xF0 ∧ i.m.nregs < f.val + f.spec.extent)))
      (onTeams (fun m => { m with nregs := 32 }) (handled base)) = true ∧
    taker (fun i => decide (i.p.mask ≠ 0 ∧ CanTrap' i ∧ (opL 0x02 ⟨0, 8, 4, 12, 0, 0xF0, false, false, 0, 0, none⟩).o.p.toNat = 0xF0)) (handled base) = true ∧
    taker (fun i => let op := opL 0x02 ⟨0, 8, 0xC0, 12, 0, 255, false, false, 0, 0, none⟩
      decide (i.p.mask ≠ 0 ∧ i.front = true) && op.regFields.any (fun f => decide (0xC0 ≤ f.val))) front = true ∧
    taker (fun i => let op := opL 0x02 ⟨0, 8, 4, 12, 0, 16, false, false, 0, 0, none⟩
      decide (i.p.mask ≠ 0 ∧ op.bad = false ∧ illegalHere op i.front i.m.nregs i.m.width = false ∧ i.m.poison = [] ∧ i.execLanes op = 0)) base = true := by
  decide
/-! ## Collective contexts -/

/-- `FieldsFit`, as a check. -/
def fits (op : Nat) (o : FOps) : Bool :=
  decide ((namesFd op = false → o.fd = 0) ∧ (namesFa op = false → o.fa = 0) ∧ (namesFb op = false → o.fb = 0) ∧
    (namesImm op = false → o.imm = 0) ∧ (op = 1 → o.fb.toNat ≤ 23))
/-- A machine with one collective context, whose turn it is. -/
def ccMachine (c : Cc) : State := { slotState State.reset with cur := .cc 0, ccs := [(0, c)] }
/-- The machine's collective context issues, and a test passes. -/
def runs (op : Nat) (o : FOps) (s : State) (p : State → Bool) : Bool :=
  fits op o && decide (s.cur = .cc 0 ∧ ((ccOf s 0).st = .running ∨ (ccOf s 0).st = .waiting)) && p s

theorem runs_issues {op : Nat} {o : FOps} {s : State} {p : State → Bool} (h : runs op o s p = true) : FusetIssues op o 0 s ∧ p s = true := by
  simp only [runs, fits, Bool.and_eq_true, decide_eq_true_eq] at h
  exact ⟨⟨h.1.2, h.1.1⟩, h.2⟩

/-- A context with chunks of 256 entries, and values in f1 and f2. -/
def cc (a b : DWord) : Cc := { runningCc with ch := 256, pc := 0x100000, regs := (Sparse.set (Sparse.set [] 1 a) 2 b) }
/-- Its round is ACTIVE. -/
def inRound (c : Cc) : Cc := { c with round := { Round.none with st := .active, num := 3 } }
/-- Its ring has this module alone. -/
def inRing (c : Cc) : Cc := { c with ring := some { gen := 1, pos := 0, ranks := [0] } }
/-- Its entry 5 is such. -/
def withEntry (e : TileEntry) (c : Cc) : Cc := { c with entries := [(5, e)] }
/-- Any instruction issues on that context with this operand x. -/
def withX (op : Nat) (o : FOps) (c : Cc) (p : Cc → Nat → Bool) : Bool := runs op o (ccMachine c) (fun s => p (ccOf s 0) (fX (ccOf s 0) o))
/-- Nothing more is asked. -/
def fine (_c : Cc) (_x : Nat) : Bool := true

theorem witness_FusetArithmetic :
    withX 0x01 ⟨1, 0, 23, 5⟩ (cc 0 0) fine = true ∧ ([2, 3, 4, 5, 6, 7, 8] : List Nat).all (fun op => withX op ⟨1, 1, 2, 0⟩ (cc 9 64) fine) = true := by
  decide

/-- `CcAsksGo`, as a check. -/
def ccAsksGo (n : Nat) (need : Need) (both load : Bool) : State → List Nat → Option State
  | s, [] => some s
  | s, a :: as =>
    if a < 2 ^ 56 then
      match ccReach s n need both load a with
      | .go _ => ccAsksGo n need both load (noteXlate s (ccOf s n).ctx a) as
      | _ => none
    else none

theorem ccAsksGo_goes {n : Nat} {need : Need} {both load : Bool} : ∀ {as : List Nat} {s t : State},
    ccAsksGo n need both load s as = some t → CcAsksGo n need both load s as t
  | [], s, t, h => by cases h; exact .none _
  | a :: as, s, t, h => by
    unfold ccAsksGo at h
    split at h
    · rename_i ha
      split at h
      · rename_i p hp
        exact .more _ _ _ _ _ hp ha (ccAsksGo_goes h)
      · cases h
    · cases h

theorem witness_FusetMemory :
    runs 0x09 ⟨1, 1, 0, 8⟩ (ccMachine (cc 0x120000 0)) (fun s => decide (fEa (ccOf s 0) ⟨1, 1, 0, 8⟩ % 8 = 0 ∧
      ccReach s 0 needR true true (fEa (ccOf s 0) ⟨1, 1, 0, 8⟩) = .go (.cap 0x120008))) = true ∧
    runs 0x0A ⟨0, 1, 2, 8⟩ (ccMachine (cc 0x120000 7)) (fun s => decide (fEa (ccOf s 0) ⟨0, 1, 2, 8⟩ % 8 = 0 ∧
      ccReach s 0 needW true false (fEa (ccOf s 0) ⟨0, 1, 2, 8⟩) = .go (.cap 0x120008))) = true := by decide

theorem witness_FusetBranches :
    withX 0x0B ⟨0, 0, 0, 5⟩ (cc 0 0) fine = true ∧ withX 0x0C ⟨0, 1, 0, 5⟩ (cc 0 0) fine = true ∧ withX 0x0D ⟨0, 1, 0, 5⟩ (cc 0 0) fine = true ∧
    withX 0x0E ⟨0, 0, 0, 5⟩ { cc 0 0 with rets := List.replicate 15 0 } (fun c _ => decide (c.rets.length < 16)) = true ∧
    withX 0x0F ⟨0, 0, 0, 0⟩ { cc 0 0 with rets := [8] } (fun c _ => decide (c.rets = [8])) = true ∧
    withX 0x26 ⟨0, 0, 0, 0⟩ (cc 0 0) fine = true ∧ withX 0x25 ⟨0, 1, 2, 0⟩ (cc 5 0xFFFF) (fun _ x => decide (x = 0xFFFF)) = true := by decide

/-- A ring of this module alone, of a generation, in memory. -/
def ringMachine (c : Cc) : State := withWord 0x120000 (7 * 2 ^ 32 + 2 ^ 16) (ccMachine c)
/-- `ValidRing`, as a check. -/
def validRing (rank : Nat) (hdr members : List Byte) : Bool :=
  let w := word64 hdr 0
  let n := bitField w 16 13
  decide (bitField w 29 3 = 0 ∧ bitField w 12 4 = 0 ∧ (∀ k, k < 7 → word64 hdr (8 + 8 * k) = 0) ∧ 1 ≤ n ∧ n ≤ 4096 ∧ bitField w 0 12 < n ∧
    members.length = 4 * n ∧ (∀ p, p < n → word32 members (4 * p) < 2 ^ 22) ∧
    (∀ p, p < n → ∀ q, q < n → word32 members (4 * p) = word32 members (4 * q) → p = q) ∧ word32 members (4 * bitField w 0 12) = rank)
/-- `RingThere`, as a check. -/
def ringThere (n a : Nat) (s : State) : Bool :=
  decide (a % 64 = 0) && match ccAsksGo n needR false false s (rangeAsk a 64) with
    | none => false
    | some s2 => let hdr := ccRead s2 n a 64
      match ccAsksGo n needR false false s2 (rangeAsk (a + 64) (4 * bitField (word64 hdr 0) 16 13)) with
      | none => false
      | some s3 => validRing s.fab.rank hdr (ccRead s3 n (a + 64) (4 * bitField (word64 hdr 0) 16 13)) && decide ((ringOf hdr []).gen = 7)

theorem witness_FusetRings :
    runs 0x10 ⟨0, 1, 0, 0⟩ (ringMachine (cc 0x120000 0)) (fun s => decide ((ccOf s 0).ring = none ∧ (ccOf s 0).round.st ≠ .active) &&
      ringThere 0 0x120000 s) = true ∧
    runs 0x24 ⟨0, 1, 0, 0⟩ (ringMachine (inRing (cc 0x120000 0))) (fun s => decide ((ccOf s 0).ring ≠ none ∧ (ccOf s 0).round.st ≠ .active) &&
      ringThere 0 0x120000 s) = true := by decide

/-- An image of role 3 in peer mode, with one mask bit. -/
def imageMachine (c : Cc) : State := withWord 0x120018 0x1000 (withWord 0x120010 0x1003 (withWord 0x120000 0x130000 (ccMachine c)))
/-- An entry, in a state, armed in round `r`. -/
def entry (st : EntryState) (im : TileImage) (r : Nat) : TileEntry :=
  { st := st, version := 0, image := im, armedRound := r, firings := [], slot := Slot.clear }
/-- The image of that memory, with a role. -/
def image (role : Nat) : TileImage :=
  { laddr := 0x130000, raddr := 0, chunk := 0, whey := 0, swred := false, peermode := true, fmt := false, role := role, peer := 0, nbits := 1, firstbit := 0 }

theorem witness_FusetArmDisarm :
    runs 0x12 ⟨0, 1, 2, 0⟩ (imageMachine (inRound (cc 0x120000 5))) (fun s => let c := ccOf s 0
      decide (fX c ⟨0, 1, 2, 0⟩ = 5 ∧ c.round.st = .active ∧ (entryOf c 5).st ≠ .armed ∧ fA c ⟨0, 1, 2, 0⟩ = 0x120000 ∧ c.sbbits = 64 ∧
        (Sparse.get c.board 0) = 0) &&
      match ccAsksGo 0 needR false false s (rangeAsk 0x120000 32) with
      | none => false
      | some s2 => let bs := ccRead s2 0 0x120000 32
        decide (imageOf bs = image 3 ∧ (([(0, 56, 8), (8, 56, 8), (16, 24, 8), (16, 14, 4), (16, 8, 4), (16, 5, 3), (16, 3, 1), (24, 54, 10), (24, 25, 7)] :
          List (Nat × Nat × Nat)).all (fun q => bitField (word64 bs q.1) q.2.1 q.2.2 = 0)))) = true ∧
    withX 0x13 ⟨0, 0, 2, 0⟩ (withEntry (entry .armed (image 1) 3) (inRound (cc 0 5))) (fun c x => decide (x = 5 ∧ c.round.waitrd = false)) = true := by
  decide

/-- Entry 5 of a context in its round, as the clauses read it. -/
def entryCase (op : Nat) (o : FOps) (e : TileEntry) (p : Cc → TileEntry → Bool) : Bool :=
  withX op o (withEntry e (inRing (inRound (cc 1 5)))) (fun c x => decide (x = 5 ∧ c.round.st = .active) && p c (entryOf c x))

theorem witness_FusetPosting :
    entryCase 0x14 ⟨0, 0, 2, 0⟩ (entry .armed (image 1) 3) (fun c e => decide (e.armedRound = c.round.num ∧ e.image.role ≠ 0)) = true ∧
    entryCase 0x14 ⟨0, 0, 2, 0⟩ (entry .disarmed (image 1) 2) (fun c e => decide (e.armedRound ≠ c.round.num)) = true ∧
    withX 0x15 ⟨0, 0, 2, 0⟩ (cc 0 5) (fun c x => decide (x = 5 ∧ c.round.st ≠ .active)) = true ∧
    entryCase 0x15 ⟨0, 0, 2, 0⟩ (entry .armed (image 1) 3) (fun c e => decide (e.armedRound = c.round.num ∧
      ¬ ∀ r ∈ receivers c e.image, (r, decide (e.image.role = 2), e.image.chunk) ∈ c.notices)) = true := by decide

/-- A firing of the round with block 0 sent to this module alone. -/
def firing (st : SendState) : Firing :=
  { image := image 1, round := 3, version := 7, born := 0, got := [], blocksDone := [0], curds := [(0, [])], sends := [{ rank := 0, sent := [(0, st)] }] }
/-- An entry that has fired so. -/
def fired (st : SendState) : TileEntry := { entry .fired (image 1) 3 with firings := [firing st] }
/-- The firing is the last, its blocks are answered as `FiringFits` asks, and `m` is its refusal mask. -/
def lastIs (m : Nat) (e : TileEntry) : Bool :=
  e.firings.getLast?.any (fun f => f.sends.all (fun q => q.sent.all (fun c => decide (c.1 < 64 ∧ Tbl.get q.sent c.1 = some c.2))) &&
    (List.range 64).all (fun b => decide (m.testBit b = true ↔ ∃ q ∈ f.sends, (b, SendState.refused) ∈ q.sent)))

theorem witness_FusetSends :
    withX 0x11 ⟨1, 0, 2, 0⟩ (cc 0 5) (fun c x => decide (x = 5 ∧ c.round.st ≠ .active)) = true ∧
    entryCase 0x11 ⟨1, 0, 2, 0⟩ (entry .armed (image 1) 3) (fun _ e => decide (e.st = .armed)) = true ∧
    entryCase 0x11 ⟨1, 0, 2, 0⟩ (fired .flying) (fun c e => e.firings.any (fun f => f.inFlight (c.ch / 256))) = true ∧
    entryCase 0x11 ⟨1, 0, 2, 0⟩ (entry .disarmed (image 1) 3) (fun _ e => decide (e.st ≠ .armed ∧ e.firings = [])) = true ∧
    entryCase 0x11 ⟨1, 0, 2, 0⟩ (fired .refused) (fun c e => lastIs 1 e && decide (e.st ≠ .armed) && e.firings.all (fun f => !f.inFlight (c.ch / 256))) = true ∧
    withX 0x16 ⟨1, 1, 2, 0⟩ (cc 0 5) (fun c x => decide (x = 5 ∧ c.round.st ≠ .active)) = true ∧
    ([.accepted, .refused] : List SendState).all (fun st => entryCase 0x16 ⟨1, 1, 2, 0⟩ (fired st) (fun c e =>
      lastIs (if st = .refused then 1 else 0) e && decide (c.sending = none ∧ e.image.role ≠ 3 ∧ e.firings.map (fun f => f.round) = [c.round.num]))) = true ∧
    ([.accepted, .flying] : List SendState).all (fun st =>
      withX 0x16 ⟨1, 1, 2, 0⟩ { withEntry (fired st) (inRound (cc 1 5)) with sending := some (7, [(0, 0)]) } (fun c x =>
        lastIs 0 (entryOf c x) && decide (x = 5 ∧ c.round.st = .active ∧ (entryOf c x).firings.find? (fun f => f.version = 7) = some (firing st)))) = true := by
  decide

theorem witness_FusetWaitsAndStatus :
    withX 0x17 ⟨0, 1, 2, 0⟩ (cc 1 1) (fun c x => decide (x < c.sbbits / 32 ∧ c.round.st ≠ .active)) = true ∧
    withX 0x17 ⟨0, 1, 2, 0⟩ (inRound (cc 1 1)) (fun c x => decide (x < c.sbbits / 32 ∧ c.round.st = .active ∧
      Nat.land (Sparse.get c.board x).toNat (fA c ⟨0, 1, 2, 0⟩ % 2 ^ 32) ≠ fA c ⟨0, 1, 2, 0⟩ % 2 ^ 32)) = true ∧
    ([0, 1] : List DWord).all (fun v => runs 0x18 ⟨0, 1, 2, 0⟩ (ccMachine (cc v 0xFFF)) (fun s => let c := ccOf s 0
      decide (fX c ⟨0, 1, 2, 0⟩ = 4095 ∧ fA c ⟨0, 1, 2, 0⟩ = v.toNat ∧ (Tbl.getD (ctxOf s c.ctx).tls 4095 { n := 0, v := 0 }).v = 0))) = true ∧
    withX 0x19 ⟨0, 0, 2, 0⟩ (cc 0 5) fine = true ∧
    ([0, 9, 0x100, 0x1FF] : List DWord).all (fun v => withX 0x1E ⟨1, 0, 2, 0⟩ (cc 0 v) (fun _ x => decide (x ≤ 9 ∨ (0x100 ≤ x ∧ x ≤ 0x1FF)))) = true := by
  decide

/-- `RoundOver`, as a check. -/
def roundOver (c : Cc) : Bool :=
  c.entries.all (fun q => decide (¬ (q.2.armedRound = c.round.num ∧ q.2.st = .armed)) &&
    q.2.firings.all (fun f => decide (f.round = c.round.num → f.inFlight (c.ch / 256) = false ∧ f.refused = [])))

theorem witness_FusetRounds :
    withX 0x1A ⟨0, 0, 2, 0⟩ (cc 0 0xFFFFFFFF) (fun _ x => decide (x < 2 ^ 32)) = true ∧
    withX 0x1B ⟨0, 0, 2, 0⟩ (inRing (cc 0 1)) (fun c x => decide (c.ring ≠ none ∧ c.round.st ≠ .active ∧ x = 1 ∧ c.round.num < x)) = true ∧
    withX 0x1C ⟨1, 0, 0, 0⟩ (cc 0 0) (fun c _ => decide (c.round.st ≠ .active)) = true ∧
    withX 0x1C ⟨1, 0, 0, 0⟩ (withEntry (fired .accepted) (inRound (cc 0 0))) (fun c _ => decide (c.round.st = .active) && roundOver c) = true ∧
    withX 0x1C ⟨1, 0, 0, 0⟩ (withEntry (fired .refused) (inRound (cc 0 0))) (fun c _ => decide (c.round.st = .active) && !roundOver c) = true ∧
    withX 0x1D ⟨0, 0, 0, 0⟩ (cc 0 0) (fun c _ => decide (c.round.st ≠ .active)) = true ∧
    withX 0x1D ⟨0, 0, 0, 0⟩ (inRing (inRound (cc 0 0))) (fun c _ => decide (c.round.st = .active)) = true := by decide

/-- Whey of one chunk of BF16 entries at 0x120000. -/
def wheyAt (torn : Bool) : WheyObj := { base := 0x120000, desc := 0x1000100000000, torn := torn }
/-- A context that holds handles 0 to `n` - 1. -/
def holds (n : Nat) (c : Cc) : Cc := { c with whey := (List.range n).map (fun h => (h, wheyAt false)) }
/-- An entry armed, or in flight, on handle 0. -/
def usesWhey (e : TileEntry) : Bool :=
  decide (e.st = .armed ∧ e.image.role ≠ 3 ∧ e.image.whey = 0) || e.firings.any (fun f => decide (f.image.role ≠ 3 ∧ f.image.whey = 0 ∧ f.inFlight 1 = true))
/-- Every piece of a range has a place. -/
def lands (n a len : Nat) (s : State) : Bool := (pieces (len / 512 + 2) a len).all (fun q => (ccPlace s n q.1).isSome)

theorem witness_FusetWheyHandles :
    withX 0x1F ⟨3, 1, 2, 0⟩ { cc 0x140000 0x1000100000001 with whey := (List.range 64).map (fun h => (h, wheyAt false)) } (fun c x =>
      decide (x = 0x1000100000001 ∧ c.whey.length = 64 ∧ fA c ⟨3, 1, 2, 0⟩ % 64 = 0) && (List.range 64).all (fun h => (Tbl.get c.whey h).isSome)) = true ∧
    runs 0x1F ⟨3, 1, 2, 0⟩ (ccMachine (cc 0x120000 0x1000100000001)) (fun s => let c := ccOf s 0
      decide (fX c ⟨3, 1, 2, 0⟩ = 0x1000100000001 ∧ fA c ⟨3, 1, 2, 0⟩ = 0x120000 ∧ Tbl.get c.whey 0 = none ∧ c.whey = []) &&
      (ccAsksGo 0 needW false false s (rangeAsk 0x120000 1536)).any (fun s2 => lands 0 0x120000 1536 s2)) = true ∧
    withX 0x20 ⟨0, 0, 2, 0⟩ (holds 1 (cc 0 0)) (fun c x => decide (x = 0 ∧ Tbl.get c.whey x ≠ none) && !c.entries.any (fun q => usesWhey q.2)) = true ∧
    withX 0x20 ⟨0, 0, 2, 0⟩ (withEntry (fired .flying) (holds 1 (cc 0 0))) (fun c x => decide (x = 0 ∧ Tbl.get c.whey x ≠ none) &&
      c.entries.any (fun q => usesWhey q.2) && c.entries.all (fun q => decide (q.2.st ≠ .armed))) = true := by decide

/-- Whey at 0x120000 and a copy of it, with its header, at 0x140000. -/
def copyMachine : State := withWord 0x140008 0x1000100000000 (ccMachine (holds 1 (cc 0x140000 0)))

theorem witness_FusetCheckpoints :
    runs 0x21 ⟨0, 1, 2, 0⟩ copyMachine (fun s => let c := ccOf s 0
      decide (fX c ⟨0, 1, 2, 0⟩ < 64 ∧ c.round.st ≠ .active ∧ Tbl.get c.whey 0 = some (wheyAt false) ∧ fA c ⟨0, 1, 2, 0⟩ % 64 = 0 ∧ c.ch = 256) &&
      (ccAsksGo 0 needR false false s (rangeAsk 0x120000 1536)).any (fun s2 =>
        (ccAsksGo 0 needRW true false s2 (rangeAsk 0x140000 1600)).any (fun s3 => lands 0 0x140000 1600 s3))) = true ∧
    runs 0x22 ⟨3, 1, 2, 0⟩ copyMachine (fun s => let c := ccOf s 0
      decide (fX c ⟨3, 1, 2, 0⟩ < 64 ∧ c.round.st ≠ .active ∧ Tbl.get c.whey 0 = some (wheyAt false) ∧ fA c ⟨3, 1, 2, 0⟩ = 0x140000) &&
      (ccAsksGo 0 needR true false s (rangeAsk 0x140000 64)).any (fun s2 => let hdr := ccRead s2 0 0x140000 64
        word64 hdr 8 == 0x1000100000000 && (List.range 5).all (fun k => word64 hdr (24 + 8 * k) == 0) &&
        (ccAsksGo 0 needR true false s2 (rangeAsk 0x140000 1600)).any (fun s3 =>
          (ccAsksGo 0 needW false false s3 (rangeAsk 0x120000 1536)).any (fun s4 => lands 0 0x120000 1536 s4)))) = true ∧
    runs 0x23 ⟨0, 0, 2, 0⟩ copyMachine (fun s => let c := ccOf s 0
      decide (fX c ⟨0, 0, 2, 0⟩ < 64 ∧ c.round.st ≠ .active ∧ Tbl.get c.whey 0 = some (wheyAt false)) &&
      (ccAsksGo 0 needRW false false s (rangeAsk 0x120000 1536)).any (fun s2 => lands 0 0x120000 1536 s2)) = true := by decide

theorem witness_FusetFaults :
    ([(0x01, ⟨1, 0, 24, 0⟩), (0x0B, ⟨1, 0, 0, 0⟩), (0x0F, ⟨0, 0, 0, 1⟩), (0x10, ⟨0, 0, 1, 0⟩), (0x1D, ⟨0, 1, 0, 0⟩), (0x26, ⟨0, 0, 0, 1⟩)] :
      List (Nat × FOps)).all (fun q => !fits q.1 q.2) = true ∧
    withX 0x0E ⟨0, 0, 0, 5⟩ { cc 0 0 with rets := List.replicate 16 0 } (fun c _ => decide (c.rets.length = 16)) = true ∧
    withX 0x0F ⟨0, 0, 0, 0⟩ (cc 0 0) (fun c _ => decide (c.rets = [])) = true ∧
    withX 0x09 ⟨1, 1, 0, 0⟩ (cc 4 0) (fun c _ => decide (fEa c ⟨1, 1, 0, 0⟩ % 8 ≠ 0)) = true ∧
    withX 0x0A ⟨0, 1, 0, 0⟩ (cc 4 0) (fun c _ => decide (fEa c ⟨0, 1, 0, 0⟩ % 8 ≠ 0)) = true ∧
    ([0x11, 0x12, 0x13, 0x14, 0x15, 0x16] : List Nat).all (fun op => withX op ⟨0, 0, 2, 0⟩ (cc 0 256) (fun _ x => decide (x = 256))) = true ∧
    withX 0x18 ⟨0, 0, 2, 0⟩ (cc 0 4096) (fun _ x => decide (x = 4096)) = true ∧
    ([0x21, 0x22, 0x23] : List Nat).all (fun op => withX op ⟨0, 0, 2, 0⟩ (cc 0 64) (fun _ x => decide (x = 64))) = true ∧
    withX 0x17 ⟨0, 0, 2, 0⟩ (cc 0 2) (fun c x => decide (x = c.sbbits / 32)) = true ∧
    ([10, 0xFF, 0x200] : List DWord).all (fun v => withX 0x1E ⟨0, 0, 2, 0⟩ (cc 0 v) (fun _ x => decide (¬ (x ≤ 9 ∨ (0x100 ≤ x ∧ x ≤ 0x1FF))))) = true ∧
    withX 0x1A ⟨0, 0, 2, 0⟩ (cc 0 0x100000000) (fun _ x => decide (x = 2 ^ 32)) = true ∧
    withX 0x25 ⟨0, 0, 2, 0⟩ (cc 0 0x10000) (fun _ x => decide (x = 2 ^ 16)) = true ∧
    withX 0x1B ⟨0, 0, 2, 0⟩ (inRing (cc 0 0)) (fun c x => decide (x = 0 ∧ c.round.num = 0)) = true ∧
    withX 0x10 ⟨0, 0, 0, 0⟩ (inRing (cc 0 0)) (fun c _ => decide (c.ring ≠ none)) = true ∧
    withX 0x14 ⟨0, 0, 2, 0⟩ (cc 0 255) (fun c x => decide (x = 255 ∧ c.round.st ≠ .active)) = true := by decide

end Sys2Proof.Tests
end

