-- ==== Sys2Proof/Tests/WitnessEvents.lean ====
section
/-! SUPPORT. WitnessEvents: for the obligations about events, commands, registers, encodings and steps, concrete states and operands that
meet their hypotheses together. -/

namespace Sys2Proof.Tests

open Sys2Proof Sys2Proof.Machine Sys2Proof.Spec

set_option maxRecDepth 100000
set_option exponentiation.threshold 2000

/-! ## What happens of itself: the engines -/

/-- An open command of a block timeline. -/
def command (sel n team : Nat) (what : EngOp) : EngCmd :=
  { tl := sel, num := n, team := team, op := what, doneElems := [], stalled := false, waits := [], failed := [], finished := false }
/-- The block has those commands. -/
def withCmds (cs : List EngCmd) : State → State := onBlocks (fun k => { k with cmds := cs })
/-- `OpenCmd`, as a check on block 0, with a test of the block and the command. -/
def opens (s : State) (sel n : Nat) (p : Block → EngCmd → Bool) : Bool :=
  match Tbl.get s.blocks 0 with
  | none => false
  | some k => match k.cmds.find? (fun c => c.tl = sel && c.num = n) with
    | none => false
    | some c => decide (c.finished = false ∧ c.stalled = false ∧ c.waits = []) && p k c

theorem opens_open {s : State} {sel n : Nat} {p : Block → EngCmd → Bool} (h : opens s sel n p = true) :
    ∃ k c, OpenCmd s 0 sel n k c ∧ p k c = true := by
  unfold opens at h
  split at h
  · cases h
  · rename_i k hk
    split at h
    · cases h
    · rename_i c hc
      simp only [Bool.and_eq_true, decide_eq_true_eq] at h
      exact ⟨k, c, ⟨hk, hc, h.1⟩, h.2⟩

/-- A row of 8 words at an address, and a box of 8 words. -/
def rowLayout (a : Nat) : Layout := { rank := 1, fmt := 2, base := a, dims := [8, 0, 0, 0, 0], boxs := [8, 0, 0, 0, 0], strides := [0, 0, 0, 0, 0], oob := 0, swz := 8 }
/-- `CopyGoes`, as a check: bytes whose places the page tables give. -/
def copyGoesOn (j : CopyJob) (failed : List Nat) (place : Nat → Phys) : State → List Nat → Option State
  | s, [] => some s
  | s, k :: ks =>
    if (boxByte j.y j.c k).2 = 0 then
      copyGoesOn j failed place (if j.store then s else loadByte j.born (j.spad k) j.y.fill s) ks
    else if reachTarget s j.x failed (if j.store then needW else needR) (globalTarget s j.x (boxByte j.y j.c k).1 (!j.store)) = .go (place k) ∧ copyHurt j k s (place k) = false ∧
        (!j.store || shadowRoom s j.b (place k).num) = true then
      copyGoesOn j failed place (copyByte j k (noteTarget s j.x (globalTarget s j.x (boxByte j.y j.c k).1 (!j.store))) (place k)) ks
    else none

theorem copyGoesOn_goes {j : CopyJob} {failed : List Nat} {place : Nat → Phys} : ∀ {ks : List Nat} {s t : State},
    copyGoesOn j failed place s ks = some t → CopyGoes j failed place s ks t
  | [], s, t, h => by cases h; exact .none _
  | k :: ks, s, t, h => by
    unfold copyGoesOn at h
    by_cases h0 : (boxByte j.y j.c k).2 = 0
    · rw [if_pos h0] at h
      exact .outside _ _ _ _ h0 (copyGoesOn_goes h)
    · rw [if_neg h0] at h
      by_cases hc : reachTarget s j.x failed (if j.store then needW else needR) (globalTarget s j.x (boxByte j.y j.c k).1 (!j.store)) = .go (place k) ∧ copyHurt j k s (place k) = false ∧
        (!j.store || shadowRoom s j.b (place k).num) = true
      · rw [if_pos hc] at h
        refine .inside _ _ _ _ h0 hc.1 hc.2.1 ?_ (copyGoesOn_goes h)
        intro hs pa hp
        have := hc.2.2
        rw [hs, hp] at this
        simpa [Phys.num] using this
      · rw [if_neg hc] at h
        cases h

/-- A copy of that box between 0x130000 and the scratchpad's start. -/
def boxState (store tight : Bool) : State := withCmds [command 0x1000 1 0 (.tcopy store tight (rowLayout 0x130000) [0] 0 5 0x140000)] base
/-- Its job. -/
def boxJob (store : Bool) : CopyJob := { b := 0, x := 0, core := 0, team := 0, store := store, y := rowLayout 0x130000, c := [0], off := 0 }
/-- The place of a byte of the box. -/
def boxPlace (k : Nat) : Phys := .cap (0x130000 + k)
/-- The unit stands, and the bytes of the box go. -/
def boxGoes (store tight : Bool) : Bool :=
  opens (boxState store tight) 0x1000 1 (fun k c => decide (c.op = .tcopy store tight (rowLayout 0x130000) [0] 0 5 0x140000) &&
    (Tbl.get (boxState store tight).launches k.launch).any (fun l => decide (l.lr.commit = 0 ∧ l.st ≠ .discarded)) &&
    decide (ctxNum (boxState store tight) 0 = 0 ∧ k.core = 0 ∧ c.team = 0) &&
    (copyGoesOn (boxJob store) c.failed boxPlace (boxState store tight) (leftOf (rowLayout 0x130000) c)).any (fun s2 =>
      decide (placeOf s2 0 (globalTarget s2 0 0x140000 false) = some (.cap 0x140000))))
/-- A CPY32 of lane 0 from 0x120000, of tag 1. -/
def landing : TagCopy := { copyOf 1 with fe := true, lanes := [(64, (List.range 32).map (fun i => if i < 20 then some (0x120000 + i) else none))] }
/-- A multicast from the scratchpad's start to 1024 of cores 0 and 1. -/
def spread (answers : Tbl Nat) : State :=
  withAllocs [allocAt 0 4096 5 0] (withCmds [command 0x1000 1 0 (.mcast 0 1024 16 3 [5, 0, 0, 0, 0, 0, 0, 0] 2048 answers)] base)

/-- A load whose page's fault record has failed. -/
def failing : State :=
  withCmds [{ command 0x1000 1 0 (.tcopy false false (rowLayout 0x100000000) [0] 0 0 0) with failed := [0x10000] }] base

theorem witness_EngineEvents :
    boxGoes false false = true ∧ boxGoes true false = true ∧
    (boxGoes true true && (List.range 32).all (fun q => decide (reachTarget (boxState true true) 0 [] needRW
      (globalTarget (boxState true true) 0 (0x130000 + q) false) = .go (.cap (0x130000 + q))))) = true ∧
    (onTeams (fun m => { m with copies := [landing] }) base).blocks.any (fun c => c.2.teams.any (fun q =>
      decide (q.2.copies.find? (fun c => c.tag = 1) = some landing ∧ landing.doneLines = [] ∧ (c.2.core * 2 ^ 19 + 64) / 128 = 0))) = true ∧
    ([0, 1] : List Nat).all (fun target => opens (spread []) 0x1000 1 (fun k _ => decide (k.core = 0 ∧ (BitVec.ofNat 8 3).getLsbD target = true))) = true ∧
    opens (spread [(0, 0), (1, 1)]) 0x1000 1 (fun _ c => decide (c.doneElems = []) && (List.range 8).all (fun t =>
      !(BitVec.ofNat 8 3).getLsbD t || (Tbl.get ([(0, 0), (1, 1)] : Tbl Nat) t).isSome)) = true ∧
    opens (onBlocks (fun k => { k with handles := [handle 0 none] }) (withCmds [command 0x1001 1 0 (.mma 5 0x10200 0 true [] [] 0 0)] base)) 0x1001 1
      (fun k _ => decide (liveHandle k 0x10200 = some (handle 0 none) ∧ k.cmds.length = 1)) = true ∧
    opens (withCmds [command 0x1002 1 0 (.mvx 5 (rowLayout 0x130000) (rowLayout 0) [[0]] [[]] none none)] base) 0x1002 1 (fun _ _ =>
      (mvxPieces 5 (rowLayout 0x130000) (rowLayout 0)).isEmpty) = true ∧
    opens (boxState false false) 0x1000 1 (fun _ c => !((leftOf (rowLayout 0x130000) c).filter (fun q => (boxJob false).spad q / 128 = 0)).isEmpty) = true ∧
    opens failing 0x1000 1 (fun _ _ => commandFaults 0 0x1000 1 failing) = true ∧
    opens (handled failing) 0x1000 1 (fun _ _ => commandFaults 0 0x1000 1 (handled failing)) = true := by and_intros <;> decide
/-! ## What happens of itself: teams, gangs and contexts -/

/-- Entry 0 of team `n` of block 0, with a test. -/
def splitAt (s : State) (n : Nat) (p : Block → Team → Split → Bool) : Bool :=
  match Tbl.get s.blocks 0 with
  | none => false
  | some k => match Tbl.get k.teams n with
    | none => false
    | some m => match Tbl.get m.splits 0 with
      | none => false
      | some q => p k m q && decide (k.st = .running)

theorem splitAt_at {s : State} {n : Nat} {p : Block → Team → Split → Bool} (h : splitAt s n p = true) :
    ∃ k m q, SplitAt s 0 n 0 k m q ∧ p k m q = true := by
  unfold splitAt at h
  split at h
  · cases h
  · rename_i k hk
    split at h
    · cases h
    · rename_i m hm
      split at h
      · cases h
      · rename_i q hq
        rw [Bool.and_eq_true] at h
        exact ⟨k, m, q, ⟨hk, hm, hq⟩, h.1⟩

/-- The context's watchdog limit has been reached since time 0. -/
def late (s : State) : State := { s with now := 2 ^ 30 }
/-- `WdReached`, as a check. -/
def reached (s : State) (p : Split) : Bool :=
  let log := (ctxOf s (ctxNum s 0)).wdlog
  decide (p.stopped = false ∧ p.wdTaken = false ∧ 2 ^ (if log = 0 then 30 else log) ≤ s.now - p.wd)
/-- The block's launch has a handler. -/
def serves (s : State) (k : Block) : Bool := (Tbl.get s.launches k.launch).any (fun l => decide (l.lr.handler ≠ 0))
/-- An asynchronous trap waits for the team. -/
def asyncState (cs : List Nat) : State := onTeams (fun m => { m with asyncs := cs.map (fun c => { code := c }) }) (handled base)
/-- A launch that waits behind the first, which is made the lower: it asks for the one core in service. -/
def crowded (slots now : Nat) : State :=
  { base with
    now := now, mgmt := { base.mgmt with out := ((List.range Config.cores).filter (fun c => c ≠ 0)).map (fun c => .core c) },
    ctxs := Tbl.mapVals base.ctxs (fun _ c => { c with nframes := 2, slots := slots }),
    launches := (base.launches.map (fun q => (q.1, { q.2 with priv := false }))) ++ base.launches.map (fun q => (1, { q.2 with
      priv := false, st := .queued, nextGang := 0, gangs := [], blockedSince := [(0, 0)], lr := { q.2.lr with prio := 5, scratch := 524288 } })) }
/-- The second launch waits on cluster 0, its victims making room or not. -/
def crowdedGoes (slots : Nat) (room : Bool) (s : State) : Bool :=
  let u : GangUnit := { gang := 0, copy := 0, restore := false }
  (Tbl.get s.launches 1).any (fun l => decide (nextUnit s 1 l = some u ∧ takesPart s l = true ∧ Tbl.get l.blockedSince 0 = some 0 ∧ waitsOn s 1 l u 0 = true ∧
    roomAsked s 1 = false ∧ (s.blocks.map (fun q => q.1)).Nodup ∧ (ctxOf s 0).slots = slots) && (roomFor s 1 0 l u).fits == room)

theorem witness_blocked_since (slots : Nat) :
    10 * Config.cyclesPerMicro ≤ (crowded slots (10 * Config.cyclesPerMicro)).now - 0 := Nat.le_refl _

/-- The block has a shrink request, posted at time 0. -/
def asked (slots now : Nat) : State :=
  { onBlocks (fun k => { k with shrink := some { c := 1, target := 1, posted := 0, forLaunch := 1 } }) base with
    now := now, ctxs := Tbl.mapVals base.ctxs (fun _ c => { c with slots := slots }) }
/-- That request, its launch and its context. -/
def askedGoes (slots : Nat) (s : State) : Bool :=
  (Tbl.get s.blocks 0).any (fun k => decide (k.shrink.isSome = true ∧ k.st = .running ∧ (s.blocks.map (fun q => q.1)).Nodup) &&
    (Tbl.get s.launches k.launch).any (fun l => decide ((Tbl.get s.ctxs l.ctx).isSome = true ∧ (ctxOf s l.ctx).counters.length = 11 ∧
      (ctxOf s l.ctx).slots = slots ∧ (ctxOf s l.ctx).shrlim = 100)))

theorem witness_limit_reached (slots : Nat) :
    100 * Config.cyclesPerMicro ≤ (asked slots (100 * Config.cyclesPerMicro)).now - 0 := Nat.le_refl _

/-- A placed launch under a COMMIT, with blocks that have completed. -/
def unitState (commit : Nat) (done : List Nat) : State :=
  onLaunches (fun l => { l with blocksDone := done, lr := { l.lr with commit := commit } }) base
/-- Its unit, as the clauses about commits divide it. -/
def unitGoes (commit : Nat) (done : List Nat) : Bool :=
  (Tbl.get (unitState commit done).launches 0).any (fun l => decide (l.st = .placed ∧ l.lr.commit = commit ∧ l.blocksDone = done ∧
    l.lr.gridx * l.lr.gridy * l.lr.gridz = 1 ∧ l.committed = [] ∧ l.shadow.cells = [] ∧ l.pubs = [] ∧ l.lr.gang = 1 ∧
    (l.gangs.find? (fun g => g.idx = 0 && g.copy = 0)).any (fun g => g.shadow.cells.isEmpty && g.pubs.isEmpty) = true))

theorem witness_TeamEvents :
    splitAt (handled base) 0 (fun _ _ p => !reached (handled base) p) = true ∧
    splitAt (late (handled base)) 0 (fun k m p => reached (late (handled base)) p && serves (late (handled base)) k &&
      decide (m.st = .running ∧ m.trap = none)) = true ∧
    splitAt (late (handling 8 0 0 false base)) 0 (fun _ m p => reached (late base) p && decide (m.st = .trapped) &&
      m.trap.any (fun h => decide (p.mask &&& ~~~h.lanes ≠ 0))) = true ∧
    splitAt (late (handling 8 0 0 false one)) 0 (fun _ m p => reached (late one) p && decide (m.st = .trapped) &&
      m.trap.any (fun h => decide (p.mask &&& ~~~h.lanes = 0))) = true ∧
    splitAt (late base) 16 (fun _ _ p => reached (late base) p && decide (p.st ≠ .waitOp)) = true ∧
    splitAt (late (onSplits (fun p => { p with st := .waitOp }) base)) 16 (fun _ _ p => reached (late base) p && decide (p.st = .waitOp)) = true ∧
    splitAt (asyncState [9]) 0 (fun k m _ => serves (asyncState [9]) k && decide (m.st = .running ∧ m.trap = none ∧ m.asyncs = [{ code := 9 }] ∧
      lowestReady m = some 0) && m.splits.all (fun c => decide (c.2.pend = none))) = true ∧
    splitAt (asyncState []) 0 (fun _ m _ => decide (m.asyncs = [])) = true ∧
    splitAt (onTeams (fun m => { m with st := .stopped }) base) 0 (fun _ m _ => decide (m.st ≠ .running)) = true ∧
    splitAt (onSplits (fun p => { p with pend := some { code := 8 } }) (asyncState [])) 0 (fun k m _ => serves (asyncState []) k &&
      decide (m.st = .running ∧ m.trap = none) && (pendingTrap m).any (fun q => decide (q.1 = 0 ∧ q.2.code ≠ 9))) = true ∧
    splitAt base 0 (fun _ _ p => decide (p.st = .ready ∧ p.stopped = false ∧ .run (.split 0 0 0) ∉ base.agenda)) = true ∧
    crowdedGoes 0 false (crowded 0 (10 * Config.cyclesPerMicro)) = true ∧ crowdedGoes 1 true (crowded 1 (10 * Config.cyclesPerMicro)) = true ∧
    askedGoes 0 (asked 0 (100 * Config.cyclesPerMicro)) = true ∧ askedGoes 1 (asked 1 (100 * Config.cyclesPerMicro)) = true ∧
    unitGoes 1 [0] = true ∧ unitGoes 2 [0] = true ∧ unitGoes 2 [] = true ∧
    taker (fun i => decide (CanTrap' i)) (handled base) = true := by and_intros <;> decide

/-- The launch is queued, and no block stands. -/
def unplaced : State :=
  { base with blocks := [], ctxs := Tbl.mapVals base.ctxs (fun _ c => { c with framesUsed := [] }),
              launches := Tbl.mapVals base.launches (fun _ l => { l with st := .queued, nextGang := 0, gangs := [] }) }
/-- The block is being saved in slot 0, whose image begins at address 0, or has been saved there. -/
def saving (st : BlockState) : State :=
  { onBlocks (fun k => { k with st := st, priorSave := .running, slot := some 0 }) base with
    ctxs := Tbl.mapVals base.ctxs (fun _ c => { c with slots := 1, slotsUsed := [0] }) }
/-- Two or three copies have given their signatures of block 0. -/
def paired (sigs : List DWord) : State :=
  onLaunches (fun l => { l with
    lr := { l.lr with commit := 3 },
    gangs := sigs.mapIdx (fun i v => { newGang 0 i i l.lr with sigs := [(0, (v, 0))] }) }) base
/-- That launch, as the comparison reads it. -/
def pairGoes (s : State) (p : Launch → List DWord → Bool) : Bool :=
  (Tbl.get s.launches 0).any (fun l => decide (l.st = .placed ∧ l.lr.commit = 3 ∧ l.blocksDone = [] ∧ l.lr.gang = 1 ∧ l.lr.det = false) &&
    p l ((sigsFor l 0 0).map (fun q => q.2.1)))

theorem witness_PlacementEvents :
    (Tbl.get unplaced.launches 0).any (fun l => let u : GangUnit := { gang := 0, copy := 0, restore := false }
      decide (l.ready = true ∧ l.param ≠ none ∧ unplaced.mgmt.ready = true ∧ unplaced.mgmt.brown = false ∧ itsTurn unplaced 0 l = true ∧
        nextUnit unplaced 0 l = some u ∧ coresOk [63] l.lr.gang = true ∧ coreFits unplaced 63 l.lr = true ∧ clusterFits unplaced 0 l u 7 = true ∧
        barredFor unplaced (rankOf l) 7 = false ∧ unplaced.blocks = [] ∧ l.lr.initt ≤ 16)) = true ∧
    splitAt (onBlocks (fun k => { k with st := .running }) (saving .saving)) 0 (fun k _ _ => let s := saving .saving
      decide (gangBlocks s k.launch k.gang k.copy = [0] ∧ (s.blocks.map (fun q => q.1)).Nodup ∧ k.ended = false ∧ k.saveWaits = [] ∧ k.cmds = [] ∧
        saveSpills k = [] ∧ (∀ m ∈ k.teams, m.2.copies = []) ∧ ∀ a ∈ k.allocs, a.busy = false ∧ a.mcast = 0) &&
      (asksGo (ctxNum s 0) [] s (gangAsks saveAsks s [0])).isSome) = true ∧
    (Tbl.get (saving .saved).launches 0).any (fun l => let s := saving .saved
      let u : GangUnit := { gang := 0, copy := 0, restore := true }
      let ks := savedBlocks s 0 u
      decide (nextUnit s 0 l = some u ∧ itsTurn s 0 l = true ∧ coresOk [1] ks.length = true ∧ copyApart l u 0 = true ∧
        (List.zip [1] ks).all (fun q => coreRestores s q.1 q.2.2) = true ∧ barredFor s (rankOf l) 0 = false ∧ restoringBlocks s 0 0 0 = [] ∧
        (s.blocks.map (fun q => q.1)).Nodup ∧ ks.map (fun q => q.1) = [0])) = true ∧
    splitAt (onBlocks (fun k => { k with st := .running }) (saving .restoring)) 0 (fun k _ _ => let s := saving .restoring
      decide (restoringBlocks s 0 0 0 = [0] ∧ (s.blocks.map (fun q => q.1)).Nodup ∧ k.saveWaits = [] ∧ k.ended = false ∧ (k.teams.map (fun q => q.1)).Nodup) &&
      (asksGo (ctxNum s 0) [] s (gangAsks restoreAsks s [0])).isSome) = true ∧
    ([[3, 3], [3, 4], [3, 4, 3], [3, 4, 4], [3, 4, 5]] : List (List DWord)).all (fun v => pairGoes (paired v) (fun l w =>
      decide (w = v) && (v.length = 3 || !moreComing l 0 [0, 1]) && decide (3 ≤ clustersInService (paired v)))) = true ∧
    decide ((ctxOf (onCtxs (fun c => { c with st := .dying }) unplaced) 0).st = .dying ∧ unplaced.blocks = [] ∧ unplaced.ccs = [] ∧
      (ctxOf base 0).st ≠ .dying) = true := by and_intros <;> decide
/-! ## What happens of itself: collectives, errors, the fabric and boot -/

/-- A message's header to collective context 0. -/
def hdr (round gen : Nat) : Hdr := { src := 0, dst := 0, cc := 0, round := round, gen := gen }
/-- A context in round 3 of ring 1, whose mask of one bit is set. -/
def marked (e : TileEntry) : Cc := { withEntry e (inRing (inRound (cc 0 0))) with board := Sparse.set [] 0 1 }
/-- A message has come for a machine with that context. -/
def hears (c : Cc) (m : Msg) : State := let s := ccMachine c; { s with fab := { s.fab with inbox := [m] } }
/-- The message can be taken, and a test of the context. -/
def takes1 (c : Cc) (m : Msg) (p : Cc → Bool) : Bool := deliverable (hears c m) m && p (ccOf (hears c m) 0)
/-- The context is addressed by a header of that round and generation. -/
def meant (round gen : Nat) (c : Cc) : Bool :=
  decide (c.st ≠ .unbound) && c.ring.any (fun r => decide (gen = r.gen ∧ round = c.round.num))
/-- `CanFire`, as a check of entry 5. -/
def canFire (c : Cc) : Bool :=
  let e := entryOf c 5
  decide (c.round.st = .active ∧ e.st = .armed) &&
  (List.range e.image.nbits).all (fun i => (Sparse.get c.board ((e.image.firstbit + i) / 32)).getLsbD ((e.image.firstbit + i) % 32)) &&
  (!needsCurd c e.image || e.slot.posted && (List.range (c.ch / 256)).all (fun j => (Tbl.get e.slot.got j).isSome))
/-- An armed hop whose slot is posted, with what has come. -/
def waitingHop (got : Tbl (List Byte)) : TileEntry := { entry .armed (image 1) 3 with slot := { Slot.clear with posted := true, got := got } }
/-- A gather receipt whose curd has come. -/
def receipt : TileEntry :=
  { entry .fired (image 3) 3 with firings := [{ firing .flying with image := image 3, got := [(0, [])], blocksDone := [], sends := [] }] }
/-- A re-formation of ring 1, of ranks 0 and 1, heard by rank 0. -/
def reform (started closed sent : Bool) : Reform :=
  { cc := 0, oldgen := 1, ranks := [0, 1], heard := [(0, 2, 3)], started := started, closed := closed, sent := sent, record := 0x120000, deadline := 9 }
/-- A machine with that re-formation and a message. -/
def reforms (r : Reform) (m : Msg) : State := { withWord 0x120010 0x121000 (hears (cc 0 0) m) with reforms := [r], now := 9 }
/-- A report of rank `k`. -/
def report (k : Nat) : Msg := .report { hdr 0 1 with src := k } 2 3
/-- The results of a leader of rank `k`, in some ranks. -/
def results (k : Nat) (ranks : List Nat) : Msg := .results { hdr 0 1 with src := k } 2 2 4 ranks
/-- The message can be taken, and the re-formation is found. -/
def reformGoes (r : Reform) (m : Msg) : Bool :=
  deliverable (reforms r m) m && decide (reformOf (reforms r m) 0 1 = some r ∧ (ccOf (reforms r m) 0).st ≠ .unbound)

theorem witness_CollectiveEvents :
    canFire (marked (entry .armed (image 0) 3)) = true ∧ (!canFire (marked (entry .armed (image 1) 3))) = true ∧
    (let s := ccMachine (withEntry receipt (inRing (inRound (cc 0 0))))
      let c := ccOf s 0
      decide (openFirings c = [(5, 7)] ∧ c.st ≠ .unbound ∧ c.ch / 256 = 1 ∧ s.poison = []) &&
      (entryOf c 5).firings.all (fun f => decide (f.version = 7 ∧ f.image.role = 3 ∧ f.blocksDone = [] ∧ mustWait c f = false ∧ curdBad f 0 = false ∧
        f.image.laddr = 0x130000)) &&
      (ccAsksGo 0 needW false false s [0x130000]).any (fun s2 => lands 0 0x130000 1024 s2)) = true ∧
    takes1 (inRing (inRound (cc 0 0))) (.curd (hdr 2 1) false 0 0 0 []) (fun c => !meant 2 1 c && decide (c.ring ≠ none)) = true ∧
    takes1 (inRing (inRound (cc 0 0))) (.curd (hdr 3 1) false 0 0 0 []) (fun c => meant 3 1 c && decide (slotFor c false 0 0 = none)) = true ∧
    takes1 (marked (entry .armed (image 1) 3)) (.curd (hdr 3 1) false 0 0 0 []) (fun c => meant 3 1 c && decide (slotFor c false 0 0 = some 5 ∧
      (entryOf c 5).slot.posted = false ∧ (entryOf c 5).image.peermode = true)) = true ∧
    takes1 (marked (waitingHop [(0, [])])) (.curd (hdr 3 1) false 0 0 0 []) (fun c => meant 3 1 c && decide (slotFor c false 0 0 = some 5 ∧
      (entryOf c 5).slot.posted = true ∧ Tbl.get (entryOf c 5).slot.got 0 ≠ none)) = true ∧
    takes1 (marked (waitingHop [])) (.curd (hdr 3 1) false 0 0 0 []) (fun c => meant 3 1 c && decide (slotFor c false 0 0 = some 5 ∧
      (entryOf c 5).slot.posted = true ∧ Tbl.get (entryOf c 5).slot.got 0 = none) && canFire (marked (waitingHop [(0, [])]))) = true ∧
    takes1 { marked (waitingHop []) with board := [] } (.curd (hdr 3 1) false 0 0 0 []) (fun c => meant 3 1 c && !canFire c) = true ∧
    takes1 (marked (fired .flying)) (.reply (hdr 3 1) 0x705 0 true) (fun c => meant 3 1 c && decide ((entryOf c 5).firings.getLast? = some (firing .flying))) = true ∧
    takes1 (inRing (cc 0 0)) (.reply (hdr 0 1) 0x705 0 true) (fun c => decide (c.round.st ≠ .active ∧ c.ring ≠ none)) = true ∧
    takes1 (inRing (inRound (cc 0 0))) (.posted (hdr 3 1) false 0) (fun c => meant 3 1 c) = true ∧
    takes1 (inRing (cc 0 0)) (.posted (hdr 0 1) false 0) (fun c => decide (c.round.st ≠ .active ∧ c.ring ≠ none)) = true ∧
    takes1 (inRing (inRound (cc 0 0))) (.abort (hdr 3 1)) (fun c => meant 3 1 c && decide (c.round.st = .active)) = true ∧
    takes1 (inRing (inRound (cc 0 0))) (.abort (hdr 4 1)) (fun c => !meant 4 1 c && decide (c.ring ≠ none)) = true ∧
    (let c : Cc := { inRound (cc 0 0) with round := { (inRound (cc 0 0)).round with deadline := some 0 } };
      decide (c.round.deadline = some 0 ∧ 0 ≤ (ccMachine c).now ∧ c.round.st = .active)) = true ∧
    (let c : Cc := { cc 0 0 with wheyWaits := [18] };
      decide (18 ∈ c.wheyWaits ∧ 18 ∉ c.wheyHost ∧ openFirings c = [] ∧ c.round.waitrd = false ∧ ccPlace (ccMachine c) 0 (18 * 65536) = some (.cap 0x120000))) = true ∧
    (let s := ccMachine { cc 0 0 with wheyWaits := [18], wheyHost := [18] };
      decide (18 ∈ (ccOf s 0).wheyHost ∧ hbmResident s 0x120000 = false ∧ Tbl.get s.hbm (hbmSet 0x120000) = none) &&
        (let u := { s with hbm := (List.range 32).map (fun k => (hbmSet (0x120000 + 2048 * k), { tag := hbmTag (0x120000 + 2048 * k), dirty := false, pin := none })) };
         (List.range 32).all (fun k => hbmResident u (0x120000 + 2048 * k)))) = true ∧
    (let r : Reform := { reform true false false with oldgen := 0 };
      deliverable (reforms r (.report (hdr 0 0) 2 3)) (.report (hdr 0 0) 2 3) && decide (reformOf (reforms r (.report (hdr 0 0) 2 3)) 0 1 = none)) = true ∧
    ([(reform true true false, 1), (reform true true true, 0), (reform true true true, 1), (reform true false false, 1), (reform true false false, 0),
      (reform false false false, 1)] : List (Reform × Nat)).all (fun q => reformGoes q.1 (report q.2)) = true ∧
    decide ((reforms (reform true false false) (report 0)).reforms.find? (fun r => r.cc = 0 && (r.started && !r.closed && r.deadline ≤ 9)) =
      some (reform true false false)) = true ∧
    reformGoes (reform false true false) (results 0 [0]) = true ∧ reformGoes (reform true true false) (results 1 [0]) = true ∧
    (let r := { reform true true false with record := 0x100000000 };
      reformGoes r (results 0 [0]) && decide ((deviceAsk (reforms r (results 0 [0])) 0 0x100000000 64 needRW).waits ≠ [] ∧ (heardRanks r).head? = some 0)) = true ∧
    ([[0, 1], [1]] : List (List Nat)).all (fun ranks => reformGoes (reform true true false) (results 0 ranks) &&
      decide ((heardRanks (reform true true false)).head? = some 0 ∧ (heardRanks (reform true false false)).head? = some 0) &&
      (let s := reforms (reform true true false) (results 0 ranks)
       (asksGo 0 [] s (rangeAsks s 0 0x120000 64 needRW)).any (fun s3 => (asksGo 0 [] s3 (rangeAsks s3 0 0x121000 (64 + 4 * ranks.length) needRW)).any (fun s4 =>
         lands 0 0x121000 (64 + 4 * ranks.length) s4 && lands 0 0x120028 24 s4 && decide (tlOwner (ctxOf s4 0) 0 = .software ∧ s4.fab.rank = 0 ∧
           bitField (word64 (ccRead s4 0 0x120000 64) 0x10) 0 56 = 0x121000))))) = true := by and_intros <;> decide

/-- A fault record, and a pool of one page, used or not: page 18 has a leaf, page 32 a demand-zero entry, page 33 none. -/
def faultState (cls page : Nat) (used : List Nat) : State :=
  let s := base
  { s with
    ctxs := Tbl.mapVals s.ctxs (fun _ c => { c with pool := 0x1F0000, pooln := 1, poolUsed := used }),
    mem := tableEntry (tableEntry s.mem 0x40008 0x50001) 0x50000 6,
    faults := [{ num := 4, ctx := 0, page := page, level := 0, cls := cls, kinds := 1, host := false }] }
/-- The record is firmware's, no one but a split waits on it, and the walk comes to that. -/
def faultGoes (s : State) (page : Nat) (p : Walk → Bool) : Bool :=
  (s.faults.find? (fun r => r.num = 4 && !r.host)).any (fun r => decide (r.page = page ∧ s.ccs = [] ∧ s.duties = [])) && p (walk s 0 (page * 65536)) &&
    s.launches.all (fun q => decide (q.2.paramWait = none)) && s.blocks.all (fun q => decide (q.2.saveWaits = []) && q.2.teams.all (fun m => m.2.defer.isEmpty))
/-- An error's launch: placed, its context live. -/
def errorGoes (s : State) (p : Launch → Bool) : Bool :=
  s.launches.any (fun q => p q.2 && decide (q.2.st = .placed ∧ (ctxOf s q.2.ctx).st = .live))

theorem witness_ErrorEvents :
    faultGoes (faultState 1 33 []) 33 (fun w => decide (w = .stop 0 1)) = true ∧
    faultGoes (faultState 1 18 []) 18 (fun w => decide (w = .leaf 0x120000 0x200000 false true true true)) = true ∧
    ([[], [0]] : List (List Nat)).all (fun used => faultGoes (faultState 3 32 used) 32 (fun w => decide (w = .stop 0 3)) &&
      decide (entryAddr (faultState 3 32 used).mem 4 3 (ctxOf base 0).root (32 * 65536) = some 0x50000)) = true ∧
    splitAt base 0 (fun _ m _ => decide (m.st ≠ .ended ∧ 7 < m.nregs ∧ 31 < m.width)) = true ∧
    splitAt base 0 (fun _ m _ => decide (m.st ≠ .ended ∧ (liveLanes m).getLsbD 31 = true ∧ (liveLanes m).getLsbD 32 = false ∧ m.dp = 0)) = true ∧
    errorGoes base (fun l => decide (l.lr.nreplay = false ∧ l.nonReplay = false ∧ l.lr.commit = 0)) = true ∧
    errorGoes (onLaunches (fun l => { l with nonReplay := true }) base) (fun l => l.nonReplay) = true ∧
    errorGoes (unitState 2 []) (fun l => decide (l.lr.commit = 2)) = true ∧ errorGoes (unitState 3 []) (fun l => decide (l.lr.commit = 3)) = true ∧
    (let s : State := { base with log := { base.log with head := 0, tail := 1, hsize := 4 } };
      decide (s.chan.duty.getLsbD 1 = false ∧ s.log.hsize ≠ 0 ∧ s.log.head ≠ s.log.tail)) = true ∧
    decide (base.log.hsize = 0 ∧ base.mgmt.ready = true ∧ base.mgmt.brown = false ∧ State.reset.mgmt.ready = false) = true := by and_intros <;> decide

/-- A port in a state, with so many failed windows. -/
def portState (st : PortState) (windows : Nat) : State :=
  let s := base
  { s with fab := { s.fab with ports := Tbl.put s.fab.ports 47 { Port.reset with st := st, inset := decide (st = .live), winfail := windows } } }
/-- A packet at port 47. -/
def packet (auth : Bool) : Packet := { src := 1, psn := 5, port := 47, len := 64, corr := 2, rod := none, clear := 0, key := none, auth := auth, body := report 1 }
/-- A packet sent and lost at time 0. -/
def lostState (now : Nat) : State :=
  let s := portState .live 0
  { s with now := now, fab := { s.fab with tx := [{ psn := 5, port := some 47, lost := some 0, addr := 0, rod := none, entropy := 0, key := none, deadline := none, body := report 1 }] } }

theorem witness_retransmit_due : 0 + 20 * Config.cyclesPerMicro ≤ (lostState (20 * Config.cyclesPerMicro)).now :=
  Nat.le_of_eq (Nat.zero_add _)

/-- A context with a key in its grace. -/
def graceState (now : Nat) : State := { onCtxs (fun c => { c with keyPrev := some [] }) base with now := now }

theorem witness_grace_over : (ctxOf (graceState (10000000 * Config.cyclesPerMicro)) 0).keyTime + 10000000 * Config.cyclesPerMicro ≤
    (graceState (10000000 * Config.cyclesPerMicro)).now := Nat.le_of_eq (Nat.zero_add _)

/-- A self-test in a phase. -/
def testState (phase : Nat) : State :=
  { base with mgmt := { base.mgmt with test := some { phase := phase, buf := 0x1000, nonce := 7, seq := 1, ack := false, corr0 := 0, start := 0 } } }

theorem witness_FabricAndBootEvents :
    ([.training, .live] : List PortState).all (fun st => decide ((portOf (portState st 6) 47).st = st ∧ (portOf (portState st 6) 47).winfail = 6)) = true ∧
    decide ((portOf (portState .training 7) 47).winfail = 7 ∧ (portOf base 47).st = .down) = true ∧
    ([true, false] : List Bool).all (fun a => decide ((portOf (portState .live 0) (packet a).port).st = .live ∧ (packet a).auth = a ∧
      ((packet a).src, (packet a).psn) ∉ (portState .live 0).fab.seen)) = true ∧
    (lostState 0).fab.tx.any (fun q => decide (q.psn = 5 ∧ q.lost = some 0)) = true ∧ (portOf (lostState 0) 47).inset = true ∧
    decide ((ctxOf (graceState 0) 0).keyPrev ≠ none ∧ (ctxOf base 0).keyPrev = none) = true ∧
    decide (State.reset.mgmt.ready = false ∧ base.mgmt.ready = true ∧ State.reset.flash.bankA.valid = false ∧ State.reset.flash.bankB.valid = false) = true ∧
    ([1, 4, 5] : List Nat).all (fun n => (testState n).mgmt.test.any (fun q => decide (q.phase = n ∧ q.ack = false ∧ (testState n).chan.en = false))) = true ∧
    decide (base.mgmt.test = none ∧ base.mgmt.idfail = false ∧ base.mgmt.keyend = false) = true := by and_intros <;> decide
/-! ## Commands, registers, steps -/

/-- A command entry of context 0, number 9, with ACK. -/
def ask (a0 a1 a2 a3 : DWord) : Cmd := { seq := 9, head := 0x10000, a0 := a0, a1 := a1, a2 := a2, a3 := a3, a4 := 0, a5 := 0 }
/-- `Fits`, as a check. -/
def fitsCmd (used : Nat) (privq : Bool) (c : Cmd) : Bool :=
  decide (bitField c.head.toNat 24 40 = 0 ∧ bitField c.head.toNat 6 2 = 0 ∧ bitField c.head.toNat 18 6 = 0 ∧ (privq = false → c.head.getLsbD 17 = false)) &&
    (List.range 6).all (fun i => decide (used ≤ i → arg c i = 0))

theorem fitsCmd_fits {used : Nat} {privq : Bool} {c : Cmd} (h : fitsCmd used privq c = true) : Fits used privq c := by
  simp only [fitsCmd, Bool.and_eq_true, decide_eq_true_eq, List.all_eq_true, List.mem_range] at h
  exact ⟨h.1.1, h.1.2.1, h.1.2.2.1, h.1.2.2.2, fun i h1 h2 => h.2 i h2 h1⟩

/-- An entry whose fields fit is served by a machine, and a test passes. -/
def serve (used : Nat) (c : Cmd) (s : State) (p : State → Bool) : Bool :=
  fitsCmd used false c && decide (s.mgmt.ready = true ∧ s.mgmt.recovery = false ∧ (ctxOf s (ctxOfCmd c)).st = .live) && p s

theorem serve_serves {used : Nat} {c : Cmd} {s : State} {p : State → Bool} (h : serve used c s p = true) :
    Fits used false c ∧ Serves c s ∧ p s = true := by
  simp only [serve, Bool.and_eq_true, decide_eq_true_eq] at h
  exact ⟨fitsCmd_fits h.1.1, h.1.2, h.2⟩

/-- A launch record in memory: one block of one team of 32 lanes with 8 registers. -/
def submitState : State :=
  withWord 0x120030 (32 + 2 ^ 16 + 2 ^ 21 + 8 * 2 ^ 32) (withWord 0x120028 (1 + 2 ^ 24 + 2 ^ 40 + 2 ^ 56) (withWord 0x120000 0x100000 base))
/-- The reserved fields of that record. -/
def recordZeros (bs : List Byte) : Bool :=
  ([(0x00, 56, 8), (0x08, 56, 8), (0x10, 56, 8), (0x18, 56, 8), (0x20, 56, 8), (0x28, 60, 4), (0x30, 48, 16), (0x30, 26, 6), (0x30, 11, 5),
    (0x38, 36, 28), (0x38, 20, 5), (0x40, 16, 48), (0x40, 9, 3), (0x40, 6, 2), (0x48, 12, 52), (0x58, 0, 64), (0x60, 0, 64), (0x68, 0, 64),
    (0x70, 0, 64), (0x78, 0, 64)] : List (Nat × Nat × Nat)).all (fun q => bitField (word64 bs q.1) q.2.1 q.2.2 == 0)
/-- That record is in reach, and every check of it passes, or, in a launch without a team's registers, the fourth fails. -/
def recordGoes (s : State) (regs : Nat) : Bool :=
  match reachTarget s 0 [] needR (globalTarget s 0 0x120000 false) with
  | .go p => let bs := (List.range 128).map (readByte s Shadow.empty p)
    let r := Spec.recordOf bs
    recordZeros bs && decide (r.tentry = 0x100000 ∧ r.fentry = 0 ∧ r.jentry = 0 ∧ r.handler = 0 ∧ r.param = 0 ∧ r.width = 32 ∧ r.regs = regs ∧ r.initt = 1 ∧
      r.maxt = 1 ∧ r.gang = 1 ∧ r.gridx = 1 ∧ r.gridy = 1 ∧ r.gridz = 1 ∧ r.kregs = 0 ∧ r.scratch = 0 ∧ r.accmax = 0 ∧ 1 ≤ mostDatapaths s ∧
      tlOwner (ctxOf s 0) r.tlid = .software)
  | _ => false
/-- The block is halted. -/
def haltedState : State := onTeams (fun m => { m with st := .stopped }) (onBlocks (fun k => { k with st := .halted, prior := .running }) base)
/-- The launch is queued, and none of its blocks has been placed. -/
def queuedState : State := { unplaced with launches := Tbl.mapVals unplaced.launches (fun _ l => { l with param := none }) }

theorem witness_LaunchCommands :
    (fitsCmd 0 false (ask 0 0 0 0) && !fitsCmd 0 false (ask 1 0 0 0)) = true ∧
    serve 2 (ask 7 3 0 0) base (fun s => decide (tlOwner (ctxOf s 0) 7 = .software)) = true ∧ serve 2 (ask 4096 3 0 0) base (fun _ => true) = true ∧
    serve 2 (ask 7 0 0 0) base (fun s => decide (tlValue s 0 7 = 0)) = true ∧ serve 2 (ask 7 1 0 0) base (fun s => decide (tlValue s 0 7 = 0)) = true ∧
    serve 6 (ask 0x120000 0 0 0) submitState (fun s => recordGoes s 8 && decide (queuedCount s 0 = 0)) = true ∧
    serve 6 (ask 0x120000 0 0 0) (withWord 0x120030 (32 + 2 ^ 16 + 2 ^ 21) submitState) (fun s => recordGoes s 0) = true ∧
    serve 6 (ask 0x120001 0 0 0) submitState (fun _ => true) = true ∧
    serve 2 (ask 0 0 0 0) haltedState (fun s => s.blocks.all (fun q => decide (q.2.launch = 0 ∧ q.2.lin = 0 ∧ ctxNum s q.1 = 0 ∧ q.2.st = .halted)) &&
      decide ((s.blocks.map (fun q => q.1)).Nodup ∧ s.blocks ≠ [])) = true ∧
    serve 2 (ask 0 0 0 0) base (fun s => s.blocks.all (fun q => decide (q.2.st ≠ .halted))) = true ∧
    serve 1 (ask 0 0 0 0) queuedState (fun s => (Tbl.get s.launches 0).any (fun l => decide (l.ctx = 0 ∧ l.st = .queued ∧ l.param = none ∧ l.ready = true))) = true ∧
    serve 1 (ask 1 0 0 0) queuedState (fun s => decide (Tbl.get s.launches 1 = none)) = true := by and_intros <;> decide

/-- A context descriptor in host memory. -/
def descState (chip : Nat) : State :=
  { State.reset with
    mgmt := { State.reset.mgmt with ready := true },
    host := writeBytes (writeBytes (writeBytes (writeBytes [] 0x1008 (leBytes 8 0x8000)) 0x1010 (leBytes 8 0x80000)) 0x1020 (leBytes 8 (2 ^ 48 + 2 * 2 ^ 32)))
      0x1030 (leBytes 8 (chip * 2 ^ 32)) }
/-- A fault record of context 0. -/
def recordState (page : Nat) : State := faultState 1 page []
/-- A collective context of context 0 in a state. -/
def boundState (st : CcState) : State := ccMachine { cc 0 0 with st := st }

theorem witness_ContextCommands :
    ([0, 65] : List Nat).all (fun chip => fitsCmd 1 false (ask 0x1000 0 0 0) && (let s := descState chip
      let bs := (List.range 128).map (fun i => Sparse.get (w := 8) s.host (0x1000 + i))
      decide ((ctxOf s 0).st = .free ∧ s.mgmt.test = none ∧ s.mgmt.unusable = false ∧ word64 bs 0x08 = 0x8000 ∧ word64 bs 0x10 = 0x80000 ∧
        word64 bs 0x20 = 2 ^ 48 + 2 * 2 ^ 32 ∧ word64 bs 0x30 = chip * 2 ^ 32 ∧ 64 ≤ (chipFree s).length))) = true ∧
    serve 0 (ask 0 0 0 0) (boundState .running) (fun s => decide ((ccOf s 0).st ≠ .unbound ∧ s.launches ≠ [])) = true ∧
    (fitsCmd 0 false (ask 0 0 0 0) && decide ((ctxOf base 0).st = .live ∧ (ctxOf (onCtxs (fun c => { c with st := .killed }) base) 0).st = .killed)) = true ∧
    ([(0, 0), (1, 1023), (2, 7), (3, 0), (1, 1024), (2, 8)] : List (DWord × DWord)).all (fun q => serve 3 (ask 5 q.1 q.2 0) base (fun s => decide (s.ccs = []))) = true ∧
    serve 3 (ask 0 0 0 0) (boundState .ready) (fun s => decide ((ccOf s 0).tlc = 0 ∧ (ccOf s 0).st ≠ .unbound)) = true ∧
    ([18, 0x3000] : List Nat).all (fun page => ([0, 1, 2] : List DWord).all (fun how => serve 2 (ask 4 how 0 0) (recordState page) (fun s =>
      faultGoes s page (fun _ => true) && decide (s.faults.length ≤ 256)))) = true ∧
    ([0x120000, 0x120001, 0x120002] : List DWord).all (fun d => serve 1 (ask d 0 0 0) base (fun _ => true)) = true ∧
    ([0, 1] : List Nat).all (fun n => serve 2 (ask 0 0 0 0) (asked n 0) (fun s => decide (namedLaunch (ask 0 0 0 0) s ≠ none ∧
      placedCopies s 0 0 = [0] ∧ (freeSlots (ctxOf s 0)).length = n ∧ (s.blocks.map (fun q => q.1)).Nodup))) = true ∧
    ([true, false] : List Bool).all (fun v => serve 4 (ask 3 0x10020 0x100000 7) { base with fab := { base.fab with valid := v } } (fun s =>
      decide ((ccOf s 3).st = .unbound ∧ bitField 0x10020 16 7 = 1 ∧ bitField 0x10020 0 13 = 32 ∧ tlOwner (ctxOf s 0) 7 = .software))) = true ∧
    ([.ready, .halted, .faulted, .running] : List CcState).all (fun st => serve 1 (ask 0 0 0 0) (boundState st) (fun s =>
      decide ((ccOf s 0).st = st ∧ (ccOf s 0).ctx = 0 ∧ (ccOf s 0).prot = false))) = true ∧
    serve 1 (ask 0 0 0 0) base (fun s => decide ((ccOf s 0).st = .unbound)) = true ∧
    serve 6 (ask 32 0 0 0) base (fun _ => true) = true ∧ serve 6 (ask 33 0 0 0) base (fun _ => true) = true := by and_intros <;> decide

/-- The context may be debugged, its teams in a state. -/
def debugState (st : TeamState) : State := onCtxs (fun c => { c with debug := true }) (onTeams (fun m => { m with st := st }) base)
/-- The block that a debug command names, and its team 0. -/
def debugs (s : State) (p : Block → Team → Bool) : Bool :=
  (s.blocks.filter (fun q => q.2.launch = 0 && q.2.lin = 0 && ctxNum s q.1 = 0)).head?.any (fun q =>
    decide (q.1 = 0 ∧ (ctxOf s 0).debug = true) && (Tbl.get q.2.teams 0).any (fun m => p q.2 m))
/-- A firmware or self-test command is taken up. -/
def takesUp (used : Nat) (c : Cmd) (s : State) : Bool :=
  fitsCmd used false c && decide (s.mgmt.ready = true ∧ ctxOfCmd c = 0 ∧ s.mgmt.recovery = false ∧ s.mgmt.test = none)

theorem witness_DeviceCommands :
    ([0, 31] : List DWord).all (fun n => serve 3 (ask 0 0 n 0) (debugState .running) (fun s => debugs s (fun k m =>
      decide (k.st = .running ∧ m.st = .running ∧ Tbl.get s.launches k.launch ≠ none)))) = true ∧
    ([0, 31] : List DWord).all (fun n => serve 3 (ask 0 0 n 0) (debugState .stopped) (fun s => debugs s (fun k m => decide (k.st = .running ∧ m.st = .stopped)))) = true ∧
    serve 3 (ask 0 0 31 0) (onCtxs (fun c => { c with debug := true }) haltedState) (fun s => debugs s (fun k _ => decide (k.st = .halted))) = true ∧
    ([0, 16] : List DWord).all (fun e => serve 4 (ask 0 0 0 e) (debugState .stopped) (fun s => debugs s (fun k m =>
      decide (k.st = .running ∧ m.st = .stopped ∧ Tbl.get m.splits 0 ≠ none ∧ (oldestReady m).isSome = true)))) = true ∧
    serve 4 (ask 0 0 0 0x1000) (debugState .stopped) (fun s => debugs s (fun k m => decide (k.st ≠ .saved ∧ m.st = .stopped))) = true ∧
    serve 2 (ask 0x100002 0x103 0 0) (debugState .running) (fun s => decide ((ctxOf s 0).debug = true ∧ bitField 0x103 9 55 = 0 ∧ bitField 0x103 2 6 = 0)) = true ∧
    serve 2 (ask 0 1 0 0) (debugState .running) (fun s => decide ((ctxOf s 0).debug = true)) = true ∧
    serve 2 (ask 0 1 0 0) base (fun s => decide ((ctxOf s 0).debug = false)) = true ∧
    (takesUp 2 (ask 0x1000 0 0 0) base && takesUp 2 (ask 1 0 0 0) base && takesUp 0 (ask 0 0 0 0) base && decide (base.mgmt.staged = none)) = true ∧
    takesUp 0 (ask 0 0 0 0) { base with mgmt := { base.mgmt with staged := some true } } = true ∧
    (takesUp 3 (ask 0x1000 3540 7 0) (descState 0) && takesUp 3 (ask 0x1000 3539 7 0) (descState 0) && decide ((descState 0).ctxs = [])) = true ∧
    (takesUp 3 (ask 0x1000 3540 7 0) base && base.ctxs.any (fun q => decide (q.2.st ≠ .free))) = true := by and_intros <;> decide

theorem witness_RegisterWrites :
    decide (State.reset.mgmt.ready = false ∧ base.mgmt.ready = true ∧ base.chan.en = false ∧ base.ccs = [] ∧ base.log.hsize = 0) = true ∧
    (let s : State := { base with chan := { base.chan with cmdsize := 64 } };
      decide (s.chan.cmdacc.toNat ≤ 64 ∧ 64 ≤ s.chan.cmdacc.toNat + s.chan.cmdsize.toNat ∧ s.chan.cmdacc.toNat + s.chan.cmdsize.toNat < 65)) = true ∧
    (let s : State := { base with chan := { base.chan with cplemit := 3 }, log := { base.log with tail := 2 } };
      decide (s.chan.cplhead.toNat ≤ 3 ∧ 3 ≤ s.chan.cplemit.toNat ∧ s.log.head.toNat ≤ 2 ∧ 2 ≤ s.log.tail.toNat)) = true ∧
    decide ((64 : DWord).toNat = 2 ^ 6 ∧ (65536 : DWord).toNat = 2 ^ 16 ∧ (0x40000000 : DWord).toNat % 2 ^ 30 = 0) = true ∧
    ([.down, .training, .live, .failed] : List PortState).all (fun st => decide ((portOf (portState st 0) 47).st = st ∧ (portOf (portState st 0) 47).disabled = false)) = true ∧
    (let s : State := { base with chan := { base.chan with winsize := 0x40000000 } }; decide (s.mgmt.ready = true ∧ 0x1000 + 4 ≤ s.chan.winsize.toNat ∧
      s.chan.winbase.toNat + 0x1000 + 4 ≤ Config.capacityBytes)) = true := by and_intros <;> decide

/-- A turn of the split comes (`AtTurn`), its instruction is to be fetched, and what the fetch comes to passes a test. -/
noncomputable def comesTo (s : State) (p : Fetched → Bool) : Bool :=
  let s0 : State := { s with agenda := [] }
  decide (s.due = [] ∧ s.agenda = [.run (.split 0 0 0)] ∧ oldestFirst s (.split 0 0 0) = .split 0 0 0) &&
  (issuing s0 0 0 0).any (fun q => decide (dueTrap s0 (ctxNum s0 0) 0 q.2.1 = false ∧ breakDue s0 0 q.2.2 = false ∧
    q.2.2.held.bind (fun h => h.code) = none) && p (fetchCode s0 (shadowOf s0 0) (ctxNum s0 0) (fetchFailed q.2.2) q.2.2.pc))
/-- A machine with a word where the split fetches. -/
def turn (w : Nat) : State := State.reset.withFetchWord 32 w
/-- The bytes fetched are those of a word, as far as the decoder reads them. -/
noncomputable def fetched (w : Nat) (f : Fetched) : Bool :=
  match f with
  | .bytes v _ => decide (decode (BitVec.ofNat 96 v) = decode (BitVec.ofNat 96 w))
  | _ => false
/-- The fetch waits for a page, is barred, or meets poison. -/
def stops (kind : Nat) (f : Fetched) : Bool :=
  match f with
  | .bytes _ _ => false
  | .miss page _ => decide (kind = 0 ∧ page = 0x10000)
  | .barred code a => decide (kind = 1 ∧ code = 0x08 ∧ a = 0x100000)
  | .poison => decide (kind = 2)

theorem witness_StepRunsDecoded :
    (comesTo (turn 0x01440C09) (fetched 0x01440C09) && decide (decode 0x01440C09#96 = .ok (.iaddW32 ⟨0, 3, 4, 5⟩))) = true ∧
    (comesTo (turn 0x0000003E) (fetched 0x0000003E) && decide (decode 0x0000003E#96 = .error .reservedField)) = true ∧
    comesTo (onSplits (fun p => { p with pc := 0x100000000 }) (turn 0)) (stops 0) = true ∧
    comesTo { turn 0 with mem := tableEntry (turn 0).mem 0x40000 0x1B } (stops 1) = true ∧
    comesTo { turn 0 with poison := [0x100000] } (stops 2) = true ∧
    decide (State.reset.due = [] ∧ State.reset.agenda = [] ∧ isHappening .boot = true) = true := by and_intros <;> decide

/-- A word of an open instruction, an entry of a collective context, and one of the channel. -/
def openWord : State :=
  let s := State.reset.withFetchWord 32 0x01440C09
  onSplits (fun p => { p with held := some { opened none false with code := some 0x01440C09#96 } }) s
/-- Fuset code at 0x100000 of context 0. -/
def fusetWord : State := withWord 0x100000 0x1000000000000101 { ccMachine (cc 0 0) with agenda := [.run (.cc 0)] }
/-- A NOP entry in the ring at 0x1000 of the host. -/
def channelEntry : State :=
  { base with
    agenda := [.channel], host := writeBytes [] 0x1040 (leBytes 8 1),
    chan := { base.chan with en := true, cmdbase := 0x1000, cmdsize := 64, cplsize := 64, cmdtail := 1 } }

theorem witness_StepRunsOthers :
    (issuing { openWord with agenda := [] } 0 0 0).any (fun q => decide (dueTrap { openWord with agenda := [] } 0 0 q.2.1 = false ∧ breakDue { openWord with agenda := [] } 0 q.2.2 = false ∧
      q.2.2.held.bind (fun h => h.code) = some 0x01440C09#96)) = true ∧
    (match fetchBytes { fusetWord with agenda := [] } Shadow.empty 0 [] 0x100000 8 with
     | .bytes v _ => decide (decodeFuset (BitVec.ofNat 64 v) = .ok (.fusetLi ⟨1, 0, 0, 0x2000000000⟩) ∧ ccIssues (ccOf fusetWord 0) = true)
     | _ => false) = true ∧
    decide (decodeFuset (BitVec.ofNat 64 0x2001) = .error .reservedField) = true ∧
    (entryDue channelEntry && decide ((entryAt channelEntry.host (entryPlace channelEntry.chan (channelEntry.chan.cmdacc + 1))).seq = channelEntry.chan.cmdacc + 1)) = true := by
  and_intros <;> decide

/-- A well-formed instruction of each instruction set. -/
theorem witness_EncodingRoundTrip :
    ([.iaddW32 ⟨0, 3, 4, 5⟩, .nopC16 ⟨0, 0⟩, .fusetAdd ⟨7, 7, 0, 32⟩, .commandNop (ask 0 0 0 0)] : List Instr).all (fun i => i.wf) = true ∧
    (encode (.iaddW32 ⟨0, 3, 4, 5⟩)).isSome = true ∧ (encodeFuset (.fusetAdd ⟨7, 7, 0, 32⟩)).isSome = true ∧
    (encodeCommand (.commandNop (ask 0 0 0 0))).isSome = true := by and_intros <;> decide

/-- A machine whose memories are canonical, and a step of it. -/
theorem witness_MemoriesStayCanonical :
    (Memory.wf base.mem && Memory.wf base.host && Memory.wf base.chip && Memory.wf base.spad && Sparse.wf base.acc) = true ∧
    (match step (State.reset.withFetchWord 32 0x01440C09) with
     | .next _ => true
     | _ => false) = true := by and_intros <;> decide

end Sys2Proof.Tests
end

