-- ==== Sys2Proof/Tests/Slice0.lean ====
section
/-! SUPPORT. Slice0: the ill-formed terms that each check of WellFormed refuses, the words that the spec works to the bit and what they
decode to, and the spec's worked results. The named witnesses of the obligations stand in the Witness files beside it. -/

namespace Sys2Proof.Tests

open Sys2Proof Sys2Proof.Machine

set_option maxRecDepth 100000
set_option exponentiation.threshold 2000

/-! ## Ill-formed terms: one for each check -/

theorem test_wf_c16_reserved_field : (Instr.nopC16 ⟨1, 0⟩).wf = false := by decide
theorem test_wf_w32_minor_of_no_row : (Instr.brevW32 ⟨4, 1, 2, 0⟩).wf = false := by decide
theorem test_wf_w32_reserved_field : (Instr.iabsW32 ⟨0, 1, 2, 3⟩).wf = false := by decide
theorem test_wf_l64_minor_of_no_row : (Instr.faddL64 ⟨15, 3, 3, 5, 0, 255, false, false, 0, 0, none⟩).wf = false := by decide
theorem test_wf_l64_odd_pair : (Instr.add64L64 ⟨0, 3, 4, 6, 0, 255, false, false, 0, 0, none⟩).wf = false := by decide
theorem test_wf_l64_special_predicate : (Instr.iaddL64 ⟨0, 3, 4, 5, 0, 0xF0, false, false, 0, 0, none⟩).wf = false := by decide
theorem test_wf_l64_rounding_mode : (Instr.iaddL64 ⟨0, 3, 4, 5, 0, 255, false, false, 1, 0, none⟩).wf = false := by decide
theorem test_wf_l64_order_code : (Instr.st ⟨2, 0, 4, 0, 6, 255, false, false, 0, 1, none⟩).wf = false := by decide
theorem test_wf_x96_no_literal_form : (Instr.cvtL64 ⟨4, 8, 9, 0, 0, 255, false, false, 0, 0, some 0⟩).wf = false := by decide
theorem test_wf_tlwait_literal_selector :
    (Instr.tlwaitL64 ⟨0, 6, 4, 0, 0, 255, false, false, 0, 0, some 0xF000#32⟩).wf = false := by decide
theorem test_wf_fuset_reserved_field : (Instr.fusetBr ⟨1, 0, 0, 0⟩).wf = false := by decide
theorem test_wf_fuset_li_shift : (Instr.fusetLi ⟨1, 0, 24, 0⟩).wf = false := by decide
theorem test_wf_command_opcode : (Instr.submit ⟨1, 0x0000#64, 0, 0, 0, 0, 0, 0⟩).wf = false := by decide
theorem test_wf_reserved_encoding_of_a_row : (Instr.reservedEncoding 0x01440C09#96).wf = false := by decide
theorem test_wf_fuset_reserved_opcode_of_a_row : (Instr.fusetReservedOpcode 0x0D#64).wf = false := by decide
theorem test_wf_unassigned_command_of_a_row : (Instr.unassignedCommand ⟨1, 0x0100#64, 0, 0, 0, 0, 0, 0⟩).wf = false := by decide
theorem test_wf_accepts : (Instr.iaddW32 ⟨0, 3, 4, 5⟩).wf = true ∧ (Instr.fusetLi ⟨1, 0, 23, 0⟩).wf = true := by decide

/-! ## Words written out from the encodings of the spec -/

-- 09, 08: the decoder's worked words
theorem test_decode_iadd_w32 : decode 0x01440C09#96 = .ok (.iaddW32 ⟨0, 3, 4, 5⟩) := by rfl
theorem test_decode_iadd_c16 : decode 0x2862#96 = .ok (.iaddC16 ⟨3, 5⟩) := by rfl
theorem test_decode_iadd_predicated :
    decode 0x0000480028181813#96 = .ok (.iaddL64 ⟨0, 3, 3, 5, 0, 9, false, false, 0, 0, none⟩) := by rfl
theorem test_decode_iadd_ifnot :
    decode 0x0008480028181813#96 = .ok (.iaddL64 ⟨0, 3, 3, 5, 0, 9, true, false, 0, 0, none⟩) := by rfl
theorem test_decode_fadd_rz :
    decode 0x0207F80028181903#96 = .ok (.faddL64 ⟨0, 3, 3, 5, 0, 255, false, false, 1, 0, none⟩) := by rfl
theorem test_decode_iadd_literal :
    decode 0x000000070007F80000181817#96 = .ok (.iaddL64 ⟨0, 3, 3, 0, 0, 255, false, false, 0, 0, some 7#32⟩) := by rfl
theorem test_decode_fence : decode 0x4017F80000000323#96 = .ok (.fence ⟨0, 0, 0, 0, 0, 255, false, true, 0, 4, none⟩) := by rfl
theorem test_decode_bra :
    decode 0x0027F83FFFFF0403#96 = .ok (.bra ⟨1, 0xE0, 0xFF, 0xFF, 7, 255, false, false, 0, 0, none⟩) := by rfl
theorem test_decode_bra_literal :
    decode 0xFFFFFFE00027F83800000407#96 = .ok (.bra ⟨1, 0, 0, 0, 7, 255, false, false, 0, 0, some 0xFFFFFFE0#32⟩) := by rfl
theorem test_decode_nop_reserved_field : decode 0x003E#96 = .error .reservedField := by rfl
-- 11: arithmetic and conversion
theorem test_decode_imad_wide :
    decode 0x0027F8301810202B#96 = .ok (.imad ⟨1, 4, 2, 3, 6, 255, false, false, 0, 0, none⟩) := by rfl
theorem test_decode_cvt :
    decode 0x3F8000001147F80000484207#96 = .ok (.cvtL64 ⟨10, 8, 9, 0, 0, 255, false, false, 0, 1, some 0x3F800000#32⟩) := by rfl
-- 12: cross-lane, loads and atomics
theorem test_decode_shfl :
    decode 0x0267F80060585283#96 = .ok (.shflL64 ⟨3, 10, 11, 12, 0, 255, false, false, 1, 0, none⟩) := by rfl
theorem test_decode_ld_fe :
    decode 0x000000402487F80008102B07#96 = .ok (.ldL64 ⟨4, 5, 2, 1, 0, 255, false, false, 2, 2, some 0x40#32⟩) := by rfl
theorem test_decode_atom_cas :
    decode 0xE127F84000103313#96 = .ok (.atom ⟨9, 6, 2, 0, 8, 255, false, false, 0, 14, none⟩) := by rfl
-- 13: control and synchronisation
theorem test_decode_join : decode 0x10000205#96 = .ok (.joinW32 ⟨1, 0, 0, 0⟩) := by rfl
theorem test_decode_bar_cluster :
    decode 0x1047F80000080483#96 = .ok (.barL64 ⟨2, 0, 1, 0, 0, 255, false, false, 0, 1, none⟩) := by rfl
theorem test_decode_bar_block : decode 0x20010241#96 = .ok (.barW32 ⟨2, 0, 1, 0⟩) := by rfl
theorem test_decode_tlwait :
    decode 0x000010000007F8000020349F#96 = .ok (.tlwaitL64 ⟨0, 6, 4, 0, 0, 255, false, false, 0, 0, some 0x1000#32⟩) := by rfl
theorem test_decode_xset :
    decode 0x010408100007F8000007D4B7#96 = .ok (.xset ⟨0, 0xFA, 0, 0, 0, 255, false, false, 0, 0, some 0x01040810#32⟩) := by rfl
-- 14: engines, matrices and compressed collectives
theorem test_decode_cpy32 :
    decode 0x1047F8403020032B#96 = .ok (.cpy32 ⟨2, 0, 4, 6, 8, 255, false, false, 0, 1, none⟩) := by rfl
theorem test_decode_waittag : decode 0x00C10199#96 = .ok (.waittagW32 ⟨0, 0, 1, 3⟩) := by rfl
theorem test_decode_mma :
    decode 0x0017F94040805513#96 = .ok (.mma ⟨0, 10, 16, 8, 40, 255, false, true, 0, 0, none⟩) := by rfl
theorem test_decode_cenc :
    decode 0x0007F8A8A8A06583#96 = .ok (.cenc ⟨0, 12, 20, 21, 21, 255, false, false, 0, 0, none⟩) := by rfl
theorem test_decode_tset : decode 0x014202C9#96 = .ok (.tsetW32 ⟨0, 0, 2, 5⟩) := by rfl
theorem test_decode_tset_literal :
    decode 0x000000400007F82800100597#96 = .ok (.tsetL64 ⟨0, 0, 2, 0, 5, 255, false, false, 0, 0, some 0x40#32⟩) := by rfl
-- 15: front and system instructions
theorem test_decode_rdsr : decode 0x0007F80040002F03#96 = .ok (.rdsr ⟨0, 5, 0, 8, 0, 255, false, false, 0, 0, none⟩) := by rfl
theorem test_decode_wrsr : decode 0x0007F8000018070B#96 = .ok (.wrsr ⟨0, 0, 3, 0, 0, 255, false, false, 0, 0, none⟩) := by rfl
theorem test_decode_pushd :
    decode 0x0007F800100804BB#96 = .ok (.pushdL64 ⟨0, 0, 1, 2, 0, 255, false, false, 0, 0, none⟩) := by rfl
theorem test_decode_system_words :
    decode 0x389#96 = .ok (.rettW32 ⟨0, 0, 0, 0⟩) ∧ decode 0x0004038D#96 = .ok (.tlbinvW32 ⟨0, 0, 4, 0⟩) ∧
    decode 0x395#96 = .ok (.haltW32 ⟨0, 0, 0, 0⟩) ∧ decode 0x391#96 = .ok (.reservedEncoding 0x391) := by
  refine ⟨?_, ?_, ?_, ?_⟩ <;> rfl
-- 16, 28: Fuset
theorem test_decode_fuset_li : decodeFuset 0x1000000000000101#64 = .ok (.fusetLi ⟨1, 0, 0, 0x2000000000⟩) := by rfl
theorem test_decode_fuset_add : decodeFuset 0x000000001000E702#64 = .ok (.fusetAdd ⟨7, 7, 0, 32⟩) := by rfl
theorem test_decode_fuset_bnz : decodeFuset 0xFFFFFFFFF501400D#64 = .ok (.fusetBnz ⟨0, 10, 0, 0x1FFFFFFFFEA⟩) := by rfl
theorem test_decode_fuset_event : decodeFuset 0x0000007F80814025#64 = .ok (.fusetEvent ⟨0, 10, 0, 0xFF01⟩) := by rfl
theorem test_decode_fuset_reform : decodeFuset 0x16024#64 = .ok (.fusetReform ⟨0, 11, 0, 0⟩) := by rfl
theorem test_decode_fuset_wrest : decodeFuset 0x1A922#64 = .ok (.fusetWrest ⟨9, 13, 0, 0⟩) := by rfl
theorem test_decode_fuset_wfold : decodeFuset 0x23#64 = .ok (.fusetWfold ⟨0, 0, 0, 0⟩) := by rfl
theorem test_encode_iadd : encode (.iaddW32 ⟨0, 3, 4, 5⟩) = some 0x01440C09#96 := by rfl

/-! ## Worked results of the spec -/

/-- What a lane function answers in lane 0 of a team whose registers 2, 3, 4 and so on hold the given words. -/
def laneOf (f : Iss → Op → Nat → LaneOut) (op : Op) (vs : List Word) : Option LaneOut :=
  (issuer (withRegs (vs.zipIdx.map (fun v => (v.2 + 2, v.1))) base)).map (fun i => f (withLanes i op) op 0)

-- 11, after R239
theorem test_iadd_saturates :
    laneOf laneIadd (opL 0x02 ⟨1, 9, 2, 3, 0, 255, false, false, 0, 0, none⟩) [0x7FFFFFF0, 0x20] =
      some (.flagged 0x7FFFFFFF fSAT) := by decide
theorem test_imad_wide :
    laneOf laneImad (opL 0x05 ⟨2, 10, 2, 3, 4, 255, false, false, 0, 0, none⟩) [0xFFFFFFFF, 0xFFFFFFFF, 1, 0] =
      some (.dword 0xFFFFFFFE00000002) := by decide
-- 11 R243
theorem test_bysel :
    laneOf laneBysel (opL 0x16 ⟨0, 9, 2, 3, 4, 255, false, false, 0, 0, none⟩) [0x44332211, 0x88776655, 0x0F140400] =
      some (.word 0x11005511) := by decide
-- 11 R257
theorem test_clmul_lo :
    laneOf laneClmul (opL 0xC2 ⟨0, 9, 2, 3, 0, 255, false, false, 0, 0, none⟩) [0x80000001, 3] = some (.word 0x80000003) := by decide
theorem test_clmul_hi :
    laneOf laneClmul (opL 0xC2 ⟨1, 9, 2, 3, 0, 255, false, false, 0, 0, none⟩) [0x80000001, 3] = some (.word 1) := by decide
-- 11, after R240: the most negative number has no positive of its own
theorem test_iabs :
    laneOf laneIabs (opL 0x11 ⟨0, 9, 2, 0, 0, 255, false, false, 0, 0, none⟩) [0x80000000] = some (.word 0x80000000) := by decide
-- 06, the worked conversions; 11, after R249
theorem test_cvt_bf16 :
    deliver bf16 0 false 0xAAAAAB (-25) false = { code := 0x3EAB, fl := fNX } ∧
    deliver bf16 1 false 0xAAAAAB (-25) false = { code := 0x3EAA, fl := fNX } := by decide
theorem test_cvt_small_formats :
    (deliver fp16 0 false 0xAAAAAB (-25) false).code = 0x3555 ∧ (deliver e5m2 0 false 0xAAAAAB (-25) false).code = 0x35 ∧
    (deliver e4m3 0 false 0xAAAAAB (-25) false).code = 0x2B ∧ (deliver e2m1 0 false 0xAAAAAB (-25) false).code = 1 := by decide
-- 06, after R167: a ternary byte
theorem test_ternary_byte : ternByte [1, 0, 2, 2, 1] = 0x9A := by decide
/-- A ternary image whose first byte is 0x9A and whose scale is 0x7D0000 (0.25). -/
def ternImage : List Byte := [0x9A] ++ List.replicate 51 0 ++ [0, 0, 0x7D]
theorem test_ternary_decode :
    [0, 1, 2, 3, 4].map (decodeElem true ternImage) = [0x3E800000, 0, 0xBE800000, 0xBE800000, 0x3E800000] := by decide
end Sys2Proof.Tests
end

