-- ==== Sys2Proof/Tests/WitnessDevice.lean ====
section
/-! SUPPORT. WitnessDevice: for the obligations about poison, deferred splits, late arrivals, packets and management firmware, concrete
states and operands that meet their hypotheses together. -/

namespace Sys2Proof.Tests

open Sys2Proof Sys2Proof.Machine Sys2Proof.Spec

set_option maxRecDepth 100000
set_option exponentiation.threshold 2000

/-- An MMA on a handle whose first word holds poison. -/
def poisonedTile : State :=
  { onBlocks (fun k => { k with handles := [handle 0 none] }) (withCmds [command 0x1001 1 0 (.mma 5 0x10200 0 false [] [] 0 0)] base) with accPoison := [0] }
/-- A multicast to core 0 whose first source word holds poison. -/
def poisonedSpread : State := { spread [(0, 0), (1, 1)] with spadPoison := [0] }
/-- A CPY32 whose first source word holds poison. -/
def poisonedCopy : State := { onTeams (fun m => { m with copies := [landing] }) base with poison := [0x120000] }

theorem witness_PoisonReruns :
    opens poisonedTile 0x1001 1 (fun k _ => decide (liveHandle k 0x10200 = some (handle 0 none) ∧ k.cmds.length = 1) && rerunnable poisonedTile 0 &&
      mmaPoisoned poisonedTile k.core (bankWord k.core 0) 5 false 0 0) = true ∧
    opens poisonedSpread 0x1000 1 (fun k _ => mcastHurt poisonedSpread 0 k.core 0 16 [(0, 0), (1, 1)]) = true ∧
    splitAt poisonedCopy 0 (fun _ m _ => decide (m.copies.find? (fun c => c.tag = 1) = some landing) && rerunnable poisonedCopy 0 &&
      copyPoisoned poisonedCopy 0 landing) = true ∧
    opens (spread [(0, 0), (1, 1)]) 0x1000 1 (fun k c => !((mcastAll 16 [(0, 0), (1, 1)]).filter (fun q =>
      mcastPlace k.core 1024 q / 128 = 8 && !c.doneElems.contains q)).isEmpty) = true := by and_intros <;> decide

/-- A deferred split beside the one in the table, both past the watchdog's limit. -/
def deferredLate (s : State) : State := late (onTeams (fun m => { m with defer := m.splits.map (fun c => { c.2 with mask := 2 }) }) s)
/-- The deferred split stands, with a test. -/
def deferredAt (s : State) (p : Block → Team → Split → Bool) : Bool :=
  splitAt s 0 (fun k m _ => m.defer.head?.any (fun q => decide (q.pend = none ∧ ∀ c ∈ m.splits, c.1 < 16) && reached s q && p k m q))

theorem witness_DeferredWatchdog :
    deferredAt (deferredLate (handled base)) (fun k m _ => serves (deferredLate (handled base)) k && decide (m.st = .running ∧ m.trap = none ∧ yieldEntry m = some 0 ∧ m.stale = []) &&
      ([needR, needW] : List Need).all (fun need => match (slotReach (deferredLate (handled base)) 0 m 0 need).2 with
        | .go _ => true
        | _ => false)) = true ∧
    deferredAt (deferredLate (handling 8 0 0 false base)) (fun _ m q => decide (m.st = .trapped) && m.trap.any (fun h => decide (q.mask &&& ~~~h.lanes ≠ 0))) = true := by
  and_intros <;> decide

/-- A team that is a member of barrier 4 alone, every live lane's flag standing. -/
def holdsBack (n : Nat) : State :=
  onBlocks (fun k => { k with bars := k.bars.map (fun b => { b with m := n }) }) (onTeams (fun m => { m with bars := [(4, { al := allLanes 32, lp := none })] }) base)

theorem witness_LateArrivals :
    splitAt (member (some { al := 0, lp := none }) base) 0 (fun _ m _ => m.bars.all (fun q => decide (liveLanes m &&& ~~~q.2.al ≠ 0))) = true ∧
    ([1, 2] : List Nat).all (fun n => splitAt (holdsBack n) 0 (fun k m _ => decide (m.st = .running ∧ liveLanes m ≠ 0 ∧
      m.bars = [(4, { al := allLanes 32, lp := none })] ∧ liveLanes m &&& ~~~allLanes 32 = 0 ∧ 4 < k.bars.length ∧ (barOf (holdsBack n) 0 4).a + 1 ≤ n ∧
      (barOf (holdsBack n) 0 4).m = n))) = true := by and_intros <;> decide

/-- An ordered packet of a place; a key that its context has, or has no more. -/
def orderedPacket (n : Nat) (key : Option (List Byte)) : Packet := { packet true with rod := some n, key := key }
/-- Context 0 has that key; a collective context of it is protected. -/
def keyed : State :=
  let s := portState .live 0
  { s with ctxs := Tbl.mapVals s.ctxs (fun _ c => { c with keyCur := some [1] }), ccs := [(0, { runningCc with prot := true })] }

theorem witness_PacketArrives :
    ([none, some 0, some 1] : List (Option Nat)).all (fun r => let k := { packet false with rod := r }
      let s := portState .live 0
      decide ((portOf s k.port).st = .live ∧ (ccOf s (msgHdr k.body).cc).prot = false ∧ k.key = none ∧ (k.src, k.psn) ∉ s.fab.seen ∧ s.fab.ahead = [] ∧
        k.clear ≤ Tbl.getD s.fab.rodIn k.src 0)) = true ∧
    decide ((ccOf keyed 0).prot = true ∧ (ctxOf keyed 0).keyCur = some [1] ∧ (orderedPacket 0 (some [1])).key = some [1] ∧
      (orderedPacket 0 (some [2])).key ≠ (ctxOf keyed 0).keyCur ∧ (ctxOf keyed 0).keyPrev = none) = true ∧
    (let s := { portState .live 0 with fab := { (portState .live 0).fab with seen := [(1, 5)] } };
      decide (((packet true).src, (packet true).psn) ∈ s.fab.seen)) = true := by and_intros <;> decide

/-- Management firmware with a job; its identity key has so many leaves reserved. -/
def jobState (j : FwJob) (x : Nat) : State :=
  { base with
    mgmt := { base.mgmt with jobs := [j], idfail := false, keyend := false },
    flash := { base.flash with slotX := { seq := 1, resv := x, valid := true }, slotY := { seq := 0, resv := 0, valid := true } } }
/-- A test whose report is to be written. -/
def done5 : SelfTest := { phase := 6, buf := 0x1000, nonce := 7, seq := 1, ack := false, corr0 := 0, start := 0 }

theorem witness_FirmwareWork :
    decide ((jobState (.report done5) 64).mgmt.slotWrite = none ∧ (jobState (.report done5) 64).mgmt.nextLeaf < resv (jobState (.report done5) 64).flash) = true ∧
    decide (jobSigns (jobState (.spdm (.challenge [])) 0).mgmt (.spdm (.challenge [])) = true ∧
      resv (jobState (.spdm (.challenge [])) 0).flash ≤ (jobState (.spdm (.challenge [])) 0).mgmt.nextLeaf) = true ∧
    decide (base.mgmt.ready = true ∧ base.mgmt.jobs = [] ∧ base.mgmt.slotWrite = none ∧ (jobState (.spdm .getDigests) 0).mgmt.jobs ≠ []) = true := by
  and_intros <;> decide

/-! ## Churn, halted blocks that end, contexts that go, and times that have come -/

/-- A team whose lanes have all exited. -/
def endedTeams : State → State := onTeams (fun m => { m with st := .ended, ex := allLanes m.width, splits := [] })
/-- The block is SAVING from HALTED while one of its commands stands stalled. -/
def stalledSaving : State :=
  onCtxs (fun c => { c with debug := true }) (onTeams (fun m => { m with st := .stopped }) (onBlocks (fun k => { k with st := .saving, priorSave := .halted, prior := .running })
    (withCmds [{ command 0x1000 1 0 (.tcopy false false (rowLayout 0x130000) [0] 0 0 0) with stalled := true }] base)))
/-- A killed context with a fault record, and no block. -/
def killedWithRecord : State := onCtxs (fun c => { c with st := .killed }) { faultState 1 18 [] with blocks := [], launches := [] }

theorem witness_Churn :
    (let c : Cc := marked (entry .armed (image 0) 3);
      canFire c && decide (ccReach (ccMachine c) 0 needR false true 0x130000 = .go (.cap 0x130000) ∧ poisoned (ccMachine c) Shadow.empty (.cap 0x130000) 1024 = false)) = true ∧
    (let s := ccMachine (withEntry receipt (inRing (inRound (cc 0 0))))
      let c := ccOf s 0;
      ((entryOf c 5).firings.find? (fun g => !g.blocksDone.contains 0)).any (fun f => decide (f.version = 7 ∧ f.image.role = 3 ∧ c.st ≠ .unbound ∧
        0 < c.ch / 256 ∧ mustWait c f = false ∧ f.image.laddr = 0x130000 ∧ Tbl.get f.data 0 = none)) && decide (c.ctx = 0 ∧ (ctxOf s 0).counters.length = 11) &&
      (ccAsksGo 0 needW false false s [0x130000]).any (fun s2 => lands 0 0x130000 1024 s2)) = true ∧
    takes1 { cc 0 0 with st := .unbound } (.curd (hdr 3 1) false 0 0 0 []) (fun c => decide (c.st = .unbound)) = true := by and_intros <;> decide

theorem witness_halted_and_ended :
    serve 2 (ask 0 0 0 0) (endedTeams (onBlocks (fun k => { k with ended := true }) haltedState)) (fun s => s.blocks.all (fun q =>
      decide (q.2.launch = 0 ∧ q.2.lin = 0 ∧ ctxNum s q.1 = 0 ∧ q.2.st = .halted ∧ q.2.prior = .running ∧ q.2.ended = true ∧ blockDrained q.2 = true ∧
        (∀ m ∈ q.2.teams, liveLanes m.2 = 0)) && (Tbl.get s.launches q.2.launch).any (fun l => decide (l.lr.det = false)))) = true ∧
    serve 2 (ask 0 0 0 0) stalledSaving (fun s => s.blocks.all (fun q => decide (q.2.st = .saving ∧ q.2.priorSave = .halted ∧
      ∃ c ∈ q.2.cmds, c.stalled = true ∧ c.team = 0))) = true ∧
    ([0, 31] : List DWord).all (fun n => serve 3 (ask 0 0 n 0) stalledSaving (fun s => debugs s (fun k m => decide (k.st = .saving ∧ m.st = .stopped)))) = true ∧
    decide ((ctxOf killedWithRecord 0).st = .killed ∧ (∃ r ∈ killedWithRecord.faults, r.ctx = 0) ∧ killedWithRecord.ccs = [] ∧ killedWithRecord.duties = [] ∧
      killedWithRecord.mgmt.ready = true ∧ killedWithRecord.mgmt.recovery = false ∧ killedWithRecord.mgmt.unusable = false) = true := by and_intros <;> decide

theorem witness_phase_over (n : Nat) : 0 + secondsOf n * 1000000 * Config.cyclesPerMicro ≤ ({ testState n with now := secondsOf n * 1000000 * Config.cyclesPerMicro } : State).now :=
  Nat.le_of_eq (Nat.zero_add _)

theorem witness_windows :
    ([(6, 0), (7, 0), (7, 60000000000)] : List (Nat × Nat)).all (fun q =>
      decide (windowNow (portOf (portState .training q.1) 47) q.2 = if q.2 = 0 then portOf (portState .training q.1) 47
        else { portOf (portState .training q.1) 47 with winfail := 0, window := 60000000000 })) = true := by decide

/-- A split in WAIT-OP, its instruction open, the operand available since a cycle or not. -/
def awaiting (v : Option Nat) : State := onSplits (fun p => { p with st := .waitOp, avail := v }) openWord

theorem witness_wakes_and_ages :
    splitAt { awaiting (some 0) with now := 56 } 0 (fun _ _ p => decide (p.stopped = false ∧ p.st ≠ .ready ∧ p.avail = some 0 ∧ 56 ≤ 56 - 0)) = true ∧
    splitAt (awaiting none) 0 (fun k _ p => awaits p && blockIssues k 0 && (match splitTurn (passTime (awaiting none)) 0 0 0 p with
      | .run i _ x => (match exec i x with
        | .next _ => true
        | _ => false)
      | _ => false)) = true := by and_intros <;> decide

end Sys2Proof.Tests
end

