-- ==== Sys2Proof/Tests/WitnessMore.lean ====
section
/-! SUPPORT. WitnessMore: for the obligations about accesses that complete in part, checks of every memory instruction, calls that spill,
returns that refill, splits that are deferred, and queues with a line, concrete states and operands that meet their hypotheses together. -/

namespace Sys2Proof.Tests

open Sys2Proof Sys2Proof.Machine Sys2Proof.Spec

set_option maxRecDepth 100000
set_option exponentiation.threshold 2000

/-! ## Accesses in part -/

/-- What lanes of an instruction come to: those done, the pages that miss, the lanes that fail, and the machine. -/
structure Passed where
  done : List Nat
  missed : List Nat
  bad : List (Nat × Nat × Nat)
  last : State

/-- `LanesPass`, as a check. -/
def passLanes (b n x : Nat) (failed : List Nat) (need : Need) (ready : State → LaneAcc → Phys → Bool) (act : State → LaneAcc → Phys → State)
    (place : Nat → Phys) : State → List LaneAcc → Option Passed
  | s, [] => some { done := [], missed := [], bad := [], last := s }
  | s, q :: qs =>
    match reachTarget s x failed need q.tgt with
    | .go p =>
      if p = place q.lane ∧ laneDies s b n p = false ∧ ready (noteTarget s x q.tgt) q p = true then
        (passLanes b n x failed need ready act place (act (noteTarget s x q.tgt) q p) qs).map (fun r => { r with done := q.lane :: r.done })
      else none
    | .miss level cls => (passLanes b n x failed need ready act place (joinRecord s x (targetPage q.tgt) level cls need.kinds) qs).map
        (fun r => { r with missed := targetPage q.tgt :: r.missed })
    | .denied => (passLanes b n x failed need ready act place s qs).map (fun r => { r with bad := (q.lane, 0x08, q.ea) :: r.bad })
    | .failed => (passLanes b n x failed need ready act place s qs).map (fun r => { r with bad := (q.lane, 0x07, q.ea) :: r.bad })

theorem passLanes_pass {b n x : Nat} {failed : List Nat} {need : Need} {ready : State → LaneAcc → Phys → Bool}
    {Ready : State → LaneAcc → Phys → Prop} {act : State → LaneAcc → Phys → State} {place : Nat → Phys}
    (hr : ∀ s q p, ready s q p = true → Ready s q p) : ∀ {qs : List LaneAcc} {s : State} {r : Passed},
    passLanes b n x failed need ready act place s qs = some r → LanesPass b n x failed need Ready act place s qs r.done r.missed r.bad r.last
  | [], s, r, h => by cases h; exact .none _
  | q :: qs, s, r, h => by
    unfold passLanes at h
    split at h
    · rename_i p hp
      split at h
      · rename_i hc
        obtain ⟨r', h', rfl⟩ := Option.map_eq_some_iff.mp h
        exact .done _ _ _ _ _ _ _ (by rw [hp, hc.1]) (hc.1 ▸ hc.2.1) (hr _ _ _ (hc.1 ▸ hc.2.2)) (hc.1 ▸ passLanes_pass hr h')
      · cases h
    · rename_i level cls hm
      obtain ⟨r', h', rfl⟩ := Option.map_eq_some_iff.mp h
      exact .miss _ _ _ _ _ _ _ _ _ hm (passLanes_pass hr h')
    · rename_i hd
      obtain ⟨r', h', rfl⟩ := Option.map_eq_some_iff.mp h
      exact .stop _ _ _ _ _ _ _ _ (.inl ⟨hd, rfl⟩) (passLanes_pass hr h')
    · rename_i hf
      obtain ⟨r', h', rfl⟩ := Option.map_eq_some_iff.mp h
      exact .stop _ _ _ _ _ _ _ _ (.inr ⟨hf, rfl⟩) (passLanes_pass hr h')

/-- Lanes 0 to 2 of the split, with addresses in a page that they may use, in one that has no translation, and in one that is forbidden. -/
def threeLanes : State :=
  let s := onSplits (fun p => { p with mask := 7 }) base
  let s1 := onTeams (fun m => { m with regs := Sparse.set (Sparse.set (Sparse.set m.regs (4 * 1024) 0x120000) (5 * 1024 + 1) 1) (4 * 1024 + 2) 0x200000 }) s
  { s1 with mem := tableEntry s1.mem 0x40008 0x200003 }
/-- The page that has no translation has failed for the open instruction. -/
def failedLane : State := onSplits (fun p => { p with held := some { opened none false with failed := [0x10000] } }) (handled threeLanes)
/-- Lane 0 is done, the page of lane 1 misses, lane 2 is denied. -/
def partly (r : Passed) : Bool := decide (r.done = [0] ∧ r.missed = [0x10000] ∧ r.bad = [(2, 0x08, 0x200000)])
/-- Lane 0 is done, the page of lane 1 has failed, lane 2 is denied. -/
def partlyBad (r : Passed) : Bool := decide (r.done = [0] ∧ r.missed = [] ∧ r.bad = [(1, 0x07, 0x100000000), (2, 0x08, 0x200000)])
/-- The accesses of an instruction come to that. -/
def comesPartly (op : Op) (n given : Nat) (need : Need) (load write : Bool) (ready : Iss → State → LaneAcc → Phys → Bool)
    (act : Iss → State → LaneAcc → Phys → State) (p : Passed → Bool) (j : Iss) (s1 : State) : Bool :=
  let qs := accesses s1 j op n load write
  decide (j.l.lr.commit ≤ 1) && passes n qs && (passLanes j.b given j.l.ctx j.failedPages need (ready j) (act j) place12 s1 qs).any p
/-- It waits in one state, and traps in the other. -/
def bothPartly (op : Op) (n given : Nat) (need : Need) (load write : Bool) (ready : Iss → State → LaneAcc → Phys → Bool)
    (act : Iss → State → LaneAcc → Phys → State) : Bool :=
  issueWith op [] threeLanes (comesPartly op n given need load write ready act partly) &&
    issueWith op [] failedLane (fun j s1 => decide (CanTrap' j) && comesPartly op n given need load write ready act partlyBad j s1)

theorem witness_partlyDone :
    bothPartly (opW 0x60 ⟨4, 8, 4, 0⟩) 4 4 needR true false (fun j s _ p => decide (0 = bytesAt s (j.view s 0) p 4)) (fun _ s _ p => touch s p false) = true ∧
    (let op := opL 0x61 ⟨2, 0, 4, 0, 16, 255, false, false, 0, 0, none⟩
     bothPartly op 4 0 needW false true (fun j s _ p => storeRoom s (j.writer 0 false) p)
       (fun j => storeAct j op 4 true (fun l => some (storeData j op l)))) = true ∧
    (let op := opL 0x62 ⟨0, 8, 4, 0, 16, 255, false, false, 0, 0, none⟩
     bothPartly op 4 4 needRW false true (fun j s _ p => decide (0 = bytesAt s (shadowOf s j.b) p 4) && storeRoom s (j.writer 0 false) p)
       (fun j => storeAct j op 4 false (atomData j op (fun _ => 0)))) = true ∧
    bothPartly (opW 0x6C ⟨1, 0, 4, 0⟩) 1 0 needR true false (fun _ _ _ _ => true) (fun _ s _ p => flushLine s p true) = true := by and_intros <;> decide

/-- The lanes' first check of a list fails with a code. -/
def fails1 (cs : Iss → State → List ((Nat → Bool) × Nat × (Nat → DWord))) (code : Nat) (j : Iss) (s1 : State) : Bool :=
  decide (CanTrap' j) && decide ((firstOf j.lanes (cs j s1)).map (fun r => r.code) = some code)
/-- The checks of CPY32. -/
def copyChecks (j : Iss) (s1 : State) : List ((Nat → Bool) × Nat × (Nat → DWord)) :=
  let op := opL 0x65 ⟨0, 0, 4, 12, 16, 255, false, false, 0, 0, none⟩
  [(fun l => (j.a op l).toNat % 32 ≠ 0, 0x06, fun l => (j.a op l).zeroExtend 64), (fun l => (j.b64 op l).toNat % 4 ≠ 0, 0x06, fun l => j.b64 op l),
    (fun l => !spadOk j.k (j.a op l).toNat 32, 0x08, fun l => (j.a op l).zeroExtend 64), (fun l => !cpySrcOk s1 j op l, 0x08, fun l => j.b64 op l)]
/-- CPY32 of lane 0, from an address to an offset. -/
def copyTrapState (src off : Word) : State := handled (withAllocs [allocAt 0 1024 1 0] (withRegs [(4, off), (12, src), (13, 0x1000000), (16, 32)] one))
/-- TSET of lane 0 to an address, in a collective context. -/
def boardState (a : Word) (c : Cc) : State := { handled (withRegs [(4, a), (5, 0x800000), (12, 6)] one) with ccs := [(0, c)] }

theorem witness_otherAddressChecks :
    issueWith (opW 0x6D ⟨4, 8, 4, 0⟩) [] (handled (withRegs [(4, 2)] one)) (fun j s1 => decide (CanTrap' j ∧
      (firstAddressTrap 4 (j.accs (address j (opW 0x6D ⟨4, 8, 4, 0⟩)) (fun ea l => targetOf s1 j 0 ea 4 l false false))).map (fun r => r.code) = some 0x06)) = true ∧
    issueWith (opW 0x6B ⟨0, 0, 4, 0⟩) [] (handled (withRegs [(5, 0x1000000)] one))
      (fails1 (fun j _ => [(fun l => 2 ^ 56 ≤ address j (opW 0x6B ⟨0, 0, 4, 0⟩) l, 0x08, fun l => BitVec.ofNat 64 (address j (opW 0x6B ⟨0, 0, 4, 0⟩) l))]) 0x08) = true ∧
    ([(0, 16, 0x06), (2, 0, 0x06), (0, 1024, 0x08), (0, 0, 0x08)] : List (Word × Word × Nat)).all (fun q =>
      issueWith (opL 0x65 ⟨0, 0, 4, 12, 16, 255, false, false, 0, 0, none⟩) [] (copyTrapState q.1 q.2.1) (fails1 copyChecks q.2.2)) = true ∧
    ([(0x80002, 0x06), (0x80200, 0x08)] : List (Word × Nat)).all (fun q => issueWith (opW 0xB2 ⟨0, 0, 4, 12⟩) [] (boardState q.1 runningCc)
      (fails1 (fun j s1 => let op := opW 0xB2 ⟨0, 0, 4, 12⟩
        [(fun l => address j op l % 4 ≠ 0, 0x06, fun l => BitVec.ofNat 64 (address j op l)),
          (fun l => (boardWordOf s1 j.l.ctx (address j op l)).isNone, 0x08, fun l => BitVec.ofNat 64 (address j op l))]) q.2)) = true ∧
    ([{ runningCc with st := .faulted, armReason := 4 }, { runningCc with round := { Round.none with st := .aborted } }] : List Cc).all (fun c =>
      issueWith (opW 0xB2 ⟨0, 0, 4, 12⟩) [] (boardState 0x80004 c) (fun j s1 => decide (CanTrap' j ∧
        j.lanes.filterMap (fun l => boardWordOf s1 j.l.ctx (address j (opW 0xB2 ⟨0, 0, 4, 12⟩) l)) = [(0, 1)] ∧
        ((ccOf s1 0).st = .faulted ∨ (ccOf s1 0).round.st = .aborted)))) = true := by and_intros <;> decide

/-! ## Stacks of returns and of splits -/

/-- Every place that the spills of these lanes need, in turn. -/
def spillGo (j : Iss) (place : Nat → Phys) : State → List Nat → Option State
  | s, [] => some s
  | s, l :: ls =>
    if placeOf s j.l.ctx (.virt (spillAt s j l (spillsOf j l)) false) = some (place l) then
      spillGo j place (writePhys s { b := none, t := j.t, counted := false } (place l) (leBytes 8 ((stackOf j l).getLastD 0).toNat)) ls
    else none

theorem spillGo_spilled {j : Iss} {place : Nat → Phys} : ∀ {ls : List Nat} {s t : State}, spillGo j place s ls = some t → Spilled j place s ls t
  | [], s, t, h => by cases h; exact .none _
  | l :: ls, s, t, h => by
    unfold spillGo at h
    split at h
    · rename_i hp
      exact .more _ _ _ _ hp (spillGo_spilled h)
    · cases h

/-- CALL of lanes whose stacks are full, with the translations that it asks for. -/
def callAsks (o : LOps) (j : Iss) (s1 : State) : AskRun :=
  let callers := (activeLanes j).filter (takes j o)
  let full := callers.filter (fun l => 8 ≤ (stackOf j l).length)
  let gs := groups (activeLanes j) (fun l => if l ∈ callers then target j o else j.next (opL 0x82 o))
  askAll j.l.ctx j.failedPages { s := s1, bad := [], waits := [] }
    (full.map (fun l => { lane := l, tgt := .virt (spillAt s1 j l (spillsOf j l)) false, need := needW }) ++
      (List.range (gs.length - 1 - (freeList j.m).length)).flatMap (fun k =>
        [0, 159].map (fun d => { lane := 0, tgt := .virt (slotAt s1 j (j.m.defer.length + k) + d) false, need := needW })))
/-- CALL by all lanes, and by the lanes that a register names. -/
def callAll : LOps := ⟨0, 4, 0, 0, 255, 255, false, false, 0, 0, none⟩
def callSome : LOps := ⟨0, 16, 0, 0, 16, 255, false, false, 0, 0, none⟩
/-- Lane 0's stack is empty, and so many of its returns stand in memory. -/
def spilt (n : Nat) : State := onTeams (fun m => { m with rets := [], spilled := [(0, n)] }) one

theorem witness_spillsAndRefills :
    issueWith (opL 0x82 callAll) [] (deep 8 one) (fun j s1 => let r := callAsks callAll j s1
      decide (j.lanes = [0] ∧ (stackOf j 0).length = 8 ∧ spillRoom s1 j 0 = true ∧ r.waits = [] ∧ r.bad = []) &&
      (spillGo j (fun _ => .cap (0x180000 + 64)) r.s [0]).isSome) = true ∧
    issueWith (opL 0x82 callAll) [] (handled (onTeams (fun m => { m with spilled := [(0, 8)] }) (deep 8 one))) (fun j s1 =>
      decide (CanTrap' j ∧ (stackOf j 0).length = 8 ∧ spillRoom s1 j (spillsOf j 0) = false)) = true ∧
    issueWith (opL 0x82 callSome) [] (fullTable (withRegs [(16, 1)] base)) (fun j s1 => let r := callAsks callSome j s1
      decide ((freeList j.m).length = 0 ∧ (groups (activeLanes j) (fun l => if takes j callSome l then target j callSome else j.next (opL 0x82 callSome))).length = 2 ∧
        r.waits = [] ∧ r.bad = [])) = true ∧
    issueWith (opL 0x82 callSome) [] (unwritable (handled (fullTable (withRegs [(16, 1)] base)))) (fun j s1 => let r := callAsks callSome j s1
      decide (CanTrap' j ∧ r.waits = [] ∧ (r.bad.head?).isSome = true)) = true ∧
    issueWith (opW 0x83 ⟨0, 0, 0, 0⟩) [] (spilt 1) (fun j s1 =>
      let r := askAll j.l.ctx j.failedPages { s := s1, bad := [], waits := [] } [{ lane := 0, tgt := .virt (spillAt s1 j 0 0) false, need := needR }]
      decide (stackOf j 0 = [] ∧ spillsOf j 0 = 1 ∧ r.waits = [] ∧ r.bad = [] ∧ placeOf r.s j.l.ctx (.virt (spillAt r.s j 0 0) false) = some (.cap (0x180000 + 64))) &&
        !poisoned r.s Shadow.empty (.cap (0x180000 + 64)) 8) = true := by and_intros <;> decide

/-! ## Lines -/

/-- The block has no front program. -/
def frontless : State → State := onBlocks (fun k => { k with teams := Tbl.del k.teams 16 })
/-- Another split of the team, in a line since before. -/
def beside (w : Line) : State → State :=
  onTeams (fun m => { m with splits := m.splits ++ m.splits.map (fun c => (c.1 + 1, { c.2 with mask := 2, st := .waitOp, line := some (w, 0) })) })
/-- BRDQ by every lane. -/
def asksQueue : LOps := ⟨0, 4, 0, 0, 255, 255, false, false, 0, 0, none⟩

theorem witness_lines :
    issueWith (opL 0x85 asksQueue) [] base (fun j _ => decide (j.m.dq = []) && !lineAhead [j.m] .q0 j.m j.p &&
      (Tbl.get j.k.teams 16).any (fun m => decide (m.st ≠ .ended))) = true ∧
    issueWith (opL 0x85 asksQueue) [] (handled (frontless base)) (fun j _ => decide (CanTrap' j ∧ j.m.dq = []) && !lineAhead [j.m] .q0 j.m j.p &&
      decide (Tbl.get j.k.teams 16 = none)) = true ∧
    issueWith (opL 0x85 asksQueue) [] (beside .q0 (onTeams (fun m => { m with dq := [1] }) one)) (fun j _ => lineAhead [j.m] .q0 j.m j.p && decide (j.m.dq = [1])) = true ∧
    issueWith (opW 0x97 ⟨0, 0, 4, 12⟩) [] (onSplits (fun p => { p with line := some (.discarded, 0) }) front) (fun j _ =>
      decide (0 ∈ liveTeams j.k) && j.p.line.any (fun q => q.1 = .discarded)) = true ∧
    issueWith (opW 0xA1 ⟨0, 0, 4, 0⟩) [2] (beside (.token 0x10200) (handleState 0 none 0)) (fun j s => names (opW 0xA1 ⟨0, 0, 4, 0⟩) 0 none j s &&
      lineAhead (j.k.teams.map (fun c => c.2)) (.token 0x10200) j.m j.p) = true ∧
    ([opW 0x94 ⟨0, 8, 0, 12⟩] : List Op).all (fun op => issueWith op [3] (handled (withRegs [(12, 0x1003)] one)) (fun j _ =>
      decide (CanTrap' j ∧ selNamed j op = 0x1003))) = true ∧
    issueWith (opW 0x95 ⟨0, 0, 4, 12⟩) [2, 3] (handled (withRegs [(12, 0x1003)] one)) (fun j _ =>
      decide (CanTrap' j ∧ selNamed j (opW 0x95 ⟨0, 0, 4, 12⟩) = 0x1003)) = true ∧
    issueWith (opW 0xE3 ⟨0, 0, 4, 0⟩) [2] (onSplits (fun p => { p with held := p.held.map (fun h => { h with waits := [0x10000] }) })
        (besideOpen (withRegs [(4, 0x120001)] one))) (fun j s => invalidates 0x120001 j s &&
      decide (∀ c ∈ j.m.splits, c.1 ≠ j.e → c.2.pend = none ∧ c.2.st = .waitOp ∧ c.2.held.any (fun h => !h.waits.isEmpty) = true)) = true := by and_intros <;> decide

end Sys2Proof.Tests
end

