-- ==== Sys2Proof/Tests/WitnessPlace.lean ====
section
/-! SUPPORT. WitnessPlace: for the obligations about saves and returns of gangs, concrete states whose images lie apart from all else, and
images that hold what a block held. -/

namespace Sys2Proof.Tests

open Sys2Proof Sys2Proof.Machine Sys2Proof.Spec

set_option maxRecDepth 100000
set_option exponentiation.threshold 2000

/-! ## A page of 2 MiB of images -/

/-- The save area begins at 0x200000, which the page tables map to itself in one leaf. -/
def savingAt (st : BlockState) : State :=
  let s := onBlocks (fun k => { k with st := st, priorSave := .running, slot := some 0 }) base
  { s with mem := tableEntry s.mem 0x40008 0x20003B, ctxs := Tbl.mapVals s.ctxs (fun _ c => { c with slots := 1, slotsUsed := [0], savebase := 0x200000 }) }
/-- The block, at rest, is being saved. -/
def resting : State := savingAt .saving
/-- It returns. -/
def returning : State := savingAt .restoring

/-- A cell of memory lies below an address. -/
def below (n : Nat) (m : List Host.Cell) : Bool := m.all (fun c => decide (c.1 < n))

theorem below_get {n : Nat} {m : List Host.Cell} (h : below n m = true) {a : Nat} (ha : n ≤ a) : Sparse.get (w := 8) m a = 0 := by
  induction m with
  | nil => rfl
  | cons c r ih =>
    simp only [below, List.all_cons, Bool.and_eq_true, decide_eq_true_eq] at h
    rw [Sparse.get_cons, if_neg (by omega)]
    exact ih h.2

/-- Memories that agree below the images give the same table entries. -/
theorem entry_agrees {m m' : List Host.Cell} (h : ∀ p, p < 0x200000 → Sparse.get (w := 8) m' p = Sparse.get (w := 8) m p) {a n : Nat}
    (ha : a + n ≤ 0x200000) : readBytes m' a n = readBytes m a n :=
  List.map_congr_left fun i hi => h _ (by have := List.mem_range.mp hi; omega)

/-- Any memory that agrees below the images maps them to themselves. -/
theorem walk_images {m : List Host.Cell} (h : ∀ p, p < 0x200000 → Sparse.get (w := 8) m p = Sparse.get (w := 8) resting.mem p) {a : Nat}
    (h1 : 0x200000 ≤ a) (h2 : a < 0x400000) : walkFrom m 4 3 0x10000 a = .leaf a 0x200000 false true true true := by
  have e3 : leNat (readBytes m (0x10000 + 8 * tableIndex 3 a) 8) = 0x30001 := by
    rw [show tableIndex 3 a = 0 by simp only [tableIndex, bitsOf]; omega, entry_agrees h (by omega)]
    decide
  have e2 : leNat (readBytes m (0x30000 + 8 * tableIndex 2 a) 8) = 0x40001 := by
    rw [show tableIndex 2 a = 0 by simp only [tableIndex, bitsOf]; omega, entry_agrees h (by omega)]
    decide
  have e1 : leNat (readBytes m (0x40000 + 8 * tableIndex 1 a) 8) = 0x20003B := by
    rw [show tableIndex 1 a = 1 by simp only [tableIndex, bitsOf]; omega, entry_agrees h (by omega)]
    decide
  have ha : 0x200000 + a % 0x200000 = a := by omega
  have l1 : walkFrom m 2 1 0x40000 a = .leaf a 0x200000 false true true true := by
    unfold walkFrom
    simp [e1, bitsOf, leafOk, leafSize, Config.capacityBytes, ha]
  have l2 : walkFrom m 3 2 0x30000 a = .leaf a 0x200000 false true true true := by
    unfold walkFrom
    simp [e2, bitsOf, tableOk, tableSize, Config.capacityBytes, l1]
  unfold walkFrom
  simp [e3, bitsOf, tableOk, tableSize, Config.capacityBytes, l2]

/-- What the asking of images leaves: their leaf is cached. -/
def noted (s : State) : State :=
  { s with tlb := [{ ctx := 0, va := 0x200000, size := 0x200000, pa := 0x200000, system := false, r := true, w := true, x := true }] }

/-- Any memory that agrees below the images has them at their own addresses. -/
theorem place_images {s : State} (hs : ctxOf s 0 = ctxOf resting 0) {m : List Host.Cell}
    (h : ∀ p, p < 0x200000 → Sparse.get (w := 8) m p = Sparse.get (w := 8) resting.mem p) {a : Nat} (h1 : 0x200000 ≤ a) (h2 : a < 0x400000) :
    placeOf { noted s with mem := m } 0 (globalTarget { noted s with mem := m } 0 a false) = some (.cap a) := by
  have hc : ctxOf { noted s with mem := m } 0 = ctxOf resting 0 := hs
  have hr : (ctxOf resting 0).root = 0x10000 := rfl
  have ht : (ctxOf resting 0).tlmap = 0x80000000000000 := rfl
  have hb : (ctxOf resting 0).sbmap = 0x80000000080000 := rfl
  have hg : globalTarget { noted s with mem := m } 0 a false = .virt a false := by
    simp only [globalTarget, hc, inTlmap, inSbmap, ht, hb]
    rw [if_neg (by omega), if_neg (by simp; omega), if_neg (by simp; omega)]
  have hw : walk { noted s with mem := m } 0 a = .leaf a 0x200000 false true true true := by
    rw [walk, hc, hr]
    exact walk_images h h1 h2
  have hx : xlate { noted s with mem := m } 0 a = .leaf a 0x200000 false true true true := by
    have hg : ∀ c, cachedFor { noted s with mem := m } 0 a = some c → c.give a = .leaf a 0x200000 false true true true := by
      intro c hc
      have := List.mem_of_find?_eq_some hc
      simp only [noted, List.mem_singleton] at this
      subst this
      simp only [CachedLeaf.give, show 0x200000 + (a - 0x200000) = a by omega]
    unfold xlate
    split
    · exact hw
    · rename_i c hc
      rw [hw, if_pos (hg c hc)]
  simp [hg, placeOf, reachTarget, reach, hx]

/-- The block of those machines, as it is saved or returns. -/
theorem block_of {st : BlockState} {i : Nat} {k : Block} (hi : i ∈ [0]) (h : Tbl.get (noted (savingAt st)).blocks i = some k) :
    i = 0 ∧ imageAddr (ctxOf (noted (savingAt st)) (ctxNum (noted (savingAt st)) i)) k = 0x200000 := by
  rw [List.mem_singleton] at hi
  subst hi
  have hk : Tbl.get (noted (savingAt st)).blocks 0 = some { slotBlock State.reset.now State.reset.tick with st := st, priorSave := .running, slot := some 0 } := rfl
  rw [hk] at h
  cases h
  exact ⟨rfl, rfl⟩

/-- Their images lie in the second page of 2 MiB. -/
theorem in_images {st : BlockState} {a : Nat} (h : InImages (noted (savingAt st)) [0] a) : 0x200000 ≤ a ∧ a < 0x400000 := by
  obtain ⟨i, k, hi, hk, h1, h2⟩ := h
  have := (block_of hi hk).2
  omega

/-- Nothing is spilled. -/
theorem no_spills : spillSlots (noted resting) [0] = [] := rfl

theorem witness_images_lie (st : BlockState) : LiesAt (noted (savingAt st)) 0 (InImages (noted (savingAt st)) [0]) (fun a => a) := fun _ h =>
  ⟨place_images (s := savingAt st) rfl (m := (savingAt st).mem) (fun _ _ => rfl) (in_images h).1 (in_images h).2, fun _ _ => rfl⟩

theorem witness_images_apart : ImagesApart (noted resting) 0 [0] (fun a => a) := by
  have hs : ∀ a, ¬ InSpills (noted resting) [0] a := fun a ⟨q, hq, _⟩ => by
    rw [no_spills] at hq
    cases hq
  refine ⟨fun _ _ _ _ h => h, fun mem hm a h => ?_, fun _ i j _ _ hi hj _ _ _ _ => ?_, fun a _ => hs a, ?_⟩
  · have hb := in_images (h.resolve_right (hs a))
    refine ⟨place_images (s := resting) rfl (fun p hp => hm p fun b hb2 e => ?_) hb.1 hb.2, fun _ _ => rfl⟩
    have := in_images (hb2.resolve_right (hs b))
    change b = p at e
    omega
  · rw [List.mem_singleton] at hi hj
    rw [hi, hj]
  · rw [no_spills]
    exact .nil

theorem witness_stores_apart (st : BlockState) : StoresApart (savingAt st) [0] := by
  refine ⟨.nil, ?_, fun i k hi hk => ?_⟩
  · exact List.pairwise_singleton _ _
  · obtain ⟨rfl, -⟩ := block_of hi hk
    have h0 : Tbl.get (savingAt st).blocks 0 = some { slotBlock State.reset.now State.reset.tick with st := st, priorSave := .running, slot := some 0 } := rfl
    rw [h0] at hk
    cases hk
    refine ⟨(fun h hh => nomatch hh), ?_, ?_, ?_, ?_⟩ <;> cases st <;> decide

/-- The block that returns. -/
def returningBlock : Block := { slotBlock State.reset.now State.reset.tick with st := .restoring, priorSave := .running, slot := some 0 }

/-- The block was saved with its registers and its scratchpad zero; its image is zero, and so it holds them. -/
theorem witness_image_has : Tbl.get returning.blocks 0 = some returningBlock ∧ SameShape returningBlock returningBlock ∧
    ImageHas returning.mem (fun a => a) 0x200000 returningBlock returning := by
  have hm : below 0x200000 returning.mem = true := by decide
  refine ⟨rfl, ⟨rfl, rfl, rfl⟩, fun j c r l hc _ _ i _ => ?_, fun h hh => ?_, fun al hal n _ => ?_⟩
  · have ht : (imageTeams returningBlock).all (fun c => c.2.regs.isEmpty) = true := by decide
    have hr := List.isEmpty_iff.mp (List.all_eq_true.mp ht c (List.mem_of_getElem? hc))
    have hz : c.2.reg r l = 0 := by
      rw [Team.reg, hr]
      rfl
    rw [hz, below_get hm (by beta_reduce; omega)]
    simp
  · exact nomatch hh
  · exact below_get hm (by beta_reduce; omega)

/-- `AtRest`, as a check. -/
abbrev AtRest' (q : Block) : Prop :=
  q.st = .saving ∧ q.saveWaits = [] ∧ (∀ c ∈ q.cmds, c.finished = true) ∧ (∀ m ∈ q.teams, m.2.copies = []) ∧
  ∀ a ∈ q.allocs, a.busy = false ∧ a.mcast = 0

theorem witness_saves_and_returns :
    asksGo 0 [] resting (gangAsks saveAsks resting [0]) = some (noted resting) ∧ asksGo 0 [] returning (gangAsks restoreAsks returning [0]) = some (noted returning) ∧
    (gangBlocks resting 0 0 0 = [0] ∧ restoringBlocks returning 0 0 0 = [0]) ∧
    (resting.blocks.all (fun q => decide (AtRest' q.2)) && !saveHurt resting 0 && (saveDying resting 0).isEmpty) = true ∧
    (!imageHurt (noted returning) 0 && (imageDying (noted returning) 0).isEmpty) = true ∧
    (gangBlocks { resting with spadPoison := [0] } 0 0 0).find? (saveHurt { resting with spadPoison := [0] }) = some 0 ∧
    (restoringBlocks { returning with poison := [0x200000] } 0 0 0).find? (imageHurt (noted { returning with poison := [0x200000] })) = some 0 := by
  and_intros <;> decide

end Sys2Proof.Tests
end

/-! The memories of the state stay in their canonical form (O59, log 3).

Four fields of the state are byte memories and one is the accumulators; every other field is bookkeeping, and an update of it keeps
`Canonical` by definition (`h` alone is then the proof). A memory changes only through a few writers, whose rules stand with the model's
laws (`writeCap_canonical`, `writePhys_canonical`, `wf_installBytes`, `Memory.wf_writeBytes`, `Sparse.wf_filter`). So each operation on
the state has one lemma `f_canonical`, in the model's order, whose proof follows the branches of `f` and cites the lemmas of what `f`
calls. An operation that takes a continuation takes the hypothesis that the continuation keeps the form too. -/

namespace Sys2Proof

open Sys2Proof.Machine

variable {s : State} {b t e n x sel core : Nat} {op : Op} {i : Iss}

/-! ## What a step's parts answer, in canonical form -/

/-- An answer whose next state, where there is one, has canonical memories. -/
def CanonicalOut : Out → Prop
  | .next t => Canonical t
  | _ => True

/-- A turn that leaves, or runs its instruction in, a state with canonical memories. -/
def CanonicalTurn : Turn → Prop
  | .settled t => Canonical t
  | .run _ _ t => Canonical t

/-- A command's verdict whose state, where there is one, has canonical memories. -/
def CanonicalVerdict : Verdict → Prop
  | .refuse _ => True
  | .refuseWith _ t => Canonical t
  | .done t => Canonical t
  | .later t => Canonical t

/-- A fetch whose state, where there is one, has canonical memories. -/
def CanonicalFetched : Fetched → Prop
  | .bytes _ t => Canonical t
  | .miss _ t => Canonical t
  | _ => True

/-- A change of the state that keeps the memories canonical. -/
def KeepsCanonical (f : State → State) : Prop := ∀ s, Canonical s → Canonical (f s)

theorem foldl_canonical {α : Type} {f : State → α → State} {l : List α} (hf : ∀ a t, Canonical t → Canonical (f t a))
    (h : Canonical s) : Canonical (l.foldl f s) := by
  induction l generalizing s with
  | nil => exact h
  | cons a r ih => exact ih (hf a s h)

/-! ## Operations that change no memory -/

theorem hbmFill_canonical {pa : Nat} {d : Bool} (h : Canonical s) : Canonical (hbmFill s pa d) :=
  h.same (hbmFill_caches s pa d).sameMemories

theorem touch_canonical {p : Phys} {w : Bool} (h : Canonical s) : Canonical (touch s p w) := h.same (touch_same s p w)

theorem noteXlate_canonical {va : Nat} (h : Canonical s) : Canonical (noteXlate s x va) := h.same (noteXlate_same s x va)

theorem dropSeals_canonical {mine : Nat × Nat × Nat → Bool} (h : Canonical s) : Canonical (dropSeals s mine) := h

theorem withdraw_canonical (h : Canonical s) : Canonical (withdraw s n) := h

theorem putPort_canonical {q : Port} (h : Canonical s) : Canonical (putPort s n q) := h

theorem onCc_canonical {f : Cc → Cc} (h : Canonical s) : Canonical (onCc s n f) := h

theorem freePool_canonical {ps : List Nat} (h : Canonical s) : Canonical (freePool s x ps) := h

theorem addDue_canonical {d : Due} (h : Canonical s) :
    Canonical (addDue s d) := h

theorem setLines_canonical {ls : List Nat} {fullNow : Bool} (h : Canonical s) :
    Canonical (setLines s ls fullNow) := h

theorem onFiring_canonical {v : BitVec 16} {f : Firing → Firing} (h : Canonical s) :
    Canonical (onFiring s n x v f) := h

theorem settleRound_canonical (h : Canonical s) :
    Canonical (settleRound s n) := h

theorem freeSlot_canonical {k : Block} (h : Canonical s) :
    Canonical (freeSlot s x k) := h

theorem withdrawOn_canonical {p : Nat → Bool} (h : Canonical s) :
    Canonical (withdrawOn p s n) := h

theorem releasePins_canonical (h : Canonical s) :
    Canonical (releasePins s x) := h

theorem ccDone_canonical (h : Canonical s) :
    Canonical (ccDone s n) := h

theorem ccPut_canonical {d : BitVec 5} {v : DWord} (h : Canonical s) :
    Canonical (ccPut s n d v) := h

/-! ## Events and the fault log -/

theorem drainEvents_canonical (h : Canonical s) : Canonical (drainEvents s) :=
  ⟨h.1, wf_drainList _ _ _ h.2.1, h.2.2⟩

/-! ## Accumulators, scratchpads and poison -/

theorem clearAcc_canonical {p : Nat → Bool} (h : Canonical s) : Canonical (clearAcc s p) :=
  ⟨h.1, h.2.1, h.2.2.1, h.2.2.2.1, Sparse.wf_filter _ _ h.2.2.2.2⟩

theorem putSpad_canonical {a : Nat} {bs : List Byte} (h : Canonical s) : Canonical (putSpad s a bs) :=
  ⟨h.1, h.2.1, h.2.2.1, Memory.wf_writeBytes _ _ _ h.2.2.2.1, h.2.2.2.2⟩

theorem consumePoison_canonical (h : Canonical s) : Canonical (consumePoison s b) := by
  unfold consumePoison
  split <;> exact h

theorem joinRecord_canonical {page level cls kinds : Nat} (h : Canonical s) : Canonical (joinRecord s x page level cls kinds) := by
  unfold joinRecord
  dsimp only
  iterate 2 (split; · exact h)
  split
  · exact emit_canonical _ h
  · exact h

/-! ## Writes through translation -/

theorem noteTarget_canonical {t : Target} (h : Canonical s) : Canonical (noteTarget s x t) := by
  unfold noteTarget
  split
  · exact noteXlate_canonical h
  · exact h

theorem writeVirt_canonical {a : Nat} {bs : List Byte} (h : Canonical s) : Canonical (writeVirt s x a bs) := by
  unfold writeVirt
  dsimp only
  split
  · split
    · exact writePhys_canonical _ _ _ (writePhys_canonical _ _ _ h)
    · exact writePhys_canonical _ _ _ h
  · split
    · exact writePhys_canonical _ _ _ h
    · exact h

theorem noteSlot_canonical {m : Team} (h : Canonical s) : Canonical (noteSlot s x m n) := by
  unfold noteSlot
  exact noteXlate_canonical (noteXlate_canonical h)

/-! ## Entries that fire -/

theorem fireEntry_canonical (h : Canonical s) : Canonical (fireEntry s n x) := by
  unfold fireEntry
  dsimp only
  split <;> exact h

theorem fireAll_canonical {xs : List Nat} (h : Canonical s) : Canonical (fireAll n xs s) := by
  induction xs generalizing s with
  | nil => exact h
  | cons x r ih => exact ih (fireEntry_canonical h)

/-! ## Timelines and held publications -/

theorem notifyEvents_canonical {v : Nat} {ns : List (Nat × Nat × Nat × Bool)} (h : Canonical s) :
    Canonical (notifyEvents x sel v ns s) := by
  induction ns generalizing s with
  | nil => exact h
  | cons q r ih =>
    unfold notifyEvents
    dsimp only
    split
    · split
      · exact ih (emit_canonical _ (emit_canonical _ h))
      · exact ih (emit_canonical _ h)
    · exact ih h

theorem raiseTl_canonical {value : Nat} (h : Canonical s) : Canonical (raiseTl s x sel value) := by
  unfold raiseTl
  dsimp only
  split
  · exact bumpCtx_canonical _ _ h
  · exact notifyEvents_canonical h

theorem dropPub_canonical (h : Canonical s) : Canonical (dropPub s n) := logEntry_canonical _ h

theorem boardOr_canonical {w : Nat} {mask : Word} (h : Canonical s) : Canonical (boardOr s n w mask) := fireAll_canonical h

theorem performPub_canonical {p : HeldPub} (h : Canonical s) : Canonical (performPub s x p) := by
  unfold performPub
  split
  · split
    · exact dropPub_canonical h
    · exact boardOr_canonical h
  · split
    · exact raiseTl_canonical h
    · exact bumpCtx_canonical _ _ h

theorem performEach_canonical {ps : List HeldPub} (h : Canonical s) : Canonical (performEach s x ps) := by
  induction ps generalizing s with
  | nil => exact h
  | cons p r ih => exact ih (performPub_canonical h)

theorem performPubs_canonical {ps : List HeldPub} (h : Canonical s) : Canonical (performPubs s x ps) :=
  performEach_canonical (performEach_canonical h)

/-! ## Teams, blocks and barriers -/

theorem onTeam_canonical {f : Team → Team} (h : Canonical s) : Canonical (onTeam s b t f) := by
  unfold onTeam
  split <;> exact h

theorem onBlock_canonical {f : Block → Block} (h : Canonical s) : Canonical (onBlock s b f) := by
  unfold onBlock
  split <;> exact h

theorem putBar_canonical {i : Nat} {r : Barrier} (h : Canonical s) : Canonical (putBar s b i r) := by
  unfold putBar
  repeat' split
  all_goals exact h

theorem wakeAll_canonical {i phase : Nat} (h : Canonical s) : Canonical (wakeAll s b i phase) := by
  unfold wakeAll
  split <;> exact h

theorem releaseCheck_canonical {i : Nat} (h : Canonical s) : Canonical (releaseCheck s b i) := by
  unfold releaseCheck
  dsimp only
  split
  · exact wakeAll_canonical (putBar_canonical h)
  · exact h

theorem teamArrives_canonical {i : Nat} (h : Canonical s) : Canonical (teamArrives s b i) := releaseCheck_canonical (putBar_canonical h)

theorem arrivalCheck_canonical {i : Nat} (h : Canonical s) : Canonical (arrivalCheck s b t i) := by
  unfold arrivalCheck
  iterate 2 (split; · exact h)
  split
  · exact teamArrives_canonical (onTeam_canonical h)
  · exact h

theorem arrivalChecks_canonical {is : List Nat} (h : Canonical s) : Canonical (arrivalChecks s b t is) := by
  induction is generalizing s with
  | nil => exact h
  | cons i r ih => exact ih (arrivalCheck_canonical h)

theorem arriveLate_canonical (h : Canonical s) : Canonical (arriveLate s b t) := by
  unfold arriveLate
  split
  · exact h
  · exact arrivalChecks_canonical h

theorem detachOne_canonical {i : Nat} (h : Canonical s) : Canonical (detachOne s b t i) := by
  unfold detachOne
  dsimp only
  iterate 2 (split; · exact h)
  exact releaseCheck_canonical (onTeam_canonical (putBar_canonical h))

theorem detachAll_canonical {is : List Nat} (h : Canonical s) : Canonical (detachAll s b t is) := by
  induction is generalizing s with
  | nil => exact h
  | cons i r ih => exact ih (detachOne_canonical h)

theorem attachOne_canonical {i : Nat} (h : Canonical s) : Canonical (attachOne s b t i) := by
  unfold attachOne
  dsimp only
  iterate 2 (split; · exact h)
  exact releaseCheck_canonical (onTeam_canonical (putBar_canonical h))

theorem attachAll_canonical {is : List Nat} (h : Canonical s) : Canonical (attachAll s b t is) := by
  induction is generalizing s with
  | nil => exact h
  | cons i r ih => exact ih (attachOne_canonical h)

/-! ## Ends of teams, blocks and launches -/

theorem slotMiss_canonical {a level cls : Nat} {need : Need} (h : Canonical s) : Canonical (slotMiss s b t a level cls need) :=
  onTeam_canonical (joinRecord_canonical h)

theorem writeSlots_canonical {ns : List Nat} (h : Canonical s) : Canonical (writeSlots ns b t s) := by
  induction ns generalizing s with
  | nil => exact h
  | cons n r ih =>
    unfold writeSlots
    dsimp only
    iterate 3 (split; · exact ih h)
    split
    · exact ih (onTeam_canonical (writeVirt_canonical (noteSlot_canonical h)))
    · split
      · exact ih (slotMiss_canonical h)
      · exact ih h
    · exact ih (onTeam_canonical h)
    · exact ih (onTeam_canonical h)

theorem popDeferred_canonical {fuel : Nat} (h : Canonical s) : Canonical (popDeferred fuel s b t) := by
  induction fuel generalizing s with
  | zero => exact h
  | succ fuel ih =>
    unfold popDeferred
    dsimp only
    split
    · exact h
    · split
      · split
        · exact h
        · split
          · exact consumePoison_canonical h
          · split
            · exact ih (onTeam_canonical (noteSlot_canonical h))
            · exact slotMiss_canonical h
            · exact ih (onTeam_canonical h)
            · exact ih (onTeam_canonical h)
      · exact h

theorem storeSlots_canonical (h : Canonical s) : Canonical (storeSlots s b t n) := by
  unfold storeSlots
  split
  · exact h
  · exact foldl_canonical (fun _ _ h' => writeVirt_canonical h') h

theorem rotateJoin_canonical (h : Canonical s) : Canonical (rotateJoin s b t) := by
  unfold rotateJoin
  dsimp only
  iterate 2 (split; · exact h)
  split
  · split
    · exact h
    · split
      · exact consumePoison_canonical h
      · split
        · exact writeSlots_canonical (onTeam_canonical (noteSlot_canonical (noteSlot_canonical h)))
        · exact slotMiss_canonical h
        · exact slotMiss_canonical h
        · exact writeSlots_canonical (onTeam_canonical h)
        · exact writeSlots_canonical (onTeam_canonical h)
        · exact writeSlots_canonical (onTeam_canonical h)
        · exact writeSlots_canonical (onTeam_canonical h)
  · exact h

theorem settleTeam_canonical (h : Canonical s) : Canonical (settleTeam s b t) := by
  unfold settleTeam
  dsimp only
  split
  · exact onTeam_canonical h
  · exact rotateJoin_canonical (popDeferred_canonical (writeSlots_canonical (onTeam_canonical h)))

theorem commitLaunch_canonical (h : Canonical s) : Canonical (commitLaunch s n) := by
  unfold commitLaunch
  split
  · exact h
  · exact performPubs_canonical ⟨wf_installBytes _ _ h.1, h.2⟩

theorem commitBlock_canonical {lin copy : Nat} (h : Canonical s) : Canonical (commitBlock s n lin copy) := by
  unfold commitBlock
  split
  · exact h
  · split
    · exact h
    · exact performPubs_canonical ⟨wf_installBytes _ _ h.1, h.2⟩

theorem launchEndCheck_canonical (h : Canonical s) : Canonical (launchEndCheck s n) := by
  unfold launchEndCheck
  dsimp only
  split
  · exact h
  · split
    · split
      · split
        · exact emit_canonical _ (raiseTl_canonical h)
        · exact emit_canonical _ (bumpCtx_canonical _ _ h)
      · split
        · exact raiseTl_canonical h
        · exact bumpCtx_canonical _ _ h
    · exact h

theorem freeBlock_canonical {k : Block} (h : Canonical s) : Canonical (freeBlock s b k x) := by
  unfold freeBlock
  dsimp only
  split
  · exact h
  · exact clearAcc_canonical h

theorem retireBlock_canonical (h : Canonical s) : Canonical (retireBlock s b) := by
  unfold retireBlock
  dsimp only
  iterate 3 (split; · exact h)
  split
  · exact freeBlock_canonical h
  · split
    · exact h
    · split <;> exact launchEndCheck_canonical (putLaunch_canonical _ _ (freeBlock_canonical h))

theorem retireAll_canonical {bs : List Nat} (h : Canonical s) : Canonical (retireAll bs s) := by
  induction bs generalizing s with
  | nil => exact h
  | cons b r ih => exact ih (retireBlock_canonical h)

theorem retireRounds_canonical {fuel : Nat} (h : Canonical s) : Canonical (retireRounds fuel s) := by
  induction fuel generalizing s with
  | zero => exact h
  | succ fuel ih =>
    unfold retireRounds
    dsimp only
    split
    · exact h
    · exact ih (retireAll_canonical h)

theorem retireEnded_canonical (h : Canonical s) : Canonical (retireEnded s) := retireRounds_canonical h

theorem blockEndCheck_canonical (h : Canonical s) : Canonical (blockEndCheck s b) := by
  unfold blockEndCheck
  dsimp only
  split
  · exact h
  · split
    · exact retireEnded_canonical (retireBlock_canonical h)
    · exact h

theorem endTeam_canonical (h : Canonical s) : Canonical (endTeam s b t) := by
  unfold endTeam
  dsimp only
  split
  · exact h
  · split
    · exact detachAll_canonical h
    · exact blockEndCheck_canonical (putBlock_canonical _ _ (detachAll_canonical h))

theorem afterLanesLeave_canonical (h : Canonical s) : Canonical (afterLanesLeave s b t) := by
  unfold afterLanesLeave
  dsimp only
  split
  · exact settleTeam_canonical h
  · split
    · exact endTeam_canonical (settleTeam_canonical h)
    · exact arrivalChecks_canonical (settleTeam_canonical h)

theorem exitLanes_canonical {ls : Mask} (h : Canonical s) : Canonical (exitLanes s b t ls) := afterLanesLeave_canonical (onTeam_canonical h)

theorem killLanes_canonical {ls : Mask} (h : Canonical s) : Canonical (killLanes s b t ls) := afterLanesLeave_canonical (onTeam_canonical h)

/-! ## Splits and traps -/

theorem onSplit_canonical {f : Split → Split} (h : Canonical s) : Canonical (onSplit s b t e f) := onTeam_canonical h

theorem logTrapEnd_canonical {k : Block} {l : Launch} {code : Nat} {pc : BitVec 56} {handled : Nat} (h : Canonical s) :
    Canonical (logTrapEnd s k l t code pc handled) := logEntry_canonical _ h

theorem frontFault_canonical {r : TrapRec} (h : Canonical s) : Canonical (frontFault s b r) := by
  unfold frontFault
  dsimp only
  iterate 2 (split; · exact h)
  exact blockEndCheck_canonical (logTrapEnd_canonical h)

theorem takeTrap_canonical {r : TrapRec} {partly : Bool} {xs : List Word} (h : Canonical s) : Canonical (takeTrap s b t e r partly xs) := by
  unfold takeTrap
  split
  · exact frontFault_canonical h
  · split
    · exact h
    · split
      · split
        · split
          · exact onSplit_canonical h
          · exact endTeam_canonical (logTrapEnd_canonical h)
        · split
          · exact endTeam_canonical (logTrapEnd_canonical h)
          · split <;> exact h
      · exact h

theorem Iss.trap_canonical {r : TrapRec} (h : Canonical s) : Canonical (Iss.trap i s r) := takeTrap_canonical h

theorem Iss.trapPartly_canonical {r : TrapRec} (h : Canonical s) : Canonical (Iss.trapPartly i s r) := takeTrap_canonical h

theorem Iss.illop_canonical (h : Canonical s) : Canonical (Iss.illop i s op) := Iss.trap_canonical h

theorem Iss.unpop_canonical (h : Canonical s) : Canonical (Iss.unpop i s) := onTeam_canonical h

theorem Iss.illopValue_canonical (h : Canonical s) : Canonical (Iss.illopValue i s op) := Iss.illop_canonical (Iss.unpop_canonical h)

theorem releaseHandles_canonical (h : Canonical s) : Canonical (releaseHandles s b t) := by
  unfold releaseHandles
  dsimp only
  split
  · exact h
  · exact putBlock_canonical _ _ (clearAcc_canonical h)

theorem resubmit_canonical (h : Canonical s) : Canonical (resubmit s b sel n) := by
  unfold resubmit
  split <;> exact h

theorem returnFromTrap_canonical {h : Handling} (hs : Canonical s) : Canonical (returnFromTrap s b t e h) := by
  unfold returnFromTrap
  dsimp only
  split
  · exact settleTeam_canonical (arriveLate_canonical (onSplit_canonical (onTeam_canonical hs)))
  · split
    · exact resubmit_canonical (arriveLate_canonical (onSplit_canonical (onTeam_canonical hs)))
    · split
      · split
        · exact arriveLate_canonical (onSplit_canonical (onTeam_canonical hs))
        · exact exitLanes_canonical (releaseHandles_canonical (arriveLate_canonical (onSplit_canonical (onTeam_canonical hs))))
      · exact arriveLate_canonical (onSplit_canonical (onTeam_canonical hs))

theorem Iss.advance_canonical (h : Canonical s) : Canonical (Iss.advance i s op) := onSplit_canonical h

theorem Iss.wait_canonical {h : Held} (hs : Canonical s) : Canonical (Iss.wait i s h) := onSplit_canonical hs

/-! ## Lane deaths -/

theorem laneDeath_canonical {l : Nat} (h : Canonical s) : Canonical (laneDeath s b t l) := by
  unfold laneDeath
  dsimp only
  split
  · exact h
  · split
    · iterate 2 (split; · exact h)
      split
      · exact addDue_canonical (killLanes_canonical (bumpCtx_canonical _ _ (logEntry_canonical _ h)))
      · exact killLanes_canonical (bumpCtx_canonical _ _ (logEntry_canonical _ h))
    · exact h

theorem laneDeaths_canonical {ls : List Nat} (h : Canonical s) : Canonical (laneDeaths b t ls s) := by
  induction ls generalizing s with
  | nil => exact h
  | cons l r ih => exact ih (laneDeath_canonical h)

theorem Iss.afterDeaths_canonical {ls : List Nat} {go : State → State} (h : Canonical s) (hgo : KeepsCanonical go) :
    Canonical (Iss.afterDeaths i ls s go) := by
  unfold Iss.afterDeaths
  split
  · exact laneDeaths_canonical h
  · exact hgo _ (laneDeaths_canonical h)

/-! ## The shape of an instruction -/

theorem Iss.pause_canonical (h : Canonical s) : Canonical (Iss.pause i s) := onSplit_canonical h

theorem Iss.pauseIn_canonical {w : Line} (h : Canonical s) : Canonical (Iss.pauseIn i s w) := onSplit_canonical h

theorem Iss.pauseQueue_canonical (h : Canonical s) : Canonical (Iss.pauseQueue i op s) := by
  unfold Iss.pauseQueue
  split
  · exact Iss.pauseIn_canonical h
  · exact Iss.pause_canonical h

theorem issueLanes_canonical {leaders : List Nat} {body : Iss → State → State} (h : Canonical s) (hbody : ∀ i, KeepsCanonical (body i)) :
    Canonical (issueLanes op leaders i s body) := by
  unfold issueLanes
  dsimp only
  split
  · exact Iss.trap_canonical h
  · exact Iss.trap_canonical h
  · exact Iss.pauseQueue_canonical h
  · split
    · exact Iss.trap_canonical (onTeam_canonical h)
    · exact hbody _ _ (onTeam_canonical h)

theorem issueAs_canonical {leaders : List Nat} {body : Iss → State → State} (h : Canonical s) (hbody : ∀ i, KeepsCanonical (body i)) :
    Canonical (issueAs op leaders i s body) := by
  unfold issueAs
  dsimp only
  split
  · exact Iss.advance_canonical h
  · split
    · exact Iss.illop_canonical h
    · split
      · exact Iss.trap_canonical h
      · split
        · exact laneDeaths_canonical h
        · split
          · exact Iss.advance_canonical h
          · exact issueLanes_canonical h (fun _ _ h' => hbody _ _ h')

theorem issue_canonical {leaders : List Nat} {body : Iss → State → State} (h : Canonical s) (hbody : ∀ i, KeepsCanonical (body i)) :
    CanonicalOut (issue op leaders s body) := by
  unfold issue
  split
  · trivial
  · exact issueAs_canonical h (fun _ _ h' => hbody _ _ h')

theorem issueWhen_canonical {leaders : List Nat} {waits : Iss → Bool} {body : Iss → State → State} (h : Canonical s)
    (hbody : ∀ i, KeepsCanonical (body i)) :
    CanonicalOut (issueWhen op leaders s waits body) := by
  unfold issueWhen
  split
  · trivial
  · split
    · exact Iss.pause_canonical h
    · exact issueAs_canonical h (fun _ _ h' => hbody _ _ h')

theorem Iss.done_canonical {ls : List Nat} {ws : List (Nat × Word)} {fl : BitVec 8} (h : Canonical s) :
    Canonical (Iss.done i op s ls ws fl) := Iss.advance_canonical (onTeam_canonical h)

theorem Iss.complete_canonical {f : Nat → LaneOut} (h : Canonical s) : Canonical (Iss.complete i op s f) := by
  unfold Iss.complete
  split
  · exact Iss.trap_canonical h
  · exact Iss.done_canonical h

theorem laneOp_canonical {f : Iss → Op → Nat → LaneOut} (h : Canonical s) : CanonicalOut (laneOp op s f) :=
  issue_canonical h (fun _ _ h' => Iss.complete_canonical h')

theorem Iss.completeAll_canonical {v : BitVec 128} (h : Canonical s) : Canonical (Iss.completeAll i op s v) := Iss.complete_canonical h

theorem Iss.plain_canonical (h : Canonical s) : Canonical (Iss.plain i op s) := Iss.done_canonical h

/-! ## Commit signatures -/

theorem sigSplit_canonical {commit : Nat} {rs : List (List Byte)} (h : Canonical s) : Canonical (sigSplit s b t e commit rs) := by
  unfold sigSplit
  split
  · exact onSplit_canonical h
  · exact h

theorem sigOwe_canonical {commit num : Nat} (h : Canonical s) : Canonical (sigOwe s b t e commit num n) := by
  unfold sigOwe
  split
  · exact onSplit_canonical h
  · exact h

/-! ## Memory instructions lane by lane -/

theorem fabricPoison_canonical (h : Canonical s) : Canonical (fabricPoison s) := foldl_canonical (fun _ _ h' => h') h

/-- One lane of a memory instruction keeps the memories' form as long as the states it hands back keep it. -/
def KeepsDid (perform : State → LaneAcc → Phys → Option Did) : Prop :=
  ∀ s q p d, Canonical s → perform s q p = some d → Canonical d.s

theorem memLane_canonical {failed : List Nat} {need : Need} {perform : State → LaneAcc → Phys → Option Did} {r : MemRun} {q : LaneAcc}
    (h : Canonical r.s) (hperform : KeepsDid perform) : Canonical (memLane b n x failed need perform r q).s := by
  unfold memLane
  split
  · split
    · exact h
    · split
      · exact h
      · next e =>
        split
        · exact h
        · exact hperform _ _ _ _ (noteTarget_canonical h) e
  · exact joinRecord_canonical h
  · exact h
  · exact h

theorem memLanes_canonical {failed : List Nat} {need : Need} {perform : State → LaneAcc → Phys → Option Did} {r : MemRun}
    {qs : List LaneAcc} (h : Canonical r.s) (hperform : KeepsDid perform) :
    Canonical (memLanes b n x failed need perform r qs).s := by
  induction qs generalizing r with
  | nil => exact h
  | cons q t ih => exact ih (memLane_canonical h hperform)

theorem memFinish_canonical {r : MemRun} (h : Canonical r.s) : Canonical (memFinish i op r) := by
  unfold memFinish
  dsimp only
  refine Iss.afterDeaths_canonical (onTeam_canonical h) (fun s h' => ?_)
  split
  · exact Iss.wait_canonical h'
  · split
    · exact Iss.advance_canonical (sigSplit_canonical h')
    · exact Iss.trapPartly_canonical (sigSplit_canonical h')

theorem memIssue_canonical {given : Nat} {need : Need} {qs : List LaneAcc} {perform : State → LaneAcc → Phys → Option Did}
    (h : Canonical s) (hperform : KeepsDid perform) :
    Canonical (memIssue i op s n given need qs perform) := by
  unfold memIssue
  split
  · exact Iss.trap_canonical h
  · exact memFinish_canonical (memLanes_canonical h hperform)

theorem askOne_canonical {failed : List Nat} {r : AskRun} {q : Ask} (h : Canonical r.s) :
    Canonical (askOne x failed r q).s := by
  unfold askOne
  split
  · exact noteTarget_canonical h
  · exact joinRecord_canonical h
  · exact h
  · exact h

theorem askAll_canonical {failed : List Nat} {r : AskRun} {qs : List Ask} (h : Canonical r.s) : Canonical (askAll x failed r qs).s := by
  induction qs generalizing r with
  | nil => exact h
  | cons q t ih => exact ih (askOne_canonical h)

theorem Iss.translated_canonical {qs : List Ask} {go : State → State} (h : Canonical s) (hgo : KeepsCanonical go) :
    Canonical (Iss.translated i s qs go) := by
  unfold Iss.translated
  dsimp only
  split
  · exact Iss.wait_canonical (askAll_canonical h)
  · split
    · exact hgo _ (askAll_canonical h)
    · exact Iss.trap_canonical (askAll_canonical h)

/-! ## Teams that a block gains -/

theorem growOne_canonical {t : State} {k : Block} {l : Launch} (h : Canonical s) (g : growOne s b k l = some t) :
    Canonical t := by
  unfold growOne at g
  split at g
  · cases g
    exact h
  · cases g

theorem growTeams_canonical (h : Canonical s) : Canonical (growTeams n b s).1 := by
  induction n generalizing s with
  | zero => exact h
  | succ n ih =>
    unfold growTeams
    split
    · exact h
    · split
      · exact h
      · split
        · exact h
        · split
          · exact h
          · next s1 g => exact ih (growOne_canonical h g)

/-! ## Debug stops -/

theorem haltedEvent_canonical {k : Block} {pc : BitVec 56} (h : Canonical s) : Canonical (haltedEvent s k pc) := by
  unfold haltedEvent
  split
  · exact h
  · exact emit_canonical _ h

theorem debugStop_canonical {w : StopCause} {pc : BitVec 56} (h : Canonical s) : Canonical (debugStop s b t w pc) := by
  unfold debugStop
  dsimp only
  split
  · exact h
  · exact haltedEvent_canonical h

theorem haltBlock_canonical {pc : BitVec 56} (h : Canonical s) : Canonical (haltBlock s b pc) := by
  unfold haltBlock
  dsimp only
  split
  · exact h
  · exact haltedEvent_canonical h

theorem arriveAll_canonical {ts : List Nat} (h : Canonical s) : Canonical (arriveAll b ts s) := by
  induction ts generalizing s with
  | nil => exact h
  | cons t r ih => exact ih (arriveLate_canonical h)

theorem resumeBlock_canonical (h : Canonical s) : Canonical (resumeBlock s b) := by
  unfold resumeBlock
  dsimp only
  split
  · exact h
  · exact retireEnded_canonical (arriveAll_canonical h)

/-! ## Control flow and barriers -/

theorem Iss.divide_canonical {gs : List Going} {f : Team → Team} (h : Canonical s) : Canonical (Iss.divide i s gs f) :=
  storeSlots_canonical (onTeam_canonical h)

theorem Iss.goTo_canonical {pc : BitVec 56} (h : Canonical s) : Canonical (Iss.goTo i s pc) := onSplit_canonical h

theorem bra_canonical (h : Canonical s) : CanonicalOut (bra op s) := by
  unfold bra
  dsimp only
  refine issue_canonical h (fun i s h' => ?_)
  split
  · exact Iss.goTo_canonical h'
  · split
    · exact Iss.advance_canonical h'
    · exact Iss.translated_canonical h' (fun _ h' => Iss.divide_canonical h')

theorem brdq_canonical (h : Canonical s) : CanonicalOut (brdq op s) := by
  unfold brdq
  dsimp only
  refine issue_canonical h (fun i s h' => ?_)
  split
  · exact Iss.trap_canonical h'
  · exact Iss.pauseIn_canonical h'
  · split
    · exact Iss.goTo_canonical (onTeam_canonical h')
    · exact Iss.advance_canonical (onTeam_canonical h')

theorem join_canonical (h : Canonical s) : CanonicalOut (join op s) := by
  unfold join
  dsimp only
  refine issue_canonical h (fun i s h' => ?_)
  split
  · exact Iss.advance_canonical h'
  · exact settleTeam_canonical (onSplit_canonical h')

theorem pushRet_canonical {ret : BitVec 56} {l : Nat} (h : Canonical s) : Canonical (pushRet i ret s l) := by
  unfold pushRet
  dsimp only
  split
  · exact h
  · iterate 2 (split; · exact onTeam_canonical h)
    exact onTeam_canonical (writePhys_canonical _ _ _ h)

theorem pushRets_canonical {ret : BitVec 56} {ls : List Nat} (h : Canonical s) : Canonical (pushRets i ret ls s) := by
  induction ls generalizing s with
  | nil => exact h
  | cons l r ih => exact ih (pushRet_canonical h)

theorem callLanes_canonical {callers : List Nat} {target : Nat → BitVec 56} (h : Canonical s) :
    Canonical (callLanes i op s callers target) := by
  unfold callLanes
  dsimp only
  split
  · exact Iss.trap_canonical h
  · exact Iss.translated_canonical h (fun _ h' => Iss.divide_canonical (onTeam_canonical (pushRets_canonical h')))

theorem callDirect_canonical (h : Canonical s) : CanonicalOut (callDirect op s) := issue_canonical h (fun _ _ h' => callLanes_canonical h')

theorem callIndirect_canonical (h : Canonical s) : CanonicalOut (callIndirect op s) := by
  unfold callIndirect
  refine issue_canonical h (fun i s h' => ?_)
  iterate 2 (split; · exact Iss.trap_canonical h')
  exact callLanes_canonical h'

theorem retireLanes_canonical {ls : Mask} {rest : State → State} (h : Canonical s) (hrest : KeepsCanonical rest) :
    Canonical (retireLanes i s ls rest) := by
  unfold retireLanes
  dsimp only
  split
  · exact Iss.trap_canonical h
  · split
    · exact hrest _ (onSplit_canonical h)
    · exact exitLanes_canonical (hrest _ (onSplit_canonical h))

theorem frontExit_canonical (h : Canonical s) : Canonical (frontExit i s) := blockEndCheck_canonical (onTeam_canonical h)

theorem exitOp_canonical (h : Canonical s) : CanonicalOut (exitOp op s) := by
  unfold exitOp
  refine issue_canonical h (fun i s h' => ?_)
  split
  · exact frontExit_canonical h'
  · exact retireLanes_canonical h' (fun _ h' => Iss.advance_canonical h')

theorem retLanes_canonical {addr : Nat → Option (BitVec 56)} (h : Canonical s) : Canonical (retLanes i op s addr) := by
  unfold retLanes
  exact retireLanes_canonical h (fun _ h' => Iss.divide_canonical h')

theorem retOp_canonical (h : Canonical s) : CanonicalOut (retOp op s) :=
  issue_canonical h (fun _ _ h' => Iss.translated_canonical h' (fun _ h' => Iss.translated_canonical h'
    (fun _ h' => Iss.afterDeaths_canonical h' (fun _ h' => retLanes_canonical h'))))

theorem trapOp_canonical (h : Canonical s) : CanonicalOut (trapOp op s) :=
  issue_canonical h (fun _ _ h' => takeTrap_canonical (onTeam_canonical h'))

theorem bkpt_canonical (h : Canonical s) : CanonicalOut (bkpt op s) := by
  unfold bkpt
  refine issue_canonical h (fun i s h' => ?_)
  split
  · exact debugStop_canonical (Iss.advance_canonical h')
  · exact takeTrap_canonical h'

theorem yieldOp_canonical (h : Canonical s) : CanonicalOut (yieldOp op s) := issue_canonical h (fun _ _ h' => Iss.advance_canonical h')

theorem arriveSplit_canonical {q : BarMember} (h : Canonical s) : Canonical (arriveSplit s i n q) :=
  arrivalCheck_canonical (onTeam_canonical h)

theorem waitFor_canonical {ph : Nat} (h : Canonical s) : Canonical (waitFor s i op n ph) := by
  unfold waitFor
  dsimp only
  split
  · exact Iss.advance_canonical h
  · exact onSplit_canonical (Iss.advance_canonical h)

theorem barWait_canonical (h : Canonical s) : Canonical (barWait s i op n) := by
  unfold barWait
  iterate 2 (split; · exact Iss.trap_canonical h)
  exact waitFor_canonical h

theorem bar_canonical (h : Canonical s) : CanonicalOut (bar op s) := by
  unfold bar
  dsimp only
  refine issue_canonical h (fun i s h' => ?_)
  split
  · exact barWait_canonical h'
  · split
    · exact Iss.trap_canonical h'
    · split
      · exact onSplit_canonical h'
      · split
        · exact Iss.advance_canonical (arriveSplit_canonical h')
        · exact barWait_canonical (arriveSplit_canonical h')

theorem attachOp_canonical (h : Canonical s) : CanonicalOut (attachOp op s) := by
  unfold attachOp
  dsimp only
  refine issue_canonical h (fun i s h' => ?_)
  split
  · exact Iss.trap_canonical (Iss.unpop_canonical h')
  · split
    · exact Iss.plain_canonical (attachAll_canonical h')
    · split
      · exact Iss.trap_canonical h'
      · exact Iss.plain_canonical (detachAll_canonical h')

theorem growOp_canonical (h : Canonical s) : CanonicalOut (growOp op s) :=
  issue_canonical h (fun _ _ h' => Iss.completeAll_canonical (growTeams_canonical h'))

theorem shrq_canonical (h : Canonical s) : CanonicalOut (shrq op s) := issue_canonical h (fun _ _ h' => Iss.completeAll_canonical h')

theorem tlwait_canonical (h : Canonical s) : CanonicalOut (tlwait op s) := by
  unfold tlwait
  dsimp only
  refine issue_canonical h (fun i s h' => ?_)
  split
  · exact Iss.illopValue_canonical h'
  · split
    · exact Iss.wait_canonical h'
    · exact Iss.completeAll_canonical h'

theorem tlreadOp_canonical (h : Canonical s) : CanonicalOut (tlreadOp op s) := by
  unfold tlreadOp
  dsimp only
  refine issue_canonical h (fun i s h' => ?_)
  split
  · exact Iss.illopValue_canonical h'
  · exact Iss.completeAll_canonical h'

theorem holdPub_canonical {p : HeldPub} (h : Canonical s) : Canonical (holdPub s i p) := by
  unfold holdPub
  split <;> exact h

theorem tlsigOp_canonical (h : Canonical s) : CanonicalOut (tlsigOp op s) := by
  unfold tlsigOp
  dsimp only
  refine issue_canonical h (fun i s h' => ?_)
  split
  · exact Iss.illopValue_canonical h'
  · split
    · exact Iss.trap_canonical h'
    · split
      · exact Iss.plain_canonical (raiseTl_canonical h')
      · exact Iss.plain_canonical (holdPub_canonical h')

theorem xset_canonical (h : Canonical s) : CanonicalOut (xset op s) := by
  unfold xset
  dsimp only
  refine issue_canonical h (fun i s h' => ?_)
  split
  · exact Iss.illopValue_canonical h'
  · split
    · exact Iss.trap_canonical h'
    · exact Iss.plain_canonical (onTeam_canonical h')

theorem xget_canonical (h : Canonical s) : CanonicalOut (xget op s) := issue_canonical h (fun _ _ h' => Iss.completeAll_canonical h')

theorem pushd_canonical (h : Canonical s) : CanonicalOut (pushd op s) := by
  unfold pushd
  dsimp only
  refine issue_canonical h (fun i s h' => ?_)
  iterate 2 (split; · exact Iss.plain_canonical h')
  split
  · exact Iss.pauseIn_canonical h'
  · exact Iss.plain_canonical (onTeam_canonical h')

/-! ## Layout records -/

theorem Iss.withRecord_canonical {a : Nat} {go : State → List Byte → State} (h : Canonical s)
    (hgo : ∀ t bs, Canonical t → Canonical (go t bs)) :
    Canonical (Iss.withRecord i s a n go) := by
  unfold Iss.withRecord
  dsimp only
  split
  · exact Iss.trap_canonical h
  · split
    · exact Iss.wait_canonical (askAll_canonical h)
    · split
      · exact Iss.trap_canonical (askAll_canonical h)
      · exact hgo _ _ (askAll_canonical h)

/-! ## Copy instructions -/

theorem cpy32_canonical (h : Canonical s) : CanonicalOut (cpy32 op s) := by
  unfold cpy32
  dsimp only
  refine issue_canonical h (fun i s h' => ?_)
  split
  · exact Iss.trap_canonical h'
  · refine Iss.translated_canonical h' (fun s h' => ?_)
    split
    · exact Iss.wait_canonical h'
    · exact Iss.plain_canonical (onTeam_canonical h')

theorem waittag_canonical (h : Canonical s) : CanonicalOut (waittag op s) := by
  unfold waittag
  refine issue_canonical h (fun i s h' => ?_)
  split
  · exact Iss.wait_canonical h'
  · exact Iss.plain_canonical h'

theorem acceptCmd_canonical {o : EngOp} (h : Canonical s) : Canonical (acceptCmd s i sel o).1 := by
  unfold acceptCmd
  dsimp only
  split <;> exact h

theorem Iss.numbered_canonical {r : State × Nat} (h : Canonical r.1) : Canonical (Iss.numbered i op r) :=
  Iss.done_canonical h

theorem tcopyWith_canonical {bs : List Byte} (h : Canonical s) : Canonical (tcopyWith i op s bs) := by
  unfold tcopyWith
  dsimp only
  split
  · exact Iss.illopValue_canonical h
  · iterate 2 (split; · exact Iss.trap_canonical h)
    split
    · exact Iss.numbered_canonical (sigOwe_canonical (acceptCmd_canonical h))
    · exact Iss.numbered_canonical (acceptCmd_canonical h)

theorem tcopy_canonical (h : Canonical s) : CanonicalOut (tcopy op s) :=
  issue_canonical h (fun _ _ h' => Iss.withRecord_canonical h' (fun _ _ h' => tcopyWith_canonical h'))

theorem mcast_canonical (h : Canonical s) : CanonicalOut (mcast op s) := by
  unfold mcast
  dsimp only
  refine issue_canonical h (fun i s h' => ?_)
  iterate 2 (split; · exact Iss.trap_canonical h')
  exact Iss.numbered_canonical (acceptCmd_canonical h')

theorem clearSpad_canonical {off : Nat} (h : Canonical s) : Canonical (clearSpad s core off n) :=
  ⟨h.1, h.2.1, h.2.2.1, Sparse.wf_filter (w := 8) _ _ h.2.2.2.1, h.2.2.2.2⟩

theorem makeAlloc_canonical {off span : Nat} (h : Canonical s) : Canonical (makeAlloc s i off n span).1 := by
  unfold makeAlloc
  dsimp only
  split
  · exact clearSpad_canonical h
  · exact putBlock_canonical _ _ (clearSpad_canonical h)

theorem spalloc_canonical (h : Canonical s) : CanonicalOut (spalloc op s) := by
  unfold spalloc
  dsimp only
  refine issue_canonical h (fun i s h' => ?_)
  split
  · exact Iss.trap_canonical h'
  · iterate 2 (split; · exact Iss.completeAll_canonical h')
    exact Iss.completeAll_canonical (makeAlloc_canonical h')

theorem spfree_canonical (h : Canonical s) : CanonicalOut (spfree op s) := by
  unfold spfree
  dsimp only
  refine issue_canonical h (fun i s h' => ?_)
  split
  · split
    · exact Iss.wait_canonical h'
    · exact Iss.plain_canonical h'
  · split
    · exact Iss.trap_canonical h'
    · exact Iss.wait_canonical (onBlock_canonical h')

theorem femark_canonical (h : Canonical s) : CanonicalOut (femark op s) := by
  unfold femark
  dsimp only
  refine issue_canonical h (fun i s h' => ?_)
  iterate 2 (split; · exact Iss.trap_canonical h')
  split
  · exact Iss.plain_canonical h'
  · split
    · exact Iss.trap_canonical h'
    · exact Iss.plain_canonical h'

/-! ## Integer instructions -/

theorem execNopC16_canonical {o : COps} (h : Canonical s) : CanonicalOut (execNopC16 o s) := by
  unfold execNopC16
  exact issue_canonical h (fun _ _ h' => Iss.plain_canonical h')

theorem execNopW32_canonical {o : WOps} (h : Canonical s) : CanonicalOut (execNopW32 o s) := by
  unfold execNopW32
  exact issue_canonical h (fun _ _ h' => Iss.plain_canonical h')

theorem execNopL64_canonical {o : LOps} (h : Canonical s) : CanonicalOut (execNopL64 o s) := by
  unfold execNopL64
  exact issue_canonical h (fun _ _ h' => Iss.plain_canonical h')

/-! ## The transport -/

theorem sendPacket_canonical {q : TxPacket} (h : Canonical s) : Canonical (sendPacket s q).2 := by
  unfold sendPacket
  dsimp only
  split <;> exact h

theorem sendMsg_canonical {m : Msg} (h : Canonical s) : Canonical (sendMsg s m) := by
  unfold sendMsg
  dsimp only
  split
  · exact h
  · exact sendPacket_canonical h

theorem sendMsgs_canonical {ms : List Msg} (h : Canonical s) : Canonical (sendMsgs ms s) := by
  induction ms generalizing s with
  | nil => exact h
  | cons m r ih => exact ih (sendMsg_canonical h)

theorem flushPackets_canonical {qs done : List TxPacket} (h : Canonical s) : Canonical (flushPackets qs done s) := by
  induction qs generalizing done s with
  | nil => exact h
  | cons q r ih =>
    unfold flushPackets
    dsimp only
    iterate 2 (split; · exact ih h)
    exact ih (sendPacket_canonical h)

theorem packetReceive_canonical {k : Packet} (h : Canonical s) : Canonical (packetReceive k s) := by
  unfold packetReceive
  dsimp only
  repeat' split
  all_goals exact h

theorem packetAck_canonical {k : Ack} (h : Canonical s) : Canonical (packetAck k s) := by
  unfold packetAck
  dsimp only
  split <;> exact h

theorem retransmit_canonical {psn : Nat} (h : Canonical s) : Canonical (retransmit psn s) := by
  unfold retransmit
  dsimp only
  iterate 4 (split; · exact h)
  exact sendPacket_canonical h

theorem execSprayRejoin_canonical {p : Nat} (h : Canonical s) : CanonicalOut (execSprayRejoin p s) := by
  unfold execSprayRejoin
  split
  · exact flushPackets_canonical h
  · exact h

/-! ## Units that leave service -/

theorem unitLeaves_canonical {u : UnitId} (h : Canonical s) : Canonical (unitLeaves s u) := by
  unfold unitLeaves
  dsimp only
  repeat' split
  all_goals exact h

theorem removeUnit_canonical {u : UnitId} {cause phase : Nat} (h : Canonical s) : Canonical (removeUnit s u cause phase) := by
  unfold removeUnit
  dsimp only
  split
  · exact h
  · exact logEntry_canonical _ (unitLeaves_canonical h)

theorem countDecode_canonical {engine : Nat} (h : Canonical s) : Canonical (countDecode s engine) := by
  unfold countDecode
  dsimp only
  split
  · exact removeUnit_canonical h
  · exact h

theorem countDeath_canonical {dp : Nat} (h : Canonical s) : Canonical (countDeath s dp) := by
  unfold countDeath
  dsimp only
  split
  · exact removeUnit_canonical h
  · exact h

/-! ## Rounds -/

theorem abortRound_canonical {outcome rank : Nat} (h : Canonical s) : Canonical (abortRound s n outcome rank) := by
  unfold abortRound
  dsimp only
  split
  · exact sendMsgs_canonical h
  · exact h

theorem ccFault_canonical {code reason : Nat} (h : Canonical s) : Canonical (ccFault s n code reason) :=
  abortRound_canonical (logEntry_canonical _ h)

theorem ccAsks_canonical {need : Need} {both load : Bool} {as : List Nat} {r : CcAsk} (h : Canonical r.s) :
    Canonical (ccAsks n need both load as r).s := by
  induction as generalizing r with
  | nil => exact h
  | cons a t ih =>
    refine ih ?_
    split
    · dsimp only
      split
      · exact noteXlate_canonical h
      · exact h
    · exact joinRecord_canonical h
    · split <;> exact h
    · split <;> exact h

theorem ccWritePieces_canonical {ps : List (Nat × Nat)} {bs : List Byte} (h : Canonical s) : Canonical (ccWritePieces n ps bs s) := by
  induction ps generalizing bs s with
  | nil => exact h
  | cons q r ih =>
    unfold ccWritePieces
    split
    · exact ih h
    · exact ih (writePhys_canonical _ _ _ h)

theorem ccWrite_canonical {a : Nat} {bs : List Byte} (h : Canonical s) : Canonical (ccWrite s n a bs) := ccWritePieces_canonical h

theorem ccTouch_canonical {a len : Nat} (h : Canonical s) : Canonical (ccTouch n a len s) := by
  unfold ccTouch
  refine foldl_canonical (fun a t h' => ?_) h
  split
  · exact h'
  · exact touch_canonical h'

theorem openSlot_canonical (h : Canonical s) : Canonical (openSlot s n x) := sendMsgs_canonical h

/-! ## The churn of a collective -/

theorem wantWhey_canonical {page : Nat} (h : Canonical s) : Canonical (wantWhey n s page) := by
  unfold wantWhey
  dsimp only
  split
  · exact h
  · split
    · exact emit_canonical _ h
    · exact h

theorem decodeEntry_canonical {f : Firing} {j : Nat} (h : Canonical s) : Canonical (decodeEntry s n f j) :=
  countDecode_canonical (logEntry_canonical _ h)

theorem putWhey_canonical {w : WheyObj} {ch chunk blk : Nat} {qs : List (Nat × List Word)} (h : Canonical s) :
    Canonical (putWhey n w ch chunk blk qs s) := by
  induction qs generalizing s with
  | nil => exact h
  | cons q r ih => exact ih (ccWrite_canonical h)

theorem sendBlock_canonical {f : Firing} {j : Nat} {bytes : List Byte} {ranks : List Nat} (h : Canonical s) :
    Canonical (sendBlock s n x f j bytes ranks) := sendMsgs_canonical h

theorem commitChurn_canonical {f : Firing} {j : Nat} {w : Option WheyObj} {o : BlockOut} (h : Canonical s) :
    Canonical (commitChurn s n x f j w o) := by
  unfold commitChurn
  extract_lets c s1 s2 s3 s4 s5
  have h1 : Canonical s1 := by
    unfold s1
    split
    · exact putWhey_canonical h
    · exact h
  have h2 : Canonical s2 := by
    unfold s2
    split
    · exact ccWrite_canonical h1
    · exact h1
  have h3 : Canonical s3 := by
    unfold s3
    split
    · exact bumpCtx_canonical _ _ h2
    · exact h2
  have h4 : Canonical s4 := by
    unfold s4
    split
    · exact bumpCtx_canonical _ _ h3
    · exact h3
  have h5 : Canonical s5 := onFiring_canonical h4
  split
  · exact sendBlock_canonical h5
  · exact h5

theorem runBlock_canonical {hit : Bool} {f : Firing} {w : Option WheyObj} {j : Nat} (h : Canonical s) :
    Canonical (runBlock hit s n x f w j) := by
  unfold runBlock
  dsimp only
  split
  · exact commitChurn_canonical (decodeEntry_canonical (ccTouch_canonical h))
  · exact commitChurn_canonical (ccTouch_canonical h)

theorem stepBlockAs_canonical {hit : Bool} {pass : StepPass} {v : BitVec 16} {j : Nat} (h : Canonical s) :
    Canonical (stepBlockAs hit pass n x v s j) := by
  unfold stepBlockAs
  extract_lets c
  split
  · exact h
  · split
    · exact h
    · extract_lets w s0 need r r2
      have h0 : Canonical s0 := by
        unfold s0
        split <;> exact h
      have h2 : Canonical r2.s := ccAsks_canonical (ccAsks_canonical h0)
      split
      · split
        · exact ccFault_canonical h2
        · exact h
      · split
        · exact onCc_canonical h2
        · split
          · exact h
          · split
            · exact runBlock_canonical h2
            · exact foldl_canonical (fun _ _ ht => wantWhey_canonical ht) h2

theorem stepBlock_canonical {pass : StepPass} {q : OpenBlock} (h : Canonical s) : Canonical (stepBlock pass s q) := stepBlockAs_canonical h

theorem stepBlocks_canonical {pass : StepPass} {qs : List OpenBlock} (h : Canonical s) : Canonical (stepBlocks pass qs s) := by
  induction qs generalizing s with
  | nil => exact h
  | cons q r ih => exact ih (stepBlock_canonical h)

theorem settleRounds_canonical {ns : List Nat} (h : Canonical s) : Canonical (settleRounds ns s) := by
  induction ns generalizing s with
  | nil => exact h
  | cons n r ih => exact ih h

theorem runStepsOf_canonical {ns : List Nat} (h : Canonical s) : Canonical (runStepsOf ns s) :=
  settleRounds_canonical (stepBlocks_canonical (stepBlocks_canonical h))

theorem runSteps_canonical (h : Canonical s) : Canonical (runSteps s n) := runStepsOf_canonical h

theorem tryFire_canonical (h : Canonical s) : Canonical (tryFire s n x) := by
  unfold tryFire
  split
  · exact runSteps_canonical (fireEntry_canonical h)
  · exact h

theorem answer_canonical {h : Hdr} {entry blk : Nat} {ok : Bool} (hs : Canonical s) : Canonical (answer s h entry blk ok) :=
  sendMsg_canonical hs

theorem slotTakes_canonical {h : Hdr} {blk entry : Nat} {bytes : List Byte} (hs : Canonical s) :
    Canonical (slotTakes s n x h blk entry bytes) := by
  unfold slotTakes
  dsimp only
  iterate 2 (split; · exact answer_canonical hs)
  exact tryFire_canonical (answer_canonical hs)

theorem curdArrives_canonical {h : Hdr} {gather : Bool} {chunk blk entry : Nat} {bytes : List Byte} (hs : Canonical s) :
    Canonical (curdArrives s h gather chunk blk entry bytes) := by
  unfold curdArrives
  dsimp only
  split
  · exact hs
  · iterate 2 (split; · exact answer_canonical hs)
    exact slotTakes_canonical hs

theorem replyArrives_canonical {h : Hdr} {entry blk : Nat} {ok : Bool} (hs : Canonical s) : Canonical (replyArrives s h entry blk ok) := by
  unfold replyArrives
  dsimp only
  repeat' split
  all_goals exact hs

theorem noticeArrives_canonical {h : Hdr} {gather : Bool} {chunk : Nat} (hs : Canonical s) :
    Canonical (noticeArrives s h gather chunk) := by
  unfold noticeArrives
  dsimp only
  repeat' split
  all_goals exact hs

theorem abortArrives_canonical {h : Hdr} (hs : Canonical s) : Canonical (abortArrives s h) := by
  unfold abortArrives
  dsimp only
  iterate 2 (split; · exact hs)
  exact abortRound_canonical hs

theorem onMsg_canonical {m : Msg} {act : State → Msg → Option State} (h : Canonical s)
    (hact : ∀ u t, Canonical u → act u m = some t → Canonical t) : CanonicalOut (onMsg s m act) := by
  unfold onMsg
  split
  · show Canonical _
    cases e : act (takeMsg s m) m with
    | none => exact h
    | some t => exact hact (takeMsg s m) t h e
  · exact h

theorem execCurdArrival_canonical {m : Msg} (h : Canonical s) : CanonicalOut (execCurdArrival m s) := by
  refine onMsg_canonical h (fun u t hu e => ?_)
  split at e
  · obtain rfl := Option.some.inj e
    exact curdArrives_canonical hu
  · cases e

theorem execCurdReply_canonical {m : Msg} (h : Canonical s) : CanonicalOut (execCurdReply m s) := by
  refine onMsg_canonical h (fun u t hu e => ?_)
  split at e
  · obtain rfl := Option.some.inj e
    exact replyArrives_canonical hu
  · cases e

theorem execPostedNotice_canonical {m : Msg} (h : Canonical s) : CanonicalOut (execPostedNotice m s) := by
  refine onMsg_canonical h (fun u t hu e => ?_)
  split at e
  · obtain rfl := Option.some.inj e
    exact noticeArrives_canonical hu
  · cases e

theorem execAbortNotice_canonical {m : Msg} (h : Canonical s) : CanonicalOut (execAbortNotice m s) := by
  refine onMsg_canonical h (fun u t hu e => ?_)
  split at e
  · obtain rfl := Option.some.inj e
    exact abortArrives_canonical hu
  · cases e

theorem execEntryFire_canonical {cc : Nat} (h : Canonical s) : CanonicalOut (execEntryFire cc e s) := by
  unfold execEntryFire
  split
  · exact h
  · split
    · exact runSteps_canonical (fireEntry_canonical h)
    · exact h

theorem execFiringComplete_canonical {cc : Nat} (h : Canonical s) : CanonicalOut (execFiringComplete cc e s) := by
  unfold execFiringComplete
  split
  · exact runSteps_canonical h
  · exact h

theorem execRoundDeadline_canonical {cc : Nat} (h : Canonical s) : CanonicalOut (execRoundDeadline cc s) := by
  unfold execRoundDeadline
  split
  · exact h
  · split
    · exact abortRound_canonical h
    · exact h

theorem fillPage_canonical {pa : Nat} (h : Canonical s) : Canonical (fillPage s pa) :=
  foldl_canonical (fun _ _ h' => hbmFill_canonical h') h

theorem wheyMoved_canonical {t : State} {cc page : Nat} (h : Canonical s) (e : wheyMoved s cc page = some t) : Canonical t := by
  unfold wheyMoved at e
  split at e
  · split at e
    · split at e
      · cases e
        exact h
      · cases e
    · obtain rfl := Option.some.inj e
      exact fillPage_canonical h
  · obtain rfl := Option.some.inj e
    exact h

theorem execWheyPageIn_canonical {cc page : Nat} (h : Canonical s) : CanonicalOut (execWheyPageIn cc page s) := by
  unfold execWheyPageIn
  split
  · split
    · exact h
    · next s1 e =>
      have h1 : Canonical s1 := wheyMoved_canonical h e
      exact runSteps_canonical (onCc_canonical h1)
  · exact h

/-! ## The copy engine -/

theorem payCopy_canonical (h : Canonical s) : Canonical (payCopy s b sel n) := by
  unfold payCopy
  repeat' split
  all_goals exact h

theorem abandonCmd_canonical {s0 : State} {addr : Nat} (h : Canonical s0) : Canonical (abandonCmd s0 b sel n addr) := by
  unfold abandonCmd
  dsimp only
  iterate 2 (split; · exact payCopy_canonical h)
  exact blockEndCheck_canonical (logEntry_canonical _ (putBlock_canonical _ _ (payCopy_canonical h)))

theorem engineFault_canonical {code addr : Nat} (h : Canonical s) : Canonical (engineFault s b sel n code addr) := by
  unfold engineFault
  dsimp only
  iterate 2 (split; · exact h)
  split
  · split
    · exact h
    · exact abandonCmd_canonical h
  · split
    · exact h
    · exact abandonCmd_canonical h

theorem loadByte_canonical {id a : Nat} {v : Byte} (h : Canonical s) : Canonical (loadByte id a v s) := by
  unfold loadByte
  split
  · exact putSpad_canonical h
  · exact h

theorem copyByte_canonical {j : CopyJob} {k : Nat} {p : Phys} (h : Canonical s) : Canonical (copyByte j k s p) := by
  unfold copyByte
  split
  · exact writePhys_canonical _ _ _ h
  · exact loadByte_canonical (touch_canonical h)

theorem copyStep_canonical {j : CopyJob} {failed : List Nat} {r : CopyRun} {k : Nat} (h : Canonical r.s) :
    Canonical (copyStep j failed r k).s := by
  unfold copyStep
  dsimp only
  split
  · split
    · exact h
    · exact loadByte_canonical h
  · split
    · iterate 2 (split; · exact h)
      exact copyByte_canonical (noteTarget_canonical h)
    · exact joinRecord_canonical h
    · split <;> exact h
    · split <;> exact h

theorem copySteps_canonical {j : CopyJob} {failed : List Nat} {r : CopyRun} {ks : List Nat} (h : Canonical r.s) :
    Canonical (copySteps j failed r ks).s := by
  induction ks generalizing r with
  | nil => exact h
  | cons k t ih => exact ih (copyStep_canonical h)

theorem probeAll_canonical {failed : List Nat} {need : Need} {r : CopyRun} {as : List Nat} (h : Canonical r.s) :
    Canonical (probeAll x failed need r as).s := by
  induction as generalizing r with
  | nil => exact h
  | cons a t ih =>
    unfold probeAll
    dsimp only
    split
    · exact ih h
    · exact ih (joinRecord_canonical h)
    · split <;> exact ih h
    · split <;> exact ih h

theorem CopyRun.start_canonical (h : Canonical s) : Canonical (CopyRun.start s).s := h

theorem addSeal_canonical {t : SealedTile} (h : Canonical s) : Canonical (addSeal s x t) := by
  unfold addSeal
  dsimp only
  split
  · exact h
  · exact bumpCtx_canonical _ _ h

theorem writeVersion_canonical {j : CopyJob} {ver : DWord} {verAddr : Nat} (h : Canonical s) :
    Canonical (writeVersion s j ver verAddr) := by
  unfold writeVersion
  split
  · exact h
  · exact writePhys_canonical _ _ _ h

theorem noteRun_canonical {r : CopyRun} {lines : List Nat} (h : Canonical s) : Canonical (noteRun b sel n r lines s) :=
  setLines_canonical (onBlock_canonical h)

theorem clearRaces_canonical (h : Canonical s) : Canonical (clearRaces s) := by
  unfold clearRaces
  split <;> exact h

theorem completeCmd_canonical (h : Canonical s) : Canonical (completeCmd s b sel n) :=
  blockEndCheck_canonical (clearRaces_canonical (onBlock_canonical (payCopy_canonical h)))

theorem endRun_canonical {r : CopyRun} (h : Canonical s) : Canonical (endRun b sel n r s) := by
  unfold endRun
  split
  · exact consumePoison_canonical h
  · split
    · exact h
    · split
      · exact engineFault_canonical h
      · exact completeCmd_canonical h

theorem runTcopy_canonical {j : CopyJob} {c : EngCmd} {isSealed : Bool} {ver : DWord} {verAddr : Nat} (h : Canonical s) :
    Canonical (runTcopy s j c isSealed ver verAddr) := by
  unfold runTcopy
  dsimp only
  split
  · split
    · exact endRun_canonical (noteRun_canonical (probeAll_canonical (CopyRun.start_canonical h)))
    · split
      · exact probeAll_canonical (CopyRun.start_canonical h)
      · split
        · exact consumePoison_canonical (probeAll_canonical (CopyRun.start_canonical h))
        · exact endRun_canonical (addSeal_canonical (writeVersion_canonical (noteRun_canonical (copySteps_canonical (CopyRun.start_canonical
            (probeAll_canonical (CopyRun.start_canonical h)))))))
  · exact endRun_canonical (noteRun_canonical (copySteps_canonical (CopyRun.start_canonical h)))

theorem copyCommandComplete_canonical (h : Canonical s) : Canonical (copyCommandComplete b n s) := by
  unfold copyCommandComplete
  split
  · exact h
  · split
    · exact runTcopy_canonical h
    · exact h

theorem copyTouch_canonical {space : Nat} {n : Option Nat} (h : Canonical s) : Canonical (copyTouch space s n) := by
  unfold copyTouch
  split
  · exact h
  · exact touch_canonical h

theorem landLane_canonical {space : Nat} {keep : Nat → Bool} {q : Nat × List (Option Nat)} (h : Canonical s) :
    Canonical (landLane b core space keep s q) := by
  unfold landLane
  dsimp only
  refine foldl_canonical (fun a t h' => ?_) h
  split
  · exact putSpad_canonical (copyTouch_canonical h')
  · exact h'

theorem landLanes_canonical {space : Nat} {keep : Nat → Bool} {qs : List (Nat × List (Option Nat))} (h : Canonical s) :
    Canonical (landLanes b core space keep qs s) := by
  induction qs generalizing s with
  | nil => exact h
  | cons q r ih => exact ih (landLane_canonical h)

theorem cpy32Complete_canonical {tag : Nat} (h : Canonical s) : Canonical (cpy32Complete b t tag s) := by
  unfold cpy32Complete
  dsimp only
  iterate 2 (split; · exact h)
  split
  · exact consumePoison_canonical h
  · split
    · exact blockEndCheck_canonical (clearRaces_canonical (onTeam_canonical (setLines_canonical (landLanes_canonical h))))
    · exact blockEndCheck_canonical (clearRaces_canonical (onTeam_canonical (landLanes_canonical h)))

theorem countMcast_canonical {off : Nat} {f : Nat → Nat} (h : Canonical s) : Canonical (countMcast s b off n f) := onBlock_canonical h

theorem mcastArrival_canonical {target : Nat} (h : Canonical s) : Canonical (mcastArrival b n target s) := by
  unfold mcastArrival
  dsimp only
  split
  · exact h
  · split
    · split
      · exact h
      · split
        · split
          · exact countMcast_canonical (onBlock_canonical h)
          · exact onBlock_canonical h
        · exact onBlock_canonical h
    · exact h

theorem mcastByte_canonical {src dst : Nat} {q : Nat} (h : Canonical s) : Canonical (mcastByte core src dst s q) := putSpad_canonical h

theorem mcastBytes_canonical {src dst : Nat} {qs : List Nat} (h : Canonical s) : Canonical (mcastBytes core src dst qs s) := by
  induction qs generalizing s with
  | nil => exact h
  | cons q r ih => exact ih (mcastByte_canonical h)

theorem mcastRelease_canonical {dst len : Nat} {ts : List Nat} (h : Canonical s) : Canonical (mcastRelease x dst len core ts s) := by
  induction ts generalizing s with
  | nil => exact h
  | cons t r ih =>
    unfold mcastRelease
    split
    · exact ih h
    · exact ih (blockEndCheck_canonical (countMcast_canonical h))

theorem landMcast_canonical {src dst len : Nat} {done : List Nat} {answers : Tbl Nat} (h : Canonical s) :
    Canonical (landMcast core src dst len done answers s) := setLines_canonical (mcastBytes_canonical h)

theorem mcastComplete_canonical (h : Canonical s) : Canonical (mcastComplete b n s) := by
  unfold mcastComplete
  dsimp only
  split
  · exact h
  · split
    · split
      · exact h
      · split
        · exact consumePoison_canonical h
        · exact completeCmd_canonical (mcastRelease_canonical (putSpad_canonical (landMcast_canonical h)))
    · exact h

theorem lineOfCmd_canonical {line : Nat} (h : Canonical s) : Canonical (lineOfCmd b n line s) := by
  unfold lineOfCmd
  dsimp only
  split
  · exact h
  · split
    · split
      · exact h
      · exact noteRun_canonical (copySteps_canonical (CopyRun.start_canonical h))
    · split
      · exact h
      · exact noteRun_canonical (CopyRun.start_canonical (mcastBytes_canonical h))
    · exact h

theorem lineOfCpy_canonical {id line : Nat} (h : Canonical s) : Canonical (lineOfCpy b id line s) := by
  unfold lineOfCpy
  iterate 4 (split; · exact h)
  exact onTeam_canonical (setLines_canonical (landLanes_canonical h))

theorem spfreeTakesEffect_canonical {gen : Nat} (h : Canonical s) : Canonical (spfreeTakesEffect b gen s) := onBlock_canonical h

theorem execLineSetFull_canonical {eng line : Nat} (h : Canonical s) : CanonicalOut (execLineSetFull b eng n line s) := by
  unfold execLineSetFull
  split
  · exact lineOfCmd_canonical h
  · exact lineOfCpy_canonical h

/-! ## What comes between instructions -/

theorem takeAsync_canonical {r : TrapRec} (h : Canonical s) : Canonical (takeAsync s b t e r) := by
  unfold takeAsync
  dsimp only
  split
  · exact h
  · exact onTeam_canonical (takeTrap_canonical h)

theorem leaveLatch_canonical (h : Canonical s) : Canonical (leaveLatch s b t e) := onBlock_canonical h

theorem takePending_canonical {r : TrapRec} (h : Canonical s) : Canonical (takePending s b t e r) := by
  unfold takePending
  split
  · exact takeAsync_canonical (leaveLatch_canonical h)
  · split
    · exact h
    · exact takeTrap_canonical h

theorem wdMark_canonical (h : Canonical s) : Canonical (wdMark s b t e) := onSplit_canonical h

theorem bringIn_canonical {d : Nat} (h : Canonical s) : Canonical (bringIn s b t d e) := by
  unfold bringIn
  dsimp only
  split
  · exact h
  · split
    · exact writeSlots_canonical (onTeam_canonical h)
    · exact h

theorem expireEntry_canonical {m : Team} {p : Split} (h : Canonical s) : Canonical (expireEntry s b t e m p) := by
  unfold expireEntry
  split
  · exact h
  · split
    · exact frontFault_canonical h
    · split
      · exact takeAsync_canonical (wdMark_canonical (leaveLatch_canonical h))
      · split
        · exact takeTrap_canonical h
        · exact onSplit_canonical h

theorem expireDefer_canonical {d : Nat} {m : Team} {p : Split} (h : Canonical s) : Canonical (expireDefer s b t d m p) := by
  unfold expireDefer
  split
  · split
    · exact h
    · split
      · exact takePending_canonical (bringIn_canonical h)
      · split
        · exact takeAsync_canonical (wdMark_canonical (bringIn_canonical h))
        · exact h
  · split
    · exact h
    · split
      · exact takeTrap_canonical h
      · exact onTeam_canonical h

theorem watchdogExpiry_canonical (h : Canonical s) : Canonical (watchdogExpiry b t e s) := by
  unfold watchdogExpiry
  iterate 3 (split; · exact h)
  split
  · exact expireEntry_canonical h
  · split
    · exact h
    · exact expireDefer_canonical h
  · exact h

theorem deliverDue_canonical (h : Canonical s) : Canonical (deliverDue s b t) := by
  unfold deliverDue
  dsimp only
  split
  · exact h
  · split
    · exact takePending_canonical h
    · exact watchdogExpiry_canonical h
    · exact watchdogExpiry_canonical h
    · split
      · exact takeAsync_canonical (onTeam_canonical h)
      · exact h

theorem ageSplit_canonical (h : Canonical s) : Canonical (ageSplit b t e s) := by
  unfold ageSplit
  repeat' split
  all_goals exact h

/-! ## Replay and pair compare -/

theorem deviceAsk_canonical {a : Nat} {need : Need} (h : Canonical s) : Canonical (deviceAsk s x a n need).s := askAll_canonical h

theorem deviceWritePieces_canonical {ps : List (Nat × Nat)} {bs : List Byte} (h : Canonical s) :
    Canonical (deviceWritePieces x ps bs s) := by
  induction ps generalizing bs s with
  | nil => exact h
  | cons q r ih =>
    unfold deviceWritePieces
    split
    · exact ih h
    · exact ih (writePhys_canonical _ _ _ h)

theorem deviceWrite_canonical {a : Nat} {bs : List Byte} (h : Canonical s) : Canonical (deviceWrite s x a bs) :=
  deviceWritePieces_canonical h

theorem releaseMcasts_canonical {cs : List EngCmd} (h : Canonical s) : Canonical (releaseMcasts x core cs s) := by
  induction cs generalizing s with
  | nil => exact h
  | cons c r ih =>
    unfold releaseMcasts
    split
    · split
      · exact ih h
      · exact ih (mcastRelease_canonical (landMcast_canonical h))
    · exact ih h

theorem finishTransfers_canonical {k : Block} (h : Canonical s) : Canonical (finishTransfers s k) := by
  unfold finishTransfers
  split <;> exact h

theorem dropBlock_canonical (h : Canonical s) : Canonical (dropBlock s b) := by
  unfold dropBlock
  dsimp only
  split
  · exact h
  · split
    · exact freeSlot_canonical (releaseMcasts_canonical h)
    · exact dropSeals_canonical (freeBlock_canonical (finishTransfers_canonical (freeSlot_canonical (releaseMcasts_canonical h))))

theorem dropBlocks_canonical {bs : List Nat} (h : Canonical s) : Canonical (dropBlocks bs s) := by
  induction bs generalizing s with
  | nil => exact h
  | cons b r ih => exact ih (dropBlock_canonical h)

theorem withdrawAll_canonical {ns : List Nat} (h : Canonical s) : Canonical (withdrawAll ns s) := by
  induction ns generalizing s with
  | nil => exact h
  | cons n r ih => exact ih h

theorem endBlock_canonical (h : Canonical s) : Canonical (endBlock s b) := by
  unfold endBlock
  dsimp only
  split
  · exact h
  · split
    · exact dropBlock_canonical h
    · exact retireBlock_canonical h

theorem endBlocks_canonical {bs : List Nat} (h : Canonical s) : Canonical (endBlocks bs s) := by
  induction bs generalizing s with
  | nil => exact h
  | cons b r ih => exact ih (endBlock_canonical h)

theorem haltCc_canonical (h : Canonical s) : Canonical (haltCc s n) := onCc_canonical (abortRound_canonical h)

theorem haltCcs_canonical {ns : List Nat} (h : Canonical s) : Canonical (haltCcs ns s) := by
  induction ns generalizing s with
  | nil => exact h
  | cons n r ih => exact ih (haltCc_canonical h)

theorem killContext_canonical {reason lin : Nat} {ack : Option Nat} (h : Canonical s) : Canonical (killContext s x reason lin ack) := by
  unfold killContext
  dsimp only
  split
  · exact h
  · exact releasePins_canonical (haltCcs_canonical (endBlocks_canonical (withdrawAll_canonical h)))

theorem writeBackParam_canonical (h : Canonical s) : Canonical (writeBackParam s n) := by
  unfold writeBackParam
  dsimp only
  iterate 2 (split; · exact h)
  split
  · exact putLaunch_canonical _ _ (deviceAsk_canonical h)
  · exact killContext_canonical (deviceAsk_canonical h)
  · exact deviceWrite_canonical (putLaunch_canonical _ _ (deviceAsk_canonical h))

theorem logReplay_canonical {cause replays : Nat} (h : Canonical s) : Canonical (logReplay s n cause replays x) :=
  bumpCtx_canonical _ _ (logEntry_canonical _ h)

theorem replayLaunch_canonical {cause lin : Nat} (h : Canonical s) : Canonical (replayLaunch s n cause lin) := by
  unfold replayLaunch
  dsimp only
  split
  · exact h
  · split
    · exact h
    · split
      · exact killContext_canonical h
      · exact writeBackParam_canonical (logReplay_canonical (putLaunch_canonical _ _ (withdraw_canonical
          (freePool_canonical (dropSeals_canonical (dropBlocks_canonical h))))))

theorem replayAll_canonical {cause : Nat} {ns : List Nat} (h : Canonical s) : Canonical (replayAll cause ns s) := by
  induction ns generalizing s with
  | nil => exact h
  | cons n r ih => exact ih (replayLaunch_canonical h)

theorem logRerun_canonical {l : Launch} {lin : Nat} (h : Canonical s) : Canonical (logRerun s l n core lin) := logEntry_canonical _ h

theorem rerunUnit_canonical {whole : Bool} (h : Canonical s) : Canonical (rerunUnit s b whole) := by
  unfold rerunUnit
  split
  · exact h
  · next k _ =>
    split
    · exact h
    · next l _ =>
      split
      · exact h
      · split
        · exact killContext_canonical h
        · split
          · exact replayLaunch_canonical h
          · exact logRerun_canonical (putLaunch_canonical _ _ (freePool_canonical (dropSeals_canonical (dropBlocks_canonical h))))

/-! ## A collective context's instructions -/

theorem fuset_canonical {op : Nat} {o : FOps} {body : Nat → Cc → State} (hbody : ∀ n c, Canonical (body n c))
    (h : Canonical s) : CanonicalOut (fuset op o s body) := by
  unfold fuset
  split
  · dsimp only
    split
    · split
      · exact hbody _ _
      · exact ccFault_canonical h
    · trivial
  · trivial

theorem ccAfter_canonical {r : CcAsk} {go : State → State} (h : Canonical r.s) (hgo : KeepsCanonical go) : Canonical (ccAfter n r go) := by
  unfold ccAfter
  split
  · exact h
  · split
    · exact ccFault_canonical h
    · exact hgo _ h

theorem askFrom_canonical (h : Canonical s) : Canonical (askFrom s).s := h

theorem ccWith_canonical {need : Need} {both load : Bool} {a len : Nat} {go : State → State} (h : Canonical s) (hgo : KeepsCanonical go) :
    Canonical (ccWith n need both load a len s go) := ccAfter_canonical (ccAsks_canonical (askFrom_canonical h)) hgo

theorem fusetAlu_canonical {op : Nat} {o : FOps} {f : DWord → DWord → DWord} (h : Canonical s) : CanonicalOut (fusetAlu op o s f) :=
  fuset_canonical (fun _ _ => h) h

theorem execFusetLi_canonical {o : FOps} (h : Canonical s) : CanonicalOut (execFusetLi o s) := by
  unfold execFusetLi
  exact fuset_canonical (fun _ _ => h) h

theorem fusetMem_canonical {need : Need} {load : Bool} {a : DWord} {go : State → State} (h : Canonical s) (hgo : KeepsCanonical go) :
    Canonical (fusetMem n need load a s go) := by
  unfold fusetMem
  split
  · exact ccFault_canonical h
  · exact ccWith_canonical h hgo

theorem execFusetLd_canonical {o : FOps} (h : Canonical s) : CanonicalOut (execFusetLd o s) := by
  unfold execFusetLd
  dsimp only
  refine fuset_canonical (fun _ _ => fusetMem_canonical h (fun s h' => ?_)) h
  split
  · exact fabricPoison_canonical (ccPut_canonical (ccTouch_canonical h'))
  · exact ccPut_canonical (ccTouch_canonical h')

theorem execFusetSt_canonical {o : FOps} (h : Canonical s) : CanonicalOut (execFusetSt o s) := by
  unfold execFusetSt
  exact fuset_canonical (fun _ _ => fusetMem_canonical h (fun _ h' => ccDone_canonical (ccWrite_canonical h'))) h

theorem execFusetBr_canonical {o : FOps} (h : Canonical s) : CanonicalOut (execFusetBr o s) := by
  unfold execFusetBr
  exact fuset_canonical (fun _ _ => h) h

theorem execFusetBz_canonical {o : FOps} (h : Canonical s) : CanonicalOut (execFusetBz o s) := by
  unfold execFusetBz
  refine fuset_canonical (fun n c => ?_) h
  split <;> exact h

theorem execFusetBnz_canonical {o : FOps} (h : Canonical s) : CanonicalOut (execFusetBnz o s) := by
  unfold execFusetBnz
  refine fuset_canonical (fun n c => ?_) h
  split <;> exact h

theorem execFusetCall_canonical {o : FOps} (h : Canonical s) : CanonicalOut (execFusetCall o s) := by
  unfold execFusetCall
  refine fuset_canonical (fun n c => ?_) h
  split
  · exact ccFault_canonical h
  · exact h

theorem execFusetRet_canonical {o : FOps} (h : Canonical s) : CanonicalOut (execFusetRet o s) := by
  unfold execFusetRet
  refine fuset_canonical (fun n c => ?_) h
  split
  · exact ccFault_canonical h
  · exact h

theorem withRing_canonical {a : Nat} {go : Ring → State → State} (h : Canonical s) (hgo : ∀ r, KeepsCanonical (go r)) :
    Canonical (withRing n a s go) := by
  unfold withRing
  split
  · exact ccFault_canonical h
  · refine ccWith_canonical h (fun s h' => ?_)
    dsimp only
    split
    · exact ccFault_canonical h'
    · refine ccWith_canonical h' (fun s h' => ?_)
      split
      · exact ccFault_canonical h'
      · exact hgo _ _ (ccTouch_canonical h')

theorem execFusetRing_canonical {o : FOps} (h : Canonical s) : CanonicalOut (execFusetRing o s) := by
  unfold execFusetRing
  refine fuset_canonical (fun n c => ?_) h
  split
  · exact ccFault_canonical h
  · exact withRing_canonical h (fun _ _ h' => h')

theorem execFusetReform_canonical {o : FOps} (h : Canonical s) : CanonicalOut (execFusetReform o s) := by
  unfold execFusetReform
  refine fuset_canonical (fun n c => ?_) h
  split
  · exact ccFault_canonical h
  · refine withRing_canonical h (fun r s h' => ?_)
    split
    · exact ccFault_canonical h'
    · exact h'

theorem execFusetWaitsb_canonical {o : FOps} (h : Canonical s) : CanonicalOut (execFusetWaitsb o s) := by
  unfold execFusetWaitsb
  dsimp only
  refine fuset_canonical (fun n c => ?_) h
  split
  · exact ccFault_canonical h
  · split <;> exact h

theorem execFusetWaittl_canonical {o : FOps} (h : Canonical s) : CanonicalOut (execFusetWaittl o s) := by
  unfold execFusetWaittl
  dsimp only
  refine fuset_canonical (fun n c => ?_) h
  split
  · exact ccFault_canonical h
  · split <;> exact h

theorem execFusetSigtl_canonical {o : FOps} (h : Canonical s) : CanonicalOut (execFusetSigtl o s) := by
  unfold execFusetSigtl
  exact fuset_canonical (fun _ _ => ccDone_canonical (raiseTl_canonical h)) h

theorem execFusetHalt_canonical {o : FOps} (h : Canonical s) : CanonicalOut (execFusetHalt o s) := by
  unfold execFusetHalt
  exact fuset_canonical (fun _ _ => emit_canonical _ h) h

theorem execFusetReservedOpcode_canonical (w : DWord) (h : Canonical s) : CanonicalOut (execFusetReservedOpcode w s) := by
  unfold execFusetReservedOpcode
  split
  · split
    · exact ccFault_canonical h
    · trivial
  · trivial

/-! ## The tile table and its rounds -/

theorem armEntry_canonical {im : TileImage} (h : Canonical s) : Canonical (armEntry n x im s) := by
  unfold armEntry
  dsimp only
  split
  · exact tryFire_canonical (openSlot_canonical h)
  · exact tryFire_canonical h

theorem execFusetArm_canonical {o : FOps} (h : Canonical s) : CanonicalOut (execFusetArm o s) := by
  unfold execFusetArm
  dsimp only
  refine fuset_canonical (fun n c => ?_) h
  iterate 4 (split; · exact ccFault_canonical h)
  refine ccWith_canonical h (fun s h' => ?_)
  iterate 2 (split; · exact ccFault_canonical h')
  exact ccDone_canonical (armEntry_canonical (ccTouch_canonical h'))

theorem execFusetDisarm_canonical {o : FOps} (h : Canonical s) : CanonicalOut (execFusetDisarm o s) := by
  unfold execFusetDisarm
  dsimp only
  refine fuset_canonical (fun n c => ?_) h
  split
  · exact ccFault_canonical h
  · exact h

theorem execFusetPost_canonical {o : FOps} (h : Canonical s) : CanonicalOut (execFusetPost o s) := by
  unfold execFusetPost
  dsimp only
  refine fuset_canonical (fun n c => ?_) h
  iterate 2 (split; · exact ccFault_canonical h)
  split
  · exact h
  · split
    · exact ccFault_canonical h
    · exact ccDone_canonical (openSlot_canonical h)

theorem execFusetWaitpost_canonical {o : FOps} (h : Canonical s) : CanonicalOut (execFusetWaitpost o s) := by
  unfold execFusetWaitpost
  dsimp only
  refine fuset_canonical (fun n c => ?_) h
  split
  · exact ccFault_canonical h
  · split <;> exact h

theorem execFusetTtw_canonical {o : FOps} (h : Canonical s) : CanonicalOut (execFusetTtw o s) := by
  unfold execFusetTtw
  dsimp only
  refine fuset_canonical (fun n c => ?_) h
  split
  · exact ccFault_canonical h
  · repeat' split
    all_goals exact h

theorem resendAll_canonical {f : Firing} {qs : List (Nat × Nat)} (h : Canonical s) : Canonical (resendAll n x f qs s) := by
  induction qs generalizing s with
  | nil => exact h
  | cons q r ih => exact ih (sendBlock_canonical h)

theorem sendEnd_canonical {d : BitVec 5} (h : Canonical s) : Canonical (sendEnd s n x d) := by
  unfold sendEnd
  dsimp only
  repeat' split
  all_goals exact h

theorem execFusetSend_canonical {o : FOps} (h : Canonical s) : CanonicalOut (execFusetSend o s) := by
  unfold execFusetSend
  dsimp only
  refine fuset_canonical (fun n c => ?_) h
  split
  · exact ccFault_canonical h
  · split
    · exact h
    · split
      · exact sendEnd_canonical h
      · iterate 2 (split; · exact ccFault_canonical h)
        exact sendEnd_canonical (onCc_canonical (resendAll_canonical h))

theorem execFusetTmo_canonical {o : FOps} (h : Canonical s) : CanonicalOut (execFusetTmo o s) := by
  unfold execFusetTmo
  dsimp only
  refine fuset_canonical (fun n c => ?_) h
  split
  · exact ccFault_canonical h
  · exact h

theorem execFusetRound_canonical {o : FOps} (h : Canonical s) : CanonicalOut (execFusetRound o s) := by
  unfold execFusetRound
  dsimp only
  refine fuset_canonical (fun n c => ?_) h
  split
  · exact ccFault_canonical h
  · exact h

theorem execFusetWaitrd_canonical {o : FOps} (h : Canonical s) : CanonicalOut (execFusetWaitrd o s) := by
  unfold execFusetWaitrd
  dsimp only
  refine fuset_canonical (fun n c => ?_) h
  repeat' split
  all_goals exact h

theorem execFusetAbort_canonical {o : FOps} (h : Canonical s) : CanonicalOut (execFusetAbort o s) := by
  unfold execFusetAbort
  exact fuset_canonical (fun _ _ => ccDone_canonical (abortRound_canonical h)) h

theorem execFusetStatus_canonical {o : FOps} (h : Canonical s) : CanonicalOut (execFusetStatus o s) := by
  unfold execFusetStatus
  refine fuset_canonical (fun n c => ?_) h
  split
  · exact ccFault_canonical h
  · exact h

/-! ## Whey objects -/

theorem execFusetWalloc_canonical {o : FOps} (h : Canonical s) : CanonicalOut (execFusetWalloc o s) := by
  unfold execFusetWalloc
  dsimp only
  refine fuset_canonical (fun n c => ?_) h
  split
  · exact ccFault_canonical h
  · split
    · exact h
    · exact ccWith_canonical h (fun _ h' => ccPut_canonical (onCc_canonical (ccWrite_canonical h')))

theorem execFusetWfree_canonical {o : FOps} (h : Canonical s) : CanonicalOut (execFusetWfree o s) := by
  unfold execFusetWfree
  dsimp only
  refine fuset_canonical (fun n c => ?_) h
  iterate 2 (split; · exact ccFault_canonical h)
  split <;> exact h

theorem onWhey_canonical {op : Nat} {o : FOps} {body : Nat → Cc → Nat → WheyObj → State} (hbody : ∀ n c x w, Canonical (body n c x w))
    (h : Canonical s) : CanonicalOut (onWhey op o s body) := by
  refine fuset_canonical (fun n c => ?_) h
  dsimp only
  split
  · exact ccFault_canonical h
  · split
    · exact ccFault_canonical h
    · split
      · exact ccFault_canonical h
      · exact hbody _ _ _ _

theorem sealCopy_canonical {a len : Nat} (h : Canonical s) : Canonical (sealCopy n a len s) := addSeal_canonical h

theorem execFusetWckpt_canonical {o : FOps} (h : Canonical s) : CanonicalOut (execFusetWckpt o s) := by
  unfold execFusetWckpt
  dsimp only
  refine onWhey_canonical (fun n c x w => ?_) h
  split
  · exact ccFault_canonical h
  · exact ccAfter_canonical (ccAsks_canonical (ccAsks_canonical (askFrom_canonical h))) (fun _ h' => ccDone_canonical (onCc_canonical
      (sealCopy_canonical (ccWrite_canonical (ccTouch_canonical h')))))

theorem execFusetWrest_canonical {o : FOps} (h : Canonical s) : CanonicalOut (execFusetWrest o s) := by
  unfold execFusetWrest
  dsimp only
  refine onWhey_canonical (fun n c x w => ?_) h
  split
  · exact ccFault_canonical h
  · refine ccWith_canonical h (fun s h' => ?_)
    split
    · exact ccFault_canonical h'
    · exact ccAfter_canonical (ccAsks_canonical (ccAsks_canonical (askFrom_canonical h'))) (fun _ h' => ccPut_canonical (onCc_canonical
        (ccWrite_canonical (ccTouch_canonical h'))))

theorem foldChunk_canonical {w : WheyObj} {chunk : Nat} (h : Canonical s) : Canonical (foldChunk n w s chunk) := ccWrite_canonical h

theorem execFusetWfold_canonical {o : FOps} (h : Canonical s) : CanonicalOut (execFusetWfold o s) := by
  unfold execFusetWfold
  exact onWhey_canonical (fun _ _ _ _ => ccWith_canonical h (fun _ h' => ccDone_canonical (onCc_canonical (foldl_canonical
    (fun _ _ h' => foldChunk_canonical h') (ccTouch_canonical h'))))) h

/-! ## Reform -/

theorem signalRecord_canonical {v : Nat} (h : Canonical s) : Canonical (signalRecord s x sel v) := by
  unfold signalRecord
  split
  · exact raiseTl_canonical h
  · exact bumpCtx_canonical _ _ h

theorem answerRecord_canonical {a off : Nat} {bs : List Byte} (h : Canonical s) : Canonical (answerRecord n a off bs s) :=
  signalRecord_canonical (ccWrite_canonical h)

theorem answerRing_canonical {a newgen restart next : Nat} {ranks : List Nat} (h : Canonical s) :
    Canonical (answerRing n a newgen restart next ranks s) := answerRecord_canonical (ccWrite_canonical h)

theorem closeReform_canonical {r : Reform} (h : Canonical s) : Canonical (closeReform s r) := by
  unfold closeReform
  dsimp only
  split
  · exact sendMsgs_canonical h
  · exact h

theorem checkReform_canonical {r : Reform} (h : Canonical s) : Canonical (checkReform s r) := by
  unfold checkReform
  split
  · exact closeReform_canonical h
  · exact h

theorem startReform_canonical {a : Nat} (h : Canonical s) : Canonical (startReform s n a) := by
  unfold startReform
  dsimp only
  split
  · exact answerRecord_canonical h
  · exact checkReform_canonical (sendMsgs_canonical h)

theorem dutyAsk_canonical {d : FwDuty} (h : Canonical s) : Canonical (dutyAsk s d).s := by
  unfold dutyAsk
  dsimp only
  split
  · split
    · exact deviceAsk_canonical h
    · exact deviceAsk_canonical (deviceAsk_canonical h)
  · exact deviceAsk_canonical h

theorem dutyDone_canonical {d : FwDuty} (h : Canonical s) : Canonical (dutyDone d s) := by
  unfold dutyDone
  split
  · exact startReform_canonical h
  · exact answerRecord_canonical h
  · exact answerRing_canonical h

theorem doDuty_canonical {d : FwDuty} (h : Canonical s) : Canonical (doDuty d s) := by
  unfold doDuty
  dsimp only
  split
  · exact h
  · iterate 2 (split; · exact dutyAsk_canonical h)
    exact dutyDone_canonical (dutyAsk_canonical h)

theorem doDuties_canonical {ds : List FwDuty} (h : Canonical s) : Canonical (doDuties ds s) := by
  induction ds generalizing s with
  | nil => exact h
  | cons d r ih => exact ih (doDuty_canonical h)

theorem retryDuties_canonical {page : Nat} {fails : Bool} (h : Canonical s) : Canonical (retryDuties x page fails s) := doDuties_canonical h

theorem execFusetEvent_canonical {o : FOps} (h : Canonical s) : CanonicalOut (execFusetEvent o s) := by
  unfold execFusetEvent
  dsimp only
  refine fuset_canonical (fun n c => ?_) h
  split
  · exact ccFault_canonical h
  · split
    · exact doDuty_canonical (ccDone_canonical (emit_canonical _ h))
    · exact ccDone_canonical (emit_canonical _ h)

theorem earlyReport_canonical {h : Hdr} {lastck curround : Nat} (hs : Canonical s) : Canonical (earlyReport s h lastck curround) := by
  unfold earlyReport
  dsimp only
  split <;> exact hs

theorem reportArrives_canonical {h : Hdr} {lastck curround : Nat} (hs : Canonical s) : Canonical (reportArrives s h lastck curround) := by
  unfold reportArrives
  split
  · exact hs
  · split
    · exact earlyReport_canonical hs
    · split
      · split
        · exact hs
        · exact sendMsg_canonical hs
      · split
        · exact hs
        · exact checkReform_canonical hs

theorem resultsArrive_canonical {h : Hdr} {newgen restart next : Nat} {ranks : List Nat} (hs : Canonical s) :
    Canonical (resultsArrive s h newgen restart next ranks) := by
  unfold resultsArrive
  iterate 3 (split; · exact hs)
  exact doDuty_canonical hs

theorem execReformReport_canonical {m : Msg} (h : Canonical s) : CanonicalOut (execReformReport m s) := by
  refine onMsg_canonical h (fun u t hu e => ?_)
  split at e
  · obtain rfl := Option.some.inj e
    exact reportArrives_canonical hu
  · cases e

theorem execReformCollectionEnd_canonical {cc : Nat} (h : Canonical s) : CanonicalOut (execReformCollectionEnd cc s) := by
  unfold execReformCollectionEnd
  split
  · exact h
  · exact closeReform_canonical h

theorem execReformResults_canonical {m : Msg} (h : Canonical s) : CanonicalOut (execReformResults m s) := by
  refine onMsg_canonical h (fun u t hu e => ?_)
  split at e
  · obtain rfl := Option.some.inj e
    exact resultsArrive_canonical hu
  · cases e

/-! ## Fault records -/

theorem retryPops_canonical {qs : List (Nat × Nat)} (h : Canonical s) : Canonical (retryPops qs s) := by
  induction qs generalizing s with
  | nil => exact h
  | cons q r ih => exact ih (settleTeam_canonical h)

theorem runAllSteps_canonical {ns : List Nat} (h : Canonical s) : Canonical (runAllSteps ns s) := runStepsOf_canonical h

theorem rejectPlaced_canonical (h : Canonical s) : Canonical (rejectPlaced s n) := by
  unfold rejectPlaced
  split
  · exact h
  · exact emit_canonical _ h

theorem failParams_canonical {page : Nat} {ns : List Nat} (h : Canonical s) : Canonical (failParams page x ns s) := by
  induction ns generalizing s with
  | nil => exact h
  | cons n r ih =>
    unfold failParams
    split
    · exact ih h
    · split
      · split
        · exact ih (killContext_canonical h)
        · exact ih (rejectPlaced_canonical h)
      · exact ih h

theorem failSaves_canonical {page : Nat} {bs : List Nat} (h : Canonical s) : Canonical (failSaves page x bs s) := by
  induction bs generalizing s with
  | nil => exact h
  | cons b r ih =>
    unfold failSaves
    split
    · exact ih h
    · split
      · exact ih (killContext_canonical h)
      · exact ih h

theorem recordsGone_canonical {page : Nat} {fails : Bool} (h : Canonical s) : Canonical (recordsGone s x page fails) :=
  runAllSteps_canonical (retryDuties_canonical (retryPops_canonical h))

theorem closeRecord_canonical {r : FaultRec} {fails : Bool} (h : Canonical s) : Canonical (closeRecord s r fails) := by
  unfold closeRecord
  dsimp only
  split
  · exact recordsGone_canonical (failSaves_canonical (failParams_canonical h))
  · exact recordsGone_canonical h

theorem rewalk_canonical {r : FaultRec} (h : Canonical s) : Canonical (rewalk s r) := by
  unfold rewalk
  split
  · exact closeRecord_canonical h
  · exact joinRecord_canonical h

theorem zeroPage_canonical {pa : Nat} (h : Canonical s) : Canonical (zeroPage s pa) :=
  ⟨Sparse.wf_filter (w := 8) _ _ h.1, h.2⟩

theorem fillDemandZero_canonical {t : State} {r : FaultRec} (h : Canonical s) (g : fillDemandZero s r = some t) : Canonical t := by
  unfold fillDemandZero at g
  dsimp only at g
  split at g
  · cases g
    exact writePhys_canonical _ _ _ (zeroPage_canonical h)
  · cases g

theorem firmwareResolves_canonical {r : FaultRec} (h : Canonical s) : Canonical (firmwareResolves s r) := by
  unfold firmwareResolves
  split
  · exact closeRecord_canonical h
  · split
    · exact closeRecord_canonical h
    · next s1 g => exact closeRecord_canonical (fillDemandZero_canonical h g)
  · exact closeRecord_canonical h

theorem execFaultRecordResolution_canonical (h : Canonical s) : CanonicalOut (execFaultRecordResolution n s) := by
  unfold execFaultRecordResolution
  split
  · exact h
  · exact firmwareResolves_canonical h

theorem killMapped_canonical {dp : Nat} {qs : List (Nat × Nat × Nat)} (h : Canonical s) : Canonical (killMapped core dp qs s) := by
  induction qs generalizing s with
  | nil => exact h
  | cons q r ih => exact ih (countDeath_canonical (laneDeath_canonical h))

theorem churnError_canonical {blk : Nat} (h : Canonical s) : Canonical (churnError n e blk s) := by
  unfold churnError
  split
  · exact h
  · split
    · exact settleRound_canonical (stepBlockAs_canonical (stepBlockAs_canonical h))
    · exact h

theorem logPoison_canonical {unit place addr aux : Nat} (h : Canonical s) : Canonical (logPoison unit place addr aux s) :=
  logEntry_canonical _ h

theorem poisonWord_canonical {pa : Nat} (h : Canonical s) : Canonical (poisonWord pa s) := logPoison_canonical h

theorem poisonSpad_canonical {off : Nat} (h : Canonical s) : Canonical (poisonSpad core off s) := logPoison_canonical h

theorem poisonAcc_canonical {w : Nat} (h : Canonical s) : Canonical (poisonAcc core w s) := logPoison_canonical h

theorem poisonRegister_canonical {l : Nat} (h : Canonical s) : Canonical (poisonRegister b t n l s) := by
  unfold poisonRegister
  split
  · split
    · exact h
    · exact logPoison_canonical (onTeam_canonical h)
  · exact h

theorem softError_canonical {w : ErrorSite} (h : Canonical s) : Canonical (softError w s) := by
  unfold softError
  split
  · split
    · exact laneDeath_canonical h
    · exact rerunUnit_canonical h
  · exact killMapped_canonical h
  · exact rerunUnit_canonical h
  · exact rerunUnit_canonical h
  · exact rerunUnit_canonical h
  · exact churnError_canonical h
  · exact replayAll_canonical h
  · split
    · exact poisonWord_canonical h
    · exact h
  · split
    · exact poisonSpad_canonical h
    · exact h
  · split
    · exact poisonAcc_canonical h
    · exact h
  · exact poisonRegister_canonical h

theorem doDue_canonical (h : Canonical s) : Canonical (doDue s) := by
  unfold doDue
  split
  · exact h
  · exact replayLaunch_canonical h
  · exact rerunUnit_canonical h

theorem blockCommit_canonical {u : Nat} (h : Canonical s) : Canonical (blockCommit n u s) := by
  unfold blockCommit
  iterate 2 (split; · exact h)
  split
  · split
    · exact launchEndCheck_canonical (commitLaunch_canonical h)
    · exact h
  · split
    · exact launchEndCheck_canonical (commitBlock_canonical h)
    · exact h

theorem dropCopy_canonical {g pos copy : Nat} (h : Canonical s) : Canonical (dropCopy n g pos copy s) := by
  unfold dropCopy
  dsimp only
  repeat' split
  all_goals exact h

theorem dropCopies_canonical {g pos : Nat} {cs : List Nat} (h : Canonical s) : Canonical (dropCopies n g pos cs s) := by
  induction cs generalizing s with
  | nil => exact h
  | cons c r ih => exact ih (dropCopy_canonical h)

theorem confirmBlock_canonical {lin copy : Nat} {l : Launch} (h : Canonical s) : Canonical (confirmBlock s n lin copy l) := by
  unfold confirmBlock
  dsimp only
  split
  · exact dropCopies_canonical (commitBlock_canonical h)
  · exact launchEndCheck_canonical (retireEnded_canonical (putLaunch_canonical _ _ (dropCopies_canonical (commitBlock_canonical h))))

theorem logMismatch_canonical {lin : Nat} {l : Launch} {a b : Nat × DWord × Nat} (h : Canonical s) :
    Canonical (logMismatch s n lin l a b) := by
  unfold logMismatch
  split
  · exact h
  · exact logEntry_canonical _ h

theorem thirdCopy_canonical {g : Nat} (h : Canonical s) : Canonical (thirdCopy s n g) := by
  unfold thirdCopy
  split <;> exact h

theorem pairCompare_canonical {lin : Nat} (h : Canonical s) : Canonical (pairCompare n lin s) := by
  unfold pairCompare
  dsimp only
  iterate 2 (split; · exact h)
  split
  · split
    · exact confirmBlock_canonical h
    · split
      · split
        · exact logMismatch_canonical h
        · split
          · exact replayLaunch_canonical (logMismatch_canonical h)
          · exact thirdCopy_canonical (logMismatch_canonical h)
      · iterate 2 (split; · exact confirmBlock_canonical (logMismatch_canonical h))
        exact replayLaunch_canonical (logMismatch_canonical h)
  · exact h

theorem harvest_canonical (h : Canonical s) : Canonical (harvest s) := by
  unfold harvest
  dsimp only
  split
  · exact h
  · exact ⟨h.1, Memory.wf_writeBytes _ _ _ h.2.1, h.2.2⟩

theorem logKill_canonical {c : Ctx} (h : Canonical s) : Canonical (logKill s x c) := logEntry_canonical _ h

theorem killComplete_canonical (h : Canonical s) : Canonical (killComplete x s) := by
  unfold killComplete
  dsimp only
  split
  · exact h
  · split
    · exact emit_canonical _ (logKill_canonical h)
    · exact emit_canonical _ (emit_canonical _ (logKill_canonical h))

/-! ## Distribution -/

theorem becomeReady_canonical (h : Canonical s) : Canonical (becomeReady s n) := by
  unfold becomeReady
  dsimp only
  iterate 2 (split; · exact h)
  split
  · exact emit_canonical _ h
  · exact h

theorem readyAll_canonical {ns : List Nat} (h : Canonical s) : Canonical (readyAll ns s) := by
  induction ns generalizing s with
  | nil => exact h
  | cons n r ih => exact ih (becomeReady_canonical h)

/-- The state a parameter copy leaves, and the one it goes on with, where it goes on. -/
theorem copyParam_canonical {l : Launch} (h : Canonical s) :
    Canonical (copyParam s n l).2 ∧ ∀ t, (copyParam s n l).1 = some t → Canonical t := by
  unfold copyParam
  split
  · exact ⟨h, fun t e => by cases e; exact h⟩
  · split
    · exact ⟨h, fun t e => by cases e⟩
    · have h1 := deviceAsk_canonical (x := l.ctx) (a := l.lr.param.toNat) (n := 256) (need := needR) h
      dsimp only
      split
      · exact ⟨h1, fun t e => by cases e⟩
      · exact ⟨rejectPlaced_canonical h1, fun t e => by cases e⟩
      · exact ⟨h1, fun t e => by cases e; exact h1⟩

theorem takeScratch_canonical {r : LaunchRec} (h : Canonical s) : Canonical (takeScratch s core r).2.2 := by
  unfold takeScratch
  dsimp only
  split
  · exact h
  · exact clearSpad_canonical h

theorem placeBlock_canonical {l : Launch} {u : GangUnit} {pos : Nat} (h : Canonical s) :
    Canonical (placeBlock n l u pos core s) := by
  unfold placeBlock
  exact takeScratch_canonical h

theorem placeBlocks_canonical {l : Launch} {u : GangUnit} {pos : Nat} {cores : List Nat} (h : Canonical s) :
    Canonical (placeBlocks n l u pos cores s) := by
  induction cores generalizing pos s with
  | nil => exact h
  | cons c r ih => exact ih (placeBlock_canonical h)

theorem placeGang_canonical {g k : Nat} {cores : List Nat} (h : Canonical s) : Canonical (placeGang n g k cores s) := by
  have h0 := becomeReady_canonical (n := n) h
  unfold placeGang
  dsimp only
  split
  · exact h0
  · next l _ =>
    split
    · exact h0
    · split
      · exact h0
      · have hc := copyParam_canonical (n := n) (l := l) h0
        split
        · next e =>
          rw [e] at hc
          exact hc.1
        · next s1 _ e =>
          have h1 : Canonical s1 := hc.2 s1 (by rw [e])
          split
          · exact h1
          · exact (placeBlocks_canonical (withdraw_canonical h1)).same ⟨rfl, rfl, rfl, rfl, rfl⟩

theorem watchLaunch_canonical (h : Canonical s) : Canonical (watchLaunch s n) := by
  unfold watchLaunch
  dsimp only
  iterate 2 (split; · exact writeBackParam_canonical (becomeReady_canonical h))
  exact withdrawOn_canonical (putLaunch_canonical _ _ (writeBackParam_canonical (becomeReady_canonical h)))

theorem watchAll_canonical {ns : List Nat} (h : Canonical s) : Canonical (watchAll ns s) := by
  induction ns generalizing s with
  | nil => exact h
  | cons n r ih => exact ih (watchLaunch_canonical h)

theorem watch_canonical (h : Canonical s) : Canonical (watch s) := watchAll_canonical h

/-! ## Save and restore -/

theorem saveBlockStart_canonical (h : Canonical s) : Canonical (saveBlockStart s b) := by
  unfold saveBlockStart
  dsimp only
  repeat' split
  all_goals exact h

theorem saveBlocksStart_canonical {bs : List Nat} (h : Canonical s) : Canonical (saveBlocksStart bs s) := by
  induction bs generalizing s with
  | nil => exact h
  | cons b r ih => exact ih (saveBlockStart_canonical h)

theorem startSave_canonical {t : State} {g c : Nat} (h : Canonical s) (e : startSave s n g c = some t) : Canonical t := by
  unfold startSave at e
  split at e
  · cases e
  · dsimp only at e
    split at e
    · cases e
      exact saveBlocksStart_canonical h
    · cases e

theorem startSave_getD_canonical {t : State} {g c : Nat} (h : Canonical s) (ht : Canonical t) :
    Canonical ((startSave s n g c).getD t) := by
  cases e : startSave s n g c with
  | none => exact ht
  | some u => exact startSave_canonical h e

theorem postShrink_canonical {c : Nat} (h : Canonical s) : Canonical (postShrink s n b c) := onBlock_canonical h

theorem postShrinks_canonical {qs : List (Nat × Nat)} (h : Canonical s) : Canonical (postShrinks n qs s) := by
  induction qs generalizing s with
  | nil => exact h
  | cons q r ih => exact ih (postShrink_canonical h)

theorem startSaves_canonical {gs : List (Nat × Nat × Nat)} (h : Canonical s) : Canonical (startSaves gs s) := by
  induction gs generalizing s with
  | nil => exact h
  | cons q r ih => exact ih (startSave_getD_canonical h h)

theorem refuseSlots_canonical {gs : List (Nat × Nat × Nat)} (h : Canonical s) : Canonical (refuseSlots gs s) := by
  induction gs generalizing s with
  | nil => exact h
  | cons q r ih =>
    unfold refuseSlots
    split
    · exact ih h
    · exact ih (bumpCtx_canonical _ _ h)

theorem makeRoom_canonical {c : Nat} {l : Launch} {u : GangUnit} (h : Canonical s) : Canonical (makeRoom s n c l u) := by
  unfold makeRoom
  dsimp only
  split
  · exact startSaves_canonical (postShrinks_canonical (refuseSlots_canonical h))
  · exact refuseSlots_canonical h

theorem waitAgain_canonical {c : Nat} (h : Canonical s) : Canonical (waitAgain n c s) := by
  unfold waitAgain
  split <;> exact h

theorem shrinkBlocked_canonical {g c : Nat} (h : Canonical s) : Canonical (shrinkBlocked n g c s) := by
  unfold shrinkBlocked
  iterate 2 (split; · exact h)
  split
  · exact waitAgain_canonical (makeRoom_canonical h)
  · exact h

theorem shrinkExpires_canonical (h : Canonical s) : Canonical (shrinkExpires b s) := by
  unfold shrinkExpires
  split
  · exact h
  · split
    · exact h
    · dsimp only
      split
      · exact h
      · exact startSave_getD_canonical h (bumpCtx_canonical _ _ h)

theorem writeAreas_canonical {a : Nat} {qs : List (Nat × List Byte)} (h : Canonical s) : Canonical (writeAreas x a qs s) := by
  induction qs generalizing s with
  | nil => exact h
  | cons q r ih => exact ih (deviceWrite_canonical h)

theorem writeImage_canonical {k : Block} (h : Canonical s) : Canonical (writeImage s x k) := by
  unfold writeImage
  extract_lets a s1 s2 s3
  have h2 : Canonical s2 := deviceWrite_canonical (writeAreas_canonical h)
  have h3 : Canonical s3 := foldl_canonical (fun _ _ ht => deviceWrite_canonical ht) h2
  exact foldl_canonical (fun _ _ ht => deviceWrite_canonical ht) h3

theorem storeSpills_canonical {qs : List (Team × Nat × Nat × BitVec 56)} (h : Canonical s) : Canonical (storeSpills x qs s) := by
  induction qs generalizing s with
  | nil =>
    unfold storeSpills
    exact h
  | cons q r ih =>
    unfold storeSpills
    exact ih (deviceWrite_canonical h)

theorem leaveCore_canonical {k : Block} (h : Canonical s) : Canonical (leaveCore k s) := by
  unfold leaveCore
  extract_lets keys s1
  have h1 : Canonical s1 := by
    unfold s1
    split
    · exact h
    · exact clearAcc_canonical h
  exact foldl_canonical (fun _ _ ht => clearSpad_canonical ht) h1

theorem saveBlock_canonical (h : Canonical s) : Canonical (saveBlock s b) := by
  unfold saveBlock
  dsimp only
  split
  · exact h
  · exact putBlock_canonical _ _ (leaveCore_canonical (writeImage_canonical (storeSpills_canonical h)))

theorem saveBlocks_canonical {bs : List Nat} (h : Canonical s) : Canonical (saveBlocks bs s) := by
  induction bs generalizing s with
  | nil => exact h
  | cons b r ih => exact ih (saveBlock_canonical h)

theorem gangMoves_canonical {bs : List Nat} {asks : List Ask} {bad : Bool} {go : State → State} (h : Canonical s)
    (hgo : KeepsCanonical go) :
    Canonical (gangMoves s b bs asks bad go) := by
  unfold gangMoves
  dsimp only
  split
  · exact killContext_canonical (askAll_canonical h)
  · split
    · exact onBlock_canonical (askAll_canonical h)
    · exact hgo _ (foldl_canonical (fun _ _ h' => onBlock_canonical h') (askAll_canonical h))

theorem deathsOf_canonical {qs : List (Nat × List Nat)} (h : Canonical s) : Canonical (deathsOf b qs s) := by
  induction qs generalizing s with
  | nil => exact h
  | cons q r ih => exact ih (laneDeaths_canonical h)

theorem deathsIn_canonical {bs : List (Nat × List (Nat × List Nat))} (h : Canonical s) : Canonical (deathsIn bs s) := by
  induction bs generalizing s with
  | nil => exact h
  | cons q r ih => exact ih (deathsOf_canonical h)

theorem saveComplete_canonical (h : Canonical s) : Canonical (saveComplete b s) := by
  unfold saveComplete
  dsimp only
  iterate 2 (split; · exact h)
  split
  · exact consumePoison_canonical h
  · exact gangMoves_canonical (deathsIn_canonical h) (fun _ h' => saveBlocks_canonical h')

theorem fillCore_canonical {k : Block} (h : Canonical s) : Canonical (fillCore x k s) := by
  unfold fillCore
  change Canonical (List.foldl _ _ k.handles)
  refine foldl_canonical (fun a t ht => ?_) (foldl_canonical (fun a t ht => putSpad_canonical (clearSpad_canonical ht)) h)
  exact ⟨ht.1, ht.2.1, ht.2.2.1, ht.2.2.2.1, wf_foldl_set _ _ _ _ ht.2.2.2.2⟩

theorem holdCore_canonical (h : Canonical s) : Canonical (holdCore b core s) := onBlock_canonical h

theorem holdCores_canonical {bs cores : List Nat} (h : Canonical s) : Canonical (holdCores bs cores s) := by
  induction bs generalizing cores s with
  | nil => exact h
  | cons b r ih =>
    cases cores with
    | nil => exact h
    | cons c q => exact ih (holdCore_canonical h)

theorem restoreBlock_canonical (h : Canonical s) : Canonical (restoreBlock b s) := by
  unfold restoreBlock
  dsimp only
  split
  · exact h
  · exact onBlock_canonical (freeSlot_canonical (putBlock_canonical _ _ (fillCore_canonical h)))

theorem restoreBlocks_canonical {bs : List Nat} (h : Canonical s) : Canonical (restoreBlocks bs s) := by
  induction bs generalizing s with
  | nil => exact h
  | cons b r ih => exact ih (restoreBlock_canonical h)

theorem restoreStart_canonical {u : GangUnit} {cores : List Nat} (h : Canonical s) :
    Canonical (restoreStart n u cores s) := by
  unfold restoreStart
  split
  · exact h
  · dsimp only
    split
    · exact h
    · exact (holdCores_canonical h).same ⟨rfl, rfl, rfl, rfl, rfl⟩

theorem restoreFinish_canonical {bs : List Nat} (h : Canonical s) : Canonical (restoreFinish bs s) := by
  unfold restoreFinish
  split
  · exact h
  · refine gangMoves_canonical h (fun s h' => ?_)
    split
    · exact consumePoison_canonical h'
    · exact retireEnded_canonical (deathsIn_canonical (restoreBlocks_canonical h'))

theorem gangRestore_canonical {g c : Nat} {cores : List Nat} (h : Canonical s) : Canonical (gangRestore n g c cores s) := by
  unfold gangRestore
  split
  · exact restoreStart_canonical h
  · exact restoreFinish_canonical h

/-! ## The command channel -/

theorem cmdRej_canonical {c : Cmd} {reason : Nat} (h : Canonical s) : Canonical (cmdRej c reason s) := emit_canonical _ h

theorem cmdDone_canonical {c : Cmd} (h : Canonical s) : Canonical (cmdDone c s) := by
  unfold cmdDone
  split
  · exact emit_canonical _ h
  · exact h

theorem accept_canonical {k : CmdKind} {c : Cmd} {reserved : Bool} {perform : State → Verdict} (h : Canonical s)
    (hperform : ∀ t, Canonical t → CanonicalVerdict (perform t)) : Canonical (accept k c reserved s perform) := by
  unfold accept
  split
  · exact h
  · have hp : CanonicalVerdict (perform { s with chan := { s.chan with cmdacc := s.chan.cmdacc + 1 } }) := hperform _ h
    dsimp only
    split
    · exact cmdRej_canonical h
    · split
      · exact cmdRej_canonical h
      · exact cmdRej_canonical h
      · exact cmdRej_canonical h
      · next e _ =>
        rw [e] at hp
        exact cmdRej_canonical hp
      · next e _ =>
        rw [e] at hp
        exact cmdDone_canonical hp
      · next e _ =>
        rw [e] at hp
        exact hp

theorem execCommandNop_canonical {c : Cmd} (h : Canonical s) : CanonicalOut (execCommandNop c s) := by
  unfold execCommandNop
  exact accept_canonical h (fun _ h' => h')

theorem execSignal_canonical {c : Cmd} (h : Canonical s) : CanonicalOut (execSignal c s) := by
  unfold execSignal
  refine accept_canonical h (fun t h' => ?_)
  split
  · trivial
  · exact raiseTl_canonical h'

theorem execNotify_canonical {c : Cmd} (h : Canonical s) : CanonicalOut (execNotify c s) := by
  unfold execNotify
  dsimp only
  refine accept_canonical h (fun t h' => ?_)
  split
  · trivial
  · split
    · exact emit_canonical _ h'
    · exact h'

theorem submitted_canonical {c : Cmd} (h : Canonical s) : CanonicalVerdict (submitted c s) := by
  unfold submitted
  dsimp only
  iterate 3 (split; · trivial)
  split
  · exact emit_canonical _ h
  · exact h

theorem execSubmit_canonical {c : Cmd} (h : Canonical s) : CanonicalOut (execSubmit c s) := by
  unfold execSubmit
  exact accept_canonical h (fun _ h' => submitted_canonical h')

theorem resumeBlocks_canonical {bs : List Nat} (h : Canonical s) : Canonical (resumeBlocks bs s) := by
  induction bs generalizing s with
  | nil => exact h
  | cons b r ih => exact ih (resumeBlock_canonical h)

theorem execResume_canonical {c : Cmd} (h : Canonical s) : CanonicalOut (execResume c s) := by
  unfold execResume
  refine accept_canonical h (fun t h' => ?_)
  split
  · trivial
  · exact resumeBlocks_canonical h'

theorem execCancel_canonical {c : Cmd} (h : Canonical s) : CanonicalOut (execCancel c s) := by
  unfold execCancel
  refine accept_canonical h (fun t h' => ?_)
  split
  · trivial
  · split
    · exact h'
    · trivial

theorem execDispatch_canonical {c : Cmd} (h : Canonical s) : CanonicalOut (execDispatch c s) := by
  unfold execDispatch
  dsimp only
  refine accept_canonical h (fun t h' => ?_)
  split
  · trivial
  · split
    · exact putLaunch_canonical _ _ (becomeReady_canonical h')
    · trivial

theorem execUnassignedCommand_canonical {c : Cmd} (h : Canonical s) : CanonicalOut (execUnassignedCommand c s) := by
  unfold execUnassignedCommand
  exact accept_canonical h (fun _ h' => h')

/-! ## System instructions -/

theorem rdsr_canonical (h : Canonical s) : CanonicalOut (rdsr op s) := issueWhen_canonical h (fun _ _ h' => Iss.complete_canonical h')

theorem wrsr_canonical (h : Canonical s) : CanonicalOut (wrsr op s) := by
  unfold wrsr
  dsimp only
  refine issueWhen_canonical h (fun i s h' => ?_)
  split
  · split
    · exact Iss.illopValue_canonical h'
    · exact Iss.plain_canonical h'
  · exact Iss.plain_canonical (onTeam_canonical h')

theorem rett_canonical (h : Canonical s) : CanonicalOut (rett op s) := by
  unfold rett
  refine issue_canonical h (fun i s h' => ?_)
  iterate 2 (split; · exact Iss.illop_canonical h')
  exact returnFromTrap_canonical h'

theorem tlbinv_canonical (h : Canonical s) : CanonicalOut (tlbinv op s) := by
  unfold tlbinv
  dsimp only
  refine issue_canonical h (fun i s h' => ?_)
  split
  · exact Iss.illop_canonical h'
  · split
    · exact Iss.pause_canonical h'
    · exact Iss.plain_canonical h'

theorem haltOp_canonical (h : Canonical s) : CanonicalOut (haltOp op s) :=
  issue_canonical h (fun _ _ h' => haltBlock_canonical (Iss.advance_canonical h'))

/-! ## Contexts -/

theorem execCtxnew_canonical {c : Cmd} (h : Canonical s) : CanonicalOut (execCtxnew c s) := by
  refine accept_canonical h (fun t ht => ?_)
  dsimp only
  split
  · trivial
  · split
    · trivial
    · split
      · trivial
      · exact ⟨ht.1, ht.2.1, Sparse.wf_filter (w := 8) _ _ ht.2.2.1, ht.2.2.2⟩

theorem killedBy_canonical {seq : Nat} (h : Canonical s) : Canonical (killedBy x seq s) := by
  unfold killedBy
  dsimp only
  split <;> exact h

theorem execCtxkill_canonical {c : Cmd} (h : Canonical s) : CanonicalOut (execCtxkill c s) := by
  unfold execCtxkill
  exact accept_canonical h (fun _ h' => killedBy_canonical (killContext_canonical h'))

theorem deleteContext_canonical (h : Canonical s) : Canonical (deleteContext s x) := by
  unfold deleteContext
  split
  · exact recordsGone_canonical h
  · exact h

theorem execCtxdel_canonical {c : Cmd} (h : Canonical s) : CanonicalOut (execCtxdel c s) := by
  unfold execCtxdel
  dsimp only
  refine accept_canonical h (fun t h' => ?_)
  split
  · exact deleteContext_canonical h'
  · trivial

theorem execTlown_canonical {c : Cmd} (h : Canonical s) : CanonicalOut (execTlown c s) := by
  unfold execTlown
  dsimp only
  refine accept_canonical h (fun t h' => ?_)
  iterate 3 (split; · trivial)
  exact h'

theorem execFaultres_canonical {c : Cmd} (h : Canonical s) : CanonicalOut (execFaultres c s) := by
  unfold execFaultres
  refine accept_canonical h (fun t h' => ?_)
  iterate 2 (split; · trivial)
  split
  · exact rewalk_canonical h'
  · exact closeRecord_canonical h'

theorem execInval_canonical {c : Cmd} (h : Canonical s) : CanonicalOut (execInval c s) := by
  unfold execInval
  refine accept_canonical h (fun t h' => ?_)
  split
  · trivial
  · exact h'

theorem startCopies_canonical {g : Nat} {ks : List Nat} (h : Canonical s) : Canonical (startCopies n g ks s) := startSaves_canonical h

theorem execPreempt_canonical {c : Cmd} (h : Canonical s) : CanonicalOut (execPreempt c s) := by
  unfold execPreempt
  dsimp only
  refine accept_canonical h (fun t h' => ?_)
  split
  · trivial
  · trivial
  · split
    · trivial
    · exact startCopies_canonical h'

theorem execCcbind_canonical {c : Cmd} (h : Canonical s) : CanonicalOut (execCcbind c s) := by
  unfold execCcbind
  dsimp only
  refine accept_canonical h (fun t h' => ?_)
  iterate 3 (split; · trivial)
  exact h'

theorem execCcstart_canonical {c : Cmd} (h : Canonical s) : CanonicalOut (execCcstart c s) := by
  unfold execCcstart
  dsimp only
  refine accept_canonical h (fun t h' => ?_)
  iterate 2 (split; · trivial)
  exact h'

theorem execCcstop_canonical {c : Cmd} (h : Canonical s) : CanonicalOut (execCcstop c s) := by
  unfold execCcstop
  refine accept_canonical h (fun t h' => ?_)
  split
  · trivial
  · exact haltCc_canonical h'

theorem execSeckey_canonical {c : Cmd} (h : Canonical s) : CanonicalOut (execSeckey c s) := by
  unfold execSeckey
  dsimp only
  refine accept_canonical h (fun t h' => ?_)
  split
  · trivial
  · exact h'

theorem keyGrace_canonical (h : Canonical s) : Canonical (keyGrace x s) := by
  unfold keyGrace
  dsimp only
  split <;> exact h

/-! ## Debug commands -/

theorem debugging_canonical {c : Cmd} {go : Nat → Block → Verdict} (hgo : ∀ b k, CanonicalVerdict (go b k)) :
    CanonicalVerdict (debugging c s go) := by
  unfold debugging
  split
  · trivial
  · split
    · trivial
    · exact hgo _ _

theorem execDbgstop_canonical {c : Cmd} (h : Canonical s) : CanonicalOut (execDbgstop c s) := by
  unfold execDbgstop
  refine accept_canonical h (fun _ h' => debugging_canonical (fun b k => ?_))
  split
  · trivial
  · split
    · split
      · trivial
      · exact haltedEvent_canonical h'
    · split
      · trivial
      · split
        · exact haltedEvent_canonical h'
        · trivial

theorem execDbgresume_canonical {c : Cmd} (h : Canonical s) : CanonicalOut (execDbgresume c s) := by
  unfold execDbgresume
  refine accept_canonical h (fun _ h' => debugging_canonical (fun b k => ?_))
  split
  · split
    · exact resumeBlock_canonical h'
    · split
      · exact arriveAll_canonical h'
      · trivial
  · split
    · trivial
    · split
      · exact arriveLate_canonical h'
      · trivial

theorem execDbgstep_canonical {c : Cmd} (h : Canonical s) : CanonicalOut (execDbgstep c s) := by
  unfold execDbgstep
  refine accept_canonical h (fun _ h' => debugging_canonical (fun b k => ?_))
  iterate 2 (split; · trivial)
  split
  · exact arriveLate_canonical h'
  · trivial

theorem endStep_canonical (h : Canonical s) : Canonical (endStep s b t e) := by
  unfold endStep
  dsimp only
  split
  · exact h
  · split
    · exact debugStop_canonical (onTeam_canonical h)
    · exact onTeam_canonical h

theorem execDbgsnap_canonical {c : Cmd} (h : Canonical s) : CanonicalOut (execDbgsnap c s) := by
  refine accept_canonical h (fun t ht => debugging_canonical (fun b k => ?_))
  have hw : ∀ bs, Canonical { t with host := writeBytes t.host c.a3.toNat bs } :=
    fun bs => ⟨ht.1, Memory.wf_writeBytes bs _ _ ht.2.1, ht.2.2⟩
  split
  · trivial
  · split
    · trivial
    · split
      · trivial
      · exact hw _

theorem debugContext_canonical {c : Cmd} {go : Ctx → Verdict} (hgo : ∀ k, CanonicalVerdict (go k)) :
    CanonicalVerdict (debugContext c s go) := by
  unfold debugContext
  split
  · trivial
  · exact hgo _

theorem execDbgbp_canonical {c : Cmd} (h : Canonical s) : CanonicalOut (execDbgbp c s) := by
  unfold execDbgbp
  dsimp only
  refine accept_canonical h (fun _ h' => debugContext_canonical (fun k => ?_))
  split
  · trivial
  · exact h'

theorem execDbgmode_canonical {c : Cmd} (h : Canonical s) : CanonicalOut (execDbgmode c s) := by
  unfold execDbgmode
  exact accept_canonical h (fun _ h' => debugContext_canonical (fun _ => h'))

theorem takeBreakpoint_canonical (h : Canonical s) : Canonical (takeBreakpoint s b t e) := by
  unfold takeBreakpoint
  split
  · exact h
  · exact debugStop_canonical (onSplit_canonical h)

/-! ## Firmware -/

theorem poweredOn_canonical (h : Canonical s) : Canonical (poweredOn s) := ⟨rfl, h.2.1, rfl, rfl, rfl⟩

theorem bootFrom_canonical {isB : Bool} (h : Canonical s) : Canonical (bootFrom s isB) :=
  (poweredOn_canonical h).same ⟨rfl, rfl, rfl, rfl, rfl⟩

theorem bootRecovery_canonical (h : Canonical s) : Canonical (bootRecovery s) :=
  (poweredOn_canonical h).same ⟨rfl, rfl, rfl, rfl, rfl⟩

theorem bootUp_canonical (h : Canonical s) : Canonical (bootUp s) := by
  unfold bootUp
  split
  · exact h
  · split
    · exact bootRecovery_canonical h
    · exact bootFrom_canonical h

theorem losePower_canonical (h : Canonical s) : Canonical (losePower s) :=
  (poweredOn_canonical h).same ⟨rfl, rfl, rfl, rfl, rfl⟩

theorem stage_canonical {c : Cmd} (h : Canonical s) : CanonicalVerdict (stage c s) := by
  unfold stage
  dsimp only
  split
  · trivial
  · split <;> exact h

theorem execFwstage_canonical {c : Cmd} (h : Canonical s) : CanonicalOut (execFwstage c s) := by
  unfold execFwstage
  exact accept_canonical h (fun _ h' => stage_canonical h')

theorem commitImage_canonical (h : Canonical s) : CanonicalVerdict (commitImage s) := by
  unfold commitImage
  dsimp only
  split
  · trivial
  · exact h

theorem execFwcommit_canonical {c : Cmd} (h : Canonical s) : CanonicalOut (execFwcommit c s) := by
  unfold execFwcommit
  exact accept_canonical h (fun _ h' => commitImage_canonical h')

theorem rollback_canonical (h : Canonical s) : CanonicalVerdict (rollback s) := by
  unfold rollback
  dsimp only
  split
  · trivial
  · exact h

theorem execFwrollback_canonical {c : Cmd} (h : Canonical s) : CanonicalOut (execFwrollback c s) := by
  unfold execFwrollback
  exact accept_canonical h (fun _ h' => rollback_canonical h')

/-! ## The self-test -/

theorem startTest_canonical {c : Cmd} (h : Canonical s) : CanonicalVerdict (startTest c s) := by
  unfold startTest
  dsimp only
  iterate 2 (split; · trivial)
  exact h

theorem execSelftest_canonical {c : Cmd} (h : Canonical s) : CanonicalOut (execSelftest c s) := by
  unfold execSelftest
  exact accept_canonical h (fun _ h' => startTest_canonical h')

theorem clearPhase_canonical {phase : Nat} (h : Canonical s) : Canonical (clearPhase phase s) := by
  unfold clearPhase
  split
  · exact h
  · exact ⟨rfl, h.2⟩
  · exact ⟨h.1, h.2.1, rfl, rfl, rfl⟩
  · exact ⟨rfl, h.2⟩
  · exact h

theorem removeUnits_canonical {phase : Nat} {us : List UnitId} (h : Canonical s) : Canonical (removeUnits phase us s) := by
  induction us generalizing s with
  | nil => exact h
  | cons u r ih => exact ih (removeUnit_canonical h)

theorem phaseEnd_canonical {failed : List UnitId} (h : Canonical s) : Canonical (phaseEnd failed s) := by
  unfold phaseEnd
  split
  · exact h
  · dsimp only
    split
    · exact h
    · split
      · exact removeUnits_canonical (clearPhase_canonical h)
      · exact removeUnits_canonical (clearPhase_canonical h)

/-! ## The firmware's work -/

theorem answerSpdm_canonical {r : SpdmReq} (h : Canonical s) : Canonical (answerSpdm s r) := by
  unfold answerSpdm
  repeat' split
  all_goals exact h

theorem writeReport_canonical {t : SelfTest} (h : Canonical s) : Canonical (writeReport s t) := by
  have hw : ∀ bs m, Canonical { s with host := writeBytes s.host t.buf bs, mgmt := m } :=
    fun bs _ => ⟨h.1, Memory.wf_writeBytes bs _ _ h.2.1, h.2.2⟩
  unfold writeReport
  dsimp only
  split
  · exact emit_canonical _ (hw _ _)
  · exact hw _ _

theorem doJob_canonical {j : FwJob} (h : Canonical s) : Canonical (doJob s j) := by
  unfold doJob
  split
  · exact answerSpdm_canonical h
  · exact writeReport_canonical h

theorem firmwareWork_canonical (h : Canonical s) : Canonical (firmwareWork s) := by
  unfold firmwareWork
  dsimp only
  split
  · exact h
  · exact h
  · split
    · exact h
    · exact doJob_canonical h

theorem firmwareJob_canonical {j : FwJob} (h : Canonical s) : Canonical (firmwareJob s j) := by
  unfold firmwareJob
  dsimp only
  split
  · exact firmwareWork_canonical h
  · exact h

theorem execSpdmRequest_canonical {r : SpdmReq} (h : Canonical s) : CanonicalOut (execSpdmRequest r s) := by
  unfold execSpdmRequest
  split
  · exact firmwareJob_canonical h
  · exact h

/-! ## Cross-lane instructions -/

theorem getsOp_canonical (h : Canonical s) : CanonicalOut (getsOp op s) := by
  unfold getsOp
  split
  · exact issue_canonical h (fun _ _ h' => Iss.complete_canonical (onSplit_canonical h'))
  · exact laneOp_canonical h

/-! ## Memory instructions -/

theorem ldPerform_keeps (i : Iss) (op : Op) : KeepsDid (ldPerform i op) := by
  intro s q p d h e
  unfold ldPerform at e
  split at e
  · cases e
  · cases e
    exact touch_canonical h

theorem execLd_canonical (h : Canonical s) : CanonicalOut (execLd op s) :=
  issue_canonical h (fun i _ h' => memIssue_canonical h' (ldPerform_keeps i op))

theorem stPerform_keeps (i : Iss) (op : Op) : KeepsDid (stPerform i op) := by
  intro s q p d h e
  unfold stPerform at e
  dsimp only at e
  split at e
  · cases e
  · cases e
    exact writePhys_canonical _ _ _ h

theorem execStOp_canonical (h : Canonical s) : CanonicalOut (execStOp op s) :=
  issue_canonical h (fun i _ h' => memIssue_canonical h' (stPerform_keeps i op))

theorem touchAll_canonical {ps : List (Option Phys)} (h : Canonical s) : Canonical (touchAll s ps) := by
  induction ps generalizing s with
  | nil => exact h
  | cons p r ih =>
    cases p with
    | none => exact ih h
    | some p => exact ih (touch_canonical h)

theorem execLdv_canonical (h : Canonical s) : CanonicalOut (execLdv op s) := by
  unfold execLdv
  dsimp only
  refine issue_canonical h (fun i s h' => ?_)
  split
  · exact Iss.trap_canonical h'
  · exact Iss.translated_canonical h' (fun _ h' => Iss.afterDeaths_canonical (touchAll_canonical h')
      (fun _ h' => Iss.complete_canonical h'))

theorem atomPerform_keeps (i : Iss) (op : Op) (n : Nat) (counted : Bool) (new : Nat → Nat → Option Nat) :
    KeepsDid (atomPerform i op n counted new) := by
  intro s q p d h e
  unfold atomPerform at e
  dsimp only at e
  split at e
  · cases e
    exact touch_canonical h
  · split at e
    · cases e
    · cases e
      exact writePhys_canonical _ _ _ h

theorem execAtomic_canonical {counted : Bool} {new : Iss → Nat → Nat → Option Nat} (h : Canonical s) :
    CanonicalOut (execAtomic op s n counted new) :=
  issue_canonical h (fun i _ h' => memIssue_canonical h' (atomPerform_keeps i op n counted (new i)))

theorem pinSector_canonical {pa : Nat} (h : Canonical s) : Canonical (pinSector s x pa) := by
  unfold pinSector
  dsimp only
  split
  · exact h
  · split
    · split
      · exact hbmFill_canonical h
      · exact putCtx_canonical _ _ (hbmFill_canonical h)
    · exact bumpCtx_canonical _ _ h

theorem unpinSector_canonical {pa : Nat} (h : Canonical s) : Canonical (unpinSector s x pa) := by
  unfold unpinSector
  dsimp only
  repeat' split
  all_goals exact h

theorem hintAt_canonical {f : Nat} {p : Phys} (h : Canonical s) : Canonical (hintAt s x f p) := by
  unfold hintAt
  split
  · split
    · exact touch_canonical h
    · exact hbmFill_canonical h
    · exact pinSector_canonical h
    · exact unpinSector_canonical h
  · exact touch_canonical h
  · exact h

theorem hintAll_canonical {f : Nat} {seen : List (Nat × Nat)} {ts : List Target} (h : Canonical s) : Canonical (hintAll s x f seen ts) := by
  induction ts generalizing s seen with
  | nil => exact h
  | cons t r ih =>
    unfold hintAll
    split
    · iterate 2 (split; · exact ih h)
      exact ih (hintAt_canonical h)
    · exact ih h

theorem execLdhint_canonical (h : Canonical s) : CanonicalOut (execLdhint op s) := by
  unfold execLdhint
  dsimp only
  refine issue_canonical h (fun i s h' => ?_)
  split
  · exact Iss.trap_canonical h'
  · exact Iss.plain_canonical (hintAll_canonical h')

theorem flushLine_canonical {p : Phys} {drop : Bool} (h : Canonical s) : Canonical (flushLine s p drop) := by
  unfold flushLine
  dsimp only
  iterate 2 (split; · exact h)
  split
  · split
    · exact hbmFill_canonical h
    · exact h
  · exact h

theorem execCflush_canonical (h : Canonical s) : CanonicalOut (execCflush op s) :=
  issue_canonical h (fun _ _ h' => memIssue_canonical h' (fun s q p d hs e => by
    obtain rfl := Option.some.inj e
    exact flushLine_canonical hs))

theorem execFence_canonical {o : LOps} (h : Canonical s) : CanonicalOut (execFence o s) := by
  unfold execFence
  exact issue_canonical h (fun _ _ h' => Iss.plain_canonical h')

/-! ## Curds -/

theorem cenc_canonical (h : Canonical s) : CanonicalOut (cenc op s) := by
  unfold cenc
  dsimp only
  refine issue_canonical h (fun i s h' => ?_)
  split
  · exact Iss.trap_canonical h'
  · exact Iss.done_canonical h'

theorem cdec_canonical (h : Canonical s) : CanonicalOut (cdec op s) := by
  unfold cdec
  refine issue_canonical h (fun i s h' => ?_)
  split
  · exact Iss.trap_canonical h'
  · exact Iss.complete_canonical h'

theorem tsetLane_canonical {l : Nat} (h : Canonical s) : Canonical (tsetLane i op s l) := by
  unfold tsetLane
  split
  · exact h
  · split
    · exact boardOr_canonical h
    · exact holdPub_canonical h

theorem tsetLanes_canonical {ls : List Nat} (h : Canonical s) : Canonical (tsetLanes i op ls s) := by
  induction ls generalizing s with
  | nil => exact h
  | cons l r ih => exact ih (tsetLane_canonical h)

theorem tset_canonical (h : Canonical s) : CanonicalOut (tset op s) := by
  unfold tset
  dsimp only
  refine issue_canonical h (fun i s h' => ?_)
  split
  · exact Iss.trap_canonical h'
  · exact Iss.plain_canonical (sigSplit_canonical (tsetLanes_canonical h'))

/-! ## Matrix instructions -/

theorem accalloc_canonical (h : Canonical s) : CanonicalOut (accalloc op s) := by
  unfold accalloc
  dsimp only
  refine issue_canonical h (fun i s h' => ?_)
  split
  · exact Iss.trap_canonical h'
  · iterate 2 (split; · exact Iss.completeAll_canonical h')
    exact Iss.completeAll_canonical (onBlock_canonical h')

theorem onHandle_canonical {body : Iss → State → Handle → State} (h : Canonical s)
    (hbody : ∀ i t a, Canonical t → Canonical (body i t a)) : CanonicalOut (onHandle op s body) := by
  refine issue_canonical h (fun i s h' => ?_)
  split
  · exact Iss.trap_canonical h'
  · exact hbody _ _ _ h'

theorem accfree_canonical (h : Canonical s) : CanonicalOut (accfree op s) := by
  unfold accfree
  dsimp only
  refine onHandle_canonical h (fun i t a h' => ?_)
  iterate 2 (split; · exact Iss.trap_canonical h')
  exact Iss.plain_canonical (onBlock_canonical (clearAcc_canonical h'))

theorem accacq_canonical (h : Canonical s) : CanonicalOut (accacq op s) := by
  unfold accacq
  dsimp only
  refine onHandle_canonical h (fun i t a h' => ?_)
  split
  · split
    · exact Iss.pauseIn_canonical (Iss.wait_canonical h')
    · split
      · exact onSplit_canonical (Iss.wait_canonical (onBlock_canonical h'))
      · exact Iss.plain_canonical (onBlock_canonical h')
  · split
    · exact Iss.pauseIn_canonical (Iss.wait_canonical h')
    · split
      · exact Iss.wait_canonical h'
      · exact Iss.plain_canonical h'

theorem accrel_canonical (h : Canonical s) : CanonicalOut (accrel op s) := by
  unfold accrel
  refine onHandle_canonical h (fun i t a h' => ?_)
  split
  · exact Iss.trap_canonical h'
  · exact Iss.plain_canonical (onBlock_canonical h')

theorem onBanks_canonical {body : Iss → State → Nat → State} (h : Canonical s)
    (hbody : ∀ i t n, Canonical t → Canonical (body i t n)) : CanonicalOut (onBanks op s body) := by
  refine onHandle_canonical h (fun i s a h' => ?_)
  split
  · exact Iss.trap_canonical h'
  · split
    · exact Iss.trap_canonical h'
    · exact hbody _ _ _ h'

theorem accConsumed_canonical {words : List Nat} (h : Canonical s) : Canonical (accConsumed s b words) := by
  unfold accConsumed
  split
  · exact h
  · exact consumePoison_canonical h

theorem accld_canonical (h : Canonical s) : CanonicalOut (accld op s) :=
  onBanks_canonical h (fun _ _ _ h' => Iss.complete_canonical (accConsumed_canonical h'))

theorem accst_canonical (h : Canonical s) : CanonicalOut (accst op s) :=
  onBanks_canonical h (fun _ _ _ h' => Iss.plain_canonical
    ⟨h'.1, h'.2.1, h'.2.2.1, h'.2.2.2.1, wf_applyWrites _ _ h'.2.2.2.2⟩)

theorem acczero_canonical (h : Canonical s) : CanonicalOut (acczero op s) := by
  unfold acczero
  refine onHandle_canonical h (fun i t a h' => ?_)
  split
  · exact Iss.trap_canonical h'
  · exact Iss.plain_canonical (clearAcc_canonical h')

theorem teamDeaths_canonical {qs : List (Nat × Nat)} (h : Canonical s) : Canonical (teamDeaths b qs s) := by
  induction qs generalizing s with
  | nil => exact h
  | cons q r ih => exact ih (laneDeath_canonical h)

theorem rdvTry_canonical {g : Word} (h : Canonical s) : Canonical (rdvTry s b g) := by
  unfold rdvTry
  dsimp only
  split
  · exact h
  · split
    · iterate 4 (split; · exact h)
      exact teamDeaths_canonical h
    · exact h

theorem mma_canonical (h : Canonical s) : CanonicalOut (mma op s) := by
  unfold mma
  dsimp only
  refine issue_canonical h (fun i s h' => ?_)
  split
  · exact rdvTry_canonical h'
  · split
    · exact Iss.trap_canonical h'
    · split
      · exact Iss.wait_canonical h'
      · exact rdvTry_canonical (onBlock_canonical (Iss.wait_canonical h'))

theorem mmaComplete_canonical (h : Canonical s) : Canonical (mmaComplete b n s) := by
  have hacc : ∀ base vs p, Canonical { s with acc := Sparse.setRun s.acc base vs, accPoison := p } :=
    fun _ _ _ => ⟨h.1, h.2.1, h.2.2.1, h.2.2.2.1, Sparse.wf_setRun _ _ _ h.2.2.2.2⟩
  unfold mmaComplete
  split
  · exact h
  · split
    · split
      · exact h
      · split
        · exact completeCmd_canonical h
        · dsimp only
          split
          · exact consumePoison_canonical h
          · exact completeCmd_canonical (hacc _ _ _)
    · exact h

theorem mvxWith_canonical {bs : List Byte} (h : Canonical s) : Canonical (mvxWith i op s bs) := by
  unfold mvxWith
  dsimp only
  split
  · exact Iss.trap_canonical h
  · split
    · exact consumePoison_canonical h
    · split
      · exact Iss.done_canonical (bumpCtx_canonical _ _ (acceptCmd_canonical h))
      · exact Iss.done_canonical (onTeam_canonical (bumpCtx_canonical _ _ (acceptCmd_canonical h)))

theorem mvx_canonical (h : Canonical s) : CanonicalOut (mvx op s) := by
  unfold mvx
  refine issue_canonical h (fun i s h' => ?_)
  split
  · exact Iss.illopValue_canonical h'
  · exact Iss.withRecord_canonical h' (fun _ _ h' => mvxWith_canonical h')

theorem notePiece_canonical {stack : Bool} {q : Nat × Nat} (h : Canonical s) : Canonical (notePiece x stack s q) := by
  unfold notePiece
  split
  · exact h
  · split
    · exact hbmFill_canonical h
    · exact foldl_canonical (fun _ _ h' => touch_canonical h') h

theorem deliverMvx_canonical {c : EngCmd} {yOff : Option Nat} {ws : List Word} (h : Canonical s) :
    Canonical (deliverMvx s b c core yOff ws) := by
  unfold deliverMvx
  split
  · exact putSpad_canonical h
  · exact onTeam_canonical h

theorem mvxProbe_canonical {c : EngCmd} {ps : List (Nat × Nat)} (h : Canonical s) : Canonical (mvxProbe s x c ps).s :=
  probeAll_canonical (CopyRun.start_canonical h)

theorem mvxResult_canonical (h : Canonical s) : Canonical (mvxResult b n s) := by
  unfold mvxResult
  dsimp only
  split
  · exact h
  · split
    · split
      · exact endRun_canonical (noteRun_canonical (mvxProbe_canonical h))
      · split
        · exact consumePoison_canonical (mvxProbe_canonical h)
        · exact completeCmd_canonical (deliverMvx_canonical (foldl_canonical (fun _ _ h' => notePiece_canonical h') (mvxProbe_canonical h)))
    · exact h

theorem engineTranslationFault_canonical (h : Canonical s) : Canonical (engineTranslationFault b sel n s) := by
  unfold engineTranslationFault
  split
  · exact h
  · split
    · exact copyCommandComplete_canonical h
    · exact mvxResult_canonical h

/-! ## Host registers -/

theorem cfgWrite_canonical {ok : Bool} {f : Channel → Channel} (h : Canonical s) : Canonical (cfgWrite s ok f) := by
  unfold cfgWrite
  split <;> exact h

theorem chctlWrite_canonical {v : DWord} (h : Canonical s) : Canonical (chctlWrite v s) := drainEvents_canonical h

theorem cmdtailWrite_canonical {v : DWord} (h : Canonical s) : Canonical (cmdtailWrite v s) := by
  unfold cmdtailWrite
  dsimp only
  split <;> exact h

theorem cplheadWrite_canonical {v : DWord} (h : Canonical s) : Canonical (cplheadWrite v s) := by
  unfold cplheadWrite
  dsimp only
  split
  · exact h
  · exact drainEvents_canonical h

theorem dutyWrite_canonical {v : DWord} (h : Canonical s) : Canonical (dutyWrite v s) := readyAll_canonical h

theorem logheadWrite_canonical {v : DWord} (h : Canonical s) : Canonical (logheadWrite v s) := by
  unfold logheadWrite
  dsimp only
  split <;> exact h

theorem loghbaseWrite_canonical {v : DWord} (h : Canonical s) : Canonical (loghbaseWrite v s) := by
  unfold loghbaseWrite
  dsimp only
  split <;> exact h

theorem loghsizeWrite_canonical {v : DWord} (h : Canonical s) : Canonical (loghsizeWrite v s) := by
  unfold loghsizeWrite
  dsimp only
  split <;> exact h

theorem fabWrite_canonical {ok : Bool} {f : Fabric → Fabric} (h : Canonical s) : Canonical (fabWrite s ok f) := by
  unfold fabWrite
  split <;> exact h

theorem portTo_canonical {p : Nat} {st : PortState} (h : Canonical s) : Canonical (portTo s p st) := by
  unfold portTo
  dsimp only
  split <;> exact h

theorem portEnable_canonical {p : Nat} {en : Bool} (h : Canonical s) : Canonical (portEnable s p en) := by
  unfold portEnable
  dsimp only
  split
  · split <;> exact h
  · exact h
  · split
    · exact h
    · exact portTo_canonical h

theorem pctlWrite_canonical {p : Nat} {v : DWord} (h : Canonical s) : Canonical (pctlWrite p v s) := by
  unfold pctlWrite
  dsimp only
  split
  · exact h
  · split
    · exact putPort_canonical (portTo_canonical (portEnable_canonical h))
    · exact portEnable_canonical h

theorem portIn_canonical {p : Nat} {st : PortState} {f : State → State} (h : Canonical s) (hf : KeepsCanonical f) :
    Canonical (portIn p st s f) := by
  unfold portIn
  split
  · exact hf _ h
  · exact h

theorem lockHeld_canonical {p : Nat} (h : Canonical s) : Canonical (lockHeld p s) := by
  unfold lockHeld
  dsimp only
  split <;> exact h

theorem execPortLockHeld_canonical {p : Nat} (h : Canonical s) : CanonicalOut (execPortLockHeld p s) := by
  unfold execPortLockHeld
  exact portIn_canonical h (fun _ h' => lockHeld_canonical h')

theorem trainingFails_canonical {p : Nat} (h : Canonical s) : Canonical (trainingFails p s) := by
  unfold trainingFails
  dsimp only
  split
  · exact h
  · split
    · exact removeUnit_canonical h
    · exact h

theorem execTrainingTimeout_canonical {p : Nat} (h : Canonical s) : CanonicalOut (execTrainingTimeout p s) := by
  unfold execTrainingTimeout
  exact portIn_canonical h (fun _ h' => trainingFails_canonical h')

theorem startTraining_canonical {p : Nat} (h : Canonical s) : Canonical (startTraining s p) := h

theorem countClass_canonical (h : Canonical s) : Canonical (countClass n s) := h

theorem loseLock_canonical {p : Nat} (h : Canonical s) : Canonical (loseLock p s) := by
  have h1 : Canonical (portTo s p .training) := portTo_canonical h
  have h2 := startTraining_canonical (p := p) h1
  unfold loseLock
  extract_lets s1
  exact countClass_canonical (putPort_canonical h2)

theorem execLockLoss_canonical {p : Nat} (h : Canonical s) : CanonicalOut (execLockLoss p s) := by
  unfold execLockLoss
  exact portIn_canonical h (fun _ h' => loseLock_canonical h')

theorem codewords_canonical {p corr : Nat} (h : Canonical s) : Canonical (codewords p n corr s) := by
  unfold codewords
  dsimp only
  split
  · exact h
  · split
    · exact loseLock_canonical h
    · exact h
  · exact h

theorem execFecUncorrectableBurst_canonical {q : FecBurst} (h : Canonical s) : CanonicalOut (execFecUncorrectableBurst q s) := by
  unfold execFecUncorrectableBurst
  split
  · exact codewords_canonical h
  · exact h

theorem windowEnds_canonical {p : Nat} (h : Canonical s) : Canonical (windowEnds p s) := by
  unfold windowEnds
  split <;> exact h

theorem execWinfailWindow_canonical {p : Nat} (h : Canonical s) : CanonicalOut (execWinfailWindow p s) := by
  unfold execWinfailWindow
  split
  · exact windowEnds_canonical h
  · exact h

theorem barStore_canonical {off : Nat} {v : DWord} (h : Canonical s) : Canonical (barStore off v s) := by
  unfold barStore
  split
  · exact chctlWrite_canonical h
  · exact h
  · exact cfgWrite_canonical h
  · exact cfgWrite_canonical h
  · exact cmdtailWrite_canonical h
  · exact cfgWrite_canonical h
  · exact cfgWrite_canonical h
  · exact cplheadWrite_canonical h
  · exact dutyWrite_canonical h
  · exact cfgWrite_canonical h
  · exact cfgWrite_canonical h
  · exact logheadWrite_canonical h
  · exact h
  · exact loghbaseWrite_canonical h
  · exact loghsizeWrite_canonical h
  · exact fabWrite_canonical h
  · exact fabWrite_canonical h
  · exact fabWrite_canonical h
  · split
    · exact pctlWrite_canonical h
    · exact h

theorem barWrite_canonical {off width : Nat} {v : DWord} (h : Canonical s) : Canonical (barWrite off width v s) := by
  unfold barWrite
  split
  · exact h
  · exact barStore_canonical h

theorem execPortEnable_canonical {p : Nat} {v : DWord} (h : Canonical s) : CanonicalOut (execPortEnable p v s) := by
  unfold execPortEnable
  split
  · exact barWrite_canonical h
  · exact h

theorem execPortRetrain_canonical {p : Nat} {v : DWord} (h : Canonical s) : CanonicalOut (execPortRetrain p v s) := by
  unfold execPortRetrain
  split
  · exact barWrite_canonical h
  · exact h

theorem touchRange_canonical {pa : Nat} (h : Canonical s) : Canonical (touchRange pa n s) :=
  foldl_canonical (fun _ _ h' => touch_canonical h') h

theorem hostAccess_canonical {w : HostAccess} (h : Canonical s) : Canonical (hostAccess w s) := by
  unfold hostAccess
  split
  · split
    · exact touchRange_canonical h
    · exact h
  · split
    · exact writePhys_canonical _ _ _ h
    · exact h
  · exact ⟨h.1, Memory.wf_writeBytes _ _ _ h.2.1, h.2.2⟩

/-! ## Voltage, power and heat -/

theorem killAll_canonical {xs : List Nat} (h : Canonical s) : Canonical (killAll xs s) := by
  induction xs generalizing s with
  | nil => exact h
  | cons x r ih => exact ih (killContext_canonical h)

theorem abortAll_canonical {ns : List Nat} (h : Canonical s) : Canonical (abortAll ns s) := by
  induction ns generalizing s with
  | nil => exact h
  | cons n r ih => exact ih (abortRound_canonical h)

theorem brownOut_canonical (h : Canonical s) : Canonical (brownOut s) :=
  logEntry_canonical _ (abortAll_canonical (replayAll_canonical (killAll_canonical h)))

theorem execBrownout_canonical (h : Canonical s) : CanonicalOut (execBrownout s) := by
  unfold execBrownout
  split
  · exact brownOut_canonical h
  · exact h

/-! ## Instruction fetch -/

theorem fetchBytes_canonical {u : Shadow} {failed : List Nat} {a : Nat} (h : Canonical s) :
    CanonicalFetched (fetchBytes s u x failed a n) := by
  unfold fetchBytes
  split
  · trivial
  · split
    · extract_lets p
      split
      · trivial
      · split
        · trivial
        · exact noteXlate_canonical h
    · exact joinRecord_canonical h

theorem fetchParcels_canonical {u : Shadow} {i : Nat} {failed : List Nat} {pc : BitVec 56} (h : Canonical s) :
    CanonicalFetched (fetchParcels u n i x failed pc s) := by
  induction n generalizing i s with
  | zero => exact h
  | succ n ih =>
    have h1 := fetchBytes_canonical (u := u) (x := x) (failed := failed) (a := parcelAddr pc i) (n := 2) h
    unfold fetchParcels
    split
    · next s1 e =>
      rw [e] at h1
      have h2 := ih (i := i + 1) (s := s1) h1
      split
      · next e2 =>
        rw [e2] at h2
        exact h2
      · exact h2
    · exact h1

theorem fetchCode_canonical {u : Shadow} {failed : List Nat} {pc : BitVec 56} (h : Canonical s) :
    CanonicalFetched (fetchCode s u x failed pc) := by
  have h1 := fetchBytes_canonical (u := u) (x := x) (failed := failed) (a := pc.toNat) (n := 2) h
  unfold fetchCode
  split
  · next e =>
    rw [e] at h1
    exact fetchParcels_canonical h1
  · exact h1

theorem badWord_canonical {w : BitVec 96} (h : Canonical s) : Canonical (badWord s b t e w) := by
  unfold badWord
  split
  · exact h
  · split
    · exact onSplit_canonical h
    · exact takeTrap_canonical h

theorem execReservedEncoding_canonical {w : BitVec 96} (h : Canonical s) : CanonicalOut (execReservedEncoding w s) := by
  unfold execReservedEncoding
  split
  · trivial
  · exact badWord_canonical h

theorem turnOf_canonical {w : BitVec 96} (h : Canonical s) : CanonicalTurn (turnOf s b t e w) := by
  unfold turnOf
  split
  · exact h
  · exact badWord_canonical h

theorem splitTurn_canonical {p : Split} (h : Canonical s) : CanonicalTurn (splitTurn s b t e p) := by
  have hf := fetchCode_canonical (u := shadowOf s b) (x := ctxNum s b) (failed := fetchFailed p) (pc := p.pc) h
  unfold splitTurn
  split
  · exact turnOf_canonical h
  · split
    · next e =>
      rw [e] at hf
      exact turnOf_canonical (onSplit_canonical hf)
    · next e =>
      rw [e] at hf
      exact onSplit_canonical hf
    · exact takeTrap_canonical h
    · exact consumePoison_canonical h

theorem trapTurn_canonical {p : Split} (h : Canonical s) : Canonical (trapTurn s b t e p) := by
  unfold trapTurn
  split
  · exact endStep_canonical (deliverDue_canonical h)
  · exact deliverDue_canonical h

theorem turnSplit_canonical (h : Canonical s) : CanonicalTurn (turnSplit s b t e) := by
  unfold turnSplit
  split
  · exact h
  · split
    · exact trapTurn_canonical h
    · split
      · exact takeBreakpoint_canonical h
      · exact splitTurn_canonical h

theorem afterSplit_canonical {w : BitVec 96} {before : Split} (h : Canonical s) : Canonical (afterSplit b t e w before s) := by
  unfold afterSplit
  dsimp only
  split
  · exact endStep_canonical (onSplit_canonical h)
  · exact onSplit_canonical h

theorem turnCc_canonical (h : Canonical s) : CanonicalTurn (turnCc s n) := by
  have hf := fetchBytes_canonical (u := Shadow.empty) (x := (ccOf s n).ctx) (failed := (ccOf s n).failed) (a := (ccOf s n).pc.toNat)
    (n := 8) h
  unfold turnCc
  dsimp only
  split
  · exact h
  · split
    · exact ccFault_canonical h
    · split
      · next e =>
        rw [e] at hf
        split
        · exact hf
        · exact ccFault_canonical hf
      · next e =>
        rw [e] at hf
        exact hf
      · exact ccFault_canonical h
      · exact fabricPoison_canonical h

theorem turnAgent_canonical {a : Agent} (h : Canonical s) : CanonicalTurn (turnAgent s a) := by
  unfold turnAgent
  split
  · exact h
  · exact turnSplit_canonical h
  · exact turnCc_canonical h

theorem afterAgent_canonical {a : Agent} {w : BitVec 96} {before : State} (h : Canonical s) : Canonical (afterAgent a w before s) := by
  unfold afterAgent
  split
  · split
    · exact h
    · exact afterSplit_canonical h
  · exact h

theorem seqErr_canonical {seq : DWord} (h : Canonical s) : Canonical (seqErr s seq) := emit_canonical _ h

theorem turnChannel_canonical (h : Canonical s) : CanonicalTurn (turnChannel s) := by
  unfold turnChannel
  dsimp only
  iterate 2 (split; · exact h)
  exact seqErr_canonical h

/-! ## The move a step makes -/

theorem turnOfMove_canonical {v : Move} (h : Canonical s) : CanonicalTurn (turnOfMove s v) := by
  unfold turnOfMove
  split
  · exact turnAgent_canonical h
  · split <;> exact h
  · exact turnChannel_canonical h
  · exact watch_canonical (firmwareWork_canonical h)

theorem nextTurnOf_canonical (h : Canonical s) : CanonicalTurn (nextTurnOf s).1 := by
  unfold nextTurnOf
  split
  · exact doDue_canonical h
  · split
    · exact turnOfMove_canonical h
    · exact turnOfMove_canonical h

theorem afterMove_canonical {v : Move} {w : BitVec 96} {before : State} (h : Canonical s) : Canonical (afterMove v w before s) := by
  unfold afterMove
  split
  · exact afterAgent_canonical h
  · exact h

theorem wakeOps_canonical {meaning : Instr → State → Out} (h : Canonical s) : Canonical (wakeOps meaning s) := by
  unfold wakeOps
  split <;> exact h

/-! ## Every instruction, and the step -/

/-- Every instruction keeps the memories canonical, by the lemma of its own meaning. -/
theorem exec_canonical (i : Instr) (h : Canonical s) : CanonicalOut (exec i s) :=
  match i with
  | .nopC16 _ => execNopC16_canonical h
  | .nopW32 _ => execNopW32_canonical h
  | .nopL64 _ => execNopL64_canonical h
  | .movC16 _ | .movW32 _ | .movL64 _ | .iaddC16 _ | .iaddW32 _ | .iaddL64 _ | .isubC16 _ | .isubW32 _ | .isubL64 _ | .imulC16 _
  | .imulW32 _ | .imulL64 _ | .imad _ | .idivW32 _ | .idivL64 _ | .iremW32 _ | .iremL64 _ | .iminW32 _ | .iminL64 _ | .imaxW32 _
  | .imaxL64 _ | .icmpW32 _ | .icmpL64 _ | .sel _ | .andC16 _ | .andW32 _ | .andL64 _ | .orC16 _ | .orW32 _ | .orL64 _ | .xorC16 _
  | .xorW32 _ | .xorL64 _ | .andnW32 _ | .andnL64 _ | .ornW32 _ | .ornL64 _ | .xnorW32 _ | .xnorL64 _ | .notW32 _ | .notL64 _
  | .shlC16 _ | .shlW32 _ | .shlL64 _ | .shrlC16 _ | .shrlW32 _ | .shrlL64 _ | .shraC16 _ | .shraW32 _ | .shraL64 _ | .rotlW32 _
  | .rotlL64 _ | .rotrW32 _ | .rotrL64 _ | .shf _ | .bfeW32 _ | .bfeL64 _ | .bfi _ | .popcW32 _ | .popcL64 _ | .clzW32 _ | .clzL64 _
  | .ctzW32 _ | .ctzL64 _ | .brevW32 _ | .brevL64 _ | .iabsW32 _ | .iabsL64 _ | .inegW32 _ | .inegL64 _ | .add64W32 _ | .add64L64 _
  | .sub64W32 _ | .sub64L64 _ | .leaW32 _ | .leaL64 _ | .shl64W32 _ | .shl64L64 _ | .shr64W32 _ | .shr64L64 _ | .cmp64W32 _
  | .cmp64L64 _ | .bysel _ | .idot4 _ | .faddC16 _ | .faddW32 _ | .faddL64 _ | .fsubC16 _ | .fsubW32 _ | .fsubL64 _ | .fmulC16 _
  | .fmulW32 _ | .fmulL64 _ | .ffma _ | .fminC16 _ | .fminW32 _ | .fminL64 _ | .fmaxC16 _ | .fmaxW32 _ | .fmaxL64 _ | .fminpW32 _
  | .fminpL64 _ | .fmaxpW32 _ | .fmaxpL64 _ | .fcmpW32 _ | .fcmpL64 _ | .fabsW32 _ | .fabsL64 _ | .fnegW32 _ | .fnegL64 _ | .fcpysW32 _
  | .fcpysL64 _ | .fdivW32 _ | .fdivL64 _ | .fsqrtW32 _ | .fsqrtL64 _ | .fclassW32 _ | .fclassL64 _ | .frndW32 _ | .frndL64 _
  | .fscaleW32 _ | .fscaleL64 _ | .fdot2 _ | .cvtW32 _ | .cvtL64 _ | .pack8W32 _ | .pack8L64 _ | .unpk8W32 _ | .unpk8L64 _ | .pack4W32 _
  | .pack4L64 _ | .unpk4W32 _ | .unpk4L64 _ | .bqscalW32 _ | .bqscalL64 _ | .bqencW32 _ | .bqencL64 _ | .bqdecW32 _ | .bqdecL64 _
  | .mxscalW32 _ | .mxscalL64 _ | .shflW32 _ | .shflL64 _ | .voteW32 _ | .voteL64 _ | .reduxW32 _ | .reduxL64 _ | .scanW32 _
  | .scanL64 _ | .actW32 _ | .actL64 _ | .maskwW32 _ | .maskwL64 _ | .bcastW32 _ | .bcastL64 _ | .rcpW32 _ | .rcpL64 _ | .rsqW32 _
  | .rsqL64 _ | .ex2W32 _ | .ex2L64 _ | .lg2W32 _ | .lg2L64 _ | .sinW32 _ | .sinL64 _ | .cosW32 _ | .cosL64 _ | .tanhW32 _ | .tanhL64 _
  | .sgmdW32 _ | .sgmdL64 _ | .rngW32 _ | .rngL64 _ | .clmulW32 _ | .clmulL64 _ => laneOp_canonical h
  | .getsW32 _ | .getsL64 _ => getsOp_canonical h
  | .ldW32 _ | .ldL64 _ => execLd_canonical h
  | .st _ => execStOp_canonical h
  | .atom _ | .atom64 _ => execAtomic_canonical h
  | .fence _ => execFence_canonical h
  | .cpy32 _ => cpy32_canonical h
  | .waittagW32 _ | .waittagL64 _ => waittag_canonical h
  | .tcopy _ => tcopy_canonical h
  | .mcast _ => mcast_canonical h
  | .spallocW32 _ | .spallocL64 _ => spalloc_canonical h
  | .spfreeW32 _ | .spfreeL64 _ => spfree_canonical h
  | .femarkW32 _ | .femarkL64 _ => femark_canonical h
  | .ldhintW32 _ | .ldhintL64 _ => execLdhint_canonical h
  | .cflushW32 _ | .cflushL64 _ => execCflush_canonical h
  | .ldvW32 _ | .ldvL64 _ => execLdv_canonical h
  | .bra _ => bra_canonical h
  | .joinW32 _ | .joinL64 _ => join_canonical h
  | .call _ => callDirect_canonical h
  | .callIndirectW32 _ | .callIndirectL64 _ => callIndirect_canonical h
  | .retW32 _ | .retL64 _ => retOp_canonical h
  | .exitW32 _ | .exitL64 _ => exitOp_canonical h
  | .brdq _ => brdq_canonical h
  | .trapW32 _ | .trapL64 _ => trapOp_canonical h
  | .bkptW32 _ | .bkptL64 _ => bkpt_canonical h
  | .yieldW32 _ | .yieldL64 _ => yieldOp_canonical h
  | .barW32 _ | .barL64 _ => bar_canonical h
  | .attachW32 _ | .attachL64 _ | .detachW32 _ | .detachL64 _ => attachOp_canonical h
  | .growW32 _ | .growL64 _ => growOp_canonical h
  | .shrqW32 _ | .shrqL64 _ => shrq_canonical h
  | .tlwaitW32 _ | .tlwaitL64 _ => tlwait_canonical h
  | .tlreadW32 _ | .tlreadL64 _ => tlreadOp_canonical h
  | .tlsigW32 _ | .tlsigL64 _ => tlsigOp_canonical h
  | .xset _ => xset_canonical h
  | .xget _ => xget_canonical h
  | .pushdW32 _ | .pushdL64 _ => pushd_canonical h
  | .accallocW32 _ | .accallocL64 _ => accalloc_canonical h
  | .accfreeW32 _ | .accfreeL64 _ => accfree_canonical h
  | .accacqW32 _ | .accacqL64 _ => accacq_canonical h
  | .accrelW32 _ | .accrelL64 _ => accrel_canonical h
  | .mma _ => mma_canonical h
  | .accldW32 _ | .accldL64 _ => accld_canonical h
  | .accst _ => accst_canonical h
  | .acczeroW32 _ | .acczeroL64 _ => acczero_canonical h
  | .mvx _ => mvx_canonical h
  | .cenc _ => cenc_canonical h
  | .cdec _ => cdec_canonical h
  | .tsetW32 _ | .tsetL64 _ => tset_canonical h
  | .rdsr _ => rdsr_canonical h
  | .wrsr _ => wrsr_canonical h
  | .rettW32 _ | .rettL64 _ => rett_canonical h
  | .tlbinvW32 _ | .tlbinvL64 _ => tlbinv_canonical h
  | .haltW32 _ | .haltL64 _ => haltOp_canonical h
  | .fusetLi _ => execFusetLi_canonical h
  | .fusetAdd _ | .fusetSub _ | .fusetAnd _ | .fusetOr _ | .fusetShl _ | .fusetShr _ | .fusetCmp _ => fusetAlu_canonical h
  | .fusetLd _ => execFusetLd_canonical h
  | .fusetSt _ => execFusetSt_canonical h
  | .fusetBr _ => execFusetBr_canonical h
  | .fusetBz _ => execFusetBz_canonical h
  | .fusetBnz _ => execFusetBnz_canonical h
  | .fusetCall _ => execFusetCall_canonical h
  | .fusetRet _ => execFusetRet_canonical h
  | .fusetRing _ => execFusetRing_canonical h
  | .fusetTtw _ => execFusetTtw_canonical h
  | .fusetArm _ => execFusetArm_canonical h
  | .fusetDisarm _ => execFusetDisarm_canonical h
  | .fusetPost _ => execFusetPost_canonical h
  | .fusetWaitpost _ => execFusetWaitpost_canonical h
  | .fusetSend _ => execFusetSend_canonical h
  | .fusetWaitsb _ => execFusetWaitsb_canonical h
  | .fusetWaittl _ => execFusetWaittl_canonical h
  | .fusetSigtl _ => execFusetSigtl_canonical h
  | .fusetTmo _ => execFusetTmo_canonical h
  | .fusetRound _ => execFusetRound_canonical h
  | .fusetWaitrd _ => execFusetWaitrd_canonical h
  | .fusetAbort _ => execFusetAbort_canonical h
  | .fusetStatus _ => execFusetStatus_canonical h
  | .fusetWalloc _ => execFusetWalloc_canonical h
  | .fusetWfree _ => execFusetWfree_canonical h
  | .fusetWckpt _ => execFusetWckpt_canonical h
  | .fusetWrest _ => execFusetWrest_canonical h
  | .fusetWfold _ => execFusetWfold_canonical h
  | .fusetReform _ => execFusetReform_canonical h
  | .fusetEvent _ => execFusetEvent_canonical h
  | .fusetHalt _ => execFusetHalt_canonical h
  | .resultWriteback _ _ _ | .correctableError | .droopTrip _ | .inputUndervoltage | .brownoutRecovery | .thermalThrottle => h
  | .splitAged _ _ _ => ageSplit_canonical h
  | .watchdogExpiry _ _ _ => watchdogExpiry_canonical h
  | .asyncTrapDelivery _ _ => deliverDue_canonical h
  | .placeGang _ _ _ _ => placeGang_canonical h
  | .shrinkBlockedTimeout _ _ _ => shrinkBlocked_canonical h
  | .shrinkLimitExpiry _ => shrinkExpires_canonical h
  | .saveComplete _ => saveComplete_canonical h
  | .gangRestore _ _ _ _ => gangRestore_canonical h
  | .spfreeTakesEffect _ _ => spfreeTakesEffect_canonical h
  | .copyCommandComplete _ _ => copyCommandComplete_canonical h
  | .engineTranslationFault _ _ _ => engineTranslationFault_canonical h
  | .cpy32Complete _ _ _ => cpy32Complete_canonical h
  | .mcastArrival _ _ _ => mcastArrival_canonical h
  | .mcastComplete _ _ => mcastComplete_canonical h
  | .mmaComplete _ _ => mmaComplete_canonical h
  | .mvxResult _ _ => mvxResult_canonical h
  | .faultRecordResolution _ => execFaultRecordResolution_canonical h
  | .uncorrectableError _ => softError_canonical h
  | .blockCommit _ _ => blockCommit_canonical h
  | .pairCompare _ _ => pairCompare_canonical h
  | .logHarvest => harvest_canonical h
  | .entryFire _ _ => execEntryFire_canonical h
  | .firingComplete _ _ => execFiringComplete_canonical h
  | .curdArrival _ => execCurdArrival_canonical h
  | .curdReply _ => execCurdReply_canonical h
  | .postedNotice _ => execPostedNotice_canonical h
  | .abortNotice _ => execAbortNotice_canonical h
  | .roundDeadline _ => execRoundDeadline_canonical h
  | .wheyPageIn _ _ => execWheyPageIn_canonical h
  | .reformReport _ => execReformReport_canonical h
  | .reformCollectionEnd _ => execReformCollectionEnd_canonical h
  | .reformResults _ => execReformResults_canonical h
  | .commandNop _ => execCommandNop_canonical h
  | .submit _ => execSubmit_canonical h
  | .signal _ => execSignal_canonical h
  | .notify _ => execNotify_canonical h
  | .resume _ => execResume_canonical h
  | .cancel _ => execCancel_canonical h
  | .dispatch _ => execDispatch_canonical h
  | .ctxnew _ => execCtxnew_canonical h
  | .ctxkill _ => execCtxkill_canonical h
  | .contextKillComplete _ => killComplete_canonical h
  | .ctxdel _ => execCtxdel_canonical h
  | .tlown _ => execTlown_canonical h
  | .faultres _ => execFaultres_canonical h
  | .inval _ => execInval_canonical h
  | .preempt _ => execPreempt_canonical h
  | .ccbind _ => execCcbind_canonical h
  | .ccstart _ => execCcstart_canonical h
  | .ccstop _ => execCcstop_canonical h
  | .dbgstop _ => execDbgstop_canonical h
  | .dbgresume _ => execDbgresume_canonical h
  | .dbgstep _ => execDbgstep_canonical h
  | .dbgsnap _ => execDbgsnap_canonical h
  | .dbgbp _ => execDbgbp_canonical h
  | .dbgmode _ => execDbgmode_canonical h
  | .fwstage _ => execFwstage_canonical h
  | .fwcommit _ => execFwcommit_canonical h
  | .fwrollback _ => execFwrollback_canonical h
  | .selftest _ => execSelftest_canonical h
  | .selftestPhaseEnd _ => phaseEnd_canonical h
  | .seckey _ => execSeckey_canonical h
  | .cmdtailWrite _ | .cplheadWrite _ | .channelEnable _ | .snoopMode _ | .chstatClear _ | .dutyWrite _ | .logheadWrite _
  | .logstatClear _ | .registerWrite _ _ => barWrite_canonical h
  | .portEnable _ _ => execPortEnable_canonical h
  | .portRetrain _ _ => execPortRetrain_canonical h
  | .hostMemoryAccess _ => hostAccess_canonical h
  | .spdmRequest _ => execSpdmRequest_canonical h
  | .boot => bootUp_canonical h
  | .portLockHeld _ => execPortLockHeld_canonical h
  | .trainingTimeout _ => execTrainingTimeout_canonical h
  | .lockLoss _ => execLockLoss_canonical h
  | .fecUncorrectableBurst _ => execFecUncorrectableBurst_canonical h
  | .winfailWindow _ => execWinfailWindow_canonical h
  | .sprayRejoin _ => execSprayRejoin_canonical h
  | .packetReceive _ => packetReceive_canonical h
  | .packetAck _ => packetAck_canonical h
  | .retransmitTimeout _ => retransmit_canonical h
  | .keyGraceExpiry _ => keyGrace_canonical h
  | .brownout => execBrownout_canonical h
  | .powerLoss | .thermalShutdown => losePower_canonical h
  | .lineSetFull _ _ _ _ => execLineSetFull_canonical h
  | .reservedEncoding _ => execReservedEncoding_canonical h
  | .fusetReservedOpcode w => execFusetReservedOpcode_canonical w h
  | .unassignedCommand _ => execUnassignedCommand_canonical h

theorem passTime_canonical (h : Canonical s) : Canonical (passTime s) := h

theorem closeStep_canonical {meaning : Instr → State → Out} {v : Move} {w : BitVec 96} {before : State} {o : Out}
    (ho : CanonicalOut o) : CanonicalOut (closeStep meaning v w before o) :=
  match o, ho with
  | .next _, hu => wakeOps_canonical (passTime_canonical (afterMove_canonical hu))
  | .fault _, _ => trivial
  | .refused _, _ => trivial

/-- A step keeps the memories canonical under every meaning of the instructions that does. -/
theorem stepWith_canonical {meaning : Instr → State → Out} (hm : ∀ i t, Canonical t → CanonicalOut (meaning i t))
    (h : Canonical s) : CanonicalOut (stepWith meaning s) := by
  have ht := nextTurnOf_canonical h
  unfold stepWith
  split
  next t v e =>
    rw [e] at ht
    exact wakeOps_canonical (passTime_canonical ht)
  next i w t v e =>
    rw [e] at ht
    exact closeStep_canonical (hm i t ht)

theorem step_canonical (h : Canonical s) : CanonicalOut (step s) :=
  stepWith_canonical (fun i _ ht => exec_canonical i ht) h

/-- Settles O59: every writer of a memory keeps the canonical form, and a step only composes such writers. -/
theorem memoriesStayCanonical : Obligations.MemoriesStayCanonical := by
  unfold Obligations.MemoriesStayCanonical
  intro s t h e
  have ht := step_canonical h
  rw [e] at ht
  exact ht

end Sys2Proof

/-! A gang that returns with a team table that names a number twice (O48).

`GangReturns` asks that each team, read by its number, comes back with nothing but its datapath changed. The return seats the live entries of
the table (`imageTeams`) and puts each back under its number (`seatTeams`), which changes no other team as long as no number stands twice.
`GangRestored` and `StoresApart` ask that of the team tables they speak of; `GangReturns` asks it of the blocks alone. So a state whose table
lists an ended team ahead of a live one of its number meets every hypothesis, and its number reads as the live one afterwards. -/

namespace Sys2Proof

open Sys2Proof.Machine Sys2Proof.Spec

/-- The return of a gang is an event that always answers a next state. -/
theorem exec_gangRestore (n g c : Nat) (cores : List Nat) (s : State) :
    exec (.gangRestore n g c cores) s = .next (gangRestore n g c cores s) := rfl

/-- A team of the placed launch, in a state. -/
def teamIn (st : TeamState) : Team := { newTeam 0 0 32 240 0x100000 0 0 with st := st }

/-- The placed block, SAVED, whose team table names number 0 twice: an ended team, and behind it a saved one. -/
def doubledBlock : Block :=
  { slotBlock 0 0 with st := .saved, slot := some 0, teams := [(0, teamIn .ended), (0, teamIn .saved)] }

/-- The machine with that block. -/
def doubledState : State := { slotState State.reset with blocks := [(0, doubledBlock)] }

/-- The saved gang of that machine. -/
def doubledUnit : GangUnit := { gang := 0, copy := 0, restore := true }

/-- The gang is the launch's next unit, in its turn. -/
theorem doubledUnit_next : nextUnit doubledState 0 slotLaunch = some doubledUnit ∧ itsTurn doubledState 0 slotLaunch = true := by
  and_intros <;> decide

/-- Core 0 can take it back. -/
theorem doubledUnit_fits :
    coresOk [0] (savedBlocks doubledState 0 doubledUnit).length = true ∧ copyApart slotLaunch doubledUnit 0 = true ∧
    (∀ q ∈ List.zip [0] (savedBlocks doubledState 0 doubledUnit), coreRestores doubledState q.1 q.2.2 = true) ∧
    barredFor doubledState (rankOf slotLaunch) 0 = false := by
  and_intros <;> decide

/-- Team 0 was the ended one and, as its gang returns, is the saved one. -/
theorem doubledTeam_returns_saved :
    ((Tbl.get (gangRestore 0 0 0 [0] doubledState).blocks 0).bind (fun k => Tbl.get k.teams 0)).map (fun m => m.st) = some .saved := by
  decide

theorem not_gangReturns : ¬ GangReturns := by
  intro h
  obtain ⟨hnext, hturn⟩ := doubledUnit_next
  obtain ⟨hcores, hapart, hrestores, hbar⟩ := doubledUnit_fits
  obtain ⟨t, _, ht, _, _, _, _, _, _, hblocks⟩ :=
    h 0 0 0 [0] doubledState slotLaunch rfl rfl rfl (by decide) hnext hturn hcores hapart hrestores hbar (by decide)
  obtain ⟨k, hk, _, hteams⟩ := hblocks 0 0 doubledBlock 0 rfl rfl
  obtain ⟨m, hm, hdp⟩ := hteams 0 (teamIn .ended) rfl
  have hst : m.st = .ended := by rw [hdp]; rfl
  have hback := doubledTeam_returns_saved
  rw [exec_gangRestore] at ht
  injection ht with ht
  rw [ht, hk, Option.bind_some, hm, Option.map_some, hst] at hback
  cases hback

/-- Refutes O48: a gang returns to its core with team 0 another than it was, its block's team table having named that number twice. -/
theorem not_placementEvents : ¬ Obligations.PlacementEvents := by
  unfold Obligations.PlacementEvents
  rintro ⟨_, _, hreturns, _⟩
  exact not_gangReturns hreturns

end Sys2Proof

/-! What every instruction of a team or front program does before its own effect (O33).

`issue` and `issueWhen` hold the checks, in order; every Slauk row of `exec` is one of them. So the checks are read once off `issueAs`, the
decoder's check of the bits is turned into what the statement says of operands and predicates, and one case split over the instructions says
which fields each row reads in its leader alone, and which two rows may wait. -/

namespace Sys2Proof

open Sys2Proof.Machine Sys2Proof.Spec

/-! ## Where an issuer stands -/

@[simp] theorem popTeam_trap (i : Iss) (op : Op) (m : Team) : (popTeam i op m).trap = m.trap := by
  unfold popTeam; dsimp only; split <;> split <;> rfl

/-- An issuer's block, launch, team and split stand in a state, with the team's splits and its trap as the issuer has them. -/
def Placed (j : Iss) (s : State) : Prop :=
  ∃ k m, Tbl.get s.blocks j.b = some k ∧ Tbl.get s.launches k.launch = some j.l ∧ Tbl.get k.teams j.t = some m ∧
    Tbl.get m.splits j.e = some j.p ∧ m.trap = j.m.trap

theorem issuer_placed {s : State} {j : Iss} (h : issuer s = some j) : Placed j s := by
  obtain ⟨hk, hm, hp, hl⟩ := issuer_stands h
  exact ⟨j.k, j.m, hk, hl, hm, hp, rfl⟩

theorem Placed.teamOf {s : State} {j : Iss} (h : Placed j s) :
    ∃ m, teamOf s j.b j.t = some m ∧ Tbl.get m.splits j.e = some j.p ∧ m.trap = j.m.trap := by
  obtain ⟨k, m, hk, -, hm, hp, ht⟩ := h
  exact ⟨m, by simp [Machine.teamOf, hk, hm], hp, ht⟩

/-- An issuer whose queues are popped stands where it stood. -/
theorem popped_placed {s : State} {i : Iss} (h : issuer s = some i) (op : Op) :
    Placed ((withLanes i op).popped op) (onTeam s i.b i.t (popTeam (withLanes i op) op)) := by
  obtain ⟨hk, hm, hp, hl⟩ := issuer_stands h
  refine ⟨mapTeam i.k i.t (popTeam (withLanes i op) op), popTeam (withLanes i op) op i.m, ?_, ?_, ?_, ?_, ?_⟩
  · simp [withLanes, onTeam_as_onBlock, blocks_onBlock, hk]
  · rw [mapTeam_eq]; simpa [withLanes] using hl
  · simp [withLanes, teams_mapTeam, hm]
  · simp [withLanes, hp]
  · simp [withLanes]

/-! ## How the checks end: the next instruction, or the handler -/

/-- The split goes on past its instruction, and nothing else of the machine changes. -/
theorem advance_wentTo {s : State} {j : Iss} (h : Placed j s) (op : Op) : WentTo j (j.next op) s (j.advance s op) := by
  obtain ⟨m, ht, hp, -⟩ := h.teamOf
  obtain ⟨k, -, hk, -⟩ := h
  refine ⟨onTeam_only hk _, m, j.p, ht, hp, { m with splits := Tbl.put m.splits j.e (advanced j op s j.p) }, advanced j op s j.p,
    ?_, rfl, Tbl.get_put_same .., fun e he => Tbl.get_put_other _ _ he, ?_⟩
  · rw [Iss.advance, onSplit, teamOf_onTeam, ht]
    simp only [Option.map_some, hp, advanced, Split.stepTo]
  · exact ⟨rfl, rfl, rfl, rfl, rfl, rfl, rfl, by simp [advanced, Split.stepTo]⟩

/-- A team that handles no trap, in a launch with a handler, takes one by a change of that team alone. -/
theorem takeTrap_eq_onTeam {s : State} {j : Iss} (h : Placed j s) (hc : CanTrap j) (r : TrapRec) (partly : Bool) (xs : List Word) :
    takeTrap s j.b j.t j.e r partly xs = onTeam s j.b j.t (fun m => enterHandler m j.e j.p j.l.lr.handler r partly xs) := by
  obtain ⟨k, m, hk, hl, hm, hp, ht⟩ := h
  obtain ⟨hfront, htrap, hhandler⟩ := hc
  have hteam : j.t ≠ frontTeam := by simpa [Iss.front] using hfront
  have hnone : m.trap = none := ht.trans htrap
  simp only [takeTrap, if_neg hteam, hk, hl, hm, hnone, if_neg hhandler, hp, onTeam, mapTeam]

theorem takeTrap_entersHandler {s : State} {j : Iss} (h : Placed j s) (hc : CanTrap j) (r : TrapRec) (partly : Bool) (xs : List Word) :
    EnteredHandler j r s (takeTrap s j.b j.t j.e r partly xs) := by
  rw [takeTrap_eq_onTeam h hc]
  obtain ⟨m, ht, hp, -⟩ := h.teamOf
  obtain ⟨k, -, hk, -⟩ := h
  refine ⟨onTeam_only hk _, m, j.p, ht, hp, enterHandler m j.e j.p j.l.lr.handler r partly xs, _, _,
    by rw [teamOf_onTeam, ht]; rfl, rfl, rfl, rfl, rfl, Tbl.get_put_same .., fun e he => Tbl.get_put_other _ _ he, rfl, rfl, rfl, rfl⟩

/-- trap(NAME) of an instruction enters the handler with its pc (25 R465). -/
theorem trap_traps {ex : State → Out} {s s1 : State} {j : Iss} {r : TrapRec} (h : Placed j s1) (he : ex s = .next (j.trap s1 r)) :
    Traps ex j r s1 s :=
  fun hc => ⟨_, he, takeTrap_entersHandler h hc _ _ _⟩

/-! ## The checks of an instruction, in order -/

section
variable {op : Op} {leaders : List Nat} {i : Iss} {s : State} {body : Iss → State → State}

theorem issueAs_of_no_mask (hm : i.p.mask = 0) : issueAs op leaders i s body = i.advance s op := if_pos hm

theorem issueAs_of_illegal (hm : i.p.mask ≠ 0) (hb : (op.bad || illegalHere op i.front i.m.nregs i.m.width) = true) :
    issueAs op leaders i s body = i.illop s op := by
  rw [issueAs, if_neg hm, if_pos hb]

theorem issueAs_of_barred (h : AtPrivilege op s i) (hp : privBarred op i.mode = true) :
    issueAs op leaders i s body = i.trap s { code := 0x02 } := by
  obtain ⟨-, hm, hb, hl⟩ := h
  rw [issueAs, if_neg hm, if_neg (by simp [hb, hl]), if_pos hp]

/-- Registers without poison deliver it to no lane. -/
theorem poisonLanes_nil (h : i.m.poison = []) : i.poisonLanes op leaders = [] := by simp [Iss.poisonLanes, h]

/-- Past privilege, with no poison: no executing lane, or the lanes' own checks. -/
theorem issueAs_of_permitted (h : AtPrivilege op s i) (hp : privBarred op i.mode = false) (hd : i.m.poison = []) :
    issueAs op leaders i s body =
      if i.execLanes op = 0 then (withLanes i op).advance s op else issueLanes op leaders (withLanes i op) s body := by
  obtain ⟨-, hm, hb, hl⟩ := h
  rw [issueAs, if_neg hm, if_neg (by simp [hb, hl]), if_neg (by simp [hp])]
  exact if_neg (not_not_intro (poisonLanes_nil (i := withLanes i op) hd))

theorem issueLanes_of_idxFault {r : TrapRec} (hq : queueCheck i op = (.ok, none))
    (hf : idxFault (i.popped op) leaders op (i.popped op).lanes = some r) :
    issueLanes op leaders i s body = (i.popped op).trap (onTeam s i.b i.t (popTeam i op)) r := by
  simp [issueLanes, hq, hf]

end

/-- An instruction that never waits is one that may wait and does not. -/
theorem issue_eq_issueWhen (op : Op) (leaders : List Nat) (s : State) (body : Iss → State → State) :
    issue op leaders s body = issueWhen op leaders s (fun _ => false) body := rfl

/-- An issuer that need not wait runs its instruction's checks. -/
theorem issueWhen_runs {op : Op} {leaders : List Nat} {s : State} {waits : Iss → Bool} {body : Iss → State → State} {i : Iss}
    (hi : issuer s = some i)
    (h : AtPrivilege op s i → privBarred op i.mode = false → i.execLanes op ≠ 0 → waits i = false) :
    issueWhen op leaders s waits body = .next (issueAs op leaders i s body) := by
  unfold issueWhen
  rw [hi]
  refine if_neg fun hw => ?_
  simp only [Bool.and_eq_true, Bool.not_eq_true', Bool.or_eq_false_iff, decide_eq_true_eq] at hw
  obtain ⟨⟨⟨⟨hwaits, hx⟩, hm⟩, hb, hl⟩, hp⟩ := hw
  rw [h ⟨hi, hm, hb, hl⟩ hp hx] at hwaits
  cases hwaits

/-! ## Index operands (02 R54, R55) -/

/-- The record of an operand outside its window. -/
def boundRec (j : Iss) (f : Field) (l : Nat) : TrapRec :=
  { code := 0x03, aux := f.val - 0xF8, field := f.code, lane := l,
    val := BitVec.ofNat 64 (j.m.reg ((j.xs.getD (f.val - 0xF8) 0).toNat / 2 ^ 16 % 2 ^ 8) l).toNat }

/-- Of an instruction's register fields, those that a list names are those that 13 R279 and R280 have it read in the leader alone. -/
def LeadersOf (op : Op) (leaders : List Nat) : Prop := ∀ f ∈ op.regFields, (f.code ∈ leaders ↔ f.code ∈ leaderFields op)

/-- The check of one field of one lane is `Outside`. -/
theorem idxFaultIn_cons (op : Op) (j : Iss) (leaders : List Nat) (l : Nat) (f : Field) (fs : List Field)
    (hf : f.code ∈ leaders ↔ f.code ∈ leaderFields op) :
    (Outside op j f l → idxFaultIn j leaders l (f :: fs) = some (boundRec j f l)) ∧
    (¬ Outside op j f l → idxFaultIn j leaders l (f :: fs) = idxFaultIn j leaders l fs) := by
  have hcheck : (0xF8 ≤ f.val && (!leaders.contains f.code || l = j.leader) &&
      !idxOk (j.xreg (f.val - 0xF8)) (j.idx (j.xreg (f.val - 0xF8)) l) f.spec.extent) = true ↔ Outside op j f l := by
    simp [Outside, idxOk, xBase, xBound, xHome, bitsOf, Iss.xreg, Iss.idx, hf, and_assoc]
  rw [idxFaultIn]
  exact ⟨fun h => if_pos (hcheck.mpr h), fun h => if_neg (mt hcheck.mp h)⟩

/-- The fields ahead of the one outside its window are within theirs. -/
theorem idxFaultIn_append {op : Op} {j : Iss} {leaders : List Nat} {l : Nat} {f : Field} {gs : List Field} :
    ∀ fs : List Field, (∀ g ∈ fs ++ f :: gs, g.code ∈ leaders ↔ g.code ∈ leaderFields op) → (∀ g ∈ fs, ¬ Outside op j g l) →
      Outside op j f l → idxFaultIn j leaders l (fs ++ f :: gs) = some (boundRec j f l)
  | [], hl, _, hf => (idxFaultIn_cons op j leaders l f gs (hl f (List.mem_cons_self ..))).1 hf
  | g :: fs, hl, hin, hf => by
    obtain ⟨hg, hfs⟩ := List.forall_mem_cons.mp hin
    obtain ⟨hlg, hlfs⟩ := List.forall_mem_cons.mp hl
    rw [List.cons_append, (idxFaultIn_cons op j leaders l g _ hlg).2 hg]
    exact idxFaultIn_append fs hlfs hfs hf

/-- A lane whose operands lie within their windows faults on none. -/
theorem idxFaultIn_none {op : Op} {j : Iss} {leaders : List Nat} {l : Nat} :
    ∀ fs : List Field, (∀ g ∈ fs, g.code ∈ leaders ↔ g.code ∈ leaderFields op) → (∀ g ∈ fs, ¬ Outside op j g l) →
      idxFaultIn j leaders l fs = none
  | [], _, _ => rfl
  | g :: fs, hl, hin => by
    obtain ⟨hg, hfs⟩ := List.forall_mem_cons.mp hin
    obtain ⟨hlg, hlfs⟩ := List.forall_mem_cons.mp hl
    rw [(idxFaultIn_cons op j leaders l g fs hlg).2 hg]
    exact idxFaultIn_none fs hlfs hfs

/-- Lanes are checked in rising order: the lowest that faults gives the record. -/
theorem idxFault_of_lowest {op : Op} {j : Iss} {leaders : List Nat} {l : Nat} {r : TrapRec} {ls : List Nat} (hmem : l ∈ ls)
    (hsorted : ls.Pairwise (· < ·)) (hlow : ∀ q ∈ ls, q < l → idxFaultIn j leaders q op.regFields = none)
    (hl : idxFaultIn j leaders l op.regFields = some r) : idxFault j leaders op ls = some r := by
  induction ls with
  | nil => cases hmem
  | cons q ls ih =>
    obtain ⟨hq, hsorted⟩ := List.pairwise_cons.mp hsorted
    rcases List.mem_cons.mp hmem with rfl | hmem
    · simp [idxFault, hl]
    · simp only [idxFault, hlow q (List.mem_cons_self ..) (hq l hmem)]
      exact ih hmem hsorted (fun p hp => hlow p (List.mem_cons_of_mem _ hp))

theorem lanes_sorted (j : Iss) : j.lanes.Pairwise (· < ·) := List.Pairwise.filter _ List.pairwise_lt_range

/-- The first field outside its window in the lowest lane gives the record of IDXBOUND. -/
theorem idxFault_of_outside {op : Op} {j : Iss} {leaders : List Nat} {f : Field} {l : Nat} (hl : LeadersOf op leaders)
    (hmem : l ∈ j.lanes) (hout : Outside op j f l) (hlow : ∀ q ∈ j.lanes, q < l → ∀ g ∈ op.regFields, ¬ Outside op j g q)
    (hfirst : ∃ fs gs, op.regFields = fs ++ f :: gs ∧ ∀ g ∈ fs, ¬ Outside op j g l) :
    idxFault j leaders op j.lanes = some (boundRec j f l) := by
  refine idxFault_of_lowest hmem (lanes_sorted j) (fun q hq hlt => idxFaultIn_none _ hl (hlow q hq hlt)) ?_
  obtain ⟨fs, gs, e, hin⟩ := hfirst
  rw [LeadersOf, e] at hl
  rw [e]
  exact idxFaultIn_append fs hl hin hout

/-! ## What the decoder's checks leave of operands and predicates (09 R223) -/

theorem mem_regFields {op : Op} {k : OpCell} {f : Field} (hk : op.cell = some k) :
    f ∈ op.regFields ↔ f ∈ cellFields k op.o ∧ f.spec.extent ≠ 0 := by
  simp [Op.regFields, Op.fields, hk]

theorem firstError_eq_none {x y : Option DecodeError} : firstError x y = none ↔ x = none ∧ y = none := by
  cases x <;> simp [firstError]

/-- A kind of field that takes no queue value (02 R61). -/
def TakesNoQueue : FieldSpec → Prop
  | .reg q _ => q = false
  | _ => True

/-- The opcode map gives no destination a queue. -/
theorem cellOf_dest_takesNoQueue {major f : Nat} {k : OpCell} (h : cellOf major f = some k) : TakesNoQueue k.d := by
  unfold cellOf at h
  split_ifs at h
  on_goal 1 => unfold cellInteger at h
  on_goal 2 => unfold cellFloat at h
  on_goal 3 => unfold cellConvert at h
  on_goal 4 => unfold cellCrossLane at h
  on_goal 5 => unfold cellMemory dataSpec at h
  on_goal 6 => unfold cellControl at h
  on_goal 7 => unfold cellMatrix at h
  on_goal 8 => unfold cellSystem at h
  all_goals
    repeat' split at h
    all_goals cases h
    all_goals trivial

theorem withLit_dest_takesNoQueue {k : OpCell} (h : TakesNoQueue k.d) : TakesNoQueue k.withLit.d := by
  unfold OpCell.withLit
  split
  case h_4 => trivial
  all_goals exact h

theorem cell_dest_takesNoQueue {op : Op} {k : OpCell} (h : op.cell = some k) : TakesNoQueue k.d := by
  obtain ⟨k0, hk0, rfl⟩ := Option.map_eq_some_iff.mp h
  have h0 := cellOf_dest_takesNoQueue hk0
  split
  · exact withLit_dest_takesNoQueue h0
  · exact h0

/-- An instruction whose bits the decoder does not refuse: its fields hold what their kinds ask, and its predicate names a register or
none. -/
theorem staticCheck_none {op : Op} (h : staticCheck op.major op.o = none) :
    ∃ k, op.cell = some k ∧ (∀ f ∈ cellFields k op.o, ∃ v : BitVec 8, f.val = v.toNat ∧ fieldOk f.spec v = none) ∧ pOk k.p op.o = true := by
  unfold staticCheck at h
  split at h
  · cases h
  · rename_i k0 hk0
    split at h
    · cases h
    · simp only [firstError_eq_none] at h
      obtain ⟨hd, ha, hb, hc, -, hp, -⟩ := h
      refine ⟨_, by rw [Op.cell, hk0]; rfl, ?_, by simpa using hp⟩
      intro f hf
      simp only [cellFields, List.mem_cons, List.not_mem_nil, or_false] at hf
      rcases hf with rfl | rfl | rfl | rfl
      exacts [⟨_, rfl, hd⟩, ⟨_, rfl, ha⟩, ⟨_, rfl, hb⟩, ⟨_, rfl, hc⟩]

/-- What `bad` records of an instruction's bits, whatever its format, is the check of its full form (09 R214, R216). -/
theorem opOf_staticCheck {i : Instr} {op : Op} (h : opOf i = some op) (hb : op.bad = false) : staticCheck op.major op.o = none := by
  unfold opOf at h
  split at h
  · cases h
    simpa [opC, staticCheckC] using hb
  · cases h
    simp only [opW, staticCheckW, Option.isSome_eq_false_iff, Option.isNone_iff_eq_none] at hb
    split at hb
    · cases hb
    · split_ifs at hb
      exact hb
  · cases h
    simpa [opL] using hb
  · cases h

/-- A field that passed the decoder's check of its bits (02 R47, R61, R69). -/
theorem fieldOk_register {k : FieldSpec} {v : BitVec 8} (h : fieldOk k v = none) (hk : k.extent ≠ 0) :
    (v.toNat < 0xF0 → v.toNat % k.extent = 0) ∧
    (0xF0 ≤ v.toNat → v.toNat < 0xF4 → k.extent = 1 ∧ ¬ TakesNoQueue k) ∧ (0xF4 ≤ v.toNat → 0xF8 ≤ v.toNat) := by
  cases k with
  | reg q x | pair x | quad x =>
    simp only [fieldOk] at h
    split_ifs at h
    all_goals simp_all only [FieldSpec.extent, TakesNoQueue, Nat.mod_one]
    all_goals grind
  | _ => exact absurd rfl hk

/-- A register field that fits its issuer (02 R45, R70). -/
theorem fieldFits_register {front : Bool} {nregs : Nat} {f : Field} (h : fieldFits front nregs f = true) (hf : f.spec.extent ≠ 0) :
    (front = true → f.val < 0xC0) ∧ (f.val < 0xF0 → f.val + f.spec.extent ≤ nregs) := by
  unfold fieldFits at h
  split at h
  · rename_i hs
    rw [hs] at hf
    exact absurd rfl hf
  · simp only [hf, decide_false, Bool.false_or] at h
    split at h
    · simp only [Bool.and_eq_true, decide_eq_true_eq] at h
      obtain ⟨hlow, hregs⟩ := h
      exact ⟨fun _ => hlow, fun _ => hregs⟩
    · rename_i hteam
      simp only [Bool.or_eq_true, decide_eq_true_eq] at h
      exact ⟨fun hfront => absurd hfront hteam, fun hlow => h.resolve_left (by omega)⟩

/-- The fields and the predicate of an instruction that its issuer may issue name registers that exist (02 R45, R47, R65, R70). -/
theorem legal_fits {op : Op} {front : Bool} {nregs width : Nat} {k : OpCell} (hk : op.cell = some k)
    (h : illegalHere op front nregs width = false) :
    (∀ f ∈ cellFields k op.o, fieldFits front nregs f = true) ∧ predFits front nregs op.o.p = true := by
  simp only [illegalHere, hk, Bool.not_eq_false', Bool.and_eq_true, List.all_eq_true] at h
  exact h.1

/-- An operand that its issuer does not have is refused, by its bits or by the place it is issued from. -/
theorem legal_operands {op : Op} {j : Iss} (hs : staticCheck op.major op.o = none)
    (hl : illegalHere op j.front j.m.nregs j.m.width = false) : ¬ BadOperand op j := by
  rintro ⟨f, hf, hbad⟩
  obtain ⟨k, hk, hok, -⟩ := staticCheck_none hs
  obtain ⟨hfits, -⟩ := legal_fits hk hl
  obtain ⟨hmem, hext⟩ := (mem_regFields hk).mp hf
  obtain ⟨hfront, hregs⟩ := fieldFits_register (hfits f hmem) hext
  obtain ⟨v, hv, hfield⟩ := hok f hmem
  obtain ⟨haligned, hqueue, hname⟩ := fieldOk_register hfield hext
  rw [← hv] at haligned hqueue hname
  have hdest : f.code = 1 → TakesNoQueue f.spec := by
    simp only [cellFields, List.mem_cons, List.not_mem_nil, or_false] at hmem
    rcases hmem with rfl | rfl | rfl | rfl
    · exact fun _ => cell_dest_takesNoQueue hk
    all_goals exact fun h => absurd h (by simp)
  rcases hbad with ⟨hlow, hmiss | hodd⟩ | ⟨hf, hhigh⟩ | ⟨hlow, hhigh, hd | hwide⟩ | ⟨hlow, hhigh⟩
  · have := hregs hlow
    omega
  · exact hodd (haligned hlow)
  · have := hfront hf
    omega
  · exact (hqueue hlow hhigh).2 (hdest hd)
  · exact hwide (hqueue hlow hhigh).1
  · have := hname hlow
    omega

theorem pOk_predicate {r : PRule} {o : LOps} (h : pOk r o = true) : o.p.toNat = 0xFF ∨ o.p.toNat < 0xF0 := by
  cases r <;> simp [pOk] at h <;> tauto

theorem legal_predicate {op : Op} {j : Iss} (hs : staticCheck op.major op.o = none)
    (hl : illegalHere op j.front j.m.nregs j.m.width = false) : ¬ BadPredicate op j := by
  rintro ⟨hnone, hbad⟩
  obtain ⟨k, hk, -, hp⟩ := staticCheck_none hs
  obtain ⟨-, hfits⟩ := legal_fits hk hl
  have hlow := (pOk_predicate hp).resolve_left hnone
  simp only [predFits, hnone, decide_false, Bool.false_or, Bool.and_eq_true, Bool.not_eq_true', decide_eq_true_eq] at hfits
  obtain ⟨hteam, hregs⟩ := hfits
  rcases hbad with hhigh | hmiss | hfront
  · omega
  · omega
  · rw [hteam] at hfront
    cases hfront

/-- What the statement calls an encoding that its issuer may not issue is one that the checks refuse (09 R223). -/
theorem refused_of_illegal {i : Instr} {op : Op} {j : Iss} (hop : opOf i = some op)
    (h : op.bad = true ∨ illegalHere op j.front j.m.nregs j.m.width = true ∨ BadOperand op j ∨ BadPredicate op j) :
    (op.bad || illegalHere op j.front j.m.nregs j.m.width) = true := by
  by_contra hn
  obtain ⟨hb, hl⟩ : op.bad = false ∧ illegalHere op j.front j.m.nregs j.m.width = false := by simpa using hn
  have hs := opOf_staticCheck hop hb
  rcases h with h | h | h | h
  · rw [hb] at h
    cases h
  · rw [hl] at h
    cases h
  · exact legal_operands hs hl h
  · exact legal_predicate hs hl h

/-! ## Every instruction runs its checks first -/

/-- An instruction is the checks of its operation with a body of its own: which fields it reads in the leader alone is what 13 R279 says of
its registers, and it may wait ahead of the checks of its lanes only as a read or write of FLAGS or FPEN, for others of its team. -/
def ChecksFirst (i : Instr) (op : Op) : Prop :=
  ∃ (leaders : List Nat) (waits : Iss → Bool), (∀ s, ∃ body, exec i s = issueWhen op leaders s waits body) ∧
    (i.wf = true → LeadersOf op leaders) ∧
    ∀ j, waits j = true → (op.major = 0xE0 ∨ op.major = 0xE1) ∧ op.o.b.toNat < 2 ∧ NotAlone j

theorem checksFirst_of_leaders {i : Instr} {op : Op} (leaders : List Nat) (hl : i.wf = true → LeadersOf op leaders)
    (h : ∀ s, ∃ body, exec i s = issue op leaders s body) : ChecksFirst i op :=
  ⟨leaders, fun _ => false, h, hl, fun _ hw => by cases hw⟩

theorem leadersOf_leaderFields (op : Op) : LeadersOf op (leaderFields op) := fun _ _ => Iff.rfl

theorem checksFirst_of_issue {i : Instr} {op : Op} (h : ∀ s, ∃ body, exec i s = issue op (leaderFields op) s body) : ChecksFirst i op :=
  checksFirst_of_leaders _ (fun _ => leadersOf_leaderFields op) h

/-- GETS of the counters notes them in the split, and is an instruction of no leader fields with any selector (12 R266). -/
theorem getsOp_issue (op : Op) (s : State) : ∃ body, getsOp op s = issue op [] s body := by
  unfold getsOp
  split
  · exact ⟨_, rfl⟩
  · exact ⟨_, rfl⟩

theorem openHeld_hasOpen {p : Split} {h : Held} (ho : openHeld p = some h) : HasOpen p h := by
  unfold openHeld at ho
  split at ho
  · cases ho
  · rename_i hn
    obtain ⟨hpend, hst⟩ : p.pend = none ∧ p.st = .waitOp := by simpa using hn
    exact ⟨hpend, hst, ho⟩

/-- An issuer alone in its team does not wait to read or write FLAGS or FPEN (15 R338; logs 53, 124). -/
theorem notAlone_of_sysWaits {n : Nat} {j : Iss} (h : sysWaits n j = true) : n < 2 ∧ NotAlone j := by
  simp only [sysWaits, othersOpen, Bool.and_eq_true, Bool.or_eq_true, decide_eq_true_eq, List.any_eq_true, List.mem_filter,
    Option.any_eq_true, Bool.not_eq_true'] at h
  obtain ⟨hn, ⟨⟨e, p⟩, ⟨hmem, he⟩, q, ho, hq⟩ | ⟨p, hmem, q, ho, hq⟩⟩ := h
  · exact ⟨by omega, fun ⟨hsplits, _⟩ => by simp [hsplits e p hmem he q (openHeld_hasOpen ho)] at hq⟩
  · exact ⟨by omega, fun ⟨_, hdefer⟩ => by simp [hdefer p hmem q (openHeld_hasOpen ho)] at hq⟩

theorem laneReg_eq_perLane (n : Nat) : laneReg n = perLane n := by
  rw [Bool.eq_iff_iff]
  simp only [laneReg, perLane, Bool.or_eq_true, Bool.and_eq_true, decide_eq_true_eq]
  omega

theorem rdsr_checksFirst (o : LOps) : ChecksFirst (.rdsr o) (opL 0xE0 o) :=
  ⟨_, _, fun _ => ⟨_, rfl⟩, fun _ => leadersOf_leaderFields _, fun _ hw => ⟨.inl rfl, notAlone_of_sysWaits hw⟩⟩

theorem wrsr_checksFirst (o : LOps) : ChecksFirst (.wrsr o) (opL 0xE1 o) := by
  refine ⟨_, _, fun _ => ⟨_, rfl⟩, fun _ => ?_, fun _ hw => ⟨.inr rfl, notAlone_of_sysWaits hw⟩⟩
  rw [laneReg_eq_perLane]
  exact leadersOf_leaderFields (opL 0xE1 o)

/-- A cell without an X96 form is the same in every form of its instruction (09 R218), so its registers alone decide the leader fields. -/
theorem leadersOf_of_cell {op : Op} {k : OpCell} {leaders : List Nat} (hk : cellOf op.major op.o.f.toNat = some k) (hlit : k.lit = .absent)
    (h : ∀ f ∈ cellFields k op.o, f.spec.extent ≠ 0 → (f.code ∈ leaders ↔ f.code ∈ leaderFields op)) : LeadersOf op leaders := by
  have hc : op.cell = some k := by simp [Op.cell, hk, OpCell.withLit, hlit]
  intro f hf
  obtain ⟨hmem, hext⟩ := (mem_regFields hc).mp hf
  exact h f hmem hext

/-- SPFREE reads a alone, in the leader (14 R319). -/
theorem spfree_leaders {op : Op} (hm : op.major = 0x69) (hf : op.o.f.toNat = 1) : LeadersOf op [2] :=
  leadersOf_of_cell (by rw [hm, hf]; rfl) rfl (by simp [cellFields, OpCell.alu, FieldSpec.extent, leaderFields, hm])

/-- SHRQ reads no register (13 R300). -/
theorem shrq_leaders {op : Op} (hm : op.major = 0x92) (hf : op.o.f.toNat = 1) : LeadersOf op [] :=
  leadersOf_of_cell (by rw [hm, hf]; rfl) rfl (by simp [cellFields, OpCell.alu, FieldSpec.extent, leaderFields, hm])

/-- XGET names an index register where XSET names a register (13 R305). -/
theorem xget_leaders {op : Op} (hm : op.major = 0x96) (hf : op.o.f.toNat = 1) : LeadersOf op [] :=
  leadersOf_of_cell (by rw [hm, hf]; rfl) rfl (by simp [cellFields, OpCell.alu, FieldSpec.extent, leaderFields, hm])

/-- A well-formed instruction of a row with one minor has that minor. -/
theorem minor_of_wf {n f : Nat} {ok : Bool} (h : ([n].contains f && ok) = true) : f = n := by
  obtain ⟨hf, -⟩ := Bool.and_eq_true_iff.mp h
  simpa using hf

/-- Every instruction of a team or front program runs its checks first: RDSR and WRSR may wait; SPFREE, SHRQ and XGET share a major with
instructions that read more fields in the leader; GETS has two bodies; each other row is `issue` with the leader fields of its major. -/
theorem exec_checksFirst (i : Instr) : ∀ op ∈ opOf i, ChecksFirst i op := by
  cases i
  case rdsr o =>
    rintro _ ⟨⟩
    exact rdsr_checksFirst o
  case wrsr o =>
    rintro _ ⟨⟩
    exact wrsr_checksFirst o
  case spfreeW32 | spfreeL64 =>
    rintro _ ⟨⟩
    exact checksFirst_of_leaders [2] (fun h => spfree_leaders rfl (minor_of_wf h)) fun _ => ⟨_, rfl⟩
  case shrqW32 | shrqL64 =>
    rintro _ ⟨⟩
    exact checksFirst_of_leaders [] (fun h => shrq_leaders rfl (minor_of_wf h)) fun _ => ⟨_, rfl⟩
  case xget =>
    rintro _ ⟨⟩
    exact checksFirst_of_leaders [] (fun h => xget_leaders rfl (minor_of_wf h)) fun _ => ⟨_, rfl⟩
  case getsW32 | getsL64 =>
    rintro _ ⟨⟩
    exact checksFirst_of_issue (getsOp_issue _)
  all_goals rintro _ ⟨⟩ <;> exact checksFirst_of_issue fun _ => ⟨_, rfl⟩

/-! ## The checks an instruction makes -/

section
variable {i : Instr} {op : Op} {s : State} {j : Iss}

theorem exec_of_no_mask (h : ChecksFirst i op) (hi : issuer s = some j) (hm : j.p.mask = 0) :
    ∃ t, exec i s = .next t ∧ WentTo j (j.next op) s t := by
  obtain ⟨leaders, waits, hex, -⟩ := h
  obtain ⟨body, hs⟩ := hex s
  rw [hs, issueWhen_runs hi fun ha => absurd hm ha.2.1, issueAs_of_no_mask hm]
  exact ⟨_, rfl, advance_wentTo (issuer_placed hi) op⟩

theorem exec_of_illegal (h : ChecksFirst i op) (hi : issuer s = some j) (hm : j.p.mask ≠ 0)
    (hb : (op.bad || illegalHere op j.front j.m.nregs j.m.width) = true) :
    Traps (exec i) j { code := 0x01, parcel := op.parcel } s s := by
  obtain ⟨leaders, waits, hex, -⟩ := h
  obtain ⟨body, hs⟩ := hex s
  refine trap_traps (issuer_placed hi) ?_
  rw [hs, issueWhen_runs hi fun ⟨_, _, hok, hl⟩ => by simp [hok, hl] at hb, issueAs_of_illegal hm hb]
  rfl

theorem exec_of_barred (h : ChecksFirst i op) (ha : AtPrivilege op s j) (hp : privBarred op j.mode = true) :
    Traps (exec i) j { code := 0x02 } s s := by
  obtain ⟨leaders, waits, hex, -⟩ := h
  obtain ⟨body, hs⟩ := hex s
  refine trap_traps (issuer_placed ha.1) ?_
  rw [hs, issueWhen_runs ha.1 fun _ hq _ => absurd (hp.symm.trans hq) (by decide), issueAs_of_barred ha hp]

theorem exec_of_no_lanes (h : ChecksFirst i op) (ha : AtPrivilege op s j) (hp : privBarred op j.mode = false) (hd : j.m.poison = [])
    (hx : j.execLanes op = 0) : ∃ t, exec i s = .next t ∧ WentTo j (j.next op) s t := by
  obtain ⟨leaders, waits, hex, -⟩ := h
  obtain ⟨body, hs⟩ := hex s
  rw [hs, issueWhen_runs ha.1 fun _ _ hn => absurd hx hn, issueAs_of_permitted ha hp hd, if_pos hx]
  exact ⟨_, rfl, advance_wentTo (issuer_placed ha.1) op⟩

theorem exec_of_indexFault {q : Iss} {s1 : State} {f : Field} {l : Nat} (h : ChecksFirst i op) (hwf : i.wf = true)
    (hf : IndexFaults op s q s1 f l) (halone : op.major = 0xE0 ∨ op.major = 0xE1 → 2 ≤ op.o.b.toNat ∨ Alone q) :
    Traps (exec i) q (boundRec q f l) s1 s := by
  obtain ⟨leaders, waits, hex, hleaders, hwaits⟩ := h
  obtain ⟨body, hs⟩ := hex s
  obtain ⟨⟨j, hi, hm, hb, hl, hp, hd, hx, hq, rfl, rfl⟩, hmem, hout, hlow, hfirst⟩ := hf
  have ha : AtPrivilege op s j := ⟨hi, hm, hb, hl⟩
  have hruns : waits j = false := by
    by_contra hn
    obtain ⟨hsys, hflags, hothers⟩ := hwaits j (by simpa using hn)
    rcases halone hsys with hhigh | halone
    · omega
    · exact hothers (by simpa [Alone, withLanes] using halone)
  refine trap_traps (popped_placed hi op) ?_
  rw [hs, issueWhen_runs hi fun _ _ _ => hruns, issueAs_of_permitted ha hp hd, if_neg hx,
    issueLanes_of_idxFault hq (idxFault_of_outside (hleaders hwf) hmem hout hlow hfirst)]
  rfl

end

/-- Settles O33: every instruction of a team or front program is `issueWhen` of its operation, whose checks stand in the order stated. -/
theorem issueChecks : Obligations.IssueChecks := by
  unfold Obligations.IssueChecks
  intro i op hop s j hi
  have h : ChecksFirst i op := exec_checksFirst i op hop
  exact ⟨exec_of_no_mask h hi, fun hm hb => exec_of_illegal h hi hm (refused_of_illegal hop hb), exec_of_barred h, exec_of_no_lanes h,
    fun _ _ _ _ hwf hf halone => exec_of_indexFault h hwf hf halone⟩

end Sys2Proof


/-! What the copy, matrix and matrix-vector engines do of themselves (O46). -/

namespace Sys2Proof

open Sys2Proof.Machine Sys2Proof.Spec

/-! ## What the end of a block leaves alone -/

/-- The byte memories of the device, the error log and the blocks of the second state are the first one's. -/
structure SameStores (s t : State) : Prop where
  mem : t.mem = s.mem
  chip : t.chip = s.chip
  spad : t.spad = s.spad
  log : t.log = s.log
  blocks : t.blocks = s.blocks

theorem SameStores.refl (s : State) : SameStores s s := ⟨rfl, rfl, rfl, rfl, rfl⟩

theorem SameStores.trans {s t u : State} (h : SameStores s t) (g : SameStores t u) : SameStores s u :=
  ⟨g.mem.trans h.mem, g.chip.trans h.chip, g.spad.trans h.spad, g.log.trans h.log, g.blocks.trans h.blocks⟩

theorem emit_sameStores (e : Event) (s : State) : SameStores s (emit e s) := ⟨rfl, rfl, rfl, rfl, rfl⟩

theorem putCtx_sameStores (s : State) (x : Nat) (c : Ctx) : SameStores s (putCtx s x c) := ⟨rfl, rfl, rfl, rfl, rfl⟩

theorem putLaunch_sameStores (s : State) (n : Nat) (l : Launch) : SameStores s (putLaunch s n l) := ⟨rfl, rfl, rfl, rfl, rfl⟩

theorem bumpCtx_eq (x k : Nat) (s : State) : bumpCtx x k s = { s with ctxs := (bumpCtx x k s).ctxs } := by
  unfold bumpCtx; split <;> rfl

theorem bumpCtx_sameStores (x k : Nat) (s : State) : SameStores s (bumpCtx x k s) := by
  rw [bumpCtx_eq]; exact ⟨rfl, rfl, rfl, rfl, rfl⟩

theorem notifyEvents_sameStores (x sel v : Nat) : ∀ (ns : List (Nat × Nat × Nat × Bool)) (s : State),
    SameStores s (notifyEvents x sel v ns s)
  | [], s => .refl s
  | (seq, q, n, ack) :: r, s => by
    unfold notifyEvents
    dsimp only
    split
    · split
      · exact ((emit_sameStores _ s).trans (emit_sameStores _ _)).trans (notifyEvents_sameStores x sel v r _)
      · exact (emit_sameStores _ s).trans (notifyEvents_sameStores x sel v r _)
    · exact notifyEvents_sameStores x sel v r s

theorem raiseTl_sameStores (s : State) (x sel value : Nat) : SameStores s (raiseTl s x sel value) := by
  unfold raiseTl
  dsimp only
  split
  · exact bumpCtx_sameStores ..
  · exact (putCtx_sameStores s x _).trans (notifyEvents_sameStores ..)

theorem launchEndCheck_sameStores (s : State) (n : Nat) : SameStores s (launchEndCheck s n) := by
  unfold launchEndCheck
  dsimp only
  split
  · exact .refl s
  · rename_i l _
    have hdone : ∀ x ps r, SameStores s (putLaunch (freePool s x ps) n r) := fun _ _ _ =>
      (putCtx_sameStores s _ _).trans (putLaunch_sameStores ..)
    have hsignal : ∀ (t : State) (c : Prop) [Decidable c],
        SameStores t (if c then raiseTl t l.ctx l.lr.tlid l.lr.tlval else bumpCtx l.ctx 2 t) := by
      intro t c _
      split
      · exact raiseTl_sameStores ..
      · exact bumpCtx_sameStores ..
    split
    · split
      · exact ((hdone ..).trans (hsignal ..)).trans (emit_sameStores ..)
      · exact (hdone ..).trans (hsignal ..)
    · exact .refl s

/-- Blocks may go and commands may finish; the byte memories of the device and the error log stay. -/
structure OnlyEnds (s t : State) : Prop where
  mem : t.mem = s.mem
  chip : t.chip = s.chip
  spad : t.spad = s.spad
  log : t.log = s.log
  cmds : ∀ b k', Tbl.get t.blocks b = some k' → ∃ k, Tbl.get s.blocks b = some k ∧
    ∀ c' ∈ k'.cmds, ∃ c ∈ k.cmds, c.tl = c'.tl ∧ c.num = c'.num ∧ (c.finished = true → c'.finished = true)

theorem SameStores.onlyEnds {s t : State} (h : SameStores s t) : OnlyEnds s t :=
  ⟨h.mem, h.chip, h.spad, h.log, fun _ k' hk => ⟨k', h.blocks ▸ hk, fun c hc => ⟨c, hc, rfl, rfl, id⟩⟩⟩

theorem OnlyEnds.refl (s : State) : OnlyEnds s s := (SameStores.refl s).onlyEnds

theorem OnlyEnds.trans {s t u : State} (h : OnlyEnds s t) (g : OnlyEnds t u) : OnlyEnds s u := by
  refine ⟨g.mem.trans h.mem, g.chip.trans h.chip, g.spad.trans h.spad, g.log.trans h.log, fun b k'' hk'' => ?_⟩
  obtain ⟨k', hk', hc'⟩ := g.cmds b k'' hk''
  obtain ⟨k, hk, hc⟩ := h.cmds b k' hk'
  refine ⟨k, hk, fun c'' hc'' => ?_⟩
  obtain ⟨c', h1, htl', hnum', hfin'⟩ := hc' c'' hc''
  obtain ⟨c, h2, htl, hnum, hfin⟩ := hc c' h1
  exact ⟨c, h2, htl.trans htl', hnum.trans hnum', fun h => hfin' (hfin h)⟩

theorem OnlyEnds.noneOpen {s t : State} (h : OnlyEnds s t) {b sel n : Nat} (hs : NoneOpen s b sel n) : NoneOpen t b sel n := by
  intro k' hk' c' hc' htl hnum
  obtain ⟨k, hk, hcmds⟩ := h.cmds b k' hk'
  obtain ⟨c, hc, htl', hnum', hfin⟩ := hcmds c' hc'
  exact hfin (hs k hk c hc (htl'.trans htl) (hnum'.trans hnum))

theorem freeBlock_onlyEnds (s : State) (b : Nat) (k : Block) (x : Nat) : OnlyEnds s (freeBlock s b k x) := by
  have hgone : ∀ q k', Tbl.get (freeBlock s b k x).blocks q = some k' → Tbl.get s.blocks q = some k' := by
    intro q k' hk'
    by_cases hq : q = b
    · subst hq
      exact absurd ((Tbl.get_del_same s.blocks q).symm.trans hk') (by simp)
    · exact (Tbl.get_del_other s.blocks hq).symm.trans hk'
  refine ⟨?_, ?_, ?_, ?_, fun q k' hk' => ⟨k', hgone q k' hk', fun c hc => ⟨c, hc, rfl, rfl, id⟩⟩⟩
  all_goals
    unfold freeBlock
    dsimp only
    split <;> rfl

theorem retireBlock_onlyEnds (s : State) (b : Nat) : OnlyEnds s (retireBlock s b) := by
  unfold retireBlock
  dsimp only
  iterate 3 (split; · exact .refl s)
  split
  · exact freeBlock_onlyEnds ..
  · split
    · exact .refl s
    · rename_i k _ _ l _ _ _ _
      refine ((freeBlock_onlyEnds s b k l.ctx).trans ?_).trans (launchEndCheck_sameStores ..).onlyEnds
      split <;> exact (putLaunch_sameStores ..).onlyEnds

theorem retireAll_onlyEnds : ∀ (bs : List Nat) (s : State), OnlyEnds s (retireAll bs s)
  | [], s => .refl s
  | b :: r, s => (retireBlock_onlyEnds s b).trans (retireAll_onlyEnds r _)

theorem retireRounds_onlyEnds : ∀ (fuel : Nat) (s : State), OnlyEnds s (retireRounds fuel s)
  | 0, s => .refl s
  | fuel + 1, s => by
    unfold retireRounds
    dsimp only
    split
    · exact .refl s
    · exact (retireAll_onlyEnds ..).trans (retireRounds_onlyEnds fuel _)

/-- The commands of an ended block stay, finished or as they were. -/
theorem abandonStalled_cmds (k : Block) : ∀ c' ∈ (abandonStalled k).cmds, ∃ c ∈ k.cmds, c.tl = c'.tl ∧ c.num = c'.num ∧
    (c.finished = true → c'.finished = true) := by
  intro c' hc'
  have hmapped : c' ∈ k.cmds.map (fun c => match Tbl.get k.teams c.team with
      | none => if c.stalled then { c with stalled := false, finished := true } else c
      | some m => if c.stalled && !teamLive m then { c with stalled := false, finished := true } else c) :=
    List.mem_of_mem_filter (List.mem_of_mem_filter hc')
  obtain ⟨c, hc, rfl⟩ := List.mem_map.mp hmapped
  refine ⟨c, hc, ?_⟩
  split <;> split <;> simp_all

theorem blockEndCheck_onlyEnds (s : State) (b : Nat) : OnlyEnds s (blockEndCheck s b) := by
  unfold blockEndCheck
  split
  · exact .refl s
  · rename_i k hk
    split
    · refine OnlyEnds.trans ?_ ((retireBlock_onlyEnds _ b).trans (retireRounds_onlyEnds _ _))
      refine ⟨rfl, rfl, rfl, rfl, fun q k' hk' => ?_⟩
      by_cases hq : q = b
      · subst hq
        obtain rfl : abandonStalled { k with ended := true, sig := blockSig k } = k' := by simpa [putBlock] using hk'
        exact ⟨k, hk, abandonStalled_cmds _⟩
      · refine ⟨k', ?_, fun c hc => ⟨c, hc, rfl, rfl, id⟩⟩
        simpa [putBlock, Tbl.get_put_other _ _ hq] using hk'
    · exact .refl s

/-! ## A command that completes (04 R104) -/

theorem blockTl_setBlockTl (k : Block) (sel : Nat) (t : Timeline) : blockTl (setBlockTl k sel t) sel = t := by
  unfold setBlockTl
  split
  · rfl
  · rfl
  · rename_i hcopy hmma
    unfold blockTl
    split
    · exact (hcopy rfl).elim
    · exact (hmma rfl).elim
    · rfl

/-- A timeline put in place changes timelines alone. -/
theorem setBlockTl_eq (k : Block) (sel : Nat) (t : Timeline) : setBlockTl k sel t =
    { k with copyTl := (setBlockTl k sel t).copyTl, mmaTl := (setBlockTl k sel t).mmaTl, mvTl := (setBlockTl k sel t).mvTl } := by
  unfold setBlockTl
  split <;> rfl

/-- The least of a number and those of a list. -/
theorem foldl_min_spec : ∀ (l : List Nat) (a : Nat), l.foldl min a ≤ a ∧ (∀ v ∈ l, l.foldl min a ≤ v) ∧
    (l.foldl min a = a ∨ l.foldl min a ∈ l)
  | [], a => by simp
  | v :: r, a => by
    obtain ⟨hle, hall, hmem⟩ := foldl_min_spec r (min a v)
    simp only [List.foldl_cons, List.mem_cons, forall_eq_or_imp]
    refine ⟨by omega, ⟨by omega, hall⟩, ?_⟩
    rcases hmem with h | h
    · rcases le_total a v with hv | hv
      · exact .inl (by rw [h]; omega)
      · exact .inr (.inl (by rw [h]; omega))
    · exact .inr (.inr h)

theorem mem_openNums {k : Block} {sel n : Nat} : n ∈ openNums k sel ↔ ∃ c ∈ k.cmds, c.tl = sel ∧ c.finished = false ∧ c.num = n := by
  simp [openNums, and_assoc]

/-- V of a timeline once it has settled: below every open number, and as large as that allows (04 R104). -/
theorem settleTl_spec (sel : Nat) (k : Block) :
    (blockTl (settleTl sel k) sel).n = (blockTl k sel).n ∧ (blockTl (settleTl sel k) sel).v ≤ (blockTl k sel).n ∧
    (∀ n ∈ openNums k sel, (blockTl (settleTl sel k) sel).v ≤ n - 1) ∧
    ((blockTl (settleTl sel k) sel).v = (blockTl k sel).n ∨ ∃ n ∈ openNums k sel, (blockTl (settleTl sel k) sel).v = n - 1) := by
  have hv : blockTl (settleTl sel k) sel =
      { blockTl k sel with v := ((openNums k sel).map (fun n => n - 1)).foldl min (blockTl k sel).n } :=
    blockTl_setBlockTl k sel _
  obtain ⟨hle, hall, hmem⟩ := foldl_min_spec ((openNums k sel).map (fun n => n - 1)) (blockTl k sel).n
  rw [hv]
  refine ⟨rfl, hle, fun n hn => hall _ (List.mem_map_of_mem hn), hmem.imp id fun h => ?_⟩
  obtain ⟨n, hn, he⟩ := List.mem_map.mp h
  exact ⟨n, hn, he.symm⟩

theorem settleTl_eq (sel : Nat) (k : Block) : settleTl sel k =
    { k with cmds := (settleTl sel k).cmds, copyTl := (settleTl sel k).copyTl, mmaTl := (settleTl sel k).mmaTl,
             mvTl := (settleTl sel k).mvTl } := by
  unfold settleTl
  dsimp only
  rw [setBlockTl_eq]

/-- A command's end is what R104 says of it. -/
theorem finishCmd_finishedIn (sel n : Nat) (k : Block) : FinishedIn sel n k (finishCmd sel n k) := by
  set done : EngCmd → EngCmd := fun c => { c with finished := true, stalled := false } with hdone
  have hcmd : ∀ c ∈ (mapCmd sel n done k).cmds, (c.tl = sel → c.num = n → c.finished = true) ∧
      (c.finished = false → c ∈ k.cmds) := by
    intro c hc
    obtain ⟨q, hq, rfl⟩ := List.mem_map.mp hc
    split
    · simp [hdone]
    · simp_all
  have hkept : ∀ c ∈ k.cmds, ¬ (c.tl = sel ∧ c.num = n) → c ∈ (mapCmd sel n done k).cmds := fun c hc hne =>
    List.mem_map.mpr ⟨c, hc, if_neg (by simpa using hne)⟩
  obtain ⟨hn, hle, hbelow, hmost⟩ := settleTl_spec sel (mapCmd sel n done k)
  have htl : blockTl (mapCmd sel n done k) sel = blockTl k sel := rfl
  rw [htl] at hn hle hmost
  refine ⟨?_, fun c hc => (hcmd c (List.mem_of_mem_filter hc)).1, fun c hc hne hopen => ?_, hn, hle, fun c hc hs hne hopen hpos => ?_, ?_⟩
  · exact settleTl_eq sel (mapCmd sel n done k)
  · exact List.mem_filter.mpr ⟨hkept c hc hne, by simp [hopen]⟩
  · have := hbelow c.num (mem_openNums.mpr ⟨c, hkept c hc (fun h => hne h.2), hs, hopen, rfl⟩)
    exact lt_of_le_of_lt this (by omega)
  · refine hmost.imp id fun ⟨v, hv, he⟩ => ?_
    obtain ⟨c, hc, hs, hopen, rfl⟩ := mem_openNums.mp hv
    refine ⟨c, (hcmd c hc).2 hopen, hs, fun hnum => ?_, hopen, ?_⟩
    · rw [(hcmd c hc).1 hs hnum] at hopen
      cases hopen
    · exact le_of_le_of_eq (by omega) (congrArg (· + 1) he.symm)

/-- A command's end, in a block that stands, once its store's data are paid into the signatures. -/
theorem completeCmd_cmdDone {s : State} {b sel n : Nat} {k : Block} (hk : Tbl.get (payCopy s b sel n).blocks b = some k) :
    CmdDone b sel n (payCopy s b sel n) (completeCmd s b sel n) := by
  have hput : onBlock (payCopy s b sel n) b (finishCmd sel n) = putBlock (payCopy s b sel n) b (finishCmd sel n k) := by
    simp [onBlock, hk]
  unfold completeCmd clearRaces
  rw [hput]
  split
  · exact ⟨k, _, _, hk, finishCmd_finishedIn sel n k, .inl rfl, rfl⟩
  · exact ⟨k, _, _, hk, finishCmd_finishedIn sel n k, .inr rfl, rfl⟩

theorem Spec.CmdDone.noneOpen {b sel n : Nat} {s t : State} (h : CmdDone b sel n s t) : NoneOpen t b sel n := by
  obtain ⟨k, k', notes, -, ⟨-, hfin, -⟩, -, rfl⟩ := h
  refine (blockEndCheck_onlyEnds _ b).noneOpen fun q hq => ?_
  obtain rfl : k' = q := by simpa [putBlock] using hq
  exact hfin

/-! ## Bytes that land in scratchpads -/

/-- The two states differ at most in the scratchpads, what is noted of their bytes, and what the caches hold. -/
def OnlyScratch (s t : State) : Prop :=
  t = { s with spad := t.spad, spadPoison := t.spadPoison, spadRaces := t.spadRaces, hbm := t.hbm, l2 := t.l2, tlb := t.tlb }

theorem OnlyScratch.refl (s : State) : OnlyScratch s s := rfl

theorem OnlyScratch.trans {s t u : State} (h : OnlyScratch s t) (g : OnlyScratch t u) : OnlyScratch s u := by
  rw [show t = _ from h] at g
  exact g

theorem OnlyCaches.onlyScratch {s t : State} (h : OnlyCaches s t) : OnlyScratch s t := by
  rw [show t = _ from h]; rfl

theorem putSpad_onlyScratch (s : State) (a : Nat) (bs : List Byte) : OnlyScratch s (putSpad s a bs) := rfl

theorem noteTarget_caches (s : State) (x : Nat) (t : Machine.Target) : OnlyCaches s (noteTarget s x t) := by
  unfold noteTarget noteXlate
  split
  · split
    · rfl
    · split <;> rfl
  · rfl

/-- What a block sees outside the scratchpads, and where their bytes are the same, is the same. -/
theorem blockSees_of_onlyScratch {s t : State} (h : OnlyScratch s t) {b : Nat} {p : Phys}
    (hp : ∀ a, p = .spad a → Sparse.get (w := 8) t.spad a = Sparse.get (w := 8) s.spad a) : blockSees t b p = blockSees s b p := by
  cases p with
  | spad a => exact hp a rfl
  | cap _ | sys _ | chip _ | tlmap _ _ | sbmap _ _ => rw [show t = _ from h]; rfl

/-- Bytes land in the scratchpads, in order; nothing else changes but notes and caches. -/
def Lands (s : State) (ws : List (Nat × Byte)) (t : State) : Prop := OnlyScratch s t ∧ t.spad = installBytes s.spad ws

theorem installBytes_append : ∀ (xs ys : List (Nat × Byte)) (m : List Host.Cell),
    installBytes m (xs ++ ys) = installBytes (installBytes m xs) ys
  | [], _, _ => rfl
  | (a, v) :: r, ys, m => installBytes_append r ys (Sparse.set (w := 8) m a v)

theorem get_installBytes_other : ∀ {ws : List (Nat × Byte)} {m : List Host.Cell} {a : Nat}, (∀ w ∈ ws, w.1 ≠ a) →
    Sparse.get (w := 8) (installBytes m ws) a = Sparse.get (w := 8) m a
  | [], _, _, _ => rfl
  | w :: r, m, a, h => by
    rw [List.forall_mem_cons] at h
    exact (get_installBytes_other h.2).trans (Sparse.get_set_other (w := 8) m w.2 (Ne.symm h.1))

/-- Where all that lands at a place is one byte, that byte stands there. -/
theorem get_installBytes_mem : ∀ {ws : List (Nat × Byte)} {m : List Host.Cell} {a : Nat} {v : Byte}, (a, v) ∈ ws →
    (∀ w ∈ ws, w.1 = a → w.2 = v) → Sparse.get (w := 8) (installBytes m ws) a = v
  | w :: r, m, a, v, hmem, hsame => by
    rw [List.forall_mem_cons] at hsame
    change Sparse.get (w := 8) (installBytes (Sparse.set (w := 8) m w.1 w.2) r) a = v
    by_cases hr : (a, v) ∈ r
    · exact get_installBytes_mem hr hsame.2
    · obtain rfl : (a, v) = w := (List.mem_cons.mp hmem).resolve_right hr
      have hother : ∀ x ∈ r, x.1 ≠ a := by
        rintro ⟨_, u⟩ hx rfl
        exact hr (hsame.2 _ hx rfl ▸ hx)
      exact (get_installBytes_other hother).trans (Sparse.get_set_same (w := 8) m a v)

theorem OnlyCaches.lands {s t : State} (h : OnlyCaches s t) : Lands s [] t :=
  ⟨h.onlyScratch, by rw [show t = _ from h]; rfl⟩

theorem Lands.refl (s : State) : Lands s [] s := ⟨.refl s, rfl⟩

theorem Lands.trans {s t u : State} {xs ys : List (Nat × Byte)} (h : Lands s xs t) (g : Lands t ys u) : Lands s (xs ++ ys) u :=
  ⟨h.1.trans g.1, by rw [g.2, h.2, installBytes_append]⟩

theorem putSpad_lands (s : State) (a : Nat) (v : Byte) : Lands s [(a, v)] (putSpad s a [v]) := ⟨rfl, rfl⟩

theorem Lands.get_other {s t : State} {ws : List (Nat × Byte)} (h : Lands s ws t) {a : Nat} (ha : ∀ w ∈ ws, w.1 ≠ a) :
    Sparse.get (w := 8) t.spad a = Sparse.get (w := 8) s.spad a := by
  rw [h.2, get_installBytes_other ha]

theorem Lands.get_mem {s t : State} {ws : List (Nat × Byte)} (h : Lands s ws t) {a : Nat} {v : Byte} (hmem : (a, v) ∈ ws)
    (hsame : ∀ w ∈ ws, w.1 = a → w.2 = v) : Sparse.get (w := 8) t.spad a = v := by
  rw [h.2, get_installBytes_mem hmem hsame]

theorem Lands.blockSees {s t : State} {ws : List (Nat × Byte)} (h : Lands s ws t) {b : Nat} {p : Phys}
    (hp : ∀ w ∈ ws, p ≠ .spad w.1) : Spec.blockSees t b p = Spec.blockSees s b p :=
  blockSees_of_onlyScratch h.1 fun _ ha => h.get_other fun w hw e => hp w hw (e ▸ ha)

/-- A fold each of whose steps lands bytes, as long as what has landed lies where `ok` allows. -/
theorem lands_foldl {α : Type} {s : State} {ok : Nat → Prop} {step : State → α → State} {ws : α → List (Nat × Byte)} :
    ∀ {l : List α} {u : State} {xs : List (Nat × Byte)}, Lands s xs u → (∀ x ∈ xs, ok x.1) → (∀ c ∈ l, ∀ x ∈ ws c, ok x.1) →
      (∀ (u : State) (xs : List (Nat × Byte)), Lands s xs u → (∀ x ∈ xs, ok x.1) → ∀ c ∈ l, Lands u (ws c) (step u c)) →
      Lands u (l.flatMap ws) (l.foldl step u)
  | [], u, _, _, _, _, _ => .refl u
  | c :: l, u, xs, hu, hxs, hok, hstep => by
    rw [List.forall_mem_cons] at hok
    have hc := hstep u xs hu hxs c (List.mem_cons_self ..)
    rw [List.flatMap_cons]
    refine hc.trans (lands_foldl (hu.trans hc) (fun x hx => ?_) hok.2 fun v ys hv hys d hd => hstep v ys hv hys d (List.mem_cons_of_mem _ hd))
    exact (List.mem_append.mp hx).elim (hxs x) (hok.1 x)

/-! ## A tensor load (04 R117) -/

theorem copyStands_iff {s : State} {id a : Nat} : copyStands s id a = true ↔ Spec.Stands s id a := by
  unfold copyStands Spec.Stands
  cases Tbl.get s.spadRaces a <;> simp

/-- Whether a copy's byte stands depends on what is noted of its place alone. -/
theorem copyStands_congr {s t : State} {a : Nat} (h : Tbl.get t.spadRaces a = Tbl.get s.spadRaces a) (id : Nat) :
    copyStands t id a = copyStands s id a := by
  unfold copyStands
  rw [h]

theorem spadRaces_putSpad_other (s : State) (v : Byte) {a c : Nat} (h : c ≠ a) :
    Tbl.get (putSpad s a [v]).spadRaces c = Tbl.get s.spadRaces c := by
  unfold putSpad
  dsimp only
  split
  · exact Tbl.get_put_other _ _ (by simpa using h)
  · rfl

/-- A loaded byte lands where it stands, and is noted at its own place alone. -/
theorem loadByte_lands (id a : Nat) (v : Byte) (s : State) :
    Lands s (if copyStands s id a then [(a, v)] else []) (loadByte id a v s) ∧
    ∀ c, c ≠ a → Tbl.get (loadByte id a v s).spadRaces c = Tbl.get s.spadRaces c := by
  unfold loadByte
  split
  · exact ⟨putSpad_lands s a v, fun c hc => spadRaces_putSpad_other s v hc⟩
  · exact ⟨.refl s, fun _ _ => rfl⟩

/-- What a load brings to a byte of the box (04 R117). -/
def boxValue (s : State) (j : CopyJob) (place : Nat → Phys) (k : Nat) : Byte :=
  if (boxByte j.y j.c k).2 = 0 then j.y.fill
  else (blockSees s j.b (place k) &&& (boxByte j.y j.c k).2) ||| (j.y.fill &&& ~~~(boxByte j.y j.c k).2)

/-- The bytes of a box that a load lands, by their places. -/
def boxWrites (s : State) (j : CopyJob) (place : Nat → Phys) (ks : List Nat) : List (Nat × Byte) :=
  (ks.filter (fun k => copyStands s j.born (j.spad k))).map (fun k => (j.spad k, boxValue s j place k))

theorem boxWrites_cons (s : State) (j : CopyJob) (place : Nat → Phys) (k : Nat) (ks : List Nat) :
    boxWrites s j place (k :: ks) =
      (if copyStands s j.born (j.spad k) then [(j.spad k, boxValue s j place k)] else []) ++ boxWrites s j place ks := by
  unfold boxWrites
  rw [List.filter_cons]
  split <;> rfl

/-- Where a global address leads an engine: into the capacity tier or, for a load, a map of the context (04 R107). -/
theorem reach_global {s : State} {x a : Nat} {failed : List Nat} {need : Need} {load : Bool} {p : Phys}
    (h : reachTarget s x failed need (globalTarget s x a load) = .go p) :
    (∃ pa, p = .cap pa) ∨ load = true ∧ ((∃ off, p = .tlmap x off) ∨ ∃ off, p = .sbmap x off) := by
  unfold globalTarget at h
  dsimp only at h
  split at h
  · cases h
  · split at h
    · split at h
      · cases h
        exact .inr ⟨‹_›, .inl ⟨_, rfl⟩⟩
      · cases h
    · split at h
      · split at h
        · cases h
          exact .inr ⟨‹_›, .inr ⟨_, rfl⟩⟩
        · cases h
      · simp only [reachTarget, reach] at h
        split at h
        · cases h
        · split at h
          · split at h
            · cases h
            · rename_i hsys
              have hfalse := (Bool.or_eq_false_iff.mp (Bool.or_eq_false_iff.mp (Bool.or_eq_false_iff.mp (Bool.not_eq_true _ ▸ hsys)).1).1).1
              rw [decide_eq_false_iff_not, not_not] at hfalse
              subst hfalse
              cases h
              exact .inl ⟨_, rfl⟩
          · cases h

/-- The places of a box's bytes that lie in the tensor. -/
theorem Spec.CopyGoes.place_global {j : CopyJob} {failed : List Nat} {place : Nat → Phys} {s t : State} {ks : List Nat}
    (h : CopyGoes j failed place s ks t) : ∀ k ∈ ks, (boxByte j.y j.c k).2 ≠ 0 →
      (∃ pa, place k = .cap pa) ∨ j.store = false ∧ ((∃ off, place k = .tlmap j.x off) ∨ ∃ off, place k = .sbmap j.x off) := by
  induction h with
  | none => simp
  | outside s t k ks hout _ ih =>
    rw [List.forall_mem_cons]
    exact ⟨fun h => absurd hout h, ih⟩
  | inside s t k ks _ hreach _ _ _ ih =>
    rw [List.forall_mem_cons]
    refine ⟨fun _ => ?_, ih⟩
    rcases reach_global hreach with hcap | ⟨hload, hmap⟩
    · exact .inl hcap
    · exact .inr ⟨by simpa using hload, hmap⟩

theorem Spec.CopyGoes.place_ne_spad {j : CopyJob} {failed : List Nat} {place : Nat → Phys} {s t : State} {ks : List Nat}
    (h : CopyGoes j failed place s ks t) {k : Nat} (hk : k ∈ ks) (hin : (boxByte j.y j.c k).2 ≠ 0) (a : Nat) : place k ≠ .spad a := by
  rcases h.place_global k hk hin with ⟨pa, hp⟩ | ⟨-, ⟨off, hp⟩ | ⟨off, hp⟩⟩ <;> simp [hp]

theorem Machine.CopyJob.spad_inj (j : CopyJob) {k q : Nat} (h : j.spad k = j.spad q) : k = q := by
  simpa [CopyJob.spad] using h

/-- A byte of the box that a load moves lands as the box is to have it. -/
theorem copyByte_lands {s : State} {j : CopyJob} {place : Nat → Phys} {k : Nat} (hload : j.store = false)
    (hin : (boxByte j.y j.c k).2 ≠ 0) (g : Machine.Target) :
    Lands s (if copyStands s j.born (j.spad k) then [(j.spad k, boxValue s j place k)] else [])
      (copyByte j k (noteTarget s j.x g) (place k)) ∧
    ∀ c, c ≠ j.spad k → Tbl.get (copyByte j k (noteTarget s j.x g) (place k)).spadRaces c = Tbl.get s.spadRaces c := by
  have hnote := noteTarget_caches s j.x g
  have hcaches := hnote.trans (touch_caches (noteTarget s j.x g) (place k) false)
  have hnoted : ∀ c, Tbl.get (touch (noteTarget s j.x g) (place k) false).spadRaces c = Tbl.get s.spadRaces c := fun c => by
    rw [show touch (noteTarget s j.x g) (place k) false = _ from hcaches]
  have hvalue : copyValue j k (noteTarget s j.x g) (place k) = boxValue s j place k := by
    unfold copyValue boxValue
    rw [hload, if_neg hin, ← hnote.lands.blockSees (b := j.b) (p := place k) (by simp)]
    rfl
  obtain ⟨hland, hraces⟩ := loadByte_lands j.born (j.spad k) (boxValue s j place k) (touch (noteTarget s j.x g) (place k) false)
  have hbyte : copyByte j k (noteTarget s j.x g) (place k) =
      loadByte j.born (j.spad k) (boxValue s j place k) (touch (noteTarget s j.x g) (place k) false) := by
    simp [copyByte, hload, hvalue]
  rw [copyStands_congr (hnoted _)] at hland
  rw [hbyte]
  exact ⟨hcaches.lands.trans hland, fun c hc => (hraces c hc).trans (hnoted c)⟩

/-- The bytes still to land are the same once one of the box has landed. -/
theorem boxWrites_congr {s s' : State} {j : CopyJob} {place : Nat → Phys} {k : Nat} {ks : List Nat} {ws : List (Nat × Byte)}
    (hland : Lands s ws s') (hraces : ∀ c, c ≠ j.spad k → Tbl.get s'.spadRaces c = Tbl.get s.spadRaces c) (hk : k ∉ ks)
    (hplace : ∀ q ∈ ks, (boxByte j.y j.c q).2 ≠ 0 → ∀ a, place q ≠ .spad a) : boxWrites s' j place ks = boxWrites s j place ks := by
  unfold boxWrites
  rw [List.filter_congr fun q hq => copyStands_congr (hraces (j.spad q) fun e => hk (j.spad_inj e ▸ hq)) j.born]
  refine List.map_congr_left fun q hq => Prod.ext rfl ?_
  unfold boxValue
  split
  · rfl
  · rename_i hin
    dsimp only
    rw [hland.blockSees fun w _ => hplace q (List.mem_of_mem_filter hq) hin w.1]

/-- A load lands the bytes of its box, each as it was to be when the load began. -/
theorem Spec.CopyGoes.lands {j : CopyJob} {failed : List Nat} {place : Nat → Phys} {s t : State} {ks : List Nat}
    (h : CopyGoes j failed place s ks t) (hload : j.store = false) (hks : ks.Nodup) : Lands s (boxWrites s j place ks) t := by
  induction h with
  | none s => exact .refl s
  | outside s t k ks hout hgoes ih =>
    obtain ⟨hk, hks⟩ := List.nodup_cons.mp hks
    rw [hload, if_neg (by decide)] at hgoes ih
    obtain ⟨hland, hraces⟩ := loadByte_lands j.born (j.spad k) j.y.fill s
    have hrest := ih hks
    rw [boxWrites_congr hland hraces hk fun q hq => hgoes.place_ne_spad hq] at hrest
    rw [boxWrites_cons, show boxValue s j place k = j.y.fill from if_pos hout]
    exact hland.trans hrest
  | inside s t k ks hin _ _ _ hgoes ih =>
    obtain ⟨hk, hks⟩ := List.nodup_cons.mp hks
    obtain ⟨hland, hraces⟩ := copyByte_lands (s := s) (place := place) hload hin (globalTarget s j.x (boxByte j.y j.c k).1 (!j.store))
    have hrest := ih hks
    rw [boxWrites_congr hland hraces hk fun q hq => hgoes.place_ne_spad hq] at hrest
    rw [boxWrites_cons]
    exact hland.trans hrest

theorem Spec.CopyGoes.boxLoaded {j : CopyJob} {failed : List Nat} {place : Nat → Phys} {s t : State} {ks : List Nat}
    (h : CopyGoes j failed place s ks t) (hload : j.store = false) (hks : ks.Nodup) : BoxLoaded j ks place s t := by
  have hland := h.lands hload hks
  have hframe : t = _ := hland.1
  refine ⟨by rw [hframe], by rw [hframe], by rw [hframe], fun k hk hst => ?_, fun a ha => hland.get_other fun w hw => ?_⟩
  · refine hland.get_mem (v := boxValue s j place k) ?_ fun w hw he => ?_
    · exact List.mem_map_of_mem (List.mem_filter.mpr ⟨hk, copyStands_iff.mpr hst⟩)
    · obtain ⟨q, -, rfl⟩ := List.mem_map.mp hw
      exact congrArg (boxValue s j place) (j.spad_inj he)
  · obtain ⟨q, hq, rfl⟩ := List.mem_map.mp hw
    obtain ⟨hq, hst⟩ := List.mem_filter.mp hq
    exact Ne.symm (ha q hq (copyStands_iff.mp hst))

/-! ## A run over the bytes of a box -/

theorem storeRoomAt_of {s : State} {b : Nat} {p : Phys} (h : ∀ pa, p = .cap pa → shadowRoom s b pa = true) :
    copyStep.storeRoomAt s b p = true := by
  cases p with
  | cap pa => exact h pa rfl
  | sys _ | spad _ | chip _ | tlmap _ _ | sbmap _ _ => rfl

/-- Bytes of a box that go in turn are what a run over them moves: it waits for nothing and meets no fault. -/
theorem Spec.CopyGoes.copySteps {j : CopyJob} {failed : List Nat} {place : Nat → Phys} {s t : State} {ks : List Nat}
    (h : CopyGoes j failed place s ks t) : ∀ r : CopyRun, r.s = s → ∃ wrote,
      Machine.copySteps j failed r ks = { r with s := t, moved := r.moved ++ ks, wrote := wrote } ∧ (j.store = false → wrote = r.wrote) := by
  induction h with
  | none s => rintro r rfl; exact ⟨r.wrote, by simp [Machine.copySteps], fun _ => rfl⟩
  | outside s t k ks hout hgoes ih =>
    rintro r rfl
    have hstep : copyStep j failed r k =
        { r with s := if j.store then r.s else loadByte j.born (j.spad k) j.y.fill r.s, moved := r.moved ++ [k] } := by
      unfold copyStep
      dsimp only
      rw [if_pos hout]
      split <;> rfl
    obtain ⟨wrote, hrun, hwrote⟩ := ih (copyStep j failed r k) (by rw [hstep])
    exact ⟨wrote, by rw [Machine.copySteps, hrun, hstep]; simp, fun hl => by rw [hwrote hl, hstep]⟩
  | inside s t k ks hin hreach hhurt hroom hgoes ih =>
    rintro r rfl
    have hroom' : (j.store && !copyStep.storeRoomAt r.s j.b (place k)) = false := by
      cases hs : j.store with
      | false => rfl
      | true => simp [storeRoomAt_of (hroom hs)]
    have hstep : copyStep j failed r k =
        { r with s := copyByte j k (noteTarget r.s j.x (globalTarget r.s j.x (boxByte j.y j.c k).1 (!j.store))) (place k),
                 moved := r.moved ++ [k], wrote := if j.store then Tbl.put r.wrote k (copyValue j k r.s (place k)) else r.wrote } := by
      unfold copyStep
      dsimp only
      rw [if_neg hin, hreach]
      dsimp only
      rw [hroom', hhurt]
      rfl
    obtain ⟨wrote, hrun, hwrote⟩ := ih (copyStep j failed r k) (by rw [hstep])
    exact ⟨wrote, by rw [Machine.copySteps, hrun, hstep]; simp, fun hl => by rw [hwrote hl, hstep, hl]; rfl⟩

/-! ## What a run keeps of blocks, launches and the error log -/

/-- What a store leaves of a launch: its record, its state, and which gangs it has. -/
def standing (l : Launch) : Nat × LaunchRec × LaunchState × List (Nat × Nat) :=
  (l.ctx, l.lr, l.st, l.gangs.map (fun g => (g.idx, g.copy)))

/-- Block `b` and its launch stand as they stood, for all that its teams and its unit's shadow have changed; no other block has
changed, and no command has been abandoned. -/
structure RunKeeps (b : Nat) (s t : State) : Prop where
  others : ∀ q, q ≠ b → Tbl.get t.blocks q = Tbl.get s.blocks q
  block : ∀ k, Tbl.get s.blocks b = some k → ∃ k', Tbl.get t.blocks b = some k' ∧ k' = { k with teams := k'.teams } ∧
    ∀ u, (Tbl.get k'.teams u).map (fun m => m.st) = (Tbl.get k.teams u).map (fun m => m.st)
  launches : ∀ n, (Tbl.get t.launches n).map standing = (Tbl.get s.launches n).map standing
  abandons : Tbl.get t.log.counters clsAbandon = Tbl.get s.log.counters clsAbandon

theorem RunKeeps.of_same {b : Nat} {s t : State} (hb : t.blocks = s.blocks)
    (hl : ∀ n, (Tbl.get t.launches n).map standing = (Tbl.get s.launches n).map standing)
    (ha : Tbl.get t.log.counters clsAbandon = Tbl.get s.log.counters clsAbandon) : RunKeeps b s t :=
  ⟨fun q _ => by rw [hb], fun k hk => ⟨k, by rw [hb, hk], rfl, fun _ => rfl⟩, hl, ha⟩

theorem RunKeeps.refl (b : Nat) (s : State) : RunKeeps b s s := .of_same rfl (fun _ => rfl) rfl

theorem RunKeeps.trans {b : Nat} {s t u : State} (h : RunKeeps b s t) (g : RunKeeps b t u) : RunKeeps b s u := by
  refine ⟨fun q hq => (g.others q hq).trans (h.others q hq), fun k hk => ?_, fun n => (g.launches n).trans (h.launches n),
    g.abandons.trans h.abandons⟩
  obtain ⟨k', hk', e', ht'⟩ := h.block k hk
  obtain ⟨k'', hk'', e'', ht''⟩ := g.block k' hk'
  refine ⟨k'', hk'', ?_, fun u => (ht'' u).trans (ht' u)⟩
  rw [e''.trans (by rw [e'])]

theorem OnlyScratch.runKeeps {s t : State} (h : OnlyScratch s t) (b : Nat) : RunKeeps b s t := by
  rw [show t = _ from h]; exact .of_same rfl (fun _ => rfl) rfl

theorem putLaunch_runKeeps {s : State} {n : Nat} {l l' : Launch} (hl : Tbl.get s.launches n = some l) (h : standing l' = standing l)
    (b : Nat) : RunKeeps b s (putLaunch s n l') := by
  refine .of_same rfl (fun q => ?_) rfl
  by_cases hq : q = n
  · subst hq
    simp [putLaunch, hl, h]
  · simp [putLaunch, Tbl.get_put_other _ _ hq]

theorem bumpCtx_runKeeps (x i : Nat) (s : State) (b : Nat) : RunKeeps b s (bumpCtx x i s) := by
  rw [bumpCtx_eq]; exact .of_same rfl (fun _ => rfl) rfl

/-- A report changes the log and what the channel holds and writes of it. -/
theorem logEntry_eq (i : LogItem) (s : State) :
    logEntry i s = { s with log := (logEntry i s).log, chan := (logEntry i s).chan, host := (logEntry i s).host } := by
  unfold logEntry
  dsimp only
  split
  · rfl
  · split <;> rfl

theorem logEntry_counters (i : LogItem) (s : State) : (logEntry i s).log.counters = (bumpClass i.cls s.log).counters := by
  unfold logEntry
  dsimp only
  split
  · rfl
  · split <;> rfl

theorem logEntry_runKeeps {i : LogItem} (hi : i.cls ≠ clsAbandon) (s : State) (b : Nat) : RunKeeps b s (logEntry i s) := by
  have hc : Tbl.get (logEntry i s).log.counters clsAbandon = Tbl.get s.log.counters clsAbandon := by
    rw [logEntry_counters]
    exact Tbl.get_put_other _ _ (Ne.symm hi)
  have he := logEntry_eq i s
  exact .of_same (by rw [he]) (fun n => by rw [he]) hc

theorem addAsync_teams (k : Block) (t : Nat) (r : TrapRec) : addAsync k t r = { k with teams := (addAsync k t r).teams } ∧
    ∀ u, (Tbl.get (addAsync k t r).teams u).map (fun m => m.st) = (Tbl.get k.teams u).map (fun m => m.st) := by
  unfold addAsync
  split
  · exact ⟨rfl, fun _ => rfl⟩
  · rename_i m hm
    refine ⟨rfl, fun u => ?_⟩
    by_cases hu : u = t
    · subst hu
      simp [hm]
    · simp [Tbl.get_put_other _ _ hu]

theorem putBlock_runKeeps {s : State} {b : Nat} {k k' : Block} (hk : Tbl.get s.blocks b = some k) (h : k' = { k with teams := k'.teams })
    (ht : ∀ u, (Tbl.get k'.teams u).map (fun m => m.st) = (Tbl.get k.teams u).map (fun m => m.st)) : RunKeeps b s (putBlock s b k') := by
  refine ⟨fun q hq => Tbl.get_put_other _ _ hq, fun q hq => ?_, fun _ => rfl, rfl⟩
  rw [hk] at hq
  cases hq
  exact ⟨k', Tbl.get_put_same .., h, ht⟩

theorem countWriter_eq (l : Launch) (line lin : Nat) : (countWriter l line lin).1 = { l with writers := (countWriter l line lin).1.writers } := by
  unfold countWriter
  dsimp only
  split <;> rfl

theorem detWrite_runKeeps (s : State) (b t line pa : Nat) : RunKeeps b s (detWrite s b t line pa) := by
  unfold detWrite
  split
  · exact .refl b s
  · rename_i k hk
    split
    · exact .refl b s
    · rename_i l hl
      split
      · exact .refl b s
      · dsimp only
        have hcount := putLaunch_runKeeps hl (l' := (countWriter l line k.lin).1) (by rw [countWriter_eq]; rfl) b
        split
        · exact hcount
        · rename_i first _
          have hne : clsOrder ≠ clsAbandon := by decide
          have hreport := fun (i : LogItem) (hi : i.cls = clsOrder) =>
            (hcount.trans (logEntry_runKeeps (ne_of_eq_of_ne hi hne) _ b)).trans (bumpCtx_runKeeps l.ctx 8 _ b)
          have hsame := fun i => show (bumpCtx l.ctx 8 (logEntry i (putLaunch s k.launch (countWriter l line k.lin).1))).blocks = s.blocks by
            rw [bumpCtx_eq, logEntry_eq]; rfl
          split
          · obtain ⟨he, hst⟩ := addAsync_teams k t { code := 0x12, val := BitVec.ofNat 64 (pa / 128 * 128) }
            refine RunKeeps.trans ?_ (putBlock_runKeeps (by rw [hsame, hk]) he hst)
            exact hreport _ rfl
          · exact hreport _ rfl

theorem standing_mapShadow (l : Launch) (k : Block) (f : Shadow → Shadow) : standing (mapShadow l k f) = standing l := by
  unfold mapShadow
  split
  · rfl
  · simp only [standing, mapGang, List.map_map, Prod.mk.injEq, true_and]
    refine List.map_congr_left fun g _ => ?_
    simp only [Function.comp]
    split <;> rfl

theorem shadowTake_runKeeps (s : State) (n pa b : Nat) : RunKeeps b s (shadowTake s n pa) := by
  unfold shadowTake
  split
  · exact .refl b s
  · split
    · exact .refl b s
    · rename_i k _ _ l hl
      split
      · rename_i p _ _
        have hctx : RunKeeps b s (putCtx s l.ctx { ctxOf s l.ctx with poolUsed := p :: (ctxOf s l.ctx).poolUsed }) :=
          .of_same rfl (fun _ => rfl) rfl
        refine hctx.trans ?_
        exact putLaunch_runKeeps (s := putCtx s l.ctx _) (l := l) hl (standing_mapShadow ..) b
      · exact .refl b s

theorem writeCap_runKeeps (s : State) (w : Option Nat) (pa : Nat) (bs : List Byte) (b : Nat) : RunKeeps b s (writeCap s w pa bs) := by
  have hmem : ∀ m, RunKeeps b s { s with mem := m } := fun _ => .of_same rfl (fun _ => rfl) rfl
  unfold writeCap
  split
  · exact hmem _
  · split
    · exact hmem _
    · split
      · exact hmem _
      · split
        · exact hmem _
        · split
          · exact .refl b s
          · dsimp only
            split
            · exact shadowTake_runKeeps ..
            · exact (shadowTake_runKeeps ..).trans (putLaunch_runKeeps ‹_› (standing_mapShadow ..) b)

theorem markUnreplayable_runKeeps (s : State) (w : Option Nat) (b : Nat) : RunKeeps b s (markUnreplayable s w) := by
  unfold markUnreplayable
  split
  · exact .refl b s
  · split
    · exact .refl b s
    · split
      · exact .refl b s
      · split
        · exact .refl b s
        · rename_i l hl _
          exact putLaunch_runKeeps (l' := { l with nonReplay := true }) hl rfl b

theorem clearSeals_runKeeps (s : State) (host : Bool) (into : Option (Nat × Nat × Nat) → Bool) (pa n b : Nat) :
    RunKeeps b s (clearSeals s host into pa n) := .of_same rfl (fun _ => rfl) rfl

/-- What a store to the capacity tier notes ahead of its bytes: residency, seals that go, poison that goes. -/
def CapNotes (s t : State) : Prop := t = { s with poison := t.poison, hbm := t.hbm, l2 := t.l2, tlb := t.tlb, ctxs := t.ctxs }

theorem writePhys_cap (s : State) {w : Writer} {b : Nat} (hw : w.b = some b) (pa : Nat) (bs : List Byte) : ∃ u, CapNotes s u ∧
    writePhys s w (.cap pa) bs =
      if w.counted then detWrite (writeCap u (some b) pa bs) b w.t (pa / 128) pa else writeCap u (some b) pa bs := by
  have hsealed : CapNotes s (clearSeals (touch s (.cap pa) true) false (holdsTile s w.b) pa bs.length) := by
    unfold clearSeals
    rw [show touch s (.cap pa) true = _ from touch_caches ..]
    rfl
  refine ⟨{ clearSeals (touch s (.cap pa) true) false (holdsTile s w.b) pa bs.length with
    poison := healBytes (clearSeals (touch s (.cap pa) true) false (holdsTile s w.b) pa bs.length).poison
      (fun a => pa ≤ a && a < pa + bs.length && viewIsMemory s w.b) }, ?_, ?_⟩
  · rw [show clearSeals _ _ _ _ _ = _ from hsealed]
    rfl
  · simp only [writePhys, hw]

theorem CapNotes.runKeeps {s t : State} (h : CapNotes s t) (b : Nat) : RunKeeps b s t := by
  rw [show t = _ from h]; exact .of_same rfl (fun _ => rfl) rfl

/-- A block's store keeps all this of the block. -/
theorem writePhys_runKeeps (s : State) {w : Writer} {b : Nat} (hw : w.b = some b) (p : Phys) (bs : List Byte) :
    RunKeeps b s (writePhys s w p bs) := by
  cases p with
  | cap pa =>
    obtain ⟨u, hu, he⟩ := writePhys_cap s hw pa bs
    rw [he]
    have hwrite := (hu.runKeeps b).trans (writeCap_runKeeps u (some b) pa bs b)
    split
    · exact hwrite.trans (detWrite_runKeeps ..)
    · exact hwrite
  | sys pa =>
    have hhost : ∀ (u : State) m, RunKeeps b u { u with host := m } := fun _ _ => .of_same rfl (fun _ => rfl) rfl
    have hmarked := (((touch_caches s (.sys pa) true).onlyScratch.runKeeps b).trans
      (clearSeals_runKeeps _ true (fun _ => true) pa bs.length b)).trans (markUnreplayable_runKeeps _ w.b b)
    simp only [writePhys, hw] at hmarked ⊢
    split
    · exact (hmarked.trans (hhost _ _)).trans (detWrite_runKeeps ..)
    · exact hmarked.trans (hhost _ _)
  | spad a => exact (putSpad_onlyScratch ..).runKeeps b
  | chip a => exact (markUnreplayable_runKeeps s w.b b).trans (.of_same rfl (fun _ => rfl) rfl)
  | tlmap _ _ | sbmap _ _ => exact .refl b s

theorem joinRecord_runKeeps (s : State) (x page level cls kinds b : Nat) : RunKeeps b s (joinRecord s x page level cls kinds) := by
  have hemit : ∀ (e : Event) (u : State), RunKeeps b u (emit e u) := fun _ _ => .of_same rfl (fun _ => rfl) rfl
  have hrec : ∀ (fs : List FaultRec) (n : Nat), RunKeeps b s { s with faults := fs, nextFault := n } := fun _ _ => .of_same rfl (fun _ => rfl) rfl
  unfold joinRecord
  dsimp only
  split
  · exact hrec _ _
  · split
    · exact .refl b s
    · split
      · exact (hrec _ _).trans (hemit _ _)
      · exact hrec _ _

theorem loadByte_runKeeps (id a : Nat) (v : Byte) (s : State) (b : Nat) : RunKeeps b s (loadByte id a v s) :=
  (loadByte_lands id a v s).1.1.runKeeps b

theorem copyByte_runKeeps (j : CopyJob) (k : Nat) (s : State) (p : Phys) : RunKeeps j.b s (copyByte j k s p) := by
  unfold copyByte
  split
  · exact writePhys_runKeeps _ rfl ..
  · exact ((touch_caches ..).onlyScratch.runKeeps _).trans (loadByte_runKeeps ..)

theorem copyStep_runKeeps (j : CopyJob) (failed : List Nat) (r : CopyRun) (k : Nat) : RunKeeps j.b r.s (copyStep j failed r k).s := by
  unfold copyStep
  dsimp only
  split
  · split
    · exact .refl ..
    · exact loadByte_runKeeps ..
  · split
    · split
      · exact .refl ..
      · split
        · exact .refl ..
        · exact ((noteTarget_caches ..).onlyScratch.runKeeps _).trans (copyByte_runKeeps ..)
    · exact joinRecord_runKeeps ..
    · split <;> exact .refl ..
    · split <;> exact .refl ..

theorem copySteps_runKeeps (j : CopyJob) (failed : List Nat) : ∀ (ks : List Nat) (r : CopyRun), RunKeeps j.b r.s (copySteps j failed r ks).s
  | [], r => .refl j.b r.s
  | k :: ks, r => (copyStep_runKeeps j failed r k).trans (copySteps_runKeeps j failed ks _)

theorem probeAll_runKeeps (x : Nat) (failed : List Nat) (need : Need) (b : Nat) (as : List Nat) (r : CopyRun) :
    RunKeeps b r.s (probeAll x failed need r as).s := by
  induction as generalizing r with
  | nil => exact .refl b r.s
  | cons a as ih =>
    unfold probeAll
    dsimp only
    refine RunKeeps.trans ?_ (ih _)
    split
    · exact .refl ..
    · exact joinRecord_runKeeps ..
    · split <;> exact .refl ..
    · split <;> exact .refl ..

/-! ## What a block sees of the capacity tier after its store (25 R472) -/

/-- The shadow that a block of a launch reads through. -/
def unitShadow (l : Launch) (k : Block) : Shadow :=
  if l.lr.commit = 0 then Shadow.empty
  else if l.lr.commit = 1 then l.shadow
  else match gangOf l k with
    | none => Shadow.empty
    | some g => g.shadow

theorem shadowOf_eq {s : State} {b : Nat} {k : Block} {l : Launch} (hk : Tbl.get s.blocks b = some k)
    (hl : Tbl.get s.launches k.launch = some l) : shadowOf s b = unitShadow l k := by
  simp only [shadowOf, hk, hl]
  rfl

/-- A block's unit stands in a launch: what it writes is kept. -/
def StandsIn (l : Launch) (k : Block) : Prop := (l.lr.commit = 0 ∨ l.st ≠ .discarded) ∧ (l.lr.commit ≤ 1 ∨ gangOf l k ≠ none)

theorem gangOf_isSome (l : Launch) (k : Block) :
    (gangOf l k).isSome = (l.gangs.map (fun g => (g.idx, g.copy))).any (fun q => q.1 = k.gang && q.2 = k.copy) := by
  rw [gangOf, List.any_map, Bool.eq_iff_iff, List.find?_isSome, List.any_eq_true]
  rfl

/-- Whether a unit stands depends on what a store keeps of its launch. -/
theorem StandsIn.of_standing {l l' : Launch} {k k' : Block} (h : StandsIn l k) (hl : standing l' = standing l)
    (hgang : k'.gang = k.gang) (hcopy : k'.copy = k.copy) : StandsIn l' k' := by
  simp only [standing, Prod.mk.injEq] at hl
  obtain ⟨-, hlr, hst, hgangs⟩ := hl
  have hsome : (gangOf l' k').isSome = (gangOf l k).isSome := by rw [gangOf_isSome, gangOf_isSome, hgangs, hgang, hcopy]
  obtain ⟨hkept, hunit⟩ := h
  refine ⟨by rwa [hlr, hst], ?_⟩
  rw [hlr]
  refine hunit.imp id fun hne => ?_
  rwa [← Option.isSome_iff_ne_none, hsome, Option.isSome_iff_ne_none]

theorem RunKeeps.unitStands {b : Nat} {s t : State} (h : RunKeeps b s t) {k k' : Block} (hk : Tbl.get s.blocks b = some k)
    (hk' : Tbl.get t.blocks b = some k') (hu : UnitStands s k) : UnitStands t k' := by
  obtain ⟨q, hq, he, -⟩ := h.block k hk
  obtain rfl : q = k' := Option.some_inj.mp (hq.symm.trans hk')
  obtain ⟨l, hl, hstands⟩ := hu
  have hlaunch := h.launches k.launch
  rw [hl, Option.map_some, Option.map_eq_some_iff] at hlaunch
  obtain ⟨l', hl', hst⟩ := hlaunch
  exact ⟨l', by rw [he]; exact hl', StandsIn.of_standing hstands hst (by rw [he]) (by rw [he])⟩

theorem gangOf_mapGang {l : Launch} {k : Block} {f : Gang → Gang} (hf : ∀ g, (f g).idx = g.idx ∧ (f g).copy = g.copy) :
    gangOf (mapGang l k f) k = (gangOf l k).map f := by
  unfold gangOf mapGang
  dsimp only
  induction l.gangs with
  | nil => rfl
  | cons g r ih =>
    rw [List.map_cons, List.find?_cons, List.find?_cons]
    by_cases h : (g.idx = k.gang && g.copy = k.copy) = true
    · rw [if_pos h, (hf g).1, (hf g).2, h]
      rfl
    · rw [if_neg h]
      rw [Bool.not_eq_true] at h
      rw [h, ih]

/-- A shadow changed is the shadow that the unit reads through. -/
theorem unitShadow_mapShadow {l : Launch} {k : Block} (hc : l.lr.commit ≠ 0) (hu : l.lr.commit ≤ 1 ∨ gangOf l k ≠ none)
    (f : Shadow → Shadow) : unitShadow (mapShadow l k f) k = f (unitShadow l k) := by
  unfold mapShadow
  by_cases h1 : l.lr.commit = 1
  · simp [unitShadow, h1]
  · obtain ⟨g, hg⟩ := Option.ne_none_iff_exists'.mp (hu.resolve_left (by omega))
    rw [if_neg h1]
    have hmap : gangOf (mapGang l k (fun g => { g with shadow := f g.shadow })) k = some { g with shadow := f g.shadow } := by
      rw [gangOf_mapGang (f := fun g => { g with shadow := f g.shadow }) fun _ => ⟨rfl, rfl⟩, hg]; rfl
    unfold unitShadow
    rw [hmap, hg, if_neg hc, if_neg h1]
    have hlr : (mapGang l k (fun g => { g with shadow := f g.shadow })).lr = l.lr := rfl
    rw [hlr, if_neg hc, if_neg h1]

theorem Shadow.byte_put (h : Shadow) (pa pos : Nat) (v : Byte) (a : Nat) :
    (h.put pa pos v).byte a = if a = pa then some v else h.byte a := by
  unfold Shadow.byte Shadow.put
  by_cases ha : a = pa
  · subst ha
    simp
  · simp [ha, Tbl.get_put_other _ _ ha]

theorem Shadow.byte_putAll (pos : Nat) : ∀ (bs : List Byte) (h : Shadow) (pa a : Nat),
    (h.putAll pa pos bs).byte a = if pa ≤ a ∧ a < pa + bs.length then some (bs.getD (a - pa) 0) else h.byte a
  | [], h, pa, a => by
    rw [if_neg (by simp)]
    rfl
  | v :: r, h, pa, a => by
    rw [Shadow.putAll, Shadow.byte_putAll pos r, Shadow.byte_put, List.length_cons]
    rcases lt_trichotomy a pa with hlt | rfl | hgt
    · rw [if_neg (by omega), if_neg (by omega), if_neg (by omega)]
    · rw [if_neg (by omega), if_pos rfl, if_pos (by omega), Nat.sub_self, List.getD_cons_zero]
    · by_cases hr : a < pa + (r.length + 1)
      · rw [if_pos (by omega), if_pos (by omega), show a - pa = a - (pa + 1) + 1 by omega, List.getD_cons_succ]
      · rw [if_neg (by omega), if_neg (by omega), if_neg (by omega)]

/-- A byte of the capacity tier as a block sees it: its unit's, where the unit has written it, else committed memory's. -/
theorem blockSees_cap (s : State) (b pa : Nat) :
    blockSees s b (.cap pa) = ((shadowOf s b).byte pa).getD (Sparse.get (w := 8) s.mem pa) := rfl

theorem blockSees_cap_congr {s t : State} {b : Nat} (hm : t.mem = s.mem) (hb : ∀ a, (shadowOf t b).byte a = (shadowOf s b).byte a) (pa : Nat) :
    blockSees t b (.cap pa) = blockSees s b (.cap pa) := by
  rw [blockSees_cap, blockSees_cap, hm, hb]

/-- Room taken in a unit's shadow changes no byte of it. -/
theorem shadowTake_launch {s : State} {b pa : Nat} {k : Block} {l : Launch} (hk : Tbl.get s.blocks b = some k)
    (hl : Tbl.get s.launches k.launch = some l) (hc : l.lr.commit ≠ 0) (hu : l.lr.commit ≤ 1 ∨ gangOf l k ≠ none) :
    ∃ l', Tbl.get (shadowTake s b pa).launches k.launch = some l' ∧ standing l' = standing l ∧
      ∀ a, (unitShadow l' k).byte a = (unitShadow l k).byte a := by
  unfold shadowTake
  simp only [hk, hl]
  split
  · refine ⟨_, Tbl.get_put_same .., standing_mapShadow .., fun a => ?_⟩
    rw [unitShadow_mapShadow hc hu]
    rfl
  · exact ⟨l, hl, rfl, fun _ => rfl⟩

theorem shadowTake_eq (s : State) (b pa : Nat) :
    shadowTake s b pa = { s with launches := (shadowTake s b pa).launches, ctxs := (shadowTake s b pa).ctxs } := by
  unfold shadowTake
  split
  · rfl
  · split
    · rfl
    · split <;> rfl

/-- A byte of the capacity tier, as a block sees it, after the block has written there. -/
theorem writeCap_sees {s : State} {b : Nat} {k : Block} (hk : Tbl.get s.blocks b = some k) (hu : UnitStands s k) (pa : Nat)
    (bs : List Byte) (a : Nat) : blockSees (writeCap s (some b) pa bs) b (.cap a) =
      if pa ≤ a ∧ a < pa + bs.length then bs.getD (a - pa) 0 else blockSees s b (.cap a) := by
  obtain ⟨l, hl, hkept, hunit⟩ := hu
  rw [blockSees_cap s, shadowOf_eq hk hl, blockSees_cap]
  unfold writeCap
  simp only [hk, hl]
  by_cases hc : l.lr.commit = 0
  · have hempty : unitShadow l k = Shadow.empty := if_pos hc
    rw [if_pos hc, shadowOf_eq (s := { s with mem := writeBytes s.mem pa bs }) hk hl, hempty]
    exact get_writeBytes bs s.mem pa a
  · obtain ⟨l', hl', hst, hbytes⟩ := shadowTake_launch (pa := pa) hk hl hc hunit
    have htake := shadowTake_eq s b pa
    rw [if_neg hc, if_neg (hkept.resolve_left hc), hl']
    have hk' : Tbl.get (putLaunch (shadowTake s b pa) k.launch (mapShadow l' k (fun h => h.putAll pa k.pos bs))).blocks b = some k := by
      rw [putLaunch_blocks, htake]; exact hk
    simp only [standing, Prod.mk.injEq] at hst
    have hunit' : StandsIn l' k := StandsIn.of_standing ⟨hkept, hunit⟩ (by simp only [standing, Prod.mk.injEq]; exact hst) rfl rfl
    have hc' : l'.lr.commit ≠ 0 := by rw [hst.2.1]; exact hc
    rw [shadowOf_eq hk' (Tbl.get_put_same ..), unitShadow_mapShadow hc' hunit'.2, Shadow.byte_putAll, hbytes, putLaunch_mem, htake]
    split <;> rfl

/-- The ordering detector's work changes no byte that its block sees. -/
theorem detWrite_sees (s : State) (b t line pa a : Nat) : blockSees (detWrite s b t line pa) b (.cap a) = blockSees s b (.cap a) := by
  unfold detWrite
  split
  · rfl
  · rename_i k hk
    split
    · rfl
    · rename_i l hl
      split
      · rfl
      · dsimp only
        have hseen : ∀ (u : State) (k' : Block), Tbl.get u.blocks b = some k' → k' = { k with teams := k'.teams } →
            Tbl.get u.launches k.launch = some (countWriter l line k.lin).1 → u.mem = s.mem →
            blockSees u b (.cap a) = blockSees s b (.cap a) := by
          intro u k' hu he hlaunch hmem
          refine blockSees_cap_congr hmem (fun q => ?_) a
          rw [shadowOf_eq hk hl, shadowOf_eq hu (by rw [he]; exact hlaunch), he, countWriter_eq]
          rfl
        have hreport : ∀ i, bumpCtx l.ctx 8 (logEntry i (putLaunch s k.launch (countWriter l line k.lin).1)) =
            { putLaunch s k.launch (countWriter l line k.lin).1 with
              ctxs := (bumpCtx l.ctx 8 (logEntry i (putLaunch s k.launch (countWriter l line k.lin).1))).ctxs,
              log := (logEntry i (putLaunch s k.launch (countWriter l line k.lin).1)).log,
              chan := (logEntry i (putLaunch s k.launch (countWriter l line k.lin).1)).chan,
              host := (logEntry i (putLaunch s k.launch (countWriter l line k.lin).1)).host } := by
          intro i
          rw [bumpCtx_eq, logEntry_eq]
        have hcount := Tbl.get_put_same s.launches k.launch (countWriter l line k.lin).1
        split
        · exact hseen _ k hk rfl hcount rfl
        · split
          · refine hseen _ _ (Tbl.get_put_same ..) (addAsync_teams ..).1 ?_ ?_
            · rw [putBlock_launches, hreport]; exact hcount
            · rw [putBlock_mem, hreport]; rfl
          · rw [hreport]
            exact hseen _ k hk rfl hcount rfl

theorem writePhys_sees {s : State} {w : Writer} {b : Nat} (hw : w.b = some b) {k : Block} (hk : Tbl.get s.blocks b = some k)
    (hu : UnitStands s k) (pa : Nat) (bs : List Byte) (a : Nat) : blockSees (writePhys s w (.cap pa) bs) b (.cap a) =
      if pa ≤ a ∧ a < pa + bs.length then bs.getD (a - pa) 0 else blockSees s b (.cap a) := by
  obtain ⟨u, hnotes, he⟩ := writePhys_cap s hw pa bs
  have hku : Tbl.get u.blocks b = some k := by rw [show u = _ from hnotes]; exact hk
  have hsee : blockSees u b (.cap a) = blockSees s b (.cap a) := by rw [show u = _ from hnotes]; rfl
  have hcap := writeCap_sees hku ((hnotes.runKeeps b).unitStands hk hku hu) pa bs a
  rw [he, ← hsee, ← hcap]
  split
  · exact detWrite_sees ..
  · rfl

/-! ## A tensor store (04 R117) -/

/-- The scratchpads of the core and of the dies are as they were. -/
def SameScratch (s t : State) : Prop := t.spad = s.spad ∧ t.chip = s.chip

theorem SameScratch.trans {s t u : State} (h : SameScratch s t) (g : SameScratch t u) : SameScratch s u :=
  ⟨g.1.trans h.1, g.2.trans h.2⟩

theorem detWrite_sameScratch (s : State) (b t line pa : Nat) : SameScratch s (detWrite s b t line pa) := by
  unfold detWrite
  split
  · exact ⟨rfl, rfl⟩
  · split
    · exact ⟨rfl, rfl⟩
    · split
      · exact ⟨rfl, rfl⟩
      · dsimp only
        split
        · exact ⟨rfl, rfl⟩
        · split <;> rw [bumpCtx_eq, logEntry_eq] <;> exact ⟨rfl, rfl⟩

theorem writeCap_sameScratch (s : State) (w : Option Nat) (pa : Nat) (bs : List Byte) : SameScratch s (writeCap s w pa bs) := by
  unfold writeCap
  split
  · exact ⟨rfl, rfl⟩
  · split
    · exact ⟨rfl, rfl⟩
    · split
      · exact ⟨rfl, rfl⟩
      · split
        · exact ⟨rfl, rfl⟩
        · split
          · exact ⟨rfl, rfl⟩
          · dsimp only
            split <;> rw [shadowTake_eq] <;> exact ⟨rfl, rfl⟩

theorem writePhys_cap_sameScratch (s : State) {w : Writer} {b : Nat} (hw : w.b = some b) (pa : Nat) (bs : List Byte) :
    SameScratch s (writePhys s w (.cap pa) bs) := by
  obtain ⟨u, hnotes, he⟩ := writePhys_cap s hw pa bs
  have hu : SameScratch s u := by rw [show u = _ from hnotes]; exact ⟨rfl, rfl⟩
  rw [he]
  split
  · exact (hu.trans (writeCap_sameScratch ..)).trans (detWrite_sameScratch ..)
  · exact hu.trans (writeCap_sameScratch ..)

/-- The byte that a store leaves at the place of a byte of the box (04 R117). -/
def storedValue (s : State) (j : CopyJob) (place : Nat → Phys) (k : Nat) : Byte :=
  (blockSees s j.b (place k) &&& ~~~(boxByte j.y j.c k).2) ||| (Sparse.get (w := 8) s.spad (j.spad k) &&& (boxByte j.y j.c k).2)

/-- A byte of the box stored: the place reads as the box has it, every other place and the scratchpads as before. -/
theorem copyByte_stores {s : State} {j : CopyJob} {place : Nat → Phys} {q pa : Nat} {k : Block} (hstore : j.store = true)
    (hplace : place q = .cap pa) (hk : Tbl.get s.blocks j.b = some k) (hu : UnitStands s k) (g : Machine.Target) :
    SameScratch s (copyByte j q (noteTarget s j.x g) (place q)) ∧
    ∀ a, blockSees (copyByte j q (noteTarget s j.x g) (place q)) j.b (.cap a) =
      if a = pa then storedValue s j place q else blockSees s j.b (.cap a) := by
  have hnote : noteTarget s j.x g = _ := noteTarget_caches s j.x g
  have hk' : Tbl.get (noteTarget s j.x g).blocks j.b = some k := by rw [hnote]; exact hk
  have hu' : UnitStands (noteTarget s j.x g) k :=
    ((noteTarget_caches s j.x g).onlyScratch.runKeeps j.b).unitStands hk hk' hu
  have hbyte : copyByte j q (noteTarget s j.x g) (place q) =
      writePhys (noteTarget s j.x g) j.writer (.cap pa) [copyValue j q (noteTarget s j.x g) (.cap pa)] := by
    simp [copyByte, hstore, hplace]
  have hsee : ∀ p, blockSees (noteTarget s j.x g) j.b p = blockSees s j.b p := fun p => by rw [hnote]; rfl
  have hvalue : copyValue j q (noteTarget s j.x g) (.cap pa) = storedValue s j place q := by
    unfold copyValue storedValue
    rw [hstore, hplace, ← hsee, hnote]
    rfl
  rw [hbyte, hvalue]
  refine ⟨SameScratch.trans ?_ (writePhys_cap_sameScratch _ (b := j.b) rfl ..), fun a => ?_⟩
  · rw [hnote]; exact ⟨rfl, rfl⟩
  · rw [writePhys_sees (b := j.b) rfl hk' hu', hsee]
    by_cases ha : a = pa
    · subst ha
      rw [if_pos rfl, if_pos (by simp), Nat.sub_self]
      rfl
    · rw [if_neg ha, if_neg (by simp only [List.length_singleton]; omega)]

/-- A store leaves what R117 says of its box. -/
theorem Spec.CopyGoes.boxStored {j : CopyJob} {failed : List Nat} {place : Nat → Phys} {s t : State} {ks : List Nat}
    (h : CopyGoes j failed place s ks t) (hstore : j.store = true) (hks : ks.Nodup) {k : Block} (hk : Tbl.get s.blocks j.b = some k)
    (hu : UnitStands s k) : BoxStored j ks place s t := by
  induction h generalizing k with
  | none s => exact ⟨rfl, rfl, by simp, fun _ _ => rfl⟩
  | outside s t q ks hout hgoes ih =>
    obtain ⟨-, hks⟩ := List.nodup_cons.mp hks
    rw [hstore, if_pos rfl] at ih
    obtain ⟨hspad, hchip, hmoved, hframe⟩ := ih hks hk hu
    refine ⟨hspad, hchip, ?_, fun pa hpa => hframe pa fun r hr => hpa r (List.mem_cons_of_mem _ hr)⟩
    rw [List.forall_mem_cons]
    exact ⟨fun hin => absurd hout hin, fun r hr hin halone => hmoved r hr hin fun x hx => halone x (List.mem_cons_of_mem _ hx)⟩
  | inside s t q ks hin hreach _ _ hgoes ih =>
    obtain ⟨hq, hks⟩ := List.nodup_cons.mp hks
    obtain ⟨pa, hpa⟩ : ∃ pa, place q = .cap pa := (reach_global hreach).resolve_right (by simp [hstore])
    obtain ⟨hscratch, hsees⟩ := copyByte_stores hstore hpa hk hu (globalTarget s j.x (boxByte j.y j.c q).1 (!j.store))
    obtain ⟨k', hk', -, -⟩ := ((noteTarget_caches s j.x (globalTarget s j.x (boxByte j.y j.c q).1 (!j.store))).onlyScratch.runKeeps j.b
      |>.trans (copyByte_runKeeps j q _ (place q))).block k hk
    have hu' := ((noteTarget_caches s j.x (globalTarget s j.x (boxByte j.y j.c q).1 (!j.store))).onlyScratch.runKeeps j.b
      |>.trans (copyByte_runKeeps j q _ (place q))).unitStands hk hk' hu
    obtain ⟨hspad, hchip, hmoved, hframe⟩ := ih hks hk' hu'
    have hcap : ∀ r ∈ ks, (boxByte j.y j.c r).2 ≠ 0 → ∃ pr, place r = .cap pr := fun r hr hne =>
      (hgoes.place_global r hr hne).resolve_right (by simp [hstore])
    refine ⟨hspad.trans hscratch.1, hchip.trans hscratch.2, ?_, fun a ha => ?_⟩
    · rw [List.forall_mem_cons]
      refine ⟨fun _ halone => ?_, fun r hr hne halone => ?_⟩
      · rw [hpa, hframe pa fun r hr hne => ?_, hsees, if_pos rfl]
        · rw [← hpa]
          rfl
        · rw [← hpa]
          exact halone r (List.mem_cons_of_mem _ hr) (fun e => hq (e ▸ hr)) hne
      · obtain ⟨pr, hpr⟩ := hcap r hr hne
        have hother : pr ≠ pa := by
          have := halone q (List.mem_cons_self ..) (fun e => hq (e ▸ hr)) hin
          rw [hpa, hpr] at this
          exact fun e => this (e ▸ rfl)
        rw [hmoved r hr hne fun x hx => halone x (List.mem_cons_of_mem _ hx), hpr, hsees, if_neg hother, hscratch.1]
    · rw [List.forall_mem_cons] at ha
      rw [hframe a ha.2, hsees, if_neg fun e : a = pa => ha.1 hin (e ▸ hpa)]

/-! ## What a run leaves of its command -/

theorem liveCmd_of_openCmd {s : State} {b sel n : Nat} {k : Block} {c : EngCmd} (h : OpenCmd s b sel n k c) :
    liveCmd s b sel n = some (k, c) := by
  obtain ⟨hk, hc, hfin, hstall, hwaits⟩ := h
  simp [liveCmd, hk, hc, hfin, hstall, hwaits]

theorem find_cmd {sel n : Nat} {k : Block} {c : EngCmd} (h : k.cmds.find? (fun c => c.tl = sel && c.num = n) = some c) :
    c ∈ k.cmds ∧ c.tl = sel ∧ c.num = n :=
  ⟨List.mem_of_find?_eq_some h, by simpa using List.find?_some h⟩

/-- A change that keeps a command's timeline and number is found where the command was. -/
theorem find_mapCmd {sel n : Nat} {f : EngCmd → EngCmd} (hf : ∀ c, (f c).tl = c.tl ∧ (f c).num = c.num) {k : Block} {c : EngCmd}
    (h : k.cmds.find? (fun c => c.tl = sel && c.num = n) = some c) :
    (mapCmd sel n f k).cmds.find? (fun c => c.tl = sel && c.num = n) = some (f c) := by
  unfold mapCmd
  dsimp only
  rw [List.find?_map, List.find?_congr (p₂ := fun c => c.tl = sel && c.num = n), h]
  · obtain ⟨-, htl, hnum⟩ := find_cmd h
    simp [htl, hnum]
  · intro q _
    simp only [Function.comp]
    split
    · rw [(hf q).1, (hf q).2]
    · rfl

/-- A command with what a run has done noted on it. -/
def notedCmd (paired : Bool) (r : CopyRun) (c : EngCmd) : EngCmd :=
  { c with doneElems := c.doneElems ++ r.moved, waits := r.waits,
           wrote := if paired then r.wrote.foldl (fun t q => Tbl.put t q.1 q.2) c.wrote else c.wrote }

theorem noteRun_eq {s : State} {b : Nat} {k : Block} (hk : Tbl.get s.blocks b = some k) (sel n : Nat) (r : CopyRun) (lines : List Nat) :
    noteRun b sel n r lines s =
      { putBlock s b (mapCmd sel n (notedCmd ((launchOf s b).any (fun l => l.lr.commit = 3)) r) k) with
        full := lines.foldl insertNat s.full } := by
  simp only [noteRun, setLines, onBlock, hk]
  rfl

theorem mem_insertNat : ∀ {l : List Nat} {n x : Nat}, x ∈ insertNat l n ↔ x = n ∨ x ∈ l
  | [], n, x => by simp [insertNat]
  | a :: r, n, x => by
    unfold insertNat
    split
    · simp only [List.mem_cons, mem_insertNat (l := r)]
      tauto
    · split
      · subst_vars
        simp
      · simp

theorem mem_foldl_insertNat : ∀ {ls l : List Nat} {x : Nat}, x ∈ ls.foldl insertNat l ↔ x ∈ ls ∨ x ∈ l
  | [], l, x => by simp
  | a :: r, l, x => by
    rw [List.foldl_cons, mem_foldl_insertNat, mem_insertNat, List.mem_cons]
    tauto

/-- A line that holds a byte just moved is full once all its bytes have moved. -/
theorem mem_filledLines {place : Nat → Nat} {all done moved : List Nat} {k : Nat} (hk : k ∈ moved) (hall : ∀ q ∈ all, q ∈ done) :
    place k / 128 ∈ filledLines place all done moved := by
  refine List.mem_filter.mpr ⟨List.mem_eraseDups.mpr (List.mem_map_of_mem hk), ?_⟩
  simp only [List.all_eq_true, Bool.or_eq_true, List.contains_iff_mem]
  exact fun q hq => .inr (hall q hq)

theorem mem_leftOf {y : Layout} {c : EngCmd} {k : Nat} : k ∈ leftOf y c ↔ k < y.bytes ∧ k ∉ c.doneElems := by
  simp [leftOf]

theorem nodup_leftOf (y : Layout) (c : EngCmd) : (leftOf y c).Nodup := List.nodup_range.filter _

/-! ## A store's data paid into the signatures (25 R474) -/

/-- Only a store of a paired block pays, and it changes the block's teams alone. -/
theorem payCopy_cases (s : State) (b sel n : Nat) : payCopy s b sel n = s ∨
    ∃ k l c rs, Tbl.get s.blocks b = some k ∧ Tbl.get s.launches k.launch = some l ∧ l.lr.commit = 3 ∧
      k.cmds.find? (fun c => c.tl = sel && c.num = n) = some c ∧ (∃ se y cs off v va, c.op = .tcopy true se y cs off v va) ∧
      payCopy s b sel n = putBlock s b (payRecords n rs k) := by
  unfold payCopy
  split
  · rename_i k l hk hl
    have hl' : Tbl.get s.launches k.launch = some l := by simpa [launchOf, hk] using hl
    split
    · rename_i c hc
      split
      · rename_i se y cs off v va hop
        split
        · rename_i h3
          exact .inr ⟨k, l, c, _, hk, hl', h3, hc, ⟨se, y, cs, off, v, va, hop⟩, rfl⟩
        · exact .inl rfl
      · exact .inl rfl
    · exact .inl rfl
  · exact .inl rfl

/-- A command that is no store of a tensor has nothing to pay. -/
theorem payCopy_eq_self {s : State} {b sel n : Nat} {k : Block} {c : EngCmd} (hk : Tbl.get s.blocks b = some k)
    (hc : k.cmds.find? (fun c => c.tl = sel && c.num = n) = some c) (hop : ∀ se y cs off v va, c.op ≠ .tcopy true se y cs off v va) :
    payCopy s b sel n = s := by
  rcases payCopy_cases s b sel n with h | ⟨k', l, c', rs, hk', -, -, hc', ⟨se, y, cs, off, v, va, hop'⟩, -⟩
  · exact h
  · obtain rfl : k = k' := Option.some_inj.mp (hk.symm.trans hk')
    obtain rfl : c = c' := Option.some_inj.mp (hc.symm.trans hc')
    exact absurd hop' (hop se y cs off v va)

theorem payCopy_eq (s : State) (b sel n : Nat) : payCopy s b sel n = { s with blocks := (payCopy s b sel n).blocks } := by
  rcases payCopy_cases s b sel n with h | ⟨k, l, c, rs, -, -, -, -, -, h⟩ <;> rw [h]
  rfl

theorem payCopy_block {s : State} {b : Nat} {k : Block} (hk : Tbl.get s.blocks b = some k) (sel n : Nat) :
    ∃ k', Tbl.get (payCopy s b sel n).blocks b = some k' ∧ k' = { k with teams := k'.teams } := by
  rcases payCopy_cases s b sel n with h | ⟨k', l, c, rs, hk', -, -, -, -, h⟩
  · exact ⟨k, by rw [h, hk], rfl⟩
  · obtain rfl : k = k' := Option.some_inj.mp (hk.symm.trans hk')
    exact ⟨payRecords n rs k, by rw [h]; exact Tbl.get_put_same .., rfl⟩

theorem payCopy_other {s : State} {b q : Nat} (hq : q ≠ b) (sel n : Nat) :
    Tbl.get (payCopy s b sel n).blocks q = Tbl.get s.blocks q := by
  rcases payCopy_cases s b sel n with h | ⟨k, l, c, rs, -, -, -, -, -, h⟩ <;> rw [h]
  exact Tbl.get_put_other _ _ hq

/-- A block sees of the capacity tier what it saw, when it and its launch stand where they stood. -/
theorem payCopy_sees (s : State) (b sel n pa : Nat) : blockSees (payCopy s b sel n) b (.cap pa) = blockSees s b (.cap pa) := by
  rcases payCopy_cases s b sel n with h | ⟨k, l, c, rs, hk, hl, -, -, -, h⟩
  · rw [h]
  · rw [h]
    refine blockSees_cap_congr (s := s) (t := putBlock s b (payRecords n rs k)) rfl (fun a => ?_) pa
    rw [shadowOf_eq hk hl, shadowOf_eq (s := putBlock s b (payRecords n rs k)) (k := payRecords n rs k) (Tbl.get_put_same ..) hl]
    rfl

/-- A command that completes after a run has been noted on it (04 R104). -/
theorem completeCmd_noteRun {s2 : State} {b n : Nat} {k : Block} {c : EngCmd} {r : CopyRun} {lines : List Nat} {store : Bool}
    (hk : Tbl.get s2.blocks b = some k) (hc : k.cmds.find? (fun c => c.tl = 0x1000 && c.num = n) = some c)
    (hop : ∃ se y cs off v va, c.op = .tcopy store se y cs off v va) :
    ∃ s3, CmdDone b 0x1000 n s3 (completeCmd (noteRun b 0x1000 n r lines s2) b 0x1000 n) ∧
      s3 = { s2 with full := lines.foldl insertNat s2.full, blocks := s3.blocks } ∧ Noted (store && isPaired s2 k) b s2 s3 := by
  have hnote := noteRun_eq hk 0x1000 n r lines
  generalize hpaired : (launchOf s2 b).any (fun l => decide (l.lr.commit = 3)) = paired at hnote
  have hk1 : Tbl.get (noteRun b 0x1000 n r lines s2).blocks b = some (mapCmd 0x1000 n (notedCmd paired r) k) := by
    rw [hnote]; exact Tbl.get_put_same ..
  obtain ⟨k', hk', he⟩ := payCopy_block hk1 0x1000 n
  refine ⟨payCopy (noteRun b 0x1000 n r lines s2) b 0x1000 n, completeCmd_cmdDone hk', ?_, fun q hq => ?_, fun q hq => ?_⟩
  · rw [payCopy_eq, hnote]
    rfl
  · rw [payCopy_other hq, hnote]
    exact Tbl.get_put_other _ _ hq
  · obtain rfl : k = q := Option.some_inj.mp (hk.symm.trans hq)
    refine ⟨k', hk', by rw [he]; rfl, fun hno => ?_⟩
    rcases payCopy_cases (noteRun b 0x1000 n r lines s2) b 0x1000 n with h |
      ⟨k2, l, c2, rs, hk2, hl, h3, hc2, ⟨se, y, cs, off, v, va, hop2⟩, -⟩
    · rw [h, hk1] at hk'
      cases hk'
      rfl
    · obtain rfl := Option.some_inj.mp (hk1.symm.trans hk2)
      obtain rfl := Option.some_inj.mp ((find_mapCmd (f := notedCmd paired r) (fun _ => ⟨rfl, rfl⟩) hc).symm.trans hc2)
      obtain ⟨se', y', cs', off', v', va', hop⟩ := hop
      have hs : store = true := by
        rw [show (notedCmd paired r c).op = c.op from rfl, hop] at hop2
        injection hop2
      rw [hnote] at hl
      have hpair : isPaired s2 k = true := by
        unfold isPaired
        rw [show Tbl.get s2.launches k.launch = some l from hl]
        simpa using h3
      simp [hs, hpair] at hno

theorem RunKeeps.isPaired {b : Nat} {s t : State} (h : RunKeeps b s t) {k k' : Block} (hlaunch : k'.launch = k.launch) :
    Spec.isPaired t k' = Spec.isPaired s k := by
  have hl := h.launches k.launch
  unfold Spec.isPaired
  rw [hlaunch]
  cases hs : Tbl.get s.launches k.launch <;> cases ht : Tbl.get t.launches k.launch <;> rw [hs, ht] at hl
  · cases hl
  · cases hl
  · simp only [Option.map_some, Option.some_inj, standing, Prod.mk.injEq] at hl
    simp [hl.2.1]

/-- A run that met no poison and no fault, and has nothing to wait for. -/
def RanClean (r : CopyRun) : Prop := r.hurt = false ∧ r.waits = [] ∧ r.stall = false ∧ r.bad = none

theorem endRun_of_clean {r : CopyRun} (h : RanClean r) (b sel n : Nat) (s : State) : endRun b sel n r s = completeCmd s b sel n := by
  obtain ⟨hhurt, hwaits, hstall, hbad⟩ := h
  simp [endRun, hhurt, hwaits, hstall, hbad]

/-- The run over bytes that go, from its start. -/
theorem Spec.CopyGoes.run {j : CopyJob} {failed : List Nat} {place : Nat → Phys} {s t : State} {ks : List Nat}
    (h : CopyGoes j failed place s ks t) {b : Nat} (hb : j.b = b) : ∃ r, Machine.copySteps j failed (CopyRun.start s) ks = r ∧ r.s = t ∧
      r.moved = ks ∧ RanClean r ∧ (j.store = false → r.wrote = []) ∧ RunKeeps b s t := by
  subst hb
  obtain ⟨wrote, hrun, hwrote⟩ := h.copySteps (CopyRun.start s) rfl
  have hkeeps := copySteps_runKeeps j failed ks (CopyRun.start s)
  rw [hrun] at hkeeps
  exact ⟨_, hrun, rfl, rfl, ⟨rfl, rfl, rfl, rfl⟩, hwrote, hkeeps⟩

theorem runTcopy_of_clean {s : State} {j : CopyJob} {c : EngCmd} {r : CopyRun}
    (hrun : copySteps j c.failed (CopyRun.start s) (leftOf j.y c) = r) (hr : RanClean r) {b : Nat} (hb : j.b = b) (ver : DWord)
    (verAddr : Nat) : runTcopy s j c false ver verAddr = completeCmd (noteRun b c.tl c.num r
      (if j.store then [] else filledLines j.spad (List.range j.y.bytes) (c.doneElems ++ r.moved) r.moved) r.s) b c.tl c.num := by
  subst hb
  have hrun' : copySteps j c.failed (CopyRun.start s) ((List.range j.y.bytes).filter (fun k => !c.doneElems.contains k)) = r := hrun
  unfold runTcopy
  simp only [Bool.false_eq_true, if_false, hrun']
  exact endRun_of_clean hr ..

theorem exec_copyCommandComplete (b n : Nat) (s : State) : exec (.copyCommandComplete b n) s = .next (copyCommandComplete b n s) := rfl

theorem copyCommandComplete_of_open {s : State} {b n : Nat} {k : Block} {c : EngCmd} (hopen : OpenCmd s b 0x1000 n k c) {store se : Bool}
    {y : Layout} {cs : List Int} {off : Nat} {ver : DWord} {verAddr : Nat} (hop : c.op = .tcopy store se y cs off ver verAddr) :
    copyCommandComplete b n s = runTcopy s (jobOf s b k c store y cs off) c se ver verAddr := by
  simp only [copyCommandComplete, liveCmd_of_openCmd hopen, hop]
  rfl

/-- A tensor copy that is no sealed store completes (04 R104, R117). -/
theorem copyCompletes : CopyCompletes := by
  intro b n s s2 k c store y cs off ver verAddr place hopen hop hu j hgoes
  obtain ⟨hk, hc, -⟩ := id hopen
  obtain ⟨-, htl, hnum⟩ := find_cmd hc
  obtain ⟨r, hrun, rfl, hmoved, hclean, -, hkeeps⟩ := hgoes.run (b := b) rfl
  obtain ⟨k2, hk2, he2, -⟩ := hkeeps.block k hk
  have hc2 : k2.cmds.find? (fun c => c.tl = 0x1000 && c.num = n) = some c := by rw [he2]; exact hc
  have hend := (copyCommandComplete_of_open hopen hop).trans (runTcopy_of_clean hrun hclean (b := b) rfl ver verAddr)
  rw [htl, hnum, hmoved] at hend
  refine ⟨fun hl => hgoes.boxLoaded (by exact hl) (nodup_leftOf y c), fun hst => hgoes.boxStored (by exact hst) (nodup_leftOf y c) hk hu, ?_⟩
  obtain ⟨s3, hdone, hs3, hnoted⟩ := completeCmd_noteRun (r := r) hk2 hc2 ⟨_, _, _, _, _, _, hop⟩
  refine ⟨s3, _, (exec_copyCommandComplete b n s).trans (congrArg _ hend), hdone, ?_, ?_, fun hl q hq => ?_⟩
  · rw [hs3]
  · rwa [hkeeps.isPaired (by rw [he2])] at hnoted
  · rw [hs3]
    refine mem_foldl_insertNat.mpr (.inl ?_)
    rw [if_neg (by rw [show j.store = store from rfl, hl]; decide)]
    refine mem_filledLines hq fun q hq => List.mem_append.mpr ?_
    by_cases hd : q ∈ c.doneElems
    · exact .inl hd
    · exact .inr (mem_leftOf.mpr ⟨List.mem_range.mp hq, hd⟩)

/-! ## A sealed store (04 R119, R120) -/

/-- Where every address can be reached, a run that tries them finds nothing to wait for and no fault. -/
theorem probeAll_of_reached {x : Nat} {failed : List Nat} {need : Need} {r : CopyRun} {as : List Nat}
    (h : ∀ a ∈ as, ∃ p, reachTarget r.s x failed need (globalTarget r.s x a (!need.w)) = .go p) : probeAll x failed need r as = r := by
  induction as with
  | nil => rfl
  | cons a as ih =>
    rw [List.forall_mem_cons] at h
    obtain ⟨⟨p, hp⟩, hrest⟩ := h
    unfold probeAll
    simp only [hp]
    exact ih hrest

theorem getD_leBytes : ∀ (n v q : Nat), q < n → (leBytes n v).getD q 0 = BitVec.ofNat 8 (v / 256 ^ q)
  | n + 1, v, 0, _ => by simp [leBytes]
  | n + 1, v, q + 1, h => by
    rw [leBytes, List.getD_cons_succ, getD_leBytes n (v / 256) q (by omega), Nat.div_div_eq_div_mul, Nat.pow_succ']

theorem length_leBytes : ∀ (n v : Nat), (leBytes n v).length = n
  | 0, _ => rfl
  | n + 1, v => by rw [leBytes, List.length_cons, length_leBytes n]

/-- The tile of a sealed store is the last that its context has sealed. -/
theorem addSeal_last (s : State) (x : Nat) (t : SealedTile) : (ctxOf (addSeal s x t) x).seals.getLast? = some t := by
  unfold addSeal
  dsimp only
  split
  · simp
  · simp [bumpCtx, putCtx, ctxOf, Tbl.getD]

theorem addSeal_eq (s : State) (x : Nat) (t : SealedTile) : addSeal s x t = { s with ctxs := (addSeal s x t).ctxs } := by
  unfold addSeal
  dsimp only
  split
  · rfl
  · rw [bumpCtx_eq]
    rfl

theorem placeOf_global {s : State} {x a : Nat} {load : Bool} {p : Phys} (h : placeOf s x (globalTarget s x a load) = some p) :
    (∃ pa, p = .cap pa) ∨ load = true ∧ ((∃ off, p = .tlmap x off) ∨ ∃ off, p = .sbmap x off) := by
  unfold placeOf at h
  split at h
  · rename_i q hq
    rw [← Option.some_inj.mp h]
    exact reach_global hq
  · cases h

/-- The pieces of a tile that a place in the capacity tier gives. -/
theorem mem_tileOf_cap {ps : List (Option Phys × Nat)} {u : Option (Nat × Nat × Nat)} {pa n : Nat} (h : (some (.cap pa), n) ∈ ps) :
    (pa, n) ∈ (tileOf ps u).cap := List.mem_filterMap.mpr ⟨_, h, rfl⟩

theorem mem_tileOf_sys {ps : List (Option Phys × Nat)} {u : Option (Nat × Nat × Nat)} {pa n : Nat} (h : (some (.sys pa), n) ∈ ps) :
    (pa, n) ∈ (tileOf ps u).sys := List.mem_filterMap.mpr ⟨_, h, rfl⟩

/-- A sealed store whose every byte can be reached writes them, its version word and its seal. -/
theorem runTcopy_sealed_of_clean {s : State} {j : CopyJob} {c : EngCmd} {r : CopyRun} {ver : DWord} {verAddr : Nat}
    (hprobe : probeAll j.x c.failed needRW (CopyRun.start s)
      (((leftOf j.y c).filter (fun q => (boxByte j.y j.c q).2 ≠ 0)).map (fun q => (boxByte j.y j.c q).1) ++ [verAddr]) = CopyRun.start s)
    (hrun : copySteps j c.failed (CopyRun.start s) (leftOf j.y c) = r) (hr : RanClean r) (hroom : versionRoom r.s j verAddr = true)
    {b : Nat} (hb : j.b = b) : runTcopy s j c true ver verAddr = completeCmd (addSeal (writeVersion (noteRun b c.tl c.num r [] r.s) j ver verAddr)
      j.x (sealedTile r.s j verAddr)) b c.tl c.num := by
  subst hb
  have hleft : (List.range j.y.bytes).filter (fun k => !c.doneElems.contains k) = leftOf j.y c := rfl
  have hstart : CopyRun.start (CopyRun.start s).s = CopyRun.start s := rfl
  obtain ⟨hhurt, -, hstall, -⟩ := id hr
  unfold runTcopy
  simp only [if_true, hleft, hprobe]
  rw [if_neg (by simp [CopyRun.start]), hstart, hrun, if_neg (by simp [hstall, hroom]), if_neg (by simp [hhurt])]
  exact endRun_of_clean hr ..

/-- A run noted on a command leaves its block's unit standing, and every translation as it was. -/
theorem noteRun_unit {s : State} {b : Nat} {k : Block} (hk : Tbl.get s.blocks b = some k) (hu : UnitStands s k) (sel n : Nat) (r : CopyRun)
    (lines : List Nat) : (∃ k', Tbl.get (noteRun b sel n r lines s).blocks b = some k' ∧ UnitStands (noteRun b sel n r lines s) k') ∧
    ∀ x a load, placeOf (noteRun b sel n r lines s) x (globalTarget (noteRun b sel n r lines s) x a load) =
      placeOf s x (globalTarget s x a load) := by
  rw [noteRun_eq hk]
  exact ⟨⟨_, Tbl.get_put_same .., hu⟩, fun _ _ _ => rfl⟩

/-- The version word as its block sees it, once written (04 R119). -/
theorem writeVersion_sees {s : State} {j : CopyJob} {b : Nat} (hb : j.b = b) {k : Block} (hk : Tbl.get s.blocks b = some k)
    (hu : UnitStands s k) {verAddr pa : Nat}
    (hplace : placeOf s j.x (globalTarget s j.x verAddr false) = some (.cap pa)) (ver : DWord) :
    (∃ k', Tbl.get (writeVersion s j ver verAddr).blocks b = some k') ∧
    ∀ q, q < 8 → blockSees (writeVersion s j ver verAddr) b (.cap (pa + q)) = BitVec.ofNat 8 (ver.toNat / 256 ^ q) := by
  subst hb
  have hwrite : writeVersion s j ver verAddr = writePhys s j.writer (.cap pa) (leBytes 8 ver.toNat) := by
    unfold writeVersion
    rw [hplace]
  rw [hwrite]
  obtain ⟨k', hk', -⟩ := (writePhys_runKeeps s (w := j.writer) (b := j.b) rfl (.cap pa) (leBytes 8 ver.toNat)).block k hk
  refine ⟨⟨k', hk'⟩, fun q hq => ?_⟩
  rw [writePhys_sees (b := j.b) rfl hk hu, length_leBytes, if_pos (by omega), Nat.add_sub_cancel_left, getD_leBytes 8 _ q hq]

/-- A byte of the box that lies in the tensor is a piece of the tile its store seals. -/
theorem mem_sealedTile {s : State} {j : CopyJob} {q : Nat} (hq : q < j.y.bytes) (hin : (boxByte j.y j.c q).2 ≠ 0) {p : Phys}
    (hp : placeOf s j.x (globalTarget s j.x (boxByte j.y j.c q).1 false) = some p) (verAddr : Nat) :
    (∀ pa, p = .cap pa → (pa, 1) ∈ (sealedTile s j verAddr).cap) ∧ ∀ pa, p = .sys pa → (pa, 1) ∈ (sealedTile s j verAddr).sys := by
  have hpiece : (some p, 1) ∈ (((List.range j.y.bytes).map (boxByte j.y j.c)).filter (fun q => q.2 ≠ 0)).map
      (fun q => (placeOf s j.x (globalTarget s j.x q.1 false), 1)) := by
    refine List.mem_map.mpr ⟨boxByte j.y j.c q, List.mem_filter.mpr ⟨List.mem_map_of_mem (List.mem_range.mpr hq), by simpa using hin⟩, ?_⟩
    rw [hp]
  exact ⟨fun a ha => mem_tileOf_cap (List.mem_append_left _ (ha ▸ hpiece)), fun a ha => mem_tileOf_sys (List.mem_append_left _ (ha ▸ hpiece))⟩

/-- A sealed store completes: its version word and its seal are written (04 R119, R120). -/
theorem sealedCopyCompletes : SealedCopyCompletes := by
  intro b n s s2 k c y cs off ver verAddr place pv hopen hop hu j hreach hgoes hpv hroom
  obtain ⟨hk, hc, -⟩ := id hopen
  obtain ⟨-, htl, hnum⟩ := find_cmd hc
  obtain ⟨r, hrun, rfl, hmoved, hclean, -, hkeeps⟩ := hgoes.run (b := b) rfl
  obtain ⟨k2, hk2, -⟩ := hkeeps.block k hk
  obtain ⟨pa, rfl⟩ : ∃ pa, pv = .cap pa := (placeOf_global hpv).resolve_right (by simp)
  have hversion : versionRoom r.s j verAddr = true := by
    unfold versionRoom
    rw [hpv]
    exact hroom pa rfl
  have hend := (copyCommandComplete_of_open hopen hop).trans
    (runTcopy_sealed_of_clean (ver := ver) (probeAll_of_reached hreach) hrun hclean hversion (b := b) rfl)
  rw [htl, hnum] at hend
  obtain ⟨⟨k3, hk3, hu3⟩, hplaces⟩ := noteRun_unit hk2 (hkeeps.unitStands hk hk2 hu) 0x1000 n r []
  obtain ⟨⟨k4, hk4⟩, hsees⟩ := writeVersion_sees rfl hk3 hu3 ((hplaces ..).trans hpv) ver
  generalize writeVersion (noteRun b 0x1000 n r [] r.s) j ver verAddr = written at hend hk4 hsees
  have hseal := addSeal_eq written j.x (sealedTile r.s j verAddr)
  obtain ⟨k5, hk5, -⟩ := payCopy_block (s := addSeal written j.x (sealedTile r.s j verAddr)) (b := b) (by rw [hseal]; exact hk4) 0x1000 n
  refine ⟨_, _, (exec_copyCommandComplete b n s).trans (congrArg _ hend), completeCmd_cmdDone hk5, fun q hq => ?_, sealedTile r.s j verAddr, ?_,
    fun q hq => ?_, fun q hq => ?_, fun q hq hin p hp => mem_sealedTile (j := j) hq hin hp verAddr⟩
  · rw [plus, payCopy_sees, ← hsees q hq, hseal]
    rfl
  · rw [payCopy_eq]
    exact addSeal_last ..
  · refine mem_tileOf_cap (List.mem_append_right _ (List.mem_singleton.mpr ?_))
    exact congrArg (·, 8) (hq ▸ hpv.symm)
  · cases hq

/-! ## A line of a tensor load that fills (03 R78) -/

theorem exec_lineSetFull (b eng n line : Nat) (s : State) :
    exec (.lineSetFull b eng n line) s = .next (if eng = 0 then lineOfCmd b n line s else lineOfCpy b n line s) := rfl

/-- A run noted on a command with its line: the command has moved the run's bytes, and the line is full. -/
theorem noteRun_line {s : State} {b n : Nat} {k : Block} {c : EngCmd} {r : CopyRun} (hk : Tbl.get s.blocks b = some k)
    (hc : k.cmds.find? (fun c => c.tl = 0x1000 && c.num = n) = some c) (hwaits : c.waits = []) (hr : RanClean r) (hwrote : r.wrote = [])
    (line : Nat) : OnlyBlocks { s with full := (noteRun b 0x1000 n r [line] s).full } (noteRun b 0x1000 n r [line] s) ∧
    line ∈ (noteRun b 0x1000 n r [line] s).full ∧ ∃ k', Tbl.get (noteRun b 0x1000 n r [line] s).blocks b = some k' ∧
      k'.cmds.find? (fun c => c.tl = 0x1000 && c.num = n) = some { c with doneElems := c.doneElems ++ r.moved } := by
  rw [noteRun_eq hk]
  refine ⟨rfl, mem_foldl_insertNat.mpr (.inl (List.mem_singleton_self line)), _, Tbl.get_put_same .., ?_⟩
  rw [find_mapCmd (f := notedCmd _ r) (fun _ => ⟨rfl, rfl⟩) hc, notedCmd, hr.2.1, hwrote, ← hwaits]
  simp

/-- The bytes of a tensor load in a line, where they go, are moved and noted ahead of the rest. -/
theorem lineOfCmd_load {s : State} {b n line : Nat} {k : Block} {c : EngCmd} (hopen : OpenCmd s b 0x1000 n k c) {se : Bool} {y : Layout}
    {cs : List Int} {off : Nat} {ver : DWord} {verAddr : Nat} (hop : c.op = .tcopy false se y cs off ver verAddr) {r : CopyRun}
    (hmine : (leftOf y c).filter (fun q => (jobOf s b k c false y cs off).spad q / 128 = line) ≠ [])
    (hrun : copySteps (jobOf s b k c false y cs off) c.failed (CopyRun.start s)
      ((leftOf y c).filter (fun q => (jobOf s b k c false y cs off).spad q / 128 = line)) = r) (hr : RanClean r) :
    lineOfCmd b n line s = noteRun b 0x1000 n r [line] r.s := by
  rw [leftOf, List.filter_filter] at hmine hrun
  obtain ⟨hhurt, hwaits, hstall, hbad⟩ := hr
  unfold lineOfCmd
  simp only [liveCmd_of_openCmd hopen, hop]
  rw [show copyJob s b k c false y cs off = jobOf s b k c false y cs off from rfl, hrun, hwaits, hbad, hstall, hhurt, if_neg]
  simpa using hmine

/-- A line of a tensor load fills ahead of the rest of its box (03 R78). -/
theorem lineFills_load {b n line : Nat} {s s2 : State} {k : Block} {c : EngCmd} {se : Bool} {y : Layout} {cs : List Int} {off : Nat}
    {ver : DWord} {verAddr : Nat} {place : Nat → Phys} (hopen : OpenCmd s b 0x1000 n k c) (hop : c.op = .tcopy false se y cs off ver verAddr)
    {mine : List Nat} (hdef : (leftOf y c).filter (fun q => (jobOf s b k c false y cs off).spad q / 128 = line) = mine) (hmine : mine ≠ [])
    (hgoes : CopyGoes (jobOf s b k c false y cs off) c.failed place s mine s2) :
    BoxLoaded (jobOf s b k c false y cs off) mine place s s2 ∧ ∃ t k' c', exec (.lineSetFull b 0 n line) s = .next t ∧
      t = { s2 with full := t.full, blocks := t.blocks } ∧ line ∈ t.full ∧ Tbl.get t.blocks b = some k' ∧
      k'.cmds.find? (fun c => c.tl = 0x1000 && c.num = n) = some c' ∧ c' = { c with doneElems := c.doneElems ++ mine } := by
  subst hdef
  obtain ⟨hk, hc, -, -, hwaits⟩ := id hopen
  obtain ⟨r, hrun, rfl, hmoved, hclean, hwrote, hkeeps⟩ := hgoes.run (b := b) rfl
  obtain ⟨k2, hk2, he2, -⟩ := hkeeps.block k hk
  have hc2 : k2.cmds.find? (fun c => c.tl = 0x1000 && c.num = n) = some c := by rw [he2]; exact hc
  obtain ⟨honly, hfull, k', hk', hc'⟩ := noteRun_line hk2 hc2 hwaits hclean (hwrote rfl) line
  refine ⟨hgoes.boxLoaded rfl ((nodup_leftOf y c).filter _), noteRun b 0x1000 n r [line] r.s, k', _, ?_, honly, hfull, hk', hc', ?_⟩
  · rw [exec_lineSetFull, if_pos rfl, lineOfCmd_load hopen hop hmine hrun hclean]
  · rw [hmoved]

/-! ## CPY32 (04 R110, R112) -/

/-- What a lane of a CPY32 lands of the bytes at places that `keep` admits. -/
def laneWrites (s : State) (b core space : Nat) (keep : Nat → Bool) (q : Nat × List (Option Nat)) : List (Nat × Byte) :=
  q.2.zipIdx.flatMap (fun c => if keep (landsAt core q c.2) then [(landsAt core q c.2, landByte s b space c.1)] else [])

theorem mem_laneWrites {s : State} {b core space : Nat} {keep : Nat → Bool} {q : Nat × List (Option Nat)} {w : Nat × Byte} :
    w ∈ laneWrites s b core space keep q ↔
      ∃ i, ∃ hi : i < q.2.length, keep (landsAt core q i) = true ∧ w = (landsAt core q i, landByte s b space q.2[i]) := by
  unfold laneWrites
  simp only [List.mem_flatMap, List.mem_zipIdx_iff_getElem?, Prod.exists]
  constructor
  · rintro ⟨src, i, hget, hw⟩
    obtain ⟨hi, rfl⟩ := List.getElem?_eq_some_iff.mp hget
    split at hw
    · exact ⟨i, hi, ‹_›, List.mem_singleton.mp hw⟩
    · cases hw
  · rintro ⟨i, hi, hkeep, rfl⟩
    exact ⟨q.2[i], i, List.getElem?_eq_getElem hi, by simp [hkeep]⟩

theorem copyTouch_caches (space : Nat) (s : State) (src : Option Nat) : OnlyCaches s (copyTouch space s src) := by
  cases src with
  | none => rfl
  | some a => exact touch_caches ..

/-- What lands keeps the sources' bytes, where it lies apart from them. -/
theorem Lands.landByte {s t : State} {ws : List (Nat × Byte)} (h : Lands s ws t) {b space : Nat} {src : Option Nat}
    (hapart : ∀ a, src = some a → ∀ w ∈ ws, copyPlace space a ≠ .spad w.1) : landByte t b space src = landByte s b space src := by
  cases src with
  | none => rfl
  | some a => exact h.blockSees (hapart a rfl)

theorem landLane_eq (b core space : Nat) (keep : Nat → Bool) (s : State) (q : Nat × List (Option Nat)) :
    landLane b core space keep s q = q.2.zipIdx.foldl (fun s c => if keep (landsAt core q c.2) then
      putSpad (copyTouch space s c.1) (landsAt core q c.2) [landByte (copyTouch space s c.1) b space c.1] else s) s := by
  unfold landLane
  congr 1
  funext s c
  obtain ⟨_ | a, i⟩ := c <;> rfl

/-- A lane lands its bytes, while no byte lands where one of its sources lies. -/
theorem landLane_lands {s u : State} {b core space : Nat} {keep : Nat → Bool} {q : Nat × List (Option Nat)} {ok : Nat → Prop}
    {xs : List (Nat × Byte)} (hu : Lands s xs u) (hxs : ∀ x ∈ xs, ok x.1) (hplaces : ∀ i, i < q.2.length → ok (landsAt core q i))
    (hapart : ∀ src ∈ q.2, ∀ a, src = some a → ∀ w, ok w → copyPlace space a ≠ .spad w) :
    Lands u (laneWrites s b core space keep q) (landLane b core space keep u q) := by
  rw [landLane_eq]
  refine lands_foldl (ok := ok) hu hxs ?_ ?_
  · rintro ⟨src, i⟩ hc x hx
    obtain ⟨hi, -⟩ := List.getElem?_eq_some_iff.mp (List.mem_zipIdx_iff_getElem?.mp hc)
    split at hx
    · rw [List.mem_singleton.mp hx]
      exact hplaces i hi
    · cases hx
  · rintro v ys hv hys ⟨src, i⟩ hc
    have hsrc : src ∈ q.2 := List.mem_of_getElem? (List.mem_zipIdx_iff_getElem?.mp hc)
    have hcache := (copyTouch_caches space v src).lands
    dsimp only
    split
    · rw [hcache.landByte (by simp), hv.landByte fun a ha w hw => hapart src hsrc a ha w.1 (hys w hw)]
      exact hcache.trans (putSpad_lands ..)
    · exact .refl v

theorem landLanes_eq (b core space : Nat) (keep : Nat → Bool) : ∀ (qs : List (Nat × List (Option Nat))) (s : State),
    landLanes b core space keep qs s = qs.foldl (landLane b core space keep) s
  | [], _ => rfl
  | q :: r, s => landLanes_eq b core space keep r (landLane b core space keep s q)

/-- The lanes of a CPY32 land their bytes, each as it was before. -/
theorem landLanes_lands {s : State} {core : Nat} {c : TagCopy} (hapart : SourcesApart core c) (b : Nat) (keep : Nat → Bool) :
    Lands s (c.lanes.flatMap (laneWrites s b core c.space keep)) (landLanes b core c.space keep c.lanes s) := by
  rw [landLanes_eq]
  have hsources : ∀ q ∈ c.lanes, ∀ src ∈ q.2, ∀ a, src = some a →
      ∀ w, (∃ r ∈ c.lanes, ∃ i, i < r.2.length ∧ w = landsAt core r i) → copyPlace c.space a ≠ .spad w := by
    rintro q hq src hsrc a rfl w ⟨r, hr, i, hi, rfl⟩
    exact hapart q hq a hsrc r hr i hi
  refine lands_foldl (ok := fun w => ∃ r ∈ c.lanes, ∃ i, i < r.2.length ∧ w = landsAt core r i) (.refl s) (by simp) ?_ ?_
  · intro q hq x hx
    obtain ⟨i, hi, -, rfl⟩ := mem_laneWrites.mp hx
    exact ⟨q, hq, i, hi, rfl⟩
  · intro u xs hu hxs q hq
    exact landLane_lands hu hxs (fun i hi => ⟨q, hq, i, hi, rfl⟩) (hsources q hq)

theorem landsAt_inj {core i j : Nat} {q : Nat × List (Option Nat)} (h : landsAt core q i = landsAt core q j) : i = j := by
  simpa [landsAt] using h

/-- The bytes of a CPY32 that have landed stand as R110 says: the highest lane's remain. -/
theorem Lands.landed {s t u : State} {b core : Nat} {c : TagCopy} {keep : Nat → Bool} {K : Nat → Prop}
    (h : Lands s (c.lanes.flatMap (laneWrites s b core c.space keep)) t) (hkeep : ∀ a, keep a = true ↔ K a)
    (hu : u = { t with full := u.full, blocks := u.blocks, spadRaces := u.spadRaces }) : Landed b core c K s u := by
  have hframe : t = _ := h.1
  have hspad : u.spad = t.spad := by rw [hu]
  refine ⟨by rw [hu, hframe], by rw [hu, hframe], by rw [hu, hframe], fun m q i hq hi hK hlast => ?_, fun a ha => ?_⟩
  · obtain ⟨hm, hqm⟩ := List.getElem?_eq_some_iff.mp hq
    have hsplit : c.lanes = c.lanes.take m ++ q :: c.lanes.drop (m + 1) := by
      rw [← hqm, List.cons_getElem_drop_succ, List.take_append_drop]
    have hafter : ∀ w ∈ (c.lanes.drop (m + 1)).flatMap (laneWrites s b core c.space keep), w.1 ≠ landsAt core q i := by
      intro w hw
      obtain ⟨r, hr, hw⟩ := List.mem_flatMap.mp hw
      obtain ⟨i', hi', -, rfl⟩ := mem_laneWrites.mp hw
      obtain ⟨d, hd⟩ := List.getElem?_of_mem hr
      rw [List.getElem?_drop] at hd
      exact hlast _ r i' (by omega) hd hi'
    rw [hspad, h.2, hsplit, List.flatMap_append, List.flatMap_cons, installBytes_append, installBytes_append,
      get_installBytes_other hafter]
    refine get_installBytes_mem (mem_laneWrites.mpr ⟨i, hi, (hkeep _).mpr hK, rfl⟩) fun w hw he => ?_
    obtain ⟨i', hi', -, rfl⟩ := mem_laneWrites.mp hw
    obtain rfl := landsAt_inj he
    rfl
  · rw [hspad]
    refine h.get_other fun w hw => ?_
    obtain ⟨q, hq, hw⟩ := List.mem_flatMap.mp hw
    obtain ⟨i, hi, hk, rfl⟩ := mem_laneWrites.mp hw
    intro he
    exact ha q hq i hi ((hkeep _).mp (he ▸ hk)) he.symm

/-- A team changed in a block that stands. -/
theorem onTeam_block {s : State} {b t : Nat} {k : Block} {m : Team} (hk : Tbl.get s.blocks b = some k) (hm : Tbl.get k.teams t = some m)
    (f : Team → Team) : ∃ k', Tbl.get (onTeam s b t f).blocks b = some k' ∧ k' = { k with teams := k'.teams } ∧
      Tbl.get k'.teams t = some (f m) := by
  refine ⟨mapTeam k t f, ?_, mapTeam_eq k t f, by rw [teams_mapTeam, if_pos rfl, hm]; rfl⟩
  unfold onTeam
  rw [hk]
  exact Tbl.get_put_same ..

theorem clearRaces_eq (s : State) : clearRaces s = { s with spadRaces := (clearRaces s).spadRaces } := by
  unfold clearRaces
  split <;> rfl

theorem exec_cpy32Complete (b t tag : Nat) (s : State) : exec (.cpy32Complete b t tag) s = .next (cpy32Complete b t tag s) := rfl

/-- A CPY32 that lands: its bytes, its full/empty lines, and its end. -/
theorem cpy32Complete_of_clean {s : State} {b t tag : Nat} {k : Block} {m : Team} {c : TagCopy} (hk : Tbl.get s.blocks b = some k)
    (hm : Tbl.get k.teams t = some m) (hc : m.copies.find? (fun c => c.tag = tag) = some c)
    (hclean : rerunnable s b = true → copyPoisoned s b c = false) : cpy32Complete b t tag s =
      blockEndCheck (clearRaces (onTeam
        (if c.fe then setLines (landLanes b k.core c.space (fun a => !c.doneLines.contains (a / 128) && copyStands s c.id a) c.lanes s)
          ((cpyLines k.core c).filter (fun l => !c.doneLines.contains l)) true
         else landLanes b k.core c.space (fun a => !c.doneLines.contains (a / 128) && copyStands s c.id a) c.lanes s) b t
        (fun m => { m with copies := m.copies.filter (fun q => q.id ≠ c.id) }))) b := by
  have hno : (rerunnable s b && copyPoisoned s b c) = false := by simpa [Bool.and_eq_false_imp] using hclean
  unfold cpy32Complete
  simp only [hk, hm, Option.bind_some, oldestCopy, hc, hno]
  rfl

theorem cpy32Completes : Cpy32Completes := by
  intro b t tag s k m c hk hm hc hdone hapart hclean
  have hlands := landLanes_lands (s := s) hapart b (fun a => !c.doneLines.contains (a / 128) && copyStands s c.id a)
  have hend := cpy32Complete_of_clean hk hm hc hclean
  generalize landLanes b k.core c.space _ c.lanes s = s1 at hlands hend
  have hk1 : Tbl.get s1.blocks b = some k := by rw [show s1 = _ from hlands.1]; exact hk
  set s2 := if c.fe then setLines s1 ((cpyLines k.core c).filter (fun l => !c.doneLines.contains l)) true else s1 with hs2
  have hk2 : Tbl.get s2.blocks b = some k := by rw [hs2]; split <;> exact hk1
  obtain ⟨k', hk', he, hm'⟩ := onTeam_block hk2 hm (fun m => { m with copies := m.copies.filter (fun q => q.id ≠ c.id) })
  refine ⟨_, k', _, (exec_cpy32Complete b t tag s).trans (congrArg _ hend), hlands.landed (fun a => ?_) ?_, ?_, he, hm', rfl, fun hfe q hq => ?_⟩
  · simp [hdone, copyStands_iff]
  · rw [clearRaces_eq, onTeam_eq, hs2]
    split <;> rfl
  · rw [clearRaces_eq]
    exact hk'
  · rw [clearRaces_eq, onTeam_eq, hs2, if_pos hfe]
    refine mem_foldl_insertNat.mpr (.inl ?_)
    rw [hdone]
    simp only [List.contains_nil, Bool.not_false, List.filter_true, cpyLines, List.mem_eraseDups]
    exact List.mem_map_of_mem hq

theorem mem_cpyLines {core : Nat} {c : TagCopy} {line : Nat} :
    line ∈ cpyLines core c ↔ ∃ q ∈ c.lanes, (core * 2 ^ 19 + q.1) / 128 = line := by
  unfold cpyLines
  rw [List.mem_eraseDups, List.mem_map]
  rfl

/-- A line of a CPY32 fills ahead of the rest of it (03 R78). -/
theorem lineFills_cpy32 {b line : Nat} {s : State} {k : Block} {t : Nat} {m : Team} {c : TagCopy} (hk : Tbl.get s.blocks b = some k)
    (hteam : k.teams.find? (fun q => q.2.copies.any (fun p => p.id = c.id)) = some (t, m)) (hm : Tbl.get k.teams t = some m)
    (hc : m.copies.find? (fun p => p.id = c.id) = some c) (hfe : c.fe = true) (hnew : line ∉ c.doneLines) (hapart : SourcesApart k.core c)
    (hclean : rerunnable s b = true → copyPoisoned s b c = false) (hline : ∃ q ∈ c.lanes, (k.core * 2 ^ 19 + q.1) / 128 = line) :
    ∃ u k' m', exec (.lineSetFull b 1 c.id line) s = .next u ∧ Landed b k.core c (fun a => a / 128 = line ∧ Spec.Stands s c.id a) s u ∧
      line ∈ u.full ∧ Tbl.get u.blocks b = some k' ∧ k' = { k with teams := k'.teams } ∧ Tbl.get k'.teams t = some m' ∧
      { c with doneLines := line :: c.doneLines } ∈ m'.copies := by
  have hgo : (!c.fe || !(cpyLines k.core c).contains line || c.doneLines.contains line || (rerunnable s b && copyPoisoned s b c)) = false := by
    have hmine := mem_cpyLines.mpr hline
    cases hr : rerunnable s b with
    | false => simp [hfe, hmine, hnew]
    | true => simp [hfe, hmine, hnew, hclean hr]
  have hlands := landLanes_lands (s := s) hapart b (fun a => a / 128 = line && copyStands s c.id a)
  have hstep : lineOfCpy b c.id line s = onTeam (setLines (landLanes b k.core c.space (fun a => a / 128 = line && copyStands s c.id a) c.lanes s)
      [line] true) b t (fun m => { m with
        copies := m.copies.map (fun q => if q.id = c.id then { q with doneLines := line :: q.doneLines } else q) }) := by
    unfold lineOfCpy
    simp only [hk, hteam, hc, hgo]
    rfl
  generalize landLanes b k.core c.space _ c.lanes s = s1 at hlands hstep
  have hk1 : Tbl.get (setLines s1 [line] true).blocks b = some k := by
    change Tbl.get s1.blocks b = some k
    rw [show s1 = _ from hlands.1]
    exact hk
  obtain ⟨k', hk', he, hm'⟩ := onTeam_block hk1 hm
    (fun m => { m with copies := m.copies.map (fun q => if q.id = c.id then { q with doneLines := line :: q.doneLines } else q) })
  refine ⟨_, k', _, (exec_lineSetFull b 1 c.id line s).trans (congrArg _ hstep), hlands.landed (fun a => ?_) ?_, ?_, hk', he, hm', ?_⟩
  · simp [copyStands_iff]
  · rw [onTeam_eq]
    rfl
  · rw [onTeam_eq]
    exact mem_foldl_insertNat.mpr (.inl (List.mem_singleton_self line))
  · exact List.mem_map.mpr ⟨c, List.mem_of_find?_eq_some hc, if_pos rfl⟩

/-- A CPY32 whose source holds poison, in a unit that can be rerun. -/
theorem cpy32Complete_of_poisoned {s : State} {b t tag : Nat} {k : Block} {m : Team} {c : TagCopy} (hk : Tbl.get s.blocks b = some k)
    (hm : Tbl.get k.teams t = some m) (hc : m.copies.find? (fun c => c.tag = tag) = some c) (hrun : rerunnable s b = true)
    (hpoison : copyPoisoned s b c = true) : cpy32Complete b t tag s = addDue s (.rerun b false) := by
  unfold cpy32Complete
  simp only [hk, hm, Option.bind_some, oldestCopy, hc, hrun, hpoison, Bool.and_self, if_true]
  simp only [consumePoison, hrun, if_true]

/-! ## Multicast: a target decides (04 R123) -/

/-- No block of the context holds the range on a core. -/
theorem holders_none {s : State} {x core dst len : Nat}
    (h : ∀ q k, (q, k) ∈ s.blocks → k.core = core → ctxNum s q = x → allocHolding k dst len = none) :
    holderOn s x core dst len = none ∧ savedHolder s x core dst len = none := by
  have hnone : ∀ st : Block → Bool,
      s.blocks.find? (fun c => c.2.core = core && ctxNum s c.1 = x && (allocHolding c.2 dst len).isSome && st c.2) = none := by
    intro st
    refine List.find?_eq_none.mpr fun ⟨q, k⟩ hq => ?_
    by_cases hcore : k.core = core
    · by_cases hx : ctxNum s q = x
      · simp [h q k hq hcore hx]
      · simp [hx]
    · simp [hcore]
  have hholder := hnone (fun k => k.st ≠ .saved)
  have hsaved := hnone (fun k => k.st = .saved)
  exact ⟨by unfold holderOn; rw [hholder], by unfold savedHolder; rw [hsaved]⟩

/-- A core out of service is no target. -/
theorem mcastReason_out {s : State} {core : Nat} (h : .core core ∈ s.mgmt.out) (x dst len gen : Nat) :
    mcastReason s x core dst len gen = 1 := by
  unfold mcastReason
  rw [if_pos (List.contains_iff_mem.mpr h)]

/-- No block holds the range. -/
theorem mcastReason_none {s : State} {x core dst len : Nat} (h : holderOn s x core dst len = none) (h' : savedHolder s x core dst len = none)
    (gen : Nat) : mcastReason s x core dst len gen = 1 := by
  unfold mcastReason
  rw [h, h']
  simp

/-- A block on the core holds the range. -/
theorem mcastReason_holder {s : State} {x core dst len q : Nat} {a : Alloc} (hin : .core core ∉ s.mgmt.out)
    (h : holderOn s x core dst len = some (q, a)) (gen : Nat) : mcastReason s x core dst len gen =
      if a.gen ≠ gen then 2 else if a.busy || ((Tbl.get s.blocks q).map blockMoving).getD false then 3 else 0 := by
  unfold mcastReason
  rw [h, if_neg (by simpa using hin)]

/-- Transfers counted change allocations alone. -/
theorem countMcast_block {s : State} {b : Nat} {k : Block} (hk : Tbl.get s.blocks b = some k) (q off n : Nat) (f : Nat → Nat) :
    ∃ k', Tbl.get (countMcast s q off n f).blocks b = some k' ∧ k' = { k with allocs := k'.allocs } := by
  unfold countMcast onBlock
  by_cases hq : b = q
  · subst hq
    rw [hk]
    exact ⟨_, Tbl.get_put_same .., rfl⟩
  · refine ⟨k, ?_, rfl⟩
    split
    · exact hk
    · exact (Tbl.get_put_other _ _ hq).trans hk

theorem countMcast_blocks (s : State) (b off n : Nat) (f : Nat → Nat) : OnlyBlocks s (countMcast s b off n f) := (onBlock_only s b _).1

/-- A command changed in a block that stands. -/
theorem onBlock_mapCmd {s : State} {b sel n : Nat} {k : Block} {c : EngCmd} (hk : Tbl.get s.blocks b = some k)
    (hc : k.cmds.find? (fun c => c.tl = sel && c.num = n) = some c) {f : EngCmd → EngCmd} (hf : ∀ c, (f c).tl = c.tl ∧ (f c).num = c.num) :
    ∃ k', Tbl.get (onBlock s b (mapCmd sel n f)).blocks b = some k' ∧ k' = { k with cmds := k'.cmds } ∧ f c ∈ k'.cmds := by
  refine ⟨mapCmd sel n f k, ?_, rfl, List.mem_of_find?_eq_some (find_mapCmd hf hc)⟩
  unfold onBlock
  rw [hk]
  exact Tbl.get_put_same ..

theorem exec_mcastArrival (b n target : Nat) (s : State) : exec (.mcastArrival b n target) s = .next (mcastArrival b n target s) := rfl

theorem mcastArrival_of_open {s : State} {b n target : Nat} {k : Block} {c : EngCmd} (hopen : OpenCmd s b 0x1000 n k c)
    {src dst len mask : Nat} {gens : List Nat} {recOff : Nat} {answers : Tbl Nat} (hop : c.op = .mcast src dst len mask gens recOff answers)
    (htarget : target < 8) (hmask : (BitVec.ofNat 8 mask).getLsbD target = true) (hnew : Tbl.get answers target = none) {r : Nat}
    (hr : mcastReason s (ctxNum s b) (mcastCore k.core target) dst len (gens.getD target 0) = r) :
    ∃ t k' c', exec (.mcastArrival b n target) s = .next t ∧ OnlyBlocks s t ∧ Tbl.get t.blocks b = some k' ∧ c' ∈ k'.cmds ∧
      c'.tl = 0x1000 ∧ c'.num = n ∧ c'.op = .mcast src dst len mask gens recOff (Tbl.put answers target r) := by
  obtain ⟨hk, hc, -⟩ := id hopen
  obtain ⟨-, htl, hnum⟩ := find_cmd hc
  have hfirst : ((Tbl.get answers target).isSome || !(BitVec.ofNat 8 mask).getLsbD target || decide (8 ≤ target)) = false := by
    simp [hnew, hmask, htarget]
  rw [exec_mcastArrival]
  unfold mcastArrival
  simp only [liveCmd_of_openCmd hopen, hop, hfirst, hr, Bool.false_eq_true, if_false]
  obtain ⟨k1, hk1, -, hc1⟩ := onBlock_mapCmd (f := fun c => { c with op := .mcast src dst len mask gens recOff (Tbl.put answers target r) })
    hk hc (fun _ => ⟨rfl, rfl⟩)
  have honly := (onBlock_only s b (mapCmd 0x1000 n (fun c => { c with op := .mcast src dst len mask gens recOff (Tbl.put answers target r) }))).1
  generalize onBlock s b _ = s1 at hk1 honly
  let c1 : EngCmd := { c with op := .mcast src dst len mask gens recOff (Tbl.put answers target r) }
  split
  · rename_i q a _
    split
    · obtain ⟨k2, hk2, he2⟩ := countMcast_block hk1 q dst len (fun v => v + 1)
      exact ⟨_, k2, c1, rfl, honly.trans (countMcast_blocks ..), hk2, by rw [he2]; exact hc1, htl, hnum, rfl⟩
    · exact ⟨s1, k1, c1, rfl, honly, hk1, hc1, htl, hnum, rfl⟩
  · exact ⟨s1, k1, c1, rfl, honly, hk1, hc1, htl, hnum, rfl⟩

theorem mcastArrives : McastArrives := by
  intro b n target s k c src dst len mask gens recOff answers hopen hop htarget hmask hnew core
  obtain ⟨t, k', c', hexec, honly, hk', hc', htl, hnum, hop'⟩ := mcastArrival_of_open hopen hop htarget hmask hnew rfl
  refine ⟨_, t, k', c', hexec, honly, hk', hc', htl, hnum, hop', fun hout => mcastReason_out hout .., fun hno => ?_, fun hin q a hholder => ?_⟩
  · obtain ⟨hnone, hsaved⟩ := holders_none hno
    exact mcastReason_none hnone hsaved _
  · have hreason := mcastReason_holder hin hholder (gens.getD target 0)
    refine ⟨fun hgen => ?_, fun hgen hbusy => ?_, fun hgen hbusy hrunning => ?_⟩
    · exact hreason.trans (if_pos hgen)
    · exact hreason.trans (by simp [hgen, hbusy])
    · have hstays : ((Tbl.get s.blocks q).map blockMoving).getD false = false := by
        cases hq : Tbl.get s.blocks q with
        | none => rfl
        | some h => simp [blockMoving, hrunning h hq]
      exact hreason.trans (by simp [hgen, hbusy, hstays])

/-! ## The bytes of a multicast (04 R122, R123) -/

theorem mcastBytes_eq (core src dst : Nat) : ∀ (qs : List Nat) (s : State),
    mcastBytes core src dst qs s = qs.foldl (mcastByte core src dst) s
  | [], _ => rfl
  | q :: r, s => mcastBytes_eq core src dst r (mcastByte core src dst s q)

/-- A byte that a multicast brings to a target. -/
def mcastWrite (s : State) (core src dst q : Nat) : Nat × Byte :=
  (mcastPlace core dst q, Sparse.get (w := 8) s.spad (core * 2 ^ 19 + src + q % 2 ^ 20))

theorem mcastByte_lands (core src dst : Nat) (s : State) (q : Nat) : Lands s [mcastWrite s core src dst q] (mcastByte core src dst s q) :=
  putSpad_lands ..

/-- A multicast writes at its targets alone. -/
theorem mcastBytes_frame (core src dst : Nat) : ∀ (qs : List Nat) (s : State),
    ∃ ws, Lands s ws (mcastBytes core src dst qs s) ∧ ∀ w ∈ ws, ∃ q ∈ qs, w.1 = mcastPlace core dst q
  | [], s => ⟨[], .refl s, by simp⟩
  | q :: r, s => by
    obtain ⟨ws, hland, hws⟩ := mcastBytes_frame core src dst r (mcastByte core src dst s q)
    refine ⟨_, (mcastByte_lands core src dst s q).trans hland, fun w hw => ?_⟩
    rcases List.mem_append.mp hw with hw | hw
    · rw [List.mem_singleton.mp hw]
      exact ⟨q, List.mem_cons_self .., rfl⟩
    · obtain ⟨p, hp, he⟩ := hws w hw
      exact ⟨p, List.mem_cons_of_mem _ hp, he⟩

/-- Where no byte lands on a source, each target gets the source's bytes. -/
theorem mcastBytes_lands {core src dst : Nat} {qs : List Nat} (s : State)
    (hapart : ∀ q ∈ qs, ∀ r ∈ qs, mcastPlace core dst q ≠ core * 2 ^ 19 + src + r % 2 ^ 20) :
    Lands s (qs.map (mcastWrite s core src dst)) (mcastBytes core src dst qs s) := by
  rw [mcastBytes_eq, List.map_eq_flatMap]
  refine lands_foldl (ok := fun a => ∃ q ∈ qs, a = mcastPlace core dst q) (.refl s) (by simp) (fun q hq x hx => ?_) fun u xs hu hxs q hq => ?_
  · rw [List.mem_singleton.mp hx]
    exact ⟨q, hq, rfl⟩
  · have hsource : Sparse.get (w := 8) u.spad (core * 2 ^ 19 + src + q % 2 ^ 20) =
        Sparse.get (w := 8) s.spad (core * 2 ^ 19 + src + q % 2 ^ 20) := by
      refine hu.get_other fun w hw => ?_
      obtain ⟨p, hp, he⟩ := hxs w hw
      rw [he]
      exact hapart p hp q hq
    have hbyte := mcastByte_lands core src dst u q
    unfold mcastWrite at hbyte ⊢
    rwa [hsource] at hbyte

theorem mem_accepted {answers : Tbl Nat} {t : Nat} : t ∈ accepted answers ↔ (t, 0) ∈ answers := by
  simp [accepted]

theorem mem_mcastAll {len : Nat} {answers : Tbl Nat} {q : Nat} :
    q ∈ mcastAll len answers ↔ ∃ t i, (t, 0) ∈ answers ∧ i < len ∧ mcastKey t i = q := by
  simp [mcastAll, mem_accepted]

theorem mcastKey_mod {t i : Nat} (h : i < 2 ^ 20) : mcastKey t i % 2 ^ 20 = i := by
  unfold mcastKey
  omega

/-- Where a byte of a multicast goes, of those that lie in a scratchpad. -/
theorem mcastPlace_key {t i : Nat} (h : i < 2 ^ 20) (core dst : Nat) :
    mcastPlace core dst (mcastKey t i) = (core / 8 * 8 + t) * 2 ^ 19 + dst + i := by
  have hdiv : mcastKey t i / 2 ^ 20 = t := by
    unfold mcastKey
    omega
  unfold mcastPlace
  rw [mcastKey_mod h, hdiv]
  rfl

theorem target_inj {c dst len t t' i i' : Nat} (hlen : dst + len ≤ 2 ^ 19) (hi : i < len) (hi' : i' < len)
    (h : (c + t) * 2 ^ 19 + dst + i = (c + t') * 2 ^ 19 + dst + i') : i = i' := by
  omega

/-- A line of a multicast fills ahead of the rest of it (03 R78). -/
theorem lineFills_mcast {b n line : Nat} {s : State} {k : Block} {c : EngCmd} {src dst len mask : Nat} {gens : List Nat} {recOff : Nat}
    {answers : Tbl Nat} (hopen : OpenCmd s b 0x1000 n k c) (hop : c.op = .mcast src dst len mask gens recOff answers) {mine : List Nat}
    (hdef : (mcastAll len answers).filter (fun q => mcastPlace k.core dst q / 128 = line && !c.doneElems.contains q) = mine)
    (hmine : mine ≠ []) (hclean : mcastHurt s b k.core src len answers = false) :
    ∃ t k' c', exec (.lineSetFull b 0 n line) s = .next t ∧ line ∈ t.full ∧ t.mem = s.mem ∧ Tbl.get t.blocks b = some k' ∧
      k'.cmds.find? (fun c => c.tl = 0x1000 && c.num = n) = some c' ∧ c' = { c with doneElems := c.doneElems ++ mine } ∧
      ∀ a, (∀ q ∈ mine, a ≠ mcastPlace k.core dst q) → Sparse.get (w := 8) t.spad a = Sparse.get (w := 8) s.spad a := by
  obtain ⟨hk, hc, -, -, hwaits⟩ := id hopen
  obtain ⟨ws, hland, hws⟩ := mcastBytes_frame k.core src dst mine s
  set r : CopyRun := { CopyRun.start (mcastBytes k.core src dst mine s) with moved := mine } with hr
  have hframe : r.s = _ := hland.1
  have hstep : lineOfCmd b n line s = noteRun b 0x1000 n r [line] r.s := by
    unfold lineOfCmd
    simp only [liveCmd_of_openCmd hopen, hop, hdef, hclean, Bool.or_false, decide_eq_true_eq]
    exact if_neg hmine
  have hk' : Tbl.get r.s.blocks b = some k := by rw [hframe]; exact hk
  obtain ⟨honly, hfull, k', hk', hc'⟩ := noteRun_line hk' hc hwaits (r := r) ⟨rfl, rfl, rfl, rfl⟩ rfl line
  have ht : noteRun b 0x1000 n r [line] r.s = _ := honly
  refine ⟨_, k', _, ?_, hfull, ?_, hk', hc', rfl, fun a ha => ?_⟩
  · rw [exec_lineSetFull, if_pos rfl, hstep]
  · rw [ht, hframe]
  · rw [ht]
    refine hland.get_other fun w hw he => ?_
    obtain ⟨q, hq, hw⟩ := hws w hw
    exact ha q hq (he.symm.trans hw)

/-! ## A multicast that completes (04 R123-R125) -/

theorem countMcast_onlyEnds (s : State) (q off n : Nat) (f : Nat → Nat) : OnlyEnds s (countMcast s q off n f) := by
  refine ⟨onBlock_mem .., onBlock_chip .., onBlock_spad .., onBlock_log .., fun b k' hk' => ?_⟩
  cases hk : Tbl.get s.blocks b with
  | none =>
    unfold countMcast onBlock at hk'
    by_cases hq : b = q
    · subst hq
      rw [hk] at hk'
      exact absurd (hk.symm.trans hk') (by simp)
    · split at hk'
      · exact absurd (hk.symm.trans hk') (by simp)
      · exact absurd (hk.symm.trans ((Tbl.get_put_other _ _ hq).symm.trans hk')) (by simp)
  | some k =>
    obtain ⟨k2, hk2, he⟩ := countMcast_block hk q off n f
    obtain rfl := Option.some_inj.mp (hk2.symm.trans hk')
    exact ⟨k, rfl, fun c hc => ⟨c, by rw [he] at hc; exact hc, rfl, rfl, id⟩⟩

theorem mcastRelease_onlyEnds (x dst len core : Nat) : ∀ (ts : List Nat) (s : State), OnlyEnds s (mcastRelease x dst len core ts s)
  | [], s => .refl s
  | t :: r, s => by
    unfold mcastRelease
    refine OnlyEnds.trans ?_ (mcastRelease_onlyEnds x dst len core r _)
    split
    · exact .refl s
    · exact (countMcast_onlyEnds ..).trans (blockEndCheck_onlyEnds ..)

/-- A command that completes leaves none of its number open, in whatever block stands there. -/
theorem completeCmd_noneOpen (s : State) (b sel n : Nat) : NoneOpen (completeCmd s b sel n) b sel n := by
  cases hk : Tbl.get (payCopy s b sel n).blocks b with
  | some k => exact (completeCmd_cmdDone hk).noneOpen
  | none =>
    refine (blockEndCheck_onlyEnds _ b).noneOpen fun k hk' => ?_
    rw [clearRaces_eq, onBlock, hk] at hk'
    exact absurd (hk.symm.trans hk') (by simp)

/-- The byte memories of the device stay while a command completes. -/
theorem completeCmd_stores (s : State) (b sel n : Nat) :
    (completeCmd s b sel n).mem = s.mem ∧ (completeCmd s b sel n).chip = s.chip ∧ (completeCmd s b sel n).spad = s.spad := by
  obtain ⟨hmem, hchip, hspad, -⟩ := blockEndCheck_onlyEnds (clearRaces (onBlock (payCopy s b sel n) b (finishCmd sel n))) b
  have hpaid : (payCopy s b sel n).mem = s.mem ∧ (payCopy s b sel n).chip = s.chip ∧ (payCopy s b sel n).spad = s.spad := by
    rw [payCopy_eq]; exact ⟨rfl, rfl, rfl⟩
  have hsame : ∀ u f, (clearRaces (onBlock u b f)).mem = u.mem ∧ (clearRaces (onBlock u b f)).chip = u.chip ∧
      (clearRaces (onBlock u b f)).spad = u.spad := fun u f => by rw [clearRaces_eq, onBlock_eq]; exact ⟨rfl, rfl, rfl⟩
  obtain ⟨hmem', hchip', hspad'⟩ := hsame (payCopy s b sel n) (finishCmd sel n)
  exact ⟨(hmem.trans hmem').trans hpaid.1, (hchip.trans hchip').trans hpaid.2.1, (hspad.trans hspad').trans hpaid.2.2⟩

theorem exec_mcastComplete (b n : Nat) (s : State) : exec (.mcastComplete b n) s = .next (mcastComplete b n s) := rfl

/-- Every target has decided. -/
theorem all_decided {mask : Nat} {answers : Tbl Nat}
    (h : ∀ t : Nat, t < 8 → (BitVec.ofNat 8 mask).getLsbD t = true → Tbl.get answers t ≠ none) :
    ((List.range 8).any fun t => (BitVec.ofNat 8 mask).getLsbD t && (Tbl.get answers t).isNone) = false := by
  simpa [List.any_eq_false] using h

theorem mcastComplete_of_clean {b n : Nat} {s : State} {k : Block} {c : EngCmd} {src dst len mask : Nat} {gens : List Nat} {recOff : Nat}
    {answers : Tbl Nat} (hopen : OpenCmd s b 0x1000 n k c) (hop : c.op = .mcast src dst len mask gens recOff answers)
    (hall : ∀ t : Nat, t < 8 → (BitVec.ofNat 8 mask).getLsbD t = true → Tbl.get answers t ≠ none) (hdone : c.doneElems = [])
    (hclean : mcastHurt s b k.core src len answers = false) : ∃ u, u.mem = s.mem ∧ u.chip = s.chip ∧
      u.spad = writeBytes (mcastBytes k.core src dst (mcastAll len answers) s).spad (k.core * 2 ^ 19 + recOff) (leBytes 8 (mcastRecord n answers)) ∧
      mcastComplete b n s = completeCmd u b 0x1000 n := by
  have hland : landMcast k.core src dst len c.doneElems answers s = setLines (mcastBytes k.core src dst (mcastAll len answers) s)
      (filledLines (mcastPlace k.core dst) (mcastAll len answers) (mcastAll len answers) (mcastAll len answers)) true := by
    simp [landMcast, hdone]
  obtain ⟨ws, ⟨hscratch, -⟩, -⟩ := mcastBytes_frame k.core src dst (mcastAll len answers) s
  have hframe : mcastBytes k.core src dst (mcastAll len answers) s = _ := hscratch
  have hmem := congrArg State.mem hframe
  have hchip := congrArg State.chip hframe
  have hends := mcastRelease_onlyEnds (ctxNum s b) dst len k.core (accepted answers)
    (putSpad (landMcast k.core src dst len c.doneElems answers s) (k.core * Config.spadBytes + recOff) (leBytes 8 (mcastRecord n answers)))
  rw [hland] at hends
  refine ⟨_, hends.mem.trans hmem, hends.chip.trans hchip, hends.spad, ?_⟩
  unfold mcastComplete
  simp only [liveCmd_of_openCmd hopen, hop, all_decided hall, hclean, hland]
  rfl

/-- A multicast whose source holds poison, in a unit that can be rerun. -/
theorem mcastComplete_of_poisoned {b n : Nat} {s : State} {k : Block} {c : EngCmd} {src dst len mask : Nat} {gens : List Nat} {recOff : Nat}
    {answers : Tbl Nat} (hopen : OpenCmd s b 0x1000 n k c) (hop : c.op = .mcast src dst len mask gens recOff answers)
    (hall : ∀ t : Nat, t < 8 → (BitVec.ofNat 8 mask).getLsbD t = true → Tbl.get answers t ≠ none)
    (hpoison : mcastHurt s b k.core src len answers = true) : mcastComplete b n s = addDue s (.rerun b false) := by
  have hrun : rerunnable s b = true := (Bool.and_eq_true_iff.mp (Bool.and_eq_true_iff.mp hpoison).1).1
  unfold mcastComplete
  simp only [liveCmd_of_openCmd hopen, hop, all_decided hall, hpoison, Bool.false_eq_true, if_false, if_true]
  simp only [consumePoison, hrun, if_true]

theorem mcastRecord_eq (n : Nat) (answers : Tbl Nat) : mcastRecord n answers = n % 2 ^ 32 * 2 ^ 32 +
    (answers.map (fun q => if q.2 = 0 ∨ q.2 = 4 then 2 ^ (24 + q.1) else 2 ^ (16 + q.1) + q.2 * 4 ^ q.1)).sum := by
  simp [mcastRecord]

theorem mcastCompletes : McastCompletes := by
  intro b n s k c src dst len mask gens recOff answers hopen hop hall hdone dstAt srcAt recAt hlen _ hclean hsrc hrec
  obtain ⟨u, hmem, hchip, hspad, hstep⟩ := mcastComplete_of_clean hopen hop hall hdone hclean
  obtain ⟨hmem', hchip', hspad'⟩ := completeCmd_stores u b 0x1000 n
  have hkey : ∀ {i}, i < len → i < 2 ^ 20 := fun h => by omega
  have hland : Lands s _ _ := mcastBytes_lands (core := k.core) (src := src) (dst := dst) (qs := mcastAll len answers) s fun q hq r hr => by
    obtain ⟨t, i, ht, hi, rfl⟩ := mem_mcastAll.mp hq
    obtain ⟨t', i', -, hi', rfl⟩ := mem_mcastAll.mp hr
    rw [mcastPlace_key (hkey hi), mcastKey_mod (hkey hi')]
    exact hsrc t i i' ht hi hi'
  have hget : ∀ a, Sparse.get (w := 8) (completeCmd u b 0x1000 n).spad a = if k.core * 2 ^ 19 + recOff ≤ a ∧ a < k.core * 2 ^ 19 + recOff + 8
      then (leBytes 8 (mcastRecord n answers)).getD (a - (k.core * 2 ^ 19 + recOff)) 0
      else Sparse.get (w := 8) (mcastBytes k.core src dst (mcastAll len answers) s).spad a := fun a => by
    rw [hspad', hspad, get_writeBytes, length_leBytes]
  refine ⟨_, (exec_mcastComplete b n s).trans (congrArg _ hstep), completeCmd_noneOpen u b 0x1000 n, hmem'.trans hmem, hchip'.trans hchip,
    fun t i ht hi => ?_, fun i hi => ?_, fun a hdst hrest => ?_⟩
  · rw [hget, if_neg fun h => hrec t i (dstAt t i - (k.core * 2 ^ 19 + recOff)) ht hi (by omega) (by simp only [recAt] at h ⊢; omega)]
    refine hland.get_mem (List.mem_map.mpr ⟨mcastKey t i, mem_mcastAll.mpr ⟨t, i, ht, hi, rfl⟩, ?_⟩) fun w hw he => ?_
    · rw [mcastWrite, mcastPlace_key (hkey hi), mcastKey_mod (hkey hi)]
    · obtain ⟨q, hq, rfl⟩ := List.mem_map.mp hw
      obtain ⟨t', i', -, hi', rfl⟩ := mem_mcastAll.mp hq
      rw [mcastWrite, mcastPlace_key (hkey hi')] at he
      obtain rfl := target_inj hlen hi' hi he
      rw [mcastWrite, mcastKey_mod (hkey hi')]
  · rw [hget, if_pos (by simp only [recAt]; omega), ← mcastRecord_eq,
      show recAt i - (k.core * 2 ^ 19 + recOff) = i from Nat.add_sub_cancel_left .., getD_leBytes 8 _ i hi]
  · rw [hget, if_neg fun h => hrest (a - (k.core * 2 ^ 19 + recOff)) (by omega) (by simp only [recAt] at h ⊢; omega)]
    refine hland.get_other fun w hw => ?_
    obtain ⟨q, hq, rfl⟩ := List.mem_map.mp hw
    obtain ⟨t, i, ht, hi, rfl⟩ := mem_mcastAll.mp hq
    rw [mcastWrite, mcastPlace_key (hkey hi)]
    exact (hdst t i ht hi).symm

/-! ## A run of an array replaced -/

theorem Sparse.get_absent {w : Nat} {p : Nat} : ∀ {m : Sparse w}, (∀ c ∈ m, c.1 ≠ p) → Sparse.get m p = 0
  | [], _ => rfl
  | (a, v) :: r, h => by
    rw [List.forall_mem_cons] at h
    rw [Sparse.get_cons, if_neg h.1]
    exact Sparse.get_absent h.2

theorem Sparse.get_append_right {w : Nat} {p : Nat} {m' : Sparse w} :
    ∀ {m : Sparse w}, (∀ c ∈ m, c.1 ≠ p) → Sparse.get (m ++ m') p = Sparse.get m' p
  | [], _ => rfl
  | (a, v) :: r, h => by
    rw [List.forall_mem_cons] at h
    rw [List.cons_append, Sparse.get_cons, if_neg h.1]
    exact Sparse.get_append_right h.2

theorem Sparse.get_append_left {w : Nat} {p : Nat} {m' : Sparse w} (h : ∀ c ∈ m', c.1 ≠ p) :
    ∀ {m : Sparse w}, Sparse.get (m ++ m') p = Sparse.get m p
  | [] => Sparse.get_absent h
  | (a, v) :: r => by
    rw [List.cons_append, Sparse.get_cons, Sparse.get_cons, Sparse.get_append_left h]

/-- The entries whose keys pass a test. -/
theorem Sparse.get_filter {w : Nat} {f : Nat → Bool} {p : Nat} (hp : f p = true) :
    ∀ m : Sparse w, Sparse.get (m.filter (fun c => f c.1)) p = Sparse.get m p
  | [] => rfl
  | (a, v) :: r => by
    rw [List.filter_cons, Sparse.get_cons, ← Sparse.get_filter hp r]
    split
    · rw [Sparse.get_cons]
    · rw [if_neg]
      rintro rfl
      exact absurd hp ‹_›

/-- The entries of a run, from its place up. -/
theorem Sparse.get_run {w : Nat} (a : Nat) : ∀ (vs : List (BitVec w)) (n j : Nat),
    Sparse.get (((vs.zipIdx n).filter (fun c => c.1 ≠ 0)).map (fun c => (a + c.2, c.1))) (a + n + j) = vs.getD j 0
  | [], n, j => by simp [Sparse.get]
  | v :: r, n, 0 => by
    have hrest : ∀ c ∈ ((r.zipIdx (n + 1)).filter (fun c => c.1 ≠ 0)).map (fun c => (a + c.2, c.1)), c.1 ≠ a + n + 0 := by
      intro c hc
      obtain ⟨q, hq, rfl⟩ := List.mem_map.mp hc
      have := (List.mem_zipIdx (List.mem_of_mem_filter hq)).1
      dsimp only
      omega
    rw [List.zipIdx_cons, List.filter_cons]
    split
    · simp [Sparse.get_cons]
    · rename_i hv
      rw [Sparse.get_absent hrest]
      exact (show v = 0 by simpa using hv).symm
  | v :: r, n, j + 1 => by
    have ih := Sparse.get_run a r (n + 1) j
    rw [show a + (n + 1) + j = a + n + (j + 1) by omega] at ih
    rw [List.zipIdx_cons, List.filter_cons, List.getD_cons_succ, ← ih]
    split
    · rw [List.map_cons, Sparse.get_cons, if_neg (by dsimp only; omega)]
    · rfl

theorem mem_run {w : Nat} {a : Nat} {vs : List (BitVec w)} {c : Nat × BitVec w}
    (h : c ∈ (vs.zipIdx.filter (fun c => c.1 ≠ 0)).map (fun c => (a + c.2, c.1))) : a ≤ c.1 ∧ c.1 < a + vs.length := by
  obtain ⟨q, hq, rfl⟩ := List.mem_map.mp h
  have := List.snd_lt_of_mem_zipIdx (List.mem_of_mem_filter hq)
  dsimp only
  omega

/-- What an array holds once a run of it is replaced. -/
theorem Sparse.get_setRun {w : Nat} (m : Sparse w) (a : Nat) (vs : List (BitVec w)) (p : Nat) :
    Sparse.get (Sparse.setRun m a vs) p = if a ≤ p ∧ p < a + vs.length then vs.getD (p - a) 0 else Sparse.get m p := by
  have hbelow : ∀ c ∈ m.filter (fun c => c.1 < a), c.1 < a := fun c hc => by simpa using (List.mem_filter.mp hc).2
  have habove : ∀ c ∈ m.filter (fun c => a + vs.length ≤ c.1), a + vs.length ≤ c.1 := fun c hc => by simpa using (List.mem_filter.mp hc).2
  unfold Sparse.setRun
  split
  · rw [Sparse.get_append_left fun c hc => by have := habove c hc; omega,
      Sparse.get_append_right fun c hc => by have := hbelow c hc; omega, show p = a + 0 + (p - a) by omega, Sparse.get_run]
    congr 1
    omega
  · by_cases hp : p < a
    · rw [Sparse.get_append_left fun c hc => by have := habove c hc; omega,
        Sparse.get_append_left fun c hc => by have := mem_run hc; omega, Sparse.get_filter (f := fun q => q < a) (by simpa using hp)]
    · rw [Sparse.get_append_right, Sparse.get_filter (f := fun q => a + vs.length ≤ q) (by simp only [decide_eq_true_eq]; omega)]
      intro c hc
      rcases List.mem_append.mp hc with hc | hc
      · have := hbelow c hc
        omega
      · have := mem_run hc
        omega

/-- An element of lists of one length put in a row. -/
theorem getElem?_flatMap {α β : Type} {w : Nat} {f : α → List β} (hf : ∀ x, (f x).length = w) {j : Nat} (hj : j < w) :
    ∀ (l : List α) (i : Nat), (l.flatMap f)[w * i + j]? = l[i]?.bind (fun x => (f x)[j]?)
  | [], i => by simp
  | x :: r, 0 => by
    rw [List.flatMap_cons, List.getElem?_append_left (by rw [hf]; omega)]
    simp
  | x :: r, i + 1 => by
    rw [List.flatMap_cons, List.getElem?_append_right (by rw [hf, Nat.mul_succ]; omega), hf,
      show w * (i + 1) + j - w = w * i + j by rw [Nat.mul_succ]; omega, getElem?_flatMap hf hj r i, List.getElem?_cons_succ]

theorem length_flatMap_const {α β : Type} {w : Nat} {f : α → List β} (hf : ∀ x, (f x).length = w) (l : List α) :
    (l.flatMap f).length = w * l.length := by
  rw [List.length_flatMap, List.map_congr_left fun x _ => hf x, List.map_const', List.sum_replicate, smul_eq_mul, Nat.mul_comm]

/-! ## MMA (05 R137) -/

/-- A row of the words of C after the product. -/
def tileResultRow (s : State) (core base minor : Nat) (zero : Bool) (words scales : List Word) (bOff sOff m : Nat) : List Word :=
  ((List.range 128).map (tileCol s core minor bOff sOff)).zipIdx.map
    (fun c => dotRow (if zero then 0 else Sparse.get s.acc (base + 128 * m + c.2)) (tileRow minor words scales m) c.1)

theorem tileResult_eq (s : State) (core base minor : Nat) (zero : Bool) (words scales : List Word) (bOff sOff : Nat) :
    tileResult s core base minor zero words scales bOff sOff =
      (List.range 128).flatMap (tileResultRow s core base minor zero words scales bOff sOff) := rfl

theorem length_tileResultRow (s : State) (core base minor : Nat) (zero : Bool) (words scales : List Word) (bOff sOff m : Nat) :
    (tileResultRow s core base minor zero words scales bOff sOff m).length = 128 := by
  simp [tileResultRow]

theorem length_tileResult (s : State) (core base minor : Nat) (zero : Bool) (words scales : List Word) (bOff sOff : Nat) :
    (tileResult s core base minor zero words scales bOff sOff).length = 128 * 128 := by
  rw [tileResult_eq, length_flatMap_const (length_tileResultRow _ _ _ _ _ _ _ _ _), List.length_range]

/-- The word of a row and a column. -/
theorem getD_tileResult (s : State) (core base minor : Nat) (zero : Bool) (words scales : List Word) (bOff sOff : Nat) {m q : Nat}
    (hm : m < 128) (hq : q < 128) : (tileResult s core base minor zero words scales bOff sOff).getD (128 * m + q) 0 =
      dotRow (if zero then 0 else Sparse.get s.acc (base + 128 * m + q)) (tileRow minor words scales m) (tileCol s core minor bOff sOff q) := by
  rw [List.getD_eq_getElem?_getD, tileResult_eq, getElem?_flatMap (length_tileResultRow _ _ _ _ _ _ _ _ _) hq,
    List.getElem?_range hm, Option.bind_some]
  simp [tileResultRow, hq]

/-- No MMA numbered below names the handle, of those still open. -/
theorem mmaPending_below {k : Block} {n : Nat} {handle : Word}
    (h : ∀ q ∈ k.cmds, q.tl = 0x1001 → q.num < n → q.finished = false → ∀ mi bo z w sc bo' so, q.op ≠ .mma mi handle bo z w sc bo' so) :
    mmaPending { k with cmds := k.cmds.filter (fun q => q.tl = 0x1001 && q.num < n) } handle = false := by
  refine List.any_eq_false.mpr fun q hq hpending => ?_
  obtain ⟨hq, hmine⟩ := List.mem_filter.mp hq
  obtain ⟨htl, hnum⟩ : q.tl = 0x1001 ∧ q.num < n := by simpa using hmine
  obtain ⟨hopen, hnames⟩ := Bool.and_eq_true_iff.mp hpending
  split at hnames
  · rename_i mi w bo z ws sc bo' so hop
    obtain rfl : w = handle := by simpa using hnames
    exact h q hq htl hnum (by simpa using hopen) _ _ _ _ _ _ _ hop
  · cases hnames

section

variable {b n : Nat} {s : State} {k : Block} {c : EngCmd} {minor : Nat} {handle : Word} {boff : Nat} {zero : Bool} {words scales : List Word}
  {bOff sOff : Nat} {h : Handle}

/-- An MMA whose turn it is and none of whose operands is poisoned puts its tile in place and completes. -/
theorem mmaComplete_of_clean (hopen : OpenCmd s b 0x1001 n k c) (hop : c.op = .mma minor handle boff zero words scales bOff sOff)
    (hturn : mmaPending { k with cmds := k.cmds.filter (fun q => q.tl = 0x1001 && q.num < n) } handle = false)
    (hlive : liveHandle k handle = some h)
    (hclean : rerunnable s b = true → mmaPoisoned s k.core (bankWord k.core (h.first + boff)) minor zero bOff sOff = false) :
    mmaComplete b n s = completeCmd { s with
      acc := Sparse.setRun s.acc (bankWord k.core (h.first + boff))
        (tileResult s k.core (bankWord k.core (h.first + boff)) minor zero words scales bOff sOff),
      accPoison := healBytes s.accPoison (fun q => bankWord k.core (h.first + boff) ≤ q && q < bankWord k.core (h.first + boff) + 16384) }
      b 0x1001 n := by
  have hno : (rerunnable s b && mmaPoisoned s k.core (bankWord k.core (h.first + boff)) minor zero bOff sOff) = false := by
    simpa [Bool.and_eq_false_imp] using hclean
  unfold mmaComplete
  simp only [liveCmd_of_openCmd hopen, hop, hturn, hlive, hno]
  rfl

/-- An MMA that would read poison, in a unit that can be rerun. -/
theorem mmaComplete_of_poisoned (hopen : OpenCmd s b 0x1001 n k c) (hop : c.op = .mma minor handle boff zero words scales bOff sOff)
    (hturn : mmaPending { k with cmds := k.cmds.filter (fun q => q.tl = 0x1001 && q.num < n) } handle = false)
    (hlive : liveHandle k handle = some h) (hrun : rerunnable s b = true)
    (hpoison : mmaPoisoned s k.core (bankWord k.core (h.first + boff)) minor zero bOff sOff = true) :
    mmaComplete b n s = addDue s (.rerun b false) := by
  unfold mmaComplete
  simp only [liveCmd_of_openCmd hopen, hop, hturn, hlive, hrun, hpoison, Bool.false_eq_true, if_false, Bool.and_self, if_true]
  simp only [consumePoison, hrun, if_true]

end

theorem exec_mmaComplete (b n : Nat) (s : State) : exec (.mmaComplete b n) s = .next (mmaComplete b n s) := rfl

theorem mem_healBytes {ps : List Nat} {f : Nat → Bool} {a : Nat} : a ∈ healBytes ps f ↔ a ∈ ps ∧ f a = false := by
  simp [healBytes]

theorem mmaCompletes : MmaCompletes := by
  intro b n s k c minor handle boff zero words scales bOff sOff h hopen hop hturn hlive base hclean
  obtain ⟨hk, hc, -⟩ := id hopen
  have hend := mmaComplete_of_clean hopen hop (mmaPending_below hturn) hlive hclean
  have hget := Sparse.get_setRun s.acc base (tileResult s k.core base minor zero words scales bOff sOff)
  rw [length_tileResult] at hget
  generalize htile : tileResult s k.core base minor zero words scales bOff sOff = tile at hget
  rw [htile] at hend
  set s2 : State := { s with acc := Sparse.setRun s.acc base tile, accPoison := healBytes s.accPoison (fun q => base ≤ q && q < base + 16384) }
  have hk2 : Tbl.get s2.blocks b = some k := hk
  have hpay : payCopy s2 b 0x1001 n = s2 := payCopy_eq_self hk2 hc (by simp [hop])
  have hdone := completeCmd_cmdDone (s := s2) (b := b) (sel := 0x1001) (n := n) (by rw [hpay]; exact hk2)
  rw [hpay] at hdone
  refine ⟨s2, _, (exec_mmaComplete b n s).trans (congrArg _ hend), hdone, rfl, fun a => ?_, fun m q hm hq => ?_, fun a ha => ?_⟩
  · rw [mem_healBytes]
    simp only [Bool.and_eq_false_iff, decide_eq_false_iff_not, not_le, not_lt]
  · rw [hget, if_pos (by omega), show base + 128 * m + q - base = 128 * m + q by omega, ← htile, getD_tileResult _ _ _ _ _ _ _ _ _ hm hq]
  · rw [hget, if_neg (by omega)]

/-! ## What an MVX's reads leave of residency (05 R145) -/

/-- The two states differ at most in which sectors HBM holds and which lines L2 holds. -/
def OnlyResidency (s t : State) : Prop := t = { s with hbm := t.hbm, l2 := t.l2 }

theorem OnlyResidency.refl (s : State) : OnlyResidency s s := rfl

theorem OnlyResidency.trans {s t u : State} (h : OnlyResidency s t) (g : OnlyResidency t u) : OnlyResidency s u := by
  rw [show t = _ from h] at g
  exact g

theorem OnlyCaches.onlyResidency {s t : State} (h : OnlyCaches s t) (htlb : t.tlb = s.tlb) : OnlyResidency s t := by
  rw [show t = _ from h, htlb]
  rfl

theorem hbmFill_tlb (s : State) (pa : Nat) (d : Bool) : (hbmFill s pa d).tlb = s.tlb := by
  unfold hbmFill
  split
  · rfl
  · split
    · rfl
    · split <;> rfl

theorem l2Evict_tlb (s : State) (line : Nat) : (l2Evict s line).tlb = s.tlb := by
  unfold l2Evict
  dsimp only
  split
  · exact hbmFill_tlb ..
  · rfl

theorem l2Touch_tlb (s : State) (line : Nat) (d : Bool) : (l2Touch s line d).tlb = s.tlb := by
  unfold l2Touch l2Room
  dsimp only
  split
  · rfl
  · exact l2Evict_tlb ..

/-- A line of the capacity tier read changes residency alone. -/
theorem touch_cap_residency (s : State) (pa : Nat) : OnlyResidency s (touch s (.cap pa) false) := by
  refine (touch_caches s (.cap pa) false).onlyResidency ?_
  unfold touch
  dsimp only [l2Line]
  rw [Bool.false_and, if_neg Bool.false_ne_true]
  split
  · exact hbmFill_tlb ..
  · exact (l2Touch_tlb ..).trans (hbmFill_tlb ..)

theorem foldl_residency {α : Type} {f : State → α → State} (hf : ∀ s x, OnlyResidency s (f s x)) :
    ∀ (l : List α) (s : State), OnlyResidency s (l.foldl f s)
  | [], s => .refl s
  | x :: r, s => (hf s x).trans (foldl_residency hf r (f s x))

theorem notePiece_residency (x : Nat) (stack : Bool) (s : State) (q : Nat × Nat) : OnlyResidency s (notePiece x stack s q) := by
  unfold notePiece
  split
  · exact .refl s
  · split
    · exact (hbmFill_caches ..).onlyResidency (hbmFill_tlb ..)
    · exact foldl_residency (fun _ _ => touch_cap_residency ..) ..

/-! ## MVX (05 R142, R143) -/

/-- y_0, then y_1, up to y_(V-1), of their rows. -/
theorem mvxResultWords_eq (s : State) (b x minor : Nat) (y z : Layout) (xs : List (List Word)) (scs : List (List Byte)) :
    mvxResultWords s b x minor y z xs scs = (List.zip xs scs).flatMap (fun q =>
      ((List.range (y.dim 1)).map (mvxRow s b x minor y z)).map (fun r => dotRow 0 r (mvxCol minor q.1 q.2))) := rfl

theorem OnlyResidency.mvxResultWords {s t : State} (h : OnlyResidency s t) (b x minor : Nat) (y z : Layout) (xs : List (List Word))
    (scs : List (List Byte)) : mvxResultWords t b x minor y z xs scs = Machine.mvxResultWords s b x minor y z xs scs := by
  rw [show t = _ from h]
  rfl

theorem length_mvxResultWords {s : State} {b x minor : Nat} {y z : Layout} {xs : List (List Word)} {scs : List (List Byte)}
    (hlen : xs.length = scs.length) : (mvxResultWords s b x minor y z xs scs).length = xs.length * y.dim 1 := by
  rw [mvxResultWords_eq, length_flatMap_const (w := y.dim 1) (fun _ => by simp), List.length_zip, ← hlen, Nat.min_self, Nat.mul_comm]

theorem getElem?_mvxResultWords {s : State} {b x minor : Nat} {y z : Layout} {xs : List (List Word)} {scs : List (List Byte)}
    (hlen : xs.length = scs.length) {j i : Nat} (hj : j < xs.length) (hi : i < y.dim 1) :
    (mvxResultWords s b x minor y z xs scs)[j * y.dim 1 + i]? =
      some (dotRow 0 (mvxRow s b x minor y z i) (mvxCol minor (xs.getD j []) (scs.getD j []))) := by
  have hpair : (List.zip xs scs)[j]? = some (xs.getD j [], scs.getD j []) := by
    have hj' : j < scs.length := hlen ▸ hj
    rw [List.getElem?_eq_getElem (by simpa using ⟨hj, hj'⟩), List.getElem_zip]
    simp [List.getD_eq_getElem?_getD, hj, hj']
  rw [mvxResultWords_eq, Nat.mul_comm, getElem?_flatMap (w := y.dim 1) (fun _ => by simp) hi, hpair, Option.bind_some]
  simp [hi]

/-- A byte of words put in a row. -/
theorem getD_wordBytes (ws : List Word) {i q : Nat} (hq : q < 4) {v : Word} (hv : ws[i]? = some v) :
    (ws.flatMap (fun w => leBytes 4 w.toNat)).getD (4 * i + q) 0 = BitVec.ofNat 8 (v.toNat / 256 ^ q) := by
  rw [List.getD_eq_getElem?_getD, getElem?_flatMap (fun _ => length_leBytes ..) hq, hv, Option.bind_some, ← List.getD_eq_getElem?_getD,
    getD_leBytes 4 _ q hq]

/-- A team whose stream of a command has its results. -/
def streamFilled (n : Nat) (ws : List Word) (m : Team) : Team :=
  { m with q1 := m.q1.map (fun q => if q.num = n then { q with elems := ws, toCome := 0 } else q) }

theorem q1_streamFilled {n : Nat} {ws : List Word} {m : Team} : ∀ q ∈ (streamFilled n ws m).q1, q.num = n → q.toCome = 0 ∧ q.elems = ws := by
  intro q hq hnum
  obtain ⟨p, -, rfl⟩ := List.mem_map.mp hq
  by_cases hp : p.num = n
  · rw [if_pos hp]
    exact ⟨rfl, rfl⟩
  · rw [if_neg hp] at hnum
    exact absurd hnum hp

/-- Results enter a stream of the issuing team: every entry of the command's number is whole. -/
theorem deliverMvx_stream {s : State} {b : Nat} {k : Block} (hk : Tbl.get s.blocks b = some k) (c : EngCmd) (core : Nat) (ws : List Word) :
    OnlyBlocks s (deliverMvx s b c core none ws) ∧
    ∃ k', Tbl.get (deliverMvx s b c core none ws).blocks b = some k' ∧ k' = { k with teams := k'.teams } ∧
      ∀ m, Tbl.get k.teams c.team = some m → ∃ m', Tbl.get k'.teams c.team = some m' ∧ m'.regs = m.regs ∧ m'.splits = m.splits ∧
        ∀ q ∈ m'.q1, q.num = c.num → q.toCome = 0 ∧ q.elems = ws := by
  refine ⟨(onTeam_only hk _).1.1, mapTeam k c.team (streamFilled c.num ws), ?_, mapTeam_eq ..,
    fun m hm => ⟨streamFilled c.num ws m, ?_, rfl, rfl, q1_streamFilled⟩⟩
  · unfold deliverMvx onTeam
    rw [hk]
    exact Tbl.get_put_same ..
  · rw [teams_mapTeam, if_pos rfl, hm]
    rfl

/-- Results enter the scratchpad of a front program, 4 bytes a word. -/
theorem deliverMvx_front (s : State) (b : Nat) (c : EngCmd) (core off : Nat) (ws : List Word) :
    OnlyScratch s (deliverMvx s b c core (some off) ws) ∧
    (∀ i q v, ws[i]? = some v → q < 4 →
      Sparse.get (w := 8) (deliverMvx s b c core (some off) ws).spad (core * 2 ^ 19 + off + 4 * i + q) = BitVec.ofNat 8 (v.toNat / 256 ^ q)) ∧
    ∀ a, (a < core * 2 ^ 19 + off ∨ core * 2 ^ 19 + off + 4 * ws.length ≤ a) →
      Sparse.get (w := 8) (deliverMvx s b c core (some off) ws).spad a = Sparse.get (w := 8) s.spad a := by
  have hget : ∀ a, Sparse.get (w := 8) (deliverMvx s b c core (some off) ws).spad a =
      if core * 2 ^ 19 + off ≤ a ∧ a < core * 2 ^ 19 + off + 4 * ws.length
      then (ws.flatMap (fun w => leBytes 4 w.toNat)).getD (a - (core * 2 ^ 19 + off)) 0 else Sparse.get (w := 8) s.spad a := fun a => by
    have hlen : (ws.flatMap (fun w => leBytes 4 w.toNat)).length = 4 * ws.length := length_flatMap_const (fun _ => length_leBytes ..) ws
    rw [← hlen]
    exact get_writeBytes ..
  refine ⟨putSpad_onlyScratch .., fun i q v hv hq => ?_, fun a ha => ?_⟩
  · have hi := (List.getElem?_eq_some_iff.mp hv).1
    rw [hget, if_pos (by omega), show core * 2 ^ 19 + off + 4 * i + q - (core * 2 ^ 19 + off) = 4 * i + q by omega, getD_wordBytes ws hq hv]
  · rw [hget, if_neg (by omega)]

theorem exec_mvxResult (b n : Nat) (s : State) : exec (.mvxResult b n) s = .next (mvxResult b n s) := rfl

/-- An MVX all of whose reads can be made, and none of which meets poison, delivers its results and completes. -/
theorem mvxResult_of_clean {b n : Nat} {s : State} {k : Block} {c : EngCmd} {minor : Nat} {y z : Layout} {xs : List (List Word)}
    {scs : List (List Byte)} {yOff : Option Nat} {rows : Option (List Nat)} (hopen : OpenCmd s b 0x1002 n k c)
    (hop : c.op = .mvx minor y z xs scs yOff rows)
    (hreads : ∀ q ∈ mvxPieces minor y z, (∃ p, reachTarget s (ctxNum s b) c.failed needR (globalTarget s (ctxNum s b) q.1 true) = .go p) ∧
      (rerunnable s b = true → piecePoisoned s b (ctxNum s b) q = false)) :
    ∃ s1, OnlyResidency s s1 ∧ mvxResult b n s = completeCmd
      (deliverMvx s1 b c k.core yOff (mvxResultWords s b (ctxNum s b) minor y z xs scs)) b 0x1002 n := by
  have hprobe : mvxProbe s (ctxNum s b) c (mvxPieces minor y z) = CopyRun.start s := by
    refine probeAll_of_reached fun a ha => ?_
    obtain ⟨q, hq, rfl⟩ := List.mem_map.mp ha
    exact (hreads q hq).1
  have hno : (rerunnable s b && (mvxPieces minor y z).any (piecePoisoned s b (ctxNum s b))) = false := by
    simp only [Bool.and_eq_false_imp, List.any_eq_false, Bool.not_eq_true]
    exact fun hr q hq => (hreads q hq).2 hr
  have hres := foldl_residency (notePiece_residency (ctxNum s b) rows.isSome) (mvxPieces minor y z) s
  refine ⟨_, hres, ?_⟩
  rw [← hres.mvxResultWords]
  unfold mvxResult
  simp only [liveCmd_of_openCmd hopen, hop, hprobe]
  rw [if_neg (by simp [CopyRun.start]), if_neg (by rw [show (CopyRun.start s).s = s from rfl, hno]; decide)]
  rfl

theorem mvxCompletes : MvxCompletes := by
  intro b n s k c minor y z xs scs yOff rows hopen hop hlen hreads result
  obtain ⟨hk, hc, -⟩ := id hopen
  obtain ⟨-, -, hnum⟩ := find_cmd hc
  obtain ⟨s1, hres, hend⟩ := mvxResult_of_clean hopen hop hreads
  have hframe : s1 = _ := hres
  have hk1 : Tbl.get s1.blocks b = some k := by rw [hframe]; exact hk
  have hword : ∀ {j i}, j < xs.length → i < y.dim 1 →
      (mvxResultWords s b (ctxNum s b) minor y z xs scs)[j * y.dim 1 + i]? = some (result j i) :=
    fun hj hi => getElem?_mvxResultWords hlen hj hi
  have hcount : (mvxResultWords s b (ctxNum s b) minor y z xs scs).length = xs.length * y.dim 1 := length_mvxResultWords hlen
  generalize mvxResultWords s b (ctxNum s b) minor y z xs scs = ws at hend hword hcount
  have hdone : ∀ {s2 k2}, Tbl.get s2.blocks b = some k2 → k2 = { k with teams := k2.teams } →
      CmdDone b 0x1002 n s2 (completeCmd s2 b 0x1002 n) := by
    intro s2 k2 hk2 he2
    have hpay : payCopy s2 b 0x1002 n = s2 := payCopy_eq_self hk2 (c := c) (by rw [he2]; exact hc) (by simp [hop])
    have hdone := completeCmd_cmdDone (s := s2) (b := b) (sel := 0x1002) (n := n) (by rw [hpay]; exact hk2)
    rwa [hpay] at hdone
  cases yOff with
  | none =>
    obtain ⟨honly, k2, hk2, he2, hteam⟩ := deliverMvx_stream hk1 c k.core ws
    have hs2 : deliverMvx s1 b c k.core none ws = _ := honly
    refine ⟨_, _, (exec_mvxResult b n s).trans (congrArg _ hend), hdone hk2 he2, ?_, fun _ => ⟨?_, fun m hm => ?_⟩,
      fun off hoff => absurd hoff (by simp)⟩
    · rw [hs2, hframe]
    · rw [hs2, hframe]
    · obtain ⟨m', hm', hregs, hsplits, hq1⟩ := hteam m hm
      refine ⟨k2, m', hk2, hm', hregs, hsplits, fun q hq hqn => ?_⟩
      obtain ⟨htocome, helems⟩ := hq1 q hq (hqn.trans hnum.symm)
      exact ⟨htocome, fun j i hj hi => by rw [helems, hword hj hi]⟩
  | some off =>
    obtain ⟨honly, hbytes, hrest⟩ := deliverMvx_front s1 b c k.core off ws
    have hs2 : deliverMvx s1 b c k.core (some off) ws = _ := honly
    refine ⟨_, _, (exec_mvxResult b n s).trans (congrArg _ hend), hdone (k2 := k) (by rw [hs2]; exact hk1) rfl, ?_,
      fun h => absurd h (by simp), fun off' hoff => ?_⟩
    · rw [hs2, hframe]
      rfl
    · cases hoff
      refine ⟨by rw [hs2, hframe], fun j i q hj hi hq => hbytes _ q _ (hword hj hi) hq, fun a ha => ?_⟩
      rw [hrest a (by rwa [hcount]), hframe]

/-! ## A free that takes effect (14 R319) -/

theorem openHeld_iff {p : Split} {h : Held} : openHeld p = some h ↔ HasOpen p h := by
  refine ⟨openHeld_hasOpen, fun ⟨hpend, hst, hheld⟩ => ?_⟩
  unfold openHeld
  rw [if_neg (by simp [hpend, hst]), hheld]

theorem opensCopy_iff {at_ : Nat} {p : Split} : opensCopy at_ p = true ↔ CopyWaits at_ p := by
  simp only [opensCopy, CopyWaits, Option.any_eq_true, openHeld_iff, Bool.and_eq_true, Bool.not_eq_true', decide_eq_true_eq]
  constructor
  · rintro ⟨h, hopen, ⟨hfetch, hborn⟩, w, hcode, hlow, hop⟩
    refine ⟨h, w, hopen, hfetch, hborn, hcode, ?_, hop⟩
    simpa [bitsOf] using hlow
  · rintro ⟨h, w, hopen, hfetch, hborn, hcode, hlow, hop⟩
    exact ⟨h, hopen, ⟨hfetch, hborn⟩, w, hcode, by simpa [bitsOf] using hlow, hop⟩

/-- A team that a free does not wait for. -/
theorem copiesBefore_eq_false {at_ : Nat} {m : Team} : copiesBefore at_ m = false ↔ (∀ c ∈ m.copies, at_ < c.born) ∧
    (∀ e p, (e, p) ∈ m.splits → ¬ CopyWaits at_ p) ∧ ∀ p ∈ m.defer, ¬ CopyWaits at_ p := by
  simp only [copiesBefore, Bool.or_eq_false_iff, List.any_eq_false, opensCopy_iff, decide_eq_true_eq, not_le, Prod.forall]
  tauto

/-- What a free waits for (14 R319). -/
theorem freeReady_iff {k : Block} {a : Alloc} : freeReady k a = true ↔ a.busy = true ∧ a.mcast = 0 ∧
    (∀ q ∈ a.waitCmds, ∀ c ∈ k.cmds, c.tl = q.1 → c.num = q.2 → c.finished = true) ∧
    (∀ q ∈ a.waitCopies, ∀ u m, (u, m) ∈ k.teams → ∀ c ∈ m.copies, c.id ≠ q) ∧
    ∀ u m, (u, m) ∈ k.teams → (∀ c ∈ m.copies, a.freedAt < c.born) ∧ (∀ e p, (e, p) ∈ m.splits → ¬ CopyWaits a.freedAt p) ∧
      ∀ p ∈ m.defer, ¬ CopyWaits a.freedAt p := by
  have hcmds : (a.waitCmds.all (fun q => !k.cmds.any (fun c => c.tl = q.1 && c.num = q.2 && !c.finished))) = true ↔
      ∀ q ∈ a.waitCmds, ∀ c ∈ k.cmds, c.tl = q.1 → c.num = q.2 → c.finished = true := by
    simp
  have hcopies : (a.waitCopies.all (fun q => !k.teams.any (fun c => c.2.copies.any (fun p => p.id = q)))) = true ↔
      ∀ q ∈ a.waitCopies, ∀ u m, (u, m) ∈ k.teams → ∀ c ∈ m.copies, c.id ≠ q := by
    simp
  have hteams : (k.teams.all (fun c => !copiesBefore a.freedAt c.2)) = true ↔ ∀ u m, (u, m) ∈ k.teams → copiesBefore a.freedAt m = false := by
    simp
  simp only [freeReady, Bool.and_eq_true, decide_eq_true_eq, hcmds, hcopies, hteams, copiesBefore_eq_false, and_assoc]

theorem exec_spfreeTakesEffect (b gen : Nat) (s : State) : exec (.spfreeTakesEffect b gen) s = .next (spfreeTakesEffect b gen s) := rfl

theorem spfreeCompletes : SpfreeCompletes := by
  intro b gen s k hk
  refine ⟨_, { k with allocs := k.allocs.filter (fun a => !(a.gen = gen && freeReady k a)) },
    exec_spfreeTakesEffect b gen s, onBlock_only .., ?_, rfl, fun a => ?_⟩
  · unfold spfreeTakesEffect onBlock
    rw [hk]
    exact Tbl.get_put_same ..
  · rw [List.mem_filter, Bool.not_eq_true', Bool.and_eq_false_imp, decide_eq_true_eq, ← freeReady_iff, not_and, Bool.not_eq_true]

/-! ## A run that faults (04 R109) -/

/-- What a fault of a command's global side is: XLATE or ACCESS. -/
def FaultCodes (r : CopyRun) : Prop := ∀ q, r.bad = some q → q.1 = 0x07 ∨ q.1 = 0x08

/-- A fault met after others is not the run's. -/
theorem FaultCodes.noted {r : CopyRun} (h : FaultCodes r) {code a : Nat} (hcode : code = 0x07 ∨ code = 0x08) :
    FaultCodes (if r.bad.isSome then r else { r with bad := some (code, a) }) := by
  split
  · exact h
  · rintro q hq
    obtain rfl := Option.some_inj.mp hq
    exact hcode

theorem copyStep_faultCodes (j : CopyJob) (failed : List Nat) {r : CopyRun} (k : Nat) (h : FaultCodes r) : FaultCodes (copyStep j failed r k) := by
  unfold copyStep
  dsimp only
  split
  · split <;> exact h
  · split
    · split
      · exact h
      · split <;> exact h
    · exact h
    · exact h.noted (.inr rfl)
    · exact h.noted (.inl rfl)

theorem copySteps_faultCodes (j : CopyJob) (failed : List Nat) : ∀ (ks : List Nat) {r : CopyRun}, FaultCodes r →
    FaultCodes (copySteps j failed r ks)
  | [], _, h => h
  | k :: ks, _, h => copySteps_faultCodes j failed ks (copyStep_faultCodes j failed k h)

/-- A run that tries addresses moves nothing, so it meets no poison and no want of room. -/
theorem probeAll_tries (x : Nat) (failed : List Nat) (need : Need) : ∀ (as : List Nat) {r : CopyRun}, FaultCodes r →
    FaultCodes (probeAll x failed need r as) ∧ (probeAll x failed need r as).hurt = r.hurt ∧ (probeAll x failed need r as).stall = r.stall
  | [], _, h => ⟨h, rfl, rfl⟩
  | a :: as, r, h => by
    unfold probeAll
    dsimp only
    split
    · exact probeAll_tries x failed need as h
    · exact probeAll_tries x failed need as h
    · obtain ⟨hcodes, hhurt, hstall⟩ := probeAll_tries x failed need as (h.noted (a := a) (.inr rfl))
      refine ⟨hcodes, hhurt.trans ?_, hstall.trans ?_⟩ <;> split <;> rfl
    · obtain ⟨hcodes, hhurt, hstall⟩ := probeAll_tries x failed need as (h.noted (a := a) (.inl rfl))
      refine ⟨hcodes, hhurt.trans ?_, hstall.trans ?_⟩ <;> split <;> rfl

/-- A run that ends at a fault. -/
def RanToFault (b : Nat) (s : State) (r : CopyRun) (code a : Nat) : Prop :=
  RunKeeps b s r.s ∧ r.waits = [] ∧ r.stall = false ∧ r.hurt = false ∧ r.bad = some (code, a) ∧ (code = 0x07 ∨ code = 0x08)

theorem endRun_of_fault {b sel n : Nat} {s : State} {r : CopyRun} {code a : Nat} (h : RanToFault b s r code a) (u : State) :
    endRun b sel n r u = engineFault u b sel n code a := by
  obtain ⟨-, hwaits, hstall, hhurt, hbad, -⟩ := h
  simp [endRun, hhurt, hwaits, hstall, hbad]

theorem RanToFault.of_tries {b : Nat} {s : State} {x : Nat} {failed : List Nat} {need : Need} {as : List Nat}
    (hwaits : (probeAll x failed need (CopyRun.start s) as).waits = []) (hbad : (probeAll x failed need (CopyRun.start s) as).bad.isSome = true) :
    ∃ code a, RanToFault b s (probeAll x failed need (CopyRun.start s) as) code a := by
  have hkeeps := probeAll_runKeeps x failed need b as (CopyRun.start s)
  obtain ⟨hcodes, hhurt, hstall⟩ := probeAll_tries x failed need as (r := CopyRun.start s) (fun q hq => by cases hq)
  obtain ⟨⟨code, a⟩, hq⟩ := Option.isSome_iff_exists.mp hbad
  exact ⟨code, a, hkeeps, hwaits, hstall, hhurt, hq, hcodes _ hq⟩

/-- A copy command that would fault runs up to the fault. -/
theorem copyCommandComplete_of_fault {b n : Nat} {s : State} {k : Block} {c : EngCmd} (hopen : OpenCmd s b 0x1000 n k c) {store se : Bool}
    {y : Layout} {cs : List Int} {off : Nat} {ver : DWord} {verAddr : Nat} (hop : c.op = .tcopy store se y cs off ver verAddr)
    (hfaults : commandFaults b 0x1000 n s = true) : ∃ r lines code a, RanToFault b s r code a ∧
      copyCommandComplete b n s = engineFault (noteRun b 0x1000 n r lines r.s) b 0x1000 n code a := by
  obtain ⟨-, hc, -⟩ := id hopen
  obtain ⟨-, htl, hnum⟩ := find_cmd hc
  have hjob : copyJob s b k c store y cs off = jobOf s b k c store y cs off := rfl
  unfold commandFaults at hfaults
  simp only [liveCmd_of_openCmd hopen, hop, hjob] at hfaults
  rw [copyCommandComplete_of_open hopen hop]
  unfold runTcopy
  simp only [htl, hnum]
  cases se with
  | true =>
    simp only [if_true, Bool.and_eq_true, decide_eq_true_eq] at hfaults ⊢
    obtain ⟨⟨⟨hwaits, -⟩, -⟩, hbad⟩ := hfaults
    obtain ⟨code, a, hran⟩ := RanToFault.of_tries (b := b) hwaits hbad
    refine ⟨_, [], code, a, hran, ?_⟩
    rw [← endRun_of_fault (sel := 0x1000) (n := n) hran]
    exact if_pos (Bool.or_eq_true_iff.mpr (.inr hbad))
  | false =>
    simp only [Bool.false_eq_true, if_false, Bool.and_eq_true, decide_eq_true_eq, Bool.not_eq_true'] at hfaults ⊢
    obtain ⟨⟨⟨hwaits, hstall⟩, hhurt⟩, hbad⟩ := hfaults
    obtain ⟨⟨code, a⟩, hq⟩ := Option.isSome_iff_exists.mp hbad
    have hcodes := copySteps_faultCodes (jobOf s b k c store y cs off) c.failed
      ((List.range y.bytes).filter (fun q => !c.doneElems.contains q)) (r := CopyRun.start s) (fun q hq => by cases hq)
    have hkeeps := copySteps_runKeeps (jobOf s b k c store y cs off) c.failed
      ((List.range y.bytes).filter (fun q => !c.doneElems.contains q)) (CopyRun.start s)
    have hran : RanToFault b s _ code a := ⟨hkeeps, hwaits, hstall, hhurt, hq, hcodes _ hq⟩
    exact ⟨_, _, code, a, hran, endRun_of_fault hran _⟩

/-- An MVX that would fault does so with nothing delivered. -/
theorem mvxResult_of_fault {b n : Nat} {s : State} {k : Block} {c : EngCmd} (hopen : OpenCmd s b 0x1002 n k c) {minor : Nat} {y z : Layout}
    {xs : List (List Word)} {scs : List (List Byte)} {yOff : Option Nat} {rows : Option (List Nat)}
    (hop : c.op = .mvx minor y z xs scs yOff rows) (hfaults : commandFaults b 0x1002 n s = true) : ∃ r lines code a, RanToFault b s r code a ∧
      mvxResult b n s = engineFault (noteRun b 0x1002 n r lines r.s) b 0x1002 n code a := by
  unfold commandFaults at hfaults
  simp only [liveCmd_of_openCmd hopen, hop, Bool.and_eq_true, decide_eq_true_eq] at hfaults
  obtain ⟨hwaits, hbad⟩ := hfaults
  obtain ⟨code, a, hran⟩ := RanToFault.of_tries (b := b) hwaits hbad
  refine ⟨_, [], code, a, hran, ?_⟩
  rw [← endRun_of_fault (sel := 0x1002) (n := n) hran]
  unfold mvxResult
  simp only [liveCmd_of_openCmd hopen, hop]
  exact if_pos (Bool.or_eq_true_iff.mpr (.inr hbad))

/-! ## A fault delivered (04 R109, 15 R331) -/

/-- A live team that is no front program takes the fault: its launch has a handler. -/
def Served (s : State) (k : Block) (t : Nat) : Prop :=
  t < 16 ∧ (∃ m, Tbl.get k.teams t = some m ∧ m.st ≠ .ended) ∧ ∃ l, Tbl.get s.launches k.launch = some l ∧ l.lr.handler ≠ 0

theorem Served.of_same {s t : State} {k k' : Block} {u : Nat} (h : Served s k u)
    (hteam : (Tbl.get k'.teams u).map (fun m => m.st) = (Tbl.get k.teams u).map (fun m => m.st))
    (hlaunch : (Tbl.get t.launches k'.launch).map standing = (Tbl.get s.launches k.launch).map standing) : Served t k' u := by
  obtain ⟨hu, ⟨m, hm, hst⟩, l, hl, hhandler⟩ := h
  rw [hm, Option.map_some, Option.map_eq_some_iff] at hteam
  rw [hl, Option.map_some, Option.map_eq_some_iff] at hlaunch
  obtain ⟨m', hm', hst'⟩ := hteam
  obtain ⟨l', hl', hst2⟩ := hlaunch
  simp only [standing, Prod.mk.injEq] at hst2
  exact ⟨hu, ⟨m', hm', by rwa [hst']⟩, l', hl', by rwa [hst2.2.1]⟩

theorem RunKeeps.served {b : Nat} {s t : State} (h : RunKeeps b s t) {k k' : Block} (hk : Tbl.get s.blocks b = some k)
    (hk' : Tbl.get t.blocks b = some k') (u : Nat) : Served t k' u ↔ Served s k u := by
  obtain ⟨q, hq, he, hteams⟩ := h.block k hk
  obtain rfl : q = k' := Option.some_inj.mp (hq.symm.trans hk')
  have hlaunch : q.launch = k.launch := by rw [he]
  have hstand := h.launches k.launch
  exact ⟨fun hs => hs.of_same (hteams u).symm (by rw [hlaunch, hstand]), fun hs => hs.of_same (hteams u) (by rw [hlaunch, hstand])⟩

/-- A command held by a fault of its global side. -/
def heldCmd (c : EngCmd) : EngCmd := { c with stalled := true, waits := [] }

/-- What is pending on a team whose command faults. -/
def faultRec (sel n code a : Nat) : TrapRec :=
  { code := code, sel := BitVec.ofNat 16 sel, cmd := BitVec.ofNat 64 n, val := BitVec.ofNat 64 a }

theorem addAsync_same {k : Block} {t : Nat} {m : Team} (hm : Tbl.get k.teams t = some m) (r : TrapRec) :
    Tbl.get (addAsync k t r).teams t = some { m with asyncs := m.asyncs ++ [r] } := by
  unfold addAsync
  rw [hm]
  exact Tbl.get_put_same ..

section

variable {s : State} {b sel n : Nat} {k : Block} {c : EngCmd} (hk : Tbl.get s.blocks b = some k)
  (hc : k.cmds.find? (fun c => c.tl = sel && c.num = n) = some c)

include hk hc

/-- Of a team that takes it the fault is pending, and the command is held; of any other the command is abandoned. -/
theorem engineFault_eq (code a : Nat) :
    (Served s k c.team → engineFault s b sel n code a =
      putBlock s b (addAsync (mapCmd sel n heldCmd k) c.team (faultRec sel n code a))) ∧
    (¬ Served s k c.team → engineFault s b sel n code a = abandonCmd s b sel n a) := by
  have hserved : ((c.team < frontTeam && (match Tbl.get k.teams c.team with
      | none => false
      | some m => teamLive m)) && hasHandler s b) = true ↔ Served s k c.team := by
    have hhandler : hasHandler s b = true ↔ ∃ l, Tbl.get s.launches k.launch = some l ∧ l.lr.handler ≠ 0 := by
      unfold hasHandler launchOf
      rw [hk]
      cases hl : Tbl.get s.launches k.launch <;> simp [hl]
    rw [Bool.and_eq_true, Bool.and_eq_true, hhandler, decide_eq_true_eq, and_assoc]
    unfold Served
    cases Tbl.get k.teams c.team <;> simp [teamLive, frontTeam]
  unfold engineFault
  simp only [hk, hc]
  exact ⟨fun h => if_pos (hserved.mpr h), fun h => if_neg (mt hserved.mp h)⟩

/-- The command of a team that takes the fault is held, and the fault is the team's last. -/
theorem engineFault_of_served (hserved : Served s k c.team) (hopen : c.finished = false) (code a : Nat) :
    ∃ k' m' c', Tbl.get (engineFault s b sel n code a).blocks b = some k' ∧ Tbl.get k'.teams c.team = some m' ∧
      m'.asyncs.getLast? = some (faultRec sel n code a) ∧ c' ∈ k'.cmds ∧ c'.tl = sel ∧ c'.num = n ∧ c'.stalled = true ∧
      c'.finished = false := by
  obtain ⟨-, htl, hnum⟩ := find_cmd hc
  obtain ⟨-, ⟨m, hm, -⟩, -⟩ := id hserved
  have hheld : heldCmd c ∈ (mapCmd sel n heldCmd k).cmds :=
    List.mem_of_find?_eq_some (find_mapCmd (f := heldCmd) (fun _ => ⟨rfl, rfl⟩) hc)
  have hteam := addAsync_same (k := mapCmd sel n heldCmd k) hm (faultRec sel n code a)
  rw [(engineFault_eq hk hc code a).1 hserved]
  refine ⟨_, _, heldCmd c, Tbl.get_put_same .., hteam, List.getLast?_concat, ?_, htl, hnum, rfl, hopen⟩
  rw [(addAsync_teams ..).1]
  exact hheld

/-- A command abandoned: none of its number is open, and one ABANDON entry is counted. -/
theorem abandonCmd_abandons (a : Nat) : NoneOpen (abandonCmd s b sel n a) b sel n ∧
    (Tbl.getD (abandonCmd s b sel n a).log.counters 0x0C Counter.zero).count = (Tbl.getD s.log.counters 0x0C Counter.zero).count + 1 := by
  obtain ⟨k2, hk2, he⟩ := payCopy_block hk sel n
  have hc2 : k2.cmds.find? (fun c => c.tl = sel && c.num = n) = some c := by rw [he]; exact hc
  have hlog : (payCopy s b sel n).log = s.log := by rw [payCopy_eq]
  unfold abandonCmd
  simp only [hk2, hc2]
  generalize (if c.team = frontTeam then _ else _ : Block) = k3
  constructor
  · refine (blockEndCheck_onlyEnds _ b).noneOpen fun q hq => ?_
    rw [logEntry_eq] at hq
    obtain rfl : finishCmd sel n k3 = q := by simpa [putBlock] using hq
    exact (finishCmd_finishedIn sel n k3).2.1
  · rw [(blockEndCheck_onlyEnds _ b).log, logEntry_counters]
    unfold bumpClass
    dsimp only
    rw [putBlock_log, hlog]
    unfold Tbl.getD
    rw [show clsAbandon = 0x0C from rfl, Tbl.get_put_same]
    rfl

end

theorem exec_engineTranslationFault (b sel n : Nat) (s : State) :
    exec (.engineTranslationFault b sel n) s = .next (engineTranslationFault b sel n s) := rfl

/-- What the run of a faulting command leaves of its block and of what is logged. -/
theorem RanToFault.noted {b sel n : Nat} {s : State} {k : Block} {c : EngCmd} (hopen : OpenCmd s b sel n k c) {r : CopyRun} {code a : Nat}
    (h : RanToFault b s r code a) (lines : List Nat) : ∃ k2 c2, Tbl.get (noteRun b sel n r lines r.s).blocks b = some k2 ∧
      k2.cmds.find? (fun c => c.tl = sel && c.num = n) = some c2 ∧ c2.team = c.team ∧ c2.finished = false ∧
      (∀ u, Served (noteRun b sel n r lines r.s) k2 u ↔ Served s k u) ∧
      Tbl.get (noteRun b sel n r lines r.s).log.counters clsAbandon = Tbl.get s.log.counters clsAbandon := by
  obtain ⟨hk, hc, hfin, -⟩ := hopen
  obtain ⟨hkeeps, -⟩ := h
  obtain ⟨k1, hk1, he1, -⟩ := hkeeps.block k hk
  have hc1 : k1.cmds.find? (fun c => c.tl = sel && c.num = n) = some c := by rw [he1]; exact hc
  have hserved := hkeeps.served hk hk1
  rw [noteRun_eq hk1]
  generalize (launchOf r.s b).any (fun l => decide (l.lr.commit = 3)) = paired
  exact ⟨mapCmd sel n (notedCmd paired r) k1, notedCmd paired r c, Tbl.get_put_same ..,
    find_mapCmd (f := notedCmd paired r) (fun _ => ⟨rfl, rfl⟩) hc1, rfl, hfin,
    hserved, hkeeps.abandons⟩

theorem engineFaults : EngineFaults := by
  intro b sel n s k c hopen hfaults hops served
  obtain ⟨r, lines, code, a, hran, hstep⟩ : ∃ r lines code a, RanToFault b s r code a ∧
      engineTranslationFault b sel n s = engineFault (noteRun b sel n r lines r.s) b sel n code a := by
    unfold engineTranslationFault
    rw [hfaults]
    rcases hops with ⟨rfl, st, se, y, cs, off, v, va, hop⟩ | ⟨rfl, mi, y, z, xs, ss, yo, sk, hop⟩
    · exact copyCommandComplete_of_fault hopen hop hfaults
    · exact mvxResult_of_fault hopen hop hfaults
  obtain ⟨-, -, -, -, -, hcode⟩ := id hran
  obtain ⟨k2, c2, hk2, hc2, hteam, hfin, hserved, hcount⟩ := hran.noted hopen lines
  refine ⟨_, (exec_engineTranslationFault b sel n s).trans (congrArg _ hstep), fun hs => ?_, fun hs => ?_⟩
  · obtain ⟨k', m', c', hrest⟩ := engineFault_of_served hk2 hc2 ((hserved _).mpr (hteam ▸ hs)) hfin code a
    rw [hteam] at hrest
    obtain ⟨hk', hm', hasync, hcmd⟩ := hrest
    exact ⟨k', m', c', code, a, hcode, hk', hm', hasync, hcmd⟩
  · rw [(engineFault_eq hk2 hc2 code a).2 (mt (hserved _).mp (hteam ▸ hs))]
    obtain ⟨hnone, habandon⟩ := abandonCmd_abandons hk2 hc2 a
    refine ⟨hnone, habandon.trans ?_⟩
    unfold Tbl.getD
    rw [show (0x0C : Nat) = clsAbandon from rfl, hcount]
    rfl

/-! ## The events together -/

theorem lineFills : LineFills := by
  refine ⟨?_, ?_, ?_⟩
  · intro b n line s s2 k c se y cs off ver verAddr place hopen hop j mine hmine hgoes
    exact lineFills_load hopen hop rfl hmine hgoes
  · intro b n line s k c src dst len mask gens recOff answers hopen hop mine hmine hclean
    exact lineFills_mcast hopen hop rfl hmine hclean
  · intro b line s k t m c hk hteam hm hc hfe hnew hapart hclean hline
    exact lineFills_cpy32 hk hteam hm hc hfe hnew hapart hclean hline

theorem poisonReruns : PoisonReruns := by
  refine ⟨?_, ?_, ?_⟩
  · intro b n s k c minor handle boff zero words scales bOff sOff h hopen hop hturn hlive hrun hpoison
    exact (exec_mmaComplete b n s).trans (congrArg _ (mmaComplete_of_poisoned hopen hop (mmaPending_below hturn) hlive hrun hpoison))
  · intro b n s k c src dst len mask gens recOff answers hopen hop hall hpoison
    exact (exec_mcastComplete b n s).trans (congrArg _ (mcastComplete_of_poisoned hopen hop hall hpoison))
  · intro b t tag s k m c hk hm hc hrun hpoison
    exact (exec_cpy32Complete b t tag s).trans (congrArg _ (cpy32Complete_of_poisoned hk hm hc hrun hpoison))

/-- Settles O46: each engine's event is its run over bytes that land, or are stored, one after another, followed by the end of its command. -/
theorem engineEvents : Obligations.EngineEvents :=
  ⟨copyCompletes, sealedCopyCompletes, cpy32Completes, mcastArrives, mcastCompletes, mmaCompletes, mvxCompletes, spfreeCompletes,
    lineFills, engineFaults, poisonReruns⟩

end Sys2Proof


/-! What an instruction that issues finds of its block, what keeps its issuer standing, and how its split waits. -/

namespace Sys2Proof

open Sys2Proof.Machine Sys2Proof.Spec

/-! ## Where an issuing instruction's block stands -/

theorem Issues.placed {op : Op} {leaders : List Nat} {s s1 : State} {j : Iss} (h : Issues op leaders s j s1) : Placed j s1 := by
  obtain ⟨i, hi, -, -, -, -, -, -, -, rfl, rfl, -⟩ := h
  exact popped_placed hi op

/-- The pops of an issuing instruction leave everything of its block but its teams. -/
theorem Issues.block {op : Op} {leaders : List Nat} {s s1 : State} {j : Iss} (h : Issues op leaders s j s1) :
    ∃ k, Tbl.get s1.blocks j.b = some k ∧ k = { j.k with teams := k.teams } := by
  obtain ⟨i, hi, -, -, -, -, -, -, -, rfl, rfl, -⟩ := h
  obtain ⟨hk, -⟩ := issuer_stands hi
  refine ⟨mapTeam i.k i.t (popTeam (withLanes i op) op), ?_, ?_⟩
  · simp [withLanes, onTeam_as_onBlock, blocks_onBlock, hk]
  · rw [mapTeam_eq]
    simp [withLanes]

/-- An issuer stands wherever its block has the teams it had. -/
theorem Stands.of_teams {j : Iss} {s t : State} (h : Stands j s)
    (hk : ∀ k, Tbl.get s.blocks j.b = some k → ∃ k', Tbl.get t.blocks j.b = some k' ∧ k'.teams = k.teams) : Stands j t := by
  obtain ⟨m, k, p, hb, hm, -, hregs, hp⟩ := h
  obtain ⟨k', hb', hteams⟩ := hk k hb
  rw [← hteams] at hm
  exact ⟨m, k', p, hb', hm, by simp [teamOf, hb', hm], hregs, hp⟩

theorem Stands.of_blocks {j : Iss} {s t : State} (h : Stands j s) (hb : t.blocks = s.blocks) : Stands j t :=
  h.of_teams fun k hk => ⟨k, hb ▸ hk, rfl⟩

theorem Stands.onBlock {j : Iss} {s : State} (h : Stands j s) {f : Block → Block} (hf : ∀ k, (f k).teams = k.teams) :
    Stands j (Machine.onBlock s j.b f) :=
  h.of_teams fun k hk => ⟨f k, by simp [blocks_onBlock, hk], hf k⟩

theorem Stands.onTeam {j : Iss} {s : State} (h : Stands j s) {f : Team → Team} (hr : ∀ m, (f m).regs = m.regs)
    (hs : ∀ m, (f m).splits = m.splits) : Stands j (Machine.onTeam s j.b j.t f) := by
  obtain ⟨m, k, p, hb, hm, ht, hregs, hp⟩ := h
  refine ⟨f m, mapTeam k j.t f, p, ?_, ?_, ?_, (hr m).trans hregs, (hs m).symm ▸ hp⟩
  · simp [onTeam_as_onBlock, blocks_onBlock, hb]
  · simp [teams_mapTeam, hm]
  · simp [teamOf_onTeam, ht]

/-! ## A split changed, and a split that waits -/

theorem teamOf_onSplit {s : State} {b t e : Nat} {m : Team} {p : Split} (hm : teamOf s b t = some m) (hp : Tbl.get m.splits e = some p)
    (f : Split → Split) : teamOf (onSplit s b t e f) b t = some { m with splits := Tbl.put m.splits e (f p) } := by
  rw [onSplit, teamOf_onTeam, hm, Option.map_some, hp]

/-- A change of a split that waits, which keeps how it waits. -/
theorem Waits.onSplit {j : Iss} {done : Mask} {s t : State} (h : Waits j done s t) {f : Split → Split}
    (hst : ∀ p, p.st = .waitOp → (f p).st = .waitOp) (hpc : ∀ p, (f p).pc = p.pc) (hmask : ∀ p, (f p).mask = p.mask)
    (hheld : ∀ p, (f p).held = p.held) : Waits j done s (Machine.onSplit t j.b j.t j.e f) := by
  obtain ⟨hteam, m, p, hm, hp, m', p', hm', hteq, hp', hother, hwait, hpc', hmask', q, hq, hdone⟩ := h
  obtain ⟨-, -, -, k', hk', -⟩ := id hteam
  refine ⟨hteam.trans (onTeam_only hk' _), m, p, hm, hp, _, f p', teamOf_onSplit hm' hp' f, ?_, Tbl.get_put_same .., fun e he => ?_,
    hst p' hwait, (hpc p').trans hpc', (hmask p').trans hmask', q, (hheld p').trans hq, hdone⟩
  · rw [hteq]
  · exact (Tbl.get_put_other _ _ he).trans (hother e he)

/-- An issuer that stands waits as its issue record says. -/
theorem wait_waits {j : Iss} {s : State} (h : Stands j s) (q : Held) : Waits j q.done s (j.wait s q) := by
  obtain ⟨m, k, p, hk, -, ht, -, hp⟩ := h
  exact ⟨onTeam_only hk _, m, p, ht, hp, _, _, teamOf_onSplit ht hp _, rfl, Tbl.get_put_same .., fun e he => Tbl.get_put_other _ _ he,
    rfl, rfl, rfl, _, rfl, rfl⟩

theorem pauseIn_waits {j : Iss} {s t : State} {done : Mask} (h : Waits j done s t) (w : Line) : Waits j done s (j.pauseIn t w) :=
  h.onSplit (fun _ _ => rfl) (fun _ => rfl) (fun _ => rfl) (fun _ => rfl)

/-- A split that waits in a line stands in it. -/
theorem pauseIn_line {j : Iss} {s t : State} {done : Mask} (h : Waits j done s t) (w : Line) :
    ∃ m p, teamOf (j.pauseIn t w) j.b j.t = some m ∧ Tbl.get m.splits j.e = some p ∧ p.line.map (fun c => c.1) = some w := by
  obtain ⟨-, -, -, -, -, m, p, hm, -, hp, -⟩ := h
  refine ⟨_, _, teamOf_onSplit hm hp _, Tbl.get_put_same .., ?_⟩
  dsimp only
  split
  · rename_i hmine
    simpa [Option.any_eq_true] using hmine
  · rfl

end Sys2Proof

/-! The accumulator instructions: handles, their tokens, and the words of their banks (O27). -/

namespace Sys2Proof

open Sys2Proof.Machine Sys2Proof.Spec

/-! ## Handles -/

/-- The handles of a block changed as they are at issue. -/
theorem onBlock_handlesBecame {op : Op} {leaders : List Nat} {s s1 s2 : State} {j : Iss} (h : Issues op leaders s j s1)
    (hb : s2.blocks = s1.blocks) {f : Block → Block} (g : List Handle → List Handle) (hf : ∀ k, f k = { k with handles := g k.handles }) :
    HandlesBecame j (g j.k.handles) s2 (onBlock s2 j.b f) := by
  refine ⟨onBlock_only .., fun k hk => ?_⟩
  obtain ⟨k1, hk1, he⟩ := h.block
  obtain rfl : k = k1 := Option.some.inj (hk.symm.trans (hb ▸ hk1))
  rw [blocks_onBlock, if_pos rfl, hk, Option.map_some, hf, he]

theorem liveHandle_of_named {j : Iss} {op : Op} {h : Handle} (hn : Named j op h) : liveHandle j.k (j.a op j.leader) = some h := by
  rw [liveHandle, ← List.head?_filter]
  exact hn

theorem liveHandle_of_unnamed {j : Iss} {op : Op} (hn : Unnamed j op) : liveHandle j.k (j.a op j.leader) = none := by
  rw [liveHandle, List.find?_eq_none]
  simpa [Unnamed] using hn

section
variable {op : Op} {s s1 : State} {j : Iss} {body : Iss → State → Handle → State}

theorem onHandle_of_named {h : Handle} (hi : Issues op [2] s j s1) (hn : Named j op h) : onHandle op s body = .next (body j s1 h) := by
  rw [onHandle, hi.run, liveHandle_of_named hn]

/-- An instruction on a handle that is not live traps ACCESS (05 R127). -/
theorem onHandle_of_unnamed {ex : State → Out} (he : ex s = onHandle op s body) (hi : Issues op [2] s j s1) (hn : Unnamed j op) :
    Traps ex j { code := 0x08 } s1 s :=
  trap_traps hi.placed (by rw [he, onHandle, hi.run, liveHandle_of_unnamed hn])

end

/-! ## Banks -/

theorem get_clearAcc (s : State) (p : Nat → Bool) (i : Nat) :
    Sparse.get (clearAcc s p).acc i = if p i then 0 else Sparse.get s.acc i := by
  unfold clearAcc
  dsimp only
  split
  · rename_i hp
    refine Sparse.get_absent ?_
    rintro c hc rfl
    exact absurd hp (by simpa using (List.mem_filter.mp hc).2)
  · rename_i hp
    exact Sparse.get_filter (f := fun q => !p q) (by simpa using hp) s.acc

theorem get_clearAcc_inHandle (s : State) (core : Nat) (h : Handle) (i : Nat) :
    Sparse.get (clearAcc s (inHandle core h)).acc i =
      if bankWord core h.first ≤ i ∧ i < bankWord core h.first + h.count * Config.bankWords then 0 else Sparse.get s.acc i := by
  simp [get_clearAcc, inHandle]

/-- The runs of banks that `freeBanks` takes for free are those that 14 R322 names. -/
theorem runFree_iff (s : State) (core f n : Nat) :
    f + n ≤ 128 ∧ (takenBanks s core).all (fun c => f + n ≤ c.1 || c.1 + c.2 ≤ f) = true ↔ banksFree s core f n := by
  simp only [takenBanks, banksFree, blockResident, List.all_eq_true, List.mem_flatMap, List.mem_filter, List.mem_map, Bool.and_eq_true,
    Bool.or_eq_true, decide_eq_true_eq]
  refine and_congr_right fun _ => ⟨fun h b k hmem hcore hsaved hdone a ha => ?_, fun h c hc => ?_⟩
  · exact h _ ⟨(b, k), ⟨hmem, hcore, hsaved, hdone⟩, a, ha, rfl⟩
  · obtain ⟨⟨b, k⟩, ⟨hmem, hcore, hsaved, hdone⟩, a, ha, rfl⟩ := hc
    exact h b k hmem hcore hsaved hdone a ha

theorem freeBanks_none {s : State} {core n : Nat} (h : ∀ f, ¬ banksFree s core f n) : freeBanks (takenBanks s core) n = none := by
  refine List.find?_eq_none.mpr fun f hf hfree => h f ((runFree_iff ..).mp ⟨?_, hfree⟩)
  have := List.mem_range.mp hf
  simp only [Config.accBanks] at this
  omega

/-- A run of banks that is free leads to the lowest one. -/
theorem freeBanks_lowest {s : State} {core n : Nat} (h : ∃ f, banksFree s core f n) :
    ∃ f, freeBanks (takenBanks s core) n = some f ∧ banksFree s core f n ∧ ∀ q, q < f → ¬ banksFree s core q n := by
  have hmem : ∀ f, f ∈ List.range (Config.accBanks + 1 - n) ↔ f + n ≤ 128 := fun f => by
    rw [List.mem_range, Config.accBanks]
    omega
  cases hfind : freeBanks (takenBanks s core) n with
  | none =>
    obtain ⟨f, hf⟩ := h
    obtain ⟨hin, hfree⟩ := (runFree_iff ..).mpr hf
    exact absurd hfree (List.find?_eq_none.mp hfind f ((hmem f).mpr hin))
  | some f =>
    obtain ⟨hfree, hin, hbelow⟩ := List.find?_range_eq_some.mp hfind
    refine ⟨f, rfl, (runFree_iff ..).mp ⟨(hmem f).mp hin, hfree⟩, fun q hq hqfree => ?_⟩
    obtain ⟨-, hfreeq⟩ := (runFree_iff ..).mpr hqfree
    exact absurd hfreeq (by simpa using hbelow q hq)

/-! ## ACCALLOC (05 R128, 14 R322) -/

/-- A value given to every executing lane. -/
theorem completeAll_completes {op : Op} {s : State} {j : Iss} (h : Stands j s) (v : Word) :
    LanesDone op j (fun _ => .word v) s (j.completeAll op s (v.zeroExtend 128)) :=
  complete_completes h _ fun _ _ => BitVec.zero_and

/-- The handle that an allocation makes. -/
def allocated (s : State) (j : Iss) (n f : Nat) : Handle :=
  { serial := (coreOf s j.k.core).serial, count := n, first := f, owner := j.t, token := some j.t }

/-- A core once the serial of a new handle is taken (05 R127). -/
def nextSerial (c : CoreState) : CoreState := { c with serial := if c.serial = 0xFFFF then 1 else c.serial + 1 }

/-- The machine with a new handle: its core's next serial, and the handle on its block's list. -/
def withHandle (s : State) (j : Iss) (h : Handle) : State :=
  onBlock { s with cores := Tbl.put s.cores j.k.core (nextSerial (coreOf s j.k.core)) } j.b
    (fun k => { k with handles := k.handles ++ [h] })

theorem coreOf_withHandle (s : State) (j : Iss) (h : Handle) : coreOf (withHandle s j h) j.k.core = nextSerial (coreOf s j.k.core) := by
  simp [withHandle, coreOf, Tbl.getD]

section
variable {op : Op} {s s1 : State} {j : Iss}

theorem accalloc_of_badCount (hi : Issues op [2] s j s1) (hn : (j.a op j.leader).toNat = 0 ∨ 128 < (j.a op j.leader).toNat) :
    accalloc op s = .next (j.trap s1 { code := 0x08 }) := by
  rw [accalloc, hi.run]
  dsimp only
  rw [if_pos (by simpa using hn)]

variable (hi : Issues op [2] s j s1) (hpos : 1 ≤ (j.a op j.leader).toNat) (hle : (j.a op j.leader).toNat ≤ 128)

include hi hpos hle

theorem accalloc_of_noRoom (h : ¬ (j.k.handles.map (fun h => h.count)).sum + (j.a op j.leader).toNat ≤ j.l.lr.accmax ∨
      ∀ f, ¬ banksFree s1 j.k.core f (j.a op j.leader).toNat) : accalloc op s = .next (j.completeAll op s1 0) := by
  rw [accalloc, hi.run]
  dsimp only
  rw [if_neg (by simp; omega)]
  split
  · rfl
  · rename_i hroom
    rw [freeBanks_none (h.resolve_left (by omega))]

theorem accalloc_of_room {f : Nat} (h : (j.k.handles.map (fun h => h.count)).sum + (j.a op j.leader).toNat ≤ j.l.lr.accmax)
    (hf : freeBanks (takenBanks s1 j.k.core) (j.a op j.leader).toNat = some f) : accalloc op s = .next
      (j.completeAll op (withHandle s1 j (allocated s1 j (j.a op j.leader).toNat f))
        ((allocated s1 j (j.a op j.leader).toNat f).word.zeroExtend 128)) := by
  rw [accalloc, hi.run]
  dsimp only
  rw [if_neg (by simp; omega), if_neg (by omega)]
  simp only [hf]
  rfl

end

theorem accallocDone (op : Op) : AccallocDone (accalloc op) op := by
  intro s j s1 hi n room
  refine ⟨fun hn => trap_traps hi.placed (accalloc_of_badCount hi hn),
    fun hpos hle hno => ⟨_, accalloc_of_noRoom hi hpos hle hno, completeAll_completes hi.stands 0⟩, fun hpos hle hroom hfree => ?_⟩
  obtain ⟨f, hf, hrun, hlow⟩ := freeBanks_lowest hfree
  obtain ⟨k, hk, -⟩ := hi.block
  have hstands : Stands j (withHandle s1 j (allocated s1 j n f)) :=
    (hi.stands.of_blocks (t := { s1 with cores := Tbl.put s1.cores j.k.core (nextSerial (coreOf s1 j.k.core)) }) rfl).onBlock fun _ => rfl
  refine ⟨allocated s1 j n f, withHandle s1 j (allocated s1 j n f), _, k, _, accalloc_of_room hi hpos hle hroom hf, hrun, hlow, rfl, rfl,
    rfl, rfl, congrArg CoreState.serial (coreOf_withHandle ..), hk, ?_, rfl, ?_, completeAll_completes hstands _⟩
  · simp [withHandle, blocks_onBlock, hk]
  · rw [withHandle, onBlock_eq]

/-! ## ACCFREE and ACCREL (05 R128, R130) -/

theorem accfreeDone (op : Op) : AccfreeDone (accfree op) op := by
  intro s j s1 hi
  refine ⟨onHandle_of_unnamed rfl hi, fun h hn => ?_⟩
  have hrun : accfree op s = .next _ := onHandle_of_named hi hn
  refine ⟨fun howner => trap_traps hi.placed ?_, fun howner htoken => trap_traps hi.placed ?_, fun howner htoken => ?_⟩
  · rw [hrun, if_pos howner]
  · rw [hrun, if_neg (not_not_intro howner), if_pos htoken]
  · rw [if_neg (not_not_intro howner), if_neg (not_not_intro htoken)] at hrun
    have hclear : Stands j (clearAcc s1 (inHandle j.k.core h)) := hi.stands.of_blocks rfl
    refine ⟨_, _, _, hrun, plain_completes (hclear.onBlock fun _ => rfl), rfl,
      onBlock_handlesBecame hi (s2 := clearAcc s1 _) rfl (List.filter fun q => q.word ≠ h.word) fun _ => rfl, fun i => ?_⟩
    rw [onBlock_acc, get_clearAcc_inHandle]

/-- A handle's token given, or given up, in the list of a block's handles. -/
theorem mapHandle_becomes {op : Op} {leaders : List Nat} {s s1 : State} {j : Iss} (h : Issues op leaders s j s1) (w : Word)
    (f : Handle → Handle) :
    HandlesBecame j (j.k.handles.map (fun q => if q.word = w then f q else q)) s1 (onBlock s1 j.b (mapHandle w f)) :=
  onBlock_handlesBecame h rfl (List.map fun q => if q.word = w then f q else q) fun _ => rfl

theorem accrelDone (op : Op) : AccrelDone (accrel op) op := by
  intro s j s1 hi
  refine ⟨onHandle_of_unnamed rfl hi, fun h hn => ?_⟩
  have hrun : accrel op s = .next _ := onHandle_of_named hi hn
  refine ⟨fun htoken => trap_traps hi.placed ?_, fun htoken => ?_⟩
  · rw [hrun, if_pos htoken]
  · rw [if_neg (not_not_intro htoken)] at hrun
    exact ⟨_, _, hrun, plain_completes (hi.stands.onBlock fun _ => rfl), mapHandle_becomes hi _ _⟩

/-! ## ACCACQ (05 R130) -/

theorem accacqDone (op : Op) : AccacqDone (accacq op) op := by
  intro s j s1 hi
  refine ⟨onHandle_of_unnamed rfl hi, fun h hn => ?_⟩
  have hrun : accacq op s = .next _ := onHandle_of_named hi hn
  have hwaits : Waits j 0 s1 (j.wait s1 (j.hold 0 [] [])) := wait_waits hi.stands _
  refine ⟨fun htoken hnext => ?_, fun hbusy => ?_, fun htoken => ?_⟩
  · have hgiven : Stands j (onBlock s1 j.b (mapHandle h.word fun q => { q with token := some j.t })) := hi.stands.onBlock fun _ => rfl
    simp only [htoken, show tokenAhead j h.word = false from hnext, Bool.false_eq_true, if_false] at hrun
    refine ⟨_, _, hrun, mapHandle_becomes hi _ _, ?_⟩
    split
    · exact (wait_waits hgiven (j.hold 0 [] [])).onSplit (fun _ h => h) (fun _ => rfl) (fun _ => rfl) fun _ => rfl
    · exact plain_completes hgiven
  · have hline : accacq op s = .next (j.pauseIn (j.wait s1 (j.hold 0 [] [])) (.token h.word)) := by
      rcases hbusy with ⟨htoken, hahead⟩ | ⟨u, htoken, hu⟩
      · simpa only [htoken, show tokenAhead j h.word = true by simpa [ServedNext, tokenAhead] using hahead, if_true] using hrun
      · simpa only [htoken, if_pos hu] using hrun
    obtain ⟨m, p, hm, hp, hl⟩ := pauseIn_line hwaits (.token h.word)
    exact ⟨_, m, p, hline, pauseIn_waits hwaits _, hm, hp, hl⟩
  · simp only [htoken, ne_eq, not_true_eq_false, if_false, Bool.and_eq_true] at hrun
    refine ⟨_, hrun, ?_⟩
    split
    · exact hwaits
    · exact plain_completes hi.stands

/-! ## ACCLD, ACCST and ACCZERO (05 R130, R131) -/

section
variable {op : Op} {s s1 : State} {j : Iss} {h : Handle} {body : Iss → State → Nat → State}

theorem onBanks_of_noToken (hi : Issues op [2] s j s1) (hn : Named j op h) (ht : h.token ≠ some j.t) :
    onBanks op s body = .next (j.trap s1 { code := 0x04 }) := by
  rw [onBanks, onHandle_of_named hi hn, if_pos ht]

theorem onBanks_of_outside (hi : Issues op [2] s j s1) (hn : Named j op h) (ht : h.token = some j.t) (hf : op.o.f.toNat ≠ 2)
    (hl : ∃ l ∈ j.lanes, h.count * Config.bankWords ≤ (j.bv op l).toNat) : onBanks op s body = .next (j.trap s1 { code := 0x08 }) := by
  rw [onBanks, onHandle_of_named hi hn, if_neg (not_not_intro ht), if_pos]
  simpa [hf] using hl

theorem onBanks_of_inside (hi : Issues op [2] s j s1) (hn : Named j op h) (ht : h.token = some j.t)
    (hl : ∀ l ∈ j.lanes, (j.bv op l).toNat < h.count * Config.bankWords) :
    onBanks op s body = .next (body j s1 (bankWord j.k.core h.first)) := by
  rw [onBanks, onHandle_of_named hi hn, if_neg (not_not_intro ht), if_neg]
  simpa using fun _ => hl

end

theorem consumePoison_eq (s : State) (b : Nat) : consumePoison s b = { s with due := (consumePoison s b).due } := by
  unfold consumePoison
  split <;> rfl

theorem accConsumed_eq (s : State) (b : Nat) (words : List Nat) :
    accConsumed s b words = { s with due := (accConsumed s b words).due } := by
  unfold accConsumed
  split
  · rfl
  · exact consumePoison_eq ..

theorem accConsumed_of_clean {s : State} {b : Nat} {words : List Nat} (h : ∀ w ∈ words, w ∉ s.accPoison) : accConsumed s b words = s := by
  refine if_pos ?_
  simpa using .inr h

theorem accLoadDone (op : Op) : AccLoadDone (accld op) op := by
  intro s j s1 h hi hn
  refine ⟨fun ht => trap_traps hi.placed (onBanks_of_noToken hi hn ht),
    fun ht hf hl => trap_traps hi.placed (onBanks_of_outside hi hn ht hf hl), fun ht hl => ?_⟩
  set s2 := accConsumed s1 j.b (j.lanes.map (fun l => bankWord j.k.core h.first + (j.bv op l).toNat)) with hs2
  have heq : s2 = { s1 with due := s2.due } := accConsumed_eq ..
  refine ⟨s2, _, onBanks_of_inside hi hn ht hl, heq, fun hclean => accConsumed_of_clean (List.forall_mem_map.mpr hclean), ?_⟩
  exact complete_completes (hi.stands.of_blocks (by rw [heq])) _ fun _ _ => BitVec.zero_and

/-- Of lanes in rising order that write, the highest to write a word leaves its value there. -/
theorem get_applyWrites_highest {key : Nat → Nat} {val : Nat → Word} {l : Nat} : ∀ {ls : List Nat} (r : Sparse 32), ls.Pairwise (· < ·) →
    l ∈ ls → (∀ q ∈ ls, l < q → key q ≠ key l) → Sparse.get (applyWrites r (ls.map (fun q => (key q, val q)))) (key l) = val l
  | q :: ls, r, hsorted, hmem, hlast => by
    obtain ⟨hq, hsorted⟩ := List.pairwise_cons.mp hsorted
    rw [List.map_cons, applyWrites]
    rcases List.mem_cons.mp hmem with rfl | hmem
    · rw [get_applyWrites_other, Sparse.get_set_same]
      exact List.forall_mem_map.mpr fun p hp => hlast p (List.mem_cons_of_mem _ hp) (hq p hp)
    · exact get_applyWrites_highest _ hsorted hmem fun p hp => hlast p (List.mem_cons_of_mem _ hp)

theorem accStoreDone (op : Op) : AccStoreDone (accst op) op := by
  intro s j s1 h hi hn ht hl
  refine ⟨_, _, onBanks_of_inside hi hn ht hl, plain_completes (hi.stands.of_blocks rfl), rfl, fun i hother => ?_, fun l hmem hlast => ?_⟩
  · exact get_applyWrites_other _ _ _ (List.forall_mem_map.mpr hother)
  · exact get_applyWrites_highest (key := accWord j op h) _ (lanes_sorted j) hmem hlast

theorem accZeroDone (op : Op) : AccZeroDone (acczero op) op := by
  intro s j s1 h hi hn ht
  have hrun : acczero op s = .next _ := onHandle_of_named hi hn
  rw [if_neg (not_not_intro ht)] at hrun
  exact ⟨_, _, hrun, plain_completes (hi.stands.of_blocks rfl), rfl, get_clearAcc_inHandle s1 j.k.core h⟩

/-- Settles O27: each instruction finds its handle, makes its checks in order, and then completes, waits, or takes or gives up a token. -/
theorem accumulators : Obligations.Accumulators :=
  ⟨fun _ => accallocDone _, fun _ => accallocDone _, fun _ => accfreeDone _, fun _ => accfreeDone _, fun _ => accacqDone _,
    fun _ => accacqDone _, fun _ => accrelDone _, fun _ => accrelDone _, fun _ => accLoadDone _, fun _ => accLoadDone _,
    fun _ => accStoreDone _, fun _ => accZeroDone _, fun _ => accZeroDone _⟩

end Sys2Proof


/-! The matrix instructions: the rendezvous of MMA, and MVX as it is accepted (O28). -/

namespace Sys2Proof

open Sys2Proof.Machine Sys2Proof.Spec

/-! ## A record read at issue -/

theorem AsksGo.caches {x : Nat} {failed : List Nat} {s t : State} {qs : List Ask} (h : AsksGo x failed s qs t) : OnlyCaches s t := by
  induction h with
  | none s => rfl
  | more s t q qs p hp _ ih => exact (noteTarget_caches s x q.tgt).trans ih

/-- Asks that all go leave nothing to wait for and nothing that traps. -/
theorem askAll_of_go {x : Nat} {failed : List Nat} {s t : State} {qs : List Ask} (h : AsksGo x failed s qs t) :
    askAll x failed { s := s, bad := [], waits := [] } qs = { s := t, bad := [], waits := [] } := by
  induction h with
  | none s => rfl
  | more s t q qs p hp _ ih =>
    rw [askAll, askOne, hp]
    exact ih

theorem withRecord_of_reads {j : Iss} {a n : Nat} {s s2 : State} {bs : List Byte} (h : RecordReads j a n s s2 bs)
    (go : State → List Byte → State) : j.withRecord s a n go = go s2 bs := by
  obtain ⟨ha, hgo, rfl⟩ := h
  unfold Iss.withRecord
  simp only [ha, recordTarget, List.map_map, Function.comp_def, askAll_of_go hgo, ne_eq, not_true_eq_false, if_false]

/-! ## A command accepted (14 R312, 04 R104) -/

theorem ownTimeline_eq (k : Block) (sel : Nat) : ownTimeline k sel = blockTl k sel := by
  unfold blockTl
  split
  · rfl
  · rfl
  · rename_i hcopy hmma
    exact (if_neg hcopy).trans (if_neg hmma)

theorem ownTimeline_setBlockTl_other {k : Block} {sel q : Nat} (t : Timeline) (h : q ≠ sel) (hq : 0x1000 ≤ q) (hq' : q ≤ 0x1002)
    (hsel : 0x1000 ≤ sel) (hsel' : sel ≤ 0x1002) : ownTimeline (setBlockTl k sel t) q = ownTimeline k q := by
  unfold setBlockTl
  split
  · rw [ownTimeline, if_neg h, ownTimeline, if_neg h]
  · rw [ownTimeline, if_neg h, ownTimeline, if_neg h]
  · rename_i hcopy hmma
    have : sel ≠ 0x1000 ∧ sel ≠ 0x1001 := ⟨hcopy, hmma⟩
    obtain rfl | rfl : q = 0x1000 ∨ q = 0x1001 := by omega
    · rfl
    · rfl

/-- The record of a command as it is accepted. -/
def acceptedCmd (s : State) (j : Iss) (k : Block) (sel : Nat) (what : EngOp) : EngCmd :=
  { tl := sel, num := (ownTimeline k sel).n + 1, team := j.t, op := what, doneElems := [], stalled := false, waits := [], failed := [],
    finished := false, born := s.tick }

theorem acceptCmd_eq {j : Iss} {s : State} {k : Block} (hk : Tbl.get s.blocks j.b = some k) (sel : Nat) (what : EngOp) :
    acceptCmd s j sel what = (putBlock s j.b { setBlockTl k sel { ownTimeline k sel with n := (ownTimeline k sel).n + 1 } with
      cmds := k.cmds ++ [acceptedCmd s j k sel what] }, (ownTimeline k sel).n + 1) := by
  simp only [acceptCmd, hk, acceptedCmd, ownTimeline_eq]

/-- The command that is accepted stands last, under the next number of its timeline. -/
theorem acceptCmd_accepted {j : Iss} {s : State} {k : Block} (hk : Tbl.get s.blocks j.b = some k) (sel : Nat) (what : EngOp) :
    Accepted j sel what s (acceptCmd s j sel what).1 := by
  rw [acceptCmd_eq hk]
  refine ⟨⟨rfl, fun c hc => Tbl.get_put_other _ _ hc⟩, k, _, acceptedCmd s j k sel what, hk, Tbl.get_put_same .., ?_, ?_,
    fun q h hq hq' hsel hsel' => ownTimeline_setBlockTl_other _ h hq hq' hsel hsel', rfl, rfl, rfl, rfl, rfl, rfl, rfl⟩
  · dsimp only
    rw [setBlockTl_eq]
  · exact (ownTimeline_eq ..).trans (blockTl_setBlockTl ..)

theorem acceptCmd_stands {j : Iss} {s : State} (h : Stands j s) (sel : Nat) (what : EngOp) : Stands j (acceptCmd s j sel what).1 := by
  refine h.of_teams fun k hk => ?_
  rw [acceptCmd_eq hk]
  refine ⟨_, Tbl.get_put_same .., ?_⟩
  dsimp only
  rw [setBlockTl_eq]

/-! ## The entries of a rendezvous that go on -/

theorem Tbl.get_mapVals {α : Type} (f : Nat → α → α) (k : Nat) : ∀ t : Tbl α, Tbl.get (Tbl.mapVals t f) k = (Tbl.get t k).map (f k)
  | [] => rfl
  | (a, v) :: r => by
    rw [Tbl.mapVals, List.map_cons, Tbl.get, Tbl.get]
    split
    · rename_i he
      rw [he, Option.map_some]
    · exact Tbl.get_mapVals f k r

/-- A team of a rendezvous once its MMA is accepted. -/
def wentOnMma (s : State) (psn : Nat → Bool) (r : RdvEntry) (m : Team) : Team :=
  { m with
    flags := m.flags ||| flagIf (psn r.team) fPSN,
    splits := Tbl.mapVals m.splits (fun e p => if e = r.split then p.stepTo (p.pc + 8) s else p) }

theorem rdvGoOn_eq (s : State) (psn : Nat → Bool) (k : Block) (r : RdvEntry) :
    rdvGoOn s psn k r = mapTeam k r.team (wentOnMma s psn r) := rfl

/-- The split that waited stands past its MMA. -/
theorem get_wentOnMma {m : Team} {r : RdvEntry} {p : Split} (h : Tbl.get m.splits r.split = some p) (s : State) (psn : Nat → Bool) :
    Tbl.get (wentOnMma s psn r m).splits r.split = some (p.stepTo (p.pc + 8) s) := by
  rw [wentOnMma, Tbl.get_mapVals, h, Option.map_some, if_pos rfl]

/-- The entries that go on change the teams of their block alone. -/
theorem foldl_rdvGoOn_eq (s : State) (psn : Nat → Bool) : ∀ (rs : List RdvEntry) (k : Block),
    rs.foldl (rdvGoOn s psn) k = { k with teams := (rs.foldl (rdvGoOn s psn) k).teams }
  | [], _ => rfl
  | r :: rs, k => by
    rw [List.foldl_cons, foldl_rdvGoOn_eq s psn rs, rdvGoOn_eq, mapTeam_eq]

theorem foldl_rdvGoOn_other {s : State} {psn : Nat → Bool} {u : Nat} {rs : List RdvEntry} (k : Block) (h : ∀ r ∈ rs, r.team ≠ u) :
    Tbl.get (rs.foldl (rdvGoOn s psn) k).teams u = Tbl.get k.teams u := by
  induction rs generalizing k with
  | nil => rfl
  | cons r rs ih =>
    obtain ⟨hr, hrs⟩ := List.forall_mem_cons.mp h
    rw [List.foldl_cons, ih _ hrs, rdvGoOn_eq, teams_mapTeam, if_neg (Ne.symm hr)]

/-- Of entries of teams all different, each goes on in its own team. -/
theorem foldl_rdvGoOn_team {s : State} {psn : Nat → Bool} {x : RdvEntry} {m : Team} {rs : List RdvEntry} (k : Block)
    (hnodup : (rs.map (fun r => r.team)).Nodup) (hmem : x ∈ rs) (hm : Tbl.get k.teams x.team = some m) :
    Tbl.get (rs.foldl (rdvGoOn s psn) k).teams x.team = some (wentOnMma s psn x m) := by
  induction rs generalizing k with
  | nil => cases hmem
  | cons r rs ih =>
    rw [List.map_cons, List.nodup_cons, List.mem_map] at hnodup
    obtain ⟨hr, hrs⟩ := hnodup
    rw [List.foldl_cons]
    rcases List.mem_cons.mp hmem with rfl | hmem
    · rw [foldl_rdvGoOn_other _ fun q hq he => hr ⟨q, hq, he⟩, rdvGoOn_eq, teams_mapTeam, if_pos rfl, hm, Option.map_some]
    · refine ih _ hrs hmem ?_
      rw [rdvGoOn_eq, teams_mapTeam, if_neg fun he => hr ⟨x, hmem, he⟩, hm]

/-! ## MMA (05 R133, R134, R138) -/

theorem allCome_iff (k : Block) (g : Word) :
    (gangTeams g).all (fun u => (rdvOf k g).any (fun c => c.team = u)) = true ↔ rdvFull k g := by
  simp [rdvFull]

/-- While a team of the gang has not come, nothing happens. -/
theorem rdvTry_of_incomplete {s : State} {b : Nat} {g : Word} {k : Block} (hk : Tbl.get s.blocks b = some k) (h : ¬ rdvFull k g) :
    rdvTry s b g = s := by
  unfold rdvTry
  rw [hk]
  dsimp only
  split
  · rename_i l r q _ hr
    rw [← hr, if_pos (by simpa [← allCome_iff] using h)]
  · rfl

/-- With every team there, its checks passing, a latch at hand and no poison read, the MMA is accepted. -/
theorem rdvTry_of_complete {s : State} {b : Nat} {g : Word} {k : Block} {l : Launch} {r : RdvEntry} {q : List RdvEntry}
    (hk : Tbl.get s.blocks b = some k) (hl : Tbl.get s.launches k.launch = some l) (hr : rdvOf k g = r :: q) (hfull : rdvFull k g)
    (hcheck : rdvCheck k l (r :: q) r = none) (hpoison : tilePoison k l (r :: q) r = [])
    (hlatch : r.ru = false ∨ (gangLatch k g).isSome = true ∨ coreLatches s k.core < 4) : rdvTry s b g = rdvAccept s b k l (r :: q) r := by
  have hcome := (allCome_iff k g).mpr hfull
  have hfree : (r.ru && (gangLatch k g).isNone && decide (4 ≤ coreLatches s k.core)) = false := by
    rcases hlatch with h | h | h
    · simp [h]
    · obtain ⟨a, ha⟩ := Option.isSome_iff_exists.mp h
      simp [ha]
    · simp [h]
  rw [hr] at hcome
  unfold rdvTry
  simp only [hk, hl, hr, hcome, hcheck, hpoison, hfree, Bool.not_true, Bool.false_eq_true, if_false]

/-- The command that a rendezvous becomes. -/
def rdvCommand (k : Block) (l : Launch) (rs : List RdvEntry) (r : RdvEntry) : EngCmd :=
  { tl := 0x1001, num := k.mmaTl.n + 1, team := r.team, doneElems := [], stalled := false, waits := [], failed := [], finished := false,
    op := .mma r.minor r.handle (bitsOf r.tile.toNat 0 7) (r.tile.getLsbD 7) (tileLatch k l rs r).words (tileLatch k l rs r).scales
      r.bOff.toNat r.sOff.toNat }

theorem rdvCommand_op (k : Block) (l : Launch) (rs : List RdvEntry) (r : RdvEntry) : (rdvCommand k l rs r).op =
    .mma r.minor r.handle (r.tile.toNat % 128) (r.tile.getLsbD 7) (tileLatch k l rs r).words (tileLatch k l rs r).scales
      r.bOff.toNat r.sOff.toNat := by
  simp [rdvCommand, bitsOf]

theorem rdvAccept_block (s : State) (b : Nat) (k : Block) (l : Launch) (rs : List RdvEntry) (r : RdvEntry) :
    OnlyBlock b s (rdvAccept s b k l rs r) ∧ ∃ k', Tbl.get (rdvAccept s b k l rs r).blocks b = some k' ∧
      k'.mmaTl.n = k.mmaTl.n + 1 ∧ k'.cmds = k.cmds ++ [rdvCommand k l rs r] ∧
      k'.teams = (rs.foldl (rdvGoOn s (tilePsn k l r)) (rdvLeave rs k)).teams := by
  refine ⟨⟨rfl, fun c hc => Tbl.get_put_other _ _ hc⟩, _, Tbl.get_put_same .., rfl, ?_, rfl⟩
  dsimp only
  rw [foldl_rdvGoOn_eq]
  rfl

section
variable {op : Op} {s s1 : State} {j : Iss}

/-- An MMA whose split is not in the latch: its gang register is checked first, then whether its team is there already. -/
theorem mma_of_issued (hi : Issues op [1, 3] s j s1) (hn : (j.p.held.any fun h => h.latched) = false) : mma op s = .next (
    if gangOk j.k j.t (gangNamed j op) = false then j.trap s1 { code := 0x0F }
    else if (rdvOf j.k (gangNamed j op)).any (fun r => r.team = j.t) = true then j.wait s1 (j.hold 0 [] [])
    else rdvTry (inLatch j op s1) j.b (gangNamed j op)) := by
  rw [mma, hi.run]
  dsimp only
  rw [if_neg (by simp [hn])]
  simp only [Bool.not_eq_true']
  rfl

/-- The issuer's launch is that of its block once its MMA stands in the latch. -/
theorem inLatch_launch (hi : Issues op [1, 3] s j s1) {k : Block} (hk : Tbl.get (inLatch j op s1).blocks j.b = some k) :
    Tbl.get (inLatch j op s1).launches k.launch = some j.l := by
  obtain ⟨k1, _, hk1, hl, -⟩ := hi.placed
  have hlaunch : k.launch = k1.launch := by
    rw [inLatch, blocks_onBlock, if_pos rfl, Iss.wait, onSplit, onTeam_as_onBlock, blocks_onBlock, if_pos rfl, hk1] at hk
    obtain rfl := Option.some.inj hk
    dsimp only
    rw [mapTeam_eq]
  rw [hlaunch]
  simpa [inLatch, Iss.wait] using hl

end

theorem mmaDone (op : Op) : MmaDone (mma op) op := by
  intro s j s1 hi hn g
  have hrun := mma_of_issued hi hn
  refine ⟨fun hg => trap_traps hi.placed (by rw [hrun, if_pos hg]), fun hg hr => ?_, fun hg hr k hk => ?_⟩
  · rw [if_neg (by simp [g, hg]), if_pos hr] at hrun
    exact ⟨_, hrun, wait_waits hi.stands _⟩
  rw [if_neg (by simp [g, hg]), if_neg (by simp [g, hr])] at hrun
  refine ⟨fun hwait => by rw [hrun, rdvTry_of_incomplete hk hwait], fun hfull r q hrq hnodup hcheck hpoison hlatch => ?_⟩
  rw [rdvTry_of_complete hk (inLatch_launch hi hk) hrq hfull hcheck hpoison hlatch] at hrun
  obtain ⟨honly, k', hk', hnum, hcmds, hteams⟩ := rdvAccept_block (inLatch j op s1) j.b k j.l (r :: q) r
  refine ⟨_, k', _, hrun, honly, hk', hnum, hcmds, rfl, rfl, rfl, ⟨_, _, rdvCommand_op k j.l (r :: q) r⟩, fun x hx m p hm hp => ?_⟩
  refine ⟨wentOnMma (inLatch j op s1) (tilePsn k j.l r) x m, _, ?_, rfl, get_wentOnMma hp _ _, rfl, rfl, rfl⟩
  rw [hteams]
  exact foldl_rdvGoOn_team (rdvLeave (r :: q) k) hnodup hx hm

/-! ## MVX (05 R140 to R143) -/

/-- A team's result stream opened, all of it to come. -/
def streamOpened (n len : Nat) (m : Team) : Team := { m with q1 := m.q1 ++ [{ num := n, elems := [], toCome := len }] }

/-- The machine once an MVX is accepted: the context counts it by its path, and a team's result stream is opened. -/
def mvxOpened (j : Iss) (op : Op) (y : Layout) (stack : Bool) (r : State × Nat) : State :=
  if j.front then bumpCtx j.l.ctx (if stack then 1 else 0) r.1
  else onTeam (bumpCtx j.l.ctx (if stack then 1 else 0) r.1) j.b j.t (streamOpened r.2 ((j.c op j.leader).toNat * y.dim 1))

theorem mvxOpened_eq (j : Iss) (op : Op) (y : Layout) (stack : Bool) (r : State × Nat) : mvxOpened j op y stack r =
    { r.1 with blocks := (mvxOpened j op y stack r).blocks, ctxs := (mvxOpened j op y stack r).ctxs } := by
  unfold mvxOpened
  split
  · rw [bumpCtx_eq]
  · rw [onTeam_eq, bumpCtx_eq]

theorem bumpCtx_blocks (x k : Nat) (s : State) : (bumpCtx x k s).blocks = s.blocks := (bumpCtx_sameStores x k s).blocks

theorem mvxOpened_stands {j : Iss} {r : State × Nat} (h : Stands j r.1) (op : Op) (y : Layout) (stack : Bool) :
    Stands j (mvxOpened j op y stack r) := by
  have hbump := h.of_blocks (bumpCtx_blocks j.l.ctx (if stack then 1 else 0) r.1)
  unfold mvxOpened
  split
  · exact hbump
  · exact hbump.onTeam (fun _ => rfl) fun _ => rfl

theorem teamOf_mvxOpened {j : Iss} {r : State × Nat} {m : Team} (hm : teamOf r.1 j.b j.t = some m) (op : Op) (y : Layout) (stack : Bool) :
    teamOf (mvxOpened j op y stack r) j.b j.t =
      some (if j.front then m else streamOpened r.2 ((j.c op j.leader).toNat * y.dim 1) m) := by
  have hbump : teamOf (bumpCtx j.l.ctx (if stack then 1 else 0) r.1) j.b j.t = some m := by
    rw [teamOf, bumpCtx_blocks]
    exact hm
  unfold mvxOpened
  split
  · exact hbump
  · rw [teamOf_onTeam, hbump, Option.map_some]

theorem leader_lt (j : Iss) : j.leader < 1024 := by
  unfold Iss.leader lowestLane
  cases h : lanesOf j.ex j.m.width with
  | nil => decide
  | cons l ls => exact (mem_lanesOf (h ▸ List.mem_cons_self ..)).2

/-- The command of an MVX of a team or front program, its records read (05 R140 to R142, R145). -/
def mvxCommand (s : State) (j : Iss) (op : Op) (bs : List Byte) : EngOp :=
  .mvx op.o.f.toNat (parseLayout bs) (parseLayout (bs.drop 64))
    ((List.range (j.c op j.leader).toNat).map (mvxX s j op ((parseLayout bs).dim 0)))
    ((List.range (j.c op j.leader).toNat).map (mvxScales s j op ((parseLayout bs).dim 0)))
    (if j.front then some (frontY j op) else none)
    (if mvxStack s j.l.ctx (j.c op j.leader).toNat op.o.f.toNat (parseLayout bs) (parseLayout (bs.drop 64)) then
      some (mvxEngines s j.l.ctx (parseLayout bs)) else none)

section
variable {op : Op} {s s1 s2 : State} {j : Iss} {bs : List Byte}

/-- An MVX whose records read and whose checks pass is accepted, opens its results, and completes with its number. -/
theorem mvx_of_clear (hi : Issues op [2, 3, 4] s j s1) (hregs : mvxMissing j op = false)
    (hrecord : RecordReads j (j.a64 op j.leader).toNat (if op.o.f.toNat ≤ 4 then 128 else 64) s1 s2 bs) (htrap : mvxTrap j op bs = none)
    (hpoison : frontPoisoned j op s2 (parseLayout bs) = false) : ∃ stack,
    mvx op s = .next (j.done op (mvxOpened j op (parseLayout bs) stack (acceptCmd s2 j 0x1002 (mvxCommand s2 j op bs))) j.lanes
      (j.dstWrites op.o.d j.leader (wordsOf 2 (BitVec.ofNat 128 (acceptCmd s2 j 0x1002 (mvxCommand s2 j op bs)).2)))
      (flagIf ((List.range ((parseLayout bs).dim 0)).any (hasLane j.m.dead)) fPSN)) := by
  have hlen : (if scaled op.o.f.toNat then 128 else 64) = if op.o.f.toNat ≤ 4 then 128 else 64 := by simp [scaled]
  rw [mvx, hi.run, if_neg (by simp [hregs]), hlen, withRecord_of_reads hrecord, mvxWith, htrap, if_neg (by simp [hpoison])]
  exact ⟨_, rfl⟩

end

theorem mvxDone (op : Op) : MvxDone (mvx op) op := by
  intro s j s1 s2 bs hi hregs hrecord htrap hpoison
  obtain ⟨stack, hrun⟩ := mvx_of_clear hi hregs hrecord htrap hpoison
  obtain ⟨-, hgo, -⟩ := id hrecord
  have hcaches : OnlyCaches s1 s2 := hgo.caches
  have hblocks : s2.blocks = s1.blocks := by rw [show s2 = _ from hcaches]
  obtain ⟨k, hk, he⟩ := hi.block
  rw [← hblocks] at hk
  have hnum : (acceptCmd s2 j 0x1002 (mvxCommand s2 j op bs)).2 = j.k.mvTl.n + 1 := by
    rw [acceptCmd_eq hk, he]
    rfl
  have hstands := acceptCmd_stands (hi.stands.of_blocks hblocks) 0x1002 (mvxCommand s2 j op bs)
  refine ⟨_, mvxOpened j op (parseLayout bs) stack _, _, _, _, _, _, hrun, hcaches,
    acceptCmd_accepted hk 0x1002 (mvxCommand s2 j op bs), ?_, mvxOpened_eq .., fun m hm => ?_, ?_⟩
  · rw [List.length_map, List.length_range]
  · rw [teamOf_mvxOpened hm, hnum]
    rfl
  · rw [hnum]
    exact done_completes (mvxOpened_stands hstands op _ stack) (writes_lane j op.o.d 2 _ (leader_lt j)) _

/-- Settles O28: MMA goes into the rendezvous latch, and the last to come is accepted there; MVX reads its records and is accepted. -/
theorem matrixInstructions : Obligations.MatrixInstructions := ⟨fun _ => mmaDone _, fun _ => mvxDone _⟩

end Sys2Proof

/-! The abort notices of a round whose deadline has passed (O49).

`AbortsRound` wants the notices sent as from the state ahead of the abort. A packet to another module keeps the deadline of its context's round
(`newPacket`), and the same clause wants that deadline gone once the round is aborted: `abortRound` takes it away before it sends, so its
notices keep none, where the clause wants the old one. Every round that its deadline ends in a ring of two members is such a case. -/

namespace Sys2Proof

open Sys2Proof.Machine Sys2Proof.Spec

/-- The deadline that the youngest packet of a fabric die keeps. -/
def lastDeadline (f : Fabric) : Option (Option Nat) := f.tx.getLast?.map (fun q => q.deadline)

theorem sendPacket_deadline (s : State) (q : TxPacket) : (sendPacket s q).1.deadline = q.deadline := by
  unfold sendPacket
  split <;> rfl

/-- A message to another module keeps the deadline of its context's round as it is sent (27 R500). -/
theorem lastDeadline_sendMsg {s : State} {m : Msg} (h : (msgHdr m).dst ≠ s.fab.rank) :
    lastDeadline (sendMsg s m).fab = some (ccOf s (msgHdr m).cc).round.deadline := by
  rw [sendMsg, if_neg h, lastDeadline, List.getLast?_concat, Option.map_some, sendPacket_deadline]
  rfl

/-- The abort notice to the one other member keeps no deadline: the round has none by then. -/
theorem lastDeadline_abortRound {s : State} {n r : Nat} (outcome rank : Nat) (ha : (ccOf s n).round.st = .active)
    (ho : otherRanks (ccOf s n) = [r]) (hr : r ≠ s.fab.rank) : lastDeadline (abortRound s n outcome rank).fab = some none := by
  have hact : active (ccOf s n) = true := decide_eq_true ha
  rw [abortRound, if_pos hact, ho]
  have hsent := lastDeadline_sendMsg (s := putCc s n (abortCc outcome rank (ccOf s n))) (m := .abort (ccHdr s n r)) hr
  exact hsent.trans (congrArg (fun c => some c.round.deadline) (ccOf_putCc ..))

theorem not_abortsRound_of_deadline {s : State} {n r d : Nat} (outcome rank : Nat) (ha : (ccOf s n).round.st = .active)
    (ho : otherRanks (ccOf s n) = [r]) (hr : r ≠ s.fab.rank) (hd : (ccOf s n).round.deadline = some d) :
    ¬ AbortsRound n outcome rank s (abortRound s n outcome rank) := by
  rintro ⟨-, -, -, -, -, -, -, -, hfab⟩
  rw [ho] at hfab
  have hsent := congrArg lastDeadline hfab
  rw [lastDeadline_abortRound outcome rank ha ho hr] at hsent
  have hkept : some none = some (ccOf s n).round.deadline := hsent.trans (lastDeadline_sendMsg (m := .abort (ccHdr s n r)) hr)
  rw [hd] at hkept
  cases hkept

/-- The deadline of an ACTIVE round that has come ends it (16 R362, R364). -/
theorem roundDeadline_aborts {s : State} {n d : Nat} (ha : (ccOf s n).round.st = .active) (hd : (ccOf s n).round.deadline = some d)
    (hle : d ≤ s.now) : exec (.roundDeadline n) s = .next (abortRound s n 1 0) := by
  change execRoundDeadline n s = _
  have hdue : (active (ccOf s n) && decide (d ≤ s.now)) = true := by simp [active, ha, hle]
  rw [execRoundDeadline, hd]
  exact congrArg _ (if_pos hdue)

/-- A context in a ring of ranks 0 and 1, its round ACTIVE with a deadline of 0. -/
def timedCc : Cc :=
  { Cc.unbound with st := .running, ring := some { gen := 1, pos := 0, ranks := [0, 1] },
                    round := { Round.none with st := .active, deadline := some 0 } }

/-- The machine of rank 0 right after reset with that context. -/
def timedState : State := { State.reset with ccs := [(0, timedCc)] }

theorem not_abortsArrive : ¬ AbortsArrive := by
  rintro ⟨-, hdeadline⟩
  obtain ⟨t, ht, haborts, -⟩ := hdeadline 0 timedState
  have hgoes : exec (.roundDeadline 0) timedState = .next (abortRound timedState 0 1 0) := roundDeadline_aborts rfl rfl (Nat.le_refl 0)
  have hround : AbortsRound 0 1 0 timedState t := haborts 0 rfl (Nat.le_refl 0) rfl
  obtain rfl : abortRound timedState 0 1 0 = t := by
    rw [hgoes] at ht
    injection ht
  exact not_abortsRound_of_deadline 1 0 rfl (r := 1) (by decide) (by decide) rfl hround

/-- Refutes O49: a round that ends by its deadline tells the other member by a notice whose packet keeps no deadline, and `AbortsRound` wants
the deadline of the round as it was. -/
theorem not_collectiveEvents : ¬ Obligations.CollectiveEvents := by
  unfold Obligations.CollectiveEvents
  rintro ⟨-, -, -, -, -, haborts, -⟩
  exact not_abortsArrive haborts

end Sys2Proof

/-! The three instruction sets read back what they wrote, and write back what they read (O56).

A word is its fields set side by side, so a word and a coding agree exactly where their fields, their opcode and their format bits do: one
equivalence for each format (`low16_eq_encodeC`, `low32_eq_encodeW`, `low64_eq_encodeL`, `eq_fusetWord`) serves both directions. What is left
is that the tables agree: a constructor is found from its coding (`Laws.Coding`), a constructor found is coded where it was found
(`formW_coded`, `formL_coded`), and the cells of the opcode map are those with constructors (`forms_of_cellOf`). -/

namespace Sys2Proof.Laws.Coding

open Sys2Proof Sys2Proof.Machine

/-- Every instruction is given back by the tables from its coding. -/
theorem statement_all (i : Instr) : Statement i := by
  cases i
  exacts [nopC16 .., nopW32 .., nopL64 .., movC16 .., movW32 .., movL64 .., iaddC16 .., iaddW32 .., iaddL64 .., isubC16 .., isubW32 ..,
    isubL64 .., imulC16 .., imulW32 .., imulL64 .., imad .., idivW32 .., idivL64 .., iremW32 .., iremL64 .., iminW32 .., iminL64 ..,
    imaxW32 .., imaxL64 .., icmpW32 .., icmpL64 .., sel .., andC16 .., andW32 .., andL64 .., orC16 .., orW32 .., orL64 .., xorC16 ..,
    xorW32 .., xorL64 .., andnW32 .., andnL64 .., ornW32 .., ornL64 .., xnorW32 .., xnorL64 .., notW32 .., notL64 .., shlC16 ..,
    shlW32 .., shlL64 .., shrlC16 .., shrlW32 .., shrlL64 .., shraC16 .., shraW32 .., shraL64 .., rotlW32 .., rotlL64 .., rotrW32 ..,
    rotrL64 .., shf .., bfeW32 .., bfeL64 .., bfi .., popcW32 .., popcL64 .., clzW32 .., clzL64 .., ctzW32 .., ctzL64 .., brevW32 ..,
    brevL64 .., iabsW32 .., iabsL64 .., inegW32 .., inegL64 .., add64W32 .., add64L64 .., sub64W32 .., sub64L64 .., leaW32 .., leaL64 ..,
    shl64W32 .., shl64L64 .., shr64W32 .., shr64L64 .., cmp64W32 .., cmp64L64 .., bysel .., idot4 .., faddC16 .., faddW32 .., faddL64 ..,
    fsubC16 .., fsubW32 .., fsubL64 .., fmulC16 .., fmulW32 .., fmulL64 .., ffma .., fminC16 .., fminW32 .., fminL64 .., fmaxC16 ..,
    fmaxW32 .., fmaxL64 .., fminpW32 .., fminpL64 .., fmaxpW32 .., fmaxpL64 .., fcmpW32 .., fcmpL64 .., fabsW32 .., fabsL64 ..,
    fnegW32 .., fnegL64 .., fcpysW32 .., fcpysL64 .., fdivW32 .., fdivL64 .., fsqrtW32 .., fsqrtL64 .., fclassW32 .., fclassL64 ..,
    frndW32 .., frndL64 .., fscaleW32 .., fscaleL64 .., fdot2 .., cvtW32 .., cvtL64 .., pack8W32 .., pack8L64 .., unpk8W32 ..,
    unpk8L64 .., pack4W32 .., pack4L64 .., unpk4W32 .., unpk4L64 .., bqscalW32 .., bqscalL64 .., bqencW32 .., bqencL64 .., bqdecW32 ..,
    bqdecL64 .., mxscalW32 .., mxscalL64 .., shflW32 .., shflL64 .., voteW32 .., voteL64 .., reduxW32 .., reduxL64 .., scanW32 ..,
    scanL64 .., getsW32 .., getsL64 .., actW32 .., actL64 .., maskwW32 .., maskwL64 .., bcastW32 .., bcastL64 .., ldW32 .., ldL64 ..,
    st .., atom .., atom64 .., fence .., cpy32 .., waittagW32 .., waittagL64 .., tcopy .., mcast .., spallocW32 .., spallocL64 ..,
    spfreeW32 .., spfreeL64 .., femarkW32 .., femarkL64 .., ldhintW32 .., ldhintL64 .., cflushW32 .., cflushL64 .., ldvW32 .., ldvL64 ..,
    bra .., joinW32 .., joinL64 .., call .., callIndirectW32 .., callIndirectL64 .., retW32 .., retL64 .., exitW32 .., exitL64 ..,
    brdq .., trapW32 .., trapL64 .., bkptW32 .., bkptL64 .., yieldW32 .., yieldL64 .., barW32 .., barL64 .., attachW32 .., attachL64 ..,
    detachW32 .., detachL64 .., growW32 .., growL64 .., shrqW32 .., shrqL64 .., tlwaitW32 .., tlwaitL64 .., tlreadW32 .., tlreadL64 ..,
    tlsigW32 .., tlsigL64 .., xset .., xget .., pushdW32 .., pushdL64 .., accallocW32 .., accallocL64 .., accfreeW32 .., accfreeL64 ..,
    accacqW32 .., accacqL64 .., accrelW32 .., accrelL64 .., mma .., accldW32 .., accldL64 .., accst .., acczeroW32 .., acczeroL64 ..,
    mvx .., cenc .., cdec .., tsetW32 .., tsetL64 .., rcpW32 .., rcpL64 .., rsqW32 .., rsqL64 .., ex2W32 .., ex2L64 .., lg2W32 ..,
    lg2L64 .., sinW32 .., sinL64 .., cosW32 .., cosL64 .., tanhW32 .., tanhL64 .., sgmdW32 .., sgmdL64 .., rngW32 .., rngL64 ..,
    clmulW32 .., clmulL64 .., rdsr .., wrsr .., rettW32 .., rettL64 .., tlbinvW32 .., tlbinvL64 .., haltW32 .., haltL64 .., fusetLi ..,
    fusetAdd .., fusetSub .., fusetAnd .., fusetOr .., fusetShl .., fusetShr .., fusetCmp .., fusetLd .., fusetSt .., fusetBr ..,
    fusetBz .., fusetBnz .., fusetCall .., fusetRet .., fusetRing .., fusetTtw .., fusetArm .., fusetDisarm .., fusetPost ..,
    fusetWaitpost .., fusetSend .., fusetWaitsb .., fusetWaittl .., fusetSigtl .., fusetTmo .., fusetRound .., fusetWaitrd ..,
    fusetAbort .., fusetStatus .., fusetWalloc .., fusetWfree .., fusetWckpt .., fusetWrest .., fusetWfold .., fusetReform ..,
    fusetEvent .., fusetHalt .., resultWriteback .., splitAged .., watchdogExpiry .., asyncTrapDelivery .., placeGang ..,
    shrinkBlockedTimeout .., shrinkLimitExpiry .., saveComplete .., gangRestore .., spfreeTakesEffect .., copyCommandComplete ..,
    engineTranslationFault .., cpy32Complete .., mcastArrival .., mcastComplete .., mmaComplete .., mvxResult ..,
    faultRecordResolution .., uncorrectableError .., correctableError .., blockCommit .., pairCompare .., logHarvest .., entryFire ..,
    firingComplete .., curdArrival .., curdReply .., postedNotice .., abortNotice .., roundDeadline .., wheyPageIn .., reformReport ..,
    reformCollectionEnd .., reformResults .., commandNop .., submit .., signal .., notify .., resume .., cancel .., dispatch ..,
    ctxnew .., ctxkill .., contextKillComplete .., ctxdel .., tlown .., faultres .., inval .., preempt .., ccbind .., ccstart ..,
    ccstop .., dbgstop .., dbgresume .., dbgstep .., dbgsnap .., dbgbp .., dbgmode .., fwstage .., fwcommit .., fwrollback ..,
    selftest .., selftestPhaseEnd .., seckey .., cmdtailWrite .., cplheadWrite .., channelEnable .., snoopMode .., chstatClear ..,
    dutyWrite .., logheadWrite .., logstatClear .., portEnable .., portRetrain .., registerWrite .., hostMemoryAccess .., spdmRequest ..,
    boot .., portLockHeld .., trainingTimeout .., lockLoss .., fecUncorrectableBurst .., winfailWindow .., sprayRejoin ..,
    packetReceive .., packetAck .., retransmitTimeout .., keyGraceExpiry .., droopTrip .., inputUndervoltage .., brownout ..,
    brownoutRecovery .., powerLoss .., thermalThrottle .., thermalShutdown .., lineSetFull .., reservedEncoding ..,
    fusetReservedOpcode .., unassignedCommand ..]

end Sys2Proof.Laws.Coding

namespace Sys2Proof

open Sys2Proof.Machine Sys2Proof.Spec

/-! ## The opcode map against the constructors (09 R226, 10 R225) -/

theorem codedOf_formC {op : Nat} (h : op < 16) (o : COps) : codedOf (formC op o) = .c16 op o := by
  interval_cases op <;> rfl

/-- A W32 form of the tables is coded with its major, and its minor is one of its row's. -/
theorem formW_coded {major f : Nat} {k : WOps → Instr} (h : formW major f = some k) :
    ∃ minors, f ∈ minors ∧ ∀ o, codedOf (k o) = .w32 major minors o := by
  unfold formW at h
  split_ifs at h
  on_goal 1 => unfold formWLow at h
  on_goal 2 => unfold formWFloat at h
  on_goal 3 => unfold formWLane at h
  on_goal 4 => unfold formWControl at h
  on_goal 5 => unfold formWHigh at h
  all_goals
    repeat' split at h
    all_goals cases h
    all_goals exact ⟨_, by simp; omega, fun _ => rfl⟩

/-- An L64 or X96 form of the tables is coded with its major, and its minor is one of its row's. -/
theorem formL_coded {major f : Nat} {k : LOps → Instr} (h : formL major f = some k) :
    ∃ minors, f ∈ minors ∧ ∀ o, codedOf (k o) = .l64 major minors o := by
  unfold formL at h
  split_ifs at h
  on_goal 1 => unfold formLLow at h
  on_goal 2 => unfold formLFloat at h
  on_goal 3 => unfold formLLane at h
  on_goal 4 => unfold formLControl at h
  on_goal 5 => unfold formLHigh at h
  all_goals
    repeat' split at h
    all_goals cases h
    all_goals exact ⟨_, by simp; omega, fun _ => rfl⟩

/-- Every cell of the opcode map has its constructors: an L64 one, and a W32 one where the cell has that form. -/
theorem forms_of_cellOf {major f : Nat} (hf : f < 16) : (cellOf major f).isSome = true →
    (formL major f).isSome = true ∧ ((cellOf major f).any (fun k => k.w32) = true → (formW major f).isSome = true) := by
  unfold cellOf
  split_ifs
  on_goal 1 => unfold cellInteger
  on_goal 2 => unfold cellFloat
  on_goal 3 => unfold cellConvert
  on_goal 4 => unfold cellCrossLane
  on_goal 5 => unfold cellMemory
  on_goal 6 => unfold cellControl
  on_goal 7 => unfold cellMatrix
  on_goal 8 => unfold cellSystem
  all_goals
    split
    any_goals (intro h; contradiction)
    all_goals
      revert f
      decide

theorem formFuset_coded {op : Nat} {k : FOps → Instr} (h : formFuset op = some k) (o : FOps) : codedOf (k o) = .fuset op o := by
  unfold formFuset at h
  split at h <;> cases h <;> rfl

theorem formFuset_eq_none {op : Nat} : formFuset op = none ↔ op = 0 ∨ 0x26 < op := by
  unfold formFuset
  split
  case h_39 => grind
  all_goals simp

theorem formCommand_coded {op : Nat} (h : assignedCommand op = true) (c : Cmd) : codedOf (formCommand op c) = .command op c := by
  unfold formCommand
  split
  case h_29 => simp_all [assignedCommand]
  all_goals rfl

theorem formCommand_unassigned {op : Nat} (h : assignedCommand op = false) (c : Cmd) : formCommand op c = .unassignedCommand c := by
  unfold formCommand
  split
  case h_29 => rfl
  all_goals cases h

/-! ## Forms that the opcode map does not list (R233) -/

/-- The map has no L64 form of a cell, or, with `x`, no X96 form. -/
def LacksL (major f : Nat) (x : Bool) : Prop := ∀ k, cellOf major f = some k → x = true ∧ k.lit = .absent

/-- The map has no W32 form of a cell. -/
def LacksW (major f : Nat) : Prop := ∀ k, cellOf major f = some k → k.w32 = false

theorem lacksL_of_formL {major f : Nat} {x : Bool} (hf : f < 16) (h : formL major f = none) : LacksL major f x := by
  intro k hk
  have := (forms_of_cellOf (major := major) hf (by simp [hk])).1
  simp [h] at this

theorem lacksW_of_formW {major f : Nat} (hf : f < 16) (h : formW major f = none) : LacksW major f := by
  intro k hk
  have := (forms_of_cellOf (major := major) hf (by simp [hk])).2
  simpa [h, hk] using this

theorem firstError_ne {d : DecodeError} {x y : Option DecodeError} (hx : x ≠ some d) (hy : y ≠ some d) : firstError x y ≠ some d := by
  cases x with
  | none => exact hy
  | some e => exact hx

theorem fieldOk_ne_noForm (k : FieldSpec) (v : BitVec 8) : fieldOk k v ≠ some .noForm := by
  unfold fieldOk
  dsimp only
  repeat' split
  all_goals simp

/-- The check of a full form finds no form exactly where the map has none: every other finding is about a field. -/
theorem staticCheck_noForm {major : Nat} {o : LOps} : staticCheck major o = some .noForm ↔ LacksL major o.f.toNat o.lit.isSome := by
  unfold staticCheck LacksL
  split
  · simp_all
  · rename_i k0 hk0
    simp only [hk0, Option.some.injEq, forall_eq']
    by_cases hlit : (o.lit.isSome && decide (k0.lit = .absent)) = true
    · rw [if_pos hlit]
      simpa using hlit
    · rw [if_neg hlit]
      refine iff_of_false ?_ (by simpa using hlit)
      iterate 4 refine firstError_ne (fieldOk_ne_noForm _ _) ?_
      iterate 4 refine firstError_ne (by split <;> simp) ?_
      split <;> simp

theorem staticCheckW_noForm {major : Nat} {o : WOps} : staticCheckW major o = some .noForm ↔ LacksW major o.f.toNat := by
  unfold staticCheckW LacksW
  split
  · simp_all
  · rename_i k0 hk0
    simp only [hk0, Option.some.injEq, forall_eq']
    split_ifs with hw
    · refine iff_of_false (fun h => ?_) (by simp [hw])
      exact absurd (staticCheck_noForm.1 h k0 hk0).1 (by simp [WOps.toL])
    · simpa using hw

/-! ## Words as their fields (R213, R215, R217, R218) -/

theorem append_eq_append_iff {v w : Nat} {a c : BitVec v} {b d : BitVec w} : a ++ b = c ++ d ↔ a = c ∧ b = d := by
  refine ⟨fun h => ⟨?_, ?_⟩, fun ⟨ha, hb⟩ => by rw [ha, hb]⟩
  · rw [← BitVec.extractLsb'_append_eq_left (a := a) (b := b), h, BitVec.extractLsb'_append_eq_left]
  · rw [← BitVec.extractLsb'_append_eq_right (a := a) (b := b), h, BitVec.extractLsb'_append_eq_right]

theorem extractLsb'_one {m : Nat} (w : BitVec m) (i : Nat) : w.extractLsb' i 1 = BitVec.ofBool (w.getLsbD i) := by
  ext j hj
  simp [Nat.lt_one_iff.1 hj]

section

variable {w : BitVec 96} {i : Instr} {major op : Nat}

/-- The first parcel of a word is a C16 parcel's bits exactly where its fields, its OP and its format bit are. -/
theorem low16_eq_encodeC {o : COps} :
    w.extractLsb' 0 16 = encodeC op o ↔ cFields w = o ∧ w.extractLsb' 1 4 = BitVec.ofNat 4 op ∧ w.extractLsb' 0 1 = 0#1 := by
  have hw : w.extractLsb' 0 16 = (cFields w).b ++ (cFields w).d ++ w.extractLsb' 1 4 ++ w.extractLsb' 0 1 := by
    rw [cFields]
    iterate 3 rw [BitVec.extractLsb'_append_extractLsb'_eq_extractLsb' (by rfl)]
  obtain ⟨d, b⟩ := o
  rw [hw, encodeC, append_eq_append_iff, append_eq_append_iff, append_eq_append_iff]
  simp only [cFields, COps.mk.injEq]
  tauto

theorem low32_eq_encodeW {o : WOps} :
    w.extractLsb' 0 32 = encodeW major o ↔ wFields w = o ∧ w.extractLsb' 2 8 = BitVec.ofNat 8 major ∧ w.extractLsb' 0 2 = 1#2 := by
  have hw : w.extractLsb' 0 32 =
      (wFields w).f ++ (wFields w).b ++ (wFields w).a ++ (wFields w).d ++ w.extractLsb' 2 8 ++ w.extractLsb' 0 2 := by
    rw [wFields]
    iterate 5 rw [BitVec.extractLsb'_append_extractLsb'_eq_extractLsb' (by rfl)]
  obtain ⟨f, d, a, b⟩ := o
  rw [hw, encodeW]
  iterate 5 rw [append_eq_append_iff]
  simp only [wFields, WOps.mk.injEq]
  tauto

theorem low64_eq_encodeL {o : LOps} {x : Bool} {fmt : BitVec 3} (hx : o.lit = if x then some (w.extractLsb' 64 32) else none) :
    w.extractLsb' 0 64 = encodeL major o fmt ↔ lFields w x = o ∧ w.extractLsb' 3 8 = BitVec.ofNat 8 major ∧ w.extractLsb' 0 3 = fmt := by
  have hw : w.extractLsb' 0 64 = encodeL (w.extractLsb' 3 8).toNat (lFields w x) (w.extractLsb' 0 3) := by
    rw [encodeL, BitVec.ofNat_toNat, BitVec.setWidth_eq, lFields]
    simp only [← extractLsb'_one]
    iterate 11 rw [BitVec.extractLsb'_append_extractLsb'_eq_extractLsb' (by rfl)]
  obtain ⟨f, d, a, b, c, p, pn, ru, rm, sc, lit⟩ := o
  rw [hw, encodeL, encodeL]
  iterate 11 rw [append_eq_append_iff]
  simp only [lFields, LOps.mk.injEq, BitVec.ofBool_eq_iff_eq, BitVec.ofNat_toNat, BitVec.setWidth_eq]
  tauto

theorem format_c16 : w.extractLsb' 0 1 = 0#1 ↔ w.getLsbD 0 = false := by
  rw [extractLsb'_one, ← BitVec.ofBool_eq_iff_eq]
  rfl

theorem low2_eq_iff {a b : Bool} : w.extractLsb' 0 2 = BitVec.ofBool b ++ BitVec.ofBool a ↔ w.getLsbD 0 = a ∧ w.getLsbD 1 = b := by
  rw [← BitVec.extractLsb'_append_extractLsb'_eq_extractLsb' (start₂ := 1) (len₂ := 1) (len₁ := 1) rfl, append_eq_append_iff,
    extractLsb'_one, extractLsb'_one, BitVec.ofBool_eq_iff_eq, BitVec.ofBool_eq_iff_eq, and_comm]

theorem format_w32 : w.extractLsb' 0 2 = 1#2 ↔ w.getLsbD 0 = true ∧ w.getLsbD 1 = false := low2_eq_iff (a := true) (b := false)

/-- The format bits of an L64 word, or, with `x`, of an X96 word. -/
def formatL (x : Bool) : BitVec 3 := BitVec.ofBool x ++ 3#2

theorem format_l64 {x : Bool} : w.extractLsb' 0 3 = formatL x ↔ (w.getLsbD 0 = true ∧ w.getLsbD 1 = true) ∧ w.getLsbD 2 = x := by
  rw [formatL, ← BitVec.extractLsb'_append_extractLsb'_eq_extractLsb' (start₂ := 2) (len₂ := 1) (len₁ := 2) rfl, append_eq_append_iff,
    extractLsb'_one, BitVec.ofBool_eq_iff_eq, and_comm, ← low2_eq_iff]
  rfl

/-! ## The bits that an instruction occupies (R210, R211) -/

theorem and_lowMask {m : Nat} (w : BitVec m) (n : Nat) : w &&& BitVec.ofNat m (2 ^ n - 1) = (w.extractLsb' 0 n).setWidth m := by
  ext i hi
  simp [Nat.testBit_two_pow_sub_one, hi, BitVec.getElem_eq_testBit_toNat, Bool.and_comm]

theorem ownBits_eq (w : BitVec 96) : ownBits w = (w.extractLsb' 0 (16 * parcelCount (firstParcel w))).setWidth 96 := and_lowMask ..

/-- The first parcel of a word holds its format bits. -/
theorem parcelCount_firstParcel (w : BitVec 96) : parcelCount (firstParcel w) =
    if w.getLsbD 0 = false then 1 else if w.getLsbD 1 = false then 2 else if w.getLsbD 2 = false then 4 else 6 := by
  simp [parcelCount, firstParcel]

theorem ownBits_c16 (h : w.extractLsb' 0 1 = 0#1) : ownBits w = (w.extractLsb' 0 16).setWidth 96 := by
  rw [ownBits_eq, parcelCount_firstParcel, if_pos (format_c16.1 h)]

theorem ownBits_w32 (h : w.extractLsb' 0 2 = 1#2) : ownBits w = (w.extractLsb' 0 32).setWidth 96 := by
  obtain ⟨h0, h1⟩ := format_w32.1 h
  rw [ownBits_eq, parcelCount_firstParcel, if_neg (by simp [h0]), if_pos h1]

theorem ownBits_l64 {x : Bool} (h : w.extractLsb' 0 3 = formatL x) :
    ownBits w = if x then w else (w.extractLsb' 0 64).setWidth 96 := by
  obtain ⟨⟨h0, h1⟩, rfl⟩ := format_l64.1 h
  rw [ownBits_eq, parcelCount_firstParcel, if_neg (by simp [h0]), if_neg (by simp [h1])]
  cases h2 : w.getLsbD 2 <;> simp

/-! ## The decoder by format (R211) -/

theorem decode_c16 (h : w.extractLsb' 0 1 = 0#1) : decode w = decodeC w := if_pos (format_c16.1 h)

theorem decode_w32 (h : w.extractLsb' 0 2 = 1#2) : decode w = decodeW w := by
  obtain ⟨h0, h1⟩ := format_w32.1 h
  rw [decode, if_neg (by simp [h0]), if_pos h1]

theorem decode_l64 {x : Bool} (h : w.extractLsb' 0 3 = formatL x) : decode w = decodeL w x := by
  obtain ⟨⟨h0, h1⟩, rfl⟩ := format_l64.1 h
  rw [decode, if_neg (by simp [h0]), if_neg (by simp [h1])]
  split
  · rename_i h2
    rw [h2]
  · rename_i h2
    rw [Bool.eq_true_of_not_eq_false h2]

/-! ## Reserved encodings (R233) -/

theorem reservedWord_w32 (h : w.extractLsb' 0 2 = 1#2) :
    reservedWord w = true ↔ LacksW (w.extractLsb' 2 8).toNat (wFields w).f.toNat ∧ w.toNat < 2 ^ 32 := by
  obtain ⟨h0, h1⟩ := format_w32.1 h
  simp only [reservedWord, h0, h1, LacksW, wFields]
  cases cellOf (w.extractLsb' 2 8).toNat (w.extractLsb' 28 4).toNat <;> simp

theorem reservedWord_l64 {x : Bool} (h : w.extractLsb' 0 3 = formatL x) :
    reservedWord w = true ↔ LacksL (w.extractLsb' 3 8).toNat (lFields w x).f.toNat x ∧ (x = true ∨ w.toNat < 2 ^ 64) := by
  obtain ⟨⟨h0, h1⟩, h2⟩ := format_l64.1 h
  simp only [reservedWord, h0, h1, h2, LacksL, lFields]
  cases cellOf (w.extractLsb' 3 8).toNat (w.extractLsb' 53 4).toNat <;> cases x <;> simp

theorem low_setWidth {n m : Nat} (v : BitVec n) (h : n ≤ m) : (v.setWidth m).extractLsb' 0 n = v := by
  rw [BitVec.extractLsb'_setWidth_of_le (by omega), BitVec.extractLsb'_eq_self]

/-! ## Decoding what was encoded -/

theorem decode_encodeC {o : COps} (hop : op < 16) (h : staticCheckC op o = none) :
    decode ((encodeC op o).setWidth 96) = .ok (formC op o) := by
  obtain ⟨ho, hcell, hfmt⟩ := low16_eq_encodeC.1 (low_setWidth (encodeC op o) (m := 96) (by decide))
  rw [decode_c16 hfmt, decodeC, ho, hcell, BitVec.toNat_ofNat, Nat.mod_eq_of_lt hop, h]

theorem decode_encodeW {o : WOps} {k : WOps → Instr} (hmajor : major < 256) (hk : formW major o.f.toNat = some k)
    (h : staticCheckW major o = none) : decode ((encodeW major o).setWidth 96) = .ok (k o) := by
  obtain ⟨ho, hcell, hfmt⟩ := low32_eq_encodeW.1 (low_setWidth (encodeW major o) (m := 96) (by decide))
  rw [decode_w32 hfmt, decodeW, ho, hcell, BitVec.toNat_ofNat, Nat.mod_eq_of_lt hmajor, hk, h]

/-- The word of an L64 instruction, or of an X96 one with its literal (R217, R218). -/
def wordL (major : Nat) (o : LOps) : BitVec 96 :=
  match o.lit with
  | none => (encodeL major o (formatL false)).setWidth 96
  | some v => v ++ encodeL major o (formatL true)

theorem wordL_low (major : Nat) (o : LOps) : (wordL major o).extractLsb' 0 64 = encodeL major o (formatL o.lit.isSome) := by
  unfold wordL
  split
  · rename_i h
    rw [low_setWidth _ (by decide), h]
    rfl
  · rename_i h
    rw [BitVec.extractLsb'_append_eq_right, h]
    rfl

theorem wordL_lit (major : Nat) (o : LOps) : o.lit = if o.lit.isSome then some ((wordL major o).extractLsb' 64 32) else none := by
  unfold wordL
  cases o.lit with
  | none => rfl
  | some v => exact congrArg some BitVec.extractLsb'_append_eq_left.symm

theorem decode_wordL {o : LOps} {k : LOps → Instr} (hmajor : major < 256) (hk : formL major o.f.toNat = some k)
    (h : staticCheck major o = none) : decode (wordL major o) = .ok (k o) := by
  obtain ⟨ho, hcell, hfmt⟩ := (low64_eq_encodeL (wordL_lit major o)).1 (wordL_low major o)
  rw [decode_l64 hfmt, decodeL, ho, hcell, BitVec.toNat_ofNat, Nat.mod_eq_of_lt hmajor, hk, h]

/-- A word that the map lists no form for decodes to itself. -/
theorem decodeW_lacks {own : BitVec 96} (h : LacksW (w.extractLsb' 2 8).toNat (wFields w).f.toNat) (hown : w &&& 0xFFFFFFFF#96 = own) :
    decodeW w = .ok (.reservedEncoding own) := by
  subst hown
  rw [decodeW, staticCheckW_noForm.2 h]
  split <;> rfl

theorem lFields_lit (w : BitVec 96) (x : Bool) : (lFields w x).lit.isSome = x := by
  cases x <;> rfl

theorem decodeL_lacks {x : Bool} {own : BitVec 96} (h : LacksL (w.extractLsb' 3 8).toNat (lFields w x).f.toNat x)
    (hown : (if x then w else w &&& 0xFFFFFFFFFFFFFFFF#96) = own) : decodeL w x = .ok (.reservedEncoding own) := by
  subst hown
  rw [decodeL, staticCheck_noForm.2 (by rwa [lFields_lit])]
  split <;> rfl

theorem setWidth_low_of_lt {n : Nat} (h : w.toNat < 2 ^ n) : (w.extractLsb' 0 n).setWidth 96 = w := by
  apply BitVec.eq_of_toNat_eq
  rw [BitVec.toNat_setWidth, BitVec.extractLsb'_toNat, Nat.shiftRight_zero, Nat.mod_eq_of_lt h, Nat.mod_eq_of_lt w.isLt]

/-- A word's format bits are those of one of the formats (R211). -/
theorem format_cases (w : BitVec 96) : w.extractLsb' 0 1 = 0#1 ∨ w.extractLsb' 0 2 = 1#2 ∨ ∃ x, w.extractLsb' 0 3 = formatL x := by
  simp only [format_c16, format_w32, format_l64]
  cases w.getLsbD 0 <;> cases w.getLsbD 1 <;> simp

theorem decode_reservedWord (h : reservedWord w = true) : decode w = .ok (.reservedEncoding w) := by
  obtain hfmt | hfmt | ⟨x, hfmt⟩ := format_cases w
  · rw [reservedWord, if_pos (format_c16.1 hfmt)] at h
    cases h
  · obtain ⟨hl, hlt⟩ := (reservedWord_w32 hfmt).1 h
    rw [decode_w32 hfmt, decodeW_lacks hl ((and_lowMask w 32).trans (setWidth_low_of_lt hlt))]
  · obtain ⟨hl, hlt⟩ := (reservedWord_l64 hfmt).1 h
    rw [decode_l64 hfmt, decodeL_lacks hl]
    split
    · rfl
    · rename_i hx
      exact (and_lowMask w 64).trans (setWidth_low_of_lt (hlt.resolve_left hx))

theorem formC_of_coded {o : COps} (hc : codedOf i = .c16 op o) : op < 16 ∧ formC op o = i := by
  simpa only [Laws.Coding.Statement, hc] using Laws.Coding.statement_all i

theorem formFuset_of_coded {o : FOps} (hc : codedOf i = .fuset op o) : op < 256 ∧ ∃ k, formFuset op = some k ∧ k o = i := by
  simpa only [Laws.Coding.Statement, hc, Option.map_eq_some_iff] using Laws.Coding.statement_all i

theorem formCommand_of_coded {c : Cmd} (hc : codedOf i = .command op c) : op < 256 ∧ formCommand op c = i := by
  simpa only [Laws.Coding.Statement, hc] using Laws.Coding.statement_all i

theorem formW_of_coded {minors : List Nat} {o : WOps} (hc : codedOf i = .w32 major minors o) (hf : o.f.toNat ∈ minors) :
    major < 256 ∧ ∃ k, formW major o.f.toNat = some k ∧ k o = i := by
  have h := Laws.Coding.statement_all i
  simp only [Laws.Coding.Statement, hc] at h
  obtain ⟨hmajor, hforms⟩ := h
  exact ⟨hmajor, Option.map_eq_some_iff.1 (hforms.of_mem _ hf).2⟩

theorem formL_of_coded {minors : List Nat} {o : LOps} (hc : codedOf i = .l64 major minors o) (hf : o.f.toNat ∈ minors) :
    major < 256 ∧ ∃ k, formL major o.f.toNat = some k ∧ k o = i := by
  have h := Laws.Coding.statement_all i
  simp only [Laws.Coding.Statement, hc] at h
  obtain ⟨hmajor, hforms⟩ := h
  exact ⟨hmajor, Option.map_eq_some_iff.1 (hforms.of_mem _ hf).2⟩

theorem encode_l64 {minors : List Nat} {o : LOps} (hc : codedOf i = .l64 major minors o) : encode i = some (wordL major o) := by
  simp only [encode, hc, wordL]
  cases o.lit <;> rfl

theorem wf_c16 {o : COps} (hc : codedOf i = .c16 op o) : i.wf = true ↔ staticCheckC op o = none := by
  simp only [Instr.wf, hc, Option.isNone_iff_eq_none]

theorem wf_w32 {minors : List Nat} {o : WOps} (hc : codedOf i = .w32 major minors o) :
    i.wf = true ↔ o.f.toNat ∈ minors ∧ staticCheckW major o = none := by
  simp only [Instr.wf, hc, Bool.and_eq_true, List.contains_iff_mem, Option.isNone_iff_eq_none]

theorem wf_l64 {minors : List Nat} {o : LOps} (hc : codedOf i = .l64 major minors o) :
    i.wf = true ↔ o.f.toNat ∈ minors ∧ staticCheck major o = none := by
  simp only [Instr.wf, hc, Bool.and_eq_true, List.contains_iff_mem, Option.isNone_iff_eq_none]

/-- What decoding gives back of a well-formed instruction's encoding: the instruction (09 R210 to R218). -/
theorem decode_of_encode (hwf : i.wf = true) (h : encode i = some w) : decode w = .ok i := by
  cases hc : codedOf i with
  | c16 op o =>
    obtain ⟨hop, hi⟩ := formC_of_coded hc
    simp only [encode, hc, Option.some.injEq] at h
    subst h
    rw [decode_encodeC hop ((wf_c16 hc).1 hwf), hi]
  | w32 major minors o =>
    simp only [encode, hc, Option.some.injEq] at h
    obtain ⟨hf, hs⟩ := (wf_w32 hc).1 hwf
    obtain ⟨hmajor, k, hk, hi⟩ := formW_of_coded hc hf
    subst h
    rw [decode_encodeW hmajor hk hs, hi]
  | l64 major minors o =>
    rw [encode_l64 hc, Option.some.injEq] at h
    obtain ⟨hf, hs⟩ := (wf_l64 hc).1 hwf
    obtain ⟨hmajor, k, hk, hi⟩ := formL_of_coded hc hf
    subst h
    rw [decode_wordL hmajor hk hs, hi]
  | event =>
    simp only [encode, hc] at h
    split at h
    · cases h
      exact decode_reservedWord hwf
    · cases h
  | _ => simp [encode, hc] at h

/-! ## Encoding what was decoded -/

theorem ofNat_toNat_self {n : Nat} (v : BitVec n) : v = BitVec.ofNat n v.toNat := by
  rw [BitVec.ofNat_toNat, BitVec.setWidth_eq]

theorem encodeC_cFields (h : w.extractLsb' 0 1 = 0#1) : encodeC (w.extractLsb' 1 4).toNat (cFields w) = w.extractLsb' 0 16 :=
  (low16_eq_encodeC.2 ⟨rfl, ofNat_toNat_self _, h⟩).symm

theorem encodeW_wFields (h : w.extractLsb' 0 2 = 1#2) :
    encodeW (w.extractLsb' 2 8).toNat (wFields w) = w.extractLsb' 0 32 :=
  (low32_eq_encodeW.2 ⟨rfl, ofNat_toNat_self _, h⟩).symm

theorem encodeL_lFields {x : Bool} (h : w.extractLsb' 0 3 = formatL x) :
    encodeL (w.extractLsb' 3 8).toNat (lFields w x) (formatL x) = w.extractLsb' 0 64 :=
  ((low64_eq_encodeL rfl).2 ⟨rfl, ofNat_toNat_self _, h⟩).symm

theorem wordL_lFields {x : Bool} (h : w.extractLsb' 0 3 = formatL x) :
    wordL (w.extractLsb' 3 8).toNat (lFields w x) = ownBits w := by
  have hlow := encodeL_lFields h
  rw [ownBits_l64 h]
  cases x
  · exact congrArg (BitVec.setWidth 96) hlow
  · calc wordL (w.extractLsb' 3 8).toNat (lFields w true)
      _ = w.extractLsb' 64 32 ++ w.extractLsb' 0 64 := congrArg (w.extractLsb' 64 32 ++ ·) hlow
      _ = w := by rw [BitVec.extractLsb'_append_extractLsb'_eq_extractLsb' (by rfl), BitVec.extractLsb'_eq_self]

/-- The instruction is well formed and its encoding is the bits of the word that are its own. -/
def EncodesBack (w : BitVec 96) (i : Instr) : Prop := i.wf = true ∧ encode i = some (ownBits w)

theorem decodeC_encodesBack (hfmt : w.extractLsb' 0 1 = 0#1) (h : decodeC w = .ok i) : EncodesBack w i := by
  rw [decodeC] at h
  split at h
  · rename_i hs
    cases h
    have hc := codedOf_formC (w.extractLsb' 1 4).isLt (cFields w)
    exact ⟨(wf_c16 hc).2 hs, by simp only [encode, hc, ownBits_c16 hfmt, encodeC_cFields hfmt]⟩
  · cases h

theorem reservedW_encodesBack (h : w.extractLsb' 0 2 = 1#2)
    (hl : LacksW (w.extractLsb' 2 8).toNat (wFields w).f.toNat) : EncodesBack w (.reservedEncoding (w &&& 0xFFFFFFFF#96)) := by
  have hown : w &&& 0xFFFFFFFF#96 = (w.extractLsb' 0 32).setWidth 96 := and_lowMask w 32
  rw [hown]
  refine ⟨?_, by rw [ownBits_w32 h]; rfl⟩
  have hlow := (low_setWidth (w.extractLsb' 0 32) (m := 96) (by decide)).trans (encodeW_wFields h).symm
  obtain ⟨hf, hm, hfmt⟩ := low32_eq_encodeW.1 hlow
  refine (reservedWord_w32 hfmt).2 ⟨by rwa [hf, hm, ← ofNat_toNat_self], ?_⟩
  rw [BitVec.toNat_setWidth_of_le (by decide)]
  exact BitVec.isLt _

theorem decodeW_encodesBack (hfmt : w.extractLsb' 0 2 = 1#2) (h : decodeW w = .ok i) : EncodesBack w i := by
  rw [decodeW] at h
  split at h
  · rename_i hk
    cases h
    exact reservedW_encodesBack hfmt (lacksW_of_formW (BitVec.isLt _) hk)
  · rename_i k hk
    split at h
    · rename_i hs
      cases h
      obtain ⟨minors, hf, hc⟩ := formW_coded hk
      exact ⟨(wf_w32 (hc _)).2 ⟨hf, hs⟩, by simp only [encode, hc, ownBits_w32 hfmt, encodeW_wFields hfmt]⟩
    · rename_i hs
      cases h
      exact reservedW_encodesBack hfmt (staticCheckW_noForm.1 hs)
    · cases h

theorem reservedL_encodesBack {x : Bool} (h : w.extractLsb' 0 3 = formatL x)
    (hl : LacksL (w.extractLsb' 3 8).toNat (lFields w x).f.toNat x) :
    EncodesBack w (.reservedEncoding (if x then w else w &&& 0xFFFFFFFFFFFFFFFF#96)) := by
  have hown : (if x then w else w &&& 0xFFFFFFFFFFFFFFFF#96) = ownBits w := by
    rw [ownBits_l64 h]
    exact congrArg (if x then w else ·) (and_lowMask w 64)
  rw [hown]
  refine ⟨?_, rfl⟩
  rw [ownBits_l64 h]
  cases x with
  | true => exact (reservedWord_l64 h).2 ⟨hl, .inl rfl⟩
  | false =>
    have hlow := (low_setWidth (w.extractLsb' 0 64) (m := 96) (by decide)).trans (encodeL_lFields h).symm
    obtain ⟨hf, hm, hfmt⟩ := (low64_eq_encodeL (x := false) rfl).1 hlow
    refine (reservedWord_l64 hfmt).2 ⟨?_, .inr ?_⟩
    · rwa [hf, hm, ← ofNat_toNat_self]
    · rw [BitVec.toNat_setWidth_of_le (by decide)]
      exact BitVec.isLt _

theorem decodeL_encodesBack {x : Bool} (hfmt : w.extractLsb' 0 3 = formatL x) (h : decodeL w x = .ok i) :
    EncodesBack w i := by
  rw [decodeL] at h
  split at h
  · rename_i hk
    cases h
    exact reservedL_encodesBack hfmt (lacksL_of_formL (BitVec.isLt _) hk)
  · rename_i k hk
    split at h
    · rename_i hs
      cases h
      obtain ⟨minors, hf, hc⟩ := formL_coded hk
      exact ⟨(wf_l64 (hc _)).2 ⟨hf, hs⟩, by rw [encode_l64 (hc _), wordL_lFields hfmt]⟩
    · rename_i hs
      cases h
      exact reservedL_encodesBack hfmt (by simpa [lFields_lit] using staticCheck_noForm.1 hs)
    · cases h

/-- Whatever the decoder accepts is well formed and encodes as the word's own bits. -/
theorem encodesBack_of_decode (h : decode w = .ok i) : EncodesBack w i := by
  obtain hfmt | hfmt | ⟨x, hfmt⟩ := format_cases w
  · exact decodeC_encodesBack hfmt (decode_c16 hfmt ▸ h)
  · exact decodeW_encodesBack hfmt (decode_w32 hfmt ▸ h)
  · exact decodeL_encodesBack hfmt (decode_l64 hfmt ▸ h)

/-! ## Fuset words (16 R347) -/

/-- The fields of a Fuset word but its opcode. -/
def fusetFields (w : DWord) : FOps :=
  { fd := w.extractLsb' 8 5, fa := w.extractLsb' 13 5, fb := w.extractLsb' 18 5, imm := w.extractLsb' 23 41 }

/-- The word of a Fuset instruction. -/
def fusetWord (op : Nat) (o : FOps) : DWord := o.imm ++ o.fb ++ o.fa ++ o.fd ++ BitVec.ofNat 8 op

theorem eq_fusetWord {v : DWord} {o : FOps} : v = fusetWord op o ↔ fusetFields v = o ∧ v.extractLsb' 0 8 = BitVec.ofNat 8 op := by
  have hv : v = fusetWord (v.extractLsb' 0 8).toNat (fusetFields v) := by
    rw [fusetWord, ← ofNat_toNat_self, fusetFields]
    iterate 4 rw [BitVec.extractLsb'_append_extractLsb'_eq_extractLsb' (by rfl)]
    exact BitVec.extractLsb'_eq_self.symm
  obtain ⟨d, a, b, imm⟩ := o
  conv_lhs => rw [hv]
  rw [fusetWord, fusetWord, ← ofNat_toNat_self]
  iterate 4 rw [append_eq_append_iff]
  simp only [fusetFields, FOps.mk.injEq]
  tauto

theorem wf_fuset {o : FOps} (hc : codedOf i = .fuset op o) : i.wf = fusetFieldsOk op o := by
  simp only [Instr.wf, hc]

theorem encodeFuset_fuset {o : FOps} (hc : codedOf i = .fuset op o) : encodeFuset i = some (fusetWord op o) := by
  simp only [encodeFuset, hc, fusetWord]

theorem decodeFuset_of_form {v : DWord} {k : FOps → Instr} (hk : formFuset (v.extractLsb' 0 8).toNat = some k) :
    decodeFuset v =
      if fusetFieldsOk (v.extractLsb' 0 8).toNat (fusetFields v) then .ok (k (fusetFields v)) else .error .reservedField := by
  rw [decodeFuset, hk]
  rfl

theorem decodeFuset_of_no_form {v : DWord} (hk : formFuset (v.extractLsb' 0 8).toNat = none) : decodeFuset v = .ok (.fusetReservedOpcode v) := by
  rw [decodeFuset, hk]

theorem wf_fusetReservedOpcode {v : DWord} : (Instr.fusetReservedOpcode v).wf = true ↔ formFuset (v.extractLsb' 0 8).toNat = none := by
  rw [formFuset_eq_none, Instr.wf]
  simp only [codedOf, Bool.or_eq_true, decide_eq_true_eq]

theorem decodeFuset_of_encode {v : DWord} (hwf : i.wf = true) (h : encodeFuset i = some v) : decodeFuset v = .ok i := by
  cases hc : codedOf i with
  | fuset op o =>
    obtain ⟨hop, k, hk, rfl⟩ := formFuset_of_coded hc
    rw [encodeFuset_fuset hc, Option.some.injEq] at h
    obtain ⟨rfl, hfield⟩ := eq_fusetWord.1 h.symm
    obtain rfl : (v.extractLsb' 0 8).toNat = op := by rw [hfield, BitVec.toNat_ofNat, Nat.mod_eq_of_lt hop]
    rw [decodeFuset_of_form hk, if_pos ((wf_fuset hc).symm.trans hwf)]
  | event =>
    simp only [encodeFuset, hc] at h
    split at h
    · cases h
      exact decodeFuset_of_no_form (wf_fusetReservedOpcode.1 hwf)
    · cases h
  | _ => simp [encodeFuset, hc] at h

theorem encodesBack_of_decodeFuset {v : DWord} (h : decodeFuset v = .ok i) : i.wf = true ∧ encodeFuset i = some v := by
  cases hk : formFuset (v.extractLsb' 0 8).toNat with
  | none =>
    rw [decodeFuset_of_no_form hk] at h
    cases h
    exact ⟨wf_fusetReservedOpcode.2 hk, rfl⟩
  | some k =>
    rw [decodeFuset_of_form hk] at h
    split_ifs at h with hok
    cases h
    have hc := formFuset_coded hk (fusetFields v)
    exact ⟨(wf_fuset hc).trans hok, (encodeFuset_fuset hc).trans (congrArg some (eq_fusetWord.2 ⟨rfl, ofNat_toNat_self _⟩).symm)⟩

/-! ## Entries of the channel (23 R432, R433) -/

theorem decodeCommand_of_encode {c : Cmd} (hwf : i.wf = true) (h : encodeCommand i = some c) : decodeCommand c = i := by
  cases hc : codedOf i with
  | command op d =>
    obtain ⟨-, hi⟩ := formCommand_of_coded hc
    simp only [encodeCommand, hc, Option.some.injEq] at h
    simp only [Instr.wf, hc, decide_eq_true_eq] at hwf
    subst h
    rw [decodeCommand, hwf, hi]
  | event =>
    simp only [encodeCommand, hc] at h
    split at h
    · cases h
      exact formCommand_unassigned ((Bool.not_eq_true' _).mp hwf) _
    · cases h
  | _ => simp [encodeCommand, hc] at h

theorem encodesBack_decodeCommand (c : Cmd) : (decodeCommand c).wf = true ∧ encodeCommand (decodeCommand c) = some c := by
  unfold decodeCommand
  cases ha : assignedCommand (c.head.extractLsb' 8 8).toNat with
  | true =>
    have hc := formCommand_coded ha c
    exact ⟨by simp only [Instr.wf, hc, decide_true], by simp only [encodeCommand, hc]⟩
  | false =>
    rw [formCommand_unassigned ha]
    exact ⟨(Bool.not_eq_true' _).mpr ha, rfl⟩

/-! ## Every instruction has an encoding -/

/-- An instruction that is no happening of the machine has a word, a Fuset word or an entry. -/
theorem encodes_of_not_happening (h : isHappening i = false) :
    (∃ w, encode i = some w) ∨ (∃ w, encodeFuset i = some w) ∨ ∃ c, encodeCommand i = some c := by
  cases hc : codedOf i with
  | c16 op o => exact .inl ⟨_, by simp only [encode, hc]; rfl⟩
  | w32 major minors o => exact .inl ⟨_, by simp only [encode, hc]; rfl⟩
  | l64 major minors o => exact .inl ⟨_, encode_l64 hc⟩
  | fuset op o => exact .inr (.inl ⟨_, encodeFuset_fuset hc⟩)
  | command op c => exact .inr (.inr ⟨_, by simp only [encodeCommand, hc]; rfl⟩)
  | event =>
    simp only [isHappening, hc] at h
    split at h
    · exact .inl ⟨_, rfl⟩
    · exact .inr (.inl ⟨_, rfl⟩)
    · exact .inr (.inr ⟨_, rfl⟩)
    · cases h

end

/-- Settles O56: the tables of the decoder and the coding of the instructions invert each other, and so do the fields of a word and its bits. -/
theorem encodingRoundTrip : Obligations.EncodingRoundTrip := by
  unfold Obligations.EncodingRoundTrip
  exact ⟨fun _ hwf => ⟨fun _ => decode_of_encode hwf, fun _ => decodeFuset_of_encode hwf, fun _ => decodeCommand_of_encode hwf,
    encodes_of_not_happening⟩, fun _ _ => encodesBack_of_decode, fun _ _ => encodesBack_of_decodeFuset, encodesBack_decodeCommand⟩

end Sys2Proof

/-! Words of the encoding tables, decoded (O57). -/

namespace Sys2Proof

/-- Settles O57: the decoder, run on each word. -/
theorem decodedWords : Obligations.DecodedWords := by
  unfold Obligations.DecodedWords
  exact ⟨rfl, rfl, rfl, rfl, rfl, rfl, rfl, rfl, rfl, rfl⟩

end Sys2Proof

/-! What one step runs, and how it ends (O58).

A step is a turn, the instruction that the turn calls for, and the end of the step. So each clause is about the turn: what the fetch brings a
split, a collective context or the channel (`AtTurn.nextTurn`, `splitTurn_*`), and two lemmas take it through the step (`step_of_settled`,
`step_of_run`). -/

namespace Sys2Proof

open Sys2Proof.Machine Sys2Proof.Spec

/-! ## A step is its turn -/

theorem step_of_settled {s t : State} {v : Move} (h : nextTurnOf s = (.settled t, v)) : step s = .next (stepEnd t) := by
  rw [step, stepWith, h]
  rfl

theorem step_of_run {s u : State} {i : Instr} {w : BitVec 96} {v : Move} (h : nextTurnOf s = (.run i w u, v)) :
    StepRuns i u (afterMove v w u) s := by
  have hs : step s = closeStep exec v w u (exec i u) := by
    rw [step, stepWith, h]
  exact ⟨fun _ he => by rw [hs, he]; rfl, fun _ he => by rw [hs, he]; rfl, fun _ he => by rw [hs, he]; rfl⟩

theorem nextTurnOf_of_due {s : State} (h : s.due ≠ []) : nextTurnOf s = (.settled (doDue s), .watch) := if_pos h

theorem nextTurnOf_of_agenda {s : State} {v : Move} {r : List Move} (hd : s.due = []) (ha : s.agenda = v :: r) :
    nextTurnOf s = (turnOfMove { s with agenda := r } (madeMove s v), madeMove s v) := by
  rw [nextTurnOf, if_neg (not_not_intro hd), ha]

theorem nextTurnOf_of_no_agenda {s : State} (hd : s.due = []) (ha : s.agenda = []) :
    nextTurnOf s = (turnOfMove s (madeMove s (defaultMove s)), madeMove s (defaultMove s)) := by
  rw [nextTurnOf, if_neg (not_not_intro hd), ha]

/-- Which of its datapath's splits is the oldest does not depend on the agenda. -/
theorem madeMove_agenda (s : State) (ag : List Move) (v : Move) : madeMove { s with agenda := ag } v = madeMove s v := by
  cases v with
  | run a => cases a <;> rfl
  | _ => rfl

/-- The move that comes of itself is the one that comes when it is chosen (log 1). -/
theorem step_of_no_agenda {s : State} (hd : s.due = []) (ha : s.agenda = []) : step s = step { s with agenda := [defaultMove s] } := by
  have hs : { s with agenda := [] } = s := by
    rw [← ha]
  have hturn : nextTurnOf s = nextTurnOf { s with agenda := [defaultMove s] } :=
    calc nextTurnOf s
      _ = (turnOfMove s (madeMove s (defaultMove s)), madeMove s (defaultMove s)) := nextTurnOf_of_no_agenda hd ha
      _ = (turnOfMove { s with agenda := [] } (madeMove s (defaultMove s)), madeMove s (defaultMove s)) := by rw [hs]
      _ = nextTurnOf { s with agenda := [defaultMove s] } := by
        rw [← madeMove_agenda s [defaultMove s]]
        exact (nextTurnOf_of_agenda (s := { s with agenda := [defaultMove s] }) hd rfl).symm
  rw [step, step, stepWith, stepWith, hturn]

theorem step_ends {s u : State} (h : step s = .next u) : ∃ v, u = stepEnd v := by
  cases hturn : nextTurnOf s with
  | mk turn v =>
    cases turn with
    | settled t =>
      rw [step_of_settled hturn] at h
      cases h
      exact ⟨t, rfl⟩
    | run i w t =>
      obtain ⟨hnext, hfault, hrefused⟩ := step_of_run hturn
      cases he : exec i t with
      | next x =>
        rw [hnext x he] at h
        cases h
        exact ⟨_, rfl⟩
      | fault f =>
        rw [hfault f he] at h
        cases h
      | refused r =>
        rw [hrefused r he] at h
        cases h

/-! ## What a fetch leaves of the blocks -/

theorem noteXlate_blocks (s : State) (x va : Nat) : (noteXlate s x va).blocks = s.blocks := by
  unfold noteXlate
  repeat' split
  all_goals rfl

theorem joinRecord_blocks (s : State) (x page level cls kinds : Nat) : (joinRecord s x page level cls kinds).blocks = s.blocks := by
  unfold joinRecord
  dsimp only
  repeat' split
  all_goals rfl

/-- What a fetch comes to has, where it has a state, these blocks. -/
def FetchedKeeps (bs : Tbl Block) : Fetched → Prop
  | .bytes _ t => t.blocks = bs
  | .miss _ t => t.blocks = bs
  | _ => True

section

variable {s : State} {h : Shadow} {x : Nat} {failed : List Nat} {pc : BitVec 56}

theorem fetchBytes_keeps (a n : Nat) : FetchedKeeps s.blocks (fetchBytes s h x failed a n) := by
  unfold fetchBytes
  split
  · trivial
  · split
    · extract_lets p
      split
      · trivial
      · split
        · trivial
        · exact noteXlate_blocks ..
    · exact joinRecord_blocks ..

theorem fetchParcels_keeps (n i : Nat) (s : State) : FetchedKeeps s.blocks (fetchParcels h n i x failed pc s) := by
  induction n generalizing i s with
  | zero => rfl
  | succ n ih =>
    have h1 := fetchBytes_keeps (s := s) (h := h) (x := x) (failed := failed) (parcelAddr pc i) 2
    unfold fetchParcels
    split
    · next s1 e =>
      rw [e] at h1
      have h2 := ih (i + 1) s1
      rw [show s1.blocks = s.blocks from h1] at h2
      split
      · next e2 =>
        rw [e2] at h2
        exact h2
      · exact h2
    · exact h1

theorem fetchCode_keeps : FetchedKeeps s.blocks (fetchCode s h x failed pc) := by
  have h1 := fetchBytes_keeps (s := s) (h := h) (x := x) (failed := failed) pc.toNat 2
  unfold fetchCode
  split
  · next s1 e =>
    rw [e] at h1
    rw [← show s1.blocks = s.blocks from h1]
    exact fetchParcels_keeps ..
  · exact h1

/-! ## What a fetch brings (09 R210, R212) -/

theorem fetchBytes_of_place {a n : Nat} {p : Phys} (hp : FetchPlace s h x failed a n p) :
    fetchBytes s h x failed a n = .bytes (readPhys s h p n) (noteXlate s x a) := by
  obtain ⟨hfailed, ⟨pa, size, sys, r, w, hx, rfl⟩, hpoison⟩ := hp
  rw [fetchBytes, if_neg (by simpa using hfailed), hx]
  dsimp only
  rw [if_neg (by decide), if_neg (by rw [hpoison]; decide)]

theorem fetchParcels_of_parcelsAt {t : State} {i n v : Nat} (hp : ParcelsAt h x failed pc s i n v t) :
    fetchParcels h n i x failed pc s = .bytes v t := by
  induction hp with
  | none => rfl
  | more s t i n w p hplace _ ih =>
    rw [fetchParcels, fetchBytes_of_place hplace]
    dsimp only
    rw [ih]

theorem fetchCode_of_parcelsAt {s1 : State} {v : Nat} {p : Phys} (hp : FetchPlace s h x failed pc.toNat 2 p)
    (hv : ParcelsAt h x failed pc (noteXlate s x pc.toNat) 0 (parcelCount (BitVec.ofNat 16 (readPhys s h p 2))) v s1) :
    fetchCode s h x failed pc = .bytes v s1 := by
  rw [fetchCode, fetchBytes_of_place hp]
  exact fetchParcels_of_parcelsAt hv

end

/-! ## A split's turn -/

section

variable {s s0 s1 : State} {b t e : Nat} {p : Split}

/-- A split that may issue stands in its block's team. -/
theorem issuing_stands {k : Block} {m : Team} (h : issuing s b t e = some (k, m, p)) :
    Tbl.get s.blocks b = some k ∧ teamOf s b t = some m ∧ Tbl.get m.splits e = some p := by
  unfold issuing at h
  split at h
  · cases h
  · rename_i k0 hk
    split at h
    · cases h
    · rename_i q hq
      split_ifs at h
      cases h
      obtain ⟨m0, hm, hp⟩ := Option.bind_eq_some_iff.1 hq
      obtain ⟨p0, hp0, heq⟩ := Option.map_eq_some_iff.1 hp
      cases heq
      exact ⟨hk, by rw [teamOf, hk]; exact hm, hp0⟩

theorem Spec.AtTurn.stands (h : AtTurn b t e p s s0) :
    ∃ k m, Tbl.get s0.blocks b = some k ∧ teamOf s0 b t = some m ∧ Tbl.get m.splits e = some p := by
  obtain ⟨-, r, -, -, -, k, m, hi, -⟩ := h
  exact ⟨k, m, issuing_stands hi⟩

/-- A split whose turn comes takes it. -/
theorem Spec.AtTurn.nextTurn (h : AtTurn b t e p s s0) : nextTurnOf s = (splitTurn s0 b t e p, .run (.split b t e)) := by
  obtain ⟨hd, r, ha, rfl, hold, k, m, hi, htrap, hbreak⟩ := h
  rw [nextTurnOf_of_agenda hd ha, madeMove, hold, turnOfMove, turnAgent, turnSplit, hi]
  dsimp only
  rw [if_neg (by rw [htrap]; decide), if_neg (by rw [hbreak]; decide)]

/-- What follows an instruction of a split, by the split as the turn left it. -/
theorem afterMove_split {u : State} {m : Team} {q : Split} (hm : teamOf u b t = some m) (hq : Tbl.get m.splits e = some q)
    (w : BitVec 96) : afterMove (.run (.split b t e)) w u = afterSplit b t e w q := by
  funext x
  rw [afterMove, afterAgent, hm, Option.bind_some, hq]

theorem teamOf_of_blocks {u : State} (h : s.blocks = u.blocks) : teamOf s b t = teamOf u b t := by
  rw [teamOf, teamOf, h]

/-- A split that runs a word runs the instruction the word decodes to (09 R210). -/
theorem step_of_word {u : State} {m : Team} {q : Split} {w : BitVec 96} {i : Instr} 
    (hturn : nextTurnOf s = (turnOf u b t e w, .run (.split b t e))) (hm : teamOf u b t = some m) (hq : Tbl.get m.splits e = some q)
    (hi : decode w = .ok i) : StepRuns i { u with cur := .split b t e } (afterSplit b t e w q) s := by
  have hrun : nextTurnOf s = (.run i w { u with cur := .split b t e }, .run (.split b t e)) := by
    rw [hturn, turnOf, hi]
  rw [← afterMove_split (u := { u with cur := .split b t e }) hm hq]
  exact step_of_run hrun

/-- A split's turn, by what the fetch of its instruction comes to. -/
noncomputable def fetchedTurn (s : State) (b t e : Nat) (p : Split) (f : Fetched) : Turn :=
  match f with
  | .bytes v s1 => turnOf (onSplit s1 b t e (fun p => { p with held := fetchedHeld p.held })) b t e (BitVec.ofNat 96 v)
  | .miss page s1 =>
    .settled (onSplit s1 b t e (fun p => { p with st := .waitOp, held := some (fetchHeld p.held page), stamp := s1.tick, avail := none }))
  | .barred code a => .settled (takeTrap s b t e { code := code, pc := p.pc, res := p.pc, val := BitVec.ofNat 64 a } false [])
  | .poison => .settled (consumePoison s b)

theorem Spec.FetchesAt.nextTurn {f : Fetched} (h : FetchesAt b t e p s s0 f) :
    nextTurnOf s = (fetchedTurn s0 b t e p f, .run (.split b t e)) := by
  obtain ⟨hturn, hcode, rfl⟩ := h
  rw [hturn.nextTurn, splitTurn, hcode]
  rfl

theorem Spec.FetchesAt.keeps {f : Fetched} (h : FetchesAt b t e p s s0 f) : FetchedKeeps s0.blocks f := by
  obtain ⟨-, -, rfl⟩ := h
  exact fetchCode_keeps

theorem step_of_fetched {v : Nat} {i : Instr} (h : FetchesAt b t e p s s0 (.bytes v s1)) (hi : decode (BitVec.ofNat 96 v) = .ok i) :
    StepRuns i { onSplit s1 b t e (fun q => { q with held := fetchedHeld q.held }) with cur := .split b t e }
      (afterSplit b t e (BitVec.ofNat 96 v) p) s := by
  obtain ⟨k, m, -, hm, hp⟩ := h.1.stands
  rw [← teamOf_of_blocks (show s1.blocks = s0.blocks from h.keeps)] at hm
  change StepRuns _ _ (afterSplit b t e _ { p with held := fetchedHeld p.held }) s
  exact step_of_word h.nextTurn (teamOf_onSplit hm hp _) (Tbl.get_put_same ..) hi

theorem step_of_bad_word {v : Nat} {d : DecodeError} (h : FetchesAt b t e p s s0 (.bytes v s1))
    (hd : decode (BitVec.ofNat 96 v) = .error d) :
    step s = .next (stepEnd (badWord (onSplit s1 b t e (fun q => { q with held := fetchedHeld q.held })) b t e (BitVec.ofNat 96 v))) := by
  refine step_of_settled (v := .run (.split b t e)) ?_
  rw [h.nextTurn, fetchedTurn, turnOf, hd]

/-- A split whose fetch misses waits on the page, at its instruction (24 R456). -/
theorem step_of_miss {page : Nat} (h : FetchesAt b t e p s s0 (.miss page s1)) : ∃ u, step s = .next (stepEnd u) ∧ OnlyTeam b t s1 u ∧
    ∀ m, teamOf s1 b t = some m → Tbl.get m.splits e = some p → ∃ m' p', teamOf u b t = some m' ∧ m' = { m with splits := m'.splits } ∧
      Tbl.get m'.splits e = some p' ∧ OnlySplit e m.splits m'.splits ∧ p'.st = .waitOp ∧ p'.pc = p.pc ∧
      ∃ h, p'.held = some h ∧ h.waits = [page] := by
  obtain ⟨k, -, hk, -⟩ := h.1.stands
  rw [← show s1.blocks = s0.blocks from h.keeps] at hk
  refine ⟨_, step_of_settled h.nextTurn, onTeam_only hk _, fun m hm hp => ?_⟩
  refine ⟨_, _, teamOf_onSplit hm hp _, rfl, Tbl.get_put_same .., fun j hj => Tbl.get_put_other _ _ hj, rfl, rfl, _, rfl, ?_⟩
  cases p.held <;> rfl

theorem step_of_barred {code a : Nat} (h : FetchesAt b t e p s s0 (.barred code a)) :
    step s = .next (stepEnd (takeTrap s0 b t e { code := code, pc := p.pc, res := p.pc, val := BitVec.ofNat 64 a } false [])) :=
  step_of_settled h.nextTurn

theorem step_of_poison (h : FetchesAt b t e p s s0 .poison) : step s = .next (stepEnd (consumePoison s0 b)) :=
  step_of_settled h.nextTurn

theorem step_of_held {w : BitVec 96} {i : Instr} (h : AtTurn b t e p s s0) (hw : p.held.bind (fun h => h.code) = some w)
    (hi : decode w = .ok i) : StepRuns i { s0 with cur := .split b t e } (afterSplit b t e w p) s := by
  obtain ⟨k, m, -, hm, hp⟩ := h.stands
  exact step_of_word (by rw [h.nextTurn, splitTurn, hw]) hm hp hi

end

/-! ## The turns of a collective context, the channel and an event -/

section

variable {s s1 : State} {r : List Move}

/-- A collective context whose word is fetched decodes it (16 R345, R346). -/
theorem turnCc_of_bytes {n v : Nat} (hi : ccIssues (ccOf s n) = true) (hpc : (ccOf s n).pc.toNat < 2 ^ 56)
    (hf : fetchBytes s Shadow.empty (ccOf s n).ctx (ccOf s n).failed (ccOf s n).pc.toNat 8 = .bytes v s1) :
    turnCc s n = match decodeFuset (BitVec.ofNat 64 v) with
      | .ok i => .run i 0 { s1 with cur := .cc n }
      | .error _ => .settled (ccFault s1 n 0x01 2) := by
  rw [turnCc, if_neg (by rw [hi]; decide), if_neg (Nat.not_le.2 hpc), hf] <;> rfl

theorem step_of_cc {n v : Nat} (hd : s.due = []) (ha : s.agenda = .run (.cc n) :: r) (hi : ccIssues (ccOf s n) = true)
    (hpc : (ccOf s n).pc.toNat < 2 ^ 56)
    (hf : fetchBytes { s with agenda := r } Shadow.empty (ccOf s n).ctx (ccOf s n).failed (ccOf s n).pc.toNat 8 = .bytes v s1) :
    (∀ i, decodeFuset (BitVec.ofNat 64 v) = .ok i → StepRuns i { s1 with cur := .cc n } id s) ∧
    ∀ d, decodeFuset (BitVec.ofNat 64 v) = .error d → step s = .next (stepEnd (ccFault s1 n 0x01 2)) := by
  have hturn := (nextTurnOf_of_agenda hd ha).trans
    (congrArg (·, Move.run (.cc n)) (turnCc_of_bytes (s := { s with agenda := r }) hi hpc hf))
  refine ⟨fun i hdec => ?_, fun d hdec => ?_⟩
  · rw [hdec] at hturn
    exact step_of_run hturn
  · rw [hdec] at hturn
    exact step_of_settled hturn

theorem step_of_channel (hd : s.due = []) (ha : s.agenda = .channel :: r) (hdue : entryDue s = true)
    (hseq : (entryAt s.host (entryPlace s.chan (s.chan.cmdacc + 1))).seq = s.chan.cmdacc + 1) :
    StepRuns (decodeCommand (entryAt s.host (entryPlace s.chan (s.chan.cmdacc + 1)))) { s with agenda := r, cur := .none } id s := by
  have hturn : turnChannel { s with agenda := r } =
      .run (decodeCommand (entryAt s.host (entryPlace s.chan (s.chan.cmdacc + 1)))) 0 { s with agenda := r, cur := .none } := by
    rw [turnChannel, if_neg (by rw [show entryDue { s with agenda := r } = true from hdue]; decide)]
    exact if_pos hseq
  exact step_of_run ((nextTurnOf_of_agenda hd ha).trans (congrArg (·, Move.channel) hturn))

theorem step_of_event {i : Instr} (hd : s.due = []) (ha : s.agenda = .event i :: r) (hi : isHappening i = true) :
    StepRuns i { s with agenda := r, cur := .none } id s :=
  step_of_run ((nextTurnOf_of_agenda hd ha).trans (congrArg (·, Move.event i) (if_pos hi)))

end

/-! ## The end of a step (01 R42) -/

theorem Tbl.get_map_of_keys {α : Type} {f : Nat × α → Nat × α} (hf : ∀ c, (f c).1 = c.1) (k : Nat) :
    ∀ t : Tbl α, Tbl.get (List.map f t) k = (Tbl.get t k).map (fun v => (f (k, v)).2)
  | [] => rfl
  | (a, v) :: r => by
    rw [List.map_cons, ← Prod.eta (f (a, v)), hf, Tbl.get, Tbl.get]
    split
    · rename_i he
      rw [← he, Option.map_some]
    · exact Tbl.get_map_of_keys hf k r

theorem Tbl.mem_of_get {α : Type} {k : Nat} {v : α} : ∀ {t : Tbl α}, Tbl.get t k = some v → (k, v) ∈ t
  | (a, x) :: r, h => by
    rw [Tbl.get] at h
    split at h
    · rename_i he
      cases h
      rw [he]
      exact List.mem_cons_self
    · exact List.mem_cons_of_mem _ (Tbl.mem_of_get h)

/-- A split at the end of a step: marked where it awaits what has become available. -/
noncomputable def wokenSplit (s : State) (b n e : Nat) (p : Split) : Split :=
  if awaits p && opAvailable exec s b n e p then { p with avail := some s.now } else p

/-- A team at the end of a step, its block holding a split that waits. -/
noncomputable def wokenTeam (s : State) (b n : Nat) (m : Team) : Team := { m with splits := wokenSplits exec s b n m.splits }

/-- A block at the end of a step. -/
noncomputable def wokenBlock (s : State) (b : Nat) (k : Block) : Block :=
  if blockAwaits k then { k with teams := k.teams.map (fun q => (q.1, wokenTeam s b q.1 q.2)) } else k

theorem get_wokenSplits (s : State) (b n e : Nat) (ps : Tbl Split) :
    Tbl.get (wokenSplits exec s b n ps) e = (Tbl.get ps e).map (wokenSplit s b n e) := by
  rw [wokenSplits, Tbl.get_map_of_keys fun c => by split <;> rfl]
  congr 1
  funext p
  rw [wokenSplit]
  split <;> rfl

theorem wokenBlock_eq (s : State) (b : Nat) (k : Block) : wokenBlock s b k = { k with teams := (wokenBlock s b k).teams } := by
  unfold wokenBlock
  split <;> rfl

theorem get_wokenBlock_teams (s : State) (b n : Nat) (k : Block) :
    Tbl.get (wokenBlock s b k).teams n = (Tbl.get k.teams n).map (fun m => if blockAwaits k then wokenTeam s b n m else m) := by
  unfold wokenBlock
  split
  · exact Tbl.get_map_of_keys (f := fun q => (q.1, wokenTeam s b q.1 q.2)) (fun _ => rfl) n k.teams
  · exact Option.map_id'.symm

theorem wakeOps_eq (s : State) : wakeOps exec s = { s with blocks := (wakeOps exec s).blocks } := by
  unfold wakeOps
  split <;> rfl

theorem get_wakeOps_blocks (s : State) (b : Nat) : Tbl.get (wakeOps exec s).blocks b = (Tbl.get s.blocks b).map (wokenBlock s b) := by
  unfold wakeOps
  split
  · refine (Tbl.get_map_of_keys (fun c => by split <;> rfl) b s.blocks).trans (congrArg (Option.map · _) (funext fun k => ?_))
    rw [wokenBlock]
    split <;> rfl
  · rename_i hnone
    cases hk : Tbl.get s.blocks b with
    | none => rfl
    | some k =>
      have hk0 : ¬ blockAwaits k = true := fun h => hnone (List.any_eq_true.2 ⟨_, Tbl.mem_of_get hk, h⟩)
      rw [Option.map_some, wokenBlock, if_neg hk0]

/-- A block whose team may issue and holds a split that waits is one that the end of a step goes through. -/
theorem blockAwaits_of_split {k : Block} {m : Team} {n e : Nat} {p : Split} (hm : Tbl.get k.teams n = some m)
    (hp : Tbl.get m.splits e = some p) (ha : awaits p = true) (hi : blockIssues k n = true) : blockAwaits k = true :=
  List.any_eq_true.2 ⟨_, Tbl.mem_of_get hm, Bool.and_eq_true_iff.2 ⟨hi, List.any_eq_true.2 ⟨_, Tbl.mem_of_get hp, ha⟩⟩⟩

theorem not_awaits {p : Split} (h : p.st ≠ .waitOp ∨ p.avail ≠ none ∨ p.pend ≠ none ∨ p.stopped = true) : awaits p = false := by
  rw [← Bool.not_eq_true]
  intro ha
  simp only [awaits, Bool.and_eq_true, decide_eq_true_eq, Option.isNone_iff_eq_none, Bool.not_eq_true'] at ha
  obtain ⟨⟨⟨⟨hst, havail⟩, hstopped⟩, hpend⟩, -⟩ := ha
  simp [hst, havail, hstopped, hpend] at h

/-- A split that awaits is marked at the end of a step unless its instruction, run then, would leave it waiting as it waits. -/
theorem wokenSplit_eq_iff {s x y : State} {b n e : Nat} {p : Split} {i : Instr} {w : BitVec 96} (ha : awaits p = true)
    (hturn : splitTurn s b n e p = .run i w x) (hexec : exec i x = .next y) : wokenSplit s b n e p = p ↔ stillWaits b n e p y = true := by
  have havail : opAvailable exec s b n e p = !stillWaits b n e p y := by
    rw [opAvailable, hturn]
    dsimp only
    rw [hexec]
  rw [wokenSplit, ha, havail, Bool.true_and]
  cases stillWaits b n e p y with
  | true => simp
  | false =>
    refine iff_of_false (fun heq => ?_) (by decide)
    have hnone : p.avail = none := by
      by_contra h
      rw [not_awaits (.inr (.inl h))] at ha
      cases ha
    have hsome : some s.now = p.avail := congrArg Split.avail heq
    rw [hnone] at hsome
    cases hsome

theorem stepEndWakes : StepEndWakes := by
  rintro u _ rfl
  refine ⟨wakeOps_eq (passTime u), fun b k hk => ⟨wokenBlock (passTime u) b k, ?_, wokenBlock_eq .., fun n m hm => ?_⟩⟩
  · exact (get_wakeOps_blocks (passTime u) b).trans (congrArg (Option.map _) hk)
  have hnow : (stepEnd u).now = (passTime u).now := by
    rw [stepEnd, wakeOps_eq]
  have hteam := (get_wokenBlock_teams (passTime u) b n k).trans (congrArg (Option.map _) hm)
  rw [Option.map_some] at hteam
  cases hawaits : blockAwaits k with
  | false =>
    rw [hawaits] at hteam
    refine ⟨m, hteam, rfl, fun e p hp => ⟨p, hp, .inl rfl, fun _ => rfl, fun ha hi => ?_⟩⟩
    rw [blockAwaits_of_split hm hp ha hi] at hawaits
    cases hawaits
  | true =>
    rw [hawaits] at hteam
    refine ⟨_, hteam, rfl, fun e p hp => ⟨wokenSplit (passTime u) b n e p, ?_, ?_, fun h => ?_, fun ha _ i w x y => wokenSplit_eq_iff ha⟩⟩
    · exact (get_wokenSplits ..).trans (congrArg (Option.map _) hp)
    · rw [hnow, wokenSplit]
      split
      · exact .inr rfl
      · exact .inl rfl
    · rw [wokenSplit, not_awaits h]
      rfl

/-- Settles O58: each kind of turn, taken through the step, and what the step's end does to the splits that wait. -/
theorem stepRunsDecoded : Obligations.StepRunsDecoded := by
  unfold Obligations.StepRunsDecoded
  exact ⟨fun _ _ _ _ _ _ _ _ _ => step_of_fetched, fun _ _ _ _ _ _ _ _ _ => step_of_bad_word, fun _ _ _ _ _ _ _ _ => step_of_miss,
    fun _ _ _ _ _ _ _ _ => step_of_barred, fun _ _ _ _ _ _ => step_of_poison, fun _ _ _ _ _ _ _ _ => step_of_held,
    fun _ _ _ _ _ _ _ _ => fetchCode_of_parcelsAt, fun _ _ _ _ _ => step_of_cc, fun _ _ => step_of_channel, fun _ _ _ => step_of_event,
    fun _ => step_of_no_agenda, fun _ h => step_of_settled (nextTurnOf_of_due h), fun _ _ => step_ends, stepEndWakes⟩

end Sys2Proof

/-! Integer arithmetic (O1): each lane function of the model is the value that 11 R238 states. -/

namespace Sys2Proof

open Sys2Proof.Machine Sys2Proof.Spec

/-- An instruction that computes one value per lane, with the value stated in another way. -/
theorem computes_of_eq {op : Op} {f g : Iss → Op → Nat → LaneOut} (h : f = g) : Computes (fun s => laneOp op s f) op g :=
  h ▸ laneOp_computes op f

/-- Two value functions are one where each lane's results are. -/
theorem lane_ext {f g : Iss → Op → Nat → LaneOut} (h : ∀ i op l, f i op l = g i op l) : f = g :=
  funext fun i => funext fun op => funext (h i op)

/-- An instruction without a destination completes wherever it issues. -/
theorem plain_of_issues {op : Op} {s s1 : State} {j : Iss} (h : Issues op [] s j s1) :
    ∃ t, issue op [] s (fun i s => i.plain op s) = .next t ∧ PlainDone op j s1 t :=
  ⟨_, h.run _, plain_completes h.stands⟩

theorem flagged_zero (v : Word) : LaneOut.flagged v 0 = .word v := rfl

/-! ## Sums, products and quotients (11 R238) -/

theorem satWord_eq_finishSum {f : Nat} {w : Word} {x : Int} (h : f = 0 → w = BitVec.ofInt 32 x) : satWord f w x = finishSum f x := by
  unfold satWord finishSum
  by_cases hf : f = 0
  · simp only [hf, if_true, h hf]
  · simp only [hf, if_false]
    by_cases h1 : f = 1
    all_goals
      simp only [h1, if_true, if_false, ← flagged_zero]
      split
      · rw [if_neg (by omega)]
        congr 2
        omega
      · split
        · rw [if_neg (by omega)]
          congr 2
          omega
        · rw [if_pos (by omega)]
          congr 2
          omega

theorem ofInt_toNat {w : Nat} (v : BitVec w) : BitVec.ofInt w (v.toNat : Int) = v := by simp

theorem ofInt_sub {w : Nat} (x y : Int) : BitVec.ofInt w (x - y) = BitVec.ofInt w x - BitVec.ofInt w y := by
  rw [Int.sub_eq_add_neg, BitVec.ofInt_add, BitVec.ofInt_neg, BitVec.sub_eq_add_neg]

theorem laneIadd_eq : laneIadd = iaddSpec := lane_ext fun i op l => by
  refine satWord_eq_finishSum fun hf => ?_
  simp only [minorInt, hf, reduceIte, Nat.zero_ne_one, BitVec.ofInt_add, ofInt_toNat]

theorem laneIsub_eq : laneIsub = isubSpec := lane_ext fun i op l => by
  refine satWord_eq_finishSum fun hf => ?_
  simp only [minorInt, hf, reduceIte, Nat.zero_ne_one, ofInt_sub, ofInt_toNat]

theorem mulSigned_eq (a b : Word) : mulSigned a b = BitVec.ofInt 64 (a.toInt * b.toInt) := (BitVec.ofInt_mul ..).symm

theorem mulUnsigned_eq (a b : Word) : mulUnsigned a b = BitVec.ofNat 64 (a.toNat * b.toNat) := by
  rw [BitVec.ofNat_mul, BitVec.ofNat_toNat, BitVec.ofNat_toNat]
  rfl

/-- The upper half of a 64-bit value. -/
theorem extract_upper_ofInt (z : Int) : (BitVec.ofInt 64 z).extractLsb' 32 32 = BitVec.ofInt 32 (z / 2 ^ 32) := by
  apply BitVec.eq_of_toNat_eq
  simp only [BitVec.extractLsb'_toNat, BitVec.toNat_ofInt, Nat.shiftRight_eq_div_pow]
  omega

theorem laneImul_eq : laneImul = imulSpec := lane_ext fun i op l => by
  unfold laneImul imulSpec
  dsimp only
  split
  · rw [BitVec.ofNat_mul, BitVec.ofNat_toNat, BitVec.ofNat_toNat, BitVec.setWidth_eq, BitVec.setWidth_eq]
  · rw [mulSigned_eq, extract_upper_ofInt]
  · rw [mulUnsigned_eq, ← BitVec.ofInt_natCast, extract_upper_ofInt]
    norm_cast

theorem laneImad_eq : laneImad = imadSpec := lane_ext fun i op l => by
  unfold laneImad imadSpec
  dsimp only
  split
  · simp [BitVec.ofNat_add, BitVec.ofNat_mul]
  · rw [mulSigned_eq, BitVec.ofInt_add, BitVec.ofInt_toInt]
  · simp [mulUnsigned_eq, BitVec.ofNat_add]

theorem eq_zero_iff_toNat (v : Word) : v = 0 ↔ v.toNat = 0 := BitVec.toNat_eq.trans (by simp)

theorem laneIdiv_eq : laneIdiv = idivSpec := lane_ext fun i op l => by
  simp only [laneIdiv, idivSpec, eq_zero_iff_toNat]

theorem laneIrem_eq : laneIrem = iremSpec := lane_ext fun i op l => by
  simp only [laneIrem, iremSpec, eq_zero_iff_toNat]

/-! ## Minima, maxima and magnitudes (11 R238) -/

/-- The smaller of two words of an order is the word of the smaller number, and the other is that of the greater. -/
theorem ite_eq_min_max {α : Type} [LinearOrder α] {of : α → Word} {num : Word → α} (hof : ∀ v, of (num v) = v) (a b : Word) :
    (if num a < num b then a else b) = of (min (num a) (num b)) ∧ (if num a < num b then b else a) = of (max (num a) (num b)) := by
  split
  case isTrue h => rw [min_eq_left h.le, max_eq_right h.le, hof, hof]; exact ⟨rfl, rfl⟩
  case isFalse h => rw [min_eq_right (not_lt.mp h), max_eq_left (not_lt.mp h), hof, hof]; exact ⟨rfl, rfl⟩

theorem signed_min_max (a b : Word) : (if a.slt b then a else b) = BitVec.ofInt 32 (min a.toInt b.toInt) ∧
    (if a.slt b then b else a) = BitVec.ofInt 32 (max a.toInt b.toInt) := by
  simpa only [BitVec.slt_iff_toInt_lt] using ite_eq_min_max (fun v => BitVec.ofInt_toInt (x := v)) a b

theorem unsigned_min_max (a b : Word) : (if a.ult b then a else b) = BitVec.ofNat 32 (min a.toNat b.toNat) ∧
    (if a.ult b then b else a) = BitVec.ofNat 32 (max a.toNat b.toNat) := by
  simpa only [BitVec.ult_iff_toNat_lt] using ite_eq_min_max (of := BitVec.ofNat 32) (fun v => by simp) a b

theorem laneImin_eq : laneImin = iminSpec := lane_ext fun i op l => by
  simp only [laneImin, iminSpec, signed_min_max, unsigned_min_max]

theorem laneImax_eq : laneImax = imaxSpec := lane_ext fun i op l => by
  simp only [laneImax, imaxSpec, signed_min_max, unsigned_min_max]

theorem laneIneg_eq : laneIneg = inegSpec := lane_ext fun i op l => by
  rw [laneIneg, inegSpec, BitVec.ofInt_neg, ofInt_toNat]

theorem laneIabs_eq : laneIabs = iabsSpec := lane_ext fun i op l => by
  refine congrArg LaneOut.word ?_
  generalize i.a op l = a
  apply BitVec.eq_of_toNat_eq
  rw [BitVec.toNat_ofNat, BitVec.msb_eq_decide, BitVec.toInt_eq_toNat_cond]
  split <;> split <;> simp_all [BitVec.toNat_neg] <;> omega

/-! ## Sums of byte products (11 R238) -/

theorem dotByte_eq (f : Nat) (v : Word) (j : Nat) : dotByte f v j = BitVec.ofInt 32 (byteInt f v j) := by
  have hb : (v.extractLsb' (8 * j) 8).toNat = v.toNat / 2 ^ (8 * j) % 256 := by
    rw [BitVec.extractLsb'_toNat, Nat.shiftRight_eq_div_pow]
  unfold dotByte byteInt
  dsimp only
  rw [← hb]
  generalize v.extractLsb' (8 * j) 8 = b
  have := b.isLt
  by_cases hf : f = 0
  · rw [if_pos hf]
    show BitVec.ofInt 32 b.toInt = _
    rw [BitVec.toInt_eq_toNat_cond]
    congr 1
    split <;> split <;> omega
  · rw [if_neg hf, if_neg (fun h => hf h.1), BitVec.ofInt_natCast, BitVec.ofNat_toNat]

theorem laneIdot4_eq : laneIdot4 = idot4Spec := lane_ext fun i op l => by
  simp only [laneIdot4, idot4Spec, dotByte_eq, BitVec.ofInt_add, BitVec.ofInt_mul, ofInt_toNat, BitVec.add_assoc]


/-- Settles O1: each form computes its lane function, which is the value that the rules state. -/
theorem integerArithmetic : Obligations.IntegerArithmetic := by
  unfold Obligations.IntegerArithmetic
  exact ⟨fun _ _ _ => ⟨fun _ => plain_of_issues, fun _ => plain_of_issues, fun _ => plain_of_issues⟩,
    fun _ => laneOp_computes _ laneMov, fun _ => laneOp_computes _ laneMov, fun _ => laneOp_computes _ laneMov,
    fun _ => computes_of_eq laneIadd_eq, fun _ => computes_of_eq laneIadd_eq, fun _ => computes_of_eq laneIadd_eq,
    fun _ => computes_of_eq laneIsub_eq, fun _ => computes_of_eq laneIsub_eq, fun _ => computes_of_eq laneIsub_eq,
    fun _ => computes_of_eq laneImul_eq, fun _ => computes_of_eq laneImul_eq, fun _ => computes_of_eq laneImul_eq,
    fun _ => computes_of_eq laneImad_eq, fun _ => computes_of_eq laneIdiv_eq, fun _ => computes_of_eq laneIdiv_eq,
    fun _ => computes_of_eq laneIrem_eq, fun _ => computes_of_eq laneIrem_eq, fun _ => computes_of_eq laneImin_eq,
    fun _ => computes_of_eq laneImin_eq, fun _ => computes_of_eq laneImax_eq, fun _ => computes_of_eq laneImax_eq,
    fun _ => computes_of_eq laneIabs_eq, fun _ => computes_of_eq laneIabs_eq, fun _ => computes_of_eq laneIneg_eq,
    fun _ => computes_of_eq laneIneg_eq, fun _ => computes_of_eq laneIdot4_eq⟩

end Sys2Proof

/-! Comparisons, bit fields, counts and pairs (O2), and words given bit by bit. -/

namespace Sys2Proof

open Sys2Proof.Machine Sys2Proof.Spec

/-! ## Words given bit by bit -/

/-- A sum of distinct powers of two has the bits that it was made of. -/
theorem testBit_sum_pow (p : Nat → Bool) (n : Nat) : ((List.range n).map (fun k => if p k then 2 ^ k else 0)).sum < 2 ^ n ∧
    ∀ k, Nat.testBit ((List.range n).map (fun k => if p k then 2 ^ k else 0)).sum k = (decide (k < n) && p k) := by
  induction n with
  | zero => simp
  | succ n ih =>
    obtain ⟨hlt, hbit⟩ := ih
    rw [List.range_succ, List.map_append, List.sum_append, List.map_singleton, List.sum_singleton]
    generalize ((List.range n).map (fun k => if p k then 2 ^ k else 0)).sum = v at hlt hbit
    cases hp : p n with
    | false =>
      refine ⟨by simp; omega, fun k => ?_⟩
      simp only [Bool.false_eq_true, if_false, Nat.add_zero, hbit]
      rcases Nat.lt_trichotomy k n with h | rfl | h
      · simp [h, Nat.lt_succ_of_lt h]
      · simp [hp]
      · simp [Nat.not_lt.mpr h.le, show ¬ k < n + 1 by omega]
    | true =>
      refine ⟨by simp; omega, fun k => ?_⟩
      rw [if_pos rfl, Nat.add_comm, show 2 ^ n + v = 2 ^ n * 1 + v by omega, Nat.two_pow_add_eq_or_of_lt hlt, Nat.mul_one, Nat.testBit_or,
        Nat.testBit_two_pow, hbit]
      rcases Nat.lt_trichotomy k n with h | rfl | h
      · simp [h, Nat.lt_succ_of_lt h, h.ne']
      · simp [hp]
      · simp [Nat.not_lt.mpr h.le, show ¬ k < n + 1 by omega, h.ne]

@[simp] theorem getLsbD_wordOfBits (p : Nat → Bool) (k : Nat) : (wordOfBits p).getLsbD k = (decide (k < 32) && p k) := by
  rw [wordOfBits, BitVec.getLsbD_ofNat, (testBit_sum_pow p 32).2 k, ← Bool.and_assoc, Bool.and_self]

/-- A word is the one whose bits a test gives, where its bits are. -/
theorem eq_wordOfBits {v : Word} {p : Nat → Bool} (h : ∀ k, k < 32 → v.getLsbD k = p k) : v = wordOfBits p := by
  apply BitVec.eq_of_getLsbD_eq
  intro k hk
  rw [getLsbD_wordOfBits, h k hk, decide_eq_true hk, Bool.true_and]

/-- A word is the one made bit by bit from two words, where its bits are. -/
theorem eq_bitwise {g : Bool → Bool → Bool} {a b v : Word} (h : ∀ k, k < 32 → v.getLsbD k = g (a.getLsbD k) (b.getLsbD k)) :
    v = bitwise g a b := eq_wordOfBits h

theorem getLsbD_eq_div (v : Word) (k : Nat) : v.getLsbD k = decide (v.toNat / 2 ^ k % 2 = 1) := by
  rw [← BitVec.testBit_toNat, Nat.testBit_eq_decide_div_mod_eq]

/-! ## Comparisons (11 R239) -/

theorem boolWord_eq_oneIf {p : Prop} [Decidable p] {c : Bool} (h : c = true ↔ p) : LaneOut.word (boolWord c) = oneIf p := by
  unfold boolWord oneIf
  simp only [h]

theorem laneIcmp_eq : laneIcmp = icmpSpec := lane_ext fun i op l => by
  unfold laneIcmp icmpSpec icmpHolds
  dsimp only
  split <;> refine boolWord_eq_oneIf ?_ <;>
    simp only [beq_iff_eq, bne_iff_ne, ne_eq, Bool.not_eq_true', ← Bool.not_eq_true, BitVec.slt_iff_toInt_lt, BitVec.ult_iff_toNat_lt,
      Int.not_lt, Nat.not_lt]

theorem laneCmp64_eq : laneCmp64 = cmp64Spec := lane_ext fun i op l => by
  unfold laneCmp64 cmp64Spec cmp64Holds
  dsimp only
  split <;> refine boolWord_eq_oneIf ?_ <;>
    simp only [beq_iff_eq, bne_iff_ne, ne_eq, Bool.not_eq_true', ← Bool.not_eq_true, BitVec.slt_iff_toInt_lt, BitVec.ult_iff_toNat_lt,
      Int.not_lt, Nat.not_lt]

theorem laneSel_eq : laneSel = selSpec := lane_ext fun i op l => by
  simp only [laneSel, selSpec, getLsbD_eq_div, Nat.pow_zero, Nat.div_one, decide_eq_true_eq]

/-! ## Bit fields (11 R242) -/

theorem bitsOf_eq_fieldBits (ctl : Word) : bitsOf ctl.toNat 0 8 = (fieldBits ctl).1 := by
  simp [bitsOf, fieldBits]

theorem fieldLen_eq_fieldBits (ctl : Word) : fieldLen (fieldBits ctl).1 (bitsOf ctl.toNat 8 8) = (fieldBits ctl).2 := rfl

theorem laneBfe_eq : laneBfe = bfeSpec := lane_ext fun i op l => by
  unfold laneBfe bfeSpec
  dsimp only
  rw [bitsOf_eq_fieldBits, fieldLen_eq_fieldBits]
  obtain ⟨pos, n⟩ := fieldBits (i.bv op l)
  simp only [Bool.and_eq_true, decide_eq_true_eq, Nat.pos_iff_ne_zero, and_assoc]
  split
  · rw [Nat.cast_pow, Nat.cast_ofNat]
  · rw [BitVec.ofInt_natCast]

/-- A field of ones, from bit 0. -/
theorem getLsbD_ofNat_ones (n k : Nat) : (BitVec.ofNat 32 (2 ^ n - 1)).getLsbD k = (decide (k < 32) && decide (k < n)) := by
  rw [BitVec.getLsbD_ofNat, Nat.testBit_two_pow_sub_one]

theorem laneBfi_eq : laneBfi = bfiSpec := lane_ext fun i op l => by
  refine congrArg LaneOut.word (eq_wordOfBits fun k hk => ?_)
  rw [bitsOf_eq_fieldBits, fieldLen_eq_fieldBits]
  obtain ⟨pos, n⟩ := fieldBits (i.c op l)
  simp only [BitVec.getLsbD_or, BitVec.getLsbD_and, BitVec.getLsbD_not, BitVec.getLsbD_shiftLeft, getLsbD_ofNat_ones, hk, decide_true,
    Bool.true_and]
  by_cases hlow : k < pos
  · simp [hlow, Nat.not_le.mpr hlow]
  · by_cases hin : k < pos + n
    · simp [hlow, hin, Nat.not_lt.mp hlow, show k - pos < 32 by omega, show k - pos < n by omega]
    · simp [hlow, hin, show ¬ k - pos < n by omega]

/-! ## Counts (11 R243) -/

/-- The run of numbers from 0 that pass a test, counted: those at which and below which all pass. -/
theorem length_takeWhile_range (p : Nat → Bool) (n : Nat) :
    ((List.range n).takeWhile p).length = (List.range n).countP (fun k => decide (∀ j ≤ k, p j = true)) ∧
    (((List.range n).takeWhile p).length = n ↔ ∀ j < n, p j = true) := by
  induction n with
  | zero => simp
  | succ n ih =>
    obtain ⟨hlen, hall⟩ := ih
    rw [List.range_succ, List.takeWhile_append, List.length_range, List.countP_append, ← hlen]
    have hle : ((List.range n).takeWhile p).length ≤ n := by
      simpa using (List.takeWhile_sublist p (l := List.range n)).length_le
    by_cases h : ((List.range n).takeWhile p).length = n
    · rw [if_pos h, h]
      have hn : (∀ j ≤ n, p j = true) ↔ p n = true := ⟨fun f => f n le_rfl, fun hp j hj => by
        rcases hj.lt_or_eq with hj | rfl
        · exact hall.mp h j hj
        · exact hp⟩
      cases hp : p n <;> simp [hn, hp]
    · have hn : ¬ ∀ j ≤ n, p j = true := fun f => h (hall.mpr fun j hj => f j hj.le)
      simp only [if_neg h, Nat.lt_succ_iff, hn, iff_false, List.countP_singleton, decide_false, Bool.false_eq_true, if_false, Nat.add_zero,
        true_and]
      omega

/-- The run of numbers below 32 that pass a test, counted by a test of each of them. -/
theorem runLength_eq_countTo32 {p q : Nat → Bool} (h : ∀ k < 32, (∀ j ≤ k, p j = true) ↔ q k = true) :
    LaneOut.word (BitVec.ofNat 32 ((List.range 32).takeWhile p).length) = countTo32 q := by
  rw [countTo32, (length_takeWhile_range p 32).1]
  congr 2
  refine List.countP_congr fun k hk => ?_
  rw [decide_eq_true_iff, h k (List.mem_range.mp hk)]

theorem lanePopc_eq : lanePopc = popcSpec := lane_ext fun i op l => by
  simp only [lanePopc, popcSpec, popCount, countTo32, List.countP_eq_length_filter, getLsbD_eq_div]

/-- A number is below a power of two where its bits from there up are 0. -/
theorem lt_two_pow_iff_testBit {x n m : Nat} (hx : x < 2 ^ n) : x < 2 ^ m ↔ ∀ j, m ≤ j → j < n → x.testBit j = false := by
  refine ⟨fun h j hj _ => Nat.testBit_lt_two_pow (h.trans_le (Nat.pow_le_pow_right (by decide) hj)), fun h => ?_⟩
  refine Nat.lt_pow_two_of_testBit x fun j hj => ?_
  rcases Nat.lt_or_ge j n with hjn | hjn
  · exact h j hj hjn
  · exact Nat.testBit_lt_two_pow (hx.trans_le (Nat.pow_le_pow_right (by decide) hjn))

/-- A power of two divides a number where its bits below are 0. -/
theorem mod_two_pow_eq_zero_iff_testBit {x m : Nat} : x % 2 ^ m = 0 ↔ ∀ j < m, x.testBit j = false := by
  constructor
  · intro h j hj
    have := Nat.testBit_mod_two_pow x m j
    simpa [h, hj] using this.symm
  · refine fun h => Nat.eq_of_testBit_eq fun j => ?_
    rw [Nat.testBit_mod_two_pow, Nat.zero_testBit]
    by_cases hj : j < m
    · rw [h j hj, Bool.and_false]
    · rw [decide_eq_false hj, Bool.false_and]

/-- The numbers below 32, from the top down. -/
theorem range32_eq_reversed : List.range 32 = ((List.range 32).map (fun k => 31 - k)).reverse := by decide

theorem countTo32_reversed (p : Nat → Bool) : countTo32 (fun k => p (31 - k)) = countTo32 p := by
  unfold countTo32
  conv_rhs => rw [range32_eq_reversed, List.countP_reverse, List.countP_map]
  rfl

theorem laneClz_eq : laneClz = clzSpec := lane_ext fun i op l => by
  refine .trans (runLength_eq_countTo32 fun k hk => ?_) (countTo32_reversed fun k => decide ((i.a op l).toNat < 2 ^ k))
  simp only [Bool.not_eq_true', decide_eq_true_eq, ← BitVec.testBit_toNat, lt_two_pow_iff_testBit (i.a op l).isLt]
  constructor
  · intro h j hj hj32
    have := h (31 - j) (by omega)
    rwa [show 31 - (31 - j) = j by omega] at this
  · exact fun h j hj => h (31 - j) (by omega) (by omega)

theorem laneCtz_eq : laneCtz = ctzSpec := lane_ext fun i op l => runLength_eq_countTo32 fun k hk => by
  simp only [Bool.not_eq_true', decide_eq_true_eq, ← BitVec.testBit_toNat, mod_two_pow_eq_zero_iff_testBit, Nat.lt_succ_iff]

/-! ## Bits reversed and selected (11 R243) -/

/-- Powers of two from the top down sum to the word with the bits reversed. -/
theorem ofNat_sum_reversed (p : Nat → Bool) :
    BitVec.ofNat 32 ((List.range 32).map (fun k => if p k then 2 ^ (31 - k) else 0)).sum = wordOfBits (fun k => p (31 - k)) := by
  rw [wordOfBits]
  conv_lhs => rw [range32_eq_reversed]
  rw [List.map_reverse, List.sum_reverse, List.map_map]
  congr 2

theorem laneBrev_eq : laneBrev = brevSpec := lane_ext fun i op l => by
  refine congrArg LaneOut.word ?_
  rw [ofNat_sum_reversed]
  refine eq_wordOfBits fun k hk => ?_
  rw [BitVec.getLsbD_reverse, BitVec.getMsbD_eq_getLsbD, decide_eq_true hk, Bool.true_and]

theorem getLsbD_byselByte (w : DWord) (c : Word) {j k : Nat} (hk : k < 8) :
    (byselByte w (c.extractLsb' (8 * j) 8)).getLsbD k = byselBit w c.toNat j k := by
  have hs : (c.extractLsb' (8 * j) 8).toNat % 2 ^ 3 = c.toNat / 2 ^ (8 * j) % 8 := by
    rw [BitVec.extractLsb'_toNat, Nat.shiftRight_eq_div_pow]
    omega
  have hm : (c.extractLsb' (8 * j) 8).toNat / 2 ^ 3 % 2 ^ 2 = c.toNat / 2 ^ (8 * j) / 8 % 4 := by
    rw [BitVec.extractLsb'_toNat, Nat.shiftRight_eq_div_pow]
    omega
  have hbit : ∀ n < 8, ((w >>> (8 * (c.toNat / 2 ^ (8 * j) % 8))).extractLsb' 0 8).getLsbD n =
      w.getLsbD (8 * (c.toNat / 2 ^ (8 * j) % 8) + n) := fun n hn => by
    simp [hn]
  unfold byselByte byselBit bitsOf
  simp only [hs, hm, Nat.pow_zero, Nat.div_one]
  split
  · exact hbit k hk
  · rw [BitVec.getLsbD_reverse, BitVec.getMsbD_eq_getLsbD, decide_eq_true hk, Bool.true_and, hbit _ (by omega)]
  · rw [BitVec.msb_eq_getLsbD_last, hbit _ (by omega)]
    generalize w.getLsbD (8 * (c.toNat / 2 ^ (8 * j) % 8) + 7) = top
    cases top
    · exact BitVec.getLsbD_zero
    · exact (BitVec.getLsbD_allOnes (v := 8)).trans (decide_eq_true hk)
  · simp

/-- Bit `k` of a word made of bytes, low first, is bit `k % 8` of byte `k / 8`. -/
theorem getLsbD_bytes (t : Nat → Byte) {k : Nat} (hk : k < 32) :
    (t 3 ++ t 2 ++ t 1 ++ t 0 : Word).getLsbD k = (t (k / 8)).getLsbD (k % 8) := by
  have hbyte : ∀ n q, k / 8 = q → n = k - 8 * q → (t q).getLsbD n = (t (k / 8)).getLsbD (k % 8) := by
    rintro n q rfl rfl
    rw [show k % 8 = k - 8 * (k / 8) by omega]
  rw [BitVec.getLsbD_append, BitVec.getLsbD_append, BitVec.getLsbD_append]
  split
  · exact hbyte _ 0 (by omega) (by omega)
  · split
    · exact hbyte _ 1 (by omega) (by omega)
    · split
      · exact hbyte _ 2 (by omega) (by omega)
      · exact hbyte _ 3 (by omega) (by omega)

theorem laneBysel_eq : laneBysel = byselSpec := lane_ext fun i op l => by
  refine congrArg LaneOut.word (eq_wordOfBits fun k hk => ?_)
  rw [getLsbD_bytes (fun j => byselByte (i.bv op l ++ i.a op l) ((i.c op l).extractLsb' (8 * j) 8)) hk]
  exact getLsbD_byselByte _ _ (Nat.mod_lt _ (by decide))

/-! ## Pairs (11 R244) -/

theorem laneAdd64_eq : laneAdd64 = add64Spec := lane_ext fun i op l => by
  simp [laneAdd64, add64Spec, BitVec.ofNat_add]

theorem laneSub64_eq : laneSub64 = sub64Spec := lane_ext fun i op l => by
  simp only [laneSub64, sub64Spec, ofInt_sub, ofInt_toNat]

theorem twoPow_eq_ofInt (w n : Nat) : BitVec.twoPow w n = BitVec.ofInt w (2 ^ n) := by
  apply BitVec.eq_of_toNat_eq
  rw [BitVec.toNat_twoPow, show ((2 : Int) ^ n) = ((2 ^ n : Nat) : Int) by push_cast; rfl, BitVec.ofInt_natCast, BitVec.toNat_ofNat]

theorem laneLea_eq : laneLea = leaSpec := lane_ext fun i op l => by
  rw [laneLea, leaSpec, BitVec.ofInt_add, ofInt_toNat, BitVec.shiftLeft_eq_mul_twoPow, BitVec.ofInt_mul, twoPow_eq_ofInt]
  rfl

/-- Settles O2: each form computes its lane function, which is the value that the rules state. -/
theorem comparisonsBitFieldsAndPairs : Obligations.ComparisonsBitFieldsAndPairs := by
  unfold Obligations.ComparisonsBitFieldsAndPairs
  exact ⟨fun _ => computes_of_eq laneIcmp_eq, fun _ => computes_of_eq laneIcmp_eq, fun _ => computes_of_eq laneSel_eq,
    fun _ => computes_of_eq laneCmp64_eq, fun _ => computes_of_eq laneCmp64_eq, fun _ => computes_of_eq laneBfe_eq,
    fun _ => computes_of_eq laneBfe_eq, fun _ => computes_of_eq laneBfi_eq, fun _ => computes_of_eq lanePopc_eq,
    fun _ => computes_of_eq lanePopc_eq, fun _ => computes_of_eq laneClz_eq, fun _ => computes_of_eq laneClz_eq,
    fun _ => computes_of_eq laneCtz_eq, fun _ => computes_of_eq laneCtz_eq, fun _ => computes_of_eq laneBrev_eq,
    fun _ => computes_of_eq laneBrev_eq, fun _ => computes_of_eq laneBysel_eq, fun _ => computes_of_eq laneAdd64_eq,
    fun _ => computes_of_eq laneAdd64_eq, fun _ => computes_of_eq laneSub64_eq, fun _ => computes_of_eq laneSub64_eq,
    fun _ => computes_of_eq laneLea_eq, fun _ => computes_of_eq laneLea_eq⟩

end Sys2Proof

/-! Logic, shifts and rotations (O3). -/

namespace Sys2Proof

open Sys2Proof.Machine Sys2Proof.Spec

/-! ## Logic (11 R240) -/

theorem laneAnd_eq : laneAnd = andSpec := lane_ext fun i op l => congrArg LaneOut.word <| eq_bitwise fun _ _ => by
  rw [BitVec.getLsbD_and]

theorem laneOr_eq : laneOr = orSpec := lane_ext fun i op l => congrArg LaneOut.word <| eq_bitwise fun _ _ => by
  rw [BitVec.getLsbD_or]

theorem laneXor_eq : laneXor = xorSpec := lane_ext fun i op l => congrArg LaneOut.word <| eq_bitwise fun _ _ => by
  rw [BitVec.getLsbD_xor]

theorem laneAndn_eq : laneAndn = andnSpec := lane_ext fun i op l => congrArg LaneOut.word <| eq_bitwise fun _ hk => by
  rw [BitVec.getLsbD_and, BitVec.getLsbD_not, decide_eq_true hk, Bool.true_and]

theorem laneOrn_eq : laneOrn = ornSpec := lane_ext fun i op l => congrArg LaneOut.word <| eq_bitwise fun _ hk => by
  rw [BitVec.getLsbD_or, BitVec.getLsbD_not, decide_eq_true hk, Bool.true_and]

theorem laneXnor_eq : laneXnor = xnorSpec := lane_ext fun i op l => congrArg LaneOut.word <| eq_bitwise fun _ hk => by
  rw [BitVec.getLsbD_not, BitVec.getLsbD_xor, decide_eq_true hk, Bool.true_and]
  exact Bool.not_not _

theorem laneNot_eq : laneNot = notSpec := lane_ext fun i op l => congrArg LaneOut.word <| eq_bitwise fun _ hk => by
  rw [BitVec.getLsbD_not, decide_eq_true hk, Bool.true_and]

/-! ## Shifts (11 R241) -/

theorem shiftLeft_eq_ofNat {w : Nat} (v : BitVec w) (n : Nat) : v <<< n = BitVec.ofNat w (v.toNat * 2 ^ n) := by
  apply BitVec.eq_of_toNat_eq
  rw [BitVec.toNat_shiftLeft, Nat.shiftLeft_eq, BitVec.toNat_ofNat]

theorem ushiftRight_eq_ofNat {w : Nat} (v : BitVec w) (n : Nat) : v >>> n = BitVec.ofNat w (v.toNat / 2 ^ n) := by
  apply BitVec.eq_of_toNat_eq
  rw [BitVec.toNat_ushiftRight, Nat.shiftRight_eq_div_pow, BitVec.toNat_ofNat,
    Nat.mod_eq_of_lt ((Nat.div_le_self ..).trans_lt v.isLt)]

theorem laneShl_eq : laneShl = shlSpec := lane_ext fun i op l => by
  simp only [laneShl, shlSpec, shiftLeft_eq_ofNat]

theorem laneShrl_eq : laneShrl = shrlSpec := lane_ext fun i op l => by
  simp only [laneShrl, shrlSpec, ushiftRight_eq_ofNat]

theorem laneShl64_eq : laneShl64 = shl64Spec := lane_ext fun i op l => by
  simp only [laneShl64, shl64Spec, shiftLeft_eq_ofNat]

theorem laneShr64_eq : laneShr64 = shr64Spec := lane_ext fun i op l => by
  simp only [laneShr64, shr64Spec, ushiftRight_eq_ofNat]

theorem laneShra_eq : laneShra = shraSpec := lane_ext fun i op l => by
  refine congrArg (LaneOut.word ∘ BitVec.ofInt 32) ?_
  rw [Int.shiftRight_eq_div_pow]
  norm_cast

/-- What moves up and what comes round share no bit. -/
theorem toNat_rotated (a : Word) {n : Nat} (hn : n < 32) :
    (rotated a n).toNat = (a.toNat <<< n) % 2 ^ 32 ||| a.toNat >>> (32 - n) := by
  have hsplit : 2 ^ 32 = 2 ^ (32 - n) * 2 ^ n := by rw [← Nat.pow_add, Nat.sub_add_cancel hn.le]
  have hlow : a.toNat / 2 ^ (32 - n) < 2 ^ n := Nat.div_lt_of_lt_mul (hsplit ▸ a.isLt)
  have hup : a.toNat * 2 ^ n % 2 ^ 32 = a.toNat % 2 ^ (32 - n) * 2 ^ n := by rw [hsplit, Nat.mul_mod_mul_right]
  have hlt : a.toNat % 2 ^ (32 - n) * 2 ^ n + a.toNat / 2 ^ (32 - n) < 2 ^ 32 := by
    have hm : a.toNat % 2 ^ (32 - n) + 1 ≤ 2 ^ (32 - n) := Nat.mod_lt _ (Nat.two_pow_pos _)
    have := Nat.mul_le_mul_right (2 ^ n) hm
    rw [← hsplit, Nat.add_mul] at this
    omega
  rw [rotated, BitVec.toNat_ofNat, Nat.add_mod, Nat.mod_eq_of_lt (hlow.trans (Nat.pow_lt_pow_right (by decide) hn)), Nat.shiftLeft_eq,
    Nat.shiftRight_eq_div_pow, hup, Nat.mod_eq_of_lt hlt, ← Nat.shiftLeft_eq, Nat.shiftLeft_add_eq_or_of_lt hlow]

theorem laneRotl_eq : laneRotl = rotlSpec := lane_ext fun i op l => by
  have hn : (i.bv op l).toNat % 32 < 32 := Nat.mod_lt _ (by decide)
  refine congrArg LaneOut.word (BitVec.eq_of_toNat_eq ?_)
  rw [toNat_rotated _ hn, BitVec.toNat_rotateLeft, Nat.mod_eq_of_lt hn]

theorem laneRotr_eq : laneRotr = rotrSpec := lane_ext fun i op l => by
  have hn : (i.bv op l).toNat % 32 < 32 := Nat.mod_lt _ (by decide)
  refine congrArg LaneOut.word (BitVec.eq_of_toNat_eq ?_)
  rw [toNat_rotated _ (Nat.mod_lt _ (by decide)), BitVec.toNat_rotateRight, Nat.mod_eq_of_lt hn]
  generalize (i.bv op l).toNat % 32 = n at hn
  rcases n.eq_zero_or_pos with rfl | hpos
  · have ha := (i.a op l).isLt
    have hround : (i.a op l).toNat >>> 32 = 0 := by rw [Nat.shiftRight_eq_div_pow, Nat.div_eq_of_lt ha]
    have hover : (i.a op l).toNat <<< 32 % 2 ^ 32 = 0 := by rw [Nat.shiftLeft_eq, Nat.mul_mod_left]
    simp only [Nat.sub_zero, Nat.mod_self, hround, hover, Nat.shiftRight_zero, Nat.shiftLeft_zero, Nat.mod_eq_of_lt ha]
  · rw [Nat.mod_eq_of_lt (Nat.sub_lt (by decide) hpos), Nat.sub_sub_self hn.le, Nat.or_comm]

/-- The funnel of two words, as a number. -/
theorem toNat_append (b a : Word) : (b ++ a : DWord).toNat = b.toNat * 2 ^ 32 + a.toNat := by
  rw [BitVec.toNat_append, ← Nat.shiftLeft_add_eq_or_of_lt a.isLt, Nat.shiftLeft_eq]

theorem laneShf_eq : laneShf = shfSpec := lane_ext fun i op l => by
  unfold laneShf shfSpec
  dsimp only
  rw [← toNat_append]
  generalize (i.bv op l ++ i.a op l : DWord) = w
  split
  · rfl
  · split
    all_goals
      refine congrArg LaneOut.word (BitVec.eq_of_toNat_eq ?_)
      simp only [BitVec.extractLsb'_toNat, BitVec.toNat_ushiftRight, BitVec.toNat_shiftLeft, Nat.shiftRight_eq_div_pow, Nat.shiftLeft_eq,
        BitVec.toNat_ofNat, Nat.pow_zero, Nat.div_one]

/-- Settles O3: each form computes its lane function, which is the value that the rules state. -/
theorem logicAndShifts : Obligations.LogicAndShifts := by
  unfold Obligations.LogicAndShifts
  exact ⟨fun _ => computes_of_eq laneAnd_eq, fun _ => computes_of_eq laneAnd_eq, fun _ => computes_of_eq laneAnd_eq,
    fun _ => computes_of_eq laneOr_eq, fun _ => computes_of_eq laneOr_eq, fun _ => computes_of_eq laneOr_eq,
    fun _ => computes_of_eq laneXor_eq, fun _ => computes_of_eq laneXor_eq, fun _ => computes_of_eq laneXor_eq,
    fun _ => computes_of_eq laneAndn_eq, fun _ => computes_of_eq laneAndn_eq, fun _ => computes_of_eq laneOrn_eq,
    fun _ => computes_of_eq laneOrn_eq, fun _ => computes_of_eq laneXnor_eq, fun _ => computes_of_eq laneXnor_eq,
    fun _ => computes_of_eq laneNot_eq, fun _ => computes_of_eq laneNot_eq, fun _ => computes_of_eq laneShl_eq,
    fun _ => computes_of_eq laneShl_eq, fun _ => computes_of_eq laneShl_eq, fun _ => computes_of_eq laneShrl_eq,
    fun _ => computes_of_eq laneShrl_eq, fun _ => computes_of_eq laneShrl_eq, fun _ => computes_of_eq laneShra_eq,
    fun _ => computes_of_eq laneShra_eq, fun _ => computes_of_eq laneShra_eq, fun _ => computes_of_eq laneRotl_eq,
    fun _ => computes_of_eq laneRotl_eq, fun _ => computes_of_eq laneRotr_eq, fun _ => computes_of_eq laneRotr_eq,
    fun _ => computes_of_eq laneShf_eq, fun _ => computes_of_eq laneShl64_eq, fun _ => computes_of_eq laneShl64_eq,
    fun _ => computes_of_eq laneShr64_eq, fun _ => computes_of_eq laneShr64_eq⟩

end Sys2Proof

/-! The special functions, Philox and carry-less products (O8). -/

namespace Sys2Proof

open Sys2Proof.Machine Sys2Proof.Spec

/-! ## Carry-less products (11 R257) -/

/-- Partial product `j` has bit `k`. -/
def partialBit (a b : Word) (k j : Nat) : Bool := decide (j ≤ k) && b.getLsbD j && a.getLsbD (k - j)

/-- A bit of the sum of the first partial products is the parity of those that have it. -/
theorem getLsbD_partials (a b : Word) {k : Nat} (hk : k < 64) (n : Nat) :
    ((List.range n).foldl (fun p j => if b.getLsbD j then p ^^^ (a.zeroExtend 64 <<< j) else p) (0 : DWord)).getLsbD k =
      decide ((List.range n).countP (partialBit a b k) % 2 = 1) := by
  induction n with
  | zero => simp
  | succ n ih =>
    rw [List.range_succ, List.foldl_append, List.countP_append, List.foldl_cons, List.foldl_nil, List.countP_singleton]
    generalize (List.range n).foldl (fun p j => if b.getLsbD j then p ^^^ (a.zeroExtend 64 <<< j) else p) (0 : DWord) = v at ih
    generalize (List.range n).countP (partialBit a b k) = c at ih
    have hbit : (if b.getLsbD n then v ^^^ (a.zeroExtend 64 <<< n) else v).getLsbD k = (v.getLsbD k ^^ partialBit a b k n) := by
      unfold partialBit
      cases b.getLsbD n with
      | false => simp
      | true =>
        rw [if_pos rfl, BitVec.getLsbD_xor, BitVec.getLsbD_shiftLeft, BitVec.getLsbD_setWidth, decide_eq_true hk,
          decide_eq_true (show k - n < 64 by omega), ← decide_not, Bool.true_and, Bool.true_and, Bool.and_true]
        simp only [Nat.not_lt]
    rw [hbit, ih]
    cases partialBit a b k n with
    | false => simp
    | true =>
      rw [Bool.xor_true, if_pos rfl, ← decide_not]
      congr 1
      rw [eq_iff_iff]
      omega

/-- The pairs of bits that make a bit of the product may be counted by either factor. -/
theorem countP_partialBit (a b : Word) (k : Nat) : (List.range 32).countP (partialBit a b k) =
    (List.range 32).countP (fun j => decide (j ≤ k) && a.getLsbD j && b.getLsbD (k - j)) := by
  have hcard : ∀ p : Nat → Bool, (List.range 32).countP p = ((Finset.range 32).filter (fun j => p j = true)).card := fun p => by
    rw [List.countP_eq_length_filter]
    simp [Finset.card, Finset.filter, Finset.range, Multiset.range]
  have hmem : ∀ {v w : Word} {j : Nat}, j ∈ (Finset.range 32).filter (fun j => (decide (j ≤ k) && v.getLsbD j && w.getLsbD (k - j)) = true) →
      k - j ∈ (Finset.range 32).filter (fun j => (decide (j ≤ k) && w.getLsbD j && v.getLsbD (k - j)) = true) ∧ k - (k - j) = j :=
    fun {v w j} h => by
      simp only [Finset.mem_filter, Finset.mem_range, Bool.and_eq_true, decide_eq_true_eq] at h ⊢
      obtain ⟨-, ⟨hj, hv⟩, hw⟩ := h
      rw [Nat.sub_sub_self hj]
      exact ⟨⟨BitVec.lt_of_getLsbD hw, ⟨Nat.sub_le .., hw⟩, hv⟩, rfl⟩
  rw [hcard, hcard]
  exact Finset.card_nbij' (k - ·) (k - ·) (fun _ h => (hmem h).1) (fun _ h => (hmem h).1) (fun _ h => (hmem h).2) (fun _ h => (hmem h).2)

theorem getLsbD_clmul (a b : Word) {k : Nat} (hk : k < 64) : (clmul a b).getLsbD k = clmulBit a b k := by
  rw [clmul, getLsbD_partials a b hk, countP_partialBit, clmulBit]

theorem laneClmul_eq : laneClmul = clmulSpec := lane_ext fun i op l => congrArg LaneOut.word <| eq_wordOfBits fun k hk => by
  split
  · rw [BitVec.getLsbD_extractLsb', decide_eq_true hk, Bool.true_and, Nat.zero_add, getLsbD_clmul _ _ (by omega)]
  · rw [BitVec.getLsbD_extractLsb', decide_eq_true hk, Bool.true_and, Nat.add_comm, getLsbD_clmul _ _ (by omega)]

/-! ## Random numbers (11 R256, 06 R171) -/

/-- The counter and the key of a Philox state, as numbers. -/
def Machine.Philox.counter (s : Philox) : Nat × Nat × Nat × Nat := (s.c0.toNat, s.c1.toNat, s.c2.toNat, s.c3.toNat)
def Machine.Philox.key (s : Philox) : Nat × Nat := (s.k0.toNat, s.k1.toNat)

theorem toNat_mulUnsigned (a b : Word) : (mulUnsigned a b).toNat = a.toNat * b.toNat := by
  rw [mulUnsigned_eq, BitVec.toNat_ofNat, Nat.mod_eq_of_lt]
  exact Nat.mul_lt_mul'' (c := 2 ^ 32) (d := 2 ^ 32) a.isLt b.isLt

theorem toNat_mulUnsigned_upper (a b : Word) : ((mulUnsigned a b).extractLsb' 32 32).toNat = a.toNat * b.toNat / 2 ^ 32 := by
  rw [BitVec.extractLsb'_toNat, toNat_mulUnsigned, Nat.shiftRight_eq_div_pow, Nat.mod_eq_of_lt]
  exact Nat.div_lt_of_lt_mul (Nat.mul_lt_mul'' (c := 2 ^ 32) (d := 2 ^ 32) a.isLt b.isLt)

theorem toNat_mulUnsigned_lower (a b : Word) : ((mulUnsigned a b).extractLsb' 0 32).toNat = a.toNat * b.toNat % 2 ^ 32 := by
  rw [BitVec.extractLsb'_toNat, toNat_mulUnsigned, Nat.shiftRight_zero]

theorem counter_philoxRound (s : Philox) : (philoxRound s).counter = philoxStep s.counter s.key := by
  have hm : (0xD2511F53 : Word).toNat = 0xD2511F53 ∧ (0xCD9E8D57 : Word).toNat = 0xCD9E8D57 := by decide
  simp only [Philox.counter, Philox.key, philoxRound, philoxStep, BitVec.toNat_xor, toNat_mulUnsigned_upper, toNat_mulUnsigned_lower, hm]

theorem key_philoxRound (s : Philox) :
    (philoxRound s).key = ((s.key.1 + 0x9E3779B9) % 2 ^ 32, (s.key.2 + 0xBB67AE85) % 2 ^ 32) := by
  have h0 : (philoxRound s).k0.toNat = (s.k0.toNat + (0x9E3779B9 : Word).toNat) % 2 ^ 32 := BitVec.toNat_add ..
  have h1 : (philoxRound s).k1.toNat = (s.k1.toNat + (0xBB67AE85 : Word).toNat) % 2 ^ 32 := BitVec.toNat_add ..
  have hk : (0x9E3779B9 : Word).toNat = 0x9E3779B9 ∧ (0xBB67AE85 : Word).toNat = 0xBB67AE85 := by decide
  rw [hk.1] at h0
  rw [hk.2] at h1
  rw [Philox.key, h0, h1, Philox.key]

theorem counter_iterate_philoxRound (n : Nat) (s : Philox) : (philoxRound^[n] s).counter = philoxSteps n s.counter s.key := by
  induction n generalizing s with
  | zero => rfl
  | succ n ih => rw [Function.iterate_succ_apply, ih, counter_philoxRound, key_philoxRound, philoxSteps.eq_def n.succ]

/-- Four words as one number, low first. -/
theorem toNat_quad (a b c d : Word) :
    ((d ++ c) ++ (b ++ a) : BitVec 128).toNat = a.toNat + b.toNat * 2 ^ 32 + c.toNat * 2 ^ 64 + d.toNat * 2 ^ 96 := by
  rw [BitVec.toNat_append, ← Nat.shiftLeft_add_eq_or_of_lt (b ++ a).isLt, toNat_append, toNat_append, Nat.shiftLeft_eq]
  ring

/-- The state that Philox starts from. -/
def philoxStart (key : DWord) (ctr : BitVec 128) : Philox :=
  { c0 := ctr.extractLsb' (32 * 0) 32, c1 := ctr.extractLsb' (32 * 1) 32, c2 := ctr.extractLsb' (32 * 2) 32,
    c3 := ctr.extractLsb' (32 * 3) 32, k0 := key.extractLsb' 0 32, k1 := key.extractLsb' 32 32 }

theorem key_philoxStart (key : DWord) (ctr : BitVec 128) : (philoxStart key ctr).key = (key.toNat % 2 ^ 32, key.toNat / 2 ^ 32) := by
  have hlow : (key.extractLsb' 0 32).toNat = key.toNat % 2 ^ 32 := by rw [BitVec.extractLsb'_toNat, Nat.shiftRight_zero]
  have hup : (key.extractLsb' 32 32).toNat = key.toNat / 2 ^ 32 := by
    rw [BitVec.extractLsb'_toNat, Nat.shiftRight_eq_div_pow, Nat.mod_eq_of_lt]
    have := key.isLt
    omega
  rw [Philox.key, ← hlow, ← hup, philoxStart]

theorem counter_philoxStart (key : DWord) (ctr : BitVec 128) : (philoxStart key ctr).counter =
    (ctr.toNat / 2 ^ (32 * 0) % 2 ^ 32, ctr.toNat / 2 ^ (32 * 1) % 2 ^ 32, ctr.toNat / 2 ^ (32 * 2) % 2 ^ 32, ctr.toNat / 2 ^ (32 * 3) % 2 ^ 32) := by
  simp only [Philox.counter, philoxStart, BitVec.extractLsb'_toNat, Nat.shiftRight_eq_div_pow]

/-- The words that Philox delivers are the counter after ten rounds. -/
theorem toNat_philox (key : DWord) (ctr : BitVec 128) : (philox key ctr).toNat =
    let c := (philoxRound^[10] (philoxStart key ctr)).counter
    c.1 + c.2.1 * 2 ^ 32 + c.2.2.1 * 2 ^ 64 + c.2.2.2 * 2 ^ 96 := toNat_quad ..

theorem laneRng_eq : laneRng = rngSpec := lane_ext fun i op l => by
  have h := toNat_philox (i.a64 op l) (i.src128 op.o.b l)
  rw [counter_iterate_philoxRound, counter_philoxStart, key_philoxStart] at h
  have hval := congrArg (BitVec.ofNat 128) h
  rw [BitVec.ofNat_toNat, BitVec.setWidth_eq] at hval
  rw [laneRng, rngSpec, hval]

/-- Settles O8: the functions of R255 compute their lane functions; RNG and CLMUL, the values that the rules state. -/
theorem specialFunctions : Obligations.SpecialFunctions := by
  unfold Obligations.SpecialFunctions
  exact ⟨fun _ => laneOp_computes _ laneRcp, fun _ => laneOp_computes _ laneRcp, fun _ => laneOp_computes _ laneRsq,
    fun _ => laneOp_computes _ laneRsq, fun _ => laneOp_computes _ laneEx2, fun _ => laneOp_computes _ laneEx2,
    fun _ => laneOp_computes _ laneLg2, fun _ => laneOp_computes _ laneLg2, fun _ => laneOp_computes _ laneSin,
    fun _ => laneOp_computes _ laneSin, fun _ => laneOp_computes _ laneCos, fun _ => laneOp_computes _ laneCos,
    fun _ => laneOp_computes _ laneTanh, fun _ => laneOp_computes _ laneTanh, fun _ => laneOp_computes _ laneSgmd,
    fun _ => laneOp_computes _ laneSgmd, fun _ => computes_of_eq laneRng_eq, fun _ => computes_of_eq laneRng_eq,
    fun _ => computes_of_eq laneClmul_eq, fun _ => computes_of_eq laneClmul_eq⟩

end Sys2Proof

/-! The one rounding of 06 R153 and R154: the model's integers against the exact real number.

A magnitude `y` is known to the model as a significand `m`, an exponent `e` and a sticky bit (`Tracks`): they compare with every multiple of a power
of two as `y` does, which is all that rounding asks. `splitAtBit` then says where `y` lies between two units (`Splits`), and `roundUnits` is
`roundedInt` of it (`roundedInt_of_splits`). -/

namespace Sys2Proof

open Sys2Proof.Machine Sys2Proof.Spec

/-! ## Powers of two and signs -/

theorem pow2_pos (z : ℤ) : 0 < pow2 z := zpow_pos two_pos z

theorem pow2_ne_zero (z : ℤ) : pow2 z ≠ 0 := (pow2_pos z).ne'

theorem pow2_add (a b : ℤ) : pow2 (a + b) = pow2 a * pow2 b := zpow_add₀ two_ne_zero a b

theorem pow2_natCast (n : ℕ) : pow2 n = ((2 ^ n : ℕ) : ℝ) := by
  rw [pow2, zpow_natCast]
  push_cast
  rfl

theorem pow2_le_pow2 {a b : ℤ} : pow2 a ≤ pow2 b ↔ a ≤ b := zpow_le_zpow_iff_right₀ one_lt_two

/-- A power of two in units of a smaller one. -/
theorem pow2_of_le {a b : ℤ} (h : a ≤ b) : pow2 b = ((2 ^ (b - a).toNat : ℕ) : ℝ) * pow2 a := by
  rw [← pow2_natCast, ← pow2_add]
  congr 1
  omega

/-- A magnitude with a sign. -/
def sgn (s : Bool) (y : ℝ) : ℝ := if s then -y else y

/-- A number with a sign. -/
def sgnInt (s : Bool) (n : ℕ) : ℤ := if s then -n else n

@[simp] theorem cast_sgnInt (s : Bool) (n : ℕ) : ((sgnInt s n : ℤ) : ℝ) = sgn s n := by
  cases s <;> simp [sgn, sgnInt]

@[simp] theorem abs_sgn (s : Bool) (y : ℝ) : |sgn s y| = |y| := by
  cases s <;> simp [sgn]

theorem sgn_mul (s : Bool) (y z : ℝ) : sgn s y * z = sgn s (y * z) := by
  cases s <;> simp [sgn]

theorem sgn_div (s : Bool) (y z : ℝ) : sgn s y / z = sgn s (y / z) := by
  cases s <;> simp [sgn, neg_div]

@[simp] theorem sgn_inj {s : Bool} {y z : ℝ} : sgn s y = sgn s z ↔ y = z := by
  cases s <;> simp [sgn]

theorem sgn_neg_iff {s : Bool} {y : ℝ} (hy : 0 < y) : sgn s y < 0 ↔ s = true := by
  cases s
  · simp [sgn, hy.le]
  · simp [sgn, hy]

/-! ## Where a magnitude lies between two units -/

/-- `z` is `n` units (class 0), or above them by less than a half (1), a half (2), or more (3). -/
def Splits (z : ℝ) (n cls : ℕ) : Prop :=
  (cls = 0 ∧ z = n) ∨ (cls = 1 ∧ (n : ℝ) < z ∧ z < n + 1 / 2) ∨ (cls = 2 ∧ z = n + 1 / 2) ∨
    (cls = 3 ∧ (n : ℝ) + 1 / 2 < z ∧ z < n + 1)

section

variable {z : ℝ} {n cls : ℕ}

theorem Splits.exact (h : Splits z n cls) (hc : cls = 0) : z = n := by
  rcases h with ⟨-, h⟩ | ⟨h, -⟩ | ⟨h, -⟩ | ⟨h, -⟩
  · exact h
  all_goals omega

theorem Splits.between (h : Splits z n cls) (hc : cls ≠ 0) : (n : ℝ) < z ∧ z < n + 1 := by
  rcases h with ⟨h, -⟩ | ⟨-, h1, h2⟩ | ⟨-, rfl⟩ | ⟨-, h1, h2⟩
  · exact absurd h hc
  all_goals constructor <;> linarith

theorem Splits.le (h : Splits z n cls) : (n : ℝ) ≤ z := by
  by_cases hc : cls = 0
  · exact (h.exact hc).ge
  · exact (h.between hc).1.le

theorem Splits.lt (h : Splits z n cls) : z < n + 1 := by
  by_cases hc : cls = 0
  · rw [h.exact hc]
    exact lt_add_one _
  · exact (h.between hc).2

theorem Splits.floor (h : Splits z n cls) : ⌊z⌋ = n := Int.floor_eq_iff.mpr ⟨by exact_mod_cast h.le, by exact_mod_cast h.lt⟩

theorem Splits.ceil (h : Splits z n cls) : ⌈z⌉ = if cls = 0 then (n : ℤ) else n + 1 := by
  split
  case isTrue hc =>
    rw [h.exact hc]
    exact Int.ceil_natCast n
  case isFalse hc =>
    refine Int.ceil_eq_iff.mpr ⟨?_, ?_⟩
    · push_cast
      linarith [(h.between hc).1]
    · exact_mod_cast (h.between hc).2.le

/-- The nearest integer, ties to even. -/
theorem Splits.nearest (h : Splits z n cls) : roundedInt 0 z = roundUnits 0 false n cls := by
  unfold roundedInt roundUnits
  rw [h.floor]
  rcases h with ⟨rfl, rfl⟩ | ⟨rfl, h1, h2⟩ | ⟨rfl, rfl⟩ | ⟨rfl, h1, h2⟩
  · rw [if_pos (by simp)]
    simp
  · rw [if_pos (by push_cast; linarith)]
    simp
  · rw [if_neg (by push_cast; linarith), if_neg (by push_cast; linarith)]
    rcases Nat.mod_two_eq_zero_or_one n with hn | hn
    · rw [if_pos (by omega)]
      simp [hn]
    · rw [if_neg (by omega)]
      simp [hn]
  · rw [if_neg (by push_cast; linarith), if_pos (by push_cast; linarith)]
    simp

/-- The nearest integer of the opposite number. -/
theorem Splits.nearest_neg (h : Splits z n cls) : roundedInt 0 (-z) = -(roundUnits 0 true n cls : ℤ) := by
  unfold roundedInt roundUnits
  rw [Int.floor_neg, h.ceil]
  rcases h with ⟨rfl, rfl⟩ | ⟨rfl, h1, h2⟩ | ⟨rfl, rfl⟩ | ⟨rfl, h1, h2⟩
  · rw [if_pos (by simp)]
    simp
  · rw [if_neg (by push_cast; linarith), if_pos (by push_cast; linarith)]
    simp
  · rw [if_neg (by push_cast; linarith), if_neg (by push_cast; linarith)]
    rcases Nat.mod_two_eq_zero_or_one n with hn | hn
    · rw [if_neg (by omega)]
      simp [hn]
    · rw [if_pos (by omega)]
      simp [hn]
  · rw [if_pos (by push_cast; linarith)]
    simp

/-- Of the directed modes one takes the unit below and the other that above, or the unit itself. -/
theorem roundUnits_down (n cls : ℕ) (s : Bool) : roundUnits 2 s n cls = if s = true ∧ cls ≠ 0 then n + 1 else n := by
  simp [roundUnits]

theorem roundUnits_up (n cls rm : ℕ) (s : Bool) : roundUnits (rm + 3) s n cls = if s = false ∧ cls ≠ 0 then n + 1 else n := by
  simp [roundUnits]

/-- The model's rounding of units is the rounding of the number. -/
theorem roundedInt_of_splits (h : Splits z n cls) (rm : ℕ) (s : Bool) : roundedInt rm (sgn s z) = sgnInt s (roundUnits rm s n cls) := by
  match rm with
  | 0 =>
    cases s with
    | false => exact h.nearest
    | true => exact h.nearest_neg
  | 1 =>
    show (if 0 ≤ sgn s z then ⌊sgn s z⌋ else ⌈sgn s z⌉) = sgnInt s n
    have hz : 0 ≤ z := (Nat.cast_nonneg n).trans h.le
    cases s with
    | false => rw [if_pos (by exact hz)]; exact h.floor
    | true =>
      show (if 0 ≤ -z then ⌊-z⌋ else ⌈-z⌉) = -(n : ℤ)
      split
      case isTrue h0 =>
        obtain rfl : z = 0 := by linarith
        obtain rfl : n = 0 := by
          have := h.floor
          rw [Int.floor_zero] at this
          exact_mod_cast this.symm
        simp
      case isFalse => rw [Int.ceil_neg, h.floor]
  | 2 =>
    show ⌊sgn s z⌋ = _
    rw [roundUnits_down]
    cases s with
    | false => simpa [sgnInt, sgn] using h.floor
    | true =>
      show ⌊-z⌋ = -_
      rw [Int.floor_neg, h.ceil]
      by_cases hc : cls = 0 <;> simp [hc]
  | rm + 3 =>
    show ⌈sgn s z⌉ = _
    rw [roundUnits_up]
    cases s with
    | false =>
      show ⌈z⌉ = ((_ : ℕ) : ℤ)
      rw [h.ceil]
      by_cases hc : cls = 0 <;> simp [hc]
    | true =>
      show ⌈-z⌉ = -((_ : ℕ) : ℤ)
      rw [Int.ceil_neg, h.floor]
      simp

theorem roundUnits_zero (rm : ℕ) (s : Bool) (n : ℕ) : roundUnits rm s n 0 = n := by
  match rm with
  | 0 => rfl
  | 1 => rfl
  | 2 => simp [roundUnits_down]
  | rm + 3 => simp [roundUnits_up]

/-- Units are rounded to themselves or to the next one. -/
theorem roundUnits_cases (rm : ℕ) (s : Bool) (n cls : ℕ) : roundUnits rm s n cls = n ∨ roundUnits rm s n cls = n + 1 := by
  match rm with
  | 0 => unfold roundUnits; split_ifs <;> simp
  | 1 => exact .inl rfl
  | 2 => rw [roundUnits_down]; split_ifs <;> simp
  | rm + 3 => rw [roundUnits_up]; split_ifs <;> simp

/-- Rounding changes what is not an integer. -/
theorem Splits.rounded_eq_iff (h : Splits z n cls) (rm : ℕ) (s : Bool) : (roundUnits rm s n cls : ℝ) = z ↔ cls = 0 := by
  by_cases hc : cls = 0
  · simp [hc, roundUnits_zero, h.exact hc]
  · obtain ⟨hlo, hhi⟩ := h.between hc
    refine iff_of_false (fun he => ?_) hc
    rcases roundUnits_cases rm s n cls with hu | hu
    all_goals
      rw [hu] at he
      push_cast at he
      linarith

/-- Rounding does not pass an integer. -/
theorem Splits.le_rounded (h : Splits z n cls) (rm : ℕ) (s : Bool) {k : ℕ} (hk : (k : ℝ) ≤ z) : k ≤ roundUnits rm s n cls := by
  have hkn : k < n + 1 := by exact_mod_cast hk.trans_lt h.lt
  rcases roundUnits_cases rm s n cls with hu | hu <;> omega

theorem Splits.rounded_le (h : Splits z n cls) (rm : ℕ) (s : Bool) {k : ℕ} (hk : z ≤ k) : roundUnits rm s n cls ≤ k := by
  by_cases hc : cls = 0
  · rw [hc, roundUnits_zero]
    exact_mod_cast (h.exact hc).symm.le.trans hk
  · have hnk : n < k := by exact_mod_cast (h.between hc).1.trans_le hk
    rcases roundUnits_cases rm s n cls with hu | hu <;> omega

end

/-! ## A magnitude as a significand, an exponent and a sticky bit -/

/-- `m * 2^e` with its sticky bit compares as `y` does with every multiple of a power of two from 2^q0 up. -/
structure Tracks (m : ℕ) (e : ℤ) (sticky : Bool) (y : ℝ) (q0 : ℤ) : Prop where
  rest : sticky = true → e ≤ q0
  le_iff : ∀ q, q0 ≤ q → ∀ t : ℕ, (t : ℝ) * pow2 q ≤ y ↔ (t : ℝ) * pow2 q ≤ m * pow2 e
  eq_iff : ∀ q, q0 ≤ q → ∀ t : ℕ, y = t * pow2 q ↔ sticky = false ∧ (m : ℝ) * pow2 e = t * pow2 q

theorem tracks_exact (m : ℕ) (e q0 : ℤ) : Tracks m e false (m * pow2 e) q0 :=
  ⟨nofun, fun _ _ _ => .rfl, fun _ _ _ => by simp⟩

/-- A magnitude that lies strictly between two significands. -/
theorem tracks_between {m : ℕ} {e : ℤ} {y : ℝ} (hlo : (m : ℝ) * pow2 e < y) (hhi : y < (m + 1) * pow2 e) : Tracks m e true y e := by
  have hunit : ∀ q, e ≤ q → ∀ t : ℕ, ∃ k : ℕ, (t : ℝ) * pow2 q = k * pow2 e := fun q hq t =>
    ⟨t * 2 ^ (q - e).toNat, by rw [pow2_of_le hq]; push_cast; ring⟩
  have hpos := pow2_pos e
  refine ⟨fun _ => le_rfl, fun q hq t => ?_, fun q hq t => ?_⟩
  · obtain ⟨k, hk⟩ := hunit q hq t
    rw [hk]
    refine ⟨fun h => ?_, fun h => h.trans hlo.le⟩
    have : (k : ℝ) < m + 1 := lt_of_mul_lt_mul_right (h.trans_lt hhi) hpos.le
    have : k ≤ m := Nat.lt_succ_iff.mp (by exact_mod_cast this)
    exact mul_le_mul_of_nonneg_right (by exact_mod_cast this) hpos.le
  · obtain ⟨k, hk⟩ := hunit q hq t
    rw [hk]
    refine iff_of_false (fun h => ?_) (fun h => by cases h.1)
    rw [h] at hlo hhi
    have h1 : (m : ℝ) < k := lt_of_mul_lt_mul_right hlo hpos.le
    have h2 : (k : ℝ) < m + 1 := lt_of_mul_lt_mul_right hhi hpos.le
    have : m < k := by exact_mod_cast h1
    have : k < m + 1 := by exact_mod_cast h2
    omega

/-- The class of a rest `r` of units of `h`. -/
def restClass (r h : ℕ) (sticky : Bool) : ℕ :=
  if r = 0 && !sticky then 0 else if 2 * r < h then 1 else if 2 * r = h && !sticky then 2 else 3

theorem splitAtBit_eq (m sh : ℕ) (sticky : Bool) : splitAtBit m sh sticky = (m / 2 ^ sh, restClass (m % 2 ^ sh) (2 ^ sh) sticky) := by
  unfold splitAtBit restClass
  split
  case isTrue hsh =>
    have hlt : 2 * m < 2 ^ sh := by
      have h1 : m < 2 ^ (m.log2 + 1) := Nat.lt_log2_self
      have h2 : 2 ^ (m.log2 + 1 + 1) ≤ 2 ^ sh := Nat.pow_le_pow_right (by decide) (by omega)
      rw [Nat.pow_succ] at h2
      omega
    rw [Nat.div_eq_of_lt (by omega), Nat.mod_eq_of_lt (by omega), if_pos hlt]
  case isFalse => rfl

/-- A number that compares with halves as `m / h` does lies where the rest of that quotient says. -/
theorem splits_of_halves {z : ℝ} {m h : ℕ} {sticky : Bool} (hh : 0 < h) (hle : ∀ t : ℕ, (t : ℝ) / 2 ≤ z ↔ t * h ≤ 2 * m)
    (heq : ∀ t : ℕ, z = t / 2 ↔ sticky = false ∧ 2 * m = t * h) : Splits z (m / h) (restClass (m % h) h sticky) := by
  have hdiv := Nat.div_add_mod m h
  have hmod := Nat.mod_lt m hh
  generalize m / h = n at hdiv
  generalize m % h = r at hdiv hmod
  subst hdiv
  have hlo : (n : ℝ) ≤ z := by
    have := (hle (2 * n)).mpr (by nlinarith)
    push_cast at this
    linarith
  have hhi : z < n + 1 := by
    have := mt (hle (2 * n + 2)).mp (by nlinarith)
    push_cast at this
    linarith
  have hmid : (n : ℝ) + 1 / 2 ≤ z ↔ h ≤ 2 * r := by
    have := hle (2 * n + 1)
    push_cast at this
    rw [show (n : ℝ) + 1 / 2 = (2 * n + 1) / 2 by ring, this]
    constructor <;> intro <;> nlinarith
  have heq0 : z = n ↔ r = 0 ∧ sticky = false := by
    have := heq (2 * n)
    push_cast at this
    rw [show (n : ℝ) = 2 * n / 2 by ring, this, and_comm]
    refine and_congr_left fun _ => ?_
    constructor <;> intro <;> nlinarith
  have heq1 : z = n + 1 / 2 ↔ 2 * r = h ∧ sticky = false := by
    have := heq (2 * n + 1)
    push_cast at this
    rw [show (n : ℝ) + 1 / 2 = (2 * n + 1) / 2 by ring, this, and_comm]
    refine and_congr_left fun _ => ?_
    constructor <;> intro <;> nlinarith
  simp only [restClass, Bool.and_eq_true, decide_eq_true_eq, Bool.not_eq_true', ← heq0, ← heq1]
  split_ifs with h0 hlt h1
  · exact .inl ⟨rfl, h0⟩
  · exact .inr (.inl ⟨rfl, lt_of_le_of_ne hlo (Ne.symm h0), lt_of_not_ge (mt hmid.mp (by omega))⟩)
  · exact .inr (.inr (.inl ⟨rfl, h1⟩))
  · exact .inr (.inr (.inr ⟨rfl, lt_of_le_of_ne (hmid.mpr (by omega)) (Ne.symm h1), hhi⟩))

section

variable {m : ℕ} {e q0 q : ℤ} {sticky : Bool} {y : ℝ}

/-- `splitAtBit` finds the units below a magnitude, and the class of the rest. -/
theorem Tracks.split (h : Tracks m e sticky y q0) (hq : q0 < q) (he : e < q) :
    Splits (y / pow2 q) (splitAtBit m (q - e).toNat sticky).1 (splitAtBit m (q - e).toNat sticky).2 := by
  have hpos := pow2_pos q
  have hhalf : ∀ t : ℕ, (t : ℝ) / 2 * pow2 q = t * pow2 (q - 1) := fun t => by
    rw [show q = q - 1 + 1 by ring, pow2_add, add_sub_cancel_right, show pow2 1 = 2 from zpow_one 2]
    ring
  have hunit : ∀ t : ℕ, 2 * (t * pow2 (q - 1)) = ((t * 2 ^ (q - e).toNat : ℕ) : ℝ) * pow2 e := fun t => by
    rw [← hhalf, pow2_of_le he.le]
    push_cast
    ring
  have hm : 2 * (m * pow2 e) = ((2 * m : ℕ) : ℝ) * pow2 e := by
    push_cast
    ring
  rw [splitAtBit_eq]
  refine splits_of_halves (by positivity) (fun t => ?_) (fun t => ?_)
  · rw [le_div_iff₀ hpos, hhalf, h.le_iff _ (by omega), ← mul_le_mul_iff_right₀ two_pos, hunit, hm, mul_le_mul_iff_left₀ (pow2_pos e),
      Nat.cast_le]
  · rw [div_eq_iff hpos.ne', hhalf, h.eq_iff _ (by omega), ← mul_right_inj' (two_ne_zero (α := ℝ)), hunit, hm,
      mul_left_inj' (pow2_ne_zero e), Nat.cast_inj]

/-- The units of a magnitude, and whether they are all of it. -/
theorem Tracks.units_split (h : Tracks m e sticky y q0) (hq : q0 < q) (rm : ℕ) (s : Bool) :
    ∃ n cls, Splits (y / pow2 q) n cls ∧ unitsAt rm s m e q sticky = (roundUnits rm s n cls, decide (cls = 0)) := by
  unfold unitsAt
  split
  case isTrue hqe =>
    have hs : sticky = false := by
      cases sticky with
      | false => rfl
      | true =>
        have := h.rest rfl
        omega
    have hy : y = (m * 2 ^ (e - q).toNat : ℕ) * pow2 q :=
      (h.eq_iff q hq.le _).mpr ⟨hs, by rw [pow2_of_le hqe]; push_cast; ring⟩
    refine ⟨m * 2 ^ (e - q).toNat, 0, .inl ⟨rfl, ?_⟩, ?_⟩
    · rw [hy, mul_div_cancel_right₀ _ (pow2_ne_zero q)]
    · simp [hs, roundUnits_zero]
  case isFalse hqe => exact ⟨_, _, h.split hq (by omega), rfl⟩

end

end Sys2Proof

/-! Magnitudes rounded to a format (06 R154, R155): `roundMag` against the numbers that `Codes.wide` and `Codes.kept` round to. -/

namespace Sys2Proof

open Sys2Proof.Machine Sys2Proof.Spec

/-! ## The numbers that codes stand for -/

/-- The number that a code without a sign stands for, in units of the least one above zero. -/
def codeUnits (fb v : ℕ) : ℕ := if v / 2 ^ fb = 0 then v % 2 ^ fb else (2 ^ fb + v % 2 ^ fb) * 2 ^ (v / 2 ^ fb - 1)

/-- A significand `d` of the exponent field `n`, carried into the next one where it is twice the least. -/
theorem codeUnits_encode {fb n d : ℕ} (hn : 1 ≤ n) (hd : d ≤ 2 ^ (fb + 1)) (hnorm : 2 ^ fb ≤ d ∨ n = 1) :
    codeUnits fb ((n - 1) * 2 ^ fb + d) = d * 2 ^ (n - 1) := by
  obtain ⟨k, rfl⟩ : ∃ k, n = k + 1 := ⟨n - 1, by omega⟩
  rw [Nat.add_sub_cancel, codeUnits]
  have hpos : 0 < 2 ^ fb := Nat.two_pow_pos fb
  rw [Nat.pow_succ] at hd
  have hdm : ∀ a r, r < 2 ^ fb → (a * 2 ^ fb + r) / 2 ^ fb = a ∧ (a * 2 ^ fb + r) % 2 ^ fb = r := fun a r hr => by
    rw [Nat.add_comm, Nat.add_mul_div_right _ _ hpos, Nat.add_mul_mod_self_right, Nat.div_eq_of_lt hr, Nat.mod_eq_of_lt hr, Nat.zero_add]
    exact ⟨rfl, rfl⟩
  rcases Nat.lt_or_ge d (2 ^ fb) with hlt | hge
  · obtain rfl : k = 0 := by omega
    obtain ⟨h1, h2⟩ := hdm 0 d hlt
    rw [h1, h2]
    simp
  · obtain ⟨r, rfl⟩ := Nat.exists_eq_add_of_le hge
    rcases Nat.lt_or_ge r (2 ^ fb) with hr | hr
    · obtain ⟨h1, h2⟩ := hdm (k + 1) r hr
      rw [← Nat.add_assoc, show k * 2 ^ fb + 2 ^ fb = (k + 1) * 2 ^ fb by ring, h1, h2]
      simp
    · obtain rfl : r = 2 ^ fb := by omega
      obtain ⟨h1, h2⟩ := hdm (k + 2) 0 hpos
      rw [show k * 2 ^ fb + (2 ^ fb + 2 ^ fb) = (k + 2) * 2 ^ fb + 0 by ring, h1, h2]
      simp only [Nat.add_zero, show ¬ k + 2 = 0 by omega, if_false, show k + 2 - 1 = k + 1 by omega, Nat.pow_succ]
      ring

theorem exists_encode (fb v : ℕ) : ∃ n d, 1 ≤ n ∧ d < 2 ^ (fb + 1) ∧ (2 ^ fb ≤ d ∨ n = 1) ∧ v = (n - 1) * 2 ^ fb + d := by
  have hdiv := Nat.div_add_mod' v (2 ^ fb)
  have hmod := Nat.mod_lt v (Nat.two_pow_pos fb)
  rw [Nat.pow_succ]
  cases hk : v / 2 ^ fb with
  | zero =>
    rw [hk] at hdiv
    exact ⟨1, v % 2 ^ fb, le_rfl, by omega, .inr rfl, by omega⟩
  | succ k =>
    rw [hk, Nat.succ_mul] at hdiv
    exact ⟨k + 1, 2 ^ fb + v % 2 ^ fb, by omega, by omega, .inl (by omega), by rw [Nat.add_sub_cancel]; omega⟩

theorem codeUnits_lt_succ (fb v : ℕ) : codeUnits fb v < codeUnits fb (v + 1) := by
  obtain ⟨n, d, hn, hd, hnorm, rfl⟩ := exists_encode fb v
  rw [Nat.add_assoc, codeUnits_encode hn hd.le hnorm, codeUnits_encode hn hd (hnorm.imp_left (by omega))]
  exact Nat.mul_lt_mul_of_pos_right (Nat.lt_succ_self d) (Nat.two_pow_pos _)

theorem codeUnits_strictMono (fb : ℕ) : StrictMono (codeUnits fb) := strictMono_nat_of_lt_succ (codeUnits_lt_succ fb)

section

variable (c : Codes) (s : Bool) {v : ℕ} (hv : v < 2 ^ (c.e + c.f))
include hv

theorem low_withSign : c.low (c.withSign s v) = v := by
  cases s <;> simp [Codes.low, Codes.withSign, Nat.mod_eq_of_lt hv]

theorem neg_withSign : c.neg (c.withSign s v) = s := by
  cases s <;> simp [Codes.neg, Codes.withSign, Nat.div_eq_of_lt hv, Nat.add_div_left _ (Nat.two_pow_pos _)]

theorem withSign_lt : c.withSign s v < 2 ^ (1 + c.e + c.f) := by
  have : 2 ^ (1 + c.e + c.f) = 2 * 2 ^ (c.e + c.f) := by ring
  cases s <;> simp [Codes.withSign] <;> omega

end

theorem real_eq (c : Codes) (v : ℕ) : c.real v = sgn (c.neg v) (codeUnits c.f (c.low v) * pow2 (1 - c.bias - c.f)) := by
  have hexp : c.low v / 2 ^ c.f = v / 2 ^ c.f % 2 ^ c.e := by
    rw [Codes.low, Nat.add_comm, Nat.pow_add, Nat.mod_mul_right_div_self]
  have hfrac : c.low v % 2 ^ c.f = v % 2 ^ c.f := by
    rw [Codes.low, Nat.add_comm, Nat.pow_add, Nat.mod_mul_right_mod]
  have hsign : ∀ z : ℝ, (if c.neg v then -1 else 1) * z = sgn (c.neg v) z := fun z => by
    cases c.neg v <;> simp [sgn]
  unfold Codes.real
  dsimp only
  rw [hsign, codeUnits, hexp, hfrac]
  congr 1
  split
  case isTrue => rfl
  case isFalse hbe =>
    obtain ⟨k, hk⟩ := Nat.exists_eq_succ_of_ne_zero hbe
    rw [hk, Nat.succ_sub_one, Nat.cast_mul, mul_assoc, ← pow2_natCast, ← pow2_add]
    congr 2
    push_cast
    ring

theorem real_withSign (c : Codes) (s : Bool) {v : ℕ} (hv : v < 2 ^ (c.e + c.f)) :
    c.real (c.withSign s v) = sgn s (codeUnits c.f v * pow2 (1 - c.bias - c.f)) := by
  rw [real_eq, low_withSign c s hv, neg_withSign c s hv]

theorem codeUnits_eq_zero {fb v : ℕ} : codeUnits fb v = 0 ↔ v = 0 := by
  have h0 : codeUnits fb 0 = 0 := by simp [codeUnits]
  rw [← h0, (codeUnits_strictMono fb).injective.eq_iff, h0]

/-- A code is its bits below the sign, with its sign. -/
theorem withSign_neg_low (c : Codes) {v : ℕ} (hv : v < 2 ^ (1 + c.e + c.f)) : c.withSign (c.neg v) (c.low v) = v := by
  have hlt : v / 2 ^ (c.e + c.f) < 2 := Nat.div_lt_of_lt_mul (by rwa [show 2 ^ (c.e + c.f) * 2 = 2 ^ (1 + c.e + c.f) by ring])
  have hdiv := Nat.div_add_mod v (2 ^ (c.e + c.f))
  unfold Codes.withSign Codes.neg Codes.low
  rcases Nat.lt_or_ge (v / 2 ^ (c.e + c.f)) 1 with h | h
  · have h0 : v / 2 ^ (c.e + c.f) = 0 := Nat.lt_one_iff.mp h
    rw [h0] at hdiv ⊢
    simpa using hdiv
  · have h1 : v / 2 ^ (c.e + c.f) = 1 := Nat.le_antisymm (Nat.le_of_lt_succ hlt) h
    rw [h1] at hdiv ⊢
    simpa using hdiv

theorem sgn_eq_zero {s : Bool} {y : ℝ} : sgn s y = 0 ↔ y = 0 := by
  cases s <;> simp [sgn]

theorem real_eq_zero {c : Codes} {v : ℕ} : c.real v = 0 ↔ c.low v = 0 := by
  rw [real_eq, sgn_eq_zero, mul_eq_zero, or_iff_left (pow2_ne_zero _), Nat.cast_eq_zero, codeUnits_eq_zero]

/-! ## Formats of the model as formats of the rules -/

/-- The codes of a format of the model. -/
def Machine.Fmt.codes (f : Fmt) : Codes := ⟨f.ebits, f.fbits, f.bias⟩

/-- The largest finite value is a normal one, and its code lies below the sign. -/
structure Machine.Fmt.Sound (f : Fmt) : Prop where
  le_maxMant : 2 ^ f.fbits ≤ f.maxMant
  maxMant_lt : f.maxMant < 2 ^ (f.fbits + 1)
  emin_le : f.emin ≤ f.emax
  maxCode_lt : f.maxCode < 2 ^ (f.ebits + f.fbits)

theorem sound_fp32 : fp32.Sound := ⟨by decide, by decide, by decide, by decide⟩
theorem sound_fp16 : fp16.Sound := ⟨by decide, by decide, by decide, by decide⟩
theorem sound_bf16 : bf16.Sound := ⟨by decide, by decide, by decide, by decide⟩
theorem sound_e5m2 : e5m2.Sound := ⟨by decide, by decide, by decide, by decide⟩
theorem sound_e4m3 : e4m3.Sound := ⟨by decide, by decide, by decide, by decide⟩
theorem sound_e2m1 : e2m1.Sound := ⟨by decide, by decide, by decide, by decide⟩
theorem sound_s24 : s24.Sound := ⟨by decide, by decide, by decide, by decide⟩

theorem signed_eq_withSign (f : Fmt) (s : Bool) (v : ℕ) : f.signed s v = f.codes.withSign s v := rfl

/-- The significand `d` of the exponent `p`, as a number. -/
theorem codeUnits_mul_emin {f : Fmt} {d n : ℕ} {q : ℤ} (hn : 1 ≤ n) (hq : q = n + f.emin - f.fbits - 1) :
    ((d * 2 ^ (n - 1) : ℕ) : ℝ) * pow2 (f.emin - f.fbits) = d * pow2 q := by
  rw [Nat.cast_mul, mul_assoc, ← pow2_natCast, ← pow2_add]
  congr 2
  omega

theorem codeUnits_maxCode {f : Fmt} (hf : f.Sound) :
    (codeUnits f.fbits f.maxCode : ℝ) * pow2 (f.emin - f.fbits) = f.maxMant * pow2 (f.emax - f.fbits) := by
  have hemin := hf.emin_le
  have hle := hf.le_maxMant
  unfold Fmt.emin at hemin
  have hn : 1 ≤ (f.emax + f.bias).toNat := by omega
  have hcode : f.maxCode = ((f.emax + f.bias).toNat - 1) * 2 ^ f.fbits + f.maxMant := by
    obtain ⟨k, hk⟩ := Nat.exists_eq_add_of_le' hn
    rw [Fmt.maxCode, hk, Nat.add_sub_cancel, Nat.succ_mul]
    omega
  rw [hcode, codeUnits_encode hn hf.maxMant_lt.le (.inl hle), codeUnits_mul_emin hn]
  unfold Fmt.emin
  omega

theorem real_maxCode {f : Fmt} (hf : f.Sound) : f.codes.real f.maxCode = f.maxMant * pow2 (f.emax - f.fbits) := by
  rw [← codeUnits_maxCode hf]
  exact real_withSign f.codes false hf.maxCode_lt

/-! ## Magnitudes in units of a power of two -/

section

variable {m : ℕ} {e q0 q : ℤ} {sticky : Bool} {y : ℝ}

/-- The model's units of a magnitude are those of `onGrid`. -/
theorem Tracks.onGrid_eq (h : Tracks m e sticky y q0) (hq : q0 < q) (rm : ℕ) (s : Bool) :
    onGrid rm (sgn s y) q = sgn s ((unitsAt rm s m e q sticky).1 * pow2 q) := by
  obtain ⟨n, cls, hz, hu⟩ := h.units_split hq rm s
  rw [hu, onGrid, sgn_div, roundedInt_of_splits hz, cast_sgnInt, sgn_mul]

/-- The model's units are all of a magnitude where `onGrid` leaves it. -/
theorem Tracks.exact_iff (h : Tracks m e sticky y q0) (hq : q0 < q) (rm : ℕ) (s : Bool) :
    (unitsAt rm s m e q sticky).2 = true ↔ onGrid rm (sgn s y) q = sgn s y := by
  obtain ⟨n, cls, hz, hu⟩ := h.units_split hq rm s
  rw [h.onGrid_eq hq, sgn_inj, hu]
  exact decide_eq_true_iff.trans ((hz.rounded_eq_iff rm s).symm.trans (eq_div_iff (pow2_ne_zero q)))

theorem Tracks.le_units (h : Tracks m e sticky y q0) (hq : q0 < q) (rm : ℕ) (s : Bool) {k : ℕ} (hk : (k : ℝ) * pow2 q ≤ y) :
    k ≤ (unitsAt rm s m e q sticky).1 := by
  obtain ⟨n, cls, hz, hu⟩ := h.units_split hq rm s
  rw [hu]
  exact hz.le_rounded rm s ((le_div_iff₀ (pow2_pos q)).mpr hk)

theorem Tracks.units_le (h : Tracks m e sticky y q0) (hq : q0 < q) (rm : ℕ) (s : Bool) {k : ℕ} (hk : y ≤ (k : ℝ) * pow2 q) :
    (unitsAt rm s m e q sticky).1 ≤ k := by
  obtain ⟨n, cls, hz, hu⟩ := h.units_split hq rm s
  rw [hu]
  exact hz.rounded_le rm s ((div_le_iff₀ (pow2_pos q)).mpr hk)

/-- A magnitude lies between the powers of two that its significand lies between. -/
theorem Tracks.bounds (h : Tracks m e sticky y q0) (hm : m ≠ 0) (hq : q0 ≤ Nat.log2 m + e) :
    pow2 (Nat.log2 m + e) ≤ y ∧ y < pow2 (Nat.log2 m + e + 1) := by
  have hlo := h.le_iff _ hq 1
  have hhi := h.le_iff (Nat.log2 m + e + 1) (by omega) 1
  rw [Nat.cast_one, one_mul, pow2_add, pow2_natCast, mul_le_mul_iff_left₀ (pow2_pos e), Nat.cast_le] at hlo
  rw [Nat.cast_one, one_mul, show (Nat.log2 m : ℤ) + e + 1 = (Nat.log2 m + 1 : ℕ) + e by push_cast; ring, pow2_add, pow2_natCast,
    mul_le_mul_iff_left₀ (pow2_pos e), Nat.cast_le] at hhi
  constructor
  · rw [pow2_add, pow2_natCast]
    exact hlo.mpr (Nat.log2_self_le hm)
  · rw [show (Nat.log2 m : ℤ) + e + 1 = (Nat.log2 m + 1 : ℕ) + e by push_cast; ring, pow2_add, pow2_natCast, ← not_le, hhi, Nat.not_le]
    exact Nat.lt_log2_self

theorem Tracks.log (h : Tracks m e sticky y q0) (hm : m ≠ 0) (hq : q0 ≤ Nat.log2 m + e) : Int.log 2 y = Nat.log2 m + e := by
  obtain ⟨hlo, hhi⟩ := h.bounds hm hq
  have hy : 0 < y := (pow2_pos _).trans_le hlo
  have h1 : Int.log 2 y < Nat.log2 m + e + 1 := (Int.lt_zpow_iff_log_lt one_lt_two hy).mp (by exact_mod_cast hhi)
  have h2 := (Int.zpow_le_iff_le_log one_lt_two hy).mp (by exact_mod_cast hlo)
  omega

end

/-! ## Rounding to a format -/

/-- Significands of full width compare by their exponents, and then by themselves. -/
theorem significand_lt_iff {fb a b : ℕ} {p r : ℤ} (ha : 2 ^ fb ≤ a) (ha' : a < 2 ^ (fb + 1)) (hb : 2 ^ fb ≤ b) (hb' : b < 2 ^ (fb + 1)) :
    (a : ℝ) * pow2 (p - fb) < b * pow2 (r - fb) ↔ p < r ∨ (p = r ∧ a < b) := by
  have hlt : ∀ {a b : ℕ} {p r : ℤ}, a < 2 ^ (fb + 1) → 2 ^ fb ≤ b → p < r → (a : ℝ) * pow2 (p - fb) < b * pow2 (r - fb) :=
    fun {a b p r} ha hb hpr => calc
      (a : ℝ) * pow2 (p - fb) < (2 ^ (fb + 1) : ℕ) * pow2 (p - fb) := mul_lt_mul_of_pos_right (by exact_mod_cast ha) (pow2_pos _)
      _ = (2 ^ fb : ℕ) * pow2 (p + 1 - fb) := by
        rw [← pow2_natCast, ← pow2_natCast, ← pow2_add, ← pow2_add]
        congr 1
        push_cast
        ring
      _ ≤ b * pow2 (r - fb) := mul_le_mul (by exact_mod_cast hb) (pow2_le_pow2.mpr (by omega)) (pow2_pos _).le (Nat.cast_nonneg b)
  rcases lt_trichotomy p r with h | rfl | h
  · exact iff_of_true (hlt ha' hb h) (.inl h)
  · rw [mul_lt_mul_iff_left₀ (pow2_pos _), Nat.cast_lt]
    simp
  · exact iff_of_false (hlt hb' ha h).not_gt (by omega)

/-- The exponent and the significand of rounded units, after a carry. -/
theorem carried {fb u : ℕ} {ex : ℤ} (hlo : 2 ^ fb ≤ u) (hhi : u ≤ 2 ^ (fb + 1)) :
    ((if u = 2 ^ (fb + 1) then 2 ^ fb else u : ℕ) : ℝ) * pow2 ((if u = 2 ^ (fb + 1) then ex + 1 else ex) - fb) = u * pow2 (ex - fb) ∧
    2 ^ fb ≤ (if u = 2 ^ (fb + 1) then 2 ^ fb else u) ∧ (if u = 2 ^ (fb + 1) then 2 ^ fb else u) < 2 ^ (fb + 1) := by
  split
  case isTrue hu =>
    refine ⟨?_, le_rfl, Nat.pow_lt_pow_right (by decide) (by omega)⟩
    rw [hu, ← pow2_natCast, ← pow2_natCast, ← pow2_add, ← pow2_add]
    congr 1
    push_cast
    ring
  case isFalse => exact ⟨rfl, hlo, by omega⟩

/-- What rounding a number `x` to a format comes to: overflow, exactness and tininess, and without an overflow a code of the number rounded. -/
structure RoundedTo (f : Fmt) (rm : ℕ) (s : Bool) (y : ℝ) (r : Rounded) : Prop where
  ovf_iff : r.ovf = true ↔ f.codes.real f.maxCode < |f.codes.wide rm (sgn s y)|
  same_iff : r.same = true ↔ f.codes.kept rm (sgn s y) = sgn s y
  tiny_iff : r.tiny = true ↔ |f.codes.wide rm (sgn s y)| < pow2 (1 - f.bias)
  code_le : r.ovf = false → r.code ≤ f.maxCode
  real_code : r.ovf = false → f.codes.real (f.codes.withSign s r.code) = f.codes.kept rm (sgn s y)

/-- The code of `d` units of 2^q. -/
def codeOf (f : Fmt) (q : ℤ) (d : ℕ) : ℕ := if d < 2 ^ f.fbits then d else (q + f.fbits + f.bias).toNat * 2 ^ f.fbits + d - 2 ^ f.fbits

theorem codeUnits_codeOf {f : Fmt} {q : ℤ} {d : ℕ} (hq : f.emin - f.fbits ≤ q) (hd : d ≤ 2 ^ (f.fbits + 1))
    (hnorm : 2 ^ f.fbits ≤ d ∨ q = f.emin - f.fbits) :
    (codeUnits f.fbits (codeOf f q d) : ℝ) * pow2 (f.emin - f.fbits) = d * pow2 q := by
  have hcode : ∃ n : ℕ, 1 ≤ n ∧ q = n + f.emin - f.fbits - 1 ∧ codeOf f q d = (n - 1) * 2 ^ f.fbits + d := by
    unfold codeOf
    unfold Fmt.emin at *
    split
    case isTrue hlt => exact ⟨1, le_rfl, by omega, by omega⟩
    case isFalse hge =>
      refine ⟨(q + f.fbits + f.bias).toNat, by omega, by omega, ?_⟩
      obtain ⟨k, hk⟩ := Nat.exists_eq_add_of_le' (show 1 ≤ (q + f.fbits + f.bias).toNat by omega)
      rw [hk, Nat.add_sub_cancel, Nat.succ_mul]
      omega
  obtain ⟨n, hn, hqn, hcode⟩ := hcode
  rw [hcode, codeUnits_encode hn hd (hnorm.imp_right (by omega)), codeUnits_mul_emin hn hqn]

section

variable {f : Fmt} {m : ℕ} {e ex q0 : ℤ} {sticky : Bool} {y : ℝ}

/-- Units of full width, of a magnitude of exponent `ex`. -/
theorem Tracks.full_bounds (h : Tracks m e sticky y q0) (hlo : pow2 ex ≤ y) (hhi : y < pow2 (ex + 1)) (fb : ℕ) (hq : q0 < ex - fb)
    (rm : ℕ) (s : Bool) :
    2 ^ fb ≤ (unitsAt rm s m e (ex - fb) sticky).1 ∧ (unitsAt rm s m e (ex - fb) sticky).1 ≤ 2 ^ (fb + 1) := by
  refine ⟨h.le_units hq rm s ?_, h.units_le hq rm s ?_⟩
  · rw [← pow2_natCast, ← pow2_add, add_sub_cancel]
    exact hlo
  · rw [← pow2_natCast, ← pow2_add, show ((fb + 1 : ℕ) : ℤ) + (ex - fb) = ex + 1 by push_cast; ring]
    exact hhi.le

theorem Tracks.wide_eq (h : Tracks m e sticky y q0) (hy : 0 < y) (hlog : Int.log 2 y = ex) (hq : q0 < ex - f.fbits) (rm : ℕ) (s : Bool) :
    f.codes.wide rm (sgn s y) = sgn s ((unitsAt rm s m e (ex - f.fbits) sticky).1 * pow2 (ex - f.fbits)) := by
  unfold Codes.wide
  rw [abs_sgn, abs_of_pos hy, hlog]
  exact h.onGrid_eq hq rm s

theorem kept_eq (f : Fmt) (hy : 0 < y) (hlog : Int.log 2 y = ex) (rm : ℕ) (s : Bool) :
    f.codes.kept rm (sgn s y) = onGrid rm (sgn s y) (max ex f.emin - f.fbits) := by
  unfold Codes.kept
  rw [abs_sgn, abs_of_pos hy, hlog]
  rfl

/-- The units kept have the code's width, or are those of the smallest normal value's exponent. -/
theorem Tracks.kept_bounds (h : Tracks m e sticky y q0) (hlo : pow2 ex ≤ y) (hhi : y < pow2 (ex + 1)) (hq : q0 < ex - f.fbits)
    (rm : ℕ) (s : Bool) :
    (unitsAt rm s m e (max ex f.emin - f.fbits) sticky).1 ≤ 2 ^ (f.fbits + 1) ∧
    (2 ^ f.fbits ≤ (unitsAt rm s m e (max ex f.emin - f.fbits) sticky).1 ∨ max ex f.emin - f.fbits = f.emin - f.fbits) ∧
    (ex < f.emin → (unitsAt rm s m e (max ex f.emin - f.fbits) sticky).1 ≤ 2 ^ f.fbits) := by
  obtain ⟨hful, hful'⟩ := h.full_bounds hlo hhi f.fbits hq rm s
  rcases lt_or_ge ex f.emin with hlt | hge
  · have hd : (unitsAt rm s m e (f.emin - f.fbits) sticky).1 ≤ 2 ^ f.fbits := h.units_le (by omega) rm s (by
      rw [← pow2_natCast, ← pow2_add, add_sub_cancel]
      exact hhi.le.trans (pow2_le_pow2.mpr hlt))
    rw [max_eq_right hlt.le]
    exact ⟨hd.trans (Nat.pow_le_pow_right (by decide) (by omega)), .inr rfl, fun _ => hd⟩
  · rw [max_eq_left hge]
    exact ⟨hful', .inl hful, fun hlt => absurd hge (not_le.mpr hlt)⟩

/-- `roundMag`, with the units kept and their code named. -/
theorem roundMag_eq (hm : m ≠ 0) (hex : (Nat.log2 m : ℤ) + e = ex) (rm : ℕ) (s : Bool) :
    roundMag f rm s m e sticky =
      let u := (unitsAt rm s m e (ex - f.fbits) sticky).1
      let d := unitsAt rm s m e (max ex f.emin - f.fbits) sticky
      let ex1 := if u = 2 ^ (f.fbits + 1) then ex + 1 else ex
      { ovf := f.emax < ex1 || (ex1 = f.emax && f.maxMant < if u = 2 ^ (f.fbits + 1) then 2 ^ f.fbits else u)
        same := d.2, tiny := ex1 < f.emin, code := codeOf f (max ex f.emin - f.fbits) d.1 } := by
  have hunits : (if ex < f.emin then unitsAt rm s m e (f.emin - f.fbits) sticky else unitsAt rm s m e (ex - f.fbits) sticky) =
      unitsAt rm s m e (max ex f.emin - f.fbits) sticky := by
    split
    case isTrue hlt => rw [max_eq_right hlt.le]
    case isFalse hge => rw [max_eq_left (not_lt.mp hge)]
  have hexp : (if ex < f.emin then f.emin - f.fbits else ex - f.fbits) = max ex f.emin - f.fbits := by
    split <;> omega
  unfold roundMag
  rw [if_neg hm, hex]
  simp only [hunits, hexp]
  rfl

/-- `roundMag` rounds the magnitude that its arguments stand for. -/
theorem Tracks.rounds (hf : f.Sound) (h : Tracks m e sticky y q0) (hm : m ≠ 0) (hq : q0 < Nat.log2 m + e - f.fbits) (rm : ℕ) (s : Bool) :
    RoundedTo f rm s y (roundMag f rm s m e sticky) := by
  have hlog := h.log hm (by omega)
  obtain ⟨hlo, hhi⟩ := h.bounds hm (by omega)
  have hy : 0 < y := (pow2_pos _).trans_le hlo
  generalize hex : (Nat.log2 m : ℤ) + e = ex at hlog hlo hhi hq
  rw [roundMag_eq hm hex]
  obtain ⟨hful, hful'⟩ := h.full_bounds hlo hhi f.fbits hq rm s
  obtain ⟨hmant, hmant', hmant''⟩ := carried (ex := ex) hful hful'
  obtain ⟨hd, hnorm, hsub⟩ := h.kept_bounds (f := f) hlo hhi hq rm s
  have hq' : q0 < max ex f.emin - f.fbits := hq.trans_le (by omega)
  have hwide : |f.codes.wide rm (sgn s y)| = (unitsAt rm s m e (ex - f.fbits) sticky).1 * pow2 (ex - f.fbits) := by
    have := pow2_pos (ex - f.fbits)
    rw [h.wide_eq hy hlog hq, abs_sgn, abs_of_nonneg (by positivity)]
  have hkept := kept_eq f hy hlog rm s
  have hunits := codeUnits_codeOf (f := f) (by omega) hd hnorm
  have hsame : f.emin ≤ ex → (unitsAt rm s m e (max ex f.emin - f.fbits) sticky).1 = (unitsAt rm s m e (ex - f.fbits) sticky).1 :=
    fun hge => by rw [max_eq_left hge]
  dsimp only
  generalize (unitsAt rm s m e (ex - f.fbits) sticky).1 = u at *
  generalize hdu : unitsAt rm s m e (max ex f.emin - f.fbits) sticky = d at *
  generalize (if u = 2 ^ (f.fbits + 1) then ex + 1 else ex) = ex1 at *
  generalize (if u = 2 ^ (f.fbits + 1) then 2 ^ f.fbits else u) = mant at *
  have hovf : (decide (f.emax < ex1) || (decide (ex1 = f.emax) && decide (f.maxMant < mant))) = true ↔
      f.codes.real f.maxCode < |f.codes.wide rm (sgn s y)| := by
    rw [real_maxCode hf, hwide, ← hmant, significand_lt_iff hf.le_maxMant hf.maxMant_lt hmant' hmant'', eq_comm (a := f.emax), Bool.or_eq_true,
      Bool.and_eq_true, decide_eq_true_iff, decide_eq_true_iff, decide_eq_true_iff]
  have hcode : (decide (f.emax < ex1) || (decide (ex1 = f.emax) && decide (f.maxMant < mant))) = false →
      codeOf f (max ex f.emin - f.fbits) d.1 ≤ f.maxCode := by
    intro hn
    rw [← (codeUnits_strictMono f.fbits).le_iff_le, ← Nat.cast_le (α := ℝ), ← mul_le_mul_iff_left₀ (pow2_pos (f.emin - f.fbits)), hunits,
      codeUnits_maxCode hf]
    rw [← Bool.not_eq_true, hovf, not_lt, real_maxCode hf, hwide] at hn
    rcases lt_or_ge ex f.emin with hlt | hge
    · rw [max_eq_right hlt.le]
      exact mul_le_mul (by exact_mod_cast (hsub hlt).trans hf.le_maxMant) (pow2_le_pow2.mpr (by have := hf.emin_le; omega)) (pow2_pos _).le
        (Nat.cast_nonneg _)
    · rw [hsame hge, max_eq_left hge]
      exact hn
  refine ⟨hovf, ?_, ?_, hcode, fun hn => ?_⟩
  · rw [hkept, ← hdu]
    exact h.exact_iff hq' rm s
  · have := significand_lt_iff (p := ex1) (r := f.emin) hmant' hmant'' le_rfl (Nat.pow_lt_pow_right (by decide) (Nat.lt_succ_self f.fbits))
    rw [← pow2_natCast, ← pow2_add, add_sub_cancel, hmant, ← hwide] at this
    rw [decide_eq_true_iff]
    refine .trans ?_ this.symm
    omega
  · rw [real_withSign _ _ ((hcode hn).trans_lt hf.maxCode_lt), hkept, h.onGrid_eq hq' rm s, hdu]
    exact congrArg (sgn s) hunits

end

/-! ## Numbers that a format holds -/

theorem onGrid_of_multiple {y : ℝ} {k : ℕ} {q : ℤ} (h : y = k * pow2 q) (rm : ℕ) (s : Bool) : onGrid rm (sgn s y) q = sgn s y := by
  have hz : Splits (y / pow2 q) k 0 := .inl ⟨rfl, by rw [h, mul_div_cancel_right₀ _ (pow2_ne_zero q)]⟩
  rw [onGrid, sgn_div, roundedInt_of_splits hz, cast_sgnInt, roundUnits_zero, sgn_mul, h]

/-- An integer is rounded to itself. -/
theorem roundedInt_sgn_natCast (rm : ℕ) (s : Bool) (k : ℕ) : (roundedInt rm (sgn s k) : ℝ) = sgn s k := by
  rw [roundedInt_of_splits (cls := 0) (.inl ⟨rfl, rfl⟩), cast_sgnInt, roundUnits_zero]

section

variable {f : Fmt} {d : ℕ} {p : ℤ} {y : ℝ}

/-- A significand of no more than the format's width, of an exponent that it has, is held as it is. -/
theorem wide_kept_of_multiple (hy : 0 < y) (hyd : y = d * pow2 p) (hd : d < 2 ^ (f.fbits + 1)) (rm : ℕ) (s : Bool) :
    f.codes.wide rm (sgn s y) = sgn s y ∧ (f.emin - f.fbits ≤ p → f.codes.kept rm (sgn s y) = sgn s y) := by
  have hlog : Int.log 2 y < f.fbits + 1 + p := by
    refine (Int.lt_zpow_iff_log_lt one_lt_two hy).mp ?_
    have : (d : ℝ) * pow2 p < (2 ^ (f.fbits + 1) : ℕ) * pow2 p := mul_lt_mul_of_pos_right (by exact_mod_cast hd) (pow2_pos p)
    rw [← pow2_natCast, ← pow2_add] at this
    rw [hyd]
    exact_mod_cast this
  have hunits : ∀ q, q ≤ p → y = (d * 2 ^ (p - q).toNat : ℕ) * pow2 q := fun q hq => by
    rw [hyd, pow2_of_le hq]
    push_cast
    ring
  constructor
  · unfold Codes.wide
    rw [abs_sgn, abs_of_pos hy]
    exact onGrid_of_multiple (hunits (Int.log 2 y - f.fbits) (by omega)) rm s
  · intro hp
    rw [kept_eq f hy rfl]
    exact onGrid_of_multiple (hunits _ (by omega)) rm s

/-- A number that a format holds is rounded to itself. -/
theorem roundMag_exact (hf : f.Sound) {m : ℕ} {e : ℤ} (hm : m ≠ 0) (hyd : m * pow2 e = d * pow2 p) (hd : d < 2 ^ (f.fbits + 1))
    (hp : f.emin - f.fbits ≤ p) (htop : m * pow2 e ≤ f.codes.real f.maxCode) (rm : ℕ) (s : Bool) :
    (roundMag f rm s m e false).ovf = false ∧ (roundMag f rm s m e false).code ≤ f.maxCode ∧
    f.codes.real (f.codes.withSign s (roundMag f rm s m e false).code) = sgn s (m * pow2 e) := by
  have hy : (0 : ℝ) < m * pow2 e := mul_pos (by exact_mod_cast Nat.pos_of_ne_zero hm) (pow2_pos e)
  have h := (tracks_exact m e (Nat.log2 m + e - f.fbits - 1)).rounds hf hm (by omega) rm s
  obtain ⟨hwide, hkept⟩ := wide_kept_of_multiple (f := f) hy hyd hd rm s
  have ho : (roundMag f rm s m e false).ovf = false := by
    rw [← Bool.not_eq_true, h.ovf_iff, hwide, abs_sgn, abs_of_pos hy]
    exact not_lt.mpr htop
  exact ⟨ho, h.code_le ho, by rw [h.real_code ho, hkept hp]⟩

end

end Sys2Proof

/-! Operands, and results delivered: the model's values as the operands of the rules, and the exact sums, products and quotients that it delivers
rounded once. -/

namespace Sys2Proof

open Sys2Proof.Machine Sys2Proof.Spec

/-! ## Results delivered (06 R154, R155) -/

/-- A result as a code and its flags. -/
def Machine.FOut.res (r : FOut) : Res := (r.code, r.fl)

theorem flagIf_eq_ite {b : Bool} {p : Prop} [Decidable p] (h : b = true ↔ p) (fl : BitVec 8) : flagIf b fl = if p then fl else 0 := by
  unfold flagIf
  simp only [h]

theorem flagIf_not_eq_ite {b : Bool} {p : Prop} [Decidable p] (h : b = true ↔ p) (fl : BitVec 8) : flagIf (!b) fl = if ¬ p then fl else 0 :=
  flagIf_eq_ite (by rw [Bool.not_eq_true', ← Bool.not_eq_true, h]) fl

/-- A format with infinities: the code after the largest finite value's is infinity's. -/
def Machine.Fmt.HasInf (f : Fmt) : Prop := f.maxCode + 1 = f.infCode

theorem hasInf_fp32 : fp32.HasInf := by unfold Fmt.HasInf; decide
theorem hasInf_fp16 : fp16.HasInf := by unfold Fmt.HasInf; decide
theorem hasInf_bf16 : bf16.HasInf := by unfold Fmt.HasInf; decide
theorem hasInf_e5m2 : e5m2.HasInf := by unfold Fmt.HasInf; decide

theorem overInf_iff {y : ℝ} (hy : 0 < y) (rm : ℕ) (s : Bool) : overInf rm s = true ↔ goesInf rm (sgn s y) := by
  unfold overInf goesInf
  cases s <;> simp [sgn, hy, hy.not_gt]

section

variable {f : Fmt} {rm : ℕ} {s : Bool} {y : ℝ} {r : Rounded}

theorem RoundedTo.smallFlags_eq (h : RoundedTo f rm s y r) : smallFlags r = f.codes.smallFl rm (sgn s y) := by
  have hs : (!r.same) = true ↔ f.codes.kept rm (sgn s y) ≠ sgn s y := by
    rw [Bool.not_eq_true', ← Bool.not_eq_true, h.same_iff]
  unfold smallFlags Codes.smallFl flagIf
  simp only [Bool.and_eq_true, hs, h.tiny_iff]
  rfl

/-- What is rounded without an overflow is held. -/
theorem RoundedTo.holds (hf : f.Sound) (h : RoundedTo f rm s y r) (hy : 0 < y) (hr : r.ovf = false) :
    f.codes.Holds rm (sgn s y) (f.codes.withSign s r.code, smallFlags r) := by
  have hlt := (h.code_le hr).trans_lt hf.maxCode_lt
  exact ⟨withSign_lt _ _ hlt, h.real_code hr, by rw [neg_withSign _ _ hlt, sgn_neg_iff hy], h.smallFlags_eq⟩

/-- What a format with infinities delivers of a rounded magnitude. -/
theorem RoundedTo.delivers (hf : f.Sound) (hinf : f.HasInf) (h : RoundedTo f rm s y r) (hy : 0 < y) :
    f.codes.Delivers rm (sgn s y)
      (if r.ovf then (f.codes.withSign s (if overInf rm s then f.infCode else f.maxCode), fOF ||| fNX)
       else (f.codes.withSign s r.code, smallFlags r)) := by
  have htop : f.codes.inf - 1 = f.maxCode := Nat.sub_eq_of_eq_add hinf.symm
  unfold Codes.Delivers
  rw [htop, ← h.ovf_iff]
  constructor
  · intro ho
    rw [if_pos ho]
    refine ⟨s, (sgn_neg_iff hy).symm, rfl, fun hg => ?_, fun hg => ?_⟩
    · rw [if_pos ((overInf_iff hy rm s).mpr hg)]
      rfl
    · rw [if_neg (mt (overInf_iff hy rm s).mp hg)]
  · intro hle
    have ho : r.ovf = false := by
      rw [← Bool.not_eq_true, h.ovf_iff]
      exact not_lt.mpr hle
    rw [ho, if_neg Bool.false_ne_true]
    refine ⟨?_, h.holds hf hy ho⟩
    rw [low_withSign _ _ ((h.code_le ho).trans_lt hf.maxCode_lt)]
    exact (Nat.lt_succ_of_le (h.code_le ho)).trans_eq hinf

end

section

variable {f : Fmt} {m : ℕ} {e q0 : ℤ} {sticky : Bool} {y : ℝ}

theorem Tracks.pos (h : Tracks m e sticky y q0) (hm : m ≠ 0) (hq : q0 ≤ Nat.log2 m + e) : 0 < y :=
  (pow2_pos _).trans_le (h.bounds hm hq).1

theorem Tracks.delivers (hf : f.Sound) (hinf : f.HasInf) (h : Tracks m e sticky y q0) (hm : m ≠ 0) (hq : q0 < Nat.log2 m + e - f.fbits)
    (rm : ℕ) (s : Bool) : f.codes.Delivers rm (sgn s y) (deliver f rm s m e sticky).res := by
  have hd := (h.rounds hf hm hq rm s).delivers hf hinf (h.pos hm (by omega))
  unfold deliver FOut.res
  dsimp only
  split at hd
  case isTrue ho => rw [if_pos ho]; exact hd
  case isFalse ho => rw [if_neg ho]; exact hd

/-- A dyadic number is delivered rounded once. -/
theorem deliver_exact (hf : f.Sound) (hinf : f.HasInf) (hm : m ≠ 0) (e : ℤ) (rm : ℕ) (s : Bool) :
    f.codes.Delivers rm (sgn s (m * pow2 e)) (deliver f rm s m e false).res :=
  (tracks_exact m e (Nat.log2 m + e - f.fbits - 1)).delivers hf hinf hm (by omega) rm s

theorem deliver_zero (f : Fmt) (rm : ℕ) (s : Bool) (e : ℤ) : (deliver f rm s 0 e false).res = (f.codes.withSign s 0, 0) := by
  simp [deliver, roundMag, smallFlags, flagIf, FOut.res, signed_eq_withSign]

end

/-! ## Values as operands -/

/-- A value of the model as an operand of the rules. -/
noncomputable def Machine.FVal.operand (v : FVal) : Operand :=
  match v with
  | .nan _ => .nan
  | .inf s => .inf s
  | .fin s m e => .num s (sgn s (m * pow2 e))

/-- The fields of a code, of its bits below the sign. -/
theorem low_eq_fields (c : Codes) (v : ℕ) : c.low v = (v / 2 ^ c.f % 2 ^ c.e) * 2 ^ c.f + v % 2 ^ c.f := by
  rw [Codes.low, Nat.add_comm c.e, Nat.pow_add, Nat.mod_mul, Nat.mul_comm, Nat.add_comm]

/-- The codes from infinity's up are those of the last exponent field. -/
theorem inf_le_low_iff (c : Codes) (v : ℕ) : c.inf ≤ c.low v ↔ v / 2 ^ c.f % 2 ^ c.e = 2 ^ c.e - 1 := by
  have hlt : v / 2 ^ c.f % 2 ^ c.e < 2 ^ c.e := Nat.mod_lt _ (Nat.two_pow_pos _)
  have hfr : v % 2 ^ c.f < 2 ^ c.f := Nat.mod_lt _ (Nat.two_pow_pos _)
  rw [low_eq_fields, Codes.inf]
  generalize v / 2 ^ c.f % 2 ^ c.e = be at *
  refine ⟨fun h => ?_, fun h => by rw [h]; omega⟩
  by_contra hne
  have := Nat.mul_le_mul_right (2 ^ c.f) (show be + 1 ≤ 2 ^ c.e - 1 by omega)
  rw [Nat.succ_mul] at this
  omega

theorem isNan_iff (c : Codes) (v : ℕ) : c.isNan v = true ↔ v / 2 ^ c.f % 2 ^ c.e = 2 ^ c.e - 1 ∧ v % 2 ^ c.f ≠ 0 := by
  rw [Codes.isNan, decide_eq_true_iff, ← inf_le_low_iff]
  have hlow := low_eq_fields c v
  refine ⟨fun h => ⟨h.le, fun h0 => ?_⟩, fun ⟨hle, h0⟩ => ?_⟩
  · have := (inf_le_low_iff c v).mp h.le
    rw [this, h0] at hlow
    exact h.ne' hlow
  · have := (inf_le_low_iff c v).mp hle
    rw [this] at hlow
    rw [hlow, Codes.inf]
    omega

theorem isInf_iff (c : Codes) (v : ℕ) : c.isInf v = true ↔ v / 2 ^ c.f % 2 ^ c.e = 2 ^ c.e - 1 ∧ v % 2 ^ c.f = 0 := by
  rw [Codes.isInf, decide_eq_true_iff]
  have hlow := low_eq_fields c v
  constructor
  · intro h
    have htop := (inf_le_low_iff c v).mp h.ge
    rw [htop, h, Codes.inf] at hlow
    exact ⟨htop, by omega⟩
  · rintro ⟨htop, h0⟩
    rw [hlow, htop, h0]
    rfl

/-- A finite code of the model stands for the number that the rules give. -/
theorem operand_finOf (f : Fmt) (v : ℕ) :
    (finOf f (bitsOf v (f.ebits + f.fbits) 1 = 1) (bitsOf v f.fbits f.ebits) (bitsOf v 0 f.fbits)).operand =
      .num (f.codes.neg v) (f.codes.real v) := by
  have hneg : decide (bitsOf v (f.ebits + f.fbits) 1 = 1) = f.codes.neg v := rfl
  have hsign : ∀ z : ℝ, (if f.codes.neg v then -1 else 1) * z = sgn (f.codes.neg v) z := fun z => by
    cases f.codes.neg v <;> simp [sgn]
  have hreal : f.codes.real v = sgn (f.codes.neg v) (if bitsOf v f.fbits f.ebits = 0 then (bitsOf v 0 f.fbits : ℝ) * pow2 (f.emin - f.fbits)
      else ((2 ^ f.fbits + bitsOf v 0 f.fbits : ℕ) : ℝ) * pow2 (bitsOf v f.fbits f.ebits - f.bias - f.fbits)) := by
    rw [← hsign, bitsOf, bitsOf, Nat.pow_zero, Nat.div_one]
    rfl
  rw [hreal, hneg, finOf]
  split <;> rfl

/-- The decoder of a format with infinities finds a code's operand. -/
theorem operand_decodeIeee (f : Fmt) (v : ℕ) : f.codes.operand v = (decodeIeee f v).operand := by
  have hfr : bitsOf v 0 f.fbits = v % 2 ^ f.codes.f := by rw [bitsOf, Nat.pow_zero, Nat.div_one]; rfl
  unfold Codes.operand decodeIeee
  simp only [isNan_iff, isInf_iff, ← hfr]
  by_cases htop : bitsOf v f.fbits f.ebits = 2 ^ f.ebits - 1
  · rw [if_pos htop]
    have htop' : v / 2 ^ f.codes.f % 2 ^ f.codes.e = 2 ^ f.codes.e - 1 := htop
    by_cases h0 : bitsOf v 0 f.fbits = 0
    · rw [if_neg (fun h => h.2 h0), if_pos ⟨htop', h0⟩, if_pos h0]
      rfl
    · rw [if_pos ⟨htop', h0⟩, if_neg h0]
      rfl
  · rw [if_neg htop, if_neg (fun h => htop h.1), if_neg (fun h => htop h.1), operand_finOf]

@[simp] theorem sig_nan (g : Bool) : (FVal.nan g).sig = g := by cases g <;> rfl
@[simp] theorem sig_inf (s : Bool) : (FVal.inf s).sig = false := rfl
@[simp] theorem sig_fin (s : Bool) (m : ℕ) (e : ℤ) : (FVal.fin s m e).sig = false := rfl

theorem sig_finOf (f : Fmt) (s : Bool) (be fr : ℕ) : (finOf f s be fr).sig = false := by
  unfold finOf
  split <;> rfl

/-- The decoder of a format with infinities finds the signalling NaNs. -/
theorem isSig_decodeIeee (f : Fmt) (v : ℕ) : f.codes.isSig v = (decodeIeee f v).sig := by
  have hfr : bitsOf v 0 f.fbits = v % 2 ^ f.codes.f := by rw [bitsOf, Nat.pow_zero, Nat.div_one]; rfl
  have htop : bitsOf v f.fbits f.ebits = v / 2 ^ f.codes.f % 2 ^ f.codes.e := rfl
  have hnan := isNan_iff f.codes v
  rw [← hfr, ← htop] at hnan
  unfold Codes.isSig decodeIeee
  rw [← hfr]
  dsimp only
  split
  case isTrue ht =>
    split
    case isTrue h0 =>
      rw [Bool.eq_false_iff.mpr (fun h => (hnan.mp h).2 h0)]
      rfl
    case isFalse h0 => rw [hnan.mpr ⟨ht, h0⟩, sig_nan, Bool.true_and]; rfl
  case isFalse ht => rw [Bool.eq_false_iff.mpr (fun h => ht (hnan.mp h).1), sig_finOf, Bool.false_and]

/-! ## Exact sums (11 R245) -/

/-- A signed term as a number. -/
noncomputable def termVal (t : Bool × ℕ × ℤ) : ℝ := sgn t.1 (t.2.1 * pow2 t.2.2)

theorem termAt_mul {q : ℤ} {t : Bool × ℕ × ℤ} (hq : q ≤ t.2.2) : (termAt q t : ℝ) * pow2 q = termVal t := by
  unfold termAt termVal sgn
  dsimp only
  split
  all_goals
    rw [pow2_of_le hq]
    push_cast
    ring

/-- The least exponent of a list is none above. -/
theorem foldl_min_le (l : List (Bool × ℕ × ℤ)) (a : ℤ) :
    l.foldl (fun q t => min q t.2.2) a ≤ a ∧ ∀ t ∈ l, l.foldl (fun q t => min q t.2.2) a ≤ t.2.2 := by
  induction l generalizing a with
  | nil => simp
  | cons t l ih =>
    obtain ⟨h1, h2⟩ := ih (min a t.2.2)
    rw [List.foldl_cons]
    refine ⟨h1.trans (min_le_left ..), fun u hu => ?_⟩
    rcases List.mem_cons.mp hu with rfl | hu
    · exact h1.trans (min_le_right ..)
    · exact h2 u hu

/-- The integer sum at an exponent below all of them is the sum. -/
theorem foldl_termAt_mul {q : ℤ} (l : List (Bool × ℕ × ℤ)) (hq : ∀ t ∈ l, q ≤ t.2.2) (a : ℤ) :
    ((l.foldl (fun v t => v + termAt q t) a : ℤ) : ℝ) * pow2 q = a * pow2 q + (l.map termVal).sum := by
  induction l generalizing a with
  | nil => simp
  | cons t l ih =>
    rw [List.foldl_cons, ih (fun u hu => hq u (List.mem_cons_of_mem _ hu)), Int.cast_add, add_mul, termAt_mul (hq t (List.mem_cons_self ..)),
      List.map_cons, List.sum_cons, add_assoc]

/-- Zero terms do not count. -/
theorem sum_termVal_filter (l : List (Bool × ℕ × ℤ)) :
    ((l.filter (fun t => t.2.1 ≠ 0)).map termVal).sum = (l.map termVal).sum := by
  induction l with
  | nil => rfl
  | cons t l ih =>
    by_cases h : t.2.1 = 0
    · have hz : termVal t = 0 := by simp [termVal, h, sgn]
      rw [List.filter_cons_of_neg (by simpa using h), ih, List.map_cons, List.sum_cons, hz, zero_add]
    · rw [List.filter_cons_of_pos (by simpa using h), List.map_cons, List.map_cons, List.sum_cons, List.sum_cons, ih]

theorem sgn_natAbs (v : ℤ) (z : ℝ) : sgn (decide (v < 0)) (v.natAbs * z) = v * z := by
  rw [Nat.cast_natAbs, Int.cast_abs]
  by_cases hv : v < 0
  · rw [decide_eq_true hv, sgn, if_pos rfl, abs_of_neg (by exact_mod_cast hv)]
    ring
  · rw [decide_eq_false hv, sgn, if_neg Bool.false_ne_true, abs_of_nonneg (by exact_mod_cast not_lt.mp hv)]

/-- The sign of an exact zero: the terms' common one, or that of the mode. -/
def zeroSign (rm : ℕ) (signs : List Bool) : Bool := if signs.all id then true else if signs.all (! ·) then false else rm = 2

/-- The sum of signed terms, delivered. -/
theorem deliverSum_gives {f : Fmt} (hf : f.Sound) (hinf : f.HasInf) (rm : ℕ) (ts : List (Bool × ℕ × ℤ)) :
    ((ts.map termVal).sum = 0 → (deliverSum f rm ts).res = (f.codes.withSign (zeroSign rm (ts.map (·.1))) 0, 0)) ∧
    ((ts.map termVal).sum ≠ 0 → f.codes.Delivers rm (ts.map termVal).sum (deliverSum f rm ts).res) := by
  unfold deliverSum
  dsimp only
  generalize hnz : ts.filter (fun t => t.2.1 ≠ 0) = nz
  generalize hq : nz.foldl (fun q t => min q t.2.2) ((nz.head?.map (fun t => t.2.2)).getD 0) = q
  have hsum : ((nz.foldl (fun v t => v + termAt q t) 0 : ℤ) : ℝ) * pow2 q = (ts.map termVal).sum := by
    rw [foldl_termAt_mul nz (fun t ht => hq ▸ (foldl_min_le nz _).2 t ht), ← hnz, sum_termVal_filter]
    simp
  generalize nz.foldl (fun v t => v + termAt q t) 0 = v at hsum
  rw [← hsum]
  have hzero : (v : ℝ) * pow2 q = 0 ↔ v = 0 := by simp [pow2_ne_zero]
  rw [ne_eq, hzero]
  refine ⟨fun hv => ?_, fun hv => ?_⟩
  · rw [if_pos hv]
    simp only [zeroSign, List.all_map]
    rfl
  · rw [if_neg hv, ← sgn_natAbs]
    exact deliver_exact hf hinf (Int.natAbs_ne_zero.mpr hv) q rm _

/-- Infinities of both signs, and no NaN. -/
def BothInf (vs : List Operand) : Prop := Operand.nan ∉ vs ∧ Operand.inf true ∈ vs ∧ Operand.inf false ∈ vs

open Classical in
/-- The exact sum of operands. -/
noncomputable def sumOf (rm : ℕ) (vs : List Operand) : Operand :=
  if Operand.nan ∈ vs then .nan
  else if Operand.inf true ∈ vs then .inf true
  else if Operand.inf false ∈ vs then .inf false
  else .num (zeroSign rm (vs.map Operand.sign)) (vs.map Operand.value).sum

theorem isSum_sumOf (rm : ℕ) {vs : List Operand} (hne : vs ≠ []) (hboth : ¬ BothInf vs) : IsSum rm vs (sumOf rm vs) := by
  refine ⟨fun hnan => if_pos hnan, fun hnan s hs => ?_, fun hnan hinf =>
    ⟨zeroSign rm (vs.map Operand.sign), ?_, fun hall => ?_, fun hall => ?_, fun ⟨a, ha, hat⟩ ⟨b, hb, hbf⟩ => ?_⟩⟩
  · rw [sumOf, if_neg hnan]
    cases s with
    | true => rw [if_pos hs]
    | false => rw [if_neg (fun ht => hboth ⟨hnan, ht, hs⟩), if_pos hs]
  · rw [sumOf, if_neg hnan, if_neg (hinf true), if_neg (hinf false)]
  · rw [zeroSign, if_pos (by simpa using hall)]
  · obtain ⟨w, r, rfl⟩ := List.exists_cons_of_ne_nil hne
    have hw := hall w (List.mem_cons_self ..)
    rw [zeroSign, if_neg (by simp [hw]), if_pos (by simpa using hall)]
  · rw [zeroSign, if_neg (by simp only [List.all_map, List.all_eq_true]; exact fun h => by simpa [hbf] using h b hb),
      if_neg (by simp only [List.all_map, List.all_eq_true]; exact fun h => by simpa [hat] using h a ha), decide_eq_true_iff]

/-- An invalid operation delivers the canonical NaN, whatever it adds. -/
theorem sumGives_invalid (c : Codes) (rm : ℕ) {invalid : Prop} {vs : List Operand} (hne : vs ≠ []) (h : invalid) :
    c.SumGives rm invalid vs (c.nan, fNV) :=
  ⟨fun _ => rfl, fun hb => ⟨_, isSum_sumOf rm hne hb, fun _ => rfl, fun hn => absurd h hn⟩⟩

/-- The signed significands of the finite values among some. -/
def finTerms (vs : List FVal) : List (Bool × ℕ × ℤ) := vs.filterMap (fun v => match v with
    | .fin s m e => some (s, m, e)
    | _ => none)

theorem mem_map_operand_inf {vs : List FVal} {s : Bool} : Operand.inf s ∈ vs.map FVal.operand ↔ FVal.inf s ∈ vs := by
  constructor
  · intro h
    obtain ⟨v, hv, he⟩ := List.mem_map.mp h
    cases v with
    | inf t => cases he; exact hv
    | nan => cases he
    | fin => cases he
  · exact fun h => List.mem_map.mpr ⟨_, h, rfl⟩

theorem mem_map_operand_nan {vs : List FVal} : Operand.nan ∈ vs.map FVal.operand ↔ vs.any FVal.isNan = true := by
  rw [List.any_eq_true, List.mem_map]
  refine exists_congr fun v => and_congr_right fun _ => ?_
  cases v <;> simp [FVal.operand, FVal.isNan]

/-- Values that are all finite are the terms that they stand for. -/
theorem finTerms_eq {vs : List FVal} (hnan : vs.any FVal.isNan = false) (hinf : ∀ s, FVal.inf s ∉ vs) :
    (finTerms vs).map termVal = (vs.map FVal.operand).map Operand.value ∧ (finTerms vs).map (·.1) = (vs.map FVal.operand).map Operand.sign := by
  induction vs with
  | nil => exact ⟨rfl, rfl⟩
  | cons v vs ih =>
    rw [List.any_cons, Bool.or_eq_false_iff] at hnan
    obtain ⟨h1, h2⟩ := ih hnan.2 (fun s hs => hinf s (List.mem_cons_of_mem _ hs))
    cases v with
    | nan => cases hnan.1
    | inf s => exact absurd (List.mem_cons_self ..) (hinf s)
    | fin s m e => exact ⟨congrArg (_ :: ·) h1, congrArg (_ :: ·) h2⟩

theorem contains_inf_iff {vs : List FVal} {s : Bool} : vs.contains (FVal.inf s) = true ↔ Operand.inf s ∈ vs.map FVal.operand := by
  rw [mem_map_operand_inf, List.contains_iff_mem]

/-- The sum of values, delivered. -/
theorem addVals_sumGives {f : Fmt} (hf : f.Sound) (hinf : f.HasInf) (rm : ℕ) {nv : Bool} {invalid : Prop} (hnv : nv = true ↔ invalid)
    {vs : List FVal} (hne : vs ≠ []) : f.codes.SumGives rm invalid (vs.map FVal.operand) (addVals f rm nv vs).res := by
  have hne' : vs.map FVal.operand ≠ [] := by simpa using hne
  unfold addVals
  by_cases hi : invalid
  · rw [if_pos (hnv.mpr hi)]
    exact sumGives_invalid _ rm hne' hi
  rw [if_neg (mt hnv.mp hi)]
  -- Where not both infinities stand in the sum, the result is what `sumOf` is delivered as.
  have hgives : ∀ {r : Res}, ¬ BothInf (vs.map FVal.operand) → f.codes.Gives rm invalid (sumOf rm (vs.map FVal.operand)) r →
      f.codes.SumGives rm invalid (vs.map FVal.operand) r :=
    fun hb hg => ⟨fun h => absurd h hb, fun _ => ⟨_, isSum_sumOf rm hne' hb, hg⟩⟩
  by_cases hnan : Operand.nan ∈ vs.map FVal.operand
  · rw [if_pos (mem_map_operand_nan.mp hnan)]
    refine hgives (fun hb => hb.1 hnan) ⟨fun h => absurd h hi, fun _ => ?_⟩
    rw [sumOf, if_pos hnan]
    exact ⟨fun _ => rfl, nofun, nofun⟩
  rw [if_neg (mt mem_map_operand_nan.mpr hnan)]
  by_cases ht : Operand.inf true ∈ vs.map FVal.operand
  · by_cases hf' : Operand.inf false ∈ vs.map FVal.operand
    · rw [contains_inf_iff.mpr ht, contains_inf_iff.mpr hf']
      exact ⟨fun _ => rfl, fun hn => absurd ⟨hnan, ht, hf'⟩ hn⟩
    · rw [contains_inf_iff.mpr ht, Bool.eq_false_iff.mpr (mt contains_inf_iff.mp hf')]
      refine hgives (fun hb => hf' hb.2.2) ⟨fun h => absurd h hi, fun _ => ?_⟩
      rw [sumOf, if_neg hnan, if_pos ht]
      exact ⟨nofun, fun s hs => by cases hs; rfl, nofun⟩
  rw [Bool.eq_false_iff.mpr (mt contains_inf_iff.mp ht)]
  refine hgives (fun hb => ht hb.2.1) ⟨fun h => absurd h hi, fun _ => ?_⟩
  rw [sumOf, if_neg hnan, if_neg ht]
  by_cases hf' : Operand.inf false ∈ vs.map FVal.operand
  · rw [contains_inf_iff.mpr hf', if_pos hf']
    exact ⟨nofun, fun s hs => by cases hs; rfl, nofun⟩
  · have hno : ∀ s, FVal.inf s ∉ vs := fun s hs => by
      cases s with
      | true => exact ht (mem_map_operand_inf.mpr hs)
      | false => exact hf' (mem_map_operand_inf.mpr hs)
    obtain ⟨hval, hsign⟩ := finTerms_eq (Bool.eq_false_iff.mpr (mt mem_map_operand_nan.mpr hnan)) hno
    rw [Bool.eq_false_iff.mpr (mt contains_inf_iff.mp hf'), if_neg hf', ← hval, ← hsign]
    refine ⟨nofun, nofun, fun s x hx => ?_⟩
    cases hx
    exact deliverSum_gives hf hinf rm (finTerms vs)

end Sys2Proof

/-! The floating instructions that round (O4): each lane's result is the exact real one, rounded once. -/

namespace Sys2Proof

open Sys2Proof.Machine Sys2Proof.Spec

/-- An instruction whose lanes have results that a rule allows. -/
theorem rounds_of_lanes {op : Op} {f : Iss → Op → Nat → LaneOut} {P : Iss → Op → Nat → LaneOut → Prop}
    (h : ∀ i op l, l ∈ i.lanes → P i op l (f i op l)) : Rounds (fun s => laneOp op s f) op P := fun s j s1 hi =>
  ⟨f j op, fun l hl => h j op l hl, fun hf => laneOp_computes op f s j s1 hi hf⟩

/-! ## Results of a type (11 R245) -/

/-- A result of the type that a minor names, from a result for each part of each format. -/
def typedOut (n : ℕ) (g : Fmt → ℕ → FOut) : LaneOut :=
  match n with
  | 0 => (g fp32 0).lane
  | 1 => packHalves (g fp16 0) (g fp16 1)
  | _ => packHalves (g bf16 0) (g bf16 1)

theorem typed_typedOut {P : Codes → ℕ → Res → Prop} {g : Fmt → ℕ → FOut}
    (h : ∀ f : Fmt, f.Sound → f.HasInf → ∀ k, P f.codes k (g f k).res) (n : ℕ) : Typed n P (typedOut n g) := by
  match n with
  | 0 => exact ⟨_, h fp32 sound_fp32 hasInf_fp32 0, rfl⟩
  | 1 => exact ⟨_, _, h fp16 sound_fp16 hasInf_fp16 0, h fp16 sound_fp16 hasInf_fp16 1, rfl⟩
  | n + 2 => exact ⟨_, _, h bf16 sound_bf16 hasInf_bf16 0, h bf16 sound_bf16 hasInf_bf16 1, rfl⟩

theorem part_fp32 (w : Word) : codes32.part w 0 = w.toNat := by
  rw [Codes.part, Nat.mul_zero, Nat.pow_zero, Nat.div_one]
  exact Nat.mod_eq_of_lt w.isLt

theorem f32_eq_part (w : Word) : f32 w = decodeIeee fp32 (fp32.codes.part w 0) := congrArg (decodeIeee fp32) (part_fp32 w).symm

theorem halfVal_fp16 (w : Word) (k : ℕ) : halfVal fp16 w k = decodeIeee fp16 (fp16.codes.part w k) := rfl
theorem halfVal_bf16 (w : Word) (k : ℕ) : halfVal bf16 w k = decodeIeee bf16 (bf16.codes.part w k) := rfl

theorem typed2_eq (i : Iss) (op : Op) (l : ℕ) (g : Fmt → ℕ → FVal → FVal → FOut) :
    typed2 i op l g = typedOut op.o.f.toNat (fun f k => g f op.o.rm.toNat (decodeIeee f (f.codes.part (i.a op l) k))
      (decodeIeee f (f.codes.part (i.bv op l) k))) := by
  unfold typed2 typedOut
  simp only [f32_eq_part]
  generalize op.o.f.toNat = n
  match n with
  | 0 => rfl
  | 1 => rfl
  | n + 2 => rfl

/-! ## Sums and differences (11 R245) -/

theorem operand_neg (v : FVal) : v.neg.operand = v.operand.opposite := by
  cases v with
  | nan => rfl
  | inf => rfl
  | fin s m e => cases s <;> simp [FVal.neg, FVal.operand, Operand.opposite, sgn]

section

variable {f : Fmt} (hf : f.Sound) (hinf : f.HasInf) (rm : ℕ)
include hf hinf

theorem fAdd_sumGives (a b : ℕ) : f.codes.SumGives rm (f.codes.isSig a = true ∨ f.codes.isSig b = true)
    [f.codes.operand a, f.codes.operand b] (fAdd f rm (decodeIeee f a) (decodeIeee f b)).res := by
  rw [isSig_decodeIeee, isSig_decodeIeee, operand_decodeIeee, operand_decodeIeee]
  exact addVals_sumGives hf hinf rm (Bool.or_eq_true ..).to_iff (vs := [decodeIeee f a, decodeIeee f b]) (List.cons_ne_nil _ _)

theorem fSub_sumGives (a b : ℕ) : f.codes.SumGives rm (f.codes.isSig a = true ∨ f.codes.isSig b = true)
    [f.codes.operand a, (f.codes.operand b).opposite] (fSub f rm (decodeIeee f a) (decodeIeee f b)).res := by
  rw [isSig_decodeIeee, isSig_decodeIeee, operand_decodeIeee, operand_decodeIeee, ← operand_neg]
  exact addVals_sumGives hf hinf rm (Bool.or_eq_true ..).to_iff (vs := [decodeIeee f a, (decodeIeee f b).neg]) (List.cons_ne_nil _ _)

end

/-! ## Products (11 R245, R249) -/

theorem sgn_mul_sgn (s t : Bool) (y z : ℝ) : sgn s y * sgn t z = sgn (s != t) (y * z) := by
  cases s <;> cases t <;> simp [sgn]

theorem operand_fin_zero (s : Bool) (e : ℤ) : (FVal.fin s 0 e).operand = .num s 0 := by
  cases s <;> simp [FVal.operand, sgn]

/-- A finite value stands for zero where its significand is zero. -/
theorem operand_fin_eq_zero {s t : Bool} {m : ℕ} {e : ℤ} : (FVal.fin s m e).operand = .num t 0 ↔ s = t ∧ m = 0 := by
  have h : sgn s (m * pow2 e) = 0 ↔ m = 0 := by
    cases s <;> simp [sgn, pow2_ne_zero]
  simp [FVal.operand, h]

/-- A product of values is none where the rules have it invalid, and else what they have it be. -/
theorem mulVals_spec (a b : FVal) : (BadProduct a.operand b.operand → mulVals a b = none) ∧
    (¬ BadProduct a.operand b.operand → ∃ v, mulVals a b = some v ∧ v.operand = product a.operand b.operand) := by
  match a, b with
  | .nan _, b => exact ⟨fun ⟨_, _, h⟩ => (by rcases h with ⟨h, -⟩ | ⟨h, -⟩ <;> cases h), fun _ => ⟨_, rfl, by cases b <;> rfl⟩⟩
  | .inf s, .nan g => exact ⟨fun ⟨_, _, h⟩ => (by rcases h with ⟨-, h⟩ | ⟨-, h⟩ <;> cases h), fun _ => ⟨_, rfl, rfl⟩⟩
  | .fin s m e, .nan g => exact ⟨fun ⟨_, _, h⟩ => (by rcases h with ⟨-, h⟩ | ⟨-, h⟩ <;> cases h), fun _ => ⟨_, rfl, rfl⟩⟩
  | .inf s, .inf t => exact ⟨fun ⟨_, _, h⟩ => (by rcases h with ⟨-, h⟩ | ⟨h, -⟩ <;> cases h), fun _ => ⟨_, rfl, rfl⟩⟩
  | .inf s, .fin t m e =>
    have hbad : BadProduct (FVal.inf s).operand (FVal.fin t m e).operand ↔ m = 0 := by
      refine ⟨fun ⟨_, _, h⟩ => ?_, fun h => ⟨s, t, .inl ⟨rfl, operand_fin_eq_zero.mpr ⟨rfl, h⟩⟩⟩⟩
      rcases h with ⟨-, h⟩ | ⟨h, -⟩
      · exact (operand_fin_eq_zero.mp h).2
      · cases h
    rw [hbad, mulVals]
    exact ⟨fun h => if_pos h, fun h => ⟨_, if_neg h, rfl⟩⟩
  | .fin s m e, .inf t =>
    have hbad : BadProduct (FVal.fin s m e).operand (FVal.inf t).operand ↔ m = 0 := by
      refine ⟨fun ⟨_, _, h⟩ => ?_, fun h => ⟨t, s, .inr ⟨operand_fin_eq_zero.mpr ⟨rfl, h⟩, rfl⟩⟩⟩
      rcases h with ⟨h, -⟩ | ⟨h, -⟩
      · cases h
      · exact (operand_fin_eq_zero.mp h).2
    rw [hbad, mulVals]
    exact ⟨fun h => if_pos h, fun h => ⟨_, if_neg h, rfl⟩⟩
  | .fin s m e, .fin t n g =>
    refine ⟨fun ⟨_, _, h⟩ => (by rcases h with ⟨h, -⟩ | ⟨-, h⟩ <;> cases h), fun _ => ⟨_, rfl, ?_⟩⟩
    simp only [FVal.operand, product, sgn_mul_sgn, pow2_add, Nat.cast_mul, mul_mul_mul_comm]

theorem mulVals_eq_none {a b : FVal} : mulVals a b = none ↔ BadProduct a.operand b.operand := by
  obtain ⟨hbad, hgood⟩ := mulVals_spec a b
  refine ⟨fun h => ?_, hbad⟩
  by_contra hb
  obtain ⟨v, hv, -⟩ := hgood hb
  rw [h] at hv
  cases hv

/-- Numbers and infinities have no signalling NaN among their factors. -/
theorem operand_ne_nan {v : FVal} (h : v.operand ≠ .nan) : v.sig = false := by
  cases v with
  | nan => exact absurd rfl h
  | inf => rfl
  | fin => rfl

theorem product_eq_nan {a b : Operand} (h : a = .nan ∨ b = .nan) : product a b = .nan := by
  rcases h with rfl | rfl
  · cases b <;> rfl
  · cases a <;> rfl

/-- A finite magnitude with a sign, delivered as the rules deliver a number. -/
theorem deliver_gives {f : Fmt} (hf : f.Sound) (hinf : f.HasInf) (rm : ℕ) {invalid : Prop} (hi : ¬ invalid) (s : Bool) (m : ℕ) (e : ℤ) :
    f.codes.Gives rm invalid (FVal.fin s m e).operand (deliver f rm s m e false).res := by
  refine ⟨fun h => absurd h hi, fun _ => ⟨nofun, nofun, fun t x hx => ?_⟩⟩
  cases hx
  refine ⟨fun h0 => ?_, fun h0 => ?_⟩
  · obtain ⟨-, rfl⟩ := operand_fin_eq_zero (t := s).mp (congrArg (Operand.num s) h0)
    exact deliver_zero f rm s e
  · refine deliver_exact hf hinf (fun hm => h0 ?_) e rm s
    rw [hm]
    cases s <;> simp [sgn]

theorem fMul_gives {f : Fmt} (hf : f.Sound) (hinf : f.HasInf) (rm : ℕ) (a b : ℕ) :
    f.codes.Gives rm (f.codes.isSig a = true ∨ f.codes.isSig b = true ∨ BadProduct (f.codes.operand a) (f.codes.operand b))
      (product (f.codes.operand a) (f.codes.operand b)) (fMul f rm (decodeIeee f a) (decodeIeee f b)).res := by
  rw [isSig_decodeIeee, isSig_decodeIeee, operand_decodeIeee, operand_decodeIeee]
  generalize decodeIeee f a = v
  generalize decodeIeee f b = w
  unfold fMul
  obtain ⟨hbad, hgood⟩ := mulVals_spec v w
  by_cases hb : BadProduct v.operand w.operand
  · rw [hbad hb]
    exact ⟨fun _ => rfl, fun h => absurd (.inr (.inr hb)) h⟩
  obtain ⟨p, hp, hop⟩ := hgood hb
  rw [hp, ← hop]
  have hnosig : p.operand ≠ .nan → ¬ (v.sig = true ∨ w.sig = true ∨ BadProduct v.operand w.operand) := fun hn => by
    rw [hop] at hn
    rw [operand_ne_nan (mt (fun h => product_eq_nan (.inl h)) hn), operand_ne_nan (mt (fun h => product_eq_nan (.inr h)) hn)]
    simpa using hb
  match p with
  | .nan g =>
    cases hs : v.sig || w.sig with
    | true => exact ⟨fun _ => rfl, fun h => absurd (by rw [Bool.or_eq_true] at hs; exact hs.imp_right .inl) h⟩
    | false =>
      rw [Bool.or_eq_false_iff] at hs
      refine ⟨fun h => ?_, fun _ => ⟨fun _ => rfl, nofun, nofun⟩⟩
      simp [hs, hb] at h
  | .inf s => exact ⟨fun h => absurd h (hnosig nofun), fun _ => ⟨nofun, fun t ht => by cases ht; rfl, nofun⟩⟩
  | .fin s m e => exact deliver_gives hf hinf rm (hnosig nofun) s m e

/-- Where no product is invalid, the products are operands as the rules have them. -/
theorem operands_of_products {ps : List (FVal × FVal)} (h : ∀ p ∈ ps, ¬ BadProduct p.1.operand p.2.operand) :
    ((ps.map (fun p => mulVals p.1 p.2)).filterMap id).map FVal.operand = ps.map (fun p => product p.1.operand p.2.operand) := by
  induction ps with
  | nil => rfl
  | cons p ps ih =>
    obtain ⟨v, hv, hop⟩ := (mulVals_spec p.1 p.2).2 (h p (List.mem_cons_self ..))
    rw [List.map_cons, hv, List.map_cons]
    exact congrArg₂ List.cons hop (ih fun q hq => h q (List.mem_cons_of_mem _ hq))

/-- A sum of products and an addend. -/
theorem fDot_sumGives {f : Fmt} (hf : f.Sound) (hinf : f.HasInf) (rm : ℕ) {invalid : Prop} (ps : List (FVal × FVal)) (c : FVal)
    (hinv : invalid ↔ (∃ p ∈ ps, p.1.sig = true ∨ p.2.sig = true ∨ BadProduct p.1.operand p.2.operand) ∨ c.sig = true) :
    f.codes.SumGives rm invalid (ps.map (fun p => product p.1.operand p.2.operand) ++ [c.operand]) (fDot f rm ps c).res := by
  have hnone : (ps.map (fun p => mulVals p.1 p.2)).any (fun p => p.isNone) = true ↔ ∃ p ∈ ps, BadProduct p.1.operand p.2.operand := by
    simp only [List.any_map, List.any_eq_true, Function.comp_apply, Option.isNone_iff_eq_none, mulVals_eq_none]
  have hnv : (c.sig || ps.any (fun p => p.1.sig || p.2.sig) || (ps.map (fun p => mulVals p.1 p.2)).any (fun p => p.isNone)) = true ↔
      invalid := by
    rw [Bool.or_eq_true, hnone, Bool.or_eq_true, List.any_eq_true, hinv, or_assoc, ← exists_or, or_comm]
    simp only [Bool.or_eq_true, ← and_or_left, or_assoc]
  unfold fDot
  dsimp only
  by_cases hb : ∃ p ∈ ps, BadProduct p.1.operand p.2.operand
  · have hi : invalid := hinv.mpr (.inl (hb.imp fun _ ⟨hp, hq⟩ => ⟨hp, .inr (.inr hq)⟩))
    rw [hnv.mpr hi]
    exact sumGives_invalid _ rm (by simp) hi
  · have hgood : ∀ p ∈ ps, ¬ BadProduct p.1.operand p.2.operand := fun p hp hq => hb ⟨p, hp, hq⟩
    rw [← operands_of_products hgood, ← List.map_singleton, ← List.map_append]
    exact addVals_sumGives hf hinf rm hnv (by simp)

/-! ## Quotients and roots (11 R249) -/

/-- A truncated magnitude, with a sticky bit for its rest, stands for the magnitude. -/
theorem tracks_truncated {d : ℕ} {e : ℤ} {z : ℝ} {sticky : Bool} (hlo : (d : ℝ) ≤ z) (hhi : z < d + 1) (hs : sticky = false ↔ z = d) :
    Tracks d e sticky (z * pow2 e) e := by
  have hpos := pow2_pos e
  cases sticky with
  | false =>
    rw [hs.mp rfl]
    exact tracks_exact d e e
  | true =>
    have hne : (d : ℝ) ≠ z := fun h => Bool.noConfusion (hs.mpr h.symm)
    exact tracks_between (mul_lt_mul_of_pos_right (lt_of_le_of_ne hlo hne) hpos) (mul_lt_mul_of_pos_right hhi hpos)

/-- A quotient to 64 bits and more, with its rest sticky, stands for the quotient. -/
theorem tracks_quotient {m n : ℕ} (hm : m ≠ 0) (hn : n ≠ 0) (e g : ℤ) {k : ℕ} (hk : 64 + Nat.log2 n ≤ k) :
    Tracks (m * 2 ^ k / n) (e - g - k) (decide (m * 2 ^ k % n ≠ 0)) (m * pow2 e / (n * pow2 g)) (e - g - k) ∧
    m * 2 ^ k / n ≠ 0 ∧ 63 ≤ Nat.log2 (m * 2 ^ k / n) := by
  have hn0 : (n : ℝ) ≠ 0 := by exact_mod_cast hn
  have hnpos : (0 : ℝ) < n := by exact_mod_cast Nat.pos_of_ne_zero hn
  have hy : (m : ℝ) * pow2 e / (n * pow2 g) = ((m * 2 ^ k : ℕ) : ℝ) / n * pow2 (e - g - k) := by
    rw [div_mul_eq_mul_div, div_eq_div_iff (mul_ne_zero hn0 (pow2_ne_zero g)) hn0, Nat.cast_mul, ← pow2_natCast,
      show e = k + (e - g - k) + g by ring, pow2_add, pow2_add, show (k : ℤ) + (e - g - k) + g - g - k = e - g - k by ring]
    ring
  have hdiv := Nat.div_add_mod (m * 2 ^ k) n
  have hmod := Nat.mod_lt (m * 2 ^ k) (Nat.pos_of_ne_zero hn)
  have hge : 2 ^ 63 ≤ m * 2 ^ k / n := by
    rw [Nat.le_div_iff_mul_le (Nat.pos_of_ne_zero hn)]
    calc 2 ^ 63 * n
      _ ≤ 2 ^ 63 * 2 ^ (Nat.log2 n + 1) := Nat.mul_le_mul_left _ Nat.lt_log2_self.le
      _ = 2 ^ (64 + Nat.log2 n) := by rw [← Nat.pow_add]; congr 1; omega
      _ ≤ 2 ^ k := Nat.pow_le_pow_right (by decide) hk
      _ ≤ m * 2 ^ k := Nat.le_mul_of_pos_left _ (Nat.pos_of_ne_zero hm)
  have hd0 : m * 2 ^ k / n ≠ 0 := (Nat.lt_of_lt_of_le (Nat.two_pow_pos 63) hge).ne'
  refine ⟨?_, hd0, (Nat.le_log2 hd0).mpr hge⟩
  rw [hy]
  generalize m * 2 ^ k / n = d at *
  generalize m * 2 ^ k % n = r at *
  rw [← hdiv]
  refine tracks_truncated ?_ ?_ ?_
  · rw [le_div_iff₀ hnpos]
    exact_mod_cast (by rw [Nat.mul_comm]; omega)
  · rw [div_lt_iff₀ hnpos]
    exact_mod_cast (by rw [Nat.succ_mul, Nat.mul_comm]; omega)
  · rw [div_eq_iff hn0, decide_eq_false_iff_not, not_not]
    push_cast
    constructor
    · rintro rfl
      push_cast
      ring
    · intro h
      have : (r : ℝ) = 0 := by linarith
      exact_mod_cast this

theorem isqrtFrom_spec (x k r : ℕ) (hlo : r * r ≤ x) (hhi : x < (r + 2 ^ k) * (r + 2 ^ k)) :
    isqrtFrom x k r * isqrtFrom x k r ≤ x ∧ x < (isqrtFrom x k r + 1) * (isqrtFrom x k r + 1) := by
  induction k generalizing r with
  | zero => exact ⟨hlo, hhi⟩
  | succ k ih =>
    rw [isqrtFrom]
    split
    case isTrue h =>
      refine ih _ h ?_
      rwa [Nat.add_assoc, ← Nat.two_mul, ← Nat.pow_succ']
    case isFalse h => exact ih r hlo (not_le.mp h)

/-- The integer square root found bit by bit. -/
theorem isqrt_spec (x : ℕ) : isqrt x * isqrt x ≤ x ∧ x < (isqrt x + 1) * (isqrt x + 1) := by
  refine isqrtFrom_spec x _ 0 (Nat.zero_le _) ?_
  rw [Nat.zero_add, ← Nat.pow_add]
  exact Nat.lt_log2_self.trans_le (Nat.pow_le_pow_right (by decide) (by omega))

/-- The integer square root lies below the root by less than 1, and is the root of a square alone. -/
theorem isqrt_bounds (x : ℕ) : (isqrt x : ℝ) ≤ Real.sqrt x ∧ Real.sqrt x < isqrt x + 1 ∧
    (isqrt x * isqrt x = x ↔ Real.sqrt x = isqrt x) := by
  obtain ⟨hlo, hhi⟩ := isqrt_spec x
  have h0 : (0 : ℝ) ≤ isqrt x := Nat.cast_nonneg _
  refine ⟨(Real.le_sqrt h0 (Nat.cast_nonneg x)).mpr ?_, (Real.sqrt_lt' (by positivity)).mpr ?_, ?_⟩
  · rw [sq]
    exact_mod_cast hlo
  · rw [sq]
    exact_mod_cast hhi
  · rw [Real.sqrt_eq_iff_mul_self_eq (Nat.cast_nonneg x) h0]
    exact_mod_cast eq_comm

/-- The root found to 64 bits and more, with its rest sticky, stands for the root. -/
theorem tracks_sqrtMag {m : ℕ} (hm : m ≠ 0) (e : ℤ) :
    Tracks (sqrtMag m e).1 (sqrtMag m e).2.1 (!(sqrtMag m e).2.2) (Real.sqrt (m * pow2 e)) (sqrtMag m e).2.1 ∧
    (sqrtMag m e).1 ≠ 0 ∧ 63 ≤ Nat.log2 (sqrtMag m e).1 := by
  unfold sqrtMag
  dsimp only
  have hsh : ∃ sh : ℕ, (if e % 2 = 0 then 128 else 129) = sh ∧ 128 ≤ sh ∧ e = 2 * ((e - sh) / 2) + sh := by
    split
    · exact ⟨128, rfl, le_rfl, by omega⟩
    · exact ⟨129, rfl, by omega, by omega⟩
  obtain ⟨sh, hsh, hle, hev⟩ := hsh
  rw [hsh]
  generalize (e - sh) / 2 = q at hev
  have hy : Real.sqrt (m * pow2 e) = Real.sqrt ((m * 2 ^ sh : ℕ) : ℝ) * pow2 q := by
    rw [hev, pow2_add, show 2 * q = q + q by ring, pow2_add, pow2_natCast, ← Real.sqrt_sq (pow2_pos q).le, ← Real.sqrt_mul (Nat.cast_nonneg _),
      Real.sqrt_sq (pow2_pos q).le]
    congr 1
    push_cast
    ring
  obtain ⟨hlo, hhi, heq⟩ := isqrt_bounds (m * 2 ^ sh)
  have hge : 2 ^ 63 ≤ isqrt (m * 2 ^ sh) := by
    have h1 := (isqrt_spec (m * 2 ^ sh)).2
    have h2 : 2 ^ 128 ≤ m * 2 ^ sh :=
      (Nat.pow_le_pow_right (by decide) hle).trans (Nat.le_mul_of_pos_left _ (Nat.pos_of_ne_zero hm))
    by_contra h
    have := Nat.mul_le_mul (show isqrt (m * 2 ^ sh) + 1 ≤ 2 ^ 63 by omega) (show isqrt (m * 2 ^ sh) + 1 ≤ 2 ^ 63 by omega)
    omega
  have h0 : isqrt (m * 2 ^ sh) ≠ 0 := (Nat.lt_of_lt_of_le (Nat.two_pow_pos 63) hge).ne'
  refine ⟨?_, h0, (Nat.le_log2 h0).mpr hge⟩
  rw [hy]
  exact tracks_truncated hlo hhi (by rw [Bool.not_eq_false', decide_eq_true_iff, heq])

theorem operand_f32 (w : Word) : codes32.operand w.toNat = (f32 w).operand := operand_decodeIeee fp32 w.toNat

theorem isSig_f32 (w : Word) : codes32.isSig w.toNat = (f32 w).sig := isSig_decodeIeee fp32 w.toNat

theorem sgn_div_sgn (s t : Bool) (y z : ℝ) : sgn s y / sgn t z = sgn (s != t) (y / z) := by
  cases s <;> cases t <;> simp [sgn, neg_div, div_neg]

/-- A quotient of numbers other than zero. -/
theorem fDiv_delivers (rm : ℕ) (s t : Bool) {m n : ℕ} (hm : m ≠ 0) (hn : n ≠ 0) (e g : ℤ) :
    codes32.Delivers rm (sgn s (m * pow2 e) / sgn t (n * pow2 g)) (fDiv fp32 rm (.fin s m e) (.fin t n g)).res := by
  obtain ⟨htr, hd, hlog⟩ := tracks_quotient hm hn e g (k := 64 + Nat.log2 n) le_rfl
  rw [fDiv, if_neg hn, if_neg hm, sgn_div_sgn]
  refine htr.delivers sound_fp32 hasInf_fp32 hd ?_ rm _
  show _ < _ - (23 : ℤ)
  omega

theorem fdiv_is (i : Iss) (op : Op) (l : ℕ) : FdivIs i op l (laneFdiv i op l) := by
  refine ⟨(fDiv fp32 op.o.rm.toNat (f32 (i.a op l)) (f32 (i.bv op l))).res, ?_, rfl⟩
  simp only [isSig_f32, operand_f32]
  generalize f32 (i.a op l) = v
  generalize f32 (i.bv op l) = w
  -- A quotient with a NaN is the canonical one, invalid where it signals.
  have hnan : fDiv fp32 op.o.rm.toNat v w = nanOut fp32 (v.sig || w.sig) → (v.operand = .nan ∨ w.operand = .nan) →
      (v.sig = true ∨ w.sig = true → (fDiv fp32 op.o.rm.toNat v w).res = (codes32.nan, fNV)) ∧
      (v.sig = false → w.sig = false → (fDiv fp32 op.o.rm.toNat v w).res = (codes32.nan, 0)) := fun h _ => by
    rw [h, ← Bool.or_eq_true]
    exact ⟨fun hs => by rw [hs]; rfl, fun h1 h2 => by rw [h1, h2]; rfl⟩
  match v, w with
  | .nan g, w =>
    obtain ⟨h1, h2⟩ := hnan rfl (.inl rfl)
    exact ⟨h1, fun a b => ⟨fun _ => h2 a b, nofun, nofun, nofun, nofun⟩⟩
  | .inf s, .nan g =>
    obtain ⟨h1, h2⟩ := hnan rfl (.inr rfl)
    exact ⟨h1, fun a b => ⟨fun _ => h2 a b, nofun, nofun, nofun, nofun⟩⟩
  | .fin s m e, .nan g =>
    obtain ⟨h1, h2⟩ := hnan rfl (.inr rfl)
    exact ⟨h1, fun a b => ⟨fun _ => h2 a b, nofun, nofun, nofun, nofun⟩⟩
  | .inf s, .inf t => exact ⟨by simp, fun _ _ => ⟨by simp [FVal.operand], fun _ _ _ _ => rfl, nofun, nofun, nofun⟩⟩
  | .inf s, .fin t n g =>
    exact ⟨by simp, fun _ _ => ⟨by simp [FVal.operand], nofun, fun p q y hp hq => by cases hp; cases hq; rfl, nofun, nofun⟩⟩
  | .fin s m e, .inf t =>
    exact ⟨by simp, fun _ _ => ⟨by simp [FVal.operand], nofun, nofun, fun p x q hp hq => by cases hp; cases hq; rfl, nofun⟩⟩
  | .fin s m e, .fin t n g =>
    have hz : ∀ (s : Bool) (m : ℕ) (e : ℤ), sgn s (m * pow2 e) = 0 ↔ m = 0 := fun s m e => by
      rw [sgn_eq_zero, mul_eq_zero, or_iff_left (pow2_ne_zero e), Nat.cast_eq_zero]
    refine ⟨by simp, fun _ _ => ⟨by simp [FVal.operand], nofun, nofun, nofun, fun p x q y hp hq => ?_⟩⟩
    cases hp
    cases hq
    simp only [ne_eq, hz]
    refine ⟨fun hm hn => ?_, fun hm hn => ?_, fun hm hn => ?_, fun hm hn => fDiv_delivers _ s t hm hn e g⟩
    · rw [fDiv, if_pos hn, if_pos hm]
      rfl
    · rw [fDiv, if_pos hn, if_neg hm]
      rfl
    · rw [fDiv, if_neg hn, if_pos hm]
      rfl

/-! ## Operations of one operand (11 R249) -/

theorem isNan_of_isInf {c : Codes} {v : ℕ} (h : c.isInf v = true) : c.isNan v = false :=
  decide_eq_false (of_decide_eq_true h).not_gt

theorem operand_eq_nan {c : Codes} {v : ℕ} : c.operand v = .nan ↔ c.isNan v = true := by
  unfold Codes.operand
  split
  case isTrue h => exact iff_of_true rfl h
  case isFalse h =>
    refine iff_of_false (fun hop => ?_) h
    split at hop <;> cases hop

theorem operand_eq_inf {c : Codes} {v : ℕ} {s : Bool} : c.operand v = .inf s ↔ c.isInf v = true ∧ c.neg v = s := by
  unfold Codes.operand
  by_cases hi : c.isInf v = true
  · rw [isNan_of_isInf hi, if_neg Bool.false_ne_true, if_pos hi, Operand.inf.injEq, and_iff_right hi]
  · refine iff_of_false (fun hop => ?_) (fun h => hi h.1)
    rw [if_neg hi] at hop
    split at hop <;> cases hop

/-- An operand that is a number: its code is finite, and the number and the sign are its own. -/
theorem operand_eq_num {c : Codes} {a : ℕ} {s : Bool} {x : ℝ} (h : c.operand a = .num s x) :
    s = c.neg a ∧ x = c.real a ∧ c.low a < c.inf := by
  unfold Codes.operand at h
  split at h
  · cases h
  · split at h
    · cases h
    · rename_i hnan hinf
      cases h
      simp only [Codes.isNan, Codes.isInf, decide_eq_true_iff] at hnan hinf
      exact ⟨rfl, rfl, by omega⟩

theorem operand_eq_nan_iff_isNan {v : FVal} : v.operand = .nan ↔ v.isNan = true := by
  cases v <;> simp [FVal.operand, FVal.isNan]

theorem operand_eq_inf_iff {v : FVal} {s : Bool} : v.operand = .inf s ↔ v = .inf s := by
  cases v <;> simp [FVal.operand]

/-- A word that stands for zero is one of the two zeros. -/
theorem withSign_zero_of_num {w : Word} {s : Bool} (h : (f32 w).operand = .num s 0) : codes32.withSign s 0 = w.toNat := by
  rw [← operand_f32] at h
  obtain ⟨rfl, hx, -⟩ := operand_eq_num h
  rw [← real_eq_zero.mp hx.symm]
  exact withSign_neg_low codes32 w.isLt

theorem fsqrt_is (i : Iss) (op : Op) (l : ℕ) : FsqrtIs i op l (laneFsqrt i op l) := by
  refine ⟨(fSqrt fp32 op.o.rm.toNat (f32 (i.a op l))).res, ?_, rfl⟩
  simp only [isSig_f32, operand_f32]
  have hzero := fun s => withSign_zero_of_num (w := i.a op l) (s := s)
  generalize f32 (i.a op l) = v at hzero
  match v with
  | .nan g => exact ⟨fun _ => by cases g <;> rfl, nofun, nofun, nofun⟩
  | .inf s => exact ⟨nofun, fun h => by cases h; rfl, fun h => by cases h; rfl, nofun⟩
  | .fin s m e =>
    refine ⟨nofun, nofun, nofun, fun t x hx => ?_⟩
    cases hx
    by_cases hm : m = 0
    · subst hm
      have h0 : sgn s ((0 : ℕ) * pow2 e) = 0 := by simp [sgn_eq_zero]
      rw [h0]
      refine ⟨fun _ => ?_, fun h => absurd h (lt_irrefl 0), fun h => absurd h (lt_irrefl 0)⟩
      rw [← hzero s (operand_fin_zero s e)]
      rfl
    · have hy : (0 : ℝ) < m * pow2 e := mul_pos (by exact_mod_cast Nat.pos_of_ne_zero hm) (pow2_pos e)
      rw [fSqrt, if_neg hm]
      refine ⟨fun h => absurd (sgn_eq_zero.mp h) hy.ne', fun h => ?_, fun h => ?_⟩
      · rw [if_pos ((sgn_neg_iff hy).mp h)]
        rfl
      · have hs : s = false := by
          rw [← Bool.not_eq_true, ← sgn_neg_iff hy]
          exact h.not_gt
        subst hs
        rw [if_neg Bool.false_ne_true]
        obtain ⟨htr, hd, hlog⟩ := tracks_sqrtMag hm e
        refine htr.delivers sound_fp32 hasInf_fp32 hd ?_ op.o.rm.toNat false
        show _ < _ - (23 : ℤ)
        omega

theorem word_eq_flagged (w : Word) : LaneOut.word w = .flagged (BitVec.ofNat 32 w.toNat) 0 := by
  rw [BitVec.ofNat_toNat, BitVec.setWidth_eq]
  rfl

theorem fscale_is (i : Iss) (op : Op) (l : ℕ) : FscaleIs i op l (laneFscale i op l) := by
  unfold FscaleIs laneFscale
  simp only [isSig_f32, operand_f32]
  generalize f32 (i.a op l) = v
  match v with
  | .nan g => exact ⟨(nanOut fp32 g).res, ⟨fun _ => by cases g <;> rfl, nofun, nofun⟩, rfl⟩
  | .inf s => exact ⟨_, ⟨nofun, fun _ _ => rfl, nofun⟩, word_eq_flagged _⟩
  | .fin s m e =>
    by_cases hm : m = 0
    · refine ⟨_, ⟨nofun, nofun, fun t x hx => ⟨fun _ => rfl, fun h => absurd ?_ h⟩⟩, (if_pos hm).trans (word_eq_flagged _)⟩
      cases hx
      rw [hm, Nat.cast_zero, zero_mul, sgn_eq_zero]
    · refine ⟨(deliver fp32 op.o.rm.toNat s m (e + (i.bv op l).toInt) false).res,
        ⟨nofun, nofun, fun t x hx => ⟨fun h => ?_, fun _ => ?_⟩⟩, if_neg hm⟩
      · cases hx
        rw [sgn_eq_zero, mul_eq_zero, or_iff_left (pow2_ne_zero e), Nat.cast_eq_zero] at h
        exact absurd h hm
      · cases hx
        rw [sgn_mul, mul_assoc, ← pow2_add]
        exact deliver_exact sound_fp32 hasInf_fp32 hm _ _ s

theorem pow2_zero : pow2 0 = 1 := zpow_zero 2

/-- A number rounded to an integer is its rounded units. -/
theorem roundedInt_eq_units (rm : ℕ) (s : Bool) (m : ℕ) (e : ℤ) :
    roundedInt rm (sgn s (m * pow2 e)) = sgnInt s (unitsAt rm s m e 0 false).1 ∧
    ((unitsAt rm s m e 0 false).2 = true ↔ (roundedInt rm (sgn s (m * pow2 e)) : ℝ) = sgn s (m * pow2 e)) := by
  have htr := tracks_exact m e (-1)
  have hgrid := htr.onGrid_eq (q := 0) (by decide) rm s
  have hexact := htr.exact_iff (q := 0) (by decide) rm s
  simp only [onGrid, pow2_zero, div_one, mul_one] at hgrid hexact
  refine ⟨?_, hexact⟩
  rw [← cast_sgnInt] at hgrid
  exact_mod_cast hgrid

/-- Integers that FP32 holds: its fraction and one bit more. -/
theorem roundMag_integer (rm : ℕ) (s : Bool) {n : ℕ} (hn : n < 2 ^ 24) :
    (roundMag fp32 rm s n 0 false).code ≤ fp32.maxCode ∧
    codes32.real (codes32.withSign s (roundMag fp32 rm s n 0 false).code) = sgn s n := by
  have h0 : (n : ℝ) * pow2 0 = n := by rw [pow2_zero, mul_one]
  by_cases hn0 : n = 0
  · subst hn0
    have hz : (roundMag fp32 rm s 0 0 false).code = 0 := by simp [roundMag]
    rw [hz, real_withSign codes32 s (by decide), codeUnits_eq_zero.mpr rfl, Nat.cast_zero, zero_mul]
    exact ⟨Nat.zero_le _, rfl⟩
  · have htop : (n : ℝ) * pow2 0 ≤ fp32.codes.real fp32.maxCode := by
      rw [real_maxCode sound_fp32]
      exact mul_le_mul (by exact_mod_cast Nat.le_of_lt_succ hn) (pow2_le_pow2.mpr (by decide)) (pow2_pos 0).le (Nat.cast_nonneg _)
    obtain ⟨-, hle, hreal⟩ := roundMag_exact sound_fp32 hn0 rfl hn (by decide) htop rm s
    rw [h0] at hreal
    exact ⟨hle, hreal⟩

/-- The significand and the exponent of a finite word. -/
theorem f32_fin_bounds {w : Word} {s : Bool} {m : ℕ} {e : ℤ} (h : f32 w = .fin s m e) : m < 2 ^ 24 ∧ -149 ≤ e ∧ e ≤ 104 := by
  have hfr : bitsOf w.toNat 0 23 < 2 ^ 23 := Nat.mod_lt _ (by decide)
  have hbe : bitsOf w.toNat 23 8 < 2 ^ 8 := Nat.mod_lt _ (by decide)
  change (if bitsOf w.toNat 23 8 = 255 then (if bitsOf w.toNat 0 23 = 0 then FVal.inf _ else .nan _) else
    if bitsOf w.toNat 23 8 = 0 then .fin _ (bitsOf w.toNat 0 23) (-126 - 23)
    else .fin _ (2 ^ 23 + bitsOf w.toNat 0 23) ((bitsOf w.toNat 23 8 : ℤ) - 127 - 23)) = _ at h
  split_ifs at h with htop h0 hz <;> cases h
  · exact ⟨by omega, by decide, by decide⟩
  · exact ⟨by omega, by omega, by omega⟩

theorem frnd_is (i : Iss) (op : Op) (l : ℕ) : FrndIs i op l (laneFrnd i op l) := by
  unfold FrndIs laneFrnd
  simp only [isSig_f32, operand_f32]
  have hnum := fun s x h => operand_eq_num (c := codes32) (a := (i.a op l).toNat) (s := s) (x := x) h
  have hbounds := fun s m e => f32_fin_bounds (w := i.a op l) (s := s) (m := m) (e := e)
  rw [operand_f32] at hnum
  generalize f32 (i.a op l) = v at hnum hbounds ⊢
  match v with
  | .nan g => exact ⟨(nanOut fp32 g).res, ⟨fun _ => by cases g <;> rfl, nofun, nofun⟩, rfl⟩
  | .inf s => exact ⟨_, ⟨nofun, fun _ _ => rfl, nofun⟩, word_eq_flagged _⟩
  | .fin s m e =>
    by_cases he : 0 ≤ e
    · refine ⟨((i.a op l).toNat, 0), ⟨nofun, nofun, fun t x hx => ?_⟩, (if_pos he).trans (word_eq_flagged _)⟩
      obtain ⟨hs, hx', hlow⟩ := hnum t x hx
      cases hx
      have hint : (roundedInt op.o.rm.toNat (sgn s (m * pow2 e)) : ℝ) = sgn s (m * pow2 e) := by
        rw [pow2_of_le he, pow2_zero, mul_one, ← Nat.cast_mul]
        exact roundedInt_sgn_natCast ..
      exact ⟨hx'.symm.trans hint.symm, hlow, (i.a op l).isLt, hs.symm, by rw [if_neg (not_not_intro hint)]⟩
    · refine ⟨(codes32.withSign s (roundMag fp32 0 s (unitsAt op.o.rm.toNat s m e 0 false).1 0 false).code,
        flagIf (!(unitsAt op.o.rm.toNat s m e 0 false).2) fNX), ⟨nofun, nofun, fun t x hx => ?_⟩, if_neg he⟩
      cases hx
      have htr := tracks_exact m e (-1)
      obtain ⟨hm, -, -⟩ := hbounds s m e rfl
      have hu : (unitsAt op.o.rm.toNat s m e 0 false).1 < 2 ^ 24 := Nat.lt_of_le_of_lt (htr.units_le (k := m) (by decide) _ s (by
        exact mul_le_mul_of_nonneg_left (pow2_le_pow2.mpr (by omega)) (Nat.cast_nonneg m))) hm
      obtain ⟨hround, hexact⟩ := roundedInt_eq_units op.o.rm.toNat s m e
      obtain ⟨hle, hreal⟩ := roundMag_integer 0 s hu
      have hlt := hle.trans_lt sound_fp32.maxCode_lt
      refine ⟨by rw [hreal, hround, cast_sgnInt], ?_, withSign_lt codes32 s hlt, neg_withSign codes32 s hlt, ?_⟩
      · exact (low_withSign codes32 s hlt).trans_lt (Nat.lt_of_le_of_lt hle (by decide))
      · exact flagIf_not_eq_ite hexact fNX

/-! ## The instructions -/

theorem fadd_is (i : Iss) (op : Op) (l : ℕ) : FaddIs i op l (laneFadd i op l) := by
  unfold FaddIs laneFadd
  rw [typed2_eq]
  exact typed_typedOut (fun f hf hinf k => fAdd_sumGives hf hinf _ _ _) _

theorem fsub_is (i : Iss) (op : Op) (l : ℕ) : FsubIs i op l (laneFsub i op l) := by
  unfold FsubIs laneFsub
  rw [typed2_eq]
  exact typed_typedOut (fun f hf hinf k => fSub_sumGives hf hinf _ _ _) _

theorem fmul_is (i : Iss) (op : Op) (l : ℕ) : FmulIs i op l (laneFmul i op l) := by
  unfold FmulIs laneFmul
  rw [typed2_eq]
  exact typed_typedOut (fun f hf hinf k => fMul_gives hf hinf _ _ _) _

theorem laneFfma_eq (i : Iss) (op : Op) (l : ℕ) : laneFfma i op l = typedOut op.o.f.toNat (fun f k => fDot f op.o.rm.toNat
    [(decodeIeee f (f.codes.part (i.a op l) k), decodeIeee f (f.codes.part (i.bv op l) k))] (decodeIeee f (f.codes.part (i.c op l) k))) := by
  unfold laneFfma typedOut
  simp only [f32_eq_part]
  generalize op.o.f.toNat = n
  match n with
  | 0 => rfl
  | 1 => rfl
  | n + 2 => rfl

theorem ffma_is (i : Iss) (op : Op) (l : ℕ) : FfmaIs i op l (laneFfma i op l) := by
  unfold FfmaIs
  rw [laneFfma_eq]
  refine typed_typedOut (fun f hf hinf k => ?_) _
  simp only [isSig_decodeIeee, operand_decodeIeee]
  generalize decodeIeee f (f.codes.part (i.a op l) k) = va
  generalize decodeIeee f (f.codes.part (i.bv op l) k) = vb
  generalize decodeIeee f (f.codes.part (i.c op l) k) = vc
  exact fDot_sumGives hf hinf op.o.rm.toNat [(va, vb)] vc (by simp; tauto)

/-- What holds of one of two halves. -/
theorem exists_half {P : ℕ → Prop} : (∃ h < 2, P h) ↔ P 0 ∨ P 1 :=
  ⟨fun ⟨h, hlt, hp⟩ => by interval_cases h; exacts [.inl hp, .inr hp], fun h => h.elim (⟨0, by decide, ·⟩) (⟨1, by decide, ·⟩)⟩

/-- FDOT2's sum, for halves read in a format. -/
theorem fdot2_sumGives {f : Fmt} (rm : ℕ) (a b c : Word) (hhalf : ∀ (w : Word) k, halfVal f w k = decodeIeee f (f.codes.part w k)) :
    codes32.SumGives rm ((∃ h < 2, f.codes.isSig (f.codes.part a h) = true ∨ f.codes.isSig (f.codes.part b h) = true ∨
        BadProduct (f.codes.operand (f.codes.part a h)) (f.codes.operand (f.codes.part b h))) ∨ codes32.isSig c.toNat = true)
      [product (f.codes.operand (f.codes.part a 0)) (f.codes.operand (f.codes.part b 0)),
        product (f.codes.operand (f.codes.part a 1)) (f.codes.operand (f.codes.part b 1)), codes32.operand c.toNat]
      (fDot fp32 rm [(halfVal f a 0, halfVal f b 0), (halfVal f a 1, halfVal f b 1)] (f32 c)).res := by
  simp only [isSig_f32, operand_f32, exists_half, isSig_decodeIeee, operand_decodeIeee, hhalf]
  generalize decodeIeee f (f.codes.part a 0) = a0
  generalize decodeIeee f (f.codes.part b 0) = b0
  generalize decodeIeee f (f.codes.part a 1) = a1
  generalize decodeIeee f (f.codes.part b 1) = b1
  exact fDot_sumGives sound_fp32 hasInf_fp32 rm [(a0, b0), (a1, b1)] (f32 c) (by simp)

theorem fdot2_is (i : Iss) (op : Op) (l : ℕ) : Fdot2Is i op l (laneFdot2 i op l) := by
  unfold Fdot2Is laneFdot2
  rw [part_fp32]
  by_cases h : op.o.f.toNat = 0
  · simp only [h, if_true]
    exact ⟨(fDot fp32 _ [(halfVal bf16 _ 0, _), _] _).res, fdot2_sumGives _ _ _ _ halfVal_bf16, rfl⟩
  · simp only [h, if_false]
    exact ⟨(fDot fp32 _ [(halfVal fp16 _ 0, _), _] _).res, fdot2_sumGives _ _ _ _ halfVal_fp16, rfl⟩

/-- Settles O4: each form's lanes deliver the exact result, rounded once, by the lemma on its operation. -/
theorem roundedArithmetic : Obligations.RoundedArithmetic := by
  unfold Obligations.RoundedArithmetic
  exact ⟨fun _ => rounds_of_lanes fun i op l _ => fadd_is i op l, fun _ => rounds_of_lanes fun i op l _ => fadd_is i op l,
    fun _ => rounds_of_lanes fun i op l _ => fadd_is i op l, fun _ => rounds_of_lanes fun i op l _ => fsub_is i op l,
    fun _ => rounds_of_lanes fun i op l _ => fsub_is i op l, fun _ => rounds_of_lanes fun i op l _ => fsub_is i op l,
    fun _ => rounds_of_lanes fun i op l _ => fmul_is i op l, fun _ => rounds_of_lanes fun i op l _ => fmul_is i op l,
    fun _ => rounds_of_lanes fun i op l _ => fmul_is i op l, fun _ => rounds_of_lanes fun i op l _ => ffma_is i op l,
    fun _ => rounds_of_lanes fun i op l _ => fdiv_is i op l, fun _ => rounds_of_lanes fun i op l _ => fdiv_is i op l,
    fun _ => rounds_of_lanes fun i op l _ => fsqrt_is i op l, fun _ => rounds_of_lanes fun i op l _ => fsqrt_is i op l,
    fun _ => rounds_of_lanes fun i op l _ => frnd_is i op l, fun _ => rounds_of_lanes fun i op l _ => frnd_is i op l,
    fun _ => rounds_of_lanes fun i op l _ => fscale_is i op l, fun _ => rounds_of_lanes fun i op l _ => fscale_is i op l,
    fun _ => rounds_of_lanes fun i op l _ => fdot2_is i op l⟩

end Sys2Proof

/-! The floating instructions that compare and move bits (O6): values compare as the integers that their codes give. -/

namespace Sys2Proof

open Sys2Proof.Machine Sys2Proof.Spec

/-! ## NaNs of FP32 (06 R150) -/

theorem nan32_eq_isNan (w : Word) : nan32 w = codes32.isNan w.toNat := rfl

theorem isNan_f32 (w : Word) : (f32 w).isNan = nan32 w := by
  rw [Bool.eq_iff_iff, nan32_eq_isNan, ← operand_eq_nan, ← operand_eq_nan_iff_isNan, operand_f32]

theorem sig_f32 (w : Word) : (f32 w).sig = signalling32 w := (isSig_f32 w).symm

/-! ## The order of values (11 R246, R247) -/

/-- A word that is no NaN is an infinity, or stands for a finite number. -/
theorem f32_of_not_nan {w : Word} (h : nan32 w = false) :
    (f32 w = .inf (codes32.neg w.toNat) ∧ codes32.low w.toNat = codes32.inf) ∨
    ∃ m e, f32 w = .fin (codes32.neg w.toNat) m e ∧ codes32.real w.toNat = sgn (codes32.neg w.toNat) (m * pow2 e) ∧
      codes32.low w.toNat < codes32.inf := by
  have hop := operand_f32 w
  rw [← isNan_f32] at h
  cases hv : f32 w with
  | nan g => rw [hv] at h; cases h
  | inf s =>
    obtain ⟨hinf, rfl⟩ := operand_eq_inf.mp (hop.trans (operand_eq_inf_iff.mpr hv))
    exact .inl ⟨rfl, of_decide_eq_true hinf⟩
  | fin s m e =>
    rw [hv] at hop
    obtain ⟨rfl, hx, hlow⟩ := operand_eq_num hop
    exact .inr ⟨m, e, rfl, hx.symm, hlow⟩

theorem abs_real (c : Codes) (v : ℕ) : |c.real v| = codeUnits c.f (c.low v) * pow2 (1 - c.bias - c.f) := by
  rw [real_eq, abs_sgn, abs_of_nonneg (mul_nonneg (Nat.cast_nonneg _) (pow2_pos _).le)]

/-- Terms compare as the numbers that they stand for. -/
theorem termAt_lt_termAt {q : ℤ} {t u : Bool × ℕ × ℤ} (ht : q ≤ t.2.2) (hu : q ≤ u.2.2) :
    termAt q t < termAt q u ↔ termVal t < termVal u := by
  rw [← termAt_mul ht, ← termAt_mul hu, mul_lt_mul_iff_left₀ (pow2_pos q), Int.cast_lt]

/-- A negative zero below a positive one. -/
def ZeroBelowZero (a b : ℕ) : Prop :=
  codes32.low a = 0 ∧ codes32.low b = 0 ∧ codes32.neg a = true ∧ codes32.neg b = false

theorem sgn_inf_lt_inf {s t : Bool} {r : ℝ} (hr : 0 < r) : sgn s r < sgn t r ↔ (s && !t) = true := by
  cases s <;> cases t
  case true.true | false.false => simp
  case true.false => simpa [sgn] using (neg_lt_zero.mpr hr).trans hr
  case false.true => simpa [sgn] using (neg_lt_zero.mpr hr).le.trans hr.le

theorem sgn_lt_of_abs_lt {s : Bool} {x r : ℝ} (h : |x| < r) : (sgn s r < x ↔ s = true) ∧ (x < sgn s r ↔ s = false) := by
  obtain ⟨h1, h2⟩ := abs_lt.mp h
  cases s
  · simp [sgn, h2, h2.le]
  · simp [sgn, h1, h1.le]

/-- Finite values compare as the numbers that they stand for. -/
theorem fLess_fin (zeros s t : Bool) (m n : ℕ) (e g : ℤ) : fLess zeros (.fin s m e) (.fin t n g) = true ↔
    sgn s (m * pow2 e) < sgn t (n * pow2 g) ∨ (zeros = true ∧ m = 0 ∧ n = 0 ∧ s = true ∧ t = false) := by
  have hterm : termAt (min e g) (s, m, e) < termAt (min e g) (t, n, g) ↔ sgn s (m * pow2 e) < sgn t (n * pow2 g) :=
    termAt_lt_termAt (t := (s, m, e)) (u := (t, n, g)) (min_le_left ..) (min_le_right ..)
  unfold fLess
  dsimp only
  by_cases hz : m = 0 ∧ n = 0
  · rw [if_pos (by simpa using hz), hz.1, hz.2]
    simp [sgn, and_assoc]
  · rw [if_neg (by simpa using hz), decide_eq_true_iff, hterm, or_iff_left (fun h => hz ⟨h.2.1, h.2.2.1⟩)]

/-- The number of infinity's code. -/
noncomputable def infReal : ℝ := codeUnits codes32.f codes32.inf * pow2 (1 - codes32.bias - codes32.f)

theorem infReal_pos : 0 < infReal :=
  mul_pos (by exact_mod_cast Nat.pos_of_ne_zero (mt codeUnits_eq_zero.mp (by decide))) (pow2_pos _)

theorem real_of_low_eq_inf {v : ℕ} (h : codes32.low v = codes32.inf) : codes32.real v = sgn (codes32.neg v) infReal := by
  rw [real_eq, h, infReal]

theorem abs_real_lt_infReal {v : ℕ} (h : codes32.low v < codes32.inf) : |codes32.real v| < infReal := by
  rw [abs_real]
  exact mul_lt_mul_of_pos_right (by exact_mod_cast codeUnits_strictMono _ h) (pow2_pos _)

/-- The model's comparison is that of the numbers, an infinity's code being read as one. -/
theorem fLess_f32 (zeros : Bool) {a b : Word} (ha : nan32 a = false) (hb : nan32 b = false) :
    fLess zeros (f32 a) (f32 b) = true ↔
      codes32.real a.toNat < codes32.real b.toNat ∨ (zeros = true ∧ ZeroBelowZero a.toNat b.toNat) := by
  have hnz : ∀ {v : ℕ}, codes32.low v = codes32.inf → codes32.low v ≠ 0 := fun h => by rw [h]; decide
  have hzero : ∀ {v k : ℕ} {p : ℤ}, codes32.real v = sgn (codes32.neg v) (k * pow2 p) → (codes32.low v = 0 ↔ k = 0) := fun h => by
    rw [← real_eq_zero, h, sgn_eq_zero, mul_eq_zero, or_iff_left (pow2_ne_zero _), Nat.cast_eq_zero]
  unfold ZeroBelowZero
  rcases f32_of_not_nan ha with ⟨hva, hla⟩ | ⟨m, e, hva, hra, hla⟩ <;>
    rcases f32_of_not_nan hb with ⟨hvb, hlb⟩ | ⟨n, g, hvb, hrb, hlb⟩ <;>
    rw [hva, hvb]
  · rw [or_iff_left (fun h => hnz hla h.2.1), real_of_low_eq_inf hla, real_of_low_eq_inf hlb, sgn_inf_lt_inf infReal_pos]
    rfl
  · rw [or_iff_left (fun h => hnz hla h.2.1), real_of_low_eq_inf hla, (sgn_lt_of_abs_lt (abs_real_lt_infReal hlb)).1]
    rfl
  · rw [or_iff_left (fun h => hnz hlb h.2.2.1), real_of_low_eq_inf hlb, (sgn_lt_of_abs_lt (abs_real_lt_infReal hla)).2]
    exact (Bool.not_eq_true' _).to_iff
  · rw [hzero hra, hzero hrb, hra, hrb]
    exact fLess_fin ..

/-- The integers that stand for words order them as the numbers do. -/
theorem order32_eq (split : Bool) (w : Word) :
    order32 split w = sgnInt (codes32.neg w.toNat) (codes32.low w.toNat) - (if split && codes32.neg w.toNat then 1 else 0) := by
  have hw := w.isLt
  have hneg : codes32.neg w.toNat = decide (2 ^ 31 ≤ w.toNat) := by
    change decide (w.toNat / 2 ^ 31 % 2 = 1) = _
    rw [decide_eq_decide]
    omega
  have hlow : codes32.low w.toNat = w.toNat % 2 ^ 31 := rfl
  rw [hneg, hlow, order32]
  by_cases h : w.toNat < 2 ^ 31
  · rw [if_pos h, Nat.mod_eq_of_lt h, decide_eq_false (Nat.not_le.mpr h), Bool.and_false, if_neg Bool.false_ne_true, sub_zero, sgnInt,
      if_neg Bool.false_ne_true]
  · rw [if_neg h, decide_eq_true (Nat.not_lt.mp h), Bool.and_true, show w.toNat % 2 ^ 31 = w.toNat - 2 ^ 31 by omega, sgnInt, if_pos rfl]

theorem sgnInt_map_lt {u : ℕ → ℕ} (hu : StrictMono u) (h0 : u 0 = 0) (s t : Bool) (x y : ℕ) :
    sgnInt s (u x) < sgnInt t (u y) ↔ sgnInt s x < sgnInt t y := by
  have hx : 0 < u x ↔ 0 < x := by rw [← hu.lt_iff_lt (b := x), h0]
  have hy : 0 < u y ↔ 0 < y := by rw [← hu.lt_iff_lt (b := y), h0]
  have hxy := hu.lt_iff_lt (a := x) (b := y)
  have hyx := hu.lt_iff_lt (a := y) (b := x)
  cases s <;> cases t <;> simp only [sgnInt, Bool.false_eq_true, if_true, if_false] <;> omega

theorem real_lt_iff (a b : Word) : codes32.real a.toNat < codes32.real b.toNat ↔ order32 false a < order32 false b := by
  rw [order32_eq, order32_eq, Bool.false_and, Bool.false_and, if_neg Bool.false_ne_true, sub_zero, sub_zero,
    ← sgnInt_map_lt (codeUnits_strictMono 23) (codeUnits_eq_zero.mpr rfl), real_eq, real_eq, ← sgn_mul, ← sgn_mul,
    mul_lt_mul_iff_left₀ (pow2_pos _), ← cast_sgnInt, ← cast_sgnInt, Int.cast_lt]
  rfl

theorem order32_split_lt (a b : Word) :
    order32 true a < order32 true b ↔ order32 false a < order32 false b ∨ ZeroBelowZero a.toNat b.toNat := by
  unfold ZeroBelowZero
  simp only [order32_eq]
  cases codes32.neg a.toNat <;> cases codes32.neg b.toNat <;> simp [sgnInt] <;> omega

/-- The model's comparison of words that are no NaN is that of the integers that stand for them. -/
theorem fLess_eq (zeros : Bool) {a b : Word} (ha : nan32 a = false) (hb : nan32 b = false) :
    fLess zeros (f32 a) (f32 b) = decide (order32 zeros a < order32 zeros b) := by
  rw [Bool.eq_iff_iff, decide_eq_true_iff, fLess_f32 zeros ha hb, real_lt_iff]
  cases zeros with
  | false => simp
  | true => simp [order32_split_lt]

/-- A NaN is below nothing, and nothing is below it. -/
theorem fLess_of_nan (zeros : Bool) {x y : FVal} (h : (x.isNan || y.isNan) = true) : fLess zeros x y = false := by
  cases x with
  | nan g => rfl
  | inf s =>
    cases y with
    | nan g => rfl
    | inf t => cases h
    | fin t n g => cases h
  | fin s m e =>
    cases y with
    | nan g => rfl
    | inf t => cases h
    | fin t n g => cases h

/-! ## The instructions -/

theorem flagged_toNat (w : Word) (fl : BitVec 8) : LaneOut.flagged (BitVec.ofNat 32 w.toNat) fl = .flagged w fl := by
  rw [BitVec.ofNat_toNat, BitVec.setWidth_eq]

theorem signalling32_of_not_nan {w : Word} (h : nan32 w = false) : signalling32 w = false := by
  rw [signalling32, h, Bool.false_and]

/-- The pick of a minimum or a maximum (11 R246). -/
theorem fMinMax_eq (greater prop : Bool) : (fun i op l => (fMinMax greater prop (i.a op l) (i.bv op l)).lane) = minMaxSpec greater prop :=
  lane_ext fun i op l => by
    unfold fMinMax minMaxSpec
    generalize i.a op l = a
    generalize i.bv op l = b
    simp only [isNan_f32, sig_f32]
    cases ha : nan32 a <;> cases hb : nan32 b
    case false.false =>
      simp only [fLess_eq true ha hb, signalling32_of_not_nan ha, signalling32_of_not_nan hb]
      by_cases h : order32 true a < order32 true b <;> cases greater <;> simp [h, FOut.lane, FOut.clean]
    case true.true => rfl
    all_goals
      cases prop
      · exact flagged_toNat ..
      · rfl

/-- The model's comparison, of any words. -/
theorem fLess_false_eq (a b : Word) :
    fLess false (f32 a) (f32 b) = (!(nan32 a || nan32 b) && decide (order32 false a < order32 false b)) := by
  cases h : nan32 a || nan32 b with
  | true => exact fLess_of_nan false (by rwa [isNan_f32, isNan_f32])
  | false =>
    obtain ⟨ha, hb⟩ := Bool.or_eq_false_iff.mp h
    exact fLess_eq false ha hb

/-- The relations of FCMP (11 R247). -/
theorem fcmpHolds_eq (f : ℕ) (a b : Word) : fcmpHolds f (f32 a) (f32 b) =
    let un := nan32 a || nan32 b
    let x := order32 false a
    let y := order32 false b
    match f with
    | 0 => !un && x = y
    | 1 => un || x ≠ y
    | 2 => !un && x < y
    | 3 => !un && x ≤ y
    | 4 => !un && y < x
    | 5 => !un && y ≤ x
    | 6 => un
    | _ => !un := by
  unfold fcmpHolds
  simp only [isNan_f32, fLess_false_eq, Bool.or_comm (nan32 b)]
  have hle : ∀ x y : ℤ, decide (x ≤ y) = !decide (y < x) := fun x y => by rw [← decide_not, decide_eq_decide, not_lt]
  have heq : ∀ x y : ℤ, decide (x = y) = (!decide (x < y) && !decide (y < x)) := fun x y => by
    rw [← hle, ← hle, ← Bool.decide_and, decide_eq_decide, and_comm, le_antisymm_iff]
  simp only [hle, heq, ne_eq, decide_not]
  generalize (nan32 a || nan32 b) = un
  generalize decide (order32 false a < order32 false b) = lt
  generalize decide (order32 false b < order32 false a) = gt
  match f with
  | 0 | 1 | 2 | 3 | 4 | 5 | 6 => revert un lt gt; decide
  | _ + 7 => rfl

theorem laneFcmp_eq : laneFcmp = fcmpSpec := lane_ext fun i op l => by
  unfold laneFcmp fcmpSpec
  simp only [fcmpHolds_eq, isNan_f32, sig_f32]
  rfl

/-- The sign bit of a word. -/
theorem getLsbD_signBit {k : ℕ} (hk : k < 32) : (0x80000000 : Word).getLsbD k = decide (k = 31) := by
  interval_cases k <;> rfl

theorem getLsbD_belowSign {k : ℕ} (hk : k < 32) : (0x7FFFFFFF : Word).getLsbD k = decide (k ≠ 31) := by
  interval_cases k <;> rfl

theorem laneFabs_eq : laneFabs = fabsSpec := lane_ext fun i op l => by
  refine congrArg LaneOut.word (eq_wordOfBits fun k hk => ?_)
  rw [BitVec.getLsbD_and, getLsbD_belowSign hk, Bool.and_comm]

theorem laneFneg_eq : laneFneg = fnegSpec := lane_ext fun i op l => by
  refine congrArg LaneOut.word (eq_wordOfBits fun k hk => ?_)
  rw [BitVec.getLsbD_xor, getLsbD_signBit hk]

theorem laneFcpys_eq : laneFcpys = fcpysSpec := lane_ext fun i op l => by
  refine congrArg LaneOut.word (eq_wordOfBits fun k hk => ?_)
  rw [BitVec.getLsbD_or, BitVec.getLsbD_and, BitVec.getLsbD_and, getLsbD_signBit hk, getLsbD_belowSign hk]
  by_cases h : k = 31 <;> simp [h]

/-- The value of a word, of its fields. -/
theorem f32_eq_fields (w : Word) : f32 w =
    if w.toNat / 2 ^ 23 % 256 = 255 then
      (if w.toNat % 2 ^ 23 = 0 then .inf (2 ^ 31 ≤ w.toNat) else .nan (w.toNat % 2 ^ 23 < 2 ^ 22))
    else if w.toNat / 2 ^ 23 % 256 = 0 then .fin (2 ^ 31 ≤ w.toNat) (w.toNat % 2 ^ 23) (-149)
    else .fin (2 ^ 31 ≤ w.toNat) (2 ^ 23 + w.toNat % 2 ^ 23) ((w.toNat / 2 ^ 23 % 256 : ℕ) - 127 - 23) := by
  have hneg : decide (2 ^ 31 ≤ w.toNat) = decide (bitsOf w.toNat 31 1 = 1) := by
    have := w.isLt
    rw [bitsOf, decide_eq_decide]
    omega
  have hfr : w.toNat % 2 ^ 23 = bitsOf w.toNat 0 23 := by rw [bitsOf, Nat.pow_zero, Nat.div_one]
  rw [hneg, hfr]
  rfl

/-- The bit of a class (11 R249). -/
theorem fclassBit_eq (w : Word) : fclassBit w = classOf w := by
  have hlt : w.toNat % 2 ^ 23 < 2 ^ 23 := Nat.mod_lt _ (by decide)
  unfold fclassBit classOf
  rw [f32_eq_fields]
  generalize w.toNat % 2 ^ 23 = fr at *
  generalize w.toNat / 2 ^ 23 % 256 = be
  by_cases htop : be = 255
  · by_cases h0 : fr = 0
    · simp only [htop, h0, if_true, decide_eq_true_eq]
    · by_cases hq : fr < 2 ^ 22 <;> simp only [htop, h0, hq, if_true, if_false, decide_true, decide_false]
  · have hnorm : 2 ^ 23 + fr ≠ 0 ∧ ¬ 2 ^ 23 + fr < 2 ^ 23 := by omega
    by_cases hz : be = 0
    · simp only [hz, hlt, if_true, if_false, decide_eq_true_eq, OfNat.zero_ne_ofNat]
    · simp only [htop, hz, hnorm, if_false, decide_eq_true_eq]

theorem laneFclass_eq : laneFclass = fclassSpec := lane_ext fun i op l => by
  refine congrArg LaneOut.word ?_
  rw [fclassBit_eq, Nat.one_shiftLeft]
  rfl

/-- Settles O6: each form computes its lane function; those that compare or move bits compute the value that the rules state. -/
theorem floatArithmetic : Obligations.FloatArithmetic := by
  unfold Obligations.FloatArithmetic
  exact ⟨fun _ => laneOp_computes _ laneFadd, fun _ => laneOp_computes _ laneFadd, fun _ => laneOp_computes _ laneFadd,
    fun _ => laneOp_computes _ laneFsub, fun _ => laneOp_computes _ laneFsub, fun _ => laneOp_computes _ laneFsub,
    fun _ => laneOp_computes _ laneFmul, fun _ => laneOp_computes _ laneFmul, fun _ => laneOp_computes _ laneFmul,
    fun _ => laneOp_computes _ laneFfma, fun _ => computes_of_eq (fMinMax_eq false false), fun _ => computes_of_eq (fMinMax_eq false false),
    fun _ => computes_of_eq (fMinMax_eq false false), fun _ => computes_of_eq (fMinMax_eq true false),
    fun _ => computes_of_eq (fMinMax_eq true false), fun _ => computes_of_eq (fMinMax_eq true false),
    fun _ => computes_of_eq (fMinMax_eq false true), fun _ => computes_of_eq (fMinMax_eq false true),
    fun _ => computes_of_eq (fMinMax_eq true true), fun _ => computes_of_eq (fMinMax_eq true true),
    fun _ => computes_of_eq laneFcmp_eq, fun _ => computes_of_eq laneFcmp_eq, fun _ => computes_of_eq laneFabs_eq,
    fun _ => computes_of_eq laneFabs_eq, fun _ => computes_of_eq laneFneg_eq, fun _ => computes_of_eq laneFneg_eq,
    fun _ => computes_of_eq laneFcpys_eq, fun _ => computes_of_eq laneFcpys_eq, fun _ => laneOp_computes _ laneFdiv,
    fun _ => laneOp_computes _ laneFdiv, fun _ => laneOp_computes _ laneFsqrt, fun _ => laneOp_computes _ laneFsqrt,
    fun _ => computes_of_eq laneFclass_eq, fun _ => computes_of_eq laneFclass_eq, fun _ => laneOp_computes _ laneFrnd,
    fun _ => laneOp_computes _ laneFrnd, fun _ => laneOp_computes _ laneFscale, fun _ => laneOp_computes _ laneFscale,
    fun _ => laneOp_computes _ laneFdot2⟩

end Sys2Proof

/-! The exact conversions (O7): the FP32 code of a number that FP32 holds. -/

namespace Sys2Proof

open Sys2Proof.Machine Sys2Proof.Spec

/-! ## Codes of the numbers that a format holds -/

/-- A number that a code of a format stands for is rounded to that code. -/
theorem roundMag_code {f : Fmt} (hf : f.Sound) {m v : ℕ} {e : ℤ} (hv : v ≤ f.maxCode)
    (h : (m : ℝ) * pow2 e = codeUnits f.fbits v * pow2 (f.emin - f.fbits)) (rm : ℕ) (s : Bool) : (roundMag f rm s m e false).code = v := by
  have hpos := pow2_pos (f.emin - f.fbits)
  by_cases hm : m = 0
  · rw [hm, Nat.cast_zero, zero_mul, zero_eq_mul, or_iff_left hpos.ne', Nat.cast_eq_zero, codeUnits_eq_zero] at h
    simp [roundMag, hm, h]
  · obtain ⟨n, d, hn, hd, hnorm, hvd⟩ := exists_encode f.fbits v
    have hyd : (m : ℝ) * pow2 e = d * pow2 (n + f.emin - f.fbits - 1) := by
      rw [h, hvd, codeUnits_encode hn hd.le hnorm, codeUnits_mul_emin hn rfl]
    have htop : (m : ℝ) * pow2 e ≤ f.codes.real f.maxCode := by
      rw [real_maxCode hf, ← codeUnits_maxCode hf, h]
      exact mul_le_mul_of_nonneg_right (by exact_mod_cast (codeUnits_strictMono f.fbits).monotone hv) hpos.le
    obtain ⟨-, hle, hreal⟩ := roundMag_exact hf hm hyd hd (by omega) htop rm s
    rw [real_withSign f.codes s (hle.trans_lt hf.maxCode_lt), sgn_inj, h] at hreal
    exact (codeUnits_strictMono f.fbits).injective (by exact_mod_cast mul_right_cancel₀ hpos.ne' hreal)

/-- A code whose fraction is lengthened. -/
theorem codeUnits_shift (fb k v : ℕ) : codeUnits (fb + k) (v * 2 ^ k) = codeUnits fb v * 2 ^ k := by
  obtain ⟨n, d, hn, hd, hnorm, rfl⟩ := exists_encode fb v
  have hpos := Nat.two_pow_pos k
  have hd' : d * 2 ^ k ≤ 2 ^ (fb + k + 1) := by
    rw [Nat.add_right_comm, Nat.pow_add]
    exact Nat.mul_le_mul_right _ hd.le
  have hnorm' : 2 ^ (fb + k) ≤ d * 2 ^ k ∨ n = 1 := hnorm.imp_left fun h => by
    rw [Nat.pow_add]
    exact Nat.mul_le_mul_right _ h
  rw [codeUnits_encode hn hd.le hnorm, Nat.add_mul, Nat.mul_assoc, ← Nat.pow_add, codeUnits_encode hn hd' hnorm', Nat.mul_right_comm]

theorem toF32_fin {s : Bool} {m v : ℕ} {e : ℤ} (hv : v ≤ fp32.maxCode) (h : (m : ℝ) * pow2 e = codeUnits 23 v * pow2 (-149)) :
    toF32 (.fin s m e) = .clean (codes32.withSign s v) :=
  congrArg (fun c => FOut.clean (fp32.signed s c)) (roundMag_code sound_fp32 hv h 0 s)

/-! ## Numbers of narrower formats (06 R147, R152) -/

theorem maxCode_fp32 : fp32.maxCode = 0x7F7FFFFF := rfl

theorem widened_eq_withSign (w b : ℕ) (s : Bool) (e f : ℕ) : widened w b s e f = codes32.withSign s (widened w b false e f) := by
  cases s <;> simp [widened, Codes.withSign, codes32]

/-- The significand of a subnormal, normalised. -/
theorem normalised_fraction {w f : ℕ} (h0 : f ≠ 0) (hf : f < 2 ^ w) (hw : w ≤ 23) :
    f.log2 < w ∧ (f - 2 ^ f.log2) * 2 ^ (23 - f.log2) + 2 ^ 23 = f * 2 ^ (23 - f.log2) ∧ f * 2 ^ (23 - f.log2) < 2 ^ 24 := by
  have hlog : f.log2 < w := (Nat.log2_lt h0).mpr hf
  have hle : 2 ^ f.log2 ≤ f := Nat.log2_self_le h0
  have hlt : f < 2 ^ (f.log2 + 1) := Nat.lt_log2_self
  refine ⟨hlog, ?_, ?_⟩
  · calc (f - 2 ^ f.log2) * 2 ^ (23 - f.log2) + 2 ^ 23
        = (f - 2 ^ f.log2) * 2 ^ (23 - f.log2) + 2 ^ f.log2 * 2 ^ (23 - f.log2) := by
          rw [← Nat.pow_add, Nat.add_sub_cancel' (by omega)]
      _ = f * 2 ^ (23 - f.log2) := by rw [← Nat.add_mul, Nat.sub_add_cancel hle]
  · calc f * 2 ^ (23 - f.log2) < 2 ^ (f.log2 + 1) * 2 ^ (23 - f.log2) := Nat.mul_lt_mul_of_pos_right hlt (Nat.two_pow_pos _)
      _ = 2 ^ 24 := by rw [← Nat.pow_add, show f.log2 + 1 + (23 - f.log2) = 24 by omega]

section

variable {w b e f : ℕ} (hw1 : 1 ≤ w) (hw : w ≤ 23) (hb : b + w < 128) (hf : f < 2 ^ w)
include hw1 hw hb hf

/-- The exponent field and the significand of a widened code. -/
theorem widened_eq_encode (h0 : ¬ (e = 0 ∧ f = 0)) : ∃ n d, 1 ≤ n ∧ 2 ^ 23 ≤ d ∧ d < 2 ^ 24 ∧
    widened w b false e f = (n - 1) * 2 ^ 23 + d ∧ n ≤ max 127 (e + 127 - b) ∧
    (d : ℝ) * pow2 (n - 150) = if e = 0 then f * pow2 (1 - b - w) else ((2 ^ w + f : ℕ) : ℝ) * pow2 (e - b - w) := by
  have hscale : ∀ (d k : ℕ) (p : ℤ), ((d * 2 ^ k : ℕ) : ℝ) * pow2 p = d * pow2 (k + p) := fun d k p => by
    rw [Nat.cast_mul, mul_assoc, ← pow2_natCast, ← pow2_add]
  by_cases he : e = 0
  · have hf0 : f ≠ 0 := fun h => h0 ⟨he, h⟩
    obtain ⟨hlog, hd, hlt⟩ := normalised_fraction hf0 hf hw
    refine ⟨128 - b - w + f.log2, f * 2 ^ (23 - f.log2), by omega, by omega, hlt, ?_, by omega, ?_⟩
    · rw [widened, if_neg Bool.false_ne_true, if_neg (not_not_intro he), if_neg hf0, ← hd]
      generalize (f - 2 ^ f.log2) * 2 ^ (23 - f.log2) = r
      omega
    · rw [if_pos he, hscale]
      congr 2
      omega
  · have hd : (2 ^ w + f) * 2 ^ (23 - w) = 2 ^ 23 + f * 2 ^ (23 - w) := by
      rw [Nat.add_mul, ← Nat.pow_add, Nat.add_sub_cancel' hw]
    have hlt : f * 2 ^ (23 - w) < 2 ^ 23 := calc
      f * 2 ^ (23 - w) < 2 ^ w * 2 ^ (23 - w) := Nat.mul_lt_mul_of_pos_right hf (Nat.two_pow_pos _)
      _ = 2 ^ 23 := by rw [← Nat.pow_add, Nat.add_sub_cancel' hw]
    refine ⟨e + 127 - b, (2 ^ w + f) * 2 ^ (23 - w), by omega, by omega, by omega, ?_, by omega, ?_⟩
    · rw [widened, if_neg Bool.false_ne_true, if_pos he, hd]
      generalize f * 2 ^ (23 - w) = r
      omega
    · rw [if_neg he, hscale]
      congr 2
      omega

/-- A widened code stands for the number that it widens. -/
theorem codeUnits_widened (he : e ≤ b + 127) : widened w b false e f ≤ fp32.maxCode ∧
    (if e = 0 then f * pow2 (1 - b - w) else ((2 ^ w + f : ℕ) : ℝ) * pow2 (e - b - w)) =
      codeUnits 23 (widened w b false e f) * pow2 (-149) := by
  have hmax := maxCode_fp32
  by_cases h0 : e = 0 ∧ f = 0
  · rw [h0.1, h0.2, if_pos rfl, show widened w b false 0 0 = 0 by simp [widened], codeUnits_eq_zero.mpr rfl]
    simp
  · obtain ⟨n, d, hn, hd, hd', hv, hmaxn, hval⟩ := widened_eq_encode hw1 hw hb hf h0
    refine ⟨by omega, ?_⟩
    rw [← hval, hv, codeUnits_encode hn hd'.le (.inl hd), Nat.cast_mul, mul_assoc, ← pow2_natCast, ← pow2_add,
      show ((n - 1 : ℕ) : ℤ) + -149 = n - 150 by omega]

end

/-- A finite number of a narrower format, as FP32. -/
theorem toF32_finOf {f : Fmt} {b : ℕ} (hbias : f.bias = b) (hw1 : 1 ≤ f.fbits) (hw : f.fbits ≤ 23) (hb : b + f.fbits < 128) (s : Bool)
    {be fr : ℕ} (hfr : fr < 2 ^ f.fbits) (hbe : be ≤ b + 127) :
    (toF32 (finOf f s be fr)).lane = .word (BitVec.ofNat 32 (widened f.fbits b s be fr)) := by
  obtain ⟨hmax, hval⟩ := codeUnits_widened hw1 hw hb hfr hbe
  have hfin : toF32 (finOf f s be fr) = .clean (codes32.withSign s (widened f.fbits b false be fr)) := by
    unfold finOf Fmt.emin
    rw [hbias]
    split at hval
    case isTrue h0 => rw [if_pos h0]; exact toF32_fin hmax hval
    case isFalse h0 => rw [if_neg h0]; exact toF32_fin hmax hval
  rw [hfin, widened_eq_withSign f.fbits b s]
  rfl

@[simp] theorem toF32_nan (g : Bool) : (toF32 (.nan g)).lane = .flagged 0x7FC00000 (if g then fNV else 0) := rfl

@[simp] theorem toF32_inf (s : Bool) : (toF32 (.inf s)).lane = .word (if s then 0xFF800000 else 0x7F800000) := by
  cases s <;> rfl

theorem bitsOf_zero (v n : ℕ) : bitsOf v 0 n = v % 2 ^ n := by
  rw [bitsOf, Nat.pow_zero, Nat.div_one]

/-- A code of a format with infinities that is narrower. -/
theorem toF32_decodeIeee {f : Fmt} {b : ℕ} (hbias : f.bias = b) (hw1 : 1 ≤ f.fbits) (hw : f.fbits ≤ 23) (hb : b + f.fbits < 128)
    (hx : 2 ^ f.ebits ≤ b + 128) (v : ℕ) : (toF32 (decodeIeee f v)).lane = exactIeee f.ebits f.fbits b v := by
  unfold decodeIeee exactIeee
  simp only [bitsOf_zero]
  unfold bitsOf
  have hlt : v / 2 ^ f.fbits % 2 ^ f.ebits < 2 ^ f.ebits := Nat.mod_lt _ (Nat.two_pow_pos _)
  split
  case isTrue htop =>
    split
    case isTrue h0 => simp only [toF32_inf, decide_eq_true_eq, Nat.pow_one]
    case isFalse h0 => simp only [toF32_nan, decide_eq_true_eq]
  case isFalse htop => exact toF32_finOf hbias hw1 hw hb _ (Nat.mod_lt _ (Nat.two_pow_pos _)) (by omega)

/-! ## The upper parts of FP32 codes, and exponents (06 R160, R161, 11 R250) -/

/-- The number of a code whose fraction is lengthened to FP32's. -/
theorem toF32_extended {c : Codes} {k v : ℕ} (he : c.e = 8) (hbias : c.bias = 127) (hk : c.f + k = 23) (hv : c.low v < c.inf) {m : ℕ} {e : ℤ}
    (h : c.real v = sgn (c.neg v) (m * pow2 e)) : toF32 (.fin (c.neg v) m e) = .clean (codes32.withSign (c.neg v) (c.low v * 2 ^ k)) := by
  have hval : (m : ℝ) * pow2 e = codeUnits 23 (c.low v * 2 ^ k) * pow2 (-149) := by
    rw [real_eq, sgn_inj] at h
    rw [← h, ← hk, codeUnits_shift, Nat.cast_mul, mul_assoc, ← pow2_natCast, ← pow2_add, hbias]
    congr 2
    omega
  refine toF32_fin ?_ hval
  have hinf : c.inf * 2 ^ k = 255 * 2 ^ 23 := by
    rw [Codes.inf, he, Nat.mul_assoc, ← Nat.pow_add, hk]
    norm_num
  have := Nat.mul_lt_mul_of_pos_right hv (Nat.two_pow_pos k)
  rw [hinf] at this
  exact Nat.le_of_lt_succ this

/-- A finite code's significand and exponent. -/
theorem finOf_fields (f : Fmt) (v : ℕ) : ∃ m e,
    finOf f (bitsOf v (f.ebits + f.fbits) 1 = 1) (bitsOf v f.fbits f.ebits) (bitsOf v 0 f.fbits) = .fin (f.codes.neg v) m e ∧
    f.codes.real v = sgn (f.codes.neg v) (m * pow2 e) := by
  have hop := operand_finOf f v
  cases hv : finOf f (bitsOf v (f.ebits + f.fbits) 1 = 1) (bitsOf v f.fbits f.ebits) (bitsOf v 0 f.fbits) with
  | nan g => rw [hv] at hop; cases hop
  | inf s => rw [hv] at hop; cases hop
  | fin s m e =>
    rw [hv] at hop
    obtain ⟨rfl, hx⟩ := Operand.num.inj hop
    exact ⟨m, e, rfl, hx.symm⟩

/-- The value of a code of a format with infinities, of its fields. -/
theorem decodeIeee_eq_fields (f : Fmt) (v : ℕ) : decodeIeee f v =
    if v / 2 ^ f.fbits % 2 ^ f.ebits = 2 ^ f.ebits - 1 then
      (if v % 2 ^ f.fbits = 0 then .inf (f.codes.neg v) else .nan (v % 2 ^ f.fbits < 2 ^ (f.fbits - 1)))
    else finOf f (bitsOf v (f.ebits + f.fbits) 1 = 1) (bitsOf v f.fbits f.ebits) (bitsOf v 0 f.fbits) := by
  rw [← bitsOf_zero v f.fbits]
  rfl

/-- The value of a BF16 code, of its fields. -/
theorem decodeIeee_bf16 (v : ℕ) : ∃ (m : ℕ) (e : ℤ), codesBf.real v = sgn (codesBf.neg v) (m * pow2 e) ∧ decodeIeee bf16 v =
    if v / 2 ^ 7 % 2 ^ 8 = 255 then (if v % 2 ^ 7 = 0 then .inf (codesBf.neg v) else .nan (v % 2 ^ 7 < 2 ^ 6))
    else .fin (codesBf.neg v) m e := by
  obtain ⟨m, e, hfin, hreal⟩ := finOf_fields bf16 v
  refine ⟨m, e, hreal, ?_⟩
  rw [decodeIeee_eq_fields, hfin]
  rfl

/-- A BF16 code as the upper half of an FP32 one (11 R250). -/
theorem toF32_bf16 {v : ℕ} (hv : v < 2 ^ 16) : (toF32 (decodeIeee bf16 v)).lane = exactBf16 v := by
  have hw : (BitVec.ofNat 32 (v * 2 ^ 16)).toNat = v * 2 ^ 16 := Nat.mod_eq_of_lt (by omega)
  have hnan : nan32 (BitVec.ofNat 32 (v * 2 ^ 16)) = decide (v / 2 ^ 7 % 2 ^ 8 = 255 ∧ v % 2 ^ 7 ≠ 0) := by
    rw [nan32, hw, decide_eq_decide]
    omega
  have hhigh : codes32.withSign (codesBf.neg v) (codesBf.low v * 2 ^ 16) = v * 2 ^ 16 := by
    conv_rhs => rw [← withSign_neg_low codesBf hv]
    cases codesBf.neg v
    · rfl
    · simp only [Codes.withSign, codes32, codesBf, if_true]
      omega
  have hlow : codesBf.low v = v / 2 ^ 7 % 2 ^ 8 * 2 ^ 7 + v % 2 ^ 7 := by
    change v % 2 ^ 15 = _
    omega
  obtain ⟨m, e, hreal, hdec⟩ := decodeIeee_bf16 v
  rw [hdec, exactBf16, hnan]
  simp only [decide_eq_true_eq]
  by_cases htop : v / 2 ^ 7 % 2 ^ 8 = 255
  · by_cases h0 : v % 2 ^ 7 = 0
    · rw [if_pos htop, if_pos h0, if_neg (fun h => h.2 h0), ← hhigh, hlow, htop, h0]
      rfl
    · rw [if_pos htop, if_neg h0, if_pos ⟨htop, h0⟩]
      simp only [toF32_nan, decide_eq_true_eq]
  · have hfinite : codesBf.low v < codesBf.inf := by
      rw [hlow]
      change _ < 0x7F80
      omega
    rw [if_neg htop, if_neg (fun h => htop h.1), toF32_extended (c := codesBf) (k := 16) rfl rfl rfl hfinite hreal, hhigh]
    rfl

section

variable {v : ℕ} (hv : v < 2 ^ 24)
include hv

theorem codesS24_low : codesS24.low v = v := Nat.mod_eq_of_lt hv

theorem codesS24_neg : codesS24.neg v = false := by
  change decide (v / 2 ^ 24 % 2 = 1) = false
  rw [decide_eq_false_iff_not]
  omega

/-- The value of an S24 code: none where the exponent field is full, else the number, which has no sign (06 R161). -/
theorem s24Val_spec : (v / 2 ^ 16 = 255 → s24Val v = none) ∧
    (v / 2 ^ 16 ≠ 255 → ∃ m e, s24Val v = some (.fin false m e) ∧ codesS24.real v = m * pow2 e) := by
  have hbe : bitsOf v 16 8 = v / 2 ^ 16 := Nat.mod_eq_of_lt (by omega)
  have hsign : decide (bitsOf v 24 1 = 1) = false := codesS24_neg hv
  obtain ⟨m, e, hfin, hreal⟩ := finOf_fields s24 v
  change finOf s24 (decide (bitsOf v 24 1 = 1)) (bitsOf v 16 8) (bitsOf v 0 16) = .fin (codesS24.neg v) m e at hfin
  change codesS24.real v = sgn (codesS24.neg v) (m * pow2 e) at hreal
  rw [codesS24_neg hv] at hfin hreal
  rw [hsign] at hfin
  rw [s24Val, hbe] at *
  exact ⟨fun h => if_pos h, fun h => ⟨m, e, by rw [if_neg h, hfin], hreal⟩⟩

/-- An S24 code as the upper bits of an FP32 one (11 R250). -/
theorem s24ToF32_eq : (s24ToF32 v).lane = exactS24 v := by
  obtain ⟨hnone, hsome⟩ := s24Val_spec hv
  rw [s24ToF32, exactS24]
  by_cases htop : v / 2 ^ 16 = 255
  · rw [if_pos htop, hnone htop]
    rfl
  · obtain ⟨m, e, hval, hreal⟩ := hsome htop
    have hfinite : codesS24.low v < codesS24.inf := by
      rw [codesS24_low hv]
      change _ < 0xFF0000
      omega
    have hext := toF32_extended (c := codesS24) (k := 7) (v := v) (m := m) (e := e) rfl rfl rfl hfinite
    rw [codesS24_neg hv, codesS24_low hv] at hext
    rw [if_neg htop, hval]
    dsimp only
    rw [hext hreal]
    rfl

end

theorem e8m0ToF32_eq {v : ℕ} (hv : v < 2 ^ 8) : (e8m0ToF32 v).lane = exactE8m0 v := by
  unfold e8m0ToF32 exactE8m0
  by_cases htop : v = 255
  · rw [if_pos htop, if_pos htop]
    rfl
  · rw [if_neg htop, if_neg htop]
    have hcode : (roundMag fp32 0 false 1 ((v : ℤ) - 127) false).code = if v = 0 then 0x00400000 else v * 2 ^ 23 := by
      refine roundMag_code sound_fp32 ?_ ?_ 0 false
      · rw [maxCode_fp32]
        split <;> omega
      · change ((1 : ℕ) : ℝ) * pow2 ((v : ℤ) - 127) = codeUnits 23 _ * pow2 (-149)
        split
        case isTrue h0 =>
          have hunits : codeUnits 23 0x00400000 = 2 ^ 22 := by decide
          rw [h0, hunits, ← pow2_natCast, ← pow2_add, Nat.cast_one, one_mul]
          rfl
        case isFalse h0 =>
          have hunits : codeUnits 23 (v * 2 ^ 23) = 2 ^ 23 * 2 ^ (v - 1) := by
            rw [← codeUnits_encode (fb := 23) (n := v) (by omega) (by decide) (.inl le_rfl), show (v - 1) * 2 ^ 23 + 2 ^ 23 = v * 2 ^ 23 by omega]
          rw [hunits, ← Nat.pow_add, ← pow2_natCast, ← pow2_add, Nat.cast_one, one_mul,
            show ((23 + (v - 1) : ℕ) : ℤ) + -149 = v - 127 by omega]
    rw [hcode]
    split <;> rfl

theorem laneCvt_eq : laneCvt = cvtSpec := lane_ext fun i op l => by
  unfold cvtSpec
  have hbits : ∀ n, bitsOf (i.a op l).toNat 0 n = (i.a op l).toNat % 2 ^ n := bitsOf_zero _
  have hlt : ∀ n, (i.a op l).toNat % 2 ^ n < 2 ^ n := fun n => Nat.mod_lt _ (Nat.two_pow_pos n)
  dsimp only
  split
  case h_1 h =>
    rw [laneCvt, h, ← toF32_bf16 (hlt 16), ← hbits]
    rfl
  case h_2 h =>
    rw [laneCvt, h, ← hbits]
    exact toF32_decodeIeee (f := fp16) (b := 15) rfl (by decide) (by decide) (by decide) (by decide) _
  case h_3 h =>
    rw [laneCvt, h, ← s24ToF32_eq (hlt 24), ← hbits]
    rfl
  case h_4 h =>
    rw [laneCvt, h, ← e8m0ToF32_eq (hlt 8), ← hbits]
    rfl
  case h_5 => rfl

/-- Codes of E4M3 have no infinities, and NaNs only with every bit below the sign set. -/
theorem toF32_decodeE4m3 {v : ℕ} (hv : v < 2 ^ 8) : (toF32 (decodeE4m3 v)).lane =
    if v % 2 ^ 7 = 0x7F then .word 0x7FC00000 else .word (BitVec.ofNat 32 (widened 3 7 (v / 2 ^ 7 = 1) (v / 2 ^ 3 % 2 ^ 4) (v % 2 ^ 3))) := by
  unfold decodeE4m3
  rw [bitsOf_zero]
  by_cases h : v % 2 ^ 7 = 0x7F
  · rw [if_pos h, if_pos h]
    rfl
  · have hneg : bitsOf v 7 1 = v / 2 ^ 7 := Nat.mod_eq_of_lt (by omega)
    rw [if_neg h, if_neg h, hneg, bitsOf_zero]
    refine toF32_finOf (f := e4m3) (b := 7) rfl (by decide) (by decide) (by decide) _ (Nat.mod_lt _ (Nat.two_pow_pos _)) ?_
    have : bitsOf v 3 4 < 2 ^ 4 := Nat.mod_lt _ (Nat.two_pow_pos _)
    omega

theorem laneUnpk8_eq : laneUnpk8 = unpk8Spec := lane_ext fun i op l => by
  have hv : (i.a op l).toNat / 2 ^ (8 * (l % 4)) % 2 ^ 8 < 2 ^ 8 := Nat.mod_lt _ (Nat.two_pow_pos _)
  unfold laneUnpk8 unpk8Spec bitsOf
  dsimp only
  by_cases h : op.o.f.toNat = 2
  · rw [if_pos h, if_pos h]
    exact toF32_decodeE4m3 hv
  · rw [if_neg h, if_neg h]
    exact toF32_decodeIeee (b := 15) rfl (by decide) (by decide) (by decide) (by decide) _

theorem laneUnpk4_eq : laneUnpk4 = unpk4Spec := lane_ext fun i op l => by
  have hv : (i.a op l).toNat / 2 ^ (4 * (l % 8)) % 2 ^ 4 < 2 ^ 4 := Nat.mod_lt _ (Nat.two_pow_pos _)
  unfold laneUnpk4 unpk4Spec
  change (toF32 (decodeE2m1 ((i.a op l).toNat / 2 ^ (4 * (l % 8)) % 2 ^ 4))).lane = _
  generalize (i.a op l).toNat / 2 ^ (4 * (l % 8)) % 2 ^ 4 = v at *
  have hneg : bitsOf v 3 1 = v / 2 ^ 3 := Nat.mod_eq_of_lt (by omega)
  have hbe : bitsOf v 1 2 < 2 ^ 2 := Nat.mod_lt _ (Nat.two_pow_pos _)
  unfold decodeE2m1
  rw [hneg, bitsOf_zero]
  exact toF32_finOf (f := e2m1) (b := 1) rfl (by decide) (by decide) (by decide) _ (Nat.mod_lt _ (Nat.two_pow_pos _)) (by omega)

/-- Settles O7: each form computes its lane function; the exact conversions compute the code that the rules state. -/
theorem conversions : Obligations.Conversions := by
  unfold Obligations.Conversions
  exact ⟨fun _ => computes_of_eq laneCvt_eq, fun _ => computes_of_eq laneCvt_eq, fun _ => laneOp_computes _ lanePack8,
    fun _ => laneOp_computes _ lanePack8, fun _ => computes_of_eq laneUnpk8_eq, fun _ => computes_of_eq laneUnpk8_eq,
    fun _ => laneOp_computes _ lanePack4, fun _ => laneOp_computes _ lanePack4, fun _ => computes_of_eq laneUnpk4_eq,
    fun _ => computes_of_eq laneUnpk4_eq, fun _ => laneOp_computes _ laneBqscal, fun _ => laneOp_computes _ laneBqscal,
    fun _ => laneOp_computes _ laneBqenc, fun _ => laneOp_computes _ laneBqenc, fun _ => laneOp_computes _ laneBqdec,
    fun _ => laneOp_computes _ laneBqdec, fun _ => laneOp_computes _ laneMxscal, fun _ => laneOp_computes _ laneMxscal⟩

end Sys2Proof

/-! The conversions that round (O5): CVT, PACK8 and PACK4. -/

namespace Sys2Proof

open Sys2Proof.Machine Sys2Proof.Spec

/-! ## FP32 to a narrower format (06 R158) -/

/-- Without an overflow a narrow destination holds the rounded number. -/
theorem toNarrow_of_held {n : Narrow} {f : Fmt} {rm : ℕ} {sat s : Bool} {m : ℕ} {e : ℤ} (ho : (roundMag f rm s m e false).ovf = false) :
    (toNarrow n f rm sat (.fin s m e)).res =
      (f.codes.withSign s (roundMag f rm s m e false).code, smallFlags (roundMag f rm s m e false)) := by
  unfold toNarrow
  dsimp only
  rw [ho]
  rfl

theorem toNarrow_zero (n : Narrow) (f : Fmt) (rm : ℕ) (sat s : Bool) (e : ℤ) :
    (toNarrow n f rm sat (.fin s 0 e)).res = (f.codes.withSign s 0, 0) := by
  have hr : roundMag f rm s 0 e false = { ovf := false, code := 0, same := true, tiny := false } := by simp [roundMag]
  rw [toNarrow_of_held (by rw [hr]), hr]
  rfl

/-- A dyadic number rounded to a format: held where it is no overflow. -/
theorem roundMag_holds {f : Fmt} (hf : f.Sound) {m : ℕ} (hm : m ≠ 0) (e : ℤ) (rm : ℕ) (s : Bool) :
    ((roundMag f rm s m e false).ovf = true ↔ f.codes.real f.maxCode < |f.codes.wide rm (sgn s (m * pow2 e))|) ∧
    ((roundMag f rm s m e false).ovf = false → (roundMag f rm s m e false).code ≤ f.maxCode ∧
      f.codes.Holds rm (sgn s (m * pow2 e)) (f.codes.withSign s (roundMag f rm s m e false).code, smallFlags (roundMag f rm s m e false))) := by
  have htr := tracks_exact m e (Nat.log2 m + e - f.fbits - 1)
  have h := htr.rounds hf hm (by omega) rm s
  exact ⟨h.ovf_iff, fun ho => ⟨h.code_le ho, h.holds hf (htr.pos hm (by omega)) ho⟩⟩

/-- A narrow destination that answers NaNs, infinities and overflows as a target does converts as it does. -/
theorem toNarrow_converts {n : Narrow} {f : Fmt} {k : Spec.Target} {rm : ℕ} {sat : Bool} (hf : f.Sound) (hc : k.c = f.codes)
    (htop : k.top = f.maxCode)
    (hnan : ∀ g, (toNarrow n f rm sat (.nan g)).res = k.nan g)
    (hinf : ∀ s, (toNarrow n f rm sat (.inf s)).res = if sat then (f.codes.withSign s f.maxCode, fSAT) else k.inf s)
    (hover : ∀ s m e, m ≠ 0 → (roundMag f rm s m e false).ovf = true →
      (sat = true → (toNarrow n f rm sat (.fin s m e)).res = (f.codes.withSign s f.maxCode, fSAT ||| fNX)) ∧
      (sat = false → k.beyond rm (sgn s (m * pow2 e)) (toNarrow n f rm sat (.fin s m e)).res))
    (w : Word) : k.Converts rm sat w.toNat (toNarrow n f rm sat (f32 w)).res := by
  unfold Spec.Target.Converts
  rw [isSig_f32, operand_f32, hc, htop]
  match f32 w with
  | .nan g => exact ⟨fun _ => by rw [hnan, sig_nan], nofun, nofun⟩
  | .inf s => exact ⟨nofun, fun t ht => by cases ht; exact hinf s, nofun⟩
  | .fin s m e =>
    refine ⟨nofun, nofun, fun t x hx => ?_⟩
    cases hx
    have hzero : sgn s (m * pow2 e) = 0 ↔ m = 0 := by
      rw [sgn_eq_zero, mul_eq_zero, or_iff_left (pow2_ne_zero e), Nat.cast_eq_zero]
    rw [ne_eq, hzero]
    refine ⟨fun hm => by rw [hm, toNarrow_zero], fun hm hle => ?_, fun hm hlt => ?_⟩
    · obtain ⟨hovf, hheld⟩ := roundMag_holds hf hm e rm s
      have ho : (roundMag f rm s m e false).ovf = false := by
        rw [← Bool.not_eq_true, hovf]
        exact not_lt.mpr hle
      obtain ⟨hcode, hholds⟩ := hheld ho
      rw [toNarrow_of_held ho]
      exact ⟨(low_withSign _ _ (hcode.trans_lt hf.maxCode_lt)).trans_le hcode, hholds⟩
    · exact hover s m e hm ((roundMag_holds hf hm e rm s).1.mpr hlt)

theorem toNarrow_ieee_converts {f : Fmt} (hf : f.Sound) (hinf : f.HasInf) (rm : ℕ) (sat : Bool) (w : Word) :
    (ieeeTarget f.codes).Converts rm sat w.toNat (toNarrow .ieee f rm sat (f32 w)).res := by
  have htop : f.codes.inf - 1 = f.maxCode := Nat.sub_eq_of_eq_add hinf.symm
  refine toNarrow_converts hf rfl htop (fun g => by cases g <;> rfl) (fun s => by cases sat <;> rfl) (fun s m e hm ho => ?_) w
  rw [toNarrow, ho]
  refine ⟨?_, ?_⟩
  · rintro rfl
    rfl
  · rintro rfl
    exact deliver_exact hf hinf hm e rm s

theorem toNarrow_e4_converts (rm : ℕ) (sat : Bool) (w : Word) :
    e4Target.Converts rm sat w.toNat (toNarrow .e4 e4m3 rm sat (f32 w)).res := by
  refine toNarrow_converts sound_e4m3 rfl (by decide) (fun g => by cases g <;> rfl) (fun s => by cases sat <;> rfl) (fun s m e hm ho => ?_) w
  have hy : (0 : ℝ) < m * pow2 e := mul_pos (by exact_mod_cast Nat.pos_of_ne_zero hm) (pow2_pos e)
  rw [toNarrow, ho]
  refine ⟨?_, ?_⟩
  · rintro rfl
    rfl
  · rintro rfl
    have hover := overInf_iff hy rm s
    refine ⟨rfl, fun hg => ?_, fun hg => ⟨s, (sgn_neg_iff hy).symm, ?_⟩⟩
    · change (if overInf rm s = true then _ else _) = _
      rw [if_pos (hover.mpr hg)]
    · change (if overInf rm s = true then _ else _) = _
      rw [if_neg (mt hover.mp hg)]
      rfl

theorem toNarrow_e2_converts (rm : ℕ) (w : Word) : ConvertsE2 rm w.toNat (toNarrow .e2 e2m1 rm true (f32 w)).res := by
  refine toNarrow_converts sound_e2m1 rfl (by decide) (fun g => rfl) (fun s => rfl) (fun s m e hm ho => ?_) w
  rw [toNarrow, ho]
  exact ⟨fun _ => rfl, nofun⟩

/-! ## Integers (06 R159) -/

theorem fromInt_is (rm : ℕ) (x : ℤ) : FromInt rm x (intToF32 rm x).res := by
  have hx : sgn (decide (x < 0)) (x.natAbs * pow2 0) = x := by rw [sgn_natAbs, pow2_zero, mul_one]
  refine ⟨?_, fun h => ?_⟩
  · rintro rfl
    exact deliver_zero fp32 rm false 0
  · have := deliver_exact sound_fp32 hasInf_fp32 (Int.natAbs_ne_zero.mpr h) 0 rm (decide (x < 0))
    rwa [hx] at this

/-- A number from 2^64 up, in units. -/
theorem unitsAt_big {rm : ℕ} {s : Bool} {m : ℕ} {e : ℤ} (hm : m ≠ 0) (he : 64 ≤ e) : 2 ^ 64 ≤ (unitsAt rm s m e 0 false).1 := by
  rw [unitsAt, if_pos (by omega)]
  calc 2 ^ 64 ≤ 2 ^ (e - 0).toNat := Nat.pow_le_pow_right (by decide) (by omega)
    _ ≤ m * 2 ^ (e - 0).toNat := Nat.le_mul_of_pos_left _ (Nat.pos_of_ne_zero hm)

section

variable {lo hi : ℤ} (hlo : -2 ^ 64 < lo ∧ lo ≤ 0) (hhi : 0 ≤ hi ∧ hi < 2 ^ 64)
include hlo hhi

/-- A finite number is clamped to the range as its units are. -/
theorem f32ToInt_fin (rm : ℕ) (s : Bool) (m : ℕ) (e : ℤ) : (f32ToInt rm lo hi (.fin s m e)).lane =
    let u := unitsAt rm s m e 0 false
    if sgnInt s u.1 < lo then .flagged (BitVec.ofInt 32 lo) (fNV ||| fSAT)
    else if hi < sgnInt s u.1 then .flagged (BitVec.ofInt 32 hi) (fNV ||| fSAT)
    else .flagged (BitVec.ofInt 32 (sgnInt s u.1)) (flagIf (!u.2) fNX) := by
  unfold f32ToInt
  dsimp only
  by_cases hbig : 64 ≤ e ∧ m ≠ 0
  · have hu := unitsAt_big (rm := rm) (s := s) hbig.2 hbig.1
    rw [if_pos (by simpa using hbig)]
    cases s with
    | true =>
      have hlt : sgnInt true (unitsAt rm true m e 0 false).1 < lo := by
        rw [sgnInt, if_pos rfl]
        omega
      rw [if_pos hlt, if_pos rfl]
      exact flagged_toNat ..
    | false =>
      have hge : ¬ sgnInt false (unitsAt rm false m e 0 false).1 < lo ∧ hi < sgnInt false (unitsAt rm false m e 0 false).1 := by
        rw [sgnInt, if_neg Bool.false_ne_true]
        omega
      rw [if_neg hge.1, if_pos hge.2, if_neg Bool.false_ne_true]
      exact flagged_toNat ..
  · rw [if_neg (by simpa using hbig)]
    change FOut.lane (if sgnInt s _ < lo then _ else if hi < sgnInt s _ then _ else _) = _
    split
    · exact flagged_toNat ..
    · split
      · exact flagged_toNat ..
      · exact flagged_toNat ..

theorem toInt_is (rm : ℕ) (w : Word) : ToInt rm lo hi w.toNat (f32ToInt rm lo hi (f32 w)).lane := by
  unfold ToInt
  rw [operand_f32]
  match f32 w with
  | .nan g => exact ⟨fun _ => rfl, nofun, nofun⟩
  | .inf s => exact ⟨nofun, fun t ht => by cases ht; exact flagged_toNat .., nofun⟩
  | .fin s m e =>
    refine ⟨nofun, nofun, fun t x hx => ?_⟩
    cases hx
    obtain ⟨hn, hexact⟩ := roundedInt_eq_units rm s m e
    rw [f32ToInt_fin hlo hhi]
    dsimp only
    rw [← hn]
    refine ⟨fun h => if_pos h, fun h => ?_, fun h1 h2 => ?_⟩
    · rw [if_neg (by omega), if_pos h]
    · rw [if_neg (by omega), if_neg (by omega), flagIf_not_eq_ite hexact]

end

/-! ## S24 and E8M0 (06 R160, R162) -/

theorem sgn_false (y : ℝ) : sgn false y = y := rfl

theorem operand_value_neg {s : Bool} {m : ℕ} {e : ℤ} : (FVal.fin s m e).operand.value < 0 ↔ s = true ∧ m ≠ 0 := by
  change sgn s (m * pow2 e) < 0 ↔ _
  by_cases hm : m = 0
  · cases s <;> simp [hm, sgn]
  · rw [sgn_neg_iff (mul_pos (by exact_mod_cast Nat.pos_of_ne_zero hm) (pow2_pos e)), and_iff_left hm]

theorem roundedInt_nonneg (rm : ℕ) {y : ℝ} (hy : 0 ≤ y) : 0 ≤ roundedInt rm y := by
  have hfloor : 0 ≤ ⌊y⌋ := Int.floor_nonneg.mpr hy
  have hceil : 0 ≤ ⌈y⌉ := Int.ceil_nonneg hy
  match rm with
  | 0 => simp only [roundedInt]; split_ifs <;> omega
  | 1 => simp only [roundedInt, if_pos hy]; exact hfloor
  | 2 => exact hfloor
  | _ + 3 => exact hceil

theorem wide_nonneg (c : Codes) (rm : ℕ) {x : ℝ} (hx : 0 ≤ x) : 0 ≤ c.wide rm x :=
  mul_nonneg (by exact_mod_cast roundedInt_nonneg rm (div_nonneg hx (pow2_pos _).le)) (pow2_pos _).le

theorem toS24_is (rm : ℕ) (w : Word) : ToS24 rm w.toNat (f32ToS24 rm (f32 w)).res := by
  unfold ToS24
  rw [operand_f32]
  match f32 w with
  | .nan g => exact ⟨fun _ => rfl, nofun⟩
  | .inf s => exact ⟨fun _ => rfl, nofun⟩
  | .fin s m e =>
    refine ⟨fun h => ?_, fun t x hx => ?_⟩
    · obtain ⟨rfl, hm⟩ : s = true ∧ m ≠ 0 := by
        rcases h with h | ⟨t, h⟩ | h
        · cases h
        · cases h
        · exact operand_value_neg.mp h
      rw [f32ToS24, if_neg hm, if_pos rfl]
      rfl
    · cases hx
      by_cases hm : m = 0
      · rw [hm, Nat.cast_zero, zero_mul, f32ToS24, if_pos rfl]
        cases s <;> simp [sgn, FOut.clean, FOut.res]
      · have hy : (0 : ℝ) < m * pow2 e := mul_pos (by exact_mod_cast Nat.pos_of_ne_zero hm) (pow2_pos e)
        rw [sgn_eq_zero]
        refine ⟨fun h => absurd h hy.ne', ?_⟩
        cases s with
        | true => exact ⟨fun h => absurd h (by simp [sgn, hy.le]), fun h => absurd h (by simp [sgn, hy.le])⟩
        | false =>
          obtain ⟨hovf, hheld⟩ := roundMag_holds sound_s24 hm e rm false
          rw [sgn_false] at *
          rw [abs_of_nonneg (wide_nonneg _ rm hy.le)] at hovf
          rw [f32ToS24, if_neg hm, if_neg Bool.false_ne_true]
          dsimp only
          refine ⟨fun _ h => ?_, fun _ h => ?_⟩
          · rw [if_pos (hovf.mpr h)]
            rfl
          · have ho : (roundMag s24 rm false m e false).ovf = false := by
              rw [← Bool.not_eq_true, hovf]
              exact not_lt.mpr h
            rw [ho, if_neg Bool.false_ne_true]
            exact (hheld ho).2

/-- The exponent and the significand of a finite magnitude. -/
theorem log_significand {m : ℕ} (hm : m ≠ 0) (e : ℤ) :
    Int.log 2 ((m : ℝ) * pow2 e) = Nat.log2 m + e ∧ (m : ℝ) * pow2 e / pow2 (Nat.log2 m + e) = m / (2 ^ Nat.log2 m : ℕ) := by
  refine ⟨(tracks_exact m e (Nat.log2 m + e)).log hm le_rfl, ?_⟩
  rw [pow2_add, pow2_natCast, mul_div_mul_right _ _ (pow2_ne_zero e)]

theorem toE8m0_is (rm : ℕ) (sat : Bool) (w : Word) : ToE8m0 rm sat w.toNat (f32ToE8m0 rm sat (f32 w)).res := by
  unfold ToE8m0
  rw [isSig_f32, operand_f32]
  match f32 w with
  | .nan g => exact ⟨fun _ => by cases g <;> rfl, nofun, nofun⟩
  | .inf s => exact ⟨nofun, fun _ _ => rfl, nofun⟩
  | .fin s m e =>
    refine ⟨nofun, nofun, fun t x hx => ?_⟩
    cases hx
    by_cases hm : m = 0
    · rw [hm, Nat.cast_zero, zero_mul, f32ToE8m0, if_pos rfl]
      exact ⟨fun _ => rfl, fun h => absurd (sgn_eq_zero.mpr rfl) h⟩
    · have hy : (0 : ℝ) < m * pow2 e := mul_pos (by exact_mod_cast Nat.pos_of_ne_zero hm) (pow2_pos e)
      rw [ne_eq, sgn_eq_zero]
      refine ⟨fun h => absurd h hy.ne', fun _ k sig hk hsig p hup hdown => ?_⟩
      obtain ⟨hlog, hdiv⟩ := log_significand hm e
      rw [abs_sgn, abs_of_pos hy] at hk hsig
      rw [hlog] at hk
      rw [hk, hdiv] at hsig
      have hpow : (0 : ℝ) < (2 ^ Nat.log2 m : ℕ) := by exact_mod_cast Nat.two_pow_pos _
      have hhalf : 3 / 2 ≤ sig ↔ 3 * 2 ^ Nat.log2 m ≤ 2 * m := by
        rw [hsig, div_le_div_iff₀ two_pos hpow]
        exact_mod_cast (by rw [Nat.mul_comm m])
      have hone : sig = 1 ↔ m = 2 ^ Nat.log2 m := by
        rw [hsig, div_eq_one_iff_eq hpow.ne', Nat.cast_inj]
      have hups : (rm = 0 ∧ 3 / 2 ≤ sig) ∨ (rm = 3 ∧ sig ≠ 1) ↔
          ((rm = 0 && 3 * 2 ^ Nat.log2 m ≤ 2 * m) || (rm = 3 && m ≠ 2 ^ Nat.log2 m)) = true := by
        simp only [hhalf, ne_eq, hone, Bool.or_eq_true, Bool.and_eq_true, decide_eq_true_eq]
      rw [hups] at hup hdown
      rw [f32ToE8m0, if_neg hm]
      dsimp only
      generalize ((rm = 0 && 3 * 2 ^ Nat.log2 m ≤ 2 * m) || (rm = 3 && m ≠ 2 ^ Nat.log2 m)) = up at hup hdown ⊢
      have hp : (Nat.log2 m : ℤ) + e + (if up = true then 1 else 0) = p := by
        cases up with
        | true => rw [hup rfl, hk, if_pos rfl]
        | false => rw [hdown Bool.false_ne_true, hk, if_neg Bool.false_ne_true, add_zero]
      rw [hp]
      refine ⟨fun h => ?_, fun h => ?_, fun h1 h2 => ?_⟩
      · rw [if_pos h]
        cases sat <;> rfl
      · rw [if_neg (by omega), if_pos h]
        rfl
      · rw [if_neg (by omega), if_neg (by omega)]
        simp only [FOut.res, flagIf, decide_eq_true_eq, ne_eq, hone]

theorem laneCvt_is (i : Iss) (op : Op) (l : ℕ) : CvtIs i op l (laneCvt i op l) := by
  have hpair : ∀ f : Fmt, f.Sound → f.HasInf → ∃ lo hi,
      (ieeeTarget f.codes).Converts op.o.rm.toNat (op.o.sc.toNat = 1) (i.a op l).toNat lo ∧
      (ieeeTarget f.codes).Converts op.o.rm.toNat (op.o.sc.toNat = 1) (i.bv op l).toNat hi ∧
      cvtPair f op.o.rm.toNat (op.o.sc.toNat = 1) (i.a op l) (i.bv op l) = .flagged (BitVec.ofNat 32 (hi.1 * 65536 + lo.1)) (lo.2 ||| hi.2) :=
    fun f hf hinf => ⟨_, _, toNarrow_ieee_converts hf hinf _ _ _, toNarrow_ieee_converts hf hinf _ _ _, rfl⟩
  unfold CvtIs
  dsimp only
  split
  case h_1 h => rw [laneCvt, h]; exact ⟨_, fromInt_is _ _, rfl⟩
  case h_2 h => rw [laneCvt, h]; exact ⟨_, fromInt_is _ _, rfl⟩
  case h_3 h => rw [laneCvt, h]; exact toInt_is (by decide) (by decide) _ _
  case h_4 h => rw [laneCvt, h]; exact toInt_is (by decide) (by decide) _ _
  case h_5 h => rw [laneCvt, h]; exact ⟨_, toNarrow_ieee_converts sound_bf16 hasInf_bf16 _ _ _, rfl⟩
  case h_6 h => rw [laneCvt, h]; exact ⟨_, toNarrow_ieee_converts sound_fp16 hasInf_fp16 _ _ _, rfl⟩
  case h_7 h => rw [laneCvt, h]; exact ⟨_, toS24_is _ _, rfl⟩
  case h_8 h => rw [laneCvt, h]; exact hpair bf16 sound_bf16 hasInf_bf16
  case h_9 h => rw [laneCvt, h]; exact hpair fp16 sound_fp16 hasInf_fp16
  case h_10 h => rw [laneCvt, h]; exact ⟨_, toE8m0_is _ _ _, rfl⟩
  case h_11 => exact congrFun (congrFun (congrFun laneCvt_eq i) op) l

/-! ## Packing (11 R251) -/

/-- A word made of elements of `w` bits, low first: each is found again. -/
theorem packed_elements {w : ℕ} {p : ℕ → Bool} {c : ℕ → ℕ} (hc : ∀ k, c k < 2 ^ w) (n : ℕ) :
    (List.range n).foldl (fun v j => if p j then v + c j * 2 ^ (w * j) else v) 0 < 2 ^ (w * n) ∧
    ∀ j < n, (List.range n).foldl (fun v j => if p j then v + c j * 2 ^ (w * j) else v) 0 / 2 ^ (w * j) % 2 ^ w = if p j then c j else 0 := by
  induction n with
  | zero => exact ⟨by simp, nofun⟩
  | succ n ih =>
    obtain ⟨hlt, hel⟩ := ih
    rw [List.range_succ, List.foldl_append, List.foldl_cons, List.foldl_nil]
    generalize (List.range n).foldl (fun v j => if p j then v + c j * 2 ^ (w * j) else v) 0 = v at *
    have hsum : (if p n = true then v + c n * 2 ^ (w * n) else v) = (if p n = true then c n else 0) * 2 ^ (w * n) + v := by
      split
      · exact Nat.add_comm ..
      · rw [Nat.zero_mul, Nat.zero_add]
    have htop : (if p n = true then c n else 0) < 2 ^ w := by
      split
      · exact hc n
      · exact Nat.two_pow_pos w
    rw [hsum]
    refine ⟨?_, fun j hj => ?_⟩
    · calc (if p n = true then c n else 0) * 2 ^ (w * n) + v
        _ < ((if p n = true then c n else 0) + 1) * 2 ^ (w * n) := by rw [Nat.succ_mul]; exact Nat.add_lt_add_left hlt _
        _ ≤ 2 ^ w * 2 ^ (w * n) := Nat.mul_le_mul_right _ htop
        _ = 2 ^ (w * (n + 1)) := by rw [← Nat.pow_add, Nat.mul_succ, Nat.add_comm]
    · rcases Nat.lt_succ_iff_lt_or_eq.mp hj with hj | rfl
      · have hpow : 2 ^ (w * n) = 2 ^ (w * j) * (2 ^ w * 2 ^ (w * (n - j - 1))) := by
          rw [← Nat.pow_add, ← Nat.pow_add, show n = j + (1 + (n - j - 1)) by omega, Nat.mul_add, Nat.mul_add, Nat.mul_one,
            show j + (1 + (n - j - 1)) - j - 1 = n - j - 1 by omega]
        rw [hpow, Nat.mul_left_comm, Nat.mul_add_div (Nat.two_pow_pos _), Nat.mul_left_comm, Nat.mul_add_mod, hel j hj]
      · rw [Nat.add_comm, Nat.add_mul_div_right _ _ (Nat.two_pow_pos _), Nat.div_eq_of_lt hlt, Nat.zero_add, Nat.mod_eq_of_lt htop]

/-- A group's word, of elements that have their width. -/
theorem packsGroup_of_elements {i : Iss} {op : Op} {l n w : ℕ} {P : ℕ → Res → Prop} (hwidth : w * n = 32) {el : ℕ → FOut}
    (hel : ∀ k, P (i.a op k).toNat (el k).res) (hlt : ∀ k, (el k).code < 2 ^ w) :
    PacksGroup i op l n w P (.flagged (packGroup i n w l el) (el l).fl) := by
  refine ⟨fun k => (el k).res, packGroup i n w l el, hel, rfl, fun j hj => ?_⟩
  obtain ⟨hv, hj'⟩ := packed_elements (p := fun j => hasLane i.ex (l / n * n + j)) (c := fun j => (el (l / n * n + j)).code) (fun k => hlt _) n
  rw [hwidth] at hv
  rw [packGroup, BitVec.toNat_ofNat, Nat.mod_eq_of_lt hv]
  exact hj' j hj

/-- What a conversion answers is a code of its target, where its answers to NaNs, infinities and overflows are. -/
theorem converts_lt {k : Spec.Target} {rm : ℕ} {sat : Bool} {a : ℕ} {r : Res} (h : k.Converts rm sat a r) (htop : k.top < 2 ^ (k.c.e + k.c.f))
    (hnan : ∀ g, (k.nan g).1 < 2 ^ (1 + k.c.e + k.c.f)) (hinf : ∀ s, (k.inf s).1 < 2 ^ (1 + k.c.e + k.c.f))
    (hbeyond : sat = false → ∀ x, k.c.real k.top < |k.c.wide rm x| → k.beyond rm x r → r.1 < 2 ^ (1 + k.c.e + k.c.f)) :
    r.1 < 2 ^ (1 + k.c.e + k.c.f) := by
  obtain ⟨hisnan, hisinf, hnum⟩ := h
  have hcl : ∀ s, k.c.withSign s k.top < 2 ^ (1 + k.c.e + k.c.f) := fun s => withSign_lt k.c s htop
  cases hv : codes32.operand a with
  | nan =>
    rw [hisnan hv]
    exact hnan _
  | inf s =>
    rw [hisinf s hv]
    cases sat
    · exact hinf s
    · exact hcl s
  | num s x =>
    obtain ⟨hzero, hheld, hover⟩ := hnum s x hv
    by_cases hx : x = 0
    · rw [hzero hx]
      exact withSign_lt k.c s (Nat.two_pow_pos _)
    · rcases le_or_gt |k.c.wide rm x| (k.c.real k.top) with hle | hgt
      · exact (hheld hx hle).2.1
      · obtain ⟨hsat, hbey⟩ := hover hx hgt
        cases sat with
        | true =>
          rw [hsat rfl]
          exact hcl s
        | false => exact hbeyond rfl x hgt (hbey rfl)

theorem converts_e5_lt {rm : ℕ} {sat : Bool} {a : ℕ} {r : Res} (h : (ieeeTarget codesE5).Converts rm sat a r) : r.1 < 2 ^ 8 := by
  refine converts_lt h (by decide) (fun _ => show codesE5.nan < 2 ^ 8 by decide) (fun s => by cases s <;> decide) (fun _ x hx hd => ?_)
  obtain ⟨s, -, -, hi, hni⟩ := hd.1 hx
  by_cases hg : goesInf rm x
  · rw [hi hg]
    cases s <;> decide
  · rw [hni hg]
    cases s <;> decide

theorem converts_e4_lt {rm : ℕ} {sat : Bool} {a : ℕ} {r : Res} (h : e4Target.Converts rm sat a r) : r.1 < 2 ^ 8 := by
  refine converts_lt h (by decide) (fun _ => show 0x7F < 2 ^ 8 by decide) (fun _ => show 0x7F < 2 ^ 8 by decide) (fun _ x hx hd => ?_)
  obtain ⟨-, hi, hni⟩ := hd
  by_cases hg : goesInf rm x
  · rw [hi hg]
    decide
  · obtain ⟨s, -, hs⟩ := hni hg
    rw [hs]
    cases s <;> decide

theorem converts_e2_lt {rm : ℕ} {a : ℕ} {r : Res} (h : ConvertsE2 rm a r) : r.1 < 2 ^ 4 :=
  converts_lt h (by decide) (fun _ => show 0 < 2 ^ 4 by decide) (fun _ => show 0 < 2 ^ 4 by decide) nofun

theorem lanePack8_is (i : Iss) (op : Op) (l : ℕ) : Pack8Is i op l (lanePack8 i op l) := by
  have hel : ∀ k, (if op.o.f.toNat = 0 then e4Target else ieeeTarget codesE5).Converts op.o.rm.toNat (op.o.sc.toNat = 1) (i.a op k).toNat
      (pack8Elem i op k).res ∧ (pack8Elem i op k).code < 2 ^ 8 := fun k => by
    have h4 := toNarrow_e4_converts op.o.rm.toNat (op.o.sc.toNat = 1) (i.a op k)
    have h5 := toNarrow_ieee_converts sound_e5m2 hasInf_e5m2 op.o.rm.toNat (op.o.sc.toNat = 1) (i.a op k)
    unfold pack8Elem
    by_cases h : op.o.f.toNat = 0
    · simp only [h, if_true]
      exact ⟨h4, converts_e4_lt h4⟩
    · simp only [h, if_false]
      exact ⟨h5, converts_e5_lt h5⟩
  exact packsGroup_of_elements rfl (fun k => (hel k).1) (fun k => (hel k).2)

theorem lanePack4_is (i : Iss) (op : Op) (l : ℕ) : Pack4Is i op l (lanePack4 i op l) :=
  packsGroup_of_elements rfl (fun _ => toNarrow_e2_converts _ _) (fun _ => converts_e2_lt (toNarrow_e2_converts op.o.rm.toNat _))

end Sys2Proof

/-! The scales of a group's values (O5): MXSCAL and BQSCAL. -/

namespace Sys2Proof

open Sys2Proof.Machine Sys2Proof.Spec

/-! ## Values that are numbers -/

theorem special_iff {v : FVal} : v.special = true ↔ v.isNan = true ∨ ∃ s, v = .inf s := by
  cases v <;> simp [FVal.special, FVal.isNan]

theorem special_iff_noNumber (i : Iss) (op : Op) (k : ℕ) : (f32 (i.a op k)).special = true ↔ NoNumber i op k := by
  simp only [special_iff, NoNumber, ← operand_eq_nan_iff_isNan, ← operand_eq_inf_iff, ← operand_f32, operand_eq_nan, operand_eq_inf,
    exists_and_left, exists_eq', and_true]

/-- A word that is a number, as its significand and exponent. -/
theorem f32_of_number {i : Iss} {op : Op} {k : ℕ} (h : ¬ NoNumber i op k) : ∃ s m e, f32 (i.a op k) = .fin s m e ∧
    codes32.real (i.a op k).toNat = sgn s (m * pow2 e) := by
  rw [← special_iff_noNumber] at h
  have hop := operand_f32 (i.a op k)
  cases hv : f32 (i.a op k) with
  | nan g => rw [hv] at h; exact absurd rfl h
  | inf s => rw [hv] at h; exact absurd rfl h
  | fin s m e =>
    rw [hv] at hop
    obtain ⟨-, hx, -⟩ := operand_eq_num hop
    exact ⟨s, m, e, rfl, hx.symm⟩

/-- NV is raised where a condition holds. -/
theorem flagIf_fNV {b : Bool} {p : Prop} (h : b = true ↔ p) : (flagIf b fNV = fNV ∨ flagIf b fNV = 0) ∧ (flagIf b fNV = fNV ↔ p) := by
  rw [← h]
  cases b <;> decide

/-! ## The greatest of a group -/

/-- A significand and an exponent as a number. -/
noncomputable def magVal (a : ℕ × ℤ) : ℝ := a.1 * pow2 a.2

theorem magVal_nonneg (a : ℕ × ℤ) : 0 ≤ magVal a := mul_nonneg (Nat.cast_nonneg _) (pow2_pos _).le

theorem magVal_eq_zero {a : ℕ × ℤ} : magVal a = 0 ↔ a.1 = 0 := by
  rw [magVal, mul_eq_zero, or_iff_left (pow2_ne_zero _), Nat.cast_eq_zero]

/-- A magnitude in units of a smaller exponent. -/
theorem magVal_units {a : ℕ × ℤ} {q : ℤ} (hq : q ≤ a.2) : ((a.1 * 2 ^ (a.2 - q).toNat : ℕ) : ℝ) * pow2 q = magVal a := by
  rw [magVal, pow2_of_le hq]
  push_cast
  ring

theorem magVal_maxMag (a b : ℕ × ℤ) : magVal (maxMag a b) = max (magVal a) (magVal b) := by
  unfold maxMag
  split
  case isTrue ha => rw [magVal_eq_zero.mpr ha, max_eq_right (magVal_nonneg b)]
  case isFalse ha =>
    split
    case isTrue hb => rw [magVal_eq_zero.mpr hb, max_eq_left (magVal_nonneg a)]
    case isFalse hb =>
      have hlt : a.1 * 2 ^ (a.2 - min a.2 b.2).toNat < b.1 * 2 ^ (b.2 - min a.2 b.2).toNat ↔ magVal a < magVal b := by
        rw [← magVal_units (min_le_left a.2 b.2), ← magVal_units (min_le_right a.2 b.2), mul_lt_mul_iff_left₀ (pow2_pos _), Nat.cast_lt]
      dsimp only
      split
      case isTrue h => exact (max_eq_right (hlt.mp h).le).symm
      case isFalse h => exact (max_eq_left (not_lt.mp (mt hlt.mpr h))).symm

theorem greatest_cons (x : ℝ) (xs : List ℝ) : greatest (x :: xs) = max x (greatest xs) := rfl

theorem greatest_nonneg (xs : List ℝ) : 0 ≤ greatest xs := by
  induction xs with
  | nil => exact le_rfl
  | cons x xs ih => exact ih.trans (le_max_right ..)

/-- The greatest magnitude found along a list, where negative numbers count as zero. -/
theorem magVal_foldl {α : Type} {g : α → ℕ × ℤ} {r : α → ℝ} {l : List α}
    (h : ∀ k ∈ l, magVal (g k) = max 0 (r k)) (a : ℕ × ℤ) :
    magVal (l.foldl (fun m k => maxMag m (g k)) a) = max (magVal a) (greatest (l.map r)) := by
  induction l generalizing a with
  | nil => exact (max_eq_left (magVal_nonneg a)).symm
  | cons k l ih =>
    have hl := greatest_nonneg (l.map r)
    rw [List.foldl_cons, ih (fun j hj => h j (List.mem_cons_of_mem _ hj)), magVal_maxMag, h k (List.mem_cons_self ..), List.map_cons,
      greatest_cons, max_assoc, max_comm 0, max_assoc, max_eq_right hl]

section

variable {i : Iss} {op : Op} {n l : ℕ}

theorem groupVals_eq (i : Iss) (op : Op) (n l : ℕ) : groupVals i op n l = (groupLanes i n l).map (fun k => f32 (i.a op k)) := rfl

theorem any_special_iff : (groupVals i op n l).any FVal.special = true ↔ ∃ k ∈ groupLanes i n l, NoNumber i op k := by
  rw [groupVals_eq, List.any_map, List.any_eq_true]
  exact exists_congr fun k => and_congr_right fun _ => special_iff_noNumber i op k

theorem not_any_special (h : ∀ k ∈ groupLanes i n l, ¬ NoNumber i op k) : ¬ (groupVals i op n l).any FVal.special = true := by
  rw [any_special_iff]
  exact fun ⟨k, hk, hn⟩ => h k hk hn

/-- The greatest magnitude of a group of numbers. -/
theorem magVal_mag (h : ∀ k ∈ groupLanes i n l, ¬ NoNumber i op k) :
    magVal ((groupVals i op n l).foldl (fun m v => maxMag m v.mag) (0, 0)) =
    greatest ((groupLanes i n l).map (fun k => |codes32.real (i.a op k).toNat|)) := by
  rw [groupVals_eq, List.foldl_map, magVal_foldl (r := fun k => |codes32.real (i.a op k).toNat|) (fun k hk => ?_),
    magVal_eq_zero.mpr rfl, max_eq_right (greatest_nonneg _)]
  obtain ⟨s, m, e, hv, hx⟩ := f32_of_number (h k hk)
  have hpos := magVal_nonneg (m, e)
  rw [hv, hx, abs_sgn]
  exact (abs_of_nonneg hpos).symm.trans (max_eq_right (abs_nonneg _)).symm

/-- The greatest value of a group of numbers, none below 0. -/
theorem magVal_rootMag (h : ∀ k ∈ groupLanes i n l, ¬ NoNumber i op k) :
    magVal ((groupVals i op n l).foldl (fun m v => maxMag m (rootMag v)) (0, 0)) =
    greatest ((groupLanes i n l).map (fun k => codes32.real (i.a op k).toNat)) := by
  rw [groupVals_eq, List.foldl_map, magVal_foldl (r := fun k => codes32.real (i.a op k).toNat) (fun k hk => ?_),
    magVal_eq_zero.mpr rfl, max_eq_right (greatest_nonneg _)]
  obtain ⟨s, m, e, hv, hx⟩ := f32_of_number (h k hk)
  have hpos := magVal_nonneg (m, e)
  rw [hv, hx]
  cases s with
  | false => exact (max_eq_right hpos).symm
  | true => exact (magVal_eq_zero.mpr rfl).trans (max_eq_left (neg_nonpos.mpr hpos)).symm

end

/-! ## MXSCAL (06 R163, 11 R252) -/

/-- The logarithm rounded up is one more unless the magnitude is a power of two. -/
theorem clog_significand {m : ℕ} (hm : m ≠ 0) (e : ℤ) :
    Int.clog 2 ((m : ℝ) * pow2 e) = Nat.log2 m + e + (if m ≠ 2 ^ Nat.log2 m then 1 else 0) := by
  have hy : (0 : ℝ) < m * pow2 e := mul_pos (by exact_mod_cast Nat.pos_of_ne_zero hm) (pow2_pos e)
  by_cases hp : m = 2 ^ Nat.log2 m
  · rw [if_neg (not_not_intro hp), add_zero]
    conv_lhs => rw [hp, ← pow2_natCast, ← pow2_add]
    exact_mod_cast Int.clog_zpow (R := ℝ) one_lt_two ((Nat.log2 m : ℤ) + e)
  · rw [if_pos hp]
    obtain ⟨hlo, hhi⟩ := (tracks_exact m e (Nat.log2 m + e)).bounds hm le_rfl
    have hne : pow2 (Nat.log2 m + e) ≠ m * pow2 e := by
      rw [pow2_add, pow2_natCast, ne_eq, mul_right_cancel_iff_of_pos (pow2_pos e), Nat.cast_inj]
      exact Ne.symm hp
    have hgt := (Int.zpow_lt_iff_lt_clog (b := 2) one_lt_two hy).mp (by exact_mod_cast lt_of_le_of_ne hlo hne)
    have hle := (Int.le_zpow_iff_clog_le (b := 2) one_lt_two hy).mp (by exact_mod_cast hhi.le)
    omega

/-- An MX scale: the exponent against the format's, in the range of the codes. -/
theorem mxScale_eq {i : Iss} {op : Op} {n l : ℕ} (hnum : ∀ k ∈ groupLanes i n l, ¬ NoNumber i op k) (emax : ℤ) (up : Bool) :
    let m := greatest ((groupLanes i n l).map (fun k => |codes32.real (i.a op k).toNat|))
    (m = 0 → mxScale emax up (groupVals i op n l) = 0x7F) ∧
    (m ≠ 0 → (mxScale emax up (groupVals i op n l) : ℤ) =
      max 0 (min 254 ((if up = true then Int.clog 2 m else Int.log 2 m) - emax + 127))) := by
  dsimp only
  rw [← magVal_mag hnum, mxScale, if_neg (not_any_special hnum), ne_eq, magVal_eq_zero]
  generalize (groupVals i op n l).foldl (fun m v => maxMag m v.mag) (0, 0) = a
  refine ⟨fun h => if_pos h, fun h => ?_⟩
  rw [if_neg h]
  dsimp only
  have hlog : (if up = true then Int.clog 2 (magVal a) else Int.log 2 (magVal a)) =
      Nat.log2 a.1 + a.2 + (if (up && decide (a.1 ≠ 2 ^ Nat.log2 a.1)) = true then 1 else 0) := by
    cases up with
    | true => rw [if_pos rfl, magVal, clog_significand h, Bool.true_and]; simp only [decide_eq_true_eq]
    | false => rw [if_neg Bool.false_ne_true, magVal, (log_significand h a.2).1, Bool.false_and, if_neg Bool.false_ne_true, add_zero]
  rw [← hlog]
  generalize (if up = true then Int.clog 2 (magVal a) else Int.log 2 (magVal a)) - emax + 127 = g
  split_ifs <;> omega

theorem laneMxscal_is (i : Iss) (op : Op) (l : ℕ) : MxscalIs i op l (laneMxscal i op l) := by
  unfold MxscalIs laneMxscal
  dsimp only
  obtain ⟨hfl, hnv⟩ := flagIf_fNV (special_iff_noNumber i op l)
  refine ⟨_, hfl, hnv, fun h => ?_, fun h => ⟨fun hm => ?_, fun hm => ?_⟩⟩
  · simp only [mxScale, if_pos (any_special_iff.mpr h)]
    rfl
  · have hsc := fun emax => (mxScale_eq h emax (op.o.rm.toNat = 3)).1 hm
    rw [hsc, hsc, hsc]
    rfl
  · have hsc := fun emax => (mxScale_eq h emax (op.o.rm.toNat = 3)).2 hm
    simp only [decide_eq_true_eq] at hsc
    rw [← hsc, ← hsc, ← hsc, ← BitVec.ofInt_natCast]
    push_cast
    rfl

/-! ## BQSCAL (06 R166, 11 R253) -/

/-- The S24 code nearest a magnitude found to many bits. -/
theorem nearestS24_is {m : ℕ} {e q0 : ℤ} {sticky : Bool} {y : ℝ} (h : Tracks m e sticky y q0) (hm : m ≠ 0) (hq : q0 < Nat.log2 m + e - 16) :
    NearestS24 y (nearestS24 m e sticky) := by
  have hy := h.pos hm (by omega)
  have hr := h.rounds sound_s24 hm hq 0 false
  have hovf := hr.ovf_iff
  rw [sgn_false, abs_of_nonneg (wide_nonneg _ 0 hy.le)] at hovf
  unfold nearestS24
  dsimp only
  refine ⟨fun h0 => absurd h0 hy.ne', fun _ hlt => ?_, fun _ hle => ?_⟩
  · rw [if_pos (hovf.mpr hlt)]
    rfl
  · have ho : (roundMag s24 0 false m e sticky).ovf = false := by
      rw [← Bool.not_eq_true, hovf]
      exact not_lt.mpr hle
    rw [ho, if_neg Bool.false_ne_true]
    exact ⟨(hr.code_le ho).trans_lt sound_s24.maxCode_lt, hr.real_code ho⟩

theorem nearestS24_zero : NearestS24 0 0 := ⟨fun _ => rfl, fun h => absurd rfl h, fun h => absurd rfl h⟩

/-- A quotient of a magnitude that is known to its own unit: known to that unit, with many bits below. -/
theorem Tracks.div {m : ℕ} {e : ℤ} {sticky : Bool} {y : ℝ} (h : Tracks m e sticky y e) {n k : ℕ} (hn : n ≠ 0) :
    Tracks (m * 2 ^ k / n) (e - k) (decide (m * 2 ^ k % n ≠ 0) || sticky) (y / n) e := by
  have hn' : 0 < n := Nat.pos_of_ne_zero hn
  have hnr : (0 : ℝ) < n := by exact_mod_cast hn'
  have hk : 0 < 2 ^ k := Nat.two_pow_pos k
  -- A multiple of 2^q in units of 2^e, and in those of 2^(e - k).
  have hunits : ∀ q, e ≤ q → ∀ t : ℕ, ∃ u : ℕ, (t : ℝ) * pow2 q = u * pow2 e ∧
      (t : ℝ) * pow2 q = (u * 2 ^ k : ℕ) * pow2 (e - k) ∧
      ((t * n : ℕ) : ℝ) * pow2 q = (u * n : ℕ) * pow2 e := fun q hq t => by
    have hu : (t : ℝ) * pow2 q = (t * 2 ^ (q - e).toNat : ℕ) * pow2 e := by
      rw [pow2_of_le hq]
      push_cast
      ring
    refine ⟨_, hu, ?_, ?_⟩
    · rw [hu, Nat.cast_mul _ (2 ^ k), mul_assoc, ← pow2_natCast, ← pow2_add, add_sub_cancel]
    · rw [Nat.cast_mul, mul_right_comm, hu]
      push_cast
      ring
  refine ⟨fun _ => by omega, fun q hq t => ?_, fun q hq t => ?_⟩
  · obtain ⟨u, hu, hu', hun⟩ := hunits q hq t
    calc (t : ℝ) * pow2 q ≤ y / n
      _ ↔ ((t * n : ℕ) : ℝ) * pow2 q ≤ y := by rw [le_div_iff₀ hnr]; push_cast; rw [mul_right_comm]
      _ ↔ u * n ≤ m := by rw [h.le_iff q hq, hun, mul_le_mul_iff_left₀ (pow2_pos e), Nat.cast_le]
      _ ↔ u * 2 ^ k ≤ m * 2 ^ k / n := by
        rw [Nat.le_div_iff_mul_le hn', Nat.mul_right_comm, Nat.mul_le_mul_right_iff hk]
      _ ↔ (t : ℝ) * pow2 q ≤ (m * 2 ^ k / n : ℕ) * pow2 (e - k) := by
        rw [hu', mul_le_mul_iff_left₀ (pow2_pos _), Nat.cast_le]
  · obtain ⟨u, hu, hu', hun⟩ := hunits q hq t
    have hexact : m = u * n ↔ m * 2 ^ k % n = 0 ∧ m * 2 ^ k / n = u * 2 ^ k := by
      refine ⟨?_, fun ⟨hmod, hdiv⟩ => ?_⟩
      · rintro rfl
        rw [Nat.mul_right_comm]
        exact ⟨Nat.mul_mod_left .., Nat.mul_div_cancel _ hn'⟩
      · have := Nat.div_add_mod (m * 2 ^ k) n
        rw [hmod, hdiv, Nat.add_zero, Nat.mul_left_comm, ← Nat.mul_assoc] at this
        exact (Nat.eq_of_mul_eq_mul_right hk this).symm
    calc y / n = t * pow2 q
      _ ↔ y = ((t * n : ℕ) : ℝ) * pow2 q := by rw [div_eq_iff hnr.ne']; push_cast; rw [mul_right_comm]
      _ ↔ sticky = false ∧ m = u * n := by
        rw [h.eq_iff q hq, hun, mul_right_cancel_iff_of_pos (pow2_pos e), Nat.cast_inj]
      _ ↔ _ := by
        rw [hu', mul_right_cancel_iff_of_pos (pow2_pos _), Nat.cast_inj, hexact, Bool.or_eq_false_iff, decide_eq_false_iff_not, not_not]
        tauto

theorem bqLinScale_is {i : Iss} {op : Op} {l : ℕ} (h : ∀ k ∈ groupLanes i 64 l, ¬ NoNumber i op k) :
    NearestS24 (greatest (((groupLanes i 64 l).map (fun k => codes32.real (i.a op k).toNat)).map (fun x => |x|)) / 127)
      (bqLinScale (groupVals i op 64 l)) := by
  rw [List.map_map]
  change NearestS24 (greatest ((groupLanes i 64 l).map (fun k => |codes32.real (i.a op k).toNat|)) / 127) _
  rw [← magVal_mag h, bqLinScale, if_neg (not_any_special h)]
  generalize (groupVals i op 64 l).foldl (fun m v => maxMag m v.mag) (0, 0) = a
  unfold divMag
  dsimp only
  by_cases h0 : a.1 = 0
  · rw [magVal_eq_zero.mpr h0, h0, zero_div]
    exact nearestS24_zero
  · obtain ⟨htr, hd, hlog⟩ := tracks_quotient (n := 127) (k := 80) h0 (by decide) a.2 0 (by decide)
    rw [pow2_zero, mul_one, sub_zero] at htr
    exact nearestS24_is htr hd (by omega)

theorem bqRootScale_is {i : Iss} {op : Op} {l : ℕ} (h : ∀ k ∈ groupLanes i 64 l, ¬ NoNumber i op k) :
    NearestS24 (Real.sqrt (greatest ((groupLanes i 64 l).map (fun k => codes32.real (i.a op k).toNat))) / 255)
      (bqRootScale (groupVals i op 64 l)) := by
  rw [← magVal_rootMag h, bqRootScale, if_neg (not_any_special h)]
  generalize (groupVals i op 64 l).foldl (fun m v => maxMag m (rootMag v)) (0, 0) = a
  dsimp only
  split
  case isTrue h0 => 
    rw [magVal_eq_zero.mpr h0, Real.sqrt_zero, zero_div]
    exact nearestS24_zero
  case isFalse h0 => 
    obtain ⟨htr, hr, hlog⟩ := tracks_sqrtMag h0 a.2
    generalize sqrtMag a.1 a.2 = r at *
    have hdiv := htr.div (n := 255) (k := 80) (by decide)
    have hge : 2 ^ 135 ≤ r.1 * 2 ^ 80 / 255 := by
      have := (Nat.le_log2 hr).mp hlog
      omega
    have hd : r.1 * 2 ^ 80 / 255 ≠ 0 := (Nat.lt_of_lt_of_le (Nat.two_pow_pos 135) hge).ne'
    have := (Nat.le_log2 hd).mpr hge
    unfold divMag
    dsimp only
    exact nearestS24_is hdiv hd (by omega)

theorem negative_iff {i : Iss} {op : Op} {k : ℕ} (h : ¬ NoNumber i op k) :
    (f32 (i.a op k)).negative = true ↔ codes32.real (i.a op k).toNat < 0 := by
  obtain ⟨s, m, e, hv, hx⟩ := f32_of_number h
  rw [hv, hx]
  exact (by simp [FVal.negative] : _ ↔ s = true ∧ m ≠ 0).trans operand_value_neg.symm

theorem laneBqscal_is (i : Iss) (op : Op) (l : ℕ) : BqscalIs i op l (laneBqscal i op l) := by
  have hspecial := special_iff_noNumber i op l
  unfold BqscalIs laneBqscal
  dsimp only
  by_cases hf : op.o.f.toNat = 0
  · rw [if_pos hf]
    have hcond : (f32 (i.a op l)).special = true ↔ NoNumber i op l ∨ (op.o.f.toNat ≠ 0 ∧ codes32.real (i.a op l).toNat < 0) := by
      rw [hspecial, or_iff_left (fun h => h.1 hf)]
    obtain ⟨hfl, hnv⟩ := flagIf_fNV hcond
    refine ⟨_, _, rfl, hfl, hnv, fun h => ?_, fun h => ⟨fun _ => bqLinScale_is h, fun hn => absurd hf hn⟩⟩
    rw [bqLinScale, if_pos (any_special_iff.mpr h)]
    rfl
  · rw [if_neg hf]
    have hcond : ((f32 (i.a op l)).special || (f32 (i.a op l)).negative) = true ↔
        NoNumber i op l ∨ (op.o.f.toNat ≠ 0 ∧ codes32.real (i.a op l).toNat < 0) := by
      rw [Bool.or_eq_true, hspecial]
      by_cases hn : NoNumber i op l
      · exact iff_of_true (.inl hn) (.inl hn)
      · rw [negative_iff hn, and_iff_right hf]
    obtain ⟨hfl, hnv⟩ := flagIf_fNV hcond
    refine ⟨_, _, rfl, hfl, hnv, fun h => ?_, fun h => ⟨fun hn => absurd hf hn, fun _ => bqRootScale_is h⟩⟩
    rw [bqRootScale, if_pos (any_special_iff.mpr h)]
    rfl

end Sys2Proof

/-! The codes of BQ8 (O5): BQENC and BQDEC. -/

namespace Sys2Proof

open Sys2Proof.Machine Sys2Proof.Spec

/-! ## Nearest integers (06 R166) -/

/-- The model's nearest quotient rounds the rest of the division. -/
theorem nearestQuot_eq {p q : ℕ} (hq : q ≠ 0) (s : Bool) : nearestQuot p q = roundUnits 0 s (p / q) (restClass (p % q) q false) := by
  unfold nearestQuot roundUnits restClass
  dsimp only
  generalize p % q = r
  generalize p / q = n
  rcases lt_trichotomy (2 * r) q with h | h | h
  · have hcls : ∀ c : Prop, [Decidable c] → (if c then 0 else 1) ≠ 3 ∧ (if c then 0 else 1) ≠ 2 := fun c _ => by split <;> decide
    simp [h, h.not_gt, h.ne, hcls]
  · have h0 : r ≠ 0 := by omega
    simp [h, h0]
  · have h0 : r ≠ 0 := by omega
    simp [h, h.not_gt, h.ne', h0]

/-- A quotient rounded to the nearest integer, with a sign. -/
theorem roundedInt_quotient {p q : ℕ} (hq : q ≠ 0) (s : Bool) : roundedInt 0 (sgn s ((p : ℝ) / q)) = sgnInt s (nearestQuot p q) := by
  have hpos : (0 : ℝ) < q := by exact_mod_cast Nat.pos_of_ne_zero hq
  have hsplits : Splits ((p : ℝ) / q) (p / q) (restClass (p % q) q false) := by
    refine splits_of_halves (Nat.pos_of_ne_zero hq) (fun t => ?_) (fun t => ?_)
    · rw [div_le_div_iff₀ two_pos hpos, mul_comm (p : ℝ)]
      exact_mod_cast Iff.rfl
    · rw [div_eq_div_iff hpos.ne' two_ne_zero, mul_comm (p : ℝ), and_iff_right rfl]
      exact_mod_cast Iff.rfl
  rw [roundedInt_of_splits hsplits, ← nearestQuot_eq hq]

/-- The root of a quotient compares with half an integer as the quotient does with its square. -/
theorem half_le_root {p q : ℕ} (hq : q ≠ 0) (t : ℕ) :
    ((t : ℝ) / 2 ≤ Real.sqrt ((p : ℝ) / q) ↔ t * t * q ≤ 4 * p) ∧ (Real.sqrt ((p : ℝ) / q) = t / 2 ↔ 4 * p = t * t * q) := by
  have hpos : (0 : ℝ) < q := by exact_mod_cast Nat.pos_of_ne_zero hq
  have ht : (0 : ℝ) ≤ t / 2 := by positivity
  have hsq : (t / 2 : ℝ) * (t / 2) = (t * t : ℕ) / (4 : ℕ) := by push_cast; ring
  have h4 : (0 : ℝ) < (4 : ℕ) := by norm_num
  constructor
  · rw [Real.le_sqrt ht (by positivity), sq, hsq, div_le_div_iff₀ h4 hpos, mul_comm (p : ℝ)]
    exact_mod_cast Iff.rfl
  · rw [Real.sqrt_eq_iff_mul_self_eq (by positivity) ht, hsq, div_eq_div_iff hpos.ne' h4.ne', mul_comm (p : ℝ)]
    exact_mod_cast Iff.rfl

/-- The root of a quotient rounded to the nearest integer. -/
theorem roundedInt_root {p q : ℕ} (hq : q ≠ 0) : roundedInt 0 (Real.sqrt ((p : ℝ) / q)) = nearestRoot p q := by
  obtain ⟨hlo, hhi⟩ := isqrt_spec (p / q)
  rw [Nat.le_div_iff_mul_le (Nat.pos_of_ne_zero hq)] at hlo
  rw [Nat.div_lt_iff_lt_mul (Nat.pos_of_ne_zero hq)] at hhi
  unfold nearestRoot
  dsimp only
  generalize isqrt (p / q) = n at *
  generalize hz : Real.sqrt ((p : ℝ) / q) = z
  have hhalf : ∀ t : ℕ, ((t : ℝ) / 2 ≤ z ↔ t * t * q ≤ 4 * p) ∧ (z = t / 2 ↔ 4 * p = t * t * q) := hz ▸ half_le_root hq
  have hn : (n : ℝ) = (2 * n : ℕ) / 2 := by push_cast; ring
  have hn1 : (n : ℝ) + 1 / 2 = (2 * n + 1 : ℕ) / 2 := by push_cast; ring
  have hn2 : (n : ℝ) + 1 = (2 * (n + 1) : ℕ) / 2 := by push_cast; ring
  have hge : (n : ℝ) ≤ z := by
    rw [hn, (hhalf _).1]
    linarith
  have hlt : z < n + 1 := by
    rw [← not_le, hn2, (hhalf _).1]
    linarith
  have hrounded : ∀ {cls : ℕ}, Splits z n cls → roundedInt 0 z = roundUnits 0 false n cls := fun h => roundedInt_of_splits h 0 false
  rcases lt_trichotomy (4 * p) ((2 * n + 1) * (2 * n + 1) * q) with h | h | h
  · have hbelow : z < n + 1 / 2 := by
      rw [← not_le, hn1, (hhalf _).1]
      exact not_le.mpr h
    rw [if_neg (by simp [h.not_gt, h.ne])]
    rcases hge.eq_or_lt with he | hgt
    · exact hrounded (cls := 0) (.inl ⟨rfl, he.symm⟩)
    · exact hrounded (cls := 1) (.inr (.inl ⟨rfl, hgt, hbelow⟩))
  · have hmid : z = n + 1 / 2 := by
      rw [hn1, (hhalf _).2]
      exact h
    rw [hrounded (cls := 2) (.inr (.inr (.inl ⟨rfl, hmid⟩)))]
    simp [roundUnits, h]
  · have habove : (n : ℝ) + 1 / 2 < z := by
      refine lt_of_le_of_ne ?_ (fun he => ?_)
      · rw [hn1, (hhalf _).1]
        exact h.le
      · rw [hn1] at he
        exact h.ne' ((hhalf _).2.mp he.symm)
    rw [if_pos (by simp [h])]
    exact hrounded (cls := 3) (.inr (.inr (.inr ⟨rfl, habove, hlt⟩)))

/-! ## BQENC (11 R253) -/

/-- Two magnitudes over one unit have the magnitudes' quotient. -/
theorem commonUnit_quotient {a b : ℕ × ℤ} (hb : b.1 ≠ 0) : (commonUnit a b).2 ≠ 0 ∧
    magVal a / magVal b = ((commonUnit a b).1 : ℝ) / (commonUnit a b).2 := by
  unfold commonUnit
  dsimp only
  refine ⟨mul_ne_zero hb (Nat.two_pow_pos _).ne', ?_⟩
  rw [← magVal_units (min_le_left a.2 b.2), ← magVal_units (min_le_right a.2 b.2), mul_div_mul_right _ _ (pow2_ne_zero _)]

theorem bqEncLin_is (g : Bool) (m : ℕ) (e : ℤ) {s : ℕ × ℤ} (hs : s.1 ≠ 0) {n : ℤ}
    (hn : n = roundedInt 0 (sgn g (m * pow2 e) / magVal s)) :
    (bqEncLin (.fin g m e) s).lane =
      .flagged (BitVec.ofNat 32 (BitVec.ofInt 8 (max (-127) (min n 127))).toNat) (if 127 < |n| then fSAT else 0) := by
  obtain ⟨h0, hq⟩ := commonUnit_quotient (a := (m, e)) hs
  rw [sgn_div, show (m : ℝ) * pow2 e = magVal (m, e) from rfl, hq, roundedInt_quotient h0] at hn
  unfold bqEncLin
  dsimp only
  generalize nearestQuot (commonUnit (m, e) s).1 (commonUnit (m, e) s).2 = k at *
  have habs : |n| = k := by
    rw [hn]
    cases g <;> simp [sgnInt]
  have hclamp : max (-127) (min n 127) = if g = true then -((min k 127 : ℕ) : ℤ) else (min k 127 : ℕ) := by
    rw [hn]
    cases g
    · simp only [sgnInt, Bool.false_eq_true, if_false]
      omega
    · simp only [sgnInt, if_true]
      omega
  have hsat : (127 < |n|) = (127 < k) := by
    rw [habs]
    exact_mod_cast rfl
  simp only [hclamp, hsat, FOut.lane, flagIf, decide_eq_true_eq]

theorem bqEncRoot_is (m : ℕ) (e : ℤ) {s : ℕ × ℤ} (hs : s.1 ≠ 0) {n : ℤ} (hn : n = roundedInt 0 (Real.sqrt (m * pow2 e) / magVal s)) :
    (bqEncRoot (.fin false m e) s).lane = .flagged (BitVec.ofInt 32 (min n 255)) (if 255 < n then fSAT else 0) := by
  have hsq : magVal (s.1 * s.1, 2 * s.2) = magVal s * magVal s := by
    rw [magVal, magVal, Nat.cast_mul, two_mul, pow2_add]
    ring
  obtain ⟨h0, hq⟩ := commonUnit_quotient (a := (m, e)) (b := (s.1 * s.1, 2 * s.2)) (mul_ne_zero hs hs)
  have hroot : Real.sqrt (m * pow2 e) / magVal s = Real.sqrt (magVal (m, e) / magVal (s.1 * s.1, 2 * s.2)) := by
    rw [hsq, Real.sqrt_div (magVal_nonneg _), Real.sqrt_mul_self (magVal_nonneg s)]
    rfl
  rw [hroot, hq, roundedInt_root h0] at hn
  unfold bqEncRoot
  dsimp only
  rw [if_neg Bool.false_ne_true]
  generalize nearestRoot (commonUnit (m, e) (s.1 * s.1, 2 * s.2)).1 (commonUnit (m, e) (s.1 * s.1, 2 * s.2)).2 = k at *
  have hmin : min (k : ℤ) 255 = (min k 255 : ℕ) := by omega
  have hsat : ((255 : ℤ) < k) = (255 < k) := by exact_mod_cast rfl
  rw [hn, hmin]
  simp only [hsat, BitVec.ofInt_natCast, FOut.lane, flagIf, decide_eq_true_eq]

/-- A value that is no number has code 0, with NV. -/
theorem bqEnc_special {v : FVal} (h : v.special = true) (s : ℕ × ℤ) :
    (bqEncLin v s).lane = .flagged 0 fNV ∧ (bqEncRoot v s).lane = .flagged 0 fNV := by
  cases v with
  | nan g => exact ⟨rfl, rfl⟩
  | inf g => exact ⟨rfl, rfl⟩
  | fin g m e => cases h

/-- A negative number has no code under .root. -/
theorem bqEncRoot_negative {m : ℕ} (hm : m ≠ 0) (e : ℤ) (s : ℕ × ℤ) : (bqEncRoot (.fin true m e) s).lane = .flagged 0 fNV := by
  simp [bqEncRoot, hm, flagIf, FOut.lane]

/-- The code of a number under .root, of its sign. -/
theorem bqEncRoot_number (g : Bool) (m : ℕ) (e : ℤ) {s : ℕ × ℤ} (hs : s.1 ≠ 0) (hx : 0 ≤ sgn g (m * pow2 e)) {n : ℤ}
    (hn : n = roundedInt 0 (Real.sqrt (sgn g (m * pow2 e)) / magVal s)) :
    (bqEncRoot (.fin g m e) s).lane = .flagged (BitVec.ofInt 32 (min n 255)) (if 255 < n then fSAT else 0) := by
  cases g with
  | false => exact bqEncRoot_is m e hs hn
  | true =>
    have hm : m = 0 := by
      by_contra hm
      exact absurd (operand_value_neg.mpr ⟨rfl, hm⟩) hx.not_gt
    have hz : sgn true ((0 : ℕ) * pow2 e) = 0 := by rw [Nat.cast_zero, zero_mul, sgn_eq_zero]
    rw [hm, hz, Real.sqrt_zero, zero_div] at hn
    have hn0 : n = 0 := hn.trans (by simp [roundedInt])
    rw [hm, hn0]
    rfl

theorem realS24_eq_zero {s : ℕ} (hlt : s < 2 ^ 24) : codesS24.real s = 0 ↔ s = 0 := by
  rw [real_eq_zero, codesS24_low hlt]

theorem laneBqenc_is (i : Iss) (op : Op) (l : ℕ) : BqencIs i op l (laneBqenc i op l) := by
  have hlt : (i.bv op l).toNat % 2 ^ 24 < 2 ^ 24 := Nat.mod_lt _ (Nat.two_pow_pos _)
  unfold BqencIs laneBqenc
  rw [bitsOf_zero]
  generalize (i.bv op l).toNat % 2 ^ 24 = s at *
  obtain ⟨hnone, hsome⟩ := s24Val_spec hlt
  dsimp only
  by_cases htop : s / 2 ^ 16 = 255
  · rw [hnone htop]
    exact ⟨fun _ => rfl, fun h => absurd htop h⟩
  obtain ⟨m, e, hval, hreal⟩ := hsome htop
  have hm : m = 0 ↔ s = 0 := by
    rw [← realS24_eq_zero hlt, hreal, mul_eq_zero, or_iff_left (pow2_ne_zero e), Nat.cast_eq_zero]
  rw [hval, hreal]
  dsimp only [FVal.isZero, FVal.mag]
  simp only [decide_eq_true_eq]
  by_cases hs : s = 0
  · rw [if_pos (hm.mpr hs)]
    exact ⟨fun _ => rfl, fun _ h => absurd hs h⟩
  rw [if_neg (mt hm.mp hs)]
  refine ⟨fun h => absurd h (by tauto), fun _ _ => ⟨fun h => ?_, fun h hf n hn => ?_, fun h hf => ?_⟩⟩
  · obtain ⟨hlin, hroot⟩ := bqEnc_special ((special_iff_noNumber i op l).mpr h) (m, e)
    rw [hlin, hroot, ite_self]
  · obtain ⟨g, p, q, hv, hx⟩ := f32_of_number h
    rw [if_pos hf, hv]
    exact bqEncLin_is g p q (mt hm.mp hs) (hx ▸ hn)
  · obtain ⟨g, p, q, hv, hx⟩ := f32_of_number h
    rw [if_neg hf, hv, hx]
    refine ⟨fun hneg => ?_, fun hpos n hn => bqEncRoot_number g p q (mt hm.mp hs) hpos hn⟩
    obtain ⟨rfl, hp⟩ := operand_value_neg.mp (show (FVal.fin g p q).operand.value < 0 from hneg)
    exact bqEncRoot_negative hp q _

/-! ## BQDEC (11 R253) -/

/-- A number from 1 up is not rounded to zero. -/
theorem roundedInt_pos {y : ℝ} (hy : 1 ≤ y) : 0 < roundedInt 0 y := by
  have hfloor : 1 ≤ ⌊y⌋ := Int.le_floor.mpr (by exact_mod_cast hy)
  simp only [roundedInt]
  split_ifs <;> omega

/-- A number from the smallest subnormal up is not rounded to zero. -/
theorem kept_ne_zero {c : Codes} {x : ℝ} (hx : pow2 (1 - c.bias - c.f) ≤ x) : c.kept 0 x ≠ 0 := by
  have hpos : 0 < x := (pow2_pos _).trans_le hx
  have hlog : pow2 (Int.log 2 x) ≤ x := by exact_mod_cast Int.zpow_log_le_self (b := 2) one_lt_two hpos
  have hle : pow2 (max (Int.log 2 |x|) (1 - c.bias) - c.f) ≤ x := by
    rw [abs_of_pos hpos]
    rcases le_total (Int.log 2 x) (1 - c.bias) with h | h
    · rwa [max_eq_right h]
    · rw [max_eq_left h]
      exact (pow2_le_pow2.mpr (by omega)).trans hlog
  have := roundedInt_pos ((one_le_div (pow2_pos _)).mpr hle)
  exact mul_ne_zero (by exact_mod_cast this.ne') (pow2_ne_zero _)

/-- What is delivered of a positive number is infinity, or a number that is not zero. -/
theorem operand_of_delivers {t : Res} {x : ℝ} (hx : pow2 (-149) ≤ x) (h : codes32.Delivers 0 x t) (hinf : codes32.isInf t.1 = false) :
    codes32.operand t.1 = .num (codes32.neg t.1) (codes32.real t.1) ∧ codes32.real t.1 ≠ 0 := by
  obtain ⟨hover, hheld⟩ := h
  rcases le_or_gt |codes32.wide 0 x| (codes32.real (codes32.inf - 1)) with hle | hgt
  · obtain ⟨hlow, -, hreal, -, -⟩ := hheld hle
    have hnan : codes32.isNan t.1 = false := decide_eq_false hlow.not_gt
    refine ⟨?_, ?_⟩
    · rw [Codes.operand, hnan, hinf, if_neg Bool.false_ne_true, if_neg Bool.false_ne_true]
    · rw [hreal]
      exact kept_ne_zero hx
  · obtain ⟨s, -, -, hi, -⟩ := hover hgt
    rw [hi (.inl rfl), Codes.isInf, low_withSign codes32 s (by decide), decide_eq_false_iff_not] at hinf
    exact absurd rfl hinf

/-- A code times a scale, delivered. -/
theorem deliver_scaled (c : ℤ) (m : ℕ) (e : ℤ) {t : FOut}
    (ht : t = deliver fp32 0 (decide (c < 0) && decide (m ≠ 0)) (c.natAbs * m) e false) :
    ((c : ℝ) * (m * pow2 e) = 0 → t.fl = 0 ∧ (t.code = 0 ∨ t.code = 2 ^ 31)) ∧
    ((c : ℝ) * (m * pow2 e) ≠ 0 → codes32.Delivers 0 (c * (m * pow2 e)) t.res) := by
  have hzero : (c : ℝ) * (m * pow2 e) = 0 ↔ c.natAbs * m = 0 := by
    rw [mul_eq_zero, mul_eq_zero, or_iff_left (pow2_ne_zero e), Int.cast_eq_zero, Nat.cast_eq_zero, mul_eq_zero, Int.natAbs_eq_zero]
  rw [ne_eq, hzero]
  refine ⟨fun h => ?_, fun h => ?_⟩
  · have hres : t.res = (codes32.withSign (decide (c < 0) && decide (m ≠ 0)) 0, 0) := by
      rw [ht, h]
      exact deliver_zero fp32 0 _ e
    refine ⟨congrArg Prod.snd hres, ?_⟩
    have hcode : t.code = _ := congrArg Prod.fst hres
    rw [hcode]
    cases decide (c < 0) && decide (m ≠ 0)
    · exact .inl rfl
    · exact .inr rfl
  · have hm : m ≠ 0 := right_ne_zero_of_mul h
    have hx : sgn (decide (c < 0) && decide (m ≠ 0)) ((c.natAbs * m : ℕ) * pow2 e) = c * (m * pow2 e) := by
      rw [decide_eq_true hm, Bool.and_true, Nat.cast_mul, mul_assoc, sgn_natAbs]
    have := deliver_exact sound_fp32 hasInf_fp32 h e 0 (decide (c < 0) && decide (m ≠ 0))
    rw [hx, ← ht] at this
    exact this

/-- The square of what is delivered, delivered. -/
theorem fMul_square {t : Res} {x : ℝ} (hx : pow2 (-149) ≤ x) (h : codes32.Delivers 0 x t) :
    (codes32.isInf t.1 = true → (fMul fp32 0 (decodeIeee fp32 t.1) (decodeIeee fp32 t.1)).res = (codes32.inf, 0)) ∧
    (codes32.isInf t.1 = false → codes32.Delivers 0 (codes32.real t.1 * codes32.real t.1)
      (fMul fp32 0 (decodeIeee fp32 t.1) (decodeIeee fp32 t.1)).res) := by
  have hdec := operand_decodeIeee fp32 t.1
  have hsig := isSig_decodeIeee fp32 t.1
  refine ⟨fun hinf => ?_, fun hinf => ?_⟩
  · have hv : decodeIeee fp32 t.1 = .inf (codes32.neg t.1) :=
      operand_eq_inf_iff.mp (hdec.symm.trans (operand_eq_inf.mpr ⟨hinf, rfl⟩))
    rw [hv]
    cases codes32.neg t.1 <;> rfl
  · obtain ⟨hop, hne⟩ := operand_of_delivers hx h hinf
    have hnosig : codes32.isSig t.1 = false := by
      rw [show codes32.isSig t.1 = _ from hsig]
      exact operand_ne_nan (by rw [← hdec, show fp32.codes.operand t.1 = _ from hop]; exact nofun)
    obtain ⟨-, hvalid⟩ := fMul_gives sound_fp32 hasInf_fp32 0 t.1 t.1
    obtain ⟨-, -, hnum⟩ := hvalid (by
      rintro (h | h | ⟨s, u, h⟩)
      · exact Bool.false_ne_true (hnosig.symm.trans h)
      · exact Bool.false_ne_true (hnosig.symm.trans h)
      · rw [show fp32.codes.operand t.1 = _ from hop] at h
        rcases h with ⟨h, -⟩ | ⟨-, h⟩ <;> cases h)
    rw [show fp32.codes.operand t.1 = _ from hop] at hnum
    exact (hnum _ _ rfl).2 (mul_ne_zero hne hne)

/-- A scale other than zero is at least FP32's smallest number. -/
theorem le_realS24 {s : ℕ} (hlt : s < 2 ^ 24) (hs : codesS24.real s ≠ 0) : pow2 (-149) ≤ codesS24.real s := by
  have hunits : codeUnits 16 s ≠ 0 := mt codeUnits_eq_zero.mp (mt (realS24_eq_zero hlt).mpr hs)
  have hone : (1 : ℝ) ≤ codeUnits 16 s := by exact_mod_cast Nat.one_le_iff_ne_zero.mpr hunits
  rw [real_eq, codesS24_neg hlt, codesS24_low hlt, sgn_false]
  calc pow2 (-149) ≤ 1 * pow2 (1 - codesS24.bias - codesS24.f) := by rw [one_mul]; exact pow2_le_pow2.mpr (by decide)
    _ ≤ codeUnits 16 s * pow2 (1 - codesS24.bias - codesS24.f) := mul_le_mul_of_nonneg_right hone (pow2_pos _).le

/-- A zero squared. -/
theorem fMul_zero {c : ℕ} (h : c = 0 ∨ c = 2 ^ 31) : (fMul fp32 0 (decodeIeee fp32 c) (decodeIeee fp32 c)).res = (0, 0) := by
  rcases h with rfl | rfl <;> decide

/-- A BQ8.lin code as a signed number (06 R166). -/
theorem linCode_eq {v : ℕ} (hv : v < 2 ^ 8) :
    (if v = 128 then -127 else (BitVec.ofNat 8 v).toInt) = if v < 128 then (v : ℤ) else if v = 128 then -127 else (v : ℤ) - 256 := by
  rw [BitVec.toInt_eq_toNat_cond, BitVec.toNat_ofNat, Nat.mod_eq_of_lt hv]
  split_ifs <;> omega

/-- Zero's codes leave no bits below the sign. -/
theorem flagged_zero_code {c : ℕ} (h : c = 0 ∨ c = 2 ^ 31) (fl : BitVec 8) : (LaneOut.flagged (BitVec.ofNat 32 c) fl).val.toNat % 2 ^ 31 = 0 := by
  rcases h with rfl | rfl <;> simp [LaneOut.flagged]

/-- BQDEC under .lin. -/
theorem bqDec_lin {v m : ℕ} (hv : v < 2 ^ 8) (e : ℤ) {c : ℤ}
    (hc : c = if v < 128 then (v : ℤ) else if v = 128 then -127 else (v : ℤ) - 256) :
    bqDec false v (m, e) = deliver fp32 0 (decide (c < 0) && decide (m ≠ 0)) (c.natAbs * m) e false := by
  rw [hc, ← linCode_eq hv]
  rfl

/-- BQDEC under .root. -/
theorem bqDec_root (v m : ℕ) (e : ℤ) : ∃ t, t = deliver fp32 0 (decide ((v : ℤ) < 0) && decide (m ≠ 0)) ((v : ℤ).natAbs * m) e false ∧
    bqDec true v (m, e) =
      let r := fMul fp32 0 (decodeIeee fp32 t.code) (decodeIeee fp32 t.code)
      { r with fl := r.fl ||| t.fl } := by
  refine ⟨_, rfl, ?_⟩
  rw [decide_eq_false (by omega), Bool.false_and, Int.natAbs_natCast]
  rfl

/-- A result with the flags of another kept, those of small results dropped. -/
theorem dropSmall_lane (r : FOut) (fl : BitVec 8) :
    (dropSmall { r with fl := r.fl ||| fl }).lane = .flagged (BitVec.ofNat 32 r.res.1) (noSmall (fl ||| r.res.2)) := by
  rw [BitVec.or_comm]
  rfl

theorem laneBqdec_is (i : Iss) (op : Op) (l : ℕ) : BqdecIs i op l (laneBqdec i op l) := by
  have hlt : (i.bv op l).toNat % 2 ^ 24 < 2 ^ 24 := Nat.mod_lt _ (Nat.two_pow_pos _)
  have hv : (i.a op l).toNat % 2 ^ 8 < 2 ^ 8 := Nat.mod_lt _ (Nat.two_pow_pos _)
  unfold BqdecIs laneBqdec
  rw [bitsOf_zero, bitsOf_zero]
  generalize (i.bv op l).toNat % 2 ^ 24 = s at *
  generalize (i.a op l).toNat % 2 ^ 8 = v at *
  obtain ⟨hnone, hsome⟩ := s24Val_spec hlt
  dsimp only
  by_cases htop : s / 2 ^ 16 = 255
  · rw [hnone htop]
    exact ⟨fun _ => rfl, fun h => absurd htop h, fun h => absurd htop h⟩
  obtain ⟨m, e, hval, hreal⟩ := hsome htop
  rw [hval, hreal]
  dsimp only [FVal.mag]
  refine ⟨fun h => absurd h htop, ?_⟩
  by_cases hroot : op.o.f.toNat = 5
  · simp only [hroot, true_or, if_true, decide_true, Int.cast_natCast]
    obtain ⟨t, ht, hdec⟩ := bqDec_root v m e
    obtain ⟨hzero, hnum⟩ := deliver_scaled v m e ht
    rw [hdec, dropSmall_lane]
    rw [Int.cast_natCast] at hzero hnum
    refine ⟨fun _ hx => ?_, fun _ hx => ?_⟩
    · obtain ⟨hfl, hcode⟩ := hzero hx
      rw [fMul_zero hcode, hfl]
      exact ⟨rfl, flagged_zero_code (.inl rfl) _⟩
    · have hs : codesS24.real s ≠ 0 := hreal ▸ right_ne_zero_of_mul hx
      have hv1 : (1 : ℝ) ≤ v := by
        have : v ≠ 0 := fun h => hx (by rw [h, Nat.cast_zero, zero_mul])
        exact_mod_cast Nat.one_le_iff_ne_zero.mpr this
      have hge : pow2 (-149) ≤ v * (m * pow2 e) := calc
        pow2 (-149) ≤ m * pow2 e := hreal ▸ le_realS24 hlt hs
        _ ≤ v * (m * pow2 e) := le_mul_of_one_le_left (magVal_nonneg (m, e)) hv1
      obtain ⟨hinf, hfin⟩ := fMul_square hge (hnum hx)
      refine ⟨t.res, hnum hx, fun h => absurd rfl h, fun _ => ⟨fun h => ?_, fun h => ⟨_, hfin h, rfl⟩⟩⟩
      have hsq : (fMul fp32 0 (decodeIeee fp32 t.code) (decodeIeee fp32 t.code)).res = (codes32.inf, 0) := hinf h
      rw [hsq, show t.fl ||| (codes32.inf, (0 : BitVec 8)).2 = t.fl from BitVec.or_zero]
      rfl
  · simp only [hroot, false_or, decide_false]
    generalize hc : (if v < 128 then (v : ℤ) else if v = 128 then -127 else (v : ℤ) - 256) = c
    obtain ⟨hzero, hnum⟩ := deliver_scaled c m e (bqDec_lin hv e hc.symm)
    refine ⟨fun _ hx => ?_, fun _ hx => ⟨_, hnum hx, fun _ => rfl, fun h => h.elim⟩⟩
    obtain ⟨hfl, hcode⟩ := hzero hx
    refine ⟨?_, flagged_zero_code hcode _⟩
    change _ &&& _ = _
    rw [hfl]
    rfl

/-- Settles O5: each form's lanes deliver the exact value, rounded once, by the lemma on its conversion. -/
theorem roundedConversions : Obligations.RoundedConversions := by
  unfold Obligations.RoundedConversions
  exact ⟨fun _ => rounds_of_lanes fun i op l _ => laneCvt_is i op l, fun _ => rounds_of_lanes fun i op l _ => laneCvt_is i op l,
    fun _ => rounds_of_lanes fun i op l _ => lanePack8_is i op l, fun _ => rounds_of_lanes fun i op l _ => lanePack8_is i op l,
    fun _ => rounds_of_lanes fun i op l _ => lanePack4_is i op l, fun _ => rounds_of_lanes fun i op l _ => lanePack4_is i op l,
    fun _ => rounds_of_lanes fun i op l _ => laneBqscal_is i op l, fun _ => rounds_of_lanes fun i op l _ => laneBqscal_is i op l,
    fun _ => rounds_of_lanes fun i op l _ => laneBqenc_is i op l, fun _ => rounds_of_lanes fun i op l _ => laneBqenc_is i op l,
    fun _ => rounds_of_lanes fun i op l _ => laneBqdec_is i op l, fun _ => rounds_of_lanes fun i op l _ => laneBqdec_is i op l,
    fun _ => rounds_of_lanes fun i op l _ => laneMxscal_is i op l, fun _ => rounds_of_lanes fun i op l _ => laneMxscal_is i op l⟩

end Sys2Proof
